-- ==== Sys2Proof/Word.lean ====
section
/-!
DEFINITION. The plain data types every layer uses: bytes, 32-bit words, and sparse tables (a list of key and value pairs).
Quantities, addresses, counts and times are natural numbers; what the spec lays out as bits is a bit vector.
-/
namespace Sys2Proof

/-- A byte of memory, flash or a frame. -/
abbrev Byte := BitVec 8

/-- A register word (R9). -/
abbrev Word := BitVec 32

/-- A sparse table: the entries that differ from the table's default value, in rising key order. -/
abbrev Tbl (α : Type) := List (Nat × α)

/-- A set of natural numbers: the keys listed with `true`. -/
abbrev NatSet := Tbl Bool

/-- A 48-bit physical address (R26, R27). -/
abbrev Addr := Nat

end Sys2Proof
end

