-- ==== Sys2Proof/Syntax.lean ====
section
/-!
DEFINITION. The commands of the TW480: one constructor of `Instr` per row of the operation and event table, and the
operands they carry. A command comes from outside (a register access, a message, a frame, a pin, a key) or is an event of
the unit's own engines and timers. What the outside world decides and the model cannot compute (the ECC result of a read,
how late a step completed, a measured rate, the bytes of a message) is an operand.
-/
namespace Sys2Proof

/-- The tag of a fabric request (R178), with the issuing unit's number (Table 14.1). -/
structure Tag where
  unit : Nat
  ctx : Nat
  part : Nat
  epoch : Nat
  sys : Bool
deriving DecidableEq, Repr

/-- Who makes a register access (R18, R488, R589, R590, R607). -/
inductive RegSrc where
  /-- The host through BAR0 of function `fn`: the unprivileged view of the partition it serves. -/
  | bar0 (fn : Fin 8)
  /-- The host through BAR2 of the physical function: the privileged view. -/
  | bar2
  /-- A fabric request to the privileged (`priv`) or unprivileged view. -/
  | fabric (tag : Tag) (priv : Bool)
  /-- The debug monitor (R607). -/
  | tap
  /-- Task code that starts its own Scull's engines (R254, R274). -/
  | task (scull : Fin 16)
deriving DecidableEq, Repr

/-- What the check code of a memory read found (R164 to R167): nothing, a corrected error, or uncorrectable words. -/
inductive Ecc where
  | clean
  | corrected
  | uncorrectable (mask : BitVec 8)
  /-- An uncorrectable error in the line's directory entry, with the sharer bits still readable as set (R173). -/
  | directory (readable : BitVec 19)
deriving DecidableEq, Repr

/-- What an engine's reads of its synapse SRAM or spill area meet (R164, R165, R402, R403): an uncorrectable error in the record at a place of
a fan-out row, or in a neuron's state. -/
inductive SramErr where
  | clean
  | corrected
  | synapse (row place : Nat)
  | neuron (index : Nat)
deriving DecidableEq, Repr

/-- The ordering of a fence (R124). -/
inductive FenceKind where
  | acquire | release | full
deriving DecidableEq, Repr

/-- A stalled channel, by the codes of Table 3.11. -/
structure Channel where
  vc : Nat
  column : Nat
  row : Nat
  port : Nat
deriving DecidableEq, Repr

/-- What the fabric met while it carried a message: entries refused by full crossings (R98), contested arbitrations and
those over 1 ns (R120), and a slot header error: 0 none, 1 corrected, 2 uncorrectable (R129). -/
structure FabEv where
  full : Nat
  contested : Nat
  long : Nat
  header : Nat
deriving DecidableEq, Repr

/-- Bytes for one line with their byte mask and poison marks (Table 4.2, R168). -/
structure Store where
  mask : BitVec 64
  bytes : List Byte
  poison : BitVec 8
deriving DecidableEq, Repr

/-- The operand bytes of an atomic (Table 4.7, R155). -/
structure AtomicArgs where
  wide : Bool
  order : Nat
  operand : BitVec 64
  compare : BitVec 64
  /-- Whether the request's code is none of Table 4.7 (R154). -/
  badCode : Bool
  /-- What the home's read of the line met (R167). -/
  ecc : Ecc
  fab : FabEv
deriving DecidableEq, Repr

/-- The payload of a LockOp (Table 4.8). `code` is byte 0, `rest` holds whether every reserved byte is 0. -/
structure LockArgs where
  code : Nat
  lockId : BitVec 16
  waitMs : BitVec 16
  reservedZero : Bool
  /-- An uncorrectable error met in the lock's storage (1) or its waiter queue (2); 0 for none (R173). -/
  ecc : Nat
  fab : FabEv
deriving DecidableEq, Repr

/-- The grant state a Data message carries (Table 4.2). -/
inductive Grant where
  | s | e | m | none
deriving DecidableEq, Repr

/-- What issued a request and receives its response. -/
inductive Work where
  /-- A request of a caching agent (Table 4.1). -/
  | agent (n : Fin 19)
  /-- The running task of a Scull. -/
  | task (scull : Fin 16)
  /-- A Slide engine (Table 6.13). -/
  | slide (eng : Fin 72)
  /-- Any other unit of Table 14.1. -/
  | unit (u : Nat)
deriving DecidableEq, Repr

/-- Where a response message arrives: at its requester, or at the home from a snooped cache. -/
inductive MsgTo where
  | requester (w : Work)
  | home (agent : Fin 19)
deriving DecidableEq, Repr

/-- The access that missed in a TLB (Table 5.7 FLAGS). -/
inductive Access where
  | read | write | exec | atomic
deriving DecidableEq, Repr

/-- The number formats of Table 6.2, with the 32-bit ones of the accumulators. -/
inductive NumFmt where
  | int4 | int8 | int16 | int32 | fp8 | fp16 | bf16 | fp32
deriving DecidableEq, Repr

/-- One array step (R230): the operand vector is broadcast down the rows into one accumulator entry. -/
structure ArrayOp where
  aFmt : NumFmt
  wFmt : NumFmt
  acts : List Nat
  entry : Fin 32
  /-- Whether an operand of the vector is poisoned (R168). -/
  poisoned : Bool
deriving DecidableEq, Repr

/-- Integer lane operations (Table 6.4). -/
inductive IntFn where
  | add | sub | mulLow | shl | shrLogic | shrArith | and | or | xor | minS | maxS | minU | maxU | cmpEq | cmpLtS | cmpLtU
deriving DecidableEq, Repr

/-- FP32 lane operations of two operands (Table 6.4). -/
inductive FpFn where
  | add | mul | min | max | cmpEq | cmpLt
deriving DecidableEq, Repr

/-- The approximated functions (R238, Table 6.4). -/
inductive ApproxFn where
  | recip | sqrt | rsqrt | exp2 | log2 | sin | cos | atan2
deriving DecidableEq, Repr

/-- Reductions across lanes (Table 6.4). -/
inductive RedFn where
  | sumInt | sumFp | maxS | minS | maxFp | minFp
deriving DecidableEq, Repr

/-- One vector operation over all 512 lanes (R238). Registers are 0 to 31. -/
inductive VecOp where
  | int (f : IntFn) (a b d : Fin 32)
  | select (c a b d : Fin 32)
  | fp (f : FpFn) (a b d : Fin 32)
  | fma (a b c d : Fin 32)
  /-- A conversion of Table 6.3; `quant` names the registers of a per-lane scale and shift, for requantisation. -/
  | conv (src dst : NumFmt) (a d : Fin 32) (quant : Option (Fin 32 × Fin 32))
  | reduce (f : RedFn) (a d : Fin 32)
  | approx (f : ApproxFn) (a b d : Fin 32)
  /-- `ecc` is what the check code of line `line` of the 32 it reads shows (R164). -/
  | load (tileOff : Nat) (d : Fin 32) (ecc : Ecc) (line : Nat)
  | store (a : Fin 32) (tileOff : Nat)
deriving DecidableEq, Repr

/-- Which read of a slot fails or hangs (R85): none, that of its header in step 4, or that of its body in steps 5 and 6. -/
inductive FlashHang where
  | none | header | body
deriving DecidableEq, Repr

/-- What the start-up timeline samples and meets (Table 2.12). -/
structure StartEnv where
  /-- The start follows power-on (or a power cycle), not another reset. -/
  powerOn : Bool
  /-- FORCE_FACTORY_N is held low at step 3 (R82). -/
  forceFactory : Bool
  /-- TEACH and ACK both read as pressed at step 3 (R82). -/
  teachAck : Bool
  /-- Reads of slot A or slot B that hang (R85). -/
  hangA : FlashHang
  hangB : FlashHang
  /-- The link training of IO-A has failed by the time bare mode is entered (R43). -/
  ioaFails : Bool
  /-- The chosen slot's Cox patch fails to load (R86). -/
  patchFails : Bool
  /-- A FIELD_REVOKE fuse does not verify after burning (R624). -/
  burnFails : Bool
  /-- Milliseconds from power-on to BARE, as measured (BOOT_TIME_MS). -/
  ms : Nat
deriving DecidableEq, Repr

/-- What the decoder made of an access unit (R328, R354, R355): a frame that may start decoding (an IDR or IRAP picture or a recovery point),
another frame, a unit with a missing packet or one it rejects, a frame of another size or an unsupported profile. -/
inductive FrameKind where
  | entry | inter | rejected | mismatch
deriving DecidableEq, Repr

/-- An RTP or RTCP packet as a port receives it (R329, R341): addresses, port, source, sequence number and timestamp. -/
structure RtpPacket where
  dstAddr : List Byte
  dstPort : Nat
  srcAddr : List Byte
  ssrc : BitVec 32
  payloadType : Nat
  seq : BitVec 16
  rtpTs : BitVec 32
  /-- The Ethernet frame is VLAN-tagged or above 1,518 bytes, or the packet is an IP fragment (Table 8.4). -/
  unsupported : Bool := false
deriving DecidableEq, Repr

/-- A message of the Jalvin link (Table 12.12). -/
structure LinkMsg where
  flags : BitVec 8
  srcPkg : BitVec 4
  srcUnit : BitVec 8
  tag : BitVec 16
  epoch : BitVec 16
  addr : BitVec 48
  arg : BitVec 64
  data : List Byte
deriving DecidableEq, Repr

/-- A byte the host has placed in its memory. -/
structure HostByte where
  addr : Nat
  val : Byte
deriving DecidableEq, Repr

/-- The causes of a device-fatal error (R580, Table 14.11). -/
inductive FatalCause where
  | lockstep | coxWatchdog | coxSram | supply
deriving DecidableEq, Repr

/-- What the check bits of a block of the Boathouse show when it is read at step 12 (R439): its bank and number, the codewords corrected, and those
beyond correction. -/
structure BchRead where
  bank : Fin 2
  block : Fin 256
  corrected : Nat
  bad : List (Fin 128)
deriving DecidableEq, Repr

/-- The commands, in the order of the table (spec/opcode_table.json). -/
inductive Instr where
  /-- REG64_LOW_WRITE (R15). A write of the low word of a 64-bit register places it in the writing context's holding word and leaves the register unchanged. -/
  | reg64LowWrite (src : RegSrc) (off : Nat) (v : Word)
  /-- REG64_HIGH_WRITE (R15). A write of the high word of a 64-bit register commits it, with the context's holding word or the current low word, as one 64-bit update. -/
  | reg64HighWrite (src : RegSrc) (off : Nat) (v : Word)
  /-- REG64_LOW_READ (R17). A read of the low word of a 64-bit register returns the live low word and captures the live high word into the context's shadow. -/
  | reg64LowRead (src : RegSrc) (off : Nat)
  /-- REG64_HIGH_READ (R17). A read of the high word of a 64-bit register returns and releases the captured shadow, or the live high word when there is no shadow. -/
  | reg64HighRead (src : RegSrc) (off : Nat)
  /-- REGISTER_WRITE (R668). A write to a register with no row of its own sets its RW, W1C and W1S fields and ignores out-of-range values field by field. -/
  | registerWrite (src : RegSrc) (off : Nat) (size : Nat) (v : Word)
  /-- START_UP (R81). The input entering its range, or a reset, starts the start-up timeline from regulator ramp through slot choice. -/
  | startUp (env : StartEnv)
  /-- FLASH_READ_TIMEOUT (R85). A flash read that does not complete within 10 ms gives the slot the code FLASH_READ, and slot choice proceeds. -/
  | flashReadTimeout (slot : Fin 2)
  /-- TRAINING_COMPLETE (R41). Stack and I/O die training ends, and the unit sets GLB_PRESENT and handles untrained stacks and dies. -/
  | trainingComplete (stackUp : BitVec 4) (dieUp cables : BitVec 3) (bch : List BchRead) (ms : Nat)
  /-- REPLICA_RATE_REFRESH (R93). Each half's replica stage refreshes its measured rate in FAB_SPEED every 1 ms. -/
  | replicaRateRefresh (west : BitVec 16) (east : BitVec 16)
  /-- REQUEST_TIMEOUT (R130). A request with no response after 100 µs completes TIMEOUT and ends its task or transfer as a contained error. -/
  | requestTimeout (w : Work) (addr : Addr)
  /-- CHANNEL_STALL (R131). A channel that holds its request high without acknowledge for 50 µs is recorded, and its silent unit is handled. -/
  | channelStall (ch : Channel) (unit : Nat)
  /-- FENCE (R124). A fence issued by task code performs acquire, release or full ordering. -/
  | fence (scull : Fin 16) (kind : FenceKind)
  /-- READ_SHARED (R141). A home serves a request for a readable copy by the directory table, snooping an owner when needed. -/
  | readShared (tag : Tag) (agent : Fin 19) (addr : Addr) (ticket : Option Nat) (ecc : Ecc) (fab : FabEv)
  /-- READ_OWN (R141). A home serves a request for a writable copy, invalidating every other holder first. -/
  | readOwn (tag : Tag) (agent : Fin 19) (addr : Addr) (store : Store) (ticket : Option Nat) (ecc : Ecc) (fab : FabEv)
  /-- UPGRADE (R141). A home grants M to a sharer after invalidating the others, or serves a non-sharer's Upgrade as ReadOwn. -/
  | upgrade (tag : Tag) (agent : Fin 19) (addr : Addr) (store : Store) (ticket : Option Nat) (ecc : Ecc) (fab : FabEv)
  /-- READ_ONCE (R141). A home returns the current line without recording a copy, snooping an owner to S. -/
  | readOnce (tag : Tag) (src : Work) (addr : Addr) (ticket : Option Nat) (ecc : Ecc) (fab : FabEv)
  /-- WRITE_LINE (R141). A home writes the masked bytes of a line after invalidating every holder, clearing poison of words it covers. -/
  | writeLine (tag : Tag) (src : Work) (addr : Addr) (store : Store) (ticket : Option Nat) (ecc : Ecc) (fab : FabEv)
  /-- ATOMIC_FETCH_ADD (R153). A home adds the operand to the word modulo its width and returns the old value. -/
  | atomicFetchAdd (tag : Tag) (src : Work) (addr : Addr) (args : AtomicArgs) (ticket : Option Nat)
  /-- ATOMIC_SWAP (R153). A home replaces the word with the operand and returns the old value. -/
  | atomicSwap (tag : Tag) (src : Work) (addr : Addr) (args : AtomicArgs) (ticket : Option Nat)
  /-- ATOMIC_COMPARE_SWAP (R153). A home writes the operand when the old value equals the compare value, and returns the old value. -/
  | atomicCompareSwap (tag : Tag) (src : Work) (addr : Addr) (args : AtomicArgs) (ticket : Option Nat)
  /-- ATOMIC_MIN_S (R153). A home keeps the signed smaller of word and operand and returns the old value. -/
  | atomicMinS (tag : Tag) (src : Work) (addr : Addr) (args : AtomicArgs) (ticket : Option Nat)
  /-- ATOMIC_MAX_S (R153). A home keeps the signed larger of word and operand and returns the old value. -/
  | atomicMaxS (tag : Tag) (src : Work) (addr : Addr) (args : AtomicArgs) (ticket : Option Nat)
  /-- ATOMIC_MIN_U (R153). A home keeps the unsigned smaller of word and operand and returns the old value. -/
  | atomicMinU (tag : Tag) (src : Work) (addr : Addr) (args : AtomicArgs) (ticket : Option Nat)
  /-- ATOMIC_MAX_U (R153). A home keeps the unsigned larger of word and operand and returns the old value. -/
  | atomicMaxU (tag : Tag) (src : Work) (addr : Addr) (args : AtomicArgs) (ticket : Option Nat)
  /-- LOCK_ACQUIRE (R159). A Pocket grants a lock, queues the caller, or answers BUSY, DENIED or ORPHAN. -/
  | lockAcquire (tag : Tag) (op : LockArgs)
  /-- LOCK_TRY_ACQUIRE (R159). A Pocket grants a Free or Orphaned lock, or answers BUSY or DENIED without queueing. -/
  | lockTryAcquire (tag : Tag) (op : LockArgs)
  /-- LOCK_RELEASE (R159). A Pocket frees a lock held by the caller or passes it to the first waiter with LockGrant OK. -/
  | lockRelease (tag : Tag) (op : LockArgs)
  /-- LOCK_INSPECT (R177). A Pocket answers with the lock's state layout. -/
  | lockInspect (tag : Tag) (op : LockArgs)
  /-- SNOOP_SHARE (R144). A cache answers a downgrade snoop with Data, Ack or SnoopMiss, or holds it until its pending grant arrives. -/
  | snoopShare (agent : Fin 19) (addr : Addr) (after : Bool) (evicting : Bool) (ecc : Ecc) (fab : FabEv)
  /-- SNOOP_INV (R144). A cache answers an invalidating snoop with Data, Ack or SnoopMiss, or holds it until its pending grant arrives. -/
  | snoopInv (agent : Fin 19) (addr : Addr) (after : Bool) (evicting : Bool) (ecc : Ecc) (fab : FabEv)
  /-- SNOOP_MISS (R151). A home records a SnoopMiss answer and completes the busy entry once any eviction in flight has arrived. -/
  | snoopMiss (agent : Fin 19) (addr : Addr) (fab : FabEv)
  /-- EVICT_NOTICE (R141). A home removes the holder from the directory and releases a waiter that stood behind the eviction. -/
  | evictNotice (tag : Tag) (agent : Fin 19) (addr : Addr) (ue : Bool) (fab : FabEv)
  /-- WRITE_BACK (R143). A home sinks a dirty eviction into memory at once, whatever the line's state. -/
  | writeBack (tag : Tag) (agent : Fin 19) (addr : Addr) (data : Store) (ue : BitVec 8) (fab : FabEv)
  /-- DATA (R145). A requester installs granted data, performs its access and answers any snoop held for the line. -/
  | data (dst : MsgTo) (addr : Addr) (data : Store) (grant : Grant) (epoch : Nat) (fab : FabEv)
  /-- ACK (R139). A requester receives a completion without data, which completes its request or a Slide burst. -/
  | ack (dst : MsgTo) (addr : Addr) (status : Nat) (epoch : Nat) (fab : FabEv)
  /-- RETRY (R148). A requester receives Retry with a ticket and arranges to reissue the request. -/
  | retry (src : Work) (addr : Addr) (ticket : Nat) (fab : FabEv)
  /-- RETRY_REISSUE (R150). After 100 ns the requester reissues the refused request, presenting its ticket. -/
  | retryReissue (src : Work) (addr : Addr)
  /-- TICKET_RESERVATION_EXPIRY (R149). A place reserved for a Retry ticket for 10 µs passes to the next unserved ticket. -/
  | ticketReservationExpiry (addr : Addr)
  /-- LOCK_GRANT (R160). A queued waiter receives the deferred result of its Acquire: OK, ORPHAN or TIMEOUT. -/
  | lockGrant (tag : Tag) (lock : Nat) (status : Nat) (fab : FabEv)
  /-- LOCK_WAIT_TIMEOUT (R160). When WAIT_MS passes, the Pocket removes the waiter from the queue and sends LockGrant TIMEOUT. -/
  | lockWaitTimeout (tag : Tag) (lock : Nat)
  /-- EPOCH_BROADCAST (R553). A target records a unit's new epoch; Pockets orphan its locks and homes drop its lines. -/
  | epochBroadcast (unit : Nat) (epoch : Nat) (latNs : Nat) (fab : FabEv)
  /-- CONTEXT_FAULT_NOTICE (R161). A Pocket receiving a context-fault notice orphans that context's locks and removes its waiters. -/
  | contextFaultNotice (ctx : Nat) (fab : FabEv)
  /-- PATROL_SCRUB (R170). The patrol scrubber reads the next Pocket or HBM line on its period and corrects or records errors. -/
  | patrolScrub (addr : Addr) (ecc : Ecc)
  /-- TLB_MISS (R202). An access missing both TLB levels stalls its engine and sends a miss request to the Cox. -/
  | tlbMiss (xlu : Fin 17) (ctx : Nat) (va : Nat) (kind : Access) (w : Work)
  /-- WALK_COMPLETE (R203). A Cox walk ends, filling every waiting XLU with a merged or single entry, or raising a fault. -/
  | walkComplete (ctx : Nat) (va : Nat) (readErr : Option (Nat × Option Nat)) (ecc : Ecc)
  /-- SAVE_AREA_WRITTEN (R246). A switch-out finishes writing the save area, or fails and makes the task FAILED. -/
  | saveAreaWritten (scull : Fin 16) (task : Nat) (status : Nat)
  /-- XLU_FQ_HEAD_WRITE (R212). Advancing HEAD frees queue space, and the Cox rewalks held requests in arrival order. -/
  | xluFqHeadWrite (src : RegSrc) (part : Fin 8) (v : Word)
  /-- FQ_RESUME_RETRY (R210). The owner resolves a fault with RETRY: the Cox walks again for every waiter. -/
  | fqResumeRetry (src : RegSrc) (part : Fin 8) (id : Nat)
  /-- FQ_RESUME_ABORT (R210). The owner resolves a fault with ABORT: every waiter's task or transfer ends ABORTED. -/
  | fqResumeAbort (src : RegSrc) (part : Fin 8) (id : Nat)
  /-- FAULT_HOLD_TIMEOUT (R213). A held fault exceeding the fault-hold limit quarantines its context and ends its tasks with TIMEOUT. -/
  | faultHoldTimeout (ctx : Nat)
  /-- CTX_RELEASE (R214). Writing RELEASE returns a QUARANTINED context to IDLE. -/
  | ctxRelease (src : RegSrc) (ctx : Nat)
  /-- XLU_CTX_CFG_WRITE (R186). A write of a context's FORMAT or COUNT takes effect only while the context is IDLE, and is otherwise refused with a record. -/
  | xluCtxCfgWrite (src : RegSrc) (ctx : Nat) (v : Word)
  /-- INV_CONTEXT (R216). An Invalidate command removes every TLB entry of one context. -/
  | invContext (src : RegSrc) (part : Fin 8) (ctx : Nat)
  /-- INV_RANGE (R216). An Invalidate command removes the entries of one context that overlap an address range. -/
  | invRange (src : RegSrc) (part : Fin 8) (ctx : Nat)
  /-- INV_PARTITION (R216). An Invalidate command removes every entry of every context of the partition. -/
  | invPartition (src : RegSrc) (part : Fin 8)
  /-- INV_STAGE2 (R216). An Invalidate command removes the partition's entries and the Cox's stage-2 walk state. -/
  | invStage2 (src : RegSrc) (part : Fin 8)
  /-- INVALIDATE_COMPLETE (R219). An accepted command completes once every request using a removed translation has drained, and DONE_SEQ advances. -/
  | invalidateComplete (part : Fin 8)
  /-- MISS_TIMEOUT (R225). A miss left unfilled for 1 ms completes TIMEOUT and ends its task. -/
  | missTimeout (xlu : Fin 17) (ctx : Nat) (va : Nat)
  /-- ARRAY_STEP (R230). The array broadcasts one operand vector and accumulates each column's products into one accumulator entry. -/
  | arrayStep (scull : Fin 16) (step : ArrayOp)
  /-- WEIGHT_PLANE_LOAD (R228). A weight plane loads into the shadow plane one row per step time from tile memory; `dual` gives each cell two INT4
  weights, as an INT4 × INT4 step takes them (Table 6.1); `ecc` is what line `line` of those it reads shows (R164). -/
  | weightPlaneLoad (scull : Fin 16) (fmt : NumFmt) (dual : Bool) (tileOff : Nat) (ecc : Ecc) (line : Nat)
  /-- PLANE_SWAP (R228). The shadow and active weight planes swap between two steps. -/
  | planeSwap (scull : Fin 16)
  /-- ACCUMULATOR_DRAIN (R229). The vector unit drains one confirmed accumulator entry of all columns into a vector register. -/
  | accumulatorDrain (scull : Fin 16) (entry : Fin 32) (reg : Fin 32)
  /-- VECTOR_OP (R238). The vector unit executes one operation across all 512 lanes. -/
  | vectorOp (scull : Fin 16) (op : VecOp)
  /-- CATCH_CHECKER_CLOSE (R279). A checker closes, confirming the step or reporting a Catch error. -/
  | catchCheckerClose (scull : Fin 16) (late : Nat)
  /-- CATCH_WINDOW_END (R289). A window of steps ends, and after 16 quiet windows the governor raises A. -/
  | catchWindowEnd (scull : Fin 16)
  /-- TASK_RUNNABLE (R241). A task whose input rings have all published its bytes joins the ready list, or waits when the list is full. -/
  | taskRunnable (scull : Fin 16) (task : Nat) (trigger : Nat)
  /-- TASK_DISPATCH (R251). The sequencer starts the first task of the ready list, acquiring its inputs. -/
  | taskDispatch (scull : Fin 16)
  /-- TASK_COMMIT (R244). A task commits: its transfers complete, its results confirm, outputs are published, input credits return and the task is DONE. -/
  | taskCommit (scull : Fin 16) (given : List Nat)
  /-- TASK_WATCHDOG_EXPIRY (R249). An attempt running beyond twice ENVELOPE ends with TIMEOUT. -/
  | taskWatchdogExpiry (scull : Fin 16)
  /-- SLD_START (R259). START checks the descriptor and begins the transfer, or refuses it with ERROR DENIED or BUSY. -/
  | sldStart (src : RegSrc) (eng : Fin 72) (ctx : Nat)
  /-- SLD_ABORT (R273). ABORT ends a running, waiting or faulted transfer with ABORTED, keeping its published prefix. -/
  | sldAbort (src : RegSrc) (eng : Fin 72)
  /-- SLIDE_BURST_ISSUE (R258). The engine translates and issues its next burst in stream order, at most one per step time and eight in flight. -/
  | slideBurstIssue (eng : Fin 72)
  /-- SLIDE_CREDIT_ARRIVES (R263). A WAIT_CREDIT engine sees the ring's PUB or CON move and continues. -/
  | slideCreditArrives (eng : Fin 72)
  /-- VME_UPDATE (R287). Every 100 ms the Cox derives each Scull's minimum-energy voltage. -/
  | vmeUpdate (scull : Fin 16) (leakage : Nat) (temp : Nat) (ok : Bool)
  /-- VSO_GOVERNOR_TICK (R288). Every 1 ms the governor sets each Scull's V_so and each half's VDD_CORE from demand. -/
  | vsoGovernorTick
  /-- FRAME_DECODED (R326). A decoded frame is written to a free slot of the lane's data area with its device time, or is held or dropped. -/
  | frameDecoded (lane : Fin 64) (kind : FrameKind) (rtpTs : BitVec 32) (arrival : Nat) (bytes : List Byte) (fab : FabEv)
  /-- DELTA_COMPARE_DONE (R296). The Delta Engine finishes the tile metrics and candidate counts of a frame. -/
  | deltaCompareDone (lane : Fin 64)
  /-- ENERGY_GOVERNOR_CHOOSE (R304). The Cox chooses the frame's threshold index from the counts and the lane's capacity. -/
  | energyGovernorChoose (lane : Fin 64)
  /-- DELTA_MAP_TIMEOUT (R314). A map not published within one frame interval drops the frame as a gap and marks the next frame all changed. -/
  | deltaMapTimeout (lane : Fin 64)
  /-- CATCH_BAND_WRITE (R303). A band write takes effect at the next frame's step 2, or is ignored with a DENIED record. -/
  | catchBandWrite (src : RegSrc) (lane : Fin 64) (v : Word)
  /-- CATCH_REUSE_CFG_WRITE (R302). A MODE or AGE_MAX write takes effect at the next frame, which is marked all changed. -/
  | catchReuseCfgWrite (src : RegSrc) (lane : Fin 64) (v : Word)
  /-- CATCH_AGGR_MAX_WRITE (R289). Writing AGGR_MAX below a Scull's A lowers A at the next 1 ms decision. -/
  | catchAggrMaxWrite (src : RegSrc) (scull : Fin 16) (v : Word)
  /-- POWER_POLICY_OFF (R308). A domain idle for its policy time is quiesced and switched off. -/
  | powerPolicyOff (dom : Fin 72)
  /-- DOMAIN_WAKE_DONE (R309). A waking domain comes on, its stand-in is withdrawn and held requests proceed. -/
  | domainWakeDone (dom : Fin 72)
  /-- WAKE_TIMEOUT (R315). A wake not done within ten times its time completes held requests with TARGET_DOWN. -/
  | wakeTimeout (dom : Fin 72)
  /-- PWR_REQ_AUTO (R310). AUTO releases a domain's pin and returns it to the automatic policy. -/
  | pwrReqAuto (src : RegSrc) (dom : BitVec 8)
  /-- PWR_REQ_ON (R310). ON switches a domain on and pins it on. -/
  | pwrReqOn (src : RegSrc) (dom : BitVec 8)
  /-- PWR_REQ_OFF (R310). OFF quiesces and switches a domain off and pins it off, or completes BUSY or DENIED. -/
  | pwrReqOff (src : RegSrc) (dom : BitVec 8)
  /-- PWR_REQ_FORCE_OFF (R567). FORCE_OFF takes a domain down under the forced power-down rules, poisoning data and orphaning locks. -/
  | pwrReqForceOff (src : RegSrc) (dom : BitVec 8)
  /-- RTP_PACKET (R329). An RTP packet is matched to a camera lane and passed to its decoder, and a changed SSRC restarts the stream. -/
  | rtpPacket (die : Fin 3) (port : Fin 2) (pkt : RtpPacket)
  /-- RTCP_SENDER_REPORT (R341). A sender report updates the lane's RTP-to-device-time mapping. -/
  | rtcpSenderReport (die : Fin 3) (port : Fin 2) (pkt : RtpPacket) (sec : Nat) (frac : BitVec 32)
  /-- MEMBERSHIP_QUERY (R327). The unit answers an IGMPv3 or MLDv2 query for its joins. -/
  | membershipQuery (die : Fin 3) (port : Fin 2) (family : Nat) (group : List Byte)
  /-- PTP_SYNC (R338). An accepted Sync disciplines device time, setting it forward once at first lock and slewing it after. -/
  | ptpSync (domain : Nat) (seq : BitVec 16) (twoStep : Bool) (origin : Nat)
  /-- PTP_FOLLOW_UP (R327). A two-step master's Follow_Up supplies the precise origin time of its Sync. -/
  | ptpFollowUp (seq : BitVec 16) (origin : Nat)
  /-- PTP_DELAY_RESP (R327). A Delay_Resp completes the delay request-response measurement. -/
  | ptpDelayResp (sent : Nat) (received : Nat)
  /-- PTP_ANNOUNCE (R341). An Announce drives the BMCA and updates NET_UTC_OFFSET when currentUtcOffsetValid is set. -/
  | ptpAnnounce (domain : Nat) (rank : List Nat) (utcValid : Bool) (utc : BitVec 16)
  /-- PTP_HOLDOVER_ENTRY (R339). With no Sync for 2 s device time enters holdover and a record is written. -/
  | ptpHoldoverEntry
  /-- GPTP_SYNC_TIMER (R327). Every 125 ms the grandmaster sends Sync on each T1S segment that carries a lane. -/
  | gptpSyncTimer (die : Fin 3) (seg : Fin 4)
  /-- GPTP_PDELAY_REQ (R327). The grandmaster answers a node's peer delay request. -/
  | gptpPdelayReq (die : Fin 3) (seg : Fin 4) (frame : List Byte)
  /-- SENSOR_ANNOUNCE (R332). An ANNOUNCE from a node that a lane accepts is answered with CONFIG. -/
  | sensorAnnounce (die : Fin 3) (seg : Fin 4) (mac : BitVec 48) (frame : List Byte)
  /-- SENSOR_STATUS (R357). A STATUS frame updates the node's state, synchronisation and error, and an ERROR change is recorded. -/
  | sensorStatus (die : Fin 3) (seg : Fin 4) (frame : List Byte)
  /-- SENSOR_SAMPLES (R334). A SAMPLES frame is assembled into blocks, and each complete block is written to the ring with its device time. -/
  | sensorSamples (die : Fin 3) (seg : Fin 4) (frame : List Byte)
  /-- CONFIG_RESEND (R332). Every 10 s the unit resends CONFIG to each accepted node. -/
  | configResend
  /-- TDM_BLOCK_COMPLETE (R336). A TDM port completes a block of samples, which is stamped and written to the lane's ring. -/
  | tdmBlockComplete (die : Fin 3) (port : Fin 2) (t0 : Nat) (samples : List Nat)
  /-- TDM_SDIN_SILENT (R356). No clock activity on SDIN for 1 s puts the TDM lane SILENT. -/
  | tdmSdinSilent (die : Fin 3) (port : Fin 2)
  /-- T1S_SEGMENT_FAULT (R356). A missing PLCA beacon echo or PHY fault puts every lane of the segment SILENT. -/
  | t1sSegmentFault (die : Fin 3) (seg : Fin 4)
  /-- LANE_SILENT_TIMEOUT (R324). A lane with nothing arriving for three intervals or 1 s goes SILENT. -/
  | laneSilentTimeout (lane : Fin 64)
  /-- FRAME_INTERVAL_LOSS (R352). Each interval beyond 1.5 without an arrival counts a frame or block lost. -/
  | frameIntervalLoss (lane : Fin 64)
  /-- GAP_INTERVAL_END (R351). At the end of a gap interval with shed or lost items, the lane emits one GAP record. -/
  | gapIntervalEnd (lane : Fin 64)
  /-- STACK_THERMAL_HALVING (R347). A stack crossing 95 °C upward or 90 °C downward halves or restores its rate and D. -/
  | stackThermalHalving (site : Fin 4) (hot : Bool)
  /-- SHED_EVALUATE (R348). Every 100 ms, and within 1 ms of a change of D, the unit finds the shed target and applies or undoes steps. -/
  | shedEvaluate
  /-- LANE_REPORT_MASK_WRITE (R475). A report mask write changes destinations for later records, or is refused with a DENIED record. -/
  | laneReportMaskWrite (src : RegSrc) (lane : Fin 64) (v : Word)
  /-- LANE_LEVEL_WRITE (R398). A novelty level write takes effect at the next entry and restarts holds, or is ignored when it breaks the level order. -/
  | laneLevelWrite (src : RegSrc) (lane : Fin 64) (which : Fin 3) (v : Word)
  /-- LANE_TIMING_WRITE (R321). A write of TEACH_S or HOLD_MS takes effect at the next entry, or is refused when out of range. -/
  | laneTimingWrite (src : RegSrc) (lane : Fin 64) (v : Word)
  /-- LE_EVENT (R364). A Learning Engine takes one event from a lane's ring, makes its input neuron spike and schedules deliveries. -/
  | leEvent (lane : Fin 64) (spillErr : Option Nat) (sram : SramErr)
  /-- DELAY_WHEEL_RELEASE (R374). A waiting delivery is released once its population's engine time reaches its due time. -/
  | delayWheelRelease (eng : Fin 2) (spillErr : Option Nat) (sram : SramErr)
  /-- EVALUATION_SWEEP (R388). Every EVAL_TICKS the population is swept: eligibility decays, weak synapses age and are pruned, and stale fan-in entries are dropped. -/
  | evaluationSweep (eng : Fin 2) (pop : Fin 64) (spillErr : Option Nat) (sram : SramErr)
  /-- LRN_MOD_TEACH (R390). A Teach opens or restarts the lane's teach window, setting m to +1 unless a Mark is active. -/
  | lrnModTeach (src : RegSrc) (lane : Fin 64)
  /-- LRN_MOD_MARK (R390). A Mark sets m to −1 for 60 s, restarting when a Mark is already active. -/
  | lrnModMark (src : RegSrc) (lane : Fin 64)
  /-- LRN_MOD_CANCEL (R390). A Cancel sets m to 0, closing the teach window and ending any Mark. -/
  | lrnModCancel (src : RegSrc) (lane : Fin 64)
  /-- MARK_EXPIRY (R390). Sixty seconds after a Mark, m returns to the teach window's value or 0. -/
  | markExpiry (lane : Fin 64)
  /-- TEACH_WINDOW_EXPIRY (R390). The teach window closes after TEACH_S seconds and m becomes 0 unless a Mark is active. -/
  | teachWindowExpiry (lane : Fin 64)
  /-- POP_FREEZE_WRITE (R392). Setting or clearing FREEZE freezes or unfreezes learning on the selected population. -/
  | popFreezeWrite (src : RegSrc) (v : Word)
  /-- EVENT_RING_TIMEOUT (R406). An event entry left unconsumed for 100 ms writes a TIMEOUT record and treats the engine as silent. -/
  | eventRingTimeout (lane : Fin 64)
  /-- CHECKPOINT_DUE (R427). When a population's interval passes, it is skipped, deferred by the wear budget, or paused and copied. -/
  | checkpointDue (n : Fin 128)
  /-- BH_CKPT_CMD (R427). CKPT written to BH_CMD starts a checkpoint of a dirty population at once, or is refused with BUSY or DENIED. -/
  | bhCkptCmd (src : RegSrc) (n : Fin 128)
  /-- DEFERRED_CHECKPOINT_START (R427). A deferred checkpoint starts as soon as the wear budget allows. -/
  | deferredCheckpointStart (n : Fin 128)
  /-- SNAPSHOT_COPY_DONE (R416). The copy ends, the pause ends, and queued triggers and due sweeps are applied in order. -/
  | snapshotCopyDone (eng : Fin 2) (ecc : Bool)
  /-- SLOT_WRITE_DONE (R427). The controller finishes writing the slot and begins reading it back. -/
  | slotWriteDone (bank : Fin 2) (failed : List Nat)
  /-- READBACK_DONE (R428). A verified slot commits and the old blocks return to the pool, or a failing one is rewritten once or abandoned. -/
  | readbackDone (bank : Fin 2) (corrected : Nat) (failed : List Nat)
  /-- PWRFAIL (R641). Undervoltage, overvoltage or SHUTDOWN_N low starts the latched power-fail shutdown. -/
  | pwrfail
  /-- POWERFAIL_CONTROLLERS_STOP (R434). Eighteen milliseconds after PWRFAIL both Boathouse controllers stop, and incomplete commits do not count. -/
  | powerfailControllersStop
  /-- RESTART_AFTER_PWRFAIL (R642). With rails off 50 ms, input in range and SHUTDOWN_N high, the module restarts at step 1. -/
  | restartAfterPwrfail (offMs : Nat) (inRange : Bool) (shutdownHigh : Bool) (cool : Bool)
  /-- NOP (R498). The mailbox command NOP completes at once. -/
  | nop (fn : Fin 8) (seq : BitVec 32) (irq : Bool)
  /-- LOAD_MODEL (R454). A model image is checked, its profiles are tried in order against demand and placement, and it is loaded or REFUSED with shortfalls. -/
  | loadModel (fn : Fin 8) (seq : BitVec 32) (irq : Bool) (arg : List Byte)
  /-- REPLACE_MODEL (R461). A loaded model is replaced by a new image with carry-over of matching populations, or REFUSED. -/
  | replaceModel (fn : Fin 8) (seq : BitVec 32) (irq : Bool) (arg : List Byte)
  /-- UNLOAD_MODEL (R465). A model's lanes stop and become REFUSED, and its resources are released. -/
  | unloadModel (fn : Fin 8) (seq : BitVec 32) (irq : Bool) (id : BitVec 32)
  /-- READOUT (R436). The unit pauses a HOST or BOTH population and copies its whole snapshot to the destination. -/
  | readout (fn : Fin 8) (seq : BitVec 32) (irq : Bool) (arg : List Byte)
  /-- CHECKPOINT (R427). The mailbox command starts a checkpoint of the named population and completes when it commits or is abandoned. -/
  | checkpoint (fn : Fin 8) (seq : BitVec 32) (irq : Bool) (eng : BitVec 8) (pop : BitVec 8)
  /-- LANE_MOD_TEACH (R391). The mailbox performs a Teach on the lane and emits a HEALTH TEACH record. -/
  | laneModTeach (fn : Fin 8) (seq : BitVec 32) (irq : Bool) (lane : BitVec 8)
  /-- LANE_MOD_MARK (R391). The mailbox performs a Mark on the lane and emits a HEALTH MARK record. -/
  | laneModMark (fn : Fin 8) (seq : BitVec 32) (irq : Bool) (lane : BitVec 8)
  /-- LANE_MOD_CANCEL (R391). The mailbox performs a Cancel on the lane and emits a HEALTH CANCEL record. -/
  | laneModCancel (fn : Fin 8) (seq : BitVec 32) (irq : Bool) (lane : BitVec 8)
  /-- LANE_ACK (R400). The lane's alarm is acknowledged, ACKED is set and the buzzer is silenced. -/
  | laneAck (fn : Fin 8) (seq : BitVec 32) (irq : Bool) (lane : BitVec 8)
  /-- CAPTURE_FRAME (R501). The lane's next decoded frame is copied into DEST using a spare decode slot, or the command is refused. -/
  | captureFrame (fn : Fin 8) (seq : BitVec 32) (irq : Bool) (arg : List Byte)
  /-- CAPTURE_TIMEOUT (R501). No frame within 1 s completes the capture with TARGET_DOWN. -/
  | captureTimeout (lane : Fin 64)
  /-- HEARTBEAT (R576). A HEARTBEAT echoes the host value and restarts the partition's heartbeat timer. -/
  | heartbeat (fn : Fin 8) (seq : BitVec 32) (irq : Bool) (value : BitVec 32)
  /-- FLASH_ERASE (R500). The unit erases a 64 KiB-aligned range of the inactive slot. -/
  | flashErase (fn : Fin 8) (seq : BitVec 32) (irq : Bool) (arg : List Byte)
  /-- FLASH_WRITE (R500). The unit writes an erased range of the inactive slot and reads every page back. -/
  | flashWrite (fn : Fin 8) (seq : BitVec 32) (irq : Bool) (arg : List Byte) (bad : Bool)
  /-- FLASH_READ (R500). The unit copies a range of a slot to DEST and returns its CRC. -/
  | flashRead (fn : Fin 8) (seq : BitVec 32) (irq : Bool) (arg : List Byte)
  /-- HOST_MB_TAIL_WRITE (R497). The host's doorbell makes the unit take commands from the ring in order, one at a time. -/
  | hostMbTailWrite (src : RegSrc) (fn : Fin 8) (v : Word) (host : List HostByte)
  /-- HOST_MB_CFG_WRITE (R493). Writing ENABLE 1 after setting the bases starts a function's mailbox. -/
  | hostMbCfgWrite (src : RegSrc) (fn : Fin 8) (v : Word)
  /-- RPT_RING_CONS_WRITE (R478). Returning ring entries frees space, and backlog records are written oldest first; a bad CONS is refused. -/
  | rptRingConsWrite (src : RegSrc) (part : Fin 8) (v : Word)
  /-- RPT_RING_BASE_WRITE (R477). A new ring base takes later records from the current PROD, and a base of 0 disables delivery. -/
  | rptRingBaseWrite (src : RegSrc) (part : Fin 8) (v : BitVec 64)
  /-- COLLECTOR_FLUSH (R483). FLUSH_MS after a datagram's first record, the datagram is sent to its collector. -/
  | collectorFlush (col : Fin 4)
  /-- COLLECTOR_ACK (R485). A collector acknowledgement releases its datagram, or counts as a duplicate. -/
  | collectorAck (col : Fin 4) (dseq : BitVec 32) (known : Bool)
  /-- DATAGRAM_RESEND (R485). An unacknowledged datagram is resent after 200 ms, and abandoned after 5 resends. -/
  | datagramResend (col : Fin 4) (dseq : BitVec 32)
  /-- NEXT_HOP_RESOLVE (R484). An ARP or Neighbor Discovery answer resolves a collector's next hop. -/
  | nextHopResolve (col : Fin 4) (found : Bool)
  /-- COLLECTOR_DOWN (R520). A collector with no resolvable next hop for 10 s is marked DOWN. -/
  | collectorDown (col : Fin 4)
  /-- FUNCTION_LEVEL_RESET (R492). An FLR stops a partition's host requests and clears its mailbox and ring registers, leaving lanes and counters running. -/
  | functionLevelReset (fn : Fin 8)
  /-- FLIT_RECEIVE (R505). A link port accepts an in-order flit with a good CRC, or discards it and sends NAK. -/
  | flitReceive (die : Fin 3) (bytes : List Byte)
  /-- REPLAY_TIMEOUT (R506). With ACKSEQ stalled for 2 µs, the sender resends every outstanding flit. -/
  | replayTimeout (die : Fin 3)
  /-- RETRAIN_DONE (R507). A retrain ends and both ends resend unacknowledged flits from LSEQ 0. -/
  | retrainDone (die : Fin 3) (ok : Bool)
  /-- IDLE_FLIT_TIMER (R504). A port sends an IDLE flit so that at least one flit leaves every 1 µs. -/
  | idleFlitTimer (die : Fin 3)
  /-- LINK_TRAIN_ATTEMPT (R508). A port trains and exchanges package IDs, going DOWN on failure or a duplicate ID, and a DOWN port retries every 1 s. -/
  | linkTrainAttempt (die : Fin 3) (cable ok : Bool) (partner : BitVec 4)
  /-- JL_READ_ONCE (R510). A ReadOnce arriving over the link is checked and served, or forwarded. -/
  | jlReadOnce (die : Fin 3) (msg : LinkMsg) (ecc : Ecc)
  /-- JL_WRITE_LINE (R514). A remote WriteLine is checked, looked up in the duplicate window, executed once and recorded, or forwarded. -/
  | jlWriteLine (die : Fin 3) (msg : LinkMsg) (ecc : Ecc)
  /-- JL_ATOMIC (R514). A remote Atomic is checked, looked up in the duplicate window, executed once and recorded, or forwarded. -/
  | jlAtomic (die : Fin 3) (msg : LinkMsg) (ecc : Ecc)
  /-- JL_EPOCH (R515). An Epoch message replaces a source unit's recorded epoch and discards its duplicate window. -/
  | jlEpoch (die : Fin 3) (msg : LinkMsg)
  /-- JL_ACK (R513). A link response without data completes the request of its tag, or is discarded as stray. -/
  | jlAck (die : Fin 3) (msg : LinkMsg)
  /-- JL_DATA (R513). A link data response completes the request of its tag, or is discarded as stray. -/
  | jlData (die : Fin 3) (msg : LinkMsg)
  /-- DUP_WINDOW_EXPIRY (R583). A duplicate-window entry expires 200 µs after it was recorded. -/
  | dupWindowExpiry (pkg : BitVec 4) (unit : BitVec 8) (tag : BitVec 12)
  /-- TAG_HOLD_EXPIRY (R513). A tag last used by a WriteLine or Atomic becomes free 250 µs after its response or timeout. -/
  | tagHoldExpiry (unit : BitVec 8) (tag : BitVec 12)
  /-- KEY_PRESS (R526). A press held for 20 ms is recognised, MARK acts at once, and a second held key makes a chord. -/
  | keyPress (pin : Fin 24)
  /-- KEY_RELEASE (R527). A release held for 20 ms is recognised and performs the key's short action if no long action came. -/
  | keyRelease (pin : Fin 24)
  /-- KEY_LONG_PRESS (R527). A press held for 2 s performs the key's long action. -/
  | keyLongPress (pin : Fin 24)
  /-- KEY_STUCK (R546). A key held for 60 s is stuck: its actions are cancelled and a fault is recorded. -/
  | keyStuck (pin : Fin 24)
  /-- SLIDER_SWEEP (R534). A slider sweep measures the electrodes, tracks baselines, rejects water, and begins or ends a touch. -/
  | sliderSweep (counts : List Nat) (plugs : List (Fin 24 × Nat))
  /-- SELECTION_DISPLAY_END (R536). Two seconds after a selection change, the LEDs return to their sources. -/
  | selectionDisplayEnd
  /-- PNL_SEL_WRITE (R533). A write naming a listed lane selects it, and any other lane is refused with a record. -/
  | pnlSelWrite (src : RegSrc) (v : Word)
  /-- BUZZER_SILENCE (R537). A write of SILENCE stops the alarm buzzer. -/
  | buzzerSilence (src : RegSrc)
  /-- BUZZER_TEST (R537). A write of TEST sounds the buzzer for 1 s. -/
  | buzzerTest (src : RegSrc)
  /-- SENSOR_UNPLUG (R539). A recognised unplug puts the lane ABSENT, freezes its learning and emits SENSOR_ABSENT. -/
  | sensorUnplug (pin : Fin 24)
  /-- SENSOR_REPLUG (R542). A recognised re-plug makes an ABSENT lane wait for its source to identify itself. -/
  | sensorReplug (pin : Fin 24)
  /-- REPLUG_WAIT_TIMEOUT (R542). A re-plugged lane with no frame or block for 10 s leaves ABSENT for SILENT. -/
  | replugWaitTimeout (lane : Fin 64)
  /-- ELECTRODE_FAULT (R547). An electrode out of range for 10 s is marked faulty with a record. -/
  | electrodeFault (pin : Fin 24)
  /-- SINK_OVERCURRENT (R548). An LED or buzzer pin over 25 mA is switched off and marked faulty. -/
  | sinkOvercurrent (pin : Fin 24)
  /-- SINK_RETRY (R548). Every 10 s a faulted sink pin is tried again. -/
  | sinkRetry (pin : Fin 24) (still : Bool)
  /-- ERR_CONS_WRITE (R557). Returning error records frees ring space, and a bad CONS is ignored. -/
  | errConsWrite (src : RegSrc) (ring : Fin 9) (v : Word)
  /-- QUIESCE_DRAIN_DONE (R561). A drain ends: held requests are answered TARGET_DOWN, the stand-in takes over, the epoch is bumped and the unit is reset, switched off or updated. -/
  | quiesceDrainDone
  /-- DRAIN_TIMEOUT (R570). A drain not finished within 100 µs makes the unit silent. -/
  | drainTimeout
  /-- ERR_UNIT_RESET (R566). ERR_UNIT_CMD RESET quiesces and resets one unit, or is refused. -/
  | errUnitReset (src : RegSrc) (unit : BitVec 8)
  /-- ERR_UNIT_UPDATE (R568). ERR_UNIT_CMD UPDATE verifies and loads a Cox patch, holding its queues for at most 5 ms. -/
  | errUnitUpdate (src : RegSrc) (unit : BitVec 8)
  /-- FRAME_DEADLINE (R574). An entry whose tasks have not committed by its deadline counts as late. -/
  | frameDeadline (lane : Fin 64) (seq : BitVec 32)
  /-- FRAME_LATE_LIMIT (R575). At LATE_MULT times the deadline, uncommitted tasks are ended for the entry and it counts as lost. -/
  | frameLateLimit (lane : Fin 64) (seq : BitVec 32)
  /-- COX_WATCHDOG_EXPIRY (R573). The Cox watchdog unserviced for 50 ms causes a device-fatal error. -/
  | coxWatchdogExpiry
  /-- HEARTBEAT_EXPIRY (R576). A partition's heartbeat older than HB_MS writes a TIMEOUT record and, under STOP, makes it partition-fatal. -/
  | heartbeatExpiry (part : Fin 8)
  /-- PARTITION_RESTART (R579). RESTART written to ERR_PART_CTRL releases contexts, rebinds tasks and resumes lanes. -/
  | partitionRestart (src : RegSrc) (part : Fin 8)
  /-- PARTITION_AUTO_RESTART (R579). AUTO_S seconds after failure the partition restarts automatically. -/
  | partitionAutoRestart (part : Fin 8)
  /-- DEVICE_FATAL (R580). A lockstep mismatch, Cox SRAM error or always-on supply fault makes the fatal controller record the cause and hold the units. -/
  | deviceFatal (cause : FatalCause)
  /-- FATAL_HOLD_EXPIRY (R581). After ERR_FATAL_HOLD the fatal controller resets the device, unless it holds. -/
  | fatalHoldExpiry
  /-- DBG_RSP_CAPTURE (R605). Capture-DR of DBG_RSP loads the oldest unread response, or zeros. -/
  | dbgRspCapture
  /-- STATUS (R606). The debug STATUS command returns lifecycle, level, failure count and halt state. -/
  | status (tag : BitVec 16) (zero : Bool)
  /-- UNLOCK_PW (R608). A correct password opens level 1, and a wrong one counts a failure. -/
  | unlockPw (tag : BitVec 16) (arg : List Byte) (zero : Bool)
  /-- CHALLENGE (R609). The monitor returns a fresh nonce and the serial. -/
  | challenge (tag : BitVec 16) (arg : List Byte) (zero : Bool)
  /-- UNLOCK_RSP (R609). A correct HMAC response opens level 2, and a wrong one counts a failure. -/
  | unlockRsp (tag : BitVec 16) (arg : List Byte) (zero : Bool)
  /-- LOCKOUT_EXPIRY (R610). A lockout ends and unlock commands are served again. -/
  | lockoutExpiry
  /-- NONCE_LAPSE (R609). A nonce lapses 60 s after issue. -/
  | nonceLapse
  /-- END (R612). END resumes halted units, clears breakpoints and ends the session. -/
  | endSession (tag : BitVec 16) (zero : Bool)
  /-- SESSION_TIMEOUT (R612). A session ends 8 h after it opened. -/
  | sessionTimeout
  /-- TELEMETRY (R606). The monitor returns six telemetry words of the requested page. -/
  | telemetry (tag : BitVec 16) (page : BitVec 8) (meas : List Nat) (zero : Bool)
  /-- REG_READ (R607). The monitor reads a register of the privileged view. -/
  | regRead (tag : BitVec 16) (off : BitVec 32) (zero : Bool)
  /-- REG_WRITE (R607). The monitor writes a register of the privileged view. -/
  | regWrite (tag : BitVec 16) (off : BitVec 32) (v : Word) (zero : Bool)
  /-- HALT (R614). HALT stops a Scull's sequencer or the Cox firmware. -/
  | halt (tag : BitVec 16) (unit : BitVec 8) (zero : Bool)
  /-- HALT_TAKES_EFFECT (R614). A pending Scull halt takes effect once issued steps are confirmed and issued bursts complete. -/
  | haltTakesEffect (scull : Fin 16)
  /-- RESUME (R623). RESUME lets a halted unit run on and clears its reason. -/
  | resume (tag : BitVec 16) (unit : BitVec 8) (zero : Bool)
  /-- STEP (R617). STEP issues the next count operations of a halted unit and halts it again. -/
  | step (tag : BitVec 16) (unit : BitVec 8) (count : BitVec 16) (zero : Bool)
  /-- STATE_READ (R606). The monitor returns state words of a halted unit. -/
  | stateRead (tag : BitVec 16) (unit : BitVec 8) (page : BitVec 8) (zero : Bool)
  /-- BP_SET (R619). BP_SET arms a code breakpoint slot of a Scull. -/
  | bpSet (tag : BitVec 16) (scull : BitVec 8) (slot : BitVec 8) (ctx : BitVec 8) (addr : BitVec 64) (zero : Bool)
  /-- BP_CLR (R619). BP_CLR clears a code breakpoint slot. -/
  | bpClr (tag : BitVec 16) (scull : BitVec 8) (slot : BitVec 8) (zero : Bool)
  /-- WP_SET (R619). WP_SET arms a watchpoint slot of a Scull. -/
  | wpSet (tag : BitVec 16) (scull : BitVec 8) (slot : BitVec 8) (ctx : BitVec 8) (spec : BitVec 8) (addr : BitVec 64) (zero : Bool)
  /-- WP_CLR (R619). WP_CLR clears a watchpoint slot. -/
  | wpClr (tag : BitVec 16) (scull : BitVec 8) (slot : BitVec 8) (zero : Bool)
  /-- LANE_BP (R620). LANE_BP sets or clears the report kinds that halt a lane's Sculls. -/
  | laneBp (tag : BitVec 16) (lane : BitVec 8) (kinds : BitVec 16) (zero : Bool)
  /-- MEM_READ (R622). The monitor issues a SYS ReadOnce of up to 16 bytes within one line. -/
  | memRead (tag : BitVec 16) (addr : BitVec 64) (len : BitVec 8) (ecc : Ecc) (zero : Bool)
  /-- MEM_WRITE (R622). The monitor issues a SYS WriteLine of up to 16 bytes within one line. -/
  | memWrite (tag : BitVec 16) (addr : BitVec 64) (len : BitVec 8) (bytes : List Byte) (zero : Bool)
  /-- RETIRE (R597). RETIRE aborts persistence work, burns RETIRE_F, erases the Boathouse and resets the unit. -/
  | retire (tag : BitVec 16) (serial : BitVec 64) (burnFails : Bool) (zero : Bool)
  /-- LOCK (R596). The factory TAP command LOCK moves a provisioned unit from FACTORY to FIELD_LOCKED. -/
  | lock (tag : BitVec 16) (burnFails : Bool) (zero : Bool)
  /-- RESET_N (R644). RESET_N low for 10 µs resets the device without a power-fail commit. -/
  | resetN (lowNs : Nat) (taken : Bool)
  /-- PERST_N (R645). PERST_N low quiesces and resets only the PCIe endpoint, and the link trains when it rises. -/
  | perstN (low : Bool)
  /-- NODE_POWER_OVERCURRENT (R639). A segment over 250 mA for 1 ms is switched off and its lanes go SILENT. -/
  | nodePowerOvercurrent (die : Fin 3) (seg : Fin 4)
  /-- NODE_POWER_RETRY (R639). Every 10 s a switched-off segment is tried again. -/
  | nodePowerRetry (die : Fin 3) (seg : Fin 4) (still : Bool)
  /-- THERMAL_CAP (R657). A junction above 105 °C stops V_so from rising until every junction is below 100 °C. -/
  | thermalCap (hot : Bool)
  /-- THERMAL_TRIP (R663). A junction at 115 °C or a cold plate above 85 °C asserts PWRFAIL and holds off restart. -/
  | thermalTrip
  /-- REFERENCE_ACCEL_FAULT (R665). A silent or constant reference accelerometer bypasses rejection on every lane. -/
  | referenceAccelFault
  /-- REFERENCE_ACCEL_RETRY (R665). Every 10 s the reference is tried again, and on recovery every lane's coefficients reset. -/
  | referenceAccelRetry (recovered : Bool)
  /-- TRANSCEIVER_INSERT (R653). An inserted SFP28 transceiver is brought up, or left in low-power mode when its power class is too high. -/
  | transceiverInsert (die : Fin 3) (port : Fin 2) (highPower : Bool)
  /-- TRANSCEIVER_REMOVE (R653). Removing a transceiver takes its port's link down. -/
  | transceiverRemove (die : Fin 3) (port : Fin 2)
  /-- SUPPLY_SHORT (R666). A shorted PNL_3V3 or TDM_3V3 supply is switched off and retried every 10 s. -/
  | supplyShort (supply : Fin 7)
  /-- PCIE_LINK_DOWN (R30). The PCIe link goes down, so unit requests to the host window are answered TARGET_DOWN and host-bound records wait in the backlog. -/
  | pcieLinkDown
  /-- PCIE_LINK_UP (R479). The PCIe link returns, and backlog records are written to the host ring oldest first. -/
  | pcieLinkUp (speed : Fin 5) (width : BitVec 4)
  /-- HOST_MB_CQ_HEAD_WRITE (R497). The host returns completion entries, and a command waiting for a free completion entry starts. -/
  | hostMbCqHeadWrite (src : RegSrc) (fn : Fin 8) (v : Word)
  /-- INTERRUPT_INTERVAL_EXPIRY (R491). The RPT_IRQ_US interval of an MSI-X vector ends while its cause persists, and the vector fires. -/
  | interruptIntervalExpiry (fn : Fin 8) (vec : Fin 8)
  /-- REGISTER_READ (R633). A host or fabric read of a 32-bit register returns its value, or triggers an uncorrectable-error record or a refused-access answer. -/
  | registerRead (src : RegSrc) (off : Nat) (size : Nat) (ue : Bool)
deriving DecidableEq, Repr

end Sys2Proof
end

