-- ==== Sys2Proof/WellFormed.lean ====
section
/-!
DEFINITION. Well-formed commands: the bounds the spec puts on operands that a type of natural numbers or lists leaves wide. A command is performed
whether or not it is well formed; what lies outside the bounds cannot reach the unit.
-/
namespace Sys2Proof

/-- A tag's fields (Table 3.4): unit, context, partition, epoch. -/
def Tag.wf (t : Tag) : Bool := decide (t.unit < 256) && decide (t.ctx < 256) && decide (t.part < 8) && decide (t.epoch < 65536)

/-- What a slot header can show (R129): clean, corrected, uncorrectable. -/
def FabEv.wf (f : FabEv) : Bool := decide (f.header < 3)

/-- At most a line of bytes (R134). -/
def Store.wf (d : Store) : Bool := decide (d.bytes.length ≤ 64)

/-- The code byte of a LockOp, and what the lock's storage met (Table 4.8). -/
def LockArgs.wf (x : LockArgs) : Bool := decide (x.code < 256) && decide (x.ecc < 3) && x.fab.wf

/-- The ordering attribute of an atomic (R155). -/
def AtomicArgs.wf (x : AtomicArgs) : Bool := decide (x.order < 4) && x.fab.wf

/-- A vector operation's place in tile memory (R227). -/
def VecOp.wf (x : VecOp) : Bool :=
  match x with
  | .load off _ _ line => decide (off < 2 ^ 20) && decide (line < 32)
  | .store _ off => decide (off < 2 ^ 20)
  | _ => true

/-- Addresses of 16 bytes, a UDP port and a payload type. -/
def RtpPacket.wf (p : RtpPacket) : Bool :=
  decide (p.dstAddr.length = 16) && decide (p.srcAddr.length = 16) && decide (p.dstPort < 65536) && decide (p.payloadType < 128)

/-- A fabric source's tag. -/
def RegSrc.wf (s : RegSrc) : Bool :=
  match s with
  | .fabric t _ => t.wf
  | _ => true

/-- The sizes of an access (R9, R489). -/
def sizeOk (n : Nat) : Bool := n = 1 || n = 2 || n = 4 || n = 8

/-- The operand bounds of each command. -/
def Instr.wf (i : Instr) : Bool :=
  match i with
  | .reg64LowWrite src off _ => src.wf && decide (off < 2 ^ 24)
  | .reg64HighWrite src off _ => src.wf && decide (off < 2 ^ 24)
  | .reg64LowRead src off => src.wf && decide (off < 2 ^ 24)
  | .reg64HighRead src off => src.wf && decide (off < 2 ^ 24)
  | .registerWrite src off size _ => src.wf && decide (off < 2 ^ 24) && sizeOk size
  | .startUp _ => true
  | .flashReadTimeout _ => true
  | .trainingComplete _ _ _ bch _ =>
    (bch.map fun (r : BchRead) => (r.bank, r.block)).Nodup && bch.all fun (r : BchRead) => decide (r.corrected + r.bad.length ≤ 128)
  | .replicaRateRefresh _ _ => true
  | .requestTimeout _ addr => decide (addr < 2 ^ 48)
  | .channelStall _ unit => decide (unit < 256)
  | .fence _ _ => true
  | .readShared tag _ addr _ _ fab => tag.wf && decide (addr < 2 ^ 48) && fab.wf
  | .readOwn tag _ addr store _ _ fab => tag.wf && decide (addr < 2 ^ 48) && store.wf && fab.wf
  | .upgrade tag _ addr store _ _ fab => tag.wf && decide (addr < 2 ^ 48) && store.wf && fab.wf
  | .readOnce tag _ addr _ _ fab => tag.wf && decide (addr < 2 ^ 48) && fab.wf
  | .writeLine tag _ addr store _ _ fab => tag.wf && decide (addr < 2 ^ 48) && store.wf && fab.wf
  | .atomicFetchAdd tag _ addr args _ => tag.wf && decide (addr < 2 ^ 48) && args.wf
  | .atomicSwap tag _ addr args _ => tag.wf && decide (addr < 2 ^ 48) && args.wf
  | .atomicCompareSwap tag _ addr args _ => tag.wf && decide (addr < 2 ^ 48) && args.wf
  | .atomicMinS tag _ addr args _ => tag.wf && decide (addr < 2 ^ 48) && args.wf
  | .atomicMaxS tag _ addr args _ => tag.wf && decide (addr < 2 ^ 48) && args.wf
  | .atomicMinU tag _ addr args _ => tag.wf && decide (addr < 2 ^ 48) && args.wf
  | .atomicMaxU tag _ addr args _ => tag.wf && decide (addr < 2 ^ 48) && args.wf
  | .lockAcquire tag op => tag.wf && op.wf
  | .lockTryAcquire tag op => tag.wf && op.wf
  | .lockRelease tag op => tag.wf && op.wf
  | .lockInspect tag op => tag.wf && op.wf
  | .snoopShare _ addr _ _ _ fab => decide (addr < 2 ^ 48) && fab.wf
  | .snoopInv _ addr _ _ _ fab => decide (addr < 2 ^ 48) && fab.wf
  | .snoopMiss _ addr fab => decide (addr < 2 ^ 48) && fab.wf
  | .evictNotice tag _ addr _ fab => tag.wf && decide (addr < 2 ^ 48) && fab.wf
  | .writeBack tag _ addr data' _ fab => tag.wf && decide (addr < 2 ^ 48) && data'.wf && fab.wf
  | .data _ addr data' _ epoch fab => decide (addr < 2 ^ 48) && data'.wf && decide (epoch < 65536) && fab.wf
  | .ack _ addr status' epoch fab => decide (addr < 2 ^ 48) && decide (status' < 16) && decide (epoch < 65536) && fab.wf
  | .retry _ addr _ fab => decide (addr < 2 ^ 48) && fab.wf
  | .retryReissue _ addr => decide (addr < 2 ^ 48)
  | .ticketReservationExpiry addr => decide (addr < 2 ^ 48)
  | .lockGrant tag lock' status' fab => tag.wf && decide (lock' < 65536) && decide (status' < 16) && fab.wf
  | .lockWaitTimeout tag lock' => tag.wf && decide (lock' < 65536)
  | .epochBroadcast unit epoch _ fab => decide (unit < 256) && decide (epoch < 65536) && fab.wf
  | .contextFaultNotice ctx fab => decide (ctx < 256) && fab.wf
  | .patrolScrub addr _ => decide (addr < 2 ^ 48)
  | .tlbMiss _ ctx va _ _ => decide (ctx < 256) && decide (va < 2 ^ 48)
  | .walkComplete ctx va readErr _ => decide (ctx < 256) && decide (va < 2 ^ 48) && (match readErr with
    | none => true
    | some e => decide (e.1 < 16) && decide (e.2.getD 0 < 2 ^ 48))
  | .saveAreaWritten _ task status' => decide (task < 65536) && decide (status' < 16)
  | .xluFqHeadWrite src _ _ => src.wf
  | .fqResumeRetry src _ id => src.wf && decide (id < 65536)
  | .fqResumeAbort src _ id => src.wf && decide (id < 65536)
  | .faultHoldTimeout ctx => decide (ctx < 256)
  | .ctxRelease src ctx => src.wf && decide (ctx < 256)
  | .xluCtxCfgWrite src ctx _ => src.wf && decide (ctx < 256)
  | .invContext src _ ctx => src.wf && decide (ctx < 256)
  | .invRange src _ ctx => src.wf && decide (ctx < 256)
  | .invPartition src _ => src.wf
  | .invStage2 src _ => src.wf
  | .invalidateComplete _ => true
  | .missTimeout _ ctx va => decide (ctx < 256) && decide (va < 2 ^ 48)
  | .arrayStep _ step' => decide (step'.acts.length ≤ if step'.aFmt = .int4 ∧ step'.wFmt = .int4 then 256 else 128)
  | .weightPlaneLoad _ _ _ tileOff _ line => decide (tileOff < 2 ^ 20) && decide (line < 2048)
  | .planeSwap _ => true
  | .accumulatorDrain _ _ _ => true
  | .vectorOp _ op => op.wf
  | .catchCheckerClose _ _ => true
  | .catchWindowEnd _ => true
  | .taskRunnable _ task _ => decide (task < 65536)
  | .taskDispatch _ => true
  | .taskCommit _ _ => true
  | .taskWatchdogExpiry _ => true
  | .sldStart src _ ctx => src.wf && decide (ctx < 256)
  | .sldAbort src _ => src.wf
  | .slideBurstIssue _ => true
  | .slideCreditArrives _ => true
  | .vmeUpdate _ _ _ _ => true
  | .vsoGovernorTick => true
  | .frameDecoded _ _ _ _ _ fab => fab.wf
  | .deltaCompareDone _ => true
  | .energyGovernorChoose _ => true
  | .deltaMapTimeout _ => true
  | .catchBandWrite src _ _ => src.wf
  | .catchReuseCfgWrite src _ _ => src.wf
  | .catchAggrMaxWrite src _ _ => src.wf
  | .powerPolicyOff _ => true
  | .domainWakeDone _ => true
  | .wakeTimeout _ => true
  | .pwrReqAuto src _ => src.wf
  | .pwrReqOn src _ => src.wf
  | .pwrReqOff src _ => src.wf
  | .pwrReqForceOff src _ => src.wf
  | .rtpPacket _ _ pkt => pkt.wf
  | .rtcpSenderReport _ _ pkt _ _ => pkt.wf
  | .membershipQuery _ _ family group => (family = 4 || family = 6) && decide (group.length = 16)
  | .ptpSync domain _ _ _ => decide (domain < 256)
  | .ptpFollowUp _ _ => true
  | .ptpDelayResp _ _ => true
  | .ptpAnnounce domain _ _ _ => decide (domain < 256)
  | .ptpHoldoverEntry => true
  | .gptpSyncTimer _ _ => true
  | .gptpPdelayReq _ _ frame => decide (frame.length ≤ 1500)
  | .sensorAnnounce _ _ _ frame => decide (frame.length ≤ 1500)
  | .sensorStatus _ _ frame => decide (frame.length ≤ 1500)
  | .sensorSamples _ _ frame => decide (frame.length ≤ 1500)
  | .configResend => true
  | .tdmBlockComplete _ _ _ _ => true
  | .tdmSdinSilent _ _ => true
  | .t1sSegmentFault _ _ => true
  | .laneSilentTimeout _ => true
  | .frameIntervalLoss _ => true
  | .gapIntervalEnd _ => true
  | .stackThermalHalving _ _ => true
  | .shedEvaluate => true
  | .laneReportMaskWrite src _ _ => src.wf
  | .laneLevelWrite src _ _ _ => src.wf
  | .laneTimingWrite src _ _ => src.wf
  | .leEvent _ spillErr _ => (match spillErr with | none => true | some e => decide (e < 16))
  | .delayWheelRelease _ spillErr _ => (match spillErr with | none => true | some e => decide (e < 16))
  | .evaluationSweep _ _ spillErr _ => (match spillErr with | none => true | some e => decide (e < 16))
  | .lrnModTeach src _ => src.wf
  | .lrnModMark src _ => src.wf
  | .lrnModCancel src _ => src.wf
  | .markExpiry _ => true
  | .teachWindowExpiry _ => true
  | .popFreezeWrite src _ => src.wf
  | .eventRingTimeout _ => true
  | .checkpointDue _ => true
  | .bhCkptCmd src _ => src.wf
  | .deferredCheckpointStart _ => true
  | .snapshotCopyDone _ _ => true
  | .slotWriteDone _ _ => true
  | .readbackDone _ _ _ => true
  | .pwrfail => true
  | .powerfailControllersStop => true
  | .restartAfterPwrfail _ _ _ _ => true
  | .nop _ _ _ => true
  | .loadModel _ _ _ arg => decide (arg.length ≤ 56)
  | .replaceModel _ _ _ arg => decide (arg.length ≤ 56)
  | .unloadModel _ _ _ _ => true
  | .readout _ _ _ arg => decide (arg.length ≤ 56)
  | .checkpoint _ _ _ _ _ => true
  | .laneModTeach _ _ _ _ => true
  | .laneModMark _ _ _ _ => true
  | .laneModCancel _ _ _ _ => true
  | .laneAck _ _ _ _ => true
  | .captureFrame _ _ _ arg => decide (arg.length ≤ 56)
  | .captureTimeout _ => true
  | .heartbeat _ _ _ _ => true
  | .flashErase _ _ _ arg => decide (arg.length ≤ 56)
  | .flashWrite _ _ _ arg _ => decide (arg.length ≤ 56)
  | .flashRead _ _ _ arg => decide (arg.length ≤ 56)
  | .hostMbTailWrite src _ _ _ => src.wf
  | .hostMbCfgWrite src _ _ => src.wf
  | .rptRingConsWrite src _ _ => src.wf
  | .rptRingBaseWrite src _ _ => src.wf
  | .collectorFlush _ => true
  | .collectorAck _ _ _ => true
  | .datagramResend _ _ => true
  | .nextHopResolve _ _ => true
  | .collectorDown _ => true
  | .functionLevelReset _ => true
  | .flitReceive _ bytes => decide (bytes.length = 128)
  | .replayTimeout _ => true
  | .retrainDone _ _ => true
  | .idleFlitTimer _ => true
  | .linkTrainAttempt _ _ _ _ => true
  | .jlReadOnce _ msg _ => decide (msg.data.length ≤ 64)
  | .jlWriteLine _ msg _ => decide (msg.data.length ≤ 64)
  | .jlAtomic _ msg _ => decide (msg.data.length ≤ 64)
  | .jlEpoch _ msg => decide (msg.data.length ≤ 64)
  | .jlAck _ msg => decide (msg.data.length ≤ 64)
  | .jlData _ msg => decide (msg.data.length ≤ 64)
  | .dupWindowExpiry _ _ _ => true
  | .tagHoldExpiry _ _ => true
  | .keyPress _ => true
  | .keyRelease _ => true
  | .keyLongPress _ => true
  | .keyStuck _ => true
  | .sliderSweep _ _ => true
  | .selectionDisplayEnd => true
  | .pnlSelWrite src _ => src.wf
  | .buzzerSilence src => src.wf
  | .buzzerTest src => src.wf
  | .sensorUnplug _ => true
  | .sensorReplug _ => true
  | .replugWaitTimeout _ => true
  | .electrodeFault _ => true
  | .sinkOvercurrent _ => true
  | .sinkRetry _ _ => true
  | .errConsWrite src _ _ => src.wf
  | .quiesceDrainDone => true
  | .drainTimeout => true
  | .errUnitReset src _ => src.wf
  | .errUnitUpdate src _ => src.wf
  | .frameDeadline _ _ => true
  | .frameLateLimit _ _ => true
  | .coxWatchdogExpiry => true
  | .heartbeatExpiry _ => true
  | .partitionRestart src _ => src.wf
  | .partitionAutoRestart _ => true
  | .deviceFatal _ => true
  | .fatalHoldExpiry => true
  | .dbgRspCapture => true
  | .status _ _ => true
  | .unlockPw _ arg _ => decide (arg.length ≤ 28)
  | .challenge _ arg _ => decide (arg.length ≤ 28)
  | .unlockRsp _ arg _ => decide (arg.length ≤ 28)
  | .lockoutExpiry => true
  | .nonceLapse => true
  | .endSession _ _ => true
  | .sessionTimeout => true
  | .telemetry _ _ _ _ => true
  | .regRead _ _ _ => true
  | .regWrite _ _ _ _ => true
  | .halt _ _ _ => true
  | .haltTakesEffect _ => true
  | .resume _ _ _ => true
  | .step _ _ _ _ => true
  | .stateRead _ _ _ _ => true
  | .bpSet _ _ _ _ _ _ => true
  | .bpClr _ _ _ _ => true
  | .wpSet _ _ _ _ _ _ _ => true
  | .wpClr _ _ _ _ => true
  | .laneBp _ _ _ _ => true
  | .memRead _ _ _ _ _ => true
  | .memWrite _ _ _ bytes _ => decide (bytes.length ≤ 16)
  | .retire _ _ _ _ => true
  | .lock _ _ _ => true
  | .resetN _ _ => true
  | .perstN _ => true
  | .nodePowerOvercurrent _ _ => true
  | .nodePowerRetry _ _ _ => true
  | .thermalCap _ => true
  | .thermalTrip => true
  | .referenceAccelFault => true
  | .referenceAccelRetry _ => true
  | .transceiverInsert _ _ _ => true
  | .transceiverRemove _ _ => true
  | .supplyShort _ => true
  | .pcieLinkDown => true
  | .pcieLinkUp _ _ => true
  | .hostMbCqHeadWrite src _ _ => src.wf
  | .interruptIntervalExpiry _ _ => true
  | .registerRead src off size _ => src.wf && decide (off < 2 ^ 24) && sizeOk size

end Sys2Proof
end

