-- ==== Sys2Proof/Decode.lean ====
section
/-!
DEFINITION. Words of the opcode table. No row of spec/opcode_table.json gives its command any bits: the commands reach the block as register
accesses, messages, events and pins, not as encoded words.
-/
namespace Sys2Proof

/-- The command that a word spells by the table's bits: none does, for no row has any. -/
def decodeTableWord (_nbits _w : Nat) : Option Instr := none

end Sys2Proof
end

