-- ==== Sys2Proof/Machine/Sparse.lean ====
section
/-!
DEFINITION. Sparse tables in one canonical form: keys strictly rising, no entry equal to the table's default. Reading an
unlisted key gives the default; writing the default removes the entry, so equal tables are equal lists.
-/
namespace Sys2Proof

/-- The value at key `k`, or the default. -/
def Tbl.get {α : Type} (d : α) : Tbl α → Nat → α
  | [], _ => d
  | (k', v) :: t, k => if k' = k then v else Tbl.get d t k

/-- The table without key `k`. -/
def Tbl.erase {α : Type} : Tbl α → Nat → Tbl α
  | [], _ => []
  | (k', v) :: t, k => if k' = k then Tbl.erase t k else (k', v) :: Tbl.erase t k

/-- The table with an entry for `k` placed before the first larger key. -/
def Tbl.insert {α : Type} : Tbl α → Nat → α → Tbl α
  | [], k, v => [(k, v)]
  | (k', v') :: t, k, v => if k < k' then (k, v) :: (k', v') :: t else (k', v') :: Tbl.insert t k v

/-- Writes `v` at key `k`; the default value is not listed. -/
def Tbl.set {α : Type} [DecidableEq α] (d : α) (t : Tbl α) (k : Nat) (v : α) : Tbl α :=
  if v = d then Tbl.erase t k else Tbl.insert (Tbl.erase t k) k v

/-- Every listed key lies above `b`, the keys rise strictly, and no value is the default. -/
def Tbl.okAbove {α : Type} [DecidableEq α] (d : α) : Option Nat → Tbl α → Bool
  | _, [] => true
  | b, (k, v) :: t =>
    (match b with
      | none => true
      | some b => decide (b < k)) && decide (v ≠ d) && Tbl.okAbove d (some k) t

/-- The canonical form of a sparse table. -/
def Tbl.wf {α : Type} [DecidableEq α] (d : α) (t : Tbl α) : Bool := Tbl.okAbove d none t

/-- The listed keys. -/
def Tbl.keys {α : Type} (t : Tbl α) : List Nat := t.map (·.1)

/-- Membership in a set of natural numbers. -/
def NatSet.has (t : NatSet) (k : Nat) : Bool := Tbl.get false t k

/-- The set with `k` added. -/
def NatSet.add (t : NatSet) (k : Nat) : NatSet := Tbl.set false t k true

/-- The set with `k` removed. -/
def NatSet.del (t : NatSet) (k : Nat) : NatSet := Tbl.set false t k false

end Sys2Proof
end

