-- ==== Sys2Proof/Machine/State.lean ====
section
/-!
DEFINITION. The state of the block: every register (one entry per field), memory, and what each engine, queue, window and
timer holds, as plain data. `State.reset` is the state right after reset. Sparse tables list only what differs from the
default named at each field, so equal states are equal data.
-/
namespace Sys2Proof.Machine

/-- Why the machine stops with a fault. No command of this block faults: nothing the spec describes stops the block
without an effect (log entry 1). The constructor is raised by no meaning. Safe. -/
inductive Fault where
  | none
deriving DecidableEq, Repr

/-- Why a command has no meaning. `notModelled`: the command's arm is still rejected by name; raised by `exec` only. Safe. -/
inductive Refusal where
  | notModelled (mnemonic : String)
deriving DecidableEq, Repr

/-- Register access types (Table 0.3). -/
inductive Acc where
  | ro | rw | w1c | w1s | wo | rwl
deriving DecidableEq, Repr

/-- One field of a register: its register's offset in the privileged view, the stride between indexed copies, its lowest
bit, its width, its access type, its hardware reset value, whether the FAC and USR layers may set it (R11), and the values
it accepts (empty: every value; R668). -/
structure RegField where
  base : Nat
  stride : Nat
  lo : Nat
  width : Nat
  acc : Acc
  reset : Nat
  fac : Bool
  usr : Bool
  ranges : List (Nat × Nat)
deriving DecidableEq, Repr

/-- One register row of the index (R628): name, offset of index 0, stride, count, 32-bit words, whether only the privileged
view shows it, and its fields. -/
structure RegRow where
  name : String
  base : Nat
  stride : Nat
  count : Nat
  words : Nat
  priv : Bool
  fields : List RegField
deriving DecidableEq, Repr

/-- A holding word and a shadow, each tagged with the offset of the register it belongs to (R15 to R18). -/
structure Hold where
  word : Option (Nat × Nat) := none
  shadow : Option (Nat × Nat) := none
deriving DecidableEq, Repr

/-- What the unit sends out while it performs a command: the outputs of the last command, in order. -/
inductive Out where
  /-- The answer to a register access: status code and value (R9, R489). -/
  | regAnswer (status : Nat) (value : Nat)
  /-- Ack to a requester, with a status and payload bytes (Table 4.2). -/
  | ack (w : Work) (addr status : Nat) (bytes : List Byte)
  /-- Data to a requester: status, line bytes, poison mask, grant. -/
  | data (w : Work) (addr status : Nat) (bytes : List Byte) (poison : Nat) (grant : Grant)
  /-- Retry with a ticket (R148). -/
  | retry (w : Work) (addr ticket : Nat)
  /-- SnoopShare or SnoopInv to a cache (R139, R140). -/
  | snoop (inv : Bool) (agent addr : Nat) (after : Bool)
  /-- A cache's answer to a snoop: SnoopMiss, Ack or Data (Table 4.4). -/
  | snoopMiss (agent addr : Nat)
  | snoopAck (agent addr : Nat)
  | snoopData (agent addr : Nat) (bytes : List Byte) (poison : Nat)
  /-- A deferred lock result (R160). -/
  | lockGrant (tag : Tag) (lock status : Nat)
  /-- A LockOp's answer: status, the QUEUED flag, the state payload of an Inspect (R159, R160, R177). -/
  | lockAck (tag : Tag) (lock status : Nat) (queued : Bool) (payload : Nat)
  /-- A request an engine issues into the fabric: ReadOnce or WriteLine (R257), or a reissue (R150). -/
  | readOnce (w : Work) (tag : Tag) (addr : Nat)
  | writeLine (w : Work) (tag : Tag) (addr : Nat) (mask : Nat) (bytes : List Byte) (poison : Nat)
  | reissue (w : Work) (addr : Nat) (ticket : Nat)
  /-- An access of a Learning Engine, Delta Engine, I/O die or Boathouse controller at physical addresses set up at admission, with its tag (R179). -/
  | access (tag : Tag) (write : Bool) (addr len : Nat)
  /-- A CTL broadcast of the Cox: an epoch (R552), a context-fault notice (R161), an Invalidate (R219). -/
  | ctlEpoch (unit epoch : Nat)
  | ctlCtxFault (ctx : Nat)
  | ctlInvalidate (part kind ctx : Nat)
  /-- A miss request to the Cox (R202). -/
  | missRequest (xlu ctx va : Nat)
  /-- A stalled access released with its translation, or ended with a status. -/
  | filled (w : Work) (va pa : Nat)
  | stalledEnd (w : Work) (va status : Nat)
  /-- An MSI-X vector of a function (R491). -/
  | msix (fn vector : Nat)
  /-- A UDP datagram to a collector, and the die and port it leaves by (R482, R484). -/
  | datagram (col : Nat) (port : Option (Nat × Nat)) (bytes : List Byte)
  /-- A flit leaving a link port (R503). -/
  | flit (die : Nat) (bytes : List Byte)
  /-- A 10BASE-T1S or 802.1AS frame leaving a segment (R327, R332). -/
  | segFrame (die seg kind : Nat) (bytes : List Byte)
  /-- An IGMPv3 or MLDv2 report for a join: group and source (R327). -/
  | membership (die port family : Nat) (group src : List Byte)
  /-- An event handed to a Learning Engine, or a frame written to a capture buffer. -/
  | note (code value : Nat)
  /-- A console line on J5 (R652): the device time it begins with, in ms, and what it says, by code: 1 banner and slot codes, 2 training failure and bare
  codes, 3 RETIRED, 4 fatal cause, 5 thermal trip. -/
  | console (ms code value : Nat)
  /-- A completion written to a mailbox ring (R495). -/
  | completion (fn seq op status orig : Nat)
  /-- A debug response frame (Table 15.7). -/
  | tapFrame (bytes : List Byte)
  /-- A module output: 1 PWR_GOOD, 2 FLASH_OWN, 3 PWRFAIL_N asserted, 4 the node power of a segment (value 2 × segment + on), 5 a 3.3 V supply
  switched off. -/
  | pin (which value : Nat)
deriving DecidableEq, Repr

/-! ### Records -/

/-- An error record before it has its ring place (Table 14.3). -/
structure ErrRec where
  cls : Nat
  status : Nat
  unit : Nat := 0xFF
  part : Nat := 0xFF
  block : Nat := 0
  infoKind : Nat := 0
  lane : Option Nat := none
  ctx : Option Nat := none
  ovf : Bool := false
  count : Nat := 0
  info : Nat := 0
  seq : Nat := 0
  time : Nat := 0
deriving DecidableEq, Repr

/-- A report record (Table 12.1). -/
structure Report where
  lane : Nat
  kind : Nat
  flags : Nat := 0
  seq : Nat := 0
  devTime : Nat := 0
  score : Nat := 0
  modelId : Nat := 0
  src : List Nat := []
  state : Nat := 0
  w : List Nat := []
  part : Nat := 0
  pkg : Nat := 0
  count : Nat := 0
  tFrom : Nat := 0
  detail : List Byte := []
deriving DecidableEq, Repr

/-! ### Start-up and ownership (chapter 2) -/

/-- Where the start-up timeline stands (Table 2.12). -/
inductive Phase where
  /-- After reset, before step 1. -/
  | reset
  /-- Waiting for a hung flash read of a slot (R85). -/
  | readingSlot (slot : Nat)
  /-- Steps 1 to 9 done; waiting for training. -/
  | training
  | running
  | bare
  /-- RETIRED: stopped after step 2 (R598). -/
  | stopped
  /-- Held by the fatal controller (R580, R581). -/
  | fatalHeld
  /-- Power-fail shutdown in progress, or off (R641, R642). -/
  | powerFail
deriving DecidableEq, Repr

/-- The owner of a resource: type (1 Cox, 2 lane, 3 panel function, 4 partition) and number (Table 2.13). -/
structure Owner where
  kind : Nat
  num : Nat
deriving DecidableEq, Repr

/-- A created partition: its contexts, fault hold, stage 2, quota vector (R61, R77). -/
structure PartCfg where
  ctxBase : Nat
  ctxCount : Nat
  stage2 : Bool
  sysSlide : Nat
  quota : List Nat
deriving DecidableEq, Repr

/-- Flash, OTP and what start-up made of the image. -/
structure BootSt where
  phase : Phase := .reset
  /-- The factory record, 8 KiB of OTP; unlisted bytes are 0 (R71). -/
  otp : Tbl Byte := []
  /-- LC_FUSES and FIELD_REVOKE of the lifecycle area (Table 15.2). -/
  lcFuses : Nat := 0
  fieldRevoke : Nat := 0
  /-- Boot flash; unlisted bytes read 0xFF (Table 2.1). -/
  flash : Tbl Byte := []
  /-- 256-byte flash pages written since their last erase (R500). -/
  flashWritten : NatSet := []
  env : Option StartEnv := none
  /-- The running slot. -/
  slot : Option Nat := none
  /-- Granted resources, keyed by BOOT_RES_SEL's layout (kind × 2^12 + die × 2^8 + index). -/
  owners : Tbl (Option Owner) := []
  parts : Tbl (Option PartCfg) := []
  /-- Lane descriptors after template expansion, 496 bytes each (R57). -/
  lanes : Tbl (List Byte) := []
  /-- NET records: (die, port) of SFP ports with their record bytes in order; the PTP slave port; federation pairs. -/
  ports : List (List Byte) := []
  ptpPort : Option (Nat × Nat) := none
  federation : List (Nat × Nat × Nat) := []
  /-- Link routes: destination package to die. -/
  routes : Tbl (Option Nat) := []
  /-- MODELS records to admit at step 13: (MODEL_ID, the model image as the slot's read gave it, partition). -/
  models : List (Nat × List Byte × Nat) := []
  /-- Model-signing key hashes (R601). -/
  modelKeys : Tbl (List Byte) := []
  /-- Loaded Cox patch: whether one runs. -/
  coxPatch : Bool := false
  /-- IO-A's link training failed at this start (R43). -/
  ioaLost : Bool := false
  /-- Time of power-on. -/
  onAt : Nat := 0
deriving DecidableEq, Repr

/-! ### Coherence and locks (chapter 4) -/

/-- A message on the Jalvin link (Table 12.12). -/
structure JlMsg where
  mop : Nat
  flags : Nat
  srcPkg : Nat
  srcUnit : Nat
  tag : Nat
  epoch : Nat
  addr : Nat
  arg : Nat
  data : List Byte
  /-- The port in whose receive buffer a message on its way through this package stands (R511). -/
  origin : Option Nat := none
deriving DecidableEq, Repr

/-- Kinds of request a home serves (Table 4.3). -/
inductive ReqKind where
  | readShared | readOwn | upgrade | readOnce | writeLine
  | atomic (op : Nat)
  /-- The home's own repair of a line whose directory entry the scrubber found lost (R173). -/
  | repair
deriving DecidableEq, Repr

/-- A request as a home holds it. `link` is the message it came in, over the Jalvin link. -/
structure HomeReq where
  kind : ReqKind
  tag : Tag
  src : Work
  addr : Nat
  store : Store := ⟨0, [], 0⟩
  args : AtomicArgs := ⟨false, 0, 0, 0, false, .clean, ⟨0, 0, 0, 0⟩⟩
  ecc : Ecc := .clean
  link : Option JlMsg := none
deriving DecidableEq, Repr

/-- A directory entry: `x` for state X; the sharer vector over agents 0 to 18 (R135). State I is vector 0. -/
structure DirLine where
  x : Bool := false
  vec : Nat := 0
deriving DecidableEq, Repr

/-- A busy entry (R146): the request served, the agents whose snoop answer is awaited, those whose eviction is awaited, the
waiters in arrival order. -/
structure Busy where
  cur : HomeReq
  await : List Nat
  evict : List Nat
  waiters : List HomeReq
  /-- The request waits for its own cache's eviction (R142). -/
  parked : Bool := false
deriving DecidableEq, Repr

/-- A line of a cache (R137): state S, E or M, its bytes and poison marks. -/
structure CacheLine where
  st : Grant
  bytes : List Byte
  poison : Nat
deriving DecidableEq, Repr

/-- The access that caused a cache's outstanding request (R145), and the context that made it. -/
structure Pend where
  tag : Tag
  store : Store
  /-- The Invalidate commands, by partition and sequence number, that wait for it (R219). -/
  inv : List (Nat × Nat) := []
deriving DecidableEq, Repr

/-- An operation that waits for its context's earlier accesses, or behind an acquire of it (R123, R124): a LockOp by its code of Table 4.8, a
request, or a fence. -/
inductive RelOp where
  | lock (op : Nat) (x : LockArgs)
  | req (r : HomeReq)
  | fence (acquire : Bool)
deriving DecidableEq, Repr

/-- Coherence state of homes and caches. Lines are keyed by address / 64, cache lines by agent × 2^42 + line. -/
structure CohSt where
  dir : Tbl DirLine := []
  busy : Tbl (Option Busy) := []
  /-- Agents with a grant of each line in flight (R140; log entry 105), as a bit mask. -/
  granted : Tbl Nat := []
  /-- Next Retry ticket of each home (R148): Pocket p is home p, stack site s is home 32 + s. -/
  ticket : Tbl Nat := []
  /-- Unserved tickets: (home, ticket, line, whether it waits for a busy entry). -/
  unserved : List (Nat × Nat × Nat × Bool) := []
  /-- Reserved places: (home, ticket, line, busy entry). -/
  reserved : List (Nat × Nat × Nat × Bool) := []
  cache : Tbl (Option CacheLine) := []
  /-- The access that caused an outstanding request of a cache (R145). -/
  pend : Tbl (Option Pend) := []
  /-- A modified copy that left its cache and has not reached the home (R121), and the bytes of a line written at the home while a copy, or a grant, of it
  was in flight. -/
  flight : Tbl (Option CacheLine) := []
  since : Tbl Nat := []
  /-- Snoops held until a grant arrives (R145): true for SnoopInv. -/
  held : Tbl (Option Bool) := []
  /-- Times of the uncorrectable errors of each pseudo-channel pair (site × 16 + pair) within 24 h (R171). -/
  pairUe : Tbl (List Nat) := []
  /-- Requests answered Retry whose answer is on its way, and those their requesters hold with a ticket for reissue (R148, R150). -/
  turned : List HomeReq := []
  retries : List (HomeReq × Nat) := []
  /-- Operations that wait for their context's order, in program order (R123). -/
  waitRel : List (Tag × RelOp) := []
  /-- Requests and LockOps held at their requesters for a domain that is waking, by the domain (R309). -/
  waitWake : List (Nat × Tag × RelOp) := []
deriving DecidableEq, Repr

/-- A Thole lock (R158). -/
structure Lock where
  /-- 0 Free, 1 Held, 2 Orphaned. -/
  st : Nat := 0
  owner : Tag := ⟨0, 0, 0, 0, false⟩
  /-- Queued waiters with the time at which WAIT_MS passes. -/
  queue : List (Tag × Nat) := []
deriving DecidableEq, Repr

/-! ### Translation (chapter 5) -/

/-- A TLB entry (R198): context, first context address, length, first output address, rights R W X C, whether it came from
the page format. -/
structure TlbEntry where
  ctx : Nat
  va : Nat
  len : Nat
  pa : Nat
  rights : Nat
  page : Bool
deriving DecidableEq, Repr

/-- A miss outstanding at an XLU (R203). `held` marks a fault held for a full queue (R211). -/
structure Miss where
  xlu : Nat
  ctx : Nat
  va : Nat
  kind : Access
  work : Work
  at_ : Nat
  held : Bool := false
  /-- The task that ran on the Scull when the access missed. -/
  tid : Nat := 0
  /-- The queue whose lack of space holds it (R211). -/
  queue : Nat := 0
  /-- Whether it has faulted, so that its fill is none of a miss without fault (Table 5.9). -/
  faulted : Bool := false
  /-- A RETRY has released it and the Cox has not walked for it since: it holds no miss slot of its XLU (R203, R210). -/
  again : Bool := false
deriving DecidableEq, Repr

/-- A fault entry's record in the Cox (R207, R208, R210). -/
structure FaultRec where
  id : Nat
  queue : Nat
  ctx : Nat
  page : Nat
  cause : Nat
  stage2 : Bool
  waiters : List Miss
  /-- 0 unresolved, 1 resolved, 2 ended by quarantine or reset. -/
  st : Nat := 0
deriving DecidableEq, Repr

/-- An accepted Invalidate command (R217). -/
structure InvCmd where
  seq : Nat
  kind : Nat
  ctx : Nat
  addr : Nat
  len : Nat
  /-- Whether its CTL broadcast has gone out; none does while the Cox is halted (R618). -/
  sent : Bool := true
deriving DecidableEq, Repr

/-- Translation state: TLBs per XLU, the Cox miss queue, fault records, pending Invalidates. -/
structure XluSt where
  l1 : Tbl (List TlbEntry) := []
  l2 : Tbl (List TlbEntry) := []
  misses : List Miss := []
  faults : List FaultRec := []
  nextId : Tbl Nat := []
  inv : Tbl (List InvCmd) := []
  invSeq : Tbl Nat := []
  /-- Ownership tables (R181): key kind × 2^24 + target × 2^16 + granule; READ mask + 256 × WRITE mask. -/
  lining : Tbl Nat := []
  /-- Contexts whose structure is known bad until invalidated (R190, R195). -/
  badCtx : NatSet := []
  /-- Contexts whose segment structure passed its check since it was last changed (R190). -/
  segOk : NatSet := []
  /-- Queues found full since they last had room: their BUSY record is written (R211). -/
  fqFull : NatSet := []
deriving DecidableEq, Repr

/-! ### Sculls and Slide engines (chapter 6) -/

/-- Task states (Table 6.6). -/
inductive TaskSt where
  | waiting | ready | running | blocked | switchedOut | committing | done | failed
deriving DecidableEq, Repr

/-- A step or vector operation whose Catch checker is open (R279). -/
inductive PendOp where
  /-- An array step, on the weight plane that was active when it was issued (R228). -/
  | array (op : ArrayOp) (plane : Nat)
  | vec (op : VecOp)
deriving DecidableEq, Repr

/-- The values of an attempt that leave the sequencer with it and come back with it (R246, Table 6.6): the weight planes, the accumulator files
and the vector registers, with their poison, and the bytes of the tile memory ranges that Maleus declares live. -/
structure Compute where
  planes : Tbl Nat := []
  active : Nat := 0
  acc : Tbl Nat := []
  vreg : Tbl Nat := []
  planePoison : NatSet := []
  accPoison : NatSet := []
  vregPoison : NatSet := []
  /-- Offset in tile memory, byte, and whether its word is poisoned. -/
  tile : List (Nat × Byte × Bool) := []
deriving DecidableEq, Repr

/-- The absolute values that a commit writes (R244 steps 3 and 4, R245): what it publishes (address, bytes, value), and the ring records whose CON it
returns. -/
structure CommitW where
  pubs : List (Nat × Nat × Nat)
  cons : List (Nat × Nat)
deriving DecidableEq, Repr

/-- A task bound to a Scull: its record's fields (Table 6.5) and its run state. -/
structure Task where
  id : Nat
  lane : Nat
  cls : Nat
  prio : Nat
  nIn : Nat
  nOut : Nat
  ctx : Nat
  deadlineNs : Nat
  envelope : Nat
  saveLen : Nat
  code : Nat := 0
  save : Nat := 0
  part : Nat
  model : Nat
  /-- Input slots: ring record address and bytes per run; output slots: ring record address, bytes, two-sided flag. -/
  ins : List (Nat × Nat)
  outs : List (Nat × Nat × Bool)
  st : TaskSt := .waiting
  /-- Attempts restarted for this trigger; device time of the trigger. -/
  restarts : Nat := 0
  trigger : Nat := 0
  steps : Nat := 0
  poisoned : Bool := false
  /-- Runnable but held for a full ready list (R253). -/
  held : Bool := false
  /-- Triggers it has done with: the index of the next one, or of the one it runs for. -/
  runs : Nat := 0
  /-- Triggers it is ended for before it begins (R248, R575): the trigger's index, and the input ring whose bytes never come (0: none is missing). -/
  skip : List (Nat × Nat) := []
  /-- SEQ of the lane entry that triggered it. -/
  entry : Nat := 0
  /-- Whether its save area is still being written (R246). -/
  saving : Bool := false
  resumed : Bool := false
  /-- Its values, while another task's are in the Scull, or while they are in its save area (R246, Table 6.6). -/
  kept : Option Compute := none
  /-- The free values that stand in its save area, by the model's counter, from the end of a switch-out until the switch-in (R246). -/
  saved : Option Nat := none
  /-- The values its commit writes, until all of them are written (R245). -/
  commit : Option CommitW := none
  /-- Where its task record and its slot table lie (Table 6.5): a physical and a context address, 0 for none. -/
  recAt : Nat := 0
  slots : Nat := 0
deriving DecidableEq, Repr

/-- A Scull's compute state: planes, accumulators and vector registers (confirmed values only), open checkers, the Catch
window and escalations. -/
structure Scull where
  /-- Weights: key plane × 2^16 + row × 512 + column; plane 0 or 1, the one named by `active` in use. -/
  planes : Tbl Nat := []
  active : Nat := 0
  /-- Accumulators: key entry × 512 + column (32-bit patterns). -/
  acc : Tbl Nat := []
  /-- Vector registers: key register × 512 + lane (32-bit patterns). -/
  vreg : Tbl Nat := []
  /-- Poison marks (R168), per weight and per 64-bit word: keys as in `planes`; entry × 256 + word; register × 256 + word. -/
  planePoison : NatSet := []
  accPoison : NatSet := []
  vregPoison : NatSet := []
  open_ : List PendOp := []
  /-- Replay time in tenths of a step time not yet counted in SCL_STEPS. -/
  tenths : Nat := 0
  windowSteps : Nat := 0
  windowErrs : Nat := 0
  quiet : Nat := 0
  escTimes : List Nat := []
  /-- Halt state (R614 to R623): halted, pending reason, operations left of a STEP. -/
  halted : Bool := false
  haltPending : Option (Nat × Nat × Nat) := none
  /-- How far each of its Slide engines had issued when the halt was asked for (R614). -/
  haltMarks : List Nat := []
  stepLeft : Option Nat := none
  /-- Demand in steps per second and the last monitor reading (R288, R313). -/
  demand : Nat := 0
  monitorOk : Bool := true
  /-- The task whose values the Scull now holds (R246). -/
  owner : Option Nat := none
deriving DecidableEq, Repr

/-- A burst of a Slide engine (R257): stream offset, length, destination, source pieces still to arrive. -/
structure Burst where
  off : Nat
  len : Nat
  dst : Nat
  /-- Source bytes: (physical address) per byte; filled as Data arrives. -/
  srcs : List Nat
  got : Tbl (Option (Byte × Bool))
  sent : Bool
  done : Bool
  /-- The Invalidate commands, by partition and sequence number, that wait for it (R219). -/
  inv : List (Nat × Nat) := []
deriving DecidableEq, Repr

/-- A Slide engine (R255 to R268). -/
structure Slide where
  /-- The physical addresses of the descriptor's two lines; 0 where it has none, or where its status words cannot be written (R255). -/
  desc : Nat := 0
  desc2 : Nat := 0
  ctx : Nat := 0
  part : Nat := 0
  /-- The partition the engine serves, where one was granted (R274). -/
  owner : Option Nat := none
  byTask : Option Nat := none
  /-- 0 IDLE, 1 RUNNING, 2 WAIT_CREDIT, 3 FAULTED, 4 DONE, 5 ERROR. -/
  st : Nat := 0
  status : Nat := 0
  src : Nat := 0
  dst : Nat := 0
  counts : List Nat := []
  srcStr : List Nat := []
  dstStr : List Nat := []
  elem : Nat := 0
  flags : Nat := 0
  ring : Nat := 0
  /-- Stream bytes issued, and the completed and published prefix. -/
  issued : Nat := 0
  done : Nat := 0
  ringBase : Nat := 0
  ringSize : Nat := 0
  /-- PUB and CON of the ring at the start: where a destination and where a source begins (R262, R263). -/
  ringPos : Nat := 0
  srcPos : Nat := 0
  bursts : List Burst := []
  faultAddr : Nat := 0
deriving DecidableEq, Repr

/-! ### Faults and recovery (chapter 14) -/

/-- What a quiesce is for (R561). -/
inductive QAct where
  | reset | update | off | forceOff | autoOff | silentReset
deriving DecidableEq, Repr

/-- The Cox's recovery state. -/
structure ErrSt where
  /-- Records by ring × 512 + index mod 512 (R557). -/
  recs : Tbl (Option ErrRec) := []
  /-- Where each ring lies in the Cox's reserve: the number of its 16 KiB place, ring r at place r until it is moved, and the next free place (R557,
  R585; log entry 110). -/
  place : Tbl Nat := []
  places : Nat := 9
  /-- SEQ of each ring's next record, and records lost since the last one written (R558). -/
  seq : Tbl Nat := []
  lost : Tbl Nat := []
  /-- Times of the last contained records per partition (R577). -/
  storm : Tbl (List Nat) := []
  /-- The quiesce in progress and those queued (R564): unit and action. -/
  cur : Option (Nat × QAct) := none
  queue : List (Nat × QAct) := []
  /-- Times of silent resets per unit (R571). -/
  silent : Tbl (List Nat) := []
  /-- Epochs as every target knows them (R553): unit to epoch; default 1. -/
  known : Tbl Nat := []
  /-- Lines lost in M per granule of a forced or silent Pocket (R567): key pocket × 32 + granule. -/
  lostLines : Tbl Nat := []
  /-- Rate limits: time of the last record of R489 (key part) and R591 (key 8 + part), default none. -/
  lastRec : Tbl (Option Nat) := []
  /-- Heartbeat timers (R576): time of the last HEARTBEAT per partition; expired flags. -/
  hbAt : Tbl (Option Nat) := []
  hbLate : NatSet := []
  /-- Lanes in a run of late entries (R574). -/
  lateRun : NatSet := []
  /-- Device-fatal times (R581) and the cause to report at step 16. -/
  fatalTimes : List Nat := []
  fatalReport : Option Nat := none
  /-- Whether the fatal controller will restart the device (R581), and the times of the restarts it made. -/
  fatalGo : Bool := false
  fatalRestarts : List Nat := []
  /-- Partitions failed within 10 s of a restart (R579), and the time of the last restart. -/
  restartAt : Tbl (Option Nat) := []
  noAuto : NatSet := []
  /-- Whether the Cox watchdog is suspended (halted). -/
  coxHalted : Bool := false
  /-- Whether a Pocket's data was lost while off (R567). -/
  forcedOff : NatSet := []
deriving DecidableEq, Repr

/-! ### Reports, host and link (chapter 12) -/

/-- A datagram as sent (R482, R485). -/
structure Dgram where
  dseq : Nat
  recs : List Report
  sentAt : Nat
  resends : Nat
deriving DecidableEq, Repr

/-- A collector (R65, R482 to R485). -/
structure Collector where
  family : Nat
  dscp : Nat
  addr : List Byte
  port : Nat
  /-- Records of the datagram being filled, and the time of the first. -/
  fill : List Report := []
  firstAt : Nat := 0
  dseq : Nat := 0
  unacked : List Dgram := []
  acked : NatSet := []
  /-- Time since which no next hop resolves. -/
  unresolvedAt : Nat := 0
deriving DecidableEq, Repr

/-- The report path. Destinations are partition rings 0 to 7 and collectors 8 to 11. -/
structure RptSt where
  backlog : Tbl (List Report) := []
  /-- Runs of dropped records (R481): key destination × 64 + lane; first SEQ and count. -/
  runs : Tbl (Option (Nat × Nat)) := []
  cols : Tbl (Option Collector) := []
  /-- Whether delivery to the partition's ring last failed (R518). -/
  failing : NatSet := []
deriving DecidableEq, Repr

/-- A recorded completion (R496). -/
structure Completion where
  seq : Nat
  op : Nat
  status : Nat
  result : List Byte
  time : Nat
deriving DecidableEq, Repr

/-- A mailbox command that has started and not completed (R497). -/
structure BusyCmd where
  seq : Nat
  op : Nat
  irq : Bool
  args : List Byte
deriving DecidableEq, Repr

/-- The PCIe endpoint and the mailboxes. -/
structure HostSt where
  busy : Tbl (Option BusyCmd) := []
  done : Tbl (List Completion) := []
  /-- Completions written per function since its mailbox was set up. -/
  cqCount : Tbl Nat := []
  /-- MSI-X: time each vector (function × 8 + vector) last fired, and vectors whose cause persists (R491). -/
  irqAt : Tbl (Option Nat) := []
  irqDue : NatSet := []
deriving DecidableEq, Repr

/-- A link port (R502 to R508). -/
structure JlPort where
  nextSeq : Nat := 0
  expect : Nat := 0
  lastAccepted : Nat := 255
  /-- Unacknowledged flits, oldest first: LSEQ and payload messages. -/
  replay : List (Nat × List JlMsg) := []
  resends : Tbl Nat := []
  badRun : Nat := 0
  nakSent : Bool := false
  ackAt : Nat := 0
  retrains : List Nat := []
  /-- Messages waiting for a credit or for replay space, and credits held per class. -/
  waiting : List JlMsg := []
  credReq : Nat := 64
  credRsp : Nat := 64
  freedReq : Nat := 0
  freedRsp : Nat := 0
  trying : Bool := false
deriving DecidableEq, Repr

/-- A recorded execution in a duplicate window (R514). -/
structure DupEntry where
  pkg : Nat
  unit : Nat
  tag : Nat
  epoch : Nat
  status : Nat
  old : Nat
  at_ : Nat
deriving DecidableEq, Repr

/-- An end-to-end tag in use (R513). -/
structure TagUse where
  unit : Nat
  tag : Nat
  work : Work
  part : Nat
  addr : Nat
  /-- Whether the request was a WriteLine or Atomic; whether its response has come (the hold runs). -/
  hold : Bool
  answered : Bool
  /-- Whether it was an Atomic with acquire (R124). -/
  acq : Bool := false
deriving DecidableEq, Repr

/-- The Jalvin link. -/
structure JlSt where
  ports : Tbl JlPort := []
  dup : List DupEntry := []
  /-- Recorded epoch of each source (pkg × 256 + unit) (R515). -/
  epochs : Tbl (Option Nat) := []
  tags : List TagUse := []
  nextTag : Tbl Nat := []
  /-- Remote requests held because every tag of their unit is busy (R513). -/
  heldReqs : List (Work × JlMsg) := []
  /-- Packages addressed by each local unit since its last bump (unit × 16 + pkg). -/
  addressed : NatSet := []
deriving DecidableEq, Repr

/-! ### Debug and lifecycle (chapter 15) -/

/-- A breakpoint or watchpoint slot (R619): context, address, log2 length, direction. -/
structure DbgSlot where
  ctx : Nat
  addr : Nat
  log2 : Nat := 0
  dir : Nat := 0
deriving DecidableEq, Repr

/-- A MEM_READ or MEM_WRITE of another package's memory whose answer is out (R622): the command's OP and TAG, the address and the length. -/
structure DbgWait where
  op : Nat
  tag : Nat
  addr : Nat
  len : Nat
deriving DecidableEq, Repr

/-- The debug monitor. -/
structure DbgSt where
  /-- The memory access in progress, the command frame held behind it, and whether a frame was dropped since the last response (R605). -/
  waiting : Option DbgWait := none
  held : Option Instr := none
  overrun : Bool := false
  /-- Unread responses, oldest first (R605). -/
  rsp : List (List Byte) := []
  /-- The live nonce and when it was issued (R609). -/
  nonce : Option (Nat × Nat) := none
  /-- End of the lockout, and the length in seconds of the next one (R610). -/
  lockoutUntil : Option Nat := none
  lockoutLen : Nat := 600
  /-- When the open session opened (R612). -/
  sessionAt : Option Nat := none
  /-- Code breakpoints (scull × 8 + slot), watchpoints (scull × 4 + slot), report kinds that halt a lane's Sculls (R619, R620). -/
  bps : Tbl (Option DbgSlot) := []
  wps : Tbl (Option DbgSlot) := []
  laneBp : Tbl Nat := []
deriving DecidableEq, Repr

/-! ### Catch, the Delta Engine and power domains (chapter 7) -/

/-- A lane's reuse state (R294, R295). -/
structure Reuse where
  /-- The slot of the previous frame (R294), and whether the next frame is marked all changed. -/
  prev : Option Nat := none
  all : Bool := true
  /-- Frames in a row each tile was reused. -/
  age : Tbl Nat := []
  /-- Planned step times of the last frame (R288, R304). -/
  planned : Nat := 0
deriving DecidableEq, Repr

/-- A rail the voltage governor moves (R95): the supply in mV it moves to, the one it had when the move began, and that time. -/
structure Rail where
  mv : Nat := 450
  start : Nat := 450
  since : Nat := 0
deriving DecidableEq, Repr

/-- Power domains (R308 to R315). -/
structure PwrSt where
  /-- Domains waking, with the time the wake began. -/
  waking : Tbl (Option Nat) := []
  explicit : Option Nat := none
  /-- VDD_CORE of the halves (0, 1), the timing rails of the Sculls (2 + n) and their datapath rails (18 + n) (R95, R288, R290, R291). -/
  rails : Tbl Rail := []
  /-- Domains about to be woken again by a reset (step 6 of Table 14.5), with the unit's old epoch. -/
  returning : Tbl (Option Nat) := []
deriving DecidableEq, Repr

/-! ### Lanes, time and shedding (chapter 8) -/

/-- A lane's ring entry (Table 8.3) from the write of its frame or block to the last commit on it. -/
structure Entry where
  seq : Nat
  dev : Nat
  arrival : Nat
  slot : Nat
  tflags : Nat
  srcFlags : Nat
  rtpTs : Nat
  missed : Nat
  counts : List Nat := []
  changed : Nat := 0
  k : Nat := 0
  all : Bool := false
  /-- At stage 2 the metric of every compared tile (a forced tile: more than any threshold); at stage 3 the tiles marked changed. -/
  map : List Nat := []
  /-- T_MIN, T_MAX and MODE as the Delta Engine took them (R302). -/
  band : Nat × Nat × Nat := (0, 0, 0)
  /-- 1 with the Delta Engine, 2 counts ready and waiting for the governor, 3 published. -/
  stage : Nat := 3
  /-- Energy of its frame or block so far, in nJ (R306). -/
  energy : Nat := 0
  /-- Entries published before it since the lane's tasks were bound: the index of its trigger (R248). -/
  idx : Nat := 0
  /-- Tasks that have not committed for the entry (Scull × 2^16 + TASK_ID). -/
  left : List Nat := []
  late : Bool := false
  ended : Bool := false
  /-- The time each Scull had spent halted when it entered, in ns; none where none had (R621). -/
  halts : List Nat := []
deriving DecidableEq, Repr

/-- An RTCP sender report (R341). -/
structure SrMap where
  sec : Nat
  frac : Nat
  rtp : Nat
  at_ : Nat
deriving DecidableEq, Repr

/-- A frame or block held for want of a slot, with its device time and flags (R326). -/
structure HeldFrame where
  dev : Nat
  tflags : Nat
  srcFlags : Nat
  rtpTs : Nat
  arrival : Nat
  bytes : List Byte
deriving DecidableEq, Repr

/-- A sensor node and the block being assembled (R331 to R335). -/
structure NodeSt where
  /-- Serial and MAC address of the node that the last CONFIG addressed. -/
  serial : Nat := 0
  mac : Nat := 0
  error : Nat := 0
  asSync : Bool := true
  /-- AXES and COUNT of the CONFIG last sent; COUNT 0 when none was. `fresh`: no SAMPLES frame came after it. -/
  axes : Nat := 0
  count : Nat := 0
  fresh : Bool := false
  /-- Next sample index expected, and the first index of the block being assembled (none: waiting for a block boundary). -/
  next : Option Nat := none
  start : Option Nat := none
  /-- Device time, time flags and source flags of the block, and its samples, all axes of a sample together. -/
  t0 : Nat := 0
  tflags : Nat := 0
  flags : Nat := 0
  samples : List Nat := []
deriving DecidableEq, Repr

/-- A lane. -/
structure LaneSt where
  /-- Areas in the stack: data area, slot bytes, slots, entry-ring record, entry-ring base (R325). -/
  data : Nat := 0
  slotLen : Nat := 0
  depth : Nat := 0
  ring : Nat := 0
  base : Nat := 0
  seq : Nat := 0
  missed : Nat := 0
  /-- Entries not yet consumed, oldest first; entries published since admission. -/
  entries : List Entry := []
  pubs : Nat := 0
  held : Option HeldFrame := none
  /-- Frames or blocks that arrived since admission (R350). -/
  arrived : Nat := 0
  /-- Shed decisions, newest first: device time and level; a frame takes the level decided before it arrived (R350). -/
  decided : List (Nat × Nat) := []
  lastDev : Nat := 0
  lastAt : Nat := 0
  /-- Something has arrived since admission. -/
  heard : Bool := false
  /-- Whole intervals without an arrival already counted lost (R352). -/
  lossRun : Nat := 0
  /-- The gap interval in progress: start, shed, lost, cause bits (R351, Table 12.2). -/
  gapStart : Nat := 0
  gapShed : Nat := 0
  gapLost : Nat := 0
  gapCause : Nat := 0
  /-- Times of the frames accepted in the last second (R330). -/
  recent : List Nat := []
  /-- Sender reports, newest first (R341). -/
  srs : List SrMap := []
  ssrc : Nat := 0
  rtpSeq : Option Nat := none
  restart : Bool := false
  /-- Waiting for an IDR or recovery point (R328, R354); the record of the run is written (R354). -/
  waitIdr : Bool := true
  lossRec : Bool := false
  mismatch : Bool := false
  node : NodeSt := {}
  /-- The next entry reports a change of shed level or leaves a gap: it is marked all changed (R294, R350). -/
  allNext : Bool := true
  /-- Start of an absence, and whether a re-plug waits for the source (R539, R542). -/
  absentAt : Nat := 0
  waiting : Bool := false
  waitAt : Nat := 0
  /-- Stack site and charge in kB/s (R345, R452), the reuse store's address. -/
  site : Nat := 0
  kb : Nat := 0
  reuse : Nat := 0
  /-- Admitted, and no model change in progress: entries are written (Table 11.8 step 2). -/
  writes : Bool := false
  /-- Device time at which the self-rejection coefficients were last reset (R661). -/
  coefAt : Nat := 0
  /-- Frame capture in progress for this lane: mailbox function, destination, start (R501). -/
  capture : Option (Nat × Nat × Nat) := none
deriving DecidableEq, Repr

/-- Device time and the PTP slave (R337 to R339). -/
structure PtpSt where
  everLocked : Bool := false
  lastSync : Option Nat := none
  /-- Slew of device time in parts per 10^9 above 10^9: 500,000 is none (R338). -/
  slew : Nat := 500000
  frac : Nat := 0
  /-- The two-step Sync awaiting its Follow_Up: sequence and device time of arrival. -/
  twoStep : Option (Nat × Nat) := none
  delay : Nat := 0
  /-- The master chosen by the BMCA: priority1, class, accuracy, variance, priority2, identity. -/
  master : Option (List Nat) := none
  /-- The last flags reported by HEALTH TIME (Table 12.3). -/
  flags : Nat := 1
  /-- Multicast joins: (die, port, family, group, source). -/
  joins : List (Nat × Nat × Nat × List Byte × List Byte) := []
  /-- t2 − t1 of the last Sync (R327). -/
  t21 : Int := 0
  /-- Sync sequence number on each segment (die × 4 + segment). -/
  gseq : Tbl Nat := []
  /-- T1S segments in fault (die × 4 + segment), and nodes heard ((die × 4 + segment) × 256 + PLCA ID). -/
  segFault : NatSet := []
  nodes : NatSet := []
deriving DecidableEq, Repr

/-- A stack's shedding (R347, R348): evaluations of the last 10 s (time, target). -/
structure ShedSt where
  hist : List (Nat × Nat) := []
  halved : Bool := false
deriving DecidableEq, Repr

/-! ### The Learning Engines and the Boathouse (chapters 9 and 10) -/

/-- A neuron's state (Table 9.3); FP32 patterns. -/
structure Neuron where
  v : Nat := 0
  x1 : Nat := 0
  x2 : Nat := 0
  y1 : Nat := 0
  y2 : Nat := 0
  s : Nat := 0x3F800000
  norm : Nat := 0
  nov : Nat := 0
  tLast : Nat := 0
  tSpike : Nat := 0
  fanin : Nat := 0
  pop : Nat := 0
  /-- The record reads POISONED (R403). -/
  poisoned : Bool := false
deriving DecidableEq, Repr

/-- A synapse record (Table 9.4). `uid` is the model's own name for it within its row, `bad` that R369 or R402 has cleared it and its fan-in
entry still stands. -/
structure Syn where
  uid : Nat
  target : Nat
  w : Nat
  delay : Nat
  elig : Int
  age : Nat
  valid : Bool
  frozen : Bool
  new : Bool
  spill : Bool
  poisoned : Bool := false
  bad : Bool := false
  /-- The engine has written the whole record as 0 (R402); `target` is then the fan-in entry that still dangles. -/
  wiped : Bool := false
deriving DecidableEq, Repr

/-- A pending delivery (R373, R374): its synapse, the spike's time and amplitude, the lane whose event caused it, its due time. -/
structure Deliv where
  src : Nat
  uid : Nat
  target : Nat
  t : Nat
  amp : Nat
  lane : Nat
  due : Nat
deriving DecidableEq, Repr

/-- An admitted population (Table 9.2): its descriptor bytes and what admission binds to it. -/
structure Pop where
  desc : List Byte
  part : Nat
  /-- Model slot (Table 11), and signature (R451). -/
  model : Nat
  sig : List Byte
  fastQuota : Nat
  spillQuota : Nat
  /-- Engine time at the last evaluation sweep (R388). -/
  evalAt : Nat := 0
  freeze : Bool := false
  laneFrozen : Bool := false
  dirty : Bool := false
  /-- Time of the last BUSY record of R404. -/
  ovfAt : Option Nat := none
  /-- Persistence: KEEP and BOTH populations of a retired bank are held as HOST (R572). -/
  asHost : Bool := false
deriving DecidableEq, Repr

/-- A trigger deferred by a pause (R414, R415); PRE applications and spikes carry the populations that were frozen when they were queued
(chapter 10, Crossings 5 and 7). -/
inductive Trig where
  | pre (src uid t m lane : Nat) (frozen : List Nat)
  | spike (j t m lane : Nat) (frozen : List Nat)
  | sweep (pop : Nat)
  | renorm (j : Nat)
deriving DecidableEq, Repr

/-- A pause in progress (R414 to R417). -/
structure Pause where
  pop : Nat
  t : Nat
  queue : List Trig := []
  full : Bool := false
  /-- Discarded triggers per lane. -/
  skipped : Tbl Nat := []
deriving DecidableEq, Repr

/-- A Learning Engine. -/
structure LeSt where
  neurons : Tbl (Option Neuron) := []
  rows : Tbl (List Syn) := []
  pops : Tbl (Option Pop) := []
  nextUid : Nat := 0
  wheel : List Deliv := []
  /-- Candidate table (R385): source, target, count. -/
  cand : Tbl (Option (Nat × Nat × Nat)) := []
  /-- The last 256 spikes: neuron and time (R386). -/
  spikes : List (Nat × Nat) := []
  /-- Engine time of each model slot (R374). -/
  time : Tbl Nat := []
  pause : Option Pause := none
deriving DecidableEq, Repr

/-- The levels and HOLD_MS of a lane before a write, which its entries up to DEV_TIME `upTo` carry (R322), and whether the writes since then changed a
level, so that the first scored entry with the new ones restarts the holds (R398). -/
structure OldLevels where
  upTo : Nat
  nov : Nat
  alm : Nat
  clr : Nat
  hold : Nat
  reset : Bool
deriving DecidableEq, Repr

/-- A lane's scoring, modulator and event ring (R362, R390 to R397). -/
structure LrnLane where
  ring : Nat := 0
  engine : Nat := 0
  sum : Nat := 0
  count : Nat := 0
  srcs : Tbl Nat := []
  /-- The starts t0 of the holds of ALARM, NOVELTY and CLEAR (R397). -/
  holdA : Option Nat := none
  holdN : Option Nat := none
  holdC : Option Nat := none
  /-- Device times at which the teach window and the Mark end; 0 when not running. -/
  teachEnd : Nat := 0
  markEnd : Nat := 0
  /-- The current m with its start, and the m before (R391): 0 zero, 1 +1, 2 −1. -/
  m : Nat := 0
  mAt : Nat := 0
  mPrev : Nat := 0
  /-- Per-source sums since each hold began (R399). -/
  srcA : Tbl Nat := []
  srcN : Tbl Nat := []
  srcC : Tbl Nat := []
  /-- The levels that entries already in the ring carry, newest first (R322). -/
  older : List OldLevels := []
  /-- A gap interval ended since the last scored entry (R397). -/
  gapSince : Bool := false
  absentAt : Option Nat := none
deriving DecidableEq, Repr

/-- A request for a snapshot (R427, R435, R437): a checkpoint, or a readout to a destination of a given length. -/
structure SnapReq where
  pop : Nat
  readout : Bool
  dest : Nat := 0
  len : Nat := 0
  /-- The mailbox function whose command it completes; the register's request where `byReg`. -/
  fn : Option Nat := none
  byReg : Bool := false
  /-- Device time of the pause, the pool blocks taken (R423), and the image as it stands at the pause (R413). -/
  t : Nat := 0
  blocks : List Nat := []
  image : List Byte := []
deriving DecidableEq, Repr

/-- A slot being written (Table 10.4 steps 5 to 8). -/
structure SlotWrite where
  pop : Nat
  blocks : List Nat
  image : List Byte
  t : Nat
  attempt : Nat
  verifying : Bool
  fn : Option Nat
  byReg : Bool
  powerFail : Bool := false
deriving DecidableEq, Repr

/-- A bank's controller. -/
structure BankSt where
  writes : Tbl Nat := []
  /-- Pool blocks in use. -/
  used : NatSet := []
  logNext : Nat := 0
  seq : Nat := 0
  /-- Block writes of the last 24 h: time and number. -/
  recent : List (Nat × Nat) := []
  /-- The snapshot being copied, and the requests behind it (R437). -/
  cur : Option SnapReq := none
  queue : List SnapReq := []
  writing : List SlotWrite := []
  /-- Checkpoints put off by the wear budget (R427). -/
  deferred : List SnapReq := []
  /-- Committed slot of each population index: its blocks, SEQ. -/
  committed : Tbl (Option (List Nat × Nat)) := []
  /-- Bytes written after PWRFAIL (R433). -/
  pfBytes : Nat := 0
  stopped : Bool := false
  /-- Codewords of 512 bytes, counted from the bank's start, that a read at step 12 found beyond correction (R429, R439). -/
  ue : NatSet := []
deriving DecidableEq, Repr

/-! ### Models and admission (chapter 11) -/

/-- Tasks placed together on one Scull (R455 rule 1): what they take of it, and each task's entry index and lane (255: model-wide). -/
structure TaskUnit where
  scull : Nat
  half : Nat
  share : Nat
  tile : Nat
  slide : Nat
  tasks : List (Nat × Nat)
deriving DecidableEq, Repr

/-- What admission reserves for a bound lane (R451, R456): stack site, charge in kB/s, addresses of the data area, the entry ring, the
reuse store, and the event ring's granules. -/
structure LaneRes where
  lane : Nat
  site : Nat
  kb : Nat
  data : Nat
  ring : Nat
  reuse : Nat
  evGran : List Nat
deriving DecidableEq, Repr

/-- A model in a slot: its profile's demand, places and tables (R454 to R458). -/
structure Model where
  id : Nat
  rev : Nat
  part : Nat
  prof : Nat
  /-- 1 LOADING, 2 RUNNING, 3 STOPPING. -/
  st : Nat
  demand : List Nat
  lanes : List LaneRes
  units : List TaskUnit
  /-- Engine and population number of each population, with its entry (R446). -/
  pops : List (Nat × Nat × List Byte)
  /-- HBM areas (address, bytes) and Pocket granules (Pocket × 32 + granule). -/
  hbm : List (Nat × Nat)
  /-- The model-wide HBM area and the save areas, 0 where the profile asks for none. -/
  area : Nat
  save : Nat
  pocket : List Nat
  ctxs : List Nat
  plans : List (List Byte)
  tasks : List (List Byte)
  blob : List Byte
deriving DecidableEq, Repr

/-- A request to the admission queue (R453): 1 load, 2 replace, 3 unload. -/
structure AdmitReq where
  kind : Nat
  part : Nat
  id : Nat
  image : List Byte
  /-- At start-up no completion is owed and check 5 of R448 is skipped. -/
  fn : Option Nat
  short : Nat
deriving DecidableEq, Repr

/-- A load under way: the request, the model slot, the domains it waits for, populations carried over (R462), whether it is a replacement. -/
structure Loading where
  req : AdmitReq
  slot : Nat
  carried : List (Nat × Nat)
  oldId : Nat
deriving DecidableEq, Repr

/-- The admission controller. -/
structure MdlSt where
  models : Tbl (Option Model) := []
  cur : Option Loading := none
  queue : List AdmitReq := []
  /-- The shortfall vectors of each partition's last refused request, by profile. -/
  short : Tbl (List (List Nat)) := []
  /-- The last request of each partition: status, check code, profile, slot, populations carried, MODEL_ID. -/
  last : Tbl (List Nat) := []
deriving DecidableEq, Repr

/-! ### The panel (chapter 13) -/

/-- A key that is held: its action 0 TEACH to 3 SELECT, its target lane (R528), whether its action is spent or cancelled. -/
structure KeyHeld where
  act : Nat
  target : Option Nat
  at_ : Nat
  spent : Bool
deriving DecidableEq, Repr

/-- The panel. -/
structure PnlSt where
  held : Tbl (Option KeyHeld) := []
  /-- A chord holds until every key is released (R529). -/
  chord : Bool := false
  /-- The lane number display after a selection change (R536) ends at this time; 0 when none runs. -/
  showUntil : Nat := 0
  /-- Counts and baselines of sense electrodes by pin; the baseline in 1/256 of a count. -/
  count : Tbl Nat := []
  base : Tbl Nat := []
  /-- Consecutive sweeps with and without a touch; whether a touch is held; the lane under the finger. -/
  touchRun : Nat := 0
  freeRun : Nat := 0
  touching : Bool := false
  finger : Option Nat := none
  /-- The alarm sounds (R537); a TEST tone and a 50 ms tone end at these times. -/
  alarm : Bool := false
  testUntil : Nat := 0
  toneUntil : Nat := 0
  /-- Lanes whose RELEARN awaits a Teach (R545). -/
  relearn : NatSet := []
deriving DecidableEq, Repr

/-! ### The module (chapter 17) -/

/-- The module's inputs and protections. -/
structure ModSt where
  /-- Whether both controllers have stopped after PWRFAIL (R434). -/
  stopped : Bool := false
  /-- A thermal trip to report at the next step 16, and one that still holds off restart (R663). -/
  tripReport : Bool := false
  tripped : Bool := false
  /-- V_so may not rise (R657). -/
  capped : Bool := false
  /-- The reference accelerometer is bypassed (R665). -/
  refBypass : Bool := false
  /-- Segments whose node power is off after an overcurrent (die × 4 + segment) (R639). -/
  segOff : NatSet := []
  /-- Ports whose transceiver is removed, and those left in low-power mode (die × 2 + port) (R653). -/
  sfpGone : NatSet := []
  sfpLow : NatSet := []
  /-- Jalvin ports whose presence pin shows a cable, as the last training saw it (R654). -/
  cables : NatSet := []
  /-- PERST_N is low (R645). -/
  perst : Bool := false
  /-- The time at which each halted Scull halted, and the time it spent halted before, in ns (R621). -/
  haltAt : Tbl (Option Nat) := []
  haltTotal : Tbl Nat := []
deriving DecidableEq, Repr

/-! ### The whole state -/

/-- The state of the block. -/
structure State where
  /-- Register fields that differ from their hardware reset value: key (offset × 64 + low bit) (R10, R628). -/
  flds : Tbl Nat := []
  /-- Holding words and shadows per access context (R18). -/
  holds : Tbl Hold := []
  /-- HBM, Pockets, tile memories and the host window, by local offset PA[43:0] (Table 1.5). -/
  mem : List Host.Cell := []
  /-- Poisoned 64-bit words, by address / 8 (R168). -/
  poison : NatSet := []
  /-- The Boathouse's 32 MiB, by offset in its window (R31). -/
  bh : Tbl Byte := []
  boot : BootSt := {}
  coh : CohSt := {}
  locks : Tbl Lock := []
  xlu : XluSt := {}
  scl : Tbl Scull := []
  /-- Bound tasks: key Scull × 2^16 + TASK_ID, and each Scull's ready list and line of held tasks in arrival order. -/
  tasks : Tbl (Option Task) := []
  ready : Tbl (List Nat) := []
  heldReady : Tbl (List Nat) := []
  sld : Tbl Slide := []
  err : ErrSt := {}
  rpt : RptSt := {}
  host : HostSt := {}
  jl : JlSt := {}
  dbg : DbgSt := {}
  reuse : Tbl Reuse := []
  pwr : PwrSt := {}
  lanes : Tbl LaneSt := []
  ptp : PtpSt := {}
  shed : Tbl ShedSt := []
  le : Tbl LeSt := []
  lrn : Tbl LrnLane := []
  bank : Tbl BankSt := []
  mdl : MdlSt := {}
  pnl : PnlSt := {}
  mod : ModSt := {}
  /-- Registers whose backing state holds an uncorrectable error that a read has found, by offset (R633). -/
  regUe : NatSet := []
  /-- Outputs of the last command, in order. -/
  out : List Out := []
  /-- The always-on timer and device time, in ns (R7, R337, R611). -/
  now : Nat := 0
  dev : Nat := 0
  /-- The model's own counter: it names the next free value (Config). Not the spec's. -/
  free : Nat := 0
  /-- Commands waiting, first in, first out. -/
  pending : List Instr := []
deriving DecidableEq, Repr

/-- The block right after reset: every register at its hardware reset value, memory with nothing listed, every engine
idle, the queue empty (log entries 2 to 5 for the values the spec does not give). -/
def State.reset : State := {}

end Sys2Proof.Machine
end

