-- ==== Sys2Proof/Machine/Clock.lean ====
section
/-!
DEFINITION. The passing of time: what the block does when no command waits (DESIGN CHOICE, log entry 7).
-/
namespace Sys2Proof.Machine

/-- One nanosecond passes: the always-on timer (R611) and device time advance, device time, 64 bits wide (R7), at its slew, parts per 10^9 above
500,000 (R337, R338). -/
def State.tick (s : State) : State :=
  let f := s.ptp.frac + 1000000000 + s.ptp.slew - 500000
  { s with now := s.now + 1, dev := (s.dev + f / 1000000000) % 2 ^ 64, ptp := { s.ptp with frac := f % 1000000000 } }

end Sys2Proof.Machine
end

