-- ==== Sys2Proof/Machine/Approx.lean ====
section
/-!
DEFINITION. The exact results of the approximated functions (R238, R375), as far as an FP32 result needs them: each is a sign, a number and a power
of two, computed to far more places than FP32 has, and whether it is exact.
-/
namespace Sys2Proof.Machine

/-- A real number as computed from below: (−1)^neg × (m + part of 1) × 2^e; `exact` where no part is left. -/
structure Real32 where
  neg : Bool := false
  m : Nat
  e : Int
  exact : Bool := false
deriving DecidableEq, Repr

/-- The bit pattern of the largest FP32 magnitude not above m × 2^e (infinity where it is 2^128 or more), and whether it is that number. -/
def fpFloor (m : Nat) (e : Int) : Nat × Bool :=
  if m = 0 then (0, true)
  else
    let top := max (e + Nat.log2 m) (-126)
    let q := top - 23
    let r := if q ≤ e then (m * 2 ^ (e - q).toNat, true) else (m / 2 ^ (q - e).toNat, decide (m % 2 ^ (q - e).toNat = 0))
    (min ((top + 126).toNat * 2 ^ 23 + r.1) 0x7F800000, r.2)

/-- A magnitude within 2 units in the last place of the exact result whose floor is `f`: of those values, the one `pick` chooses. -/
def withinUlps (f : Nat × Bool) (pick : Nat) : Nat :=
  min 0x7F800000 (if f.2 then f.1 + pick % 5 - 2 else f.1 + pick % 4 - 1)

/-- Fixed-point 1 with 512 places. -/
def fixOne : Nat := 2 ^ 512

/-- The arctangent of 1 / k in fixed point, by its series. -/
def atanInv (k : Nat) : Nat :=
  (((List.range 120).foldl (fun (a : Int × Nat) i =>
    (if i % 2 = 0 then a.1 + (a.2 / (2 * i + 1) : Nat) else a.1 - (a.2 / (2 * i + 1) : Nat), a.2 / (k * k))) (0, fixOne / k)).1).toNat

/-- π in fixed point, by Machin's formula. -/
def fixPi : Nat := 16 * atanInv 5 - 4 * atanInv 239

/-- The alternating series of sine (`cos` false) or cosine of `r` in fixed point. -/
def trigSeries (cos : Bool) (r : Nat) : Nat :=
  let t0 := if cos then fixOne else r
  let sq := r * r / fixOne
  (((List.range 60).foldl (fun (a : Int × Nat) i =>
    let d := if cos then (2 * i + 1) * (2 * i + 2) else (2 * i + 2) * (2 * i + 3)
    (if i % 2 = 0 then a.1 + (a.2 : Int) else a.1 - (a.2 : Int), a.2 * sq / fixOne / d)) (0, t0)).1).toNat

/-- A number m × 2^e in fixed point, cut off. -/
def toFix (m : Nat) (e : Int) : Nat := if 0 ≤ e + 512 then m * 2 ^ (e + 512).toNat else m / 2 ^ (-(e + 512)).toNat

/-- A fixed-point result that is not exact: one place less is kept, for what the series cut off. -/
def fixReal (neg : Bool) (x : Nat) : Real32 := ⟨neg, x / 2 ^ 64 - 1, -448, false⟩

/-- The sine of (−1)^neg × m × 2^e, or the cosine. -/
def exactTrig (cos neg : Bool) (m : Nat) (e : Int) : Real32 :=
  if m = 0 then (if cos then ⟨false, 1, 0, true⟩ else ⟨neg, 0, 0, true⟩)
  else
    let x := toFix m e
    let h := fixPi / 2
    let q := (x / h + b2n cos) % 4
    let v := trigSeries (q % 2 = 1) (x % h)
    fixReal ((!cos && neg) != decide (2 ≤ q)) v

/-- 2 to the power (−1)^neg × m × 2^e. -/
def exactExp2 (neg : Bool) (m : Nat) (e : Int) : Real32 :=
  if m = 0 then ⟨false, 1, 0, true⟩
  else if 8 ≤ e + Nat.log2 m then (if neg then ⟨false, 1, -300, false⟩ else ⟨false, 1, 300, false⟩)
  else
    let x := toFix m e
    let whole : Int := if neg then -((x + fixOne - 1) / fixOne : Nat) else (x / fixOne : Nat)
    let frac := if neg then (fixOne - x % fixOne) % fixOne else x % fixOne
    if frac = 0 ∧ -512 ≤ e then ⟨false, 1, whole, true⟩
    else
      let r := (List.range 240).foldl (fun (a : Nat × Nat) i =>
        let c := Nat.sqrt (a.1 * fixOne)
        (c, if bit frac (511 - i) then a.2 * c / fixOne else a.2)) (2 * fixOne, fixOne)
      let v := r.2 / 2 ^ 300
      if neg ∧ frac = 0 then ⟨false, 2 ^ 212 - 1, whole - 212, false⟩ else ⟨false, v - b2n (decide (2 ^ 212 < v)), whole - 212, false⟩

/-- The binary logarithm of m × 2^e, m not 0. -/
def exactLog2 (m : Nat) (e : Int) : Real32 :=
  let k := Nat.log2 m
  let w : Int := e + k
  if m = 2 ^ k then ⟨decide (w < 0), w.natAbs, 0, true⟩
  else
    let f := ((List.range 240).foldl (fun (a : Nat × Nat) _ =>
      let y := a.2 * a.2 / fixOne
      if 2 * fixOne ≤ y then (2 * a.1 + 1, y / 2) else (2 * a.1, y)) (0, m * fixOne / 2 ^ k)).1
    let v : Int := w * 2 ^ 240 + f
    if 0 ≤ v then ⟨false, v.toNat, -240, false⟩ else ⟨true, v.natAbs - 1, -240, false⟩

/-- The arctangent of a fixed-point number up to 1. -/
def fixAtan (t : Nat) : Nat :=
  let t8 := (List.range 8).foldl (fun t _ => t * fixOne / (fixOne + Nat.sqrt (fixOne * fixOne + t * t))) t
  let sq := t8 * t8 / fixOne
  256 * ((((List.range 40).foldl (fun (a : Int × Nat) i =>
    (if i % 2 = 0 then a.1 + (a.2 / (2 * i + 1) : Nat) else a.1 - (a.2 / (2 * i + 1) : Nat), a.2 * sq / fixOne)) (0, t8)).1).toNat)

/-- The angle of (x, y), y = (−1)^ny × my × 2^ey and x likewise, not both 0. -/
def exactAtan2 (ny : Bool) (my : Nat) (ey : Int) (nx : Bool) (mx : Nat) (ex : Int) : Real32 :=
  if my = 0 ∧ !nx then ⟨ny, 0, 0, true⟩
  else
    let d := ey - ex
    let y := if 0 ≤ d then my * 2 ^ d.toNat else my
    let x := if 0 ≤ d then mx else mx * 2 ^ (-d).toNat
    let a := if y ≤ x then fixAtan (y * fixOne / x) else fixPi / 2 - fixAtan (x * fixOne / y)
    fixReal ny (if nx then fixPi - a else a)

/-- 1 / (m × 2^e), m not 0. -/
def exactRecip (neg : Bool) (m : Nat) (e : Int) : Real32 := ⟨neg, 2 ^ 300 / m, -300 - e, decide (2 ^ 300 % m = 0)⟩

/-- The square root of m × 2^e. -/
def exactSqrt (m : Nat) (e : Int) : Real32 :=
  let p : Nat := if e % 2 = 0 then 200 else 201
  let n := m * 2 ^ p
  let r := Nat.sqrt n
  ⟨false, r, (e - p) / 2, decide (r * r = n)⟩

/-- One over the square root of m × 2^e, m not 0. -/
def exactRsqrt (m : Nat) (e : Int) : Real32 :=
  let p : Nat := if e % 2 = 0 then 400 else 401
  let n := 2 ^ p / m
  let r := Nat.sqrt n
  ⟨false, r, (-e - p) / 2, decide (r * r * m = 2 ^ p)⟩

end Sys2Proof.Machine
end

