-- ==== Sys2Proof/Config.lean ====
section
/-!
DEFINITION. The free values: what the spec leaves open although the unit goes on. Each is an opaque constant applied to the
operands it depends on or to the model's own counter; nothing can be proved about its value.
-/
namespace Sys2Proof

/-- A value the spec leaves open at one moment, by the model's counter (log entry 6). -/
opaque Config.freeNat : Nat → Nat

/-- The die's own part of a step rate between the points of Table 3.2 (R93: the exact value depends on the die), in tenths of a degree; `step`
names the row or the 5 mV step. -/
opaque Config.rateShare : (unit step : Nat) → (temp : Int) → Nat

/-- The junction temperature of a Scull (0 to 15) or a half's replica stage (16, 17) at one moment, in tenths of a degree. -/
opaque Config.junction : (unit moment : Nat) → Int

/-- Which way a tie rounds where a rule says only "round" (R341, R384): taken modulo 2, 1 upward. -/
opaque Config.tie : (x : Nat) → Nat

/-- The demand of a half's Delta Engine, Learning Engine and Pockets in M handshakes/s (R291 names it; no rule computes it). -/
opaque Config.fabricDemand : (half moment : Nat) → Nat

/-- V_me in mV as a Scull's leakage monitor reading and temperature give it (R287 gives only its range). -/
opaque Config.vme : (scull leakage tempTenths : Nat) → Nat

/-- Which value an approximated function's FP32 result has: among those within 2 units in the last place of the exact one (R238), or, where the spec states no
result, of any. -/
opaque Config.approx : (fn a b : Nat) → Nat

/-- Where the power of a decay factor falls among the values within 2 units in the last place (R375); one of at most five. -/
opaque Config.decayUlp : (factor n : Nat) → Nat

/-- Energy in nJ of an activity (R306: calibrated coefficients of the factory record, whose layout is not given). -/
opaque Config.energy : (kind amount moment : Nat) → Nat

/-- The monitor's random source (R609). -/
opaque Config.random : Nat → Nat

/-- State words of a halted unit (R606 gives their number, R618 calls the Cox's opaque). -/
opaque Config.stateWord : (unit page word moment : Nat) → Nat

/-- The ranges of tile memory (offset, bytes) that Maleus declares live for a task, by the address of its code (R246; no table carries them). -/
opaque Config.liveTile : (code : Nat) → List (Nat × Nat)

/-- What the 32 bytes of a slot of a task's slot table name, for a lane and a base address (R240 names the parts, no table lays them out):
field 0 the ring record's or live-side word's address, 1 the bytes per run, 2 whether it is two-sided, 3 the ring's BASE, 4 its SIZE, 5 and 6 the endpoint
codes of a producer and a consumer other than the task (R260), 8 to 39 the bytes of the slot's entry in the table in memory. -/
opaque Config.slotField : (entry lane base field : Nat) → Nat

/-- A sample that self-vibration rejection has cleaned, for coefficients reset at a time (R661 gives the filter; no command carries the
reference's samples). -/
opaque Config.reject : (lane axis sample resetAt moment : Nat) → Nat

/-- A field of the factory record whose place Table 2.10 does not give: 0 the serial number of the header, 1 GLB_VARIANT, 2 the default PKG_ID,
3 the Cox ROM version, of the bytes that hold it. -/
opaque Config.factoryField : (field bytes : Nat) → Nat

end Sys2Proof
end

