-- ==== Sys2Proof/Machine/RegTable.lean ====
section
/-!
DEFINITION. The register index: one `RegField` per field of Tables 1.9 to 15.x as the register index (R628 to R633) collects
them, and the rows of the blocks. A field has its place in the privileged view, its access type (Table 0.3), its
hardware reset value, the layers that may set it (R11) and the values it accepts (R668).
-/
namespace Sys2Proof.Machine

/-- GLB_DEVICE_ID [31:16] VENDOR (R44). -/
def Fld.GLB_DEVICE_ID_VENDOR : RegField :=
  ⟨0x000000, 0x0, 16, 16, .ro, 0xf1d, false, false, []⟩
/-- GLB_DEVICE_ID [15:0] DEVICE (R44). -/
def Fld.GLB_DEVICE_ID_DEVICE : RegField :=
  ⟨0x000000, 0x0, 0, 16, .ro, 0x480, false, false, []⟩
/-- GLB_STEPPING [15:8] IO_STEP (R44). -/
def Fld.GLB_STEPPING_IO_STEP : RegField :=
  ⟨0x000004, 0x0, 8, 8, .ro, 0x10, false, false, []⟩
/-- GLB_STEPPING [7:0] CORE_STEP (R44). -/
def Fld.GLB_STEPPING_CORE_STEP : RegField :=
  ⟨0x000004, 0x0, 0, 8, .ro, 0x10, false, false, []⟩
/-- GLB_VARIANT [7:7] IGRADE (R44). -/
def Fld.GLB_VARIANT_IGRADE : RegField :=
  ⟨0x000008, 0x0, 7, 1, .ro, 0x0, true, false, []⟩
/-- GLB_VARIANT [6:4] IOD_FIT (R44). -/
def Fld.GLB_VARIANT_IOD_FIT : RegField :=
  ⟨0x000008, 0x0, 4, 3, .ro, 0x0, true, false, []⟩
/-- GLB_VARIANT [3:0] STACK_FIT (R44). -/
def Fld.GLB_VARIANT_STACK_FIT : RegField :=
  ⟨0x000008, 0x0, 0, 4, .ro, 0x0, true, false, []⟩
/-- GLB_PRESENT [6:4] IOD_UP (R44). -/
def Fld.GLB_PRESENT_IOD_UP : RegField :=
  ⟨0x00000C, 0x0, 4, 3, .ro, 0x0, false, false, []⟩
/-- GLB_PRESENT [3:0] STACK_UP (R44). -/
def Fld.GLB_PRESENT_STACK_UP : RegField :=
  ⟨0x00000C, 0x0, 0, 4, .ro, 0x0, false, false, []⟩
/-- GLB_PKG_ID [3:0] PKG_ID (R44). -/
def Fld.GLB_PKG_ID_PKG_ID : RegField :=
  ⟨0x000010, 0x0, 0, 4, .ro, 0x0, true, true, []⟩
/-- BOOT_STATUS [16:16] FLASH_OWN (R88). -/
def Fld.BOOT_STATUS_FLASH_OWN : RegField :=
  ⟨0x010000, 0x0, 16, 1, .ro, 0x0, false, false, []⟩
/-- BOOT_STATUS [15:8] CODE (R88). -/
def Fld.BOOT_STATUS_CODE : RegField :=
  ⟨0x010000, 0x0, 8, 8, .ro, 0x0, false, false, []⟩
/-- BOOT_STATUS [4:4] SLOT (R88). -/
def Fld.BOOT_STATUS_SLOT : RegField :=
  ⟨0x010000, 0x0, 4, 1, .ro, 0x0, false, false, []⟩
/-- BOOT_STATUS [3:0] STATE (R88). -/
def Fld.BOOT_STATUS_STATE : RegField :=
  ⟨0x010000, 0x0, 0, 4, .ro, 0x0, false, false, []⟩
/-- BOOT_SLOT_CODE [15:8] SLOT_B (R88). -/
def Fld.BOOT_SLOT_CODE_SLOT_B : RegField :=
  ⟨0x010004, 0x0, 8, 8, .ro, 0x0, false, false, []⟩
/-- BOOT_SLOT_CODE [7:0] SLOT_A (R88). -/
def Fld.BOOT_SLOT_CODE_SLOT_A : RegField :=
  ⟨0x010004, 0x0, 0, 8, .ro, 0x0, false, false, []⟩
/-- BOOT_COMMIT_A [31:0] VALUE (R88). -/
def Fld.BOOT_COMMIT_A_VALUE : RegField :=
  ⟨0x010008, 0x0, 0, 32, .ro, 0x0, false, false, []⟩
/-- BOOT_COMMIT_B [31:0] VALUE (R88). -/
def Fld.BOOT_COMMIT_B_VALUE : RegField :=
  ⟨0x01000C, 0x0, 0, 32, .ro, 0x0, false, false, []⟩
/-- BOOT_IMAGE_ID [31:0] VALUE (R88). -/
def Fld.BOOT_IMAGE_ID_VALUE : RegField :=
  ⟨0x010010, 0x4, 0, 32, .ro, 0x0, false, false, []⟩
/-- BOOT_OVERRIDE_CNT [31:0] CNT (R88). -/
def Fld.BOOT_OVERRIDE_CNT_CNT : RegField :=
  ⟨0x010020, 0x0, 0, 32, .ro, 0x0, false, false, []⟩
/-- BOOT_CONFLICT_CNT [31:0] CNT (R88). -/
def Fld.BOOT_CONFLICT_CNT_CNT : RegField :=
  ⟨0x010024, 0x0, 0, 32, .ro, 0x0, false, false, []⟩
/-- BOOT_TIME_MS [31:0] VALUE (R88). -/
def Fld.BOOT_TIME_MS_VALUE : RegField :=
  ⟨0x010028, 0x0, 0, 32, .ro, 0x0, false, false, []⟩
/-- BOOT_RES_SEL [15:12] KIND (R88). -/
def Fld.BOOT_RES_SEL_KIND : RegField :=
  ⟨0x01002C, 0x0, 12, 4, .rw, 0x0, false, false, [(1, 6)]⟩
/-- BOOT_RES_SEL [11:8] DIE (R88). -/
def Fld.BOOT_RES_SEL_DIE : RegField :=
  ⟨0x01002C, 0x0, 8, 4, .rw, 0x0, false, false, []⟩
/-- BOOT_RES_SEL [7:0] INDEX (R88). -/
def Fld.BOOT_RES_SEL_INDEX : RegField :=
  ⟨0x01002C, 0x0, 0, 8, .rw, 0x0, false, false, []⟩
/-- BOOT_RES_OWNER [10:8] TYPE (R88). -/
def Fld.BOOT_RES_OWNER_TYPE : RegField :=
  ⟨0x010030, 0x0, 8, 3, .ro, 0x0, false, false, []⟩
/-- BOOT_RES_OWNER [7:0] OWNER (R88). -/
def Fld.BOOT_RES_OWNER_OWNER : RegField :=
  ⟨0x010030, 0x0, 0, 8, .ro, 0x0, false, false, []⟩
/-- FAB_SPEED_W [15:0] RATE (R133). -/
def Fld.FAB_SPEED_W_RATE : RegField :=
  ⟨0x030000, 0x0, 0, 16, .ro, 0x0, false, false, []⟩
/-- FAB_SPEED_E [15:0] RATE (R133). -/
def Fld.FAB_SPEED_E_RATE : RegField :=
  ⟨0x030004, 0x0, 0, 16, .ro, 0x0, false, false, []⟩
/-- FAB_SEAM_BYTES_WE [63:0] CNT (R133). -/
def Fld.FAB_SEAM_BYTES_WE_CNT : RegField :=
  ⟨0x030008, 0x0, 0, 64, .ro, 0x0, false, false, []⟩
/-- FAB_SEAM_BYTES_EW [63:0] CNT (R133). -/
def Fld.FAB_SEAM_BYTES_EW_CNT : RegField :=
  ⟨0x030010, 0x0, 0, 64, .ro, 0x0, false, false, []⟩
/-- FAB_CONTEST_CNT [63:0] CNT (R133). -/
def Fld.FAB_CONTEST_CNT_CNT : RegField :=
  ⟨0x030018, 0x0, 0, 64, .ro, 0x0, false, false, []⟩
/-- FAB_LONG_GRANT_CNT [31:0] CNT (R133). -/
def Fld.FAB_LONG_GRANT_CNT_CNT : RegField :=
  ⟨0x030020, 0x0, 0, 32, .ro, 0x0, false, false, []⟩
/-- FAB_XING_FULL_CNT [31:0] CNT (R133). -/
def Fld.FAB_XING_FULL_CNT_CNT : RegField :=
  ⟨0x030024, 0x0, 0, 32, .ro, 0x0, false, false, []⟩
/-- FAB_HDR_ERR_CNT [31:0] CNT (R133). -/
def Fld.FAB_HDR_ERR_CNT_CNT : RegField :=
  ⟨0x030028, 0x0, 0, 32, .ro, 0x0, false, false, []⟩
/-- FAB_STALL_CNT [31:0] CNT (R133). -/
def Fld.FAB_STALL_CNT_CNT : RegField :=
  ⟨0x03002C, 0x0, 0, 32, .ro, 0x0, false, false, []⟩
/-- FAB_STALL_LAST [31:31] VALID (R133). -/
def Fld.FAB_STALL_LAST_VALID : RegField :=
  ⟨0x030030, 0x0, 31, 1, .w1c, 0x0, false, false, []⟩
/-- FAB_STALL_LAST [18:16] VC (R133). -/
def Fld.FAB_STALL_LAST_VC : RegField :=
  ⟨0x030030, 0x0, 16, 3, .ro, 0x0, false, false, []⟩
/-- FAB_STALL_LAST [15:12] COLUMN (R133). -/
def Fld.FAB_STALL_LAST_COLUMN : RegField :=
  ⟨0x030030, 0x0, 12, 4, .ro, 0x0, false, false, []⟩
/-- FAB_STALL_LAST [11:8] ROW (R133). -/
def Fld.FAB_STALL_LAST_ROW : RegField :=
  ⟨0x030030, 0x0, 8, 4, .ro, 0x0, false, false, []⟩
/-- FAB_STALL_LAST [7:0] PORT (R133). -/
def Fld.FAB_STALL_LAST_PORT : RegField :=
  ⟨0x030030, 0x0, 0, 8, .ro, 0x0, false, false, []⟩
/-- FAB_CTL_LAT_MAX [31:0] VALUE (R133). -/
def Fld.FAB_CTL_LAT_MAX_VALUE : RegField :=
  ⟨0x030034, 0x0, 0, 32, .ro, 0x0, false, false, []⟩
/-- MEM_CE_CNT [31:0] CNT (R175). -/
def Fld.MEM_CE_CNT_CNT : RegField :=
  ⟨0x040000, 0x0, 0, 32, .ro, 0x0, false, false, []⟩
/-- MEM_UE_CNT [31:0] CNT (R175). -/
def Fld.MEM_UE_CNT_CNT : RegField :=
  ⟨0x040004, 0x0, 0, 32, .ro, 0x0, false, false, []⟩
/-- MEM_POISON_CNT [31:0] CNT (R175). -/
def Fld.MEM_POISON_CNT_CNT : RegField :=
  ⟨0x040008, 0x0, 0, 32, .ro, 0x0, false, false, []⟩
/-- MEM_RETRY_CNT [31:0] CNT (R175). -/
def Fld.MEM_RETRY_CNT_CNT : RegField :=
  ⟨0x04000C, 0x0, 0, 32, .ro, 0x0, false, false, []⟩
/-- MEM_WAIT_MAX [2:0] MAX (R175). -/
def Fld.MEM_WAIT_MAX_MAX : RegField :=
  ⟨0x040010, 0x0, 0, 3, .ro, 0x0, false, false, []⟩
/-- MEM_ERR_INFO [31:31] VALID (R175). -/
def Fld.MEM_ERR_INFO_VALID : RegField :=
  ⟨0x040014, 0x0, 31, 1, .w1c, 0x0, false, false, []⟩
/-- MEM_ERR_INFO [15:8] SOURCE (R175). -/
def Fld.MEM_ERR_INFO_SOURCE : RegField :=
  ⟨0x040014, 0x0, 8, 8, .ro, 0x0, false, false, []⟩
/-- MEM_ERR_INFO [7:0] MASK (R175). -/
def Fld.MEM_ERR_INFO_MASK : RegField :=
  ⟨0x040014, 0x0, 0, 8, .ro, 0x0, false, false, []⟩
/-- MEM_ERR_ADDR [47:0] ADDR (R175). -/
def Fld.MEM_ERR_ADDR_ADDR : RegField :=
  ⟨0x040018, 0x0, 0, 48, .ro, 0x0, false, false, []⟩
/-- MEM_SCRUB_CFG [31:24] RETIRE_UE (R175). -/
def Fld.MEM_SCRUB_CFG_RETIRE_UE : RegField :=
  ⟨0x040020, 0x0, 24, 8, .rw, 0x8, true, true, []⟩
/-- MEM_SCRUB_CFG [23:16] HBM_HOURS (R175). -/
def Fld.MEM_SCRUB_CFG_HBM_HOURS : RegField :=
  ⟨0x040020, 0x0, 16, 8, .rw, 0x18, true, true, [(1, 255)]⟩
/-- MEM_SCRUB_CFG [15:0] POCKET_S (R175). -/
def Fld.MEM_SCRUB_CFG_POCKET_S : RegField :=
  ⟨0x040020, 0x0, 0, 16, .rw, 0xa, true, true, [(1, 65535)]⟩
/-- MEM_PAIR_RETIRED [63:0] PAIRS (R175). -/
def Fld.MEM_PAIR_RETIRED_PAIRS : RegField :=
  ⟨0x040028, 0x0, 0, 64, .ro, 0x0, false, false, []⟩
/-- LOCK_PART [31:31] ENABLE (R176). -/
def Fld.LOCK_PART_ENABLE : RegField :=
  ⟨0x050000, 0x4, 31, 1, .rw, 0x0, false, true, []⟩
/-- LOCK_PART [2:0] PART (R176). -/
def Fld.LOCK_PART_PART : RegField :=
  ⟨0x050000, 0x4, 0, 3, .rw, 0x0, false, true, []⟩
/-- LOCK_ORPHAN_CNT [31:0] CNT (R176). -/
def Fld.LOCK_ORPHAN_CNT_CNT : RegField :=
  ⟨0x050080, 0x0, 0, 32, .ro, 0x0, false, false, []⟩
/-- LOCK_DENIED_CNT [31:0] CNT (R176). -/
def Fld.LOCK_DENIED_CNT_CNT : RegField :=
  ⟨0x050084, 0x0, 0, 32, .ro, 0x0, false, false, []⟩
/-- LOCK_BUSY_CNT [31:0] CNT (R176). -/
def Fld.LOCK_BUSY_CNT_CNT : RegField :=
  ⟨0x050088, 0x0, 0, 32, .ro, 0x0, false, false, []⟩
/-- LOCK_TIMEOUT_CNT [31:0] CNT (R176). -/
def Fld.LOCK_TIMEOUT_CNT_CNT : RegField :=
  ⟨0x05008C, 0x0, 0, 32, .ro, 0x0, false, false, []⟩
/-- LOCK_INSPECT_SEL [12:0] LOCK_ID (R176). -/
def Fld.LOCK_INSPECT_SEL_LOCK_ID : RegField :=
  ⟨0x050090, 0x0, 0, 13, .rw, 0x0, false, false, []⟩
/-- LOCK_INSPECT [47:32] OWNER_EPOCH (R177). -/
def Fld.LOCK_INSPECT_OWNER_EPOCH : RegField :=
  ⟨0x050094, 0x0, 32, 16, .ro, 0x0, false, false, []⟩
/-- LOCK_INSPECT [26:24] OWNER_PART (R177). -/
def Fld.LOCK_INSPECT_OWNER_PART : RegField :=
  ⟨0x050094, 0x0, 24, 3, .ro, 0x0, false, false, []⟩
/-- LOCK_INSPECT [23:16] OWNER_UNIT (R177). -/
def Fld.LOCK_INSPECT_OWNER_UNIT : RegField :=
  ⟨0x050094, 0x0, 16, 8, .ro, 0x0, false, false, []⟩
/-- LOCK_INSPECT [15:8] OWNER_CTX (R177). -/
def Fld.LOCK_INSPECT_OWNER_CTX : RegField :=
  ⟨0x050094, 0x0, 8, 8, .ro, 0x0, false, false, []⟩
/-- LOCK_INSPECT [6:2] WAITERS (R177). -/
def Fld.LOCK_INSPECT_WAITERS : RegField :=
  ⟨0x050094, 0x0, 2, 5, .ro, 0x0, false, false, []⟩
/-- LOCK_INSPECT [1:0] STATE (R177). -/
def Fld.LOCK_INSPECT_STATE : RegField :=
  ⟨0x050094, 0x0, 0, 2, .ro, 0x0, false, false, []⟩
/-- XLU_MISS_CNT [31:0] CNT (R226). -/
def Fld.XLU_MISS_CNT_CNT : RegField :=
  ⟨0x060000, 0x0, 0, 32, .ro, 0x0, false, false, []⟩
/-- XLU_MISS_INFLIGHT_MAX [7:0] MAX (R226). -/
def Fld.XLU_MISS_INFLIGHT_MAX_MAX : RegField :=
  ⟨0x060004, 0x0, 0, 8, .ro, 0x0, false, false, []⟩
/-- XLU_MISS_LAT_MAX [31:0] NS (R226). -/
def Fld.XLU_MISS_LAT_MAX_NS : RegField :=
  ⟨0x060008, 0x0, 0, 32, .ro, 0x0, false, false, []⟩
/-- XLU_MERGE_CNT [31:0] CNT (R226). -/
def Fld.XLU_MERGE_CNT_CNT : RegField :=
  ⟨0x06000C, 0x0, 0, 32, .ro, 0x0, false, false, []⟩
/-- XLU_MERGE_REFUSED_CNT [31:0] CNT (R226). -/
def Fld.XLU_MERGE_REFUSED_CNT_CNT : RegField :=
  ⟨0x060010, 0x0, 0, 32, .ro, 0x0, false, false, []⟩
/-- XLU_REFAULT_CNT [31:0] CNT (R226). -/
def Fld.XLU_REFAULT_CNT_CNT : RegField :=
  ⟨0x060014, 0x0, 0, 32, .ro, 0x0, false, false, []⟩
/-- XLU_LINE_DENIED_CNT [31:0] CNT (R226). -/
def Fld.XLU_LINE_DENIED_CNT_CNT : RegField :=
  ⟨0x060018, 0x0, 0, 32, .ro, 0x0, false, false, []⟩
/-- XLU_WALK_ERR_CNT [31:0] CNT (R226). -/
def Fld.XLU_WALK_ERR_CNT_CNT : RegField :=
  ⟨0x06001C, 0x0, 0, 32, .ro, 0x0, false, false, []⟩
/-- XLU_LINE_SEL [23:16] KIND (R226). -/
def Fld.XLU_LINE_SEL_KIND : RegField :=
  ⟨0x060020, 0x0, 16, 8, .rw, 0x0, false, false, [(0, 3)]⟩
/-- XLU_LINE_SEL [15:8] TARGET (R226). -/
def Fld.XLU_LINE_SEL_TARGET : RegField :=
  ⟨0x060020, 0x0, 8, 8, .rw, 0x0, false, false, []⟩
/-- XLU_LINE_SEL [7:0] GRANULE (R226). -/
def Fld.XLU_LINE_SEL_GRANULE : RegField :=
  ⟨0x060020, 0x0, 0, 8, .rw, 0x0, false, false, []⟩
/-- XLU_LINE_READ [15:8] WRITE (R226). -/
def Fld.XLU_LINE_READ_WRITE : RegField :=
  ⟨0x060024, 0x0, 8, 8, .ro, 0x0, false, false, []⟩
/-- XLU_LINE_READ [7:0] READ (R226). -/
def Fld.XLU_LINE_READ_READ : RegField :=
  ⟨0x060024, 0x0, 0, 8, .ro, 0x0, false, false, []⟩
/-- XLU_FQ_BASE [63:6] BASE (R226). -/
def Fld.XLU_FQ_BASE_BASE : RegField :=
  ⟨0x060100, 0x80, 6, 58, .rw, 0x0, false, false, []⟩
/-- XLU_FQ_HEAD [15:0] HEAD (R226). -/
def Fld.XLU_FQ_HEAD_HEAD : RegField :=
  ⟨0x060108, 0x80, 0, 16, .rw, 0x0, false, false, []⟩
/-- XLU_FQ_TAIL [15:0] TAIL (R226). -/
def Fld.XLU_FQ_TAIL_TAIL : RegField :=
  ⟨0x06010C, 0x80, 0, 16, .ro, 0x0, false, false, []⟩
/-- XLU_FQ_STATUS [31:16] HELD (R226). -/
def Fld.XLU_FQ_STATUS_HELD : RegField :=
  ⟨0x060110, 0x80, 16, 16, .ro, 0x0, false, false, []⟩
/-- XLU_FQ_STATUS [15:8] LAST_RESUME (R226). -/
def Fld.XLU_FQ_STATUS_LAST_RESUME : RegField :=
  ⟨0x060110, 0x80, 8, 8, .ro, 0x0, false, false, []⟩
/-- XLU_FQ_STATUS [1:1] PENDING (R226). -/
def Fld.XLU_FQ_STATUS_PENDING : RegField :=
  ⟨0x060110, 0x80, 1, 1, .ro, 0x0, false, false, []⟩
/-- XLU_FQ_STATUS [0:0] FAULTQ_FULL (R226). -/
def Fld.XLU_FQ_STATUS_FAULTQ_FULL : RegField :=
  ⟨0x060110, 0x80, 0, 1, .w1c, 0x0, false, false, []⟩
/-- XLU_FQ_OVF [31:0] CNT (R226). -/
def Fld.XLU_FQ_OVF_CNT : RegField :=
  ⟨0x060114, 0x80, 0, 32, .ro, 0x0, false, false, []⟩
/-- XLU_FQ_RESUME [16:16] ACTION (R226). -/
def Fld.XLU_FQ_RESUME_ACTION : RegField :=
  ⟨0x060118, 0x80, 16, 1, .wo, 0x0, false, false, []⟩
/-- XLU_FQ_RESUME [15:0] FAULT_ID (R226). -/
def Fld.XLU_FQ_RESUME_FAULT_ID : RegField :=
  ⟨0x060118, 0x80, 0, 16, .wo, 0x0, false, false, []⟩
/-- XLU_FQ_HOLD_MS [19:0] MS (R226). -/
def Fld.XLU_FQ_HOLD_MS_MS : RegField :=
  ⟨0x06011C, 0x80, 0, 20, .rw, 0x1f4, false, true, [(1, 600000)]⟩
/-- XLU_INV_ADDR [47:12] ADDR (R226). -/
def Fld.XLU_INV_ADDR_ADDR : RegField :=
  ⟨0x060120, 0x80, 12, 36, .rw, 0x0, false, false, []⟩
/-- XLU_INV_LEN [63:0] LEN (R226). -/
def Fld.XLU_INV_LEN_LEN : RegField :=
  ⟨0x060128, 0x80, 0, 64, .rw, 0x0, false, false, []⟩
/-- XLU_INV_CMD [15:8] CONTEXT (R226). -/
def Fld.XLU_INV_CMD_CONTEXT : RegField :=
  ⟨0x060130, 0x80, 8, 8, .wo, 0x0, false, false, []⟩
/-- XLU_INV_CMD [1:0] KIND (R226). -/
def Fld.XLU_INV_CMD_KIND : RegField :=
  ⟨0x060130, 0x80, 0, 2, .wo, 0x0, false, false, []⟩
/-- XLU_INV_STATUS [27:24] PENDING (R226). -/
def Fld.XLU_INV_STATUS_PENDING : RegField :=
  ⟨0x060134, 0x80, 24, 4, .ro, 0x0, false, false, []⟩
/-- XLU_INV_STATUS [23:16] LAST_STATUS (R226). -/
def Fld.XLU_INV_STATUS_LAST_STATUS : RegField :=
  ⟨0x060134, 0x80, 16, 8, .ro, 0x0, false, false, []⟩
/-- XLU_INV_STATUS [15:0] DONE_SEQ (R226). -/
def Fld.XLU_INV_STATUS_DONE_SEQ : RegField :=
  ⟨0x060134, 0x80, 0, 16, .ro, 0x0, false, false, []⟩
/-- XLU_S2_CFG [31:31] ENABLE (R226). -/
def Fld.XLU_S2_CFG_ENABLE : RegField :=
  ⟨0x060138, 0x80, 31, 1, .ro, 0x0, false, true, []⟩
/-- XLU_S2_CFG [24:16] COUNT (R226). -/
def Fld.XLU_S2_CFG_COUNT : RegField :=
  ⟨0x060138, 0x80, 16, 9, .rw, 0x0, false, false, [(1, 256)]⟩
/-- XLU_S2_CFG [1:0] FORMAT (R226). -/
def Fld.XLU_S2_CFG_FORMAT : RegField :=
  ⟨0x060138, 0x80, 0, 2, .rw, 0x2, false, false, [(2, 3)]⟩
/-- XLU_S2_BASE [63:0] BASE (R226). -/
def Fld.XLU_S2_BASE_BASE : RegField :=
  ⟨0x060140, 0x80, 0, 64, .rw, 0x0, false, false, []⟩
/-- XLU_CTX_CFG [30:28] PART (R226). -/
def Fld.XLU_CTX_CFG_PART : RegField :=
  ⟨0x061000, 0x10, 28, 3, .ro, 0x0, false, false, []⟩
/-- XLU_CTX_CFG [24:16] COUNT (R226). -/
def Fld.XLU_CTX_CFG_COUNT : RegField :=
  ⟨0x061000, 0x10, 16, 9, .rw, 0x0, false, false, [(1, 256)]⟩
/-- XLU_CTX_CFG [1:0] FORMAT (R226). -/
def Fld.XLU_CTX_CFG_FORMAT : RegField :=
  ⟨0x061000, 0x10, 0, 2, .rw, 0x0, false, false, []⟩
/-- XLU_CTX_S1_BASE [63:0] BASE (R226). -/
def Fld.XLU_CTX_S1_BASE_BASE : RegField :=
  ⟨0x061004, 0x10, 0, 64, .rw, 0x0, false, false, []⟩
/-- XLU_CTX_STATE [31:31] RELEASE (R226). -/
def Fld.XLU_CTX_STATE_RELEASE : RegField :=
  ⟨0x06100C, 0x10, 31, 1, .wo, 0x0, false, false, []⟩
/-- XLU_CTX_STATE [15:8] FAULTS (R226). -/
def Fld.XLU_CTX_STATE_FAULTS : RegField :=
  ⟨0x06100C, 0x10, 8, 8, .ro, 0x0, false, false, []⟩
/-- XLU_CTX_STATE [2:0] STATE (R226). -/
def Fld.XLU_CTX_STATE_STATE : RegField :=
  ⟨0x06100C, 0x10, 0, 3, .ro, 0x0, false, false, []⟩
/-- SCL_STATUS [31:16] TASK_ID (R272). -/
def Fld.SCL_STATUS_TASK_ID : RegField :=
  ⟨0x080000, 0x1000, 16, 16, .ro, 0x0, false, false, []⟩
/-- SCL_STATUS [8:4] READY (R272). -/
def Fld.SCL_STATUS_READY : RegField :=
  ⟨0x080000, 0x1000, 4, 5, .ro, 0x0, false, false, []⟩
/-- SCL_STATUS [1:0] STATE (R272). -/
def Fld.SCL_STATUS_STATE : RegField :=
  ⟨0x080000, 0x1000, 0, 2, .ro, 0x0, false, false, []⟩
/-- SCL_FPX [4:4] NX (R272). -/
def Fld.SCL_FPX_NX : RegField :=
  ⟨0x080004, 0x1000, 4, 1, .w1c, 0x0, false, false, []⟩
/-- SCL_FPX [3:3] UF (R272). -/
def Fld.SCL_FPX_UF : RegField :=
  ⟨0x080004, 0x1000, 3, 1, .w1c, 0x0, false, false, []⟩
/-- SCL_FPX [2:2] OF (R272). -/
def Fld.SCL_FPX_OF : RegField :=
  ⟨0x080004, 0x1000, 2, 1, .w1c, 0x0, false, false, []⟩
/-- SCL_FPX [1:1] NV (R272). -/
def Fld.SCL_FPX_NV : RegField :=
  ⟨0x080004, 0x1000, 1, 1, .w1c, 0x0, false, false, []⟩
/-- SCL_FPX [0:0] SAT (R272). -/
def Fld.SCL_FPX_SAT : RegField :=
  ⟨0x080004, 0x1000, 0, 1, .w1c, 0x0, false, false, []⟩
/-- SCL_STEPS [63:0] CNT (R272). -/
def Fld.SCL_STEPS_CNT : RegField :=
  ⟨0x080008, 0x1000, 0, 64, .ro, 0x0, false, false, []⟩
/-- SCL_RESTART_CNT [31:0] CNT (R272). -/
def Fld.SCL_RESTART_CNT_CNT : RegField :=
  ⟨0x080010, 0x1000, 0, 32, .ro, 0x0, false, false, []⟩
/-- SCL_TASK_FAIL_CNT [31:0] CNT (R272). -/
def Fld.SCL_TASK_FAIL_CNT_CNT : RegField :=
  ⟨0x080014, 0x1000, 0, 32, .ro, 0x0, false, false, []⟩
/-- SCL_LATE_CNT [31:0] CNT (R272). -/
def Fld.SCL_LATE_CNT_CNT : RegField :=
  ⟨0x080018, 0x1000, 0, 32, .ro, 0x0, false, false, []⟩
/-- SCL_READY_FULL_CNT [31:0] CNT (R272). -/
def Fld.SCL_READY_FULL_CNT_CNT : RegField :=
  ⟨0x08001C, 0x1000, 0, 32, .ro, 0x0, false, false, []⟩
/-- SCL_WDOG_CNT [31:0] CNT (R272). -/
def Fld.SCL_WDOG_CNT_CNT : RegField :=
  ⟨0x080020, 0x1000, 0, 32, .ro, 0x0, false, false, []⟩
/-- SCL_RESTART_MAX [3:0] MAX (R272). -/
def Fld.SCL_RESTART_MAX_MAX : RegField :=
  ⟨0x080024, 0x1000, 0, 4, .rw, 0x3, true, true, [(0, 15)]⟩
/-- SCL_SWITCH_CNT [31:0] CNT (R272). -/
def Fld.SCL_SWITCH_CNT_CNT : RegField :=
  ⟨0x080028, 0x1000, 0, 32, .ro, 0x0, false, false, []⟩
/-- SLD_DESC [63:6] DESC (R273). -/
def Fld.SLD_DESC_DESC : RegField :=
  ⟨0x0A0000, 0x80, 6, 58, .rw, 0x0, false, false, []⟩
/-- SLD_CTRL [15:8] CTX (R273). -/
def Fld.SLD_CTRL_CTX : RegField :=
  ⟨0x0A0008, 0x80, 8, 8, .rw, 0x0, false, false, []⟩
/-- SLD_CTRL [1:1] ABORT (R273). -/
def Fld.SLD_CTRL_ABORT : RegField :=
  ⟨0x0A0008, 0x80, 1, 1, .wo, 0x0, false, false, []⟩
/-- SLD_CTRL [0:0] START (R273). -/
def Fld.SLD_CTRL_START : RegField :=
  ⟨0x0A0008, 0x80, 0, 1, .wo, 0x0, false, false, []⟩
/-- SLD_STATE [15:8] STATUS (R273). -/
def Fld.SLD_STATE_STATUS : RegField :=
  ⟨0x0A000C, 0x80, 8, 8, .ro, 0x0, false, false, []⟩
/-- SLD_STATE [2:0] STATE (R273). -/
def Fld.SLD_STATE_STATE : RegField :=
  ⟨0x0A000C, 0x80, 0, 3, .ro, 0x0, false, false, []⟩
/-- SLD_BYTES [63:0] BYTES (R273). -/
def Fld.SLD_BYTES_BYTES : RegField :=
  ⟨0x0A0010, 0x80, 0, 64, .ro, 0x0, false, false, []⟩
/-- SLD_BURST_CNT [31:0] CNT (R273). -/
def Fld.SLD_BURST_CNT_CNT : RegField :=
  ⟨0x0A0018, 0x80, 0, 32, .ro, 0x0, false, false, []⟩
/-- SLD_FAULT_CNT [31:0] CNT (R273). -/
def Fld.SLD_FAULT_CNT_CNT : RegField :=
  ⟨0x0A001C, 0x80, 0, 32, .ro, 0x0, false, false, []⟩
/-- CATCH_GOV_CFG [20:16] WINDOW_LOG2 (R316). -/
def Fld.CATCH_GOV_CFG_WINDOW_LOG2 : RegField :=
  ⟨0x0C0000, 0x0, 16, 5, .rw, 0x14, true, true, [(16, 24)]⟩
/-- CATCH_GOV_CFG [9:0] PLAN_PERMILLE (R316). -/
def Fld.CATCH_GOV_CFG_PLAN_PERMILLE : RegField :=
  ⟨0x0C0000, 0x0, 0, 10, .rw, 0x384, true, true, [(500, 1000)]⟩
/-- CATCH_DEV_ENERGY [63:0] NJ (R316). -/
def Fld.CATCH_DEV_ENERGY_NJ : RegField :=
  ⟨0x0C0008, 0x0, 0, 64, .ro, 0x0, false, false, []⟩
/-- CATCH_CTRL [31:31] ESC_LOCK (R316). -/
def Fld.CATCH_CTRL_ESC_LOCK : RegField :=
  ⟨0x0C0100, 0x20, 31, 1, .ro, 0x0, false, false, []⟩
/-- CATCH_CTRL [2:0] AGGR_MAX (R316). -/
def Fld.CATCH_CTRL_AGGR_MAX : RegField :=
  ⟨0x0C0100, 0x20, 0, 3, .rw, 0x4, true, true, []⟩
/-- CATCH_STATE [31:20] VSO_MV (R316). -/
def Fld.CATCH_STATE_VSO_MV : RegField :=
  ⟨0x0C0104, 0x20, 20, 12, .ro, 0x0, false, false, []⟩
/-- CATCH_STATE [19:8] DATA_MV (R316). -/
def Fld.CATCH_STATE_DATA_MV : RegField :=
  ⟨0x0C0104, 0x20, 8, 12, .ro, 0x0, false, false, []⟩
/-- CATCH_STATE [2:0] A (R316). -/
def Fld.CATCH_STATE_A : RegField :=
  ⟨0x0C0104, 0x20, 0, 3, .ro, 0x0, false, false, []⟩
/-- CATCH_VME [11:0] VME_MV (R316). -/
def Fld.CATCH_VME_VME_MV : RegField :=
  ⟨0x0C0108, 0x20, 0, 12, .ro, 0x0, false, false, []⟩
/-- CATCH_ERR_CNT [31:0] CNT (R316). -/
def Fld.CATCH_ERR_CNT_CNT : RegField :=
  ⟨0x0C010C, 0x20, 0, 32, .ro, 0x0, false, false, []⟩
/-- CATCH_ESC_CNT [31:0] CNT (R316). -/
def Fld.CATCH_ESC_CNT_CNT : RegField :=
  ⟨0x0C0110, 0x20, 0, 32, .ro, 0x0, false, false, []⟩
/-- CATCH_ENERGY [63:0] NJ (R316). -/
def Fld.CATCH_ENERGY_NJ : RegField :=
  ⟨0x0C0118, 0x20, 0, 64, .ro, 0x0, false, false, []⟩
/-- CATCH_DE_PIX [63:0] CNT (R316). -/
def Fld.CATCH_DE_PIX_CNT : RegField :=
  ⟨0x0C0400, 0x10, 0, 64, .ro, 0x0, false, false, []⟩
/-- CATCH_REUSE_CFG [15:8] AGE_MAX (R316). -/
def Fld.CATCH_REUSE_CFG_AGE_MAX : RegField :=
  ⟨0x0C1000, 0x40, 8, 8, .rw, 0x20, true, true, [(1, 255)]⟩
/-- CATCH_REUSE_CFG [0:0] MODE (R316). -/
def Fld.CATCH_REUSE_CFG_MODE : RegField :=
  ⟨0x0C1000, 0x40, 0, 1, .rw, 0x0, true, true, []⟩
/-- CATCH_BAND [31:16] T_MAX (R316). -/
def Fld.CATCH_BAND_T_MAX : RegField :=
  ⟨0x0C1004, 0x40, 16, 16, .rw, 0x0, true, true, []⟩
/-- CATCH_BAND [15:0] T_MIN (R316). -/
def Fld.CATCH_BAND_T_MIN : RegField :=
  ⟨0x0C1004, 0x40, 0, 16, .rw, 0x0, true, true, []⟩
/-- CATCH_FRAME [31:16] CHANGED (R316). -/
def Fld.CATCH_FRAME_CHANGED : RegField :=
  ⟨0x0C1008, 0x40, 16, 16, .ro, 0x0, false, false, []⟩
/-- CATCH_FRAME [15:12] K (R316). -/
def Fld.CATCH_FRAME_K : RegField :=
  ⟨0x0C1008, 0x40, 12, 4, .ro, 0x0, false, false, []⟩
/-- CATCH_FRAME [0:0] ALL (R316). -/
def Fld.CATCH_FRAME_ALL : RegField :=
  ⟨0x0C1008, 0x40, 0, 1, .ro, 0x0, false, false, []⟩
/-- CATCH_THRESH [15:0] T (R316). -/
def Fld.CATCH_THRESH_T : RegField :=
  ⟨0x0C100C, 0x40, 0, 16, .ro, 0x0, false, false, []⟩
/-- CATCH_FRAME_ENERGY [31:0] NJ (R316). -/
def Fld.CATCH_FRAME_ENERGY_NJ : RegField :=
  ⟨0x0C1010, 0x40, 0, 32, .ro, 0x0, false, false, []⟩
/-- CATCH_LANE_ENERGY [63:0] NJ (R316). -/
def Fld.CATCH_LANE_ENERGY_NJ : RegField :=
  ⟨0x0C1018, 0x40, 0, 64, .ro, 0x0, false, false, []⟩
/-- CATCH_OVERRUN_CNT [31:0] CNT (R316). -/
def Fld.CATCH_OVERRUN_CNT_CNT : RegField :=
  ⟨0x0C1020, 0x40, 0, 32, .ro, 0x0, false, false, []⟩
/-- PWR_STATE [31:0] ON (R317). -/
def Fld.PWR_STATE_ON : RegField :=
  ⟨0x020000, 0x4, 0, 32, .ro, 0x0, false, false, []⟩
/-- PWR_REQ [10:8] ACTION (R317). -/
def Fld.PWR_REQ_ACTION : RegField :=
  ⟨0x020010, 0x0, 8, 3, .wo, 0x0, false, false, []⟩
/-- PWR_REQ [7:0] DOMAIN (R317). -/
def Fld.PWR_REQ_DOMAIN : RegField :=
  ⟨0x020010, 0x0, 0, 8, .wo, 0x0, false, false, []⟩
/-- PWR_REQ_STATUS [16:16] PENDING (R317). -/
def Fld.PWR_REQ_STATUS_PENDING : RegField :=
  ⟨0x020014, 0x0, 16, 1, .ro, 0x0, false, false, []⟩
/-- PWR_REQ_STATUS [15:8] DOMAIN (R317). -/
def Fld.PWR_REQ_STATUS_DOMAIN : RegField :=
  ⟨0x020014, 0x0, 8, 8, .ro, 0x0, false, false, []⟩
/-- PWR_REQ_STATUS [7:0] STATUS (R317). -/
def Fld.PWR_REQ_STATUS_STATUS : RegField :=
  ⟨0x020014, 0x0, 0, 8, .ro, 0x0, false, false, []⟩
/-- PWR_PIN [31:0] PINNED (R317). -/
def Fld.PWR_PIN_PINNED : RegField :=
  ⟨0x020020, 0x4, 0, 32, .ro, 0x0, false, false, []⟩
/-- PWR_WAKE_CNT [31:0] CNT (R317). -/
def Fld.PWR_WAKE_CNT_CNT : RegField :=
  ⟨0x020030, 0x0, 0, 32, .ro, 0x0, false, false, []⟩
/-- LANE_STATUS [31:24] REFUSE_CHECK (R358). -/
def Fld.LANE_STATUS_REFUSE_CHECK : RegField :=
  ⟨0x100000, 0x400, 24, 8, .ro, 0x0, false, false, []⟩
/-- LANE_STATUS [23:16] TFLAGS (R358). -/
def Fld.LANE_STATUS_TFLAGS : RegField :=
  ⟨0x100000, 0x400, 16, 8, .ro, 0x0, false, false, []⟩
/-- LANE_STATUS [9:8] SHED (R358). -/
def Fld.LANE_STATUS_SHED : RegField :=
  ⟨0x100000, 0x400, 8, 2, .ro, 0x0, false, false, []⟩
/-- LANE_STATUS [2:0] STATE (R358). -/
def Fld.LANE_STATUS_STATE : RegField :=
  ⟨0x100000, 0x400, 0, 3, .ro, 0x0, false, false, []⟩
/-- LANE_CFG [23:18] SITE (R358). -/
def Fld.LANE_CFG_SITE : RegField :=
  ⟨0x100004, 0x400, 18, 6, .ro, 0x0, false, false, []⟩
/-- LANE_CFG [17:15] PORT (R358). -/
def Fld.LANE_CFG_PORT : RegField :=
  ⟨0x100004, 0x400, 15, 3, .ro, 0x0, false, false, []⟩
/-- LANE_CFG [14:13] DIE (R358). -/
def Fld.LANE_CFG_DIE : RegField :=
  ⟨0x100004, 0x400, 13, 2, .ro, 0x0, false, false, []⟩
/-- LANE_CFG [12:12] HOME (R358). -/
def Fld.LANE_CFG_HOME : RegField :=
  ⟨0x100004, 0x400, 12, 1, .ro, 0x0, false, false, []⟩
/-- LANE_CFG [11:4] PRIORITY (R358). -/
def Fld.LANE_CFG_PRIORITY : RegField :=
  ⟨0x100004, 0x400, 4, 8, .ro, 0x0, false, false, []⟩
/-- LANE_CFG [3:2] CLASS (R358). -/
def Fld.LANE_CFG_CLASS : RegField :=
  ⟨0x100004, 0x400, 2, 2, .ro, 0x0, false, false, []⟩
/-- LANE_CFG [1:0] KIND (R358). -/
def Fld.LANE_CFG_KIND : RegField :=
  ⟨0x100004, 0x400, 0, 2, .ro, 0x0, false, false, []⟩
/-- LANE_REPORT_MASK [5:0] MASK (R358). -/
def Fld.LANE_REPORT_MASK_MASK : RegField :=
  ⟨0x100008, 0x400, 0, 6, .rw, 0x0, false, true, []⟩
/-- LANE_LEVEL_NOV [31:0] LEVEL (R358). -/
def Fld.LANE_LEVEL_NOV_LEVEL : RegField :=
  ⟨0x10000C, 0x400, 0, 32, .rw, 0x0, true, true, []⟩
/-- LANE_LEVEL_ALM [31:0] LEVEL (R358). -/
def Fld.LANE_LEVEL_ALM_LEVEL : RegField :=
  ⟨0x100010, 0x400, 0, 32, .rw, 0x0, true, true, []⟩
/-- LANE_LEVEL_CLR [31:0] LEVEL (R358). -/
def Fld.LANE_LEVEL_CLR_LEVEL : RegField :=
  ⟨0x100014, 0x400, 0, 32, .rw, 0x0, true, true, []⟩
/-- LANE_TIMING [31:16] TEACH_S (R358). -/
def Fld.LANE_TIMING_TEACH_S : RegField :=
  ⟨0x100018, 0x400, 16, 16, .rw, 0x0, true, true, [(0, 0), (60, 65535)]⟩
/-- LANE_TIMING [15:0] HOLD_MS (R358). -/
def Fld.LANE_TIMING_HOLD_MS : RegField :=
  ⟨0x100018, 0x400, 0, 16, .rw, 0x0, true, true, []⟩
/-- LANE_RX_CNT [31:0] CNT (R358). -/
def Fld.LANE_RX_CNT_CNT : RegField :=
  ⟨0x10001C, 0x400, 0, 32, .ro, 0x0, false, false, []⟩
/-- LANE_SHED_CNT [31:0] CNT (R358). -/
def Fld.LANE_SHED_CNT_CNT : RegField :=
  ⟨0x100020, 0x400, 0, 32, .ro, 0x0, false, false, []⟩
/-- LANE_LOST_CNT [31:0] CNT (R358). -/
def Fld.LANE_LOST_CNT_CNT : RegField :=
  ⟨0x100024, 0x400, 0, 32, .ro, 0x0, false, false, []⟩
/-- LANE_GAP_CNT [31:0] CNT (R358). -/
def Fld.LANE_GAP_CNT_CNT : RegField :=
  ⟨0x100028, 0x400, 0, 32, .ro, 0x0, false, false, []⟩
/-- LANE_EXCESS_CNT [31:0] CNT (R358). -/
def Fld.LANE_EXCESS_CNT_CNT : RegField :=
  ⟨0x10002C, 0x400, 0, 32, .ro, 0x0, false, false, []⟩
/-- LANE_PKT_LOST_CNT [31:0] CNT (R358). -/
def Fld.LANE_PKT_LOST_CNT_CNT : RegField :=
  ⟨0x100030, 0x400, 0, 32, .ro, 0x0, false, false, []⟩
/-- LANE_LAST_TIME [63:0] TIME (R358). -/
def Fld.LANE_LAST_TIME_TIME : RegField :=
  ⟨0x100038, 0x400, 0, 64, .ro, 0x0, false, false, []⟩
/-- LANE_SRC_INFO [31:0] INFO (R358). -/
def Fld.LANE_SRC_INFO_INFO : RegField :=
  ⟨0x100040, 0x400, 0, 32, .ro, 0x0, false, false, []⟩
/-- LANE_NODE_SERIAL [63:0] SERIAL (R358). -/
def Fld.LANE_NODE_SERIAL_SERIAL : RegField :=
  ⟨0x100048, 0x400, 0, 64, .ro, 0x0, false, false, []⟩
/-- LANE_CHARGE [31:0] MBPS (R358). -/
def Fld.LANE_CHARGE_MBPS : RegField :=
  ⟨0x100050, 0x400, 0, 32, .ro, 0x0, false, false, []⟩
/-- LANE_STACK_D [31:0] MBPS (R358). -/
def Fld.LANE_STACK_D_MBPS : RegField :=
  ⟨0x110000, 0x10, 0, 32, .ro, 0x0, false, false, []⟩
/-- LANE_STACK_DEMAND [31:0] MBPS (R358). -/
def Fld.LANE_STACK_DEMAND_MBPS : RegField :=
  ⟨0x110004, 0x10, 0, 32, .ro, 0x0, false, false, []⟩
/-- LANE_STACK_STEPS [16:16] HALVED (R358). -/
def Fld.LANE_STACK_STEPS_HALVED : RegField :=
  ⟨0x110008, 0x10, 16, 1, .ro, 0x0, false, false, []⟩
/-- LANE_STACK_STEPS [15:8] TARGET (R358). -/
def Fld.LANE_STACK_STEPS_TARGET : RegField :=
  ⟨0x110008, 0x10, 8, 8, .ro, 0x0, false, false, []⟩
/-- LANE_STACK_STEPS [7:0] STEPS (R358). -/
def Fld.LANE_STACK_STEPS_STEPS : RegField :=
  ⟨0x110008, 0x10, 0, 8, .ro, 0x0, false, false, []⟩
/-- NET_PTP_STATUS [23:16] CLOCK_CLASS (R358). -/
def Fld.NET_PTP_STATUS_CLOCK_CLASS : RegField :=
  ⟨0x190000, 0x0, 16, 8, .ro, 0x0, false, false, []⟩
/-- NET_PTP_STATUS [15:8] DOMAIN (R358). -/
def Fld.NET_PTP_STATUS_DOMAIN : RegField :=
  ⟨0x190000, 0x0, 8, 8, .ro, 0x0, false, false, []⟩
/-- NET_PTP_STATUS [2:2] SYNC (R358). -/
def Fld.NET_PTP_STATUS_SYNC : RegField :=
  ⟨0x190000, 0x0, 2, 1, .ro, 0x0, false, false, []⟩
/-- NET_PTP_STATUS [1:0] STATE (R358). -/
def Fld.NET_PTP_STATUS_STATE : RegField :=
  ⟨0x190000, 0x0, 0, 2, .ro, 0x0, false, false, []⟩
/-- NET_PTP_OFFSET [31:0] NS (R358). -/
def Fld.NET_PTP_OFFSET_NS : RegField :=
  ⟨0x190004, 0x0, 0, 32, .ro, 0x0, false, false, []⟩
/-- NET_PTP_HOLD_CNT [31:0] CNT (R358). -/
def Fld.NET_PTP_HOLD_CNT_CNT : RegField :=
  ⟨0x190008, 0x0, 0, 32, .ro, 0x0, false, false, []⟩
/-- NET_UTC_OFFSET [15:0] S (R358). -/
def Fld.NET_UTC_OFFSET_S : RegField :=
  ⟨0x19000C, 0x0, 0, 16, .rw, 0x25, true, true, []⟩
/-- NET_T1S_STATUS [31:0] SEGS (R358). -/
def Fld.NET_T1S_STATUS_SEGS : RegField :=
  ⟨0x190010, 0x4, 0, 32, .ro, 0x0, false, false, []⟩
/-- NET_T1S_BAD_CNT [31:0] CNT (R358). -/
def Fld.NET_T1S_BAD_CNT_CNT : RegField :=
  ⟨0x19001C, 0x0, 0, 32, .ro, 0x0, false, false, []⟩
/-- NET_DROP_CNT [31:0] CNT (R358). -/
def Fld.NET_DROP_CNT_CNT : RegField :=
  ⟨0x190020, 0x0, 0, 32, .ro, 0x0, false, false, []⟩
/-- LRN_STATUS [14:8] POPS (R407). -/
def Fld.LRN_STATUS_POPS : RegField :=
  ⟨0x120000, 0x80, 8, 7, .ro, 0x0, false, false, []⟩
/-- LRN_STATUS [1:0] STATE (R407). -/
def Fld.LRN_STATUS_STATE : RegField :=
  ⟨0x120000, 0x80, 0, 2, .ro, 0x0, false, false, []⟩
/-- LRN_EVENTS [63:0] CNT (R407). -/
def Fld.LRN_EVENTS_CNT : RegField :=
  ⟨0x120008, 0x80, 0, 64, .ro, 0x0, false, false, []⟩
/-- LRN_FAST_USED [21:0] CNT (R407). -/
def Fld.LRN_FAST_USED_CNT : RegField :=
  ⟨0x120010, 0x80, 0, 22, .ro, 0x0, false, false, []⟩
/-- LRN_SPILL_USED [27:0] CNT (R407). -/
def Fld.LRN_SPILL_USED_CNT : RegField :=
  ⟨0x120014, 0x80, 0, 28, .ro, 0x0, false, false, []⟩
/-- LRN_CREATE_CNT [31:0] CNT (R407). -/
def Fld.LRN_CREATE_CNT_CNT : RegField :=
  ⟨0x120018, 0x80, 0, 32, .ro, 0x0, false, false, []⟩
/-- LRN_PRUNE_CNT [31:0] CNT (R407). -/
def Fld.LRN_PRUNE_CNT_CNT : RegField :=
  ⟨0x12001C, 0x80, 0, 32, .ro, 0x0, false, false, []⟩
/-- LRN_CREATE_REFUSED_CNT [31:0] CNT (R407). -/
def Fld.LRN_CREATE_REFUSED_CNT_CNT : RegField :=
  ⟨0x120020, 0x80, 0, 32, .ro, 0x0, false, false, []⟩
/-- LRN_RENORM_CNT [31:0] CNT (R407). -/
def Fld.LRN_RENORM_CNT_CNT : RegField :=
  ⟨0x120024, 0x80, 0, 32, .ro, 0x0, false, false, []⟩
/-- LRN_DLY_OVF_CNT [31:0] CNT (R407). -/
def Fld.LRN_DLY_OVF_CNT_CNT : RegField :=
  ⟨0x120028, 0x80, 0, 32, .ro, 0x0, false, false, []⟩
/-- LRN_POISON_CNT [31:0] CNT (R407). -/
def Fld.LRN_POISON_CNT_CNT : RegField :=
  ⟨0x12002C, 0x80, 0, 32, .ro, 0x0, false, false, []⟩
/-- LRN_BADEV_CNT [31:0] CNT (R407). -/
def Fld.LRN_BADEV_CNT_CNT : RegField :=
  ⟨0x120030, 0x80, 0, 32, .ro, 0x0, false, false, []⟩
/-- LRN_NAN_CNT [31:0] CNT (R407). -/
def Fld.LRN_NAN_CNT_CNT : RegField :=
  ⟨0x120034, 0x80, 0, 32, .ro, 0x0, false, false, []⟩
/-- LRN_SPILL_ERR_CNT [31:0] CNT (R407). -/
def Fld.LRN_SPILL_ERR_CNT_CNT : RegField :=
  ⟨0x120038, 0x80, 0, 32, .ro, 0x0, false, false, []⟩
/-- LRN_DLY_STEP_CNT [31:0] CNT (R407). -/
def Fld.LRN_DLY_STEP_CNT_CNT : RegField :=
  ⟨0x12003C, 0x80, 0, 32, .ro, 0x0, false, false, []⟩
/-- LRN_POP_SEL [6:6] ENGINE (R407). -/
def Fld.LRN_POP_SEL_ENGINE : RegField :=
  ⟨0x120100, 0x0, 6, 1, .rw, 0x0, false, false, []⟩
/-- LRN_POP_SEL [5:0] POP (R407). -/
def Fld.LRN_POP_SEL_POP : RegField :=
  ⟨0x120100, 0x0, 0, 6, .rw, 0x0, false, false, []⟩
/-- LRN_POP_FAST [21:0] CNT (R407). -/
def Fld.LRN_POP_FAST_CNT : RegField :=
  ⟨0x120104, 0x0, 0, 22, .ro, 0x0, false, false, []⟩
/-- LRN_POP_SPILL [27:0] CNT (R407). -/
def Fld.LRN_POP_SPILL_CNT : RegField :=
  ⟨0x120108, 0x0, 0, 28, .ro, 0x0, false, false, []⟩
/-- LRN_POP_CTRL [1:1] LANE_FROZEN (R407). -/
def Fld.LRN_POP_CTRL_LANE_FROZEN : RegField :=
  ⟨0x12010C, 0x0, 1, 1, .ro, 0x0, false, false, []⟩
/-- LRN_POP_CTRL [0:0] FREEZE (R407). -/
def Fld.LRN_POP_CTRL_FREEZE : RegField :=
  ⟨0x12010C, 0x0, 0, 1, .rw, 0x0, false, true, []⟩
/-- LRN_NOV_STATE [4:4] LEARN_FROZEN (R407). -/
def Fld.LRN_NOV_STATE_LEARN_FROZEN : RegField :=
  ⟨0x120400, 0x20, 4, 1, .ro, 0x0, false, false, []⟩
/-- LRN_NOV_STATE [3:3] HOLDING (R407). -/
def Fld.LRN_NOV_STATE_HOLDING : RegField :=
  ⟨0x120400, 0x20, 3, 1, .ro, 0x0, false, false, []⟩
/-- LRN_NOV_STATE [2:2] ACKED (R407). -/
def Fld.LRN_NOV_STATE_ACKED : RegField :=
  ⟨0x120400, 0x20, 2, 1, .ro, 0x0, false, false, []⟩
/-- LRN_NOV_STATE [1:0] STATE (R407). -/
def Fld.LRN_NOV_STATE_STATE : RegField :=
  ⟨0x120400, 0x20, 0, 2, .ro, 0x0, false, false, []⟩
/-- LRN_SCORE [31:0] S (R407). -/
def Fld.LRN_SCORE_S : RegField :=
  ⟨0x120404, 0x20, 0, 32, .ro, 0x0, false, false, []⟩
/-- LRN_MOD [31:16] SECS (R407). -/
def Fld.LRN_MOD_SECS : RegField :=
  ⟨0x120408, 0x20, 16, 16, .ro, 0x0, false, false, []⟩
/-- LRN_MOD [3:3] MARK (R407). -/
def Fld.LRN_MOD_MARK : RegField :=
  ⟨0x120408, 0x20, 3, 1, .ro, 0x0, false, false, []⟩
/-- LRN_MOD [2:2] TEACH (R407). -/
def Fld.LRN_MOD_TEACH : RegField :=
  ⟨0x120408, 0x20, 2, 1, .ro, 0x0, false, false, []⟩
/-- LRN_MOD [1:0] M (R407). -/
def Fld.LRN_MOD_M : RegField :=
  ⟨0x120408, 0x20, 0, 2, .ro, 0x0, false, false, []⟩
/-- LRN_MOD_CMD [1:0] CMD (R407). -/
def Fld.LRN_MOD_CMD_CMD : RegField :=
  ⟨0x12040C, 0x20, 0, 2, .wo, 0x0, false, false, []⟩
/-- LRN_EV_CNT [31:0] CNT (R407). -/
def Fld.LRN_EV_CNT_CNT : RegField :=
  ⟨0x120410, 0x20, 0, 32, .ro, 0x0, false, false, []⟩
/-- LRN_EV_SKIP_CNT [31:0] CNT (R407). -/
def Fld.LRN_EV_SKIP_CNT_CNT : RegField :=
  ⟨0x120414, 0x20, 0, 32, .ro, 0x0, false, false, []⟩
/-- BH_WEAR_CFG [16:0] BUDGET (R441). -/
def Fld.BH_WEAR_CFG_BUDGET : RegField :=
  ⟨0x140000, 0x0, 0, 17, .rw, 0x10e00, true, true, [(1000, 69120)]⟩
/-- BH_CMD [9:8] ACTION (R441). -/
def Fld.BH_CMD_ACTION : RegField :=
  ⟨0x140004, 0x0, 8, 2, .wo, 0x0, false, false, []⟩
/-- BH_CMD [6:0] POP (R441). -/
def Fld.BH_CMD_POP : RegField :=
  ⟨0x140004, 0x0, 0, 7, .wo, 0x0, false, false, []⟩
/-- BH_CMD_STATUS [17:17] PENDING (R441). -/
def Fld.BH_CMD_STATUS_PENDING : RegField :=
  ⟨0x140008, 0x0, 17, 1, .ro, 0x0, false, false, []⟩
/-- BH_CMD_STATUS [16:16] NOT_DIRTY (R441). -/
def Fld.BH_CMD_STATUS_NOT_DIRTY : RegField :=
  ⟨0x140008, 0x0, 16, 1, .ro, 0x0, false, false, []⟩
/-- BH_CMD_STATUS [14:8] POP (R441). -/
def Fld.BH_CMD_STATUS_POP : RegField :=
  ⟨0x140008, 0x0, 8, 7, .ro, 0x0, false, false, []⟩
/-- BH_CMD_STATUS [7:0] STATUS (R441). -/
def Fld.BH_CMD_STATUS_STATUS : RegField :=
  ⟨0x140008, 0x0, 0, 8, .ro, 0x0, false, false, []⟩
/-- BH_FREE [7:0] FREE (R441). -/
def Fld.BH_FREE_FREE : RegField :=
  ⟨0x140010, 0x20, 0, 8, .ro, 0x0, false, false, []⟩
/-- BH_WRITES_24H [16:0] CNT (R441). -/
def Fld.BH_WRITES_24H_CNT : RegField :=
  ⟨0x140014, 0x20, 0, 17, .ro, 0x0, false, false, []⟩
/-- BH_CE_CNT [31:0] CNT (R441). -/
def Fld.BH_CE_CNT_CNT : RegField :=
  ⟨0x140018, 0x20, 0, 32, .ro, 0x0, false, false, []⟩
/-- BH_UE_CNT [31:0] CNT (R441). -/
def Fld.BH_UE_CNT_CNT : RegField :=
  ⟨0x14001C, 0x20, 0, 32, .ro, 0x0, false, false, []⟩
/-- BH_DEFER_CNT [31:0] CNT (R441). -/
def Fld.BH_DEFER_CNT_CNT : RegField :=
  ⟨0x140020, 0x20, 0, 32, .ro, 0x0, false, false, []⟩
/-- BH_PF_CNT [31:0] CNT (R441). -/
def Fld.BH_PF_CNT_CNT : RegField :=
  ⟨0x140024, 0x20, 0, 32, .ro, 0x0, false, false, []⟩
/-- BH_SKIP_CNT [31:0] CNT (R441). -/
def Fld.BH_SKIP_CNT_CNT : RegField :=
  ⟨0x140028, 0x20, 0, 32, .ro, 0x0, false, false, []⟩
/-- BH_BAD [31:0] BAD (R441). -/
def Fld.BH_BAD_BAD : RegField :=
  ⟨0x140080, 0x4, 0, 32, .ro, 0x0, false, false, []⟩
/-- BH_CKPT [15:0] S (R441). -/
def Fld.BH_CKPT_S : RegField :=
  ⟨0x140100, 0x4, 0, 16, .rw, 0x258, false, true, [(60, 65535)]⟩
/-- BH_POP_STATUS [23:16] SLOT_BLOCKS (R441). -/
def Fld.BH_POP_STATUS_SLOT_BLOCKS : RegField :=
  ⟨0x140300, 0x4, 16, 8, .ro, 0x0, false, false, []⟩
/-- BH_POP_STATUS [15:15] SUSPENDED (R441). -/
def Fld.BH_POP_STATUS_SUSPENDED : RegField :=
  ⟨0x140300, 0x4, 15, 1, .ro, 0x0, false, false, []⟩
/-- BH_POP_STATUS [14:14] TEACH_LOST (R441). -/
def Fld.BH_POP_STATUS_TEACH_LOST : RegField :=
  ⟨0x140300, 0x4, 14, 1, .ro, 0x0, false, false, []⟩
/-- BH_POP_STATUS [13:13] DIRTY (R441). -/
def Fld.BH_POP_STATUS_DIRTY : RegField :=
  ⟨0x140300, 0x4, 13, 1, .ro, 0x0, false, false, []⟩
/-- BH_POP_STATUS [10:8] RESULT (R441). -/
def Fld.BH_POP_STATUS_RESULT : RegField :=
  ⟨0x140300, 0x4, 8, 3, .ro, 0x0, false, false, []⟩
/-- BH_POP_STATUS [1:0] STATE (R441). -/
def Fld.BH_POP_STATUS_STATE : RegField :=
  ⟨0x140300, 0x4, 0, 2, .ro, 0x0, false, false, []⟩
/-- BH_POP_LAST [63:0] T_PAUSE (R441). -/
def Fld.BH_POP_LAST_T_PAUSE : RegField :=
  ⟨0x140500, 0x8, 0, 64, .ro, 0x0, false, false, []⟩
/-- MDL_STATUS [11:8] QUEUED (R469). -/
def Fld.MDL_STATUS_QUEUED : RegField :=
  ⟨0x150000, 0x0, 8, 4, .ro, 0x0, false, false, []⟩
/-- MDL_STATUS [0:0] BUSY (R469). -/
def Fld.MDL_STATUS_BUSY : RegField :=
  ⟨0x150000, 0x0, 0, 1, .ro, 0x0, false, false, []⟩
/-- MDL_LAST [31:24] CARRIED (R469). -/
def Fld.MDL_LAST_CARRIED : RegField :=
  ⟨0x150004, 0x0, 24, 8, .ro, 0x0, false, false, []⟩
/-- MDL_LAST [22:18] SLOT (R469). -/
def Fld.MDL_LAST_SLOT : RegField :=
  ⟨0x150004, 0x0, 18, 5, .ro, 0x0, false, false, []⟩
/-- MDL_LAST [17:16] PROFILE (R469). -/
def Fld.MDL_LAST_PROFILE : RegField :=
  ⟨0x150004, 0x0, 16, 2, .ro, 0x0, false, false, []⟩
/-- MDL_LAST [15:8] CHECK (R469). -/
def Fld.MDL_LAST_CHECK : RegField :=
  ⟨0x150004, 0x0, 8, 8, .ro, 0x0, false, false, []⟩
/-- MDL_LAST [7:0] STATUS (R469). -/
def Fld.MDL_LAST_STATUS : RegField :=
  ⟨0x150004, 0x0, 0, 8, .ro, 0x0, false, false, []⟩
/-- MDL_LAST_ID [31:0] ID (R469). -/
def Fld.MDL_LAST_ID_ID : RegField :=
  ⟨0x150008, 0x0, 0, 32, .ro, 0x0, false, false, []⟩
/-- MDL_REFUSED_CNT [31:0] CNT (R469). -/
def Fld.MDL_REFUSED_CNT_CNT : RegField :=
  ⟨0x15000C, 0x0, 0, 32, .ro, 0x0, false, false, []⟩
/-- MDL_REPLACE_CNT [31:0] CNT (R469). -/
def Fld.MDL_REPLACE_CNT_CNT : RegField :=
  ⟨0x150010, 0x0, 0, 32, .ro, 0x0, false, false, []⟩
/-- MDL_VEC_SEL [11:10] PROFILE (R469). -/
def Fld.MDL_VEC_SEL_PROFILE : RegField :=
  ⟨0x150020, 0x0, 10, 2, .rw, 0x0, false, false, []⟩
/-- MDL_VEC_SEL [9:8] SOURCE (R469). -/
def Fld.MDL_VEC_SEL_SOURCE : RegField :=
  ⟨0x150020, 0x0, 8, 2, .rw, 0x0, false, false, []⟩
/-- MDL_VEC_SEL [6:4] PART (R469). -/
def Fld.MDL_VEC_SEL_PART : RegField :=
  ⟨0x150020, 0x0, 4, 3, .rw, 0x0, false, false, []⟩
/-- MDL_VEC_SEL [3:0] COMP (R469). -/
def Fld.MDL_VEC_SEL_COMP : RegField :=
  ⟨0x150020, 0x0, 0, 4, .rw, 0x0, false, false, []⟩
/-- MDL_VEC [63:0] VALUE (R469). -/
def Fld.MDL_VEC_VALUE : RegField :=
  ⟨0x150024, 0x0, 0, 64, .ro, 0x0, false, false, []⟩
/-- MDL_ID [31:0] ID (R469). -/
def Fld.MDL_ID_ID : RegField :=
  ⟨0x150100, 0x10, 0, 32, .ro, 0x0, false, false, []⟩
/-- MDL_STATE [14:8] LANES (R469). -/
def Fld.MDL_STATE_LANES : RegField :=
  ⟨0x150104, 0x10, 8, 7, .ro, 0x0, false, false, []⟩
/-- MDL_STATE [6:4] PART (R469). -/
def Fld.MDL_STATE_PART : RegField :=
  ⟨0x150104, 0x10, 4, 3, .ro, 0x0, false, false, []⟩
/-- MDL_STATE [3:2] PROFILE (R469). -/
def Fld.MDL_STATE_PROFILE : RegField :=
  ⟨0x150104, 0x10, 2, 2, .ro, 0x0, false, false, []⟩
/-- MDL_STATE [1:0] STATE (R469). -/
def Fld.MDL_STATE_STATE : RegField :=
  ⟨0x150104, 0x10, 0, 2, .ro, 0x0, false, false, []⟩
/-- MDL_REV [31:0] REV (R469). -/
def Fld.MDL_REV_REV : RegField :=
  ⟨0x150108, 0x10, 0, 32, .ro, 0x0, false, false, []⟩
/-- RPT_RING_BASE [63:6] BASE (R521). -/
def Fld.RPT_RING_BASE_BASE : RegField :=
  ⟨0x160000, 0x40, 6, 58, .rw, 0x0, false, false, []⟩
/-- RPT_RING_PROD [31:0] PROD (R521). -/
def Fld.RPT_RING_PROD_PROD : RegField :=
  ⟨0x160008, 0x40, 0, 32, .ro, 0x0, false, false, []⟩
/-- RPT_RING_CONS [31:0] CONS (R521). -/
def Fld.RPT_RING_CONS_CONS : RegField :=
  ⟨0x16000C, 0x40, 0, 32, .rw, 0x0, false, false, []⟩
/-- RPT_RING_SIZE [31:0] SIZE (R521). -/
def Fld.RPT_RING_SIZE_SIZE : RegField :=
  ⟨0x160010, 0x40, 0, 32, .ro, 0x400, false, true, []⟩
/-- RPT_BACKLOG [12:0] N (R521). -/
def Fld.RPT_BACKLOG_N : RegField :=
  ⟨0x160014, 0x40, 0, 13, .ro, 0x0, false, false, []⟩
/-- RPT_DROP_CNT [31:0] CNT (R521). -/
def Fld.RPT_DROP_CNT_CNT : RegField :=
  ⟨0x160018, 0x40, 0, 32, .ro, 0x0, false, false, []⟩
/-- RPT_IRQ_US [15:0] US (R521). -/
def Fld.RPT_IRQ_US_US : RegField :=
  ⟨0x16001C, 0x40, 0, 16, .rw, 0x64, true, true, [(10, 65535)]⟩
/-- RPT_COL_CFG [15:8] FLUSH_MS (R521). -/
def Fld.RPT_COL_CFG_FLUSH_MS : RegField :=
  ⟨0x160400, 0x20, 8, 8, .rw, 0xa, true, false, [(1, 255)]⟩
/-- RPT_COL_CFG [0:0] ACK_MODE (R521). -/
def Fld.RPT_COL_CFG_ACK_MODE : RegField :=
  ⟨0x160400, 0x20, 0, 1, .rw, 0x0, true, false, []⟩
/-- RPT_COL_STATUS [15:8] UNACKED (R521). -/
def Fld.RPT_COL_STATUS_UNACKED : RegField :=
  ⟨0x160404, 0x20, 8, 8, .ro, 0x0, false, false, []⟩
/-- RPT_COL_STATUS [1:1] DOWN (R521). -/
def Fld.RPT_COL_STATUS_DOWN : RegField :=
  ⟨0x160404, 0x20, 1, 1, .ro, 0x0, false, false, []⟩
/-- RPT_COL_STATUS [0:0] RESOLVED (R521). -/
def Fld.RPT_COL_STATUS_RESOLVED : RegField :=
  ⟨0x160404, 0x20, 0, 1, .ro, 0x0, false, false, []⟩
/-- RPT_COL_DGRAM_CNT [31:0] CNT (R521). -/
def Fld.RPT_COL_DGRAM_CNT_CNT : RegField :=
  ⟨0x160408, 0x20, 0, 32, .ro, 0x0, false, false, []⟩
/-- RPT_COL_RETX_CNT [31:0] CNT (R521). -/
def Fld.RPT_COL_RETX_CNT_CNT : RegField :=
  ⟨0x16040C, 0x20, 0, 32, .ro, 0x0, false, false, []⟩
/-- RPT_COL_DUP_CNT [31:0] CNT (R521). -/
def Fld.RPT_COL_DUP_CNT_CNT : RegField :=
  ⟨0x160410, 0x20, 0, 32, .ro, 0x0, false, false, []⟩
/-- RPT_COL_LOST_CNT [31:0] CNT (R521). -/
def Fld.RPT_COL_LOST_CNT_CNT : RegField :=
  ⟨0x160414, 0x20, 0, 32, .ro, 0x0, false, false, []⟩
/-- RPT_NEXT_SEQ [31:0] SEQ (R521). -/
def Fld.RPT_NEXT_SEQ_SEQ : RegField :=
  ⟨0x160800, 0x4, 0, 32, .ro, 0x0, false, false, []⟩
/-- HOST_MB_BASE [63:0] BASE (R521). -/
def Fld.HOST_MB_BASE_BASE : RegField :=
  ⟨0x170000, 0x40, 0, 64, .rw, 0x0, false, false, []⟩
/-- HOST_MB_CQ_BASE [63:0] BASE (R521). -/
def Fld.HOST_MB_CQ_BASE_BASE : RegField :=
  ⟨0x170008, 0x40, 0, 64, .rw, 0x0, false, false, []⟩
/-- HOST_MB_CFG [9:9] FAULT (R521). -/
def Fld.HOST_MB_CFG_FAULT : RegField :=
  ⟨0x170010, 0x40, 9, 1, .ro, 0x0, false, false, []⟩
/-- HOST_MB_CFG [8:8] ENABLE (R521). -/
def Fld.HOST_MB_CFG_ENABLE : RegField :=
  ⟨0x170010, 0x40, 8, 1, .rw, 0x0, false, false, []⟩
/-- HOST_MB_CFG [7:4] LOG2_CQ (R521). -/
def Fld.HOST_MB_CFG_LOG2_CQ : RegField :=
  ⟨0x170010, 0x40, 4, 4, .rw, 0x0, false, false, [(6, 12)]⟩
/-- HOST_MB_CFG [3:0] LOG2_CMD (R521). -/
def Fld.HOST_MB_CFG_LOG2_CMD : RegField :=
  ⟨0x170010, 0x40, 0, 4, .rw, 0x0, false, false, [(6, 12)]⟩
/-- HOST_MB_TAIL [15:0] TAIL (R521). -/
def Fld.HOST_MB_TAIL_TAIL : RegField :=
  ⟨0x170014, 0x40, 0, 16, .rw, 0x0, false, false, []⟩
/-- HOST_MB_HEAD [15:0] HEAD (R521). -/
def Fld.HOST_MB_HEAD_HEAD : RegField :=
  ⟨0x170018, 0x40, 0, 16, .ro, 0x0, false, false, []⟩
/-- HOST_MB_CQ_HEAD [15:0] CQ_HEAD (R521). -/
def Fld.HOST_MB_CQ_HEAD_CQ_HEAD : RegField :=
  ⟨0x17001C, 0x40, 0, 16, .rw, 0x0, false, false, []⟩
/-- HOST_MB_NEXT_SEQ [31:0] SEQ (R521). -/
def Fld.HOST_MB_NEXT_SEQ_SEQ : RegField :=
  ⟨0x170020, 0x40, 0, 32, .ro, 0x0, false, false, []⟩
/-- HOST_MB_DUP_CNT [31:0] CNT (R521). -/
def Fld.HOST_MB_DUP_CNT_CNT : RegField :=
  ⟨0x170024, 0x40, 0, 32, .ro, 0x0, false, false, []⟩
/-- HOST_HB_LAST [31:0] VALUE (R521). -/
def Fld.HOST_HB_LAST_VALUE : RegField :=
  ⟨0x170028, 0x40, 0, 32, .ro, 0x0, false, false, []⟩
/-- HOST_LINK_STATUS [15:12] VFS (R521). -/
def Fld.HOST_LINK_STATUS_VFS : RegField :=
  ⟨0x170400, 0x0, 12, 4, .ro, 0x0, false, false, []⟩
/-- HOST_LINK_STATUS [8:4] WIDTH (R521). -/
def Fld.HOST_LINK_STATUS_WIDTH : RegField :=
  ⟨0x170400, 0x0, 4, 5, .ro, 0x0, false, false, []⟩
/-- HOST_LINK_STATUS [3:1] SPEED (R521). -/
def Fld.HOST_LINK_STATUS_SPEED : RegField :=
  ⟨0x170400, 0x0, 1, 3, .ro, 0x0, false, false, []⟩
/-- HOST_LINK_STATUS [0:0] UP (R521). -/
def Fld.HOST_LINK_STATUS_UP : RegField :=
  ⟨0x170400, 0x0, 0, 1, .ro, 0x0, false, false, []⟩
/-- JL_STATUS [12:12] PARTNER_VALID (R521). -/
def Fld.JL_STATUS_PARTNER_VALID : RegField :=
  ⟨0x180000, 0x40, 12, 1, .ro, 0x0, false, false, []⟩
/-- JL_STATUS [11:8] PARTNER (R521). -/
def Fld.JL_STATUS_PARTNER : RegField :=
  ⟨0x180000, 0x40, 8, 4, .ro, 0x0, false, false, []⟩
/-- JL_STATUS [1:0] STATE (R521). -/
def Fld.JL_STATUS_STATE : RegField :=
  ⟨0x180000, 0x40, 0, 2, .ro, 0x0, false, false, []⟩
/-- JL_CRC_ERR_CNT [31:0] CNT (R521). -/
def Fld.JL_CRC_ERR_CNT_CNT : RegField :=
  ⟨0x180004, 0x40, 0, 32, .ro, 0x0, false, false, []⟩
/-- JL_REPLAY_CNT [31:0] CNT (R521). -/
def Fld.JL_REPLAY_CNT_CNT : RegField :=
  ⟨0x180008, 0x40, 0, 32, .ro, 0x0, false, false, []⟩
/-- JL_RETRAIN_CNT [31:0] CNT (R521). -/
def Fld.JL_RETRAIN_CNT_CNT : RegField :=
  ⟨0x18000C, 0x40, 0, 32, .ro, 0x0, false, false, []⟩
/-- JL_HOP_DROP_CNT [31:0] CNT (R521). -/
def Fld.JL_HOP_DROP_CNT_CNT : RegField :=
  ⟨0x180010, 0x40, 0, 32, .ro, 0x0, false, false, []⟩
/-- JL_TX_FLITS [63:0] CNT (R521). -/
def Fld.JL_TX_FLITS_CNT : RegField :=
  ⟨0x180018, 0x40, 0, 64, .ro, 0x0, false, false, []⟩
/-- JL_DUP_CNT [31:0] CNT (R521). -/
def Fld.JL_DUP_CNT_CNT : RegField :=
  ⟨0x180100, 0x0, 0, 32, .ro, 0x0, false, false, []⟩
/-- JL_STRAY_CNT [31:0] CNT (R521). -/
def Fld.JL_STRAY_CNT_CNT : RegField :=
  ⟨0x180104, 0x0, 0, 32, .ro, 0x0, false, false, []⟩
/-- JL_ROUTE_SEL [3:0] DEST (R521). -/
def Fld.JL_ROUTE_SEL_DEST : RegField :=
  ⟨0x180108, 0x0, 0, 4, .rw, 0x0, false, false, []⟩
/-- JL_ROUTE [7:7] NO_ROUTE (R521). -/
def Fld.JL_ROUTE_NO_ROUTE : RegField :=
  ⟨0x18010C, 0x0, 7, 1, .ro, 0x1, false, false, []⟩
/-- JL_ROUTE [1:0] PORT (R521). -/
def Fld.JL_ROUTE_PORT : RegField :=
  ⟨0x18010C, 0x0, 0, 2, .ro, 0x0, false, false, []⟩
/-- PNL_PIN_CFG [31:16] ARG (R549). -/
def Fld.PNL_PIN_CFG_ARG : RegField :=
  ⟨0x1A0000, 0x8, 16, 16, .ro, 0x0, true, true, []⟩
/-- PNL_PIN_CFG [3:3] INV (R549). -/
def Fld.PNL_PIN_CFG_INV : RegField :=
  ⟨0x1A0000, 0x8, 3, 1, .ro, 0x0, true, true, []⟩
/-- PNL_PIN_CFG [2:0] FUNC (R549). -/
def Fld.PNL_PIN_CFG_FUNC : RegField :=
  ⟨0x1A0000, 0x8, 0, 3, .ro, 0x0, true, true, []⟩
/-- PNL_PIN_ARG2 [15:0] ARG2 (R549). -/
def Fld.PNL_PIN_ARG2_ARG2 : RegField :=
  ⟨0x1A0004, 0x8, 0, 16, .ro, 0x0, true, true, []⟩
/-- PNL_LEVEL [23:0] LEVEL (R549). -/
def Fld.PNL_LEVEL_LEVEL : RegField :=
  ⟨0x1A0100, 0x0, 0, 24, .ro, 0x0, false, false, []⟩
/-- PNL_PLUGGED [23:0] PLUGGED (R549). -/
def Fld.PNL_PLUGGED_PLUGGED : RegField :=
  ⟨0x1A0104, 0x0, 0, 24, .ro, 0x0, false, false, []⟩
/-- PNL_FAULT [23:0] FAULT (R549). -/
def Fld.PNL_FAULT_FAULT : RegField :=
  ⟨0x1A0108, 0x0, 0, 24, .ro, 0x0, false, false, []⟩
/-- PNL_SEL [8:8] NONE (R549). -/
def Fld.PNL_SEL_NONE : RegField :=
  ⟨0x1A010C, 0x0, 8, 1, .ro, 0x0, false, false, []⟩
/-- PNL_SEL [5:0] LANE (R549). -/
def Fld.PNL_SEL_LANE : RegField :=
  ⟨0x1A010C, 0x0, 0, 6, .rw, 0x0, false, false, []⟩
/-- PNL_LED_SW [23:0] LED (R549). -/
def Fld.PNL_LED_SW_LED : RegField :=
  ⟨0x1A0110, 0x0, 0, 24, .rw, 0x0, false, false, []⟩
/-- PNL_BUZZ_CTRL [1:1] TEST (R549). -/
def Fld.PNL_BUZZ_CTRL_TEST : RegField :=
  ⟨0x1A0114, 0x0, 1, 1, .wo, 0x0, false, false, []⟩
/-- PNL_BUZZ_CTRL [0:0] SILENCE (R549). -/
def Fld.PNL_BUZZ_CTRL_SILENCE : RegField :=
  ⟨0x1A0114, 0x0, 0, 1, .wo, 0x0, false, false, []⟩
/-- PNL_SENSE_SEL [4:0] PIN (R549). -/
def Fld.PNL_SENSE_SEL_PIN : RegField :=
  ⟨0x1A0118, 0x0, 0, 5, .rw, 0x0, false, false, [(0, 23)]⟩
/-- PNL_SENSE [31:16] BASELINE (R549). -/
def Fld.PNL_SENSE_BASELINE : RegField :=
  ⟨0x1A011C, 0x0, 16, 16, .ro, 0x0, false, false, []⟩
/-- PNL_SENSE [15:0] COUNT (R549). -/
def Fld.PNL_SENSE_COUNT : RegField :=
  ⟨0x1A011C, 0x0, 0, 16, .ro, 0x0, false, false, []⟩
/-- PNL_ACTION_CNT [31:0] CNT (R549). -/
def Fld.PNL_ACTION_CNT_CNT : RegField :=
  ⟨0x1A0120, 0x0, 0, 32, .ro, 0x0, false, false, []⟩
/-- PNL_PLUG_CNT [31:0] CNT (R549). -/
def Fld.PNL_PLUG_CNT_CNT : RegField :=
  ⟨0x1A0124, 0x0, 0, 32, .ro, 0x0, false, false, []⟩
/-- ERR_PROD [15:0] PROD (R588). -/
def Fld.ERR_PROD_PROD : RegField :=
  ⟨0x1B0000, 0x40, 0, 16, .ro, 0x0, false, false, []⟩
/-- ERR_CONS [15:0] CONS (R588). -/
def Fld.ERR_CONS_CONS : RegField :=
  ⟨0x1B0004, 0x40, 0, 16, .rw, 0x0, false, false, []⟩
/-- ERR_SEL [15:0] SEL (R588). -/
def Fld.ERR_SEL_SEL : RegField :=
  ⟨0x1B0008, 0x40, 0, 16, .rw, 0x0, false, false, []⟩
/-- ERR_OVF_CNT [31:0] CNT (R588). -/
def Fld.ERR_OVF_CNT_CNT : RegField :=
  ⟨0x1B000C, 0x40, 0, 32, .ro, 0x0, false, false, []⟩
/-- ERR_PART_STATE [15:8] CAUSE (R588). -/
def Fld.ERR_PART_STATE_CAUSE : RegField :=
  ⟨0x1B0010, 0x40, 8, 8, .ro, 0x0, false, false, []⟩
/-- ERR_PART_STATE [1:0] STATE (R588). -/
def Fld.ERR_PART_STATE_STATE : RegField :=
  ⟨0x1B0010, 0x40, 0, 2, .ro, 0x0, false, false, []⟩
/-- ERR_PART_CTRL [0:0] RESTART (R588). -/
def Fld.ERR_PART_CTRL_RESTART : RegField :=
  ⟨0x1B0014, 0x40, 0, 1, .wo, 0x0, false, false, []⟩
/-- ERR_PART_CFG [31:24] AUTO_S (R588). -/
def Fld.ERR_PART_CFG_AUTO_S : RegField :=
  ⟨0x1B0018, 0x40, 24, 8, .rw, 0xa, true, true, []⟩
/-- ERR_PART_CFG [17:16] HB_ACTION (R588). -/
def Fld.ERR_PART_CFG_HB_ACTION : RegField :=
  ⟨0x1B0018, 0x40, 16, 2, .rw, 0x1, true, true, [(1, 2)]⟩
/-- ERR_PART_CFG [15:0] HB_MS (R588). -/
def Fld.ERR_PART_CFG_HB_MS : RegField :=
  ⟨0x1B0018, 0x40, 0, 16, .rw, 0x0, true, true, [(0, 0), (100, 60000)]⟩
/-- ERR_REC [255:0] REC (R588). -/
def Fld.ERR_REC_REC : RegField :=
  ⟨0x1B0020, 0x40, 0, 256, .ro, 0x0, false, false, []⟩
/-- ERR_UNIT_CMD [10:8] ACTION (R588). -/
def Fld.ERR_UNIT_CMD_ACTION : RegField :=
  ⟨0x1B0240, 0x0, 8, 3, .wo, 0x0, false, false, []⟩
/-- ERR_UNIT_CMD [7:0] UNIT (R588). -/
def Fld.ERR_UNIT_CMD_UNIT : RegField :=
  ⟨0x1B0240, 0x0, 0, 8, .wo, 0x0, false, false, []⟩
/-- ERR_UNIT_STATUS [19:17] QUEUED (R588). -/
def Fld.ERR_UNIT_STATUS_QUEUED : RegField :=
  ⟨0x1B0244, 0x0, 17, 3, .ro, 0x0, false, false, []⟩
/-- ERR_UNIT_STATUS [16:16] PENDING (R588). -/
def Fld.ERR_UNIT_STATUS_PENDING : RegField :=
  ⟨0x1B0244, 0x0, 16, 1, .ro, 0x0, false, false, []⟩
/-- ERR_UNIT_STATUS [15:8] UNIT (R588). -/
def Fld.ERR_UNIT_STATUS_UNIT : RegField :=
  ⟨0x1B0244, 0x0, 8, 8, .ro, 0x0, false, false, []⟩
/-- ERR_UNIT_STATUS [7:0] STATUS (R588). -/
def Fld.ERR_UNIT_STATUS_STATUS : RegField :=
  ⟨0x1B0244, 0x0, 0, 8, .ro, 0x0, false, false, []⟩
/-- ERR_PATCH_ADDR [63:0] ADDR (R588). -/
def Fld.ERR_PATCH_ADDR_ADDR : RegField :=
  ⟨0x1B0248, 0x0, 0, 64, .rw, 0x0, false, false, []⟩
/-- ERR_STALE_REQ_CNT [31:0] CNT (R588). -/
def Fld.ERR_STALE_REQ_CNT_CNT : RegField :=
  ⟨0x1B0250, 0x0, 0, 32, .ro, 0x0, false, false, []⟩
/-- ERR_STALE_RSP_CNT [31:0] CNT (R588). -/
def Fld.ERR_STALE_RSP_CNT_CNT : RegField :=
  ⟨0x1B0254, 0x0, 0, 32, .ro, 0x0, false, false, []⟩
/-- ERR_FATAL_CAUSE [31:31] VALID (R588). -/
def Fld.ERR_FATAL_CAUSE_VALID : RegField :=
  ⟨0x1B0258, 0x0, 31, 1, .w1c, 0x0, false, false, []⟩
/-- ERR_FATAL_CAUSE [15:8] RESTARTS (R588). -/
def Fld.ERR_FATAL_CAUSE_RESTARTS : RegField :=
  ⟨0x1B0258, 0x0, 8, 8, .ro, 0x0, false, false, []⟩
/-- ERR_FATAL_CAUSE [3:0] CAUSE (R588). -/
def Fld.ERR_FATAL_CAUSE_CAUSE : RegField :=
  ⟨0x1B0258, 0x0, 0, 4, .ro, 0x0, false, false, []⟩
/-- ERR_FATAL_HOLD [15:0] MS (R588). -/
def Fld.ERR_FATAL_HOLD_MS : RegField :=
  ⟨0x1B025C, 0x0, 0, 16, .rw, 0x3e8, true, true, []⟩
/-- ERR_WD_CFG [3:0] LATE_MULT (R588). -/
def Fld.ERR_WD_CFG_LATE_MULT : RegField :=
  ⟨0x1B0260, 0x0, 0, 4, .rw, 0x3, true, true, [(2, 8)]⟩
/-- ERR_RETIRED [31:0] UNITS (R588). -/
def Fld.ERR_RETIRED_UNITS : RegField :=
  ⟨0x1B0264, 0x4, 0, 32, .ro, 0x0, false, false, []⟩
/-- ERR_EPOCH [19:18] RESETS (R588). -/
def Fld.ERR_EPOCH_RESETS : RegField :=
  ⟨0x1B0400, 0x4, 18, 2, .ro, 0x0, false, false, []⟩
/-- ERR_EPOCH [17:17] RETIRED (R588). -/
def Fld.ERR_EPOCH_RETIRED : RegField :=
  ⟨0x1B0400, 0x4, 17, 1, .ro, 0x0, false, false, []⟩
/-- ERR_EPOCH [16:16] DOWN (R588). -/
def Fld.ERR_EPOCH_DOWN : RegField :=
  ⟨0x1B0400, 0x4, 16, 1, .ro, 0x0, false, false, []⟩
/-- ERR_EPOCH [15:0] EPOCH (R588). -/
def Fld.ERR_EPOCH_EPOCH : RegField :=
  ⟨0x1B0400, 0x4, 0, 16, .ro, 0x1, false, false, []⟩
/-- ERR_LANE_LATE_CNT [31:0] CNT (R588). -/
def Fld.ERR_LANE_LATE_CNT_CNT : RegField :=
  ⟨0x1B0600, 0x4, 0, 32, .ro, 0x0, false, false, []⟩
/-- ERR_LANE_END_CNT [31:0] CNT (R588). -/
def Fld.ERR_LANE_END_CNT_CNT : RegField :=
  ⟨0x1B0700, 0x4, 0, 32, .ro, 0x0, false, false, []⟩
/-- DBG_SESSION [1:0] LEVEL (R627). -/
def Fld.DBG_SESSION_LEVEL : RegField :=
  ⟨0x1C0000, 0x0, 0, 2, .ro, 0x0, false, false, []⟩
/-- DBG_HALTED [16:16] COX (R627). -/
def Fld.DBG_HALTED_COX : RegField :=
  ⟨0x1C0004, 0x0, 16, 1, .ro, 0x0, false, false, []⟩
/-- DBG_HALTED [15:0] SCULLS (R627). -/
def Fld.DBG_HALTED_SCULLS : RegField :=
  ⟨0x1C0004, 0x0, 0, 16, .ro, 0x0, false, false, []⟩
/-- DBG_BP_HIT_CNT [31:0] CNT (R627). -/
def Fld.DBG_BP_HIT_CNT_CNT : RegField :=
  ⟨0x1C0008, 0x0, 0, 32, .ro, 0x0, false, false, []⟩
/-- DBG_REASON [13:8] LANE (R627). -/
def Fld.DBG_REASON_LANE : RegField :=
  ⟨0x1C0010, 0x4, 8, 6, .ro, 0x0, false, false, []⟩
/-- DBG_REASON [6:4] SLOT (R627). -/
def Fld.DBG_REASON_SLOT : RegField :=
  ⟨0x1C0010, 0x4, 4, 3, .ro, 0x0, false, false, []⟩
/-- DBG_REASON [2:0] REASON (R627). -/
def Fld.DBG_REASON_REASON : RegField :=
  ⟨0x1C0010, 0x4, 0, 3, .ro, 0x0, false, false, []⟩
/-- SEC_LIFECYCLE [17:17] RETIRE_F (R627). -/
def Fld.SEC_LIFECYCLE_RETIRE_F : RegField :=
  ⟨0x1D0000, 0x0, 17, 1, .ro, 0x0, false, false, []⟩
/-- SEC_LIFECYCLE [16:16] LOCKED_F (R627). -/
def Fld.SEC_LIFECYCLE_LOCKED_F : RegField :=
  ⟨0x1D0000, 0x0, 16, 1, .ro, 0x0, false, false, []⟩
/-- SEC_LIFECYCLE [9:8] LEVEL (R627). -/
def Fld.SEC_LIFECYCLE_LEVEL : RegField :=
  ⟨0x1D0000, 0x0, 8, 2, .ro, 0x0, false, false, []⟩
/-- SEC_LIFECYCLE [1:0] STATE (R627). -/
def Fld.SEC_LIFECYCLE_STATE : RegField :=
  ⟨0x1D0000, 0x0, 0, 2, .ro, 0x0, false, false, []⟩
/-- SEC_ROOT_KEYS [19:16] REVOKED_NOW (R627). -/
def Fld.SEC_ROOT_KEYS_REVOKED_NOW : RegField :=
  ⟨0x1D0004, 0x0, 16, 4, .ro, 0x0, false, false, []⟩
/-- SEC_ROOT_KEYS [10:8] KEY_IDX (R627). -/
def Fld.SEC_ROOT_KEYS_KEY_IDX : RegField :=
  ⟨0x1D0004, 0x0, 8, 3, .ro, 0x0, false, false, []⟩
/-- SEC_ROOT_KEYS [7:0] SLOTS (R627). -/
def Fld.SEC_ROOT_KEYS_SLOTS : RegField :=
  ⟨0x1D0004, 0x0, 0, 8, .ro, 0x0, false, false, []⟩
/-- SEC_MODEL_KEYS [7:0] LOADED (R627). -/
def Fld.SEC_MODEL_KEYS_LOADED : RegField :=
  ⟨0x1D0008, 0x0, 0, 8, .ro, 0x0, false, false, []⟩
/-- SEC_DBG_STATUS [31:8] LOCKOUT_S (R627). -/
def Fld.SEC_DBG_STATUS_LOCKOUT_S : RegField :=
  ⟨0x1D000C, 0x0, 8, 24, .ro, 0x0, false, false, []⟩
/-- SEC_DBG_STATUS [7:0] FAILS (R627). -/
def Fld.SEC_DBG_STATUS_FAILS : RegField :=
  ⟨0x1D000C, 0x0, 0, 8, .ro, 0x3, false, false, []⟩
/-- SEC_SESSION_LEFT [31:0] S (R627). -/
def Fld.SEC_SESSION_LEFT_S : RegField :=
  ⟨0x1D0010, 0x0, 0, 32, .ro, 0x0, false, false, []⟩
/-- SEC_UVIEW_CNT [31:0] CNT (R627). -/
def Fld.SEC_UVIEW_CNT_CNT : RegField :=
  ⟨0x1D0014, 0x0, 0, 32, .ro, 0x0, false, false, []⟩
/-- SEC_DBG_FAIL_CNT [31:0] CNT (R627). -/
def Fld.SEC_DBG_FAIL_CNT_CNT : RegField :=
  ⟨0x1D0018, 0x0, 0, 32, .ro, 0x0, false, false, []⟩
/-- SEC_SESSION_CNT [31:0] CNT (R627). -/
def Fld.SEC_SESSION_CNT_CNT : RegField :=
  ⟨0x1D001C, 0x0, 0, 32, .ro, 0x0, false, false, []⟩

/-- Registers of the GLB block (block code 0x0). -/
def regsGLB : List RegRow := [
  ⟨"GLB_DEVICE_ID", 0x000000, 0x0, 1, 1, false, [Fld.GLB_DEVICE_ID_VENDOR, Fld.GLB_DEVICE_ID_DEVICE]⟩,
  ⟨"GLB_STEPPING", 0x000004, 0x0, 1, 1, false, [Fld.GLB_STEPPING_IO_STEP, Fld.GLB_STEPPING_CORE_STEP]⟩,
  ⟨"GLB_VARIANT", 0x000008, 0x0, 1, 1, false, [Fld.GLB_VARIANT_IGRADE, Fld.GLB_VARIANT_IOD_FIT, Fld.GLB_VARIANT_STACK_FIT]⟩,
  ⟨"GLB_PRESENT", 0x00000C, 0x0, 1, 1, false, [Fld.GLB_PRESENT_IOD_UP, Fld.GLB_PRESENT_STACK_UP]⟩,
  ⟨"GLB_PKG_ID", 0x000010, 0x0, 1, 1, false, [Fld.GLB_PKG_ID_PKG_ID]⟩]
/-- Registers of the BOOT block (block code 0x1). -/
def regsBOOT : List RegRow := [
  ⟨"BOOT_STATUS", 0x010000, 0x0, 1, 1, false, [Fld.BOOT_STATUS_FLASH_OWN, Fld.BOOT_STATUS_CODE, Fld.BOOT_STATUS_SLOT, Fld.BOOT_STATUS_STATE]⟩,
  ⟨"BOOT_SLOT_CODE", 0x010004, 0x0, 1, 1, true, [Fld.BOOT_SLOT_CODE_SLOT_B, Fld.BOOT_SLOT_CODE_SLOT_A]⟩,
  ⟨"BOOT_COMMIT_A", 0x010008, 0x0, 1, 1, true, [Fld.BOOT_COMMIT_A_VALUE]⟩,
  ⟨"BOOT_COMMIT_B", 0x01000C, 0x0, 1, 1, true, [Fld.BOOT_COMMIT_B_VALUE]⟩,
  ⟨"BOOT_IMAGE_ID", 0x010010, 0x4, 4, 1, true, [Fld.BOOT_IMAGE_ID_VALUE]⟩,
  ⟨"BOOT_OVERRIDE_CNT", 0x010020, 0x0, 1, 1, true, [Fld.BOOT_OVERRIDE_CNT_CNT]⟩,
  ⟨"BOOT_CONFLICT_CNT", 0x010024, 0x0, 1, 1, true, [Fld.BOOT_CONFLICT_CNT_CNT]⟩,
  ⟨"BOOT_TIME_MS", 0x010028, 0x0, 1, 1, true, [Fld.BOOT_TIME_MS_VALUE]⟩,
  ⟨"BOOT_RES_SEL", 0x01002C, 0x0, 1, 1, true, [Fld.BOOT_RES_SEL_KIND, Fld.BOOT_RES_SEL_DIE, Fld.BOOT_RES_SEL_INDEX]⟩,
  ⟨"BOOT_RES_OWNER", 0x010030, 0x0, 1, 1, true, [Fld.BOOT_RES_OWNER_TYPE, Fld.BOOT_RES_OWNER_OWNER]⟩]
/-- Registers of the FAB block (block code 0x3). -/
def regsFAB : List RegRow := [
  ⟨"FAB_SPEED_W", 0x030000, 0x0, 1, 1, false, [Fld.FAB_SPEED_W_RATE]⟩,
  ⟨"FAB_SPEED_E", 0x030004, 0x0, 1, 1, false, [Fld.FAB_SPEED_E_RATE]⟩,
  ⟨"FAB_SEAM_BYTES_WE", 0x030008, 0x0, 1, 2, true, [Fld.FAB_SEAM_BYTES_WE_CNT]⟩,
  ⟨"FAB_SEAM_BYTES_EW", 0x030010, 0x0, 1, 2, true, [Fld.FAB_SEAM_BYTES_EW_CNT]⟩,
  ⟨"FAB_CONTEST_CNT", 0x030018, 0x0, 1, 2, true, [Fld.FAB_CONTEST_CNT_CNT]⟩,
  ⟨"FAB_LONG_GRANT_CNT", 0x030020, 0x0, 1, 1, true, [Fld.FAB_LONG_GRANT_CNT_CNT]⟩,
  ⟨"FAB_XING_FULL_CNT", 0x030024, 0x0, 1, 1, true, [Fld.FAB_XING_FULL_CNT_CNT]⟩,
  ⟨"FAB_HDR_ERR_CNT", 0x030028, 0x0, 1, 1, true, [Fld.FAB_HDR_ERR_CNT_CNT]⟩,
  ⟨"FAB_STALL_CNT", 0x03002C, 0x0, 1, 1, true, [Fld.FAB_STALL_CNT_CNT]⟩,
  ⟨"FAB_STALL_LAST", 0x030030, 0x0, 1, 1, true, [Fld.FAB_STALL_LAST_VALID, Fld.FAB_STALL_LAST_VC, Fld.FAB_STALL_LAST_COLUMN, Fld.FAB_STALL_LAST_ROW, Fld.FAB_STALL_LAST_PORT]⟩,
  ⟨"FAB_CTL_LAT_MAX", 0x030034, 0x0, 1, 1, true, [Fld.FAB_CTL_LAT_MAX_VALUE]⟩]
/-- Registers of the MEM block (block code 0x4). -/
def regsMEM : List RegRow := [
  ⟨"MEM_CE_CNT", 0x040000, 0x0, 1, 1, true, [Fld.MEM_CE_CNT_CNT]⟩,
  ⟨"MEM_UE_CNT", 0x040004, 0x0, 1, 1, true, [Fld.MEM_UE_CNT_CNT]⟩,
  ⟨"MEM_POISON_CNT", 0x040008, 0x0, 1, 1, true, [Fld.MEM_POISON_CNT_CNT]⟩,
  ⟨"MEM_RETRY_CNT", 0x04000C, 0x0, 1, 1, true, [Fld.MEM_RETRY_CNT_CNT]⟩,
  ⟨"MEM_WAIT_MAX", 0x040010, 0x0, 1, 1, true, [Fld.MEM_WAIT_MAX_MAX]⟩,
  ⟨"MEM_ERR_INFO", 0x040014, 0x0, 1, 1, true, [Fld.MEM_ERR_INFO_VALID, Fld.MEM_ERR_INFO_SOURCE, Fld.MEM_ERR_INFO_MASK]⟩,
  ⟨"MEM_ERR_ADDR", 0x040018, 0x0, 1, 2, true, [Fld.MEM_ERR_ADDR_ADDR]⟩,
  ⟨"MEM_SCRUB_CFG", 0x040020, 0x0, 1, 1, true, [Fld.MEM_SCRUB_CFG_RETIRE_UE, Fld.MEM_SCRUB_CFG_HBM_HOURS, Fld.MEM_SCRUB_CFG_POCKET_S]⟩,
  ⟨"MEM_PAIR_RETIRED", 0x040028, 0x0, 1, 2, true, [Fld.MEM_PAIR_RETIRED_PAIRS]⟩]
/-- Registers of the LOCK block (block code 0x5). -/
def regsLOCK : List RegRow := [
  ⟨"LOCK_PART", 0x050000, 0x4, 32, 1, true, [Fld.LOCK_PART_ENABLE, Fld.LOCK_PART_PART]⟩,
  ⟨"LOCK_ORPHAN_CNT", 0x050080, 0x0, 1, 1, true, [Fld.LOCK_ORPHAN_CNT_CNT]⟩,
  ⟨"LOCK_DENIED_CNT", 0x050084, 0x0, 1, 1, true, [Fld.LOCK_DENIED_CNT_CNT]⟩,
  ⟨"LOCK_BUSY_CNT", 0x050088, 0x0, 1, 1, true, [Fld.LOCK_BUSY_CNT_CNT]⟩,
  ⟨"LOCK_TIMEOUT_CNT", 0x05008C, 0x0, 1, 1, true, [Fld.LOCK_TIMEOUT_CNT_CNT]⟩,
  ⟨"LOCK_INSPECT_SEL", 0x050090, 0x0, 1, 1, true, [Fld.LOCK_INSPECT_SEL_LOCK_ID]⟩,
  ⟨"LOCK_INSPECT", 0x050094, 0x0, 1, 2, true, [Fld.LOCK_INSPECT_OWNER_EPOCH, Fld.LOCK_INSPECT_OWNER_PART, Fld.LOCK_INSPECT_OWNER_UNIT, Fld.LOCK_INSPECT_OWNER_CTX, Fld.LOCK_INSPECT_WAITERS, Fld.LOCK_INSPECT_STATE]⟩]
/-- Registers of the XLU block (block code 0x6). -/
def regsXLU : List RegRow := [
  ⟨"XLU_MISS_CNT", 0x060000, 0x0, 1, 1, true, [Fld.XLU_MISS_CNT_CNT]⟩,
  ⟨"XLU_MISS_INFLIGHT_MAX", 0x060004, 0x0, 1, 1, true, [Fld.XLU_MISS_INFLIGHT_MAX_MAX]⟩,
  ⟨"XLU_MISS_LAT_MAX", 0x060008, 0x0, 1, 1, true, [Fld.XLU_MISS_LAT_MAX_NS]⟩,
  ⟨"XLU_MERGE_CNT", 0x06000C, 0x0, 1, 1, true, [Fld.XLU_MERGE_CNT_CNT]⟩,
  ⟨"XLU_MERGE_REFUSED_CNT", 0x060010, 0x0, 1, 1, true, [Fld.XLU_MERGE_REFUSED_CNT_CNT]⟩,
  ⟨"XLU_REFAULT_CNT", 0x060014, 0x0, 1, 1, true, [Fld.XLU_REFAULT_CNT_CNT]⟩,
  ⟨"XLU_LINE_DENIED_CNT", 0x060018, 0x0, 1, 1, true, [Fld.XLU_LINE_DENIED_CNT_CNT]⟩,
  ⟨"XLU_WALK_ERR_CNT", 0x06001C, 0x0, 1, 1, true, [Fld.XLU_WALK_ERR_CNT_CNT]⟩,
  ⟨"XLU_LINE_SEL", 0x060020, 0x0, 1, 1, true, [Fld.XLU_LINE_SEL_KIND, Fld.XLU_LINE_SEL_TARGET, Fld.XLU_LINE_SEL_GRANULE]⟩,
  ⟨"XLU_LINE_READ", 0x060024, 0x0, 1, 1, true, [Fld.XLU_LINE_READ_WRITE, Fld.XLU_LINE_READ_READ]⟩,
  ⟨"XLU_FQ_BASE", 0x060100, 0x80, 8, 2, false, [Fld.XLU_FQ_BASE_BASE]⟩,
  ⟨"XLU_FQ_HEAD", 0x060108, 0x80, 8, 1, false, [Fld.XLU_FQ_HEAD_HEAD]⟩,
  ⟨"XLU_FQ_TAIL", 0x06010C, 0x80, 8, 1, false, [Fld.XLU_FQ_TAIL_TAIL]⟩,
  ⟨"XLU_FQ_STATUS", 0x060110, 0x80, 8, 1, false, [Fld.XLU_FQ_STATUS_HELD, Fld.XLU_FQ_STATUS_LAST_RESUME, Fld.XLU_FQ_STATUS_PENDING, Fld.XLU_FQ_STATUS_FAULTQ_FULL]⟩,
  ⟨"XLU_FQ_OVF", 0x060114, 0x80, 8, 1, false, [Fld.XLU_FQ_OVF_CNT]⟩,
  ⟨"XLU_FQ_RESUME", 0x060118, 0x80, 8, 1, false, [Fld.XLU_FQ_RESUME_ACTION, Fld.XLU_FQ_RESUME_FAULT_ID]⟩,
  ⟨"XLU_FQ_HOLD_MS", 0x06011C, 0x80, 8, 1, true, [Fld.XLU_FQ_HOLD_MS_MS]⟩,
  ⟨"XLU_INV_ADDR", 0x060120, 0x80, 8, 2, false, [Fld.XLU_INV_ADDR_ADDR]⟩,
  ⟨"XLU_INV_LEN", 0x060128, 0x80, 8, 2, false, [Fld.XLU_INV_LEN_LEN]⟩,
  ⟨"XLU_INV_CMD", 0x060130, 0x80, 8, 1, false, [Fld.XLU_INV_CMD_CONTEXT, Fld.XLU_INV_CMD_KIND]⟩,
  ⟨"XLU_INV_STATUS", 0x060134, 0x80, 8, 1, false, [Fld.XLU_INV_STATUS_PENDING, Fld.XLU_INV_STATUS_LAST_STATUS, Fld.XLU_INV_STATUS_DONE_SEQ]⟩,
  ⟨"XLU_S2_CFG", 0x060138, 0x80, 8, 1, true, [Fld.XLU_S2_CFG_ENABLE, Fld.XLU_S2_CFG_COUNT, Fld.XLU_S2_CFG_FORMAT]⟩,
  ⟨"XLU_S2_BASE", 0x060140, 0x80, 8, 2, true, [Fld.XLU_S2_BASE_BASE]⟩,
  ⟨"XLU_CTX_CFG", 0x061000, 0x10, 256, 1, false, [Fld.XLU_CTX_CFG_PART, Fld.XLU_CTX_CFG_COUNT, Fld.XLU_CTX_CFG_FORMAT]⟩,
  ⟨"XLU_CTX_S1_BASE", 0x061004, 0x10, 256, 2, false, [Fld.XLU_CTX_S1_BASE_BASE]⟩,
  ⟨"XLU_CTX_STATE", 0x06100C, 0x10, 256, 1, false, [Fld.XLU_CTX_STATE_RELEASE, Fld.XLU_CTX_STATE_FAULTS, Fld.XLU_CTX_STATE_STATE]⟩]
/-- Registers of the SCL block (block code 0x8). -/
def regsSCL : List RegRow := [
  ⟨"SCL_STATUS", 0x080000, 0x1000, 16, 1, true, [Fld.SCL_STATUS_TASK_ID, Fld.SCL_STATUS_READY, Fld.SCL_STATUS_STATE]⟩,
  ⟨"SCL_FPX", 0x080004, 0x1000, 16, 1, true, [Fld.SCL_FPX_NX, Fld.SCL_FPX_UF, Fld.SCL_FPX_OF, Fld.SCL_FPX_NV, Fld.SCL_FPX_SAT]⟩,
  ⟨"SCL_STEPS", 0x080008, 0x1000, 16, 2, true, [Fld.SCL_STEPS_CNT]⟩,
  ⟨"SCL_RESTART_CNT", 0x080010, 0x1000, 16, 1, true, [Fld.SCL_RESTART_CNT_CNT]⟩,
  ⟨"SCL_TASK_FAIL_CNT", 0x080014, 0x1000, 16, 1, true, [Fld.SCL_TASK_FAIL_CNT_CNT]⟩,
  ⟨"SCL_LATE_CNT", 0x080018, 0x1000, 16, 1, true, [Fld.SCL_LATE_CNT_CNT]⟩,
  ⟨"SCL_READY_FULL_CNT", 0x08001C, 0x1000, 16, 1, true, [Fld.SCL_READY_FULL_CNT_CNT]⟩,
  ⟨"SCL_WDOG_CNT", 0x080020, 0x1000, 16, 1, true, [Fld.SCL_WDOG_CNT_CNT]⟩,
  ⟨"SCL_RESTART_MAX", 0x080024, 0x1000, 16, 1, true, [Fld.SCL_RESTART_MAX_MAX]⟩,
  ⟨"SCL_SWITCH_CNT", 0x080028, 0x1000, 16, 1, true, [Fld.SCL_SWITCH_CNT_CNT]⟩]
/-- Registers of the SLD block (block code 0xA). -/
def regsSLD : List RegRow := [
  ⟨"SLD_DESC", 0x0A0000, 0x80, 72, 2, false, [Fld.SLD_DESC_DESC]⟩,
  ⟨"SLD_CTRL", 0x0A0008, 0x80, 72, 1, false, [Fld.SLD_CTRL_CTX, Fld.SLD_CTRL_ABORT, Fld.SLD_CTRL_START]⟩,
  ⟨"SLD_STATE", 0x0A000C, 0x80, 72, 1, false, [Fld.SLD_STATE_STATUS, Fld.SLD_STATE_STATE]⟩,
  ⟨"SLD_BYTES", 0x0A0010, 0x80, 72, 2, false, [Fld.SLD_BYTES_BYTES]⟩,
  ⟨"SLD_BURST_CNT", 0x0A0018, 0x80, 72, 1, true, [Fld.SLD_BURST_CNT_CNT]⟩,
  ⟨"SLD_FAULT_CNT", 0x0A001C, 0x80, 72, 1, true, [Fld.SLD_FAULT_CNT_CNT]⟩]
/-- Registers of the CATCH block (block code 0xC). -/
def regsCATCH : List RegRow := [
  ⟨"CATCH_GOV_CFG", 0x0C0000, 0x0, 1, 1, true, [Fld.CATCH_GOV_CFG_WINDOW_LOG2, Fld.CATCH_GOV_CFG_PLAN_PERMILLE]⟩,
  ⟨"CATCH_DEV_ENERGY", 0x0C0008, 0x0, 1, 2, true, [Fld.CATCH_DEV_ENERGY_NJ]⟩,
  ⟨"CATCH_CTRL", 0x0C0100, 0x20, 16, 1, true, [Fld.CATCH_CTRL_ESC_LOCK, Fld.CATCH_CTRL_AGGR_MAX]⟩,
  ⟨"CATCH_STATE", 0x0C0104, 0x20, 16, 1, true, [Fld.CATCH_STATE_VSO_MV, Fld.CATCH_STATE_DATA_MV, Fld.CATCH_STATE_A]⟩,
  ⟨"CATCH_VME", 0x0C0108, 0x20, 16, 1, true, [Fld.CATCH_VME_VME_MV]⟩,
  ⟨"CATCH_ERR_CNT", 0x0C010C, 0x20, 16, 1, true, [Fld.CATCH_ERR_CNT_CNT]⟩,
  ⟨"CATCH_ESC_CNT", 0x0C0110, 0x20, 16, 1, true, [Fld.CATCH_ESC_CNT_CNT]⟩,
  ⟨"CATCH_ENERGY", 0x0C0118, 0x20, 16, 2, true, [Fld.CATCH_ENERGY_NJ]⟩,
  ⟨"CATCH_DE_PIX", 0x0C0400, 0x10, 2, 2, true, [Fld.CATCH_DE_PIX_CNT]⟩,
  ⟨"CATCH_REUSE_CFG", 0x0C1000, 0x40, 64, 1, false, [Fld.CATCH_REUSE_CFG_AGE_MAX, Fld.CATCH_REUSE_CFG_MODE]⟩,
  ⟨"CATCH_BAND", 0x0C1004, 0x40, 64, 1, false, [Fld.CATCH_BAND_T_MAX, Fld.CATCH_BAND_T_MIN]⟩,
  ⟨"CATCH_FRAME", 0x0C1008, 0x40, 64, 1, false, [Fld.CATCH_FRAME_CHANGED, Fld.CATCH_FRAME_K, Fld.CATCH_FRAME_ALL]⟩,
  ⟨"CATCH_THRESH", 0x0C100C, 0x40, 64, 1, false, [Fld.CATCH_THRESH_T]⟩,
  ⟨"CATCH_FRAME_ENERGY", 0x0C1010, 0x40, 64, 1, false, [Fld.CATCH_FRAME_ENERGY_NJ]⟩,
  ⟨"CATCH_LANE_ENERGY", 0x0C1018, 0x40, 64, 2, false, [Fld.CATCH_LANE_ENERGY_NJ]⟩,
  ⟨"CATCH_OVERRUN_CNT", 0x0C1020, 0x40, 64, 1, false, [Fld.CATCH_OVERRUN_CNT_CNT]⟩]
/-- Registers of the PWR block (block code 0x2). -/
def regsPWR : List RegRow := [
  ⟨"PWR_STATE", 0x020000, 0x4, 3, 1, true, [Fld.PWR_STATE_ON]⟩,
  ⟨"PWR_REQ", 0x020010, 0x0, 1, 1, true, [Fld.PWR_REQ_ACTION, Fld.PWR_REQ_DOMAIN]⟩,
  ⟨"PWR_REQ_STATUS", 0x020014, 0x0, 1, 1, true, [Fld.PWR_REQ_STATUS_PENDING, Fld.PWR_REQ_STATUS_DOMAIN, Fld.PWR_REQ_STATUS_STATUS]⟩,
  ⟨"PWR_PIN", 0x020020, 0x4, 3, 1, true, [Fld.PWR_PIN_PINNED]⟩,
  ⟨"PWR_WAKE_CNT", 0x020030, 0x0, 1, 1, true, [Fld.PWR_WAKE_CNT_CNT]⟩]
/-- Registers of the LANE block (block code 0x10). -/
def regsLANE : List RegRow := [
  ⟨"LANE_STATUS", 0x100000, 0x400, 64, 1, false, [Fld.LANE_STATUS_REFUSE_CHECK, Fld.LANE_STATUS_TFLAGS, Fld.LANE_STATUS_SHED, Fld.LANE_STATUS_STATE]⟩,
  ⟨"LANE_CFG", 0x100004, 0x400, 64, 1, false, [Fld.LANE_CFG_SITE, Fld.LANE_CFG_PORT, Fld.LANE_CFG_DIE, Fld.LANE_CFG_HOME, Fld.LANE_CFG_PRIORITY, Fld.LANE_CFG_CLASS, Fld.LANE_CFG_KIND]⟩,
  ⟨"LANE_REPORT_MASK", 0x100008, 0x400, 64, 1, false, [Fld.LANE_REPORT_MASK_MASK]⟩,
  ⟨"LANE_LEVEL_NOV", 0x10000C, 0x400, 64, 1, false, [Fld.LANE_LEVEL_NOV_LEVEL]⟩,
  ⟨"LANE_LEVEL_ALM", 0x100010, 0x400, 64, 1, false, [Fld.LANE_LEVEL_ALM_LEVEL]⟩,
  ⟨"LANE_LEVEL_CLR", 0x100014, 0x400, 64, 1, false, [Fld.LANE_LEVEL_CLR_LEVEL]⟩,
  ⟨"LANE_TIMING", 0x100018, 0x400, 64, 1, false, [Fld.LANE_TIMING_TEACH_S, Fld.LANE_TIMING_HOLD_MS]⟩,
  ⟨"LANE_RX_CNT", 0x10001C, 0x400, 64, 1, false, [Fld.LANE_RX_CNT_CNT]⟩,
  ⟨"LANE_SHED_CNT", 0x100020, 0x400, 64, 1, false, [Fld.LANE_SHED_CNT_CNT]⟩,
  ⟨"LANE_LOST_CNT", 0x100024, 0x400, 64, 1, false, [Fld.LANE_LOST_CNT_CNT]⟩,
  ⟨"LANE_GAP_CNT", 0x100028, 0x400, 64, 1, false, [Fld.LANE_GAP_CNT_CNT]⟩,
  ⟨"LANE_EXCESS_CNT", 0x10002C, 0x400, 64, 1, false, [Fld.LANE_EXCESS_CNT_CNT]⟩,
  ⟨"LANE_PKT_LOST_CNT", 0x100030, 0x400, 64, 1, false, [Fld.LANE_PKT_LOST_CNT_CNT]⟩,
  ⟨"LANE_LAST_TIME", 0x100038, 0x400, 64, 2, false, [Fld.LANE_LAST_TIME_TIME]⟩,
  ⟨"LANE_SRC_INFO", 0x100040, 0x400, 64, 1, false, [Fld.LANE_SRC_INFO_INFO]⟩,
  ⟨"LANE_NODE_SERIAL", 0x100048, 0x400, 64, 2, false, [Fld.LANE_NODE_SERIAL_SERIAL]⟩,
  ⟨"LANE_CHARGE", 0x100050, 0x400, 64, 1, false, [Fld.LANE_CHARGE_MBPS]⟩,
  ⟨"LANE_STACK_D", 0x110000, 0x10, 4, 1, true, [Fld.LANE_STACK_D_MBPS]⟩,
  ⟨"LANE_STACK_DEMAND", 0x110004, 0x10, 4, 1, true, [Fld.LANE_STACK_DEMAND_MBPS]⟩,
  ⟨"LANE_STACK_STEPS", 0x110008, 0x10, 4, 1, true, [Fld.LANE_STACK_STEPS_HALVED, Fld.LANE_STACK_STEPS_TARGET, Fld.LANE_STACK_STEPS_STEPS]⟩]
/-- Registers of the NET block (block code 0x19). -/
def regsNET : List RegRow := [
  ⟨"NET_PTP_STATUS", 0x190000, 0x0, 1, 1, true, [Fld.NET_PTP_STATUS_CLOCK_CLASS, Fld.NET_PTP_STATUS_DOMAIN, Fld.NET_PTP_STATUS_SYNC, Fld.NET_PTP_STATUS_STATE]⟩,
  ⟨"NET_PTP_OFFSET", 0x190004, 0x0, 1, 1, true, [Fld.NET_PTP_OFFSET_NS]⟩,
  ⟨"NET_PTP_HOLD_CNT", 0x190008, 0x0, 1, 1, true, [Fld.NET_PTP_HOLD_CNT_CNT]⟩,
  ⟨"NET_UTC_OFFSET", 0x19000C, 0x0, 1, 1, true, [Fld.NET_UTC_OFFSET_S]⟩,
  ⟨"NET_T1S_STATUS", 0x190010, 0x4, 3, 1, true, [Fld.NET_T1S_STATUS_SEGS]⟩,
  ⟨"NET_T1S_BAD_CNT", 0x19001C, 0x0, 1, 1, true, [Fld.NET_T1S_BAD_CNT_CNT]⟩,
  ⟨"NET_DROP_CNT", 0x190020, 0x0, 1, 1, true, [Fld.NET_DROP_CNT_CNT]⟩]
/-- Registers of the LRN block (block code 0x12). -/
def regsLRN : List RegRow := [
  ⟨"LRN_STATUS", 0x120000, 0x80, 2, 1, true, [Fld.LRN_STATUS_POPS, Fld.LRN_STATUS_STATE]⟩,
  ⟨"LRN_EVENTS", 0x120008, 0x80, 2, 2, true, [Fld.LRN_EVENTS_CNT]⟩,
  ⟨"LRN_FAST_USED", 0x120010, 0x80, 2, 1, true, [Fld.LRN_FAST_USED_CNT]⟩,
  ⟨"LRN_SPILL_USED", 0x120014, 0x80, 2, 1, true, [Fld.LRN_SPILL_USED_CNT]⟩,
  ⟨"LRN_CREATE_CNT", 0x120018, 0x80, 2, 1, true, [Fld.LRN_CREATE_CNT_CNT]⟩,
  ⟨"LRN_PRUNE_CNT", 0x12001C, 0x80, 2, 1, true, [Fld.LRN_PRUNE_CNT_CNT]⟩,
  ⟨"LRN_CREATE_REFUSED_CNT", 0x120020, 0x80, 2, 1, true, [Fld.LRN_CREATE_REFUSED_CNT_CNT]⟩,
  ⟨"LRN_RENORM_CNT", 0x120024, 0x80, 2, 1, true, [Fld.LRN_RENORM_CNT_CNT]⟩,
  ⟨"LRN_DLY_OVF_CNT", 0x120028, 0x80, 2, 1, true, [Fld.LRN_DLY_OVF_CNT_CNT]⟩,
  ⟨"LRN_POISON_CNT", 0x12002C, 0x80, 2, 1, true, [Fld.LRN_POISON_CNT_CNT]⟩,
  ⟨"LRN_BADEV_CNT", 0x120030, 0x80, 2, 1, true, [Fld.LRN_BADEV_CNT_CNT]⟩,
  ⟨"LRN_NAN_CNT", 0x120034, 0x80, 2, 1, true, [Fld.LRN_NAN_CNT_CNT]⟩,
  ⟨"LRN_SPILL_ERR_CNT", 0x120038, 0x80, 2, 1, true, [Fld.LRN_SPILL_ERR_CNT_CNT]⟩,
  ⟨"LRN_DLY_STEP_CNT", 0x12003C, 0x80, 2, 1, true, [Fld.LRN_DLY_STEP_CNT_CNT]⟩,
  ⟨"LRN_POP_SEL", 0x120100, 0x0, 1, 1, true, [Fld.LRN_POP_SEL_ENGINE, Fld.LRN_POP_SEL_POP]⟩,
  ⟨"LRN_POP_FAST", 0x120104, 0x0, 1, 1, true, [Fld.LRN_POP_FAST_CNT]⟩,
  ⟨"LRN_POP_SPILL", 0x120108, 0x0, 1, 1, true, [Fld.LRN_POP_SPILL_CNT]⟩,
  ⟨"LRN_POP_CTRL", 0x12010C, 0x0, 1, 1, true, [Fld.LRN_POP_CTRL_LANE_FROZEN, Fld.LRN_POP_CTRL_FREEZE]⟩,
  ⟨"LRN_NOV_STATE", 0x120400, 0x20, 64, 1, false, [Fld.LRN_NOV_STATE_LEARN_FROZEN, Fld.LRN_NOV_STATE_HOLDING, Fld.LRN_NOV_STATE_ACKED, Fld.LRN_NOV_STATE_STATE]⟩,
  ⟨"LRN_SCORE", 0x120404, 0x20, 64, 1, false, [Fld.LRN_SCORE_S]⟩,
  ⟨"LRN_MOD", 0x120408, 0x20, 64, 1, false, [Fld.LRN_MOD_SECS, Fld.LRN_MOD_MARK, Fld.LRN_MOD_TEACH, Fld.LRN_MOD_M]⟩,
  ⟨"LRN_MOD_CMD", 0x12040C, 0x20, 64, 1, false, [Fld.LRN_MOD_CMD_CMD]⟩,
  ⟨"LRN_EV_CNT", 0x120410, 0x20, 64, 1, false, [Fld.LRN_EV_CNT_CNT]⟩,
  ⟨"LRN_EV_SKIP_CNT", 0x120414, 0x20, 64, 1, false, [Fld.LRN_EV_SKIP_CNT_CNT]⟩]
/-- Registers of the BH block (block code 0x14). -/
def regsBH : List RegRow := [
  ⟨"BH_WEAR_CFG", 0x140000, 0x0, 1, 1, true, [Fld.BH_WEAR_CFG_BUDGET]⟩,
  ⟨"BH_CMD", 0x140004, 0x0, 1, 1, true, [Fld.BH_CMD_ACTION, Fld.BH_CMD_POP]⟩,
  ⟨"BH_CMD_STATUS", 0x140008, 0x0, 1, 1, true, [Fld.BH_CMD_STATUS_PENDING, Fld.BH_CMD_STATUS_NOT_DIRTY, Fld.BH_CMD_STATUS_POP, Fld.BH_CMD_STATUS_STATUS]⟩,
  ⟨"BH_FREE", 0x140010, 0x20, 2, 1, true, [Fld.BH_FREE_FREE]⟩,
  ⟨"BH_WRITES_24H", 0x140014, 0x20, 2, 1, true, [Fld.BH_WRITES_24H_CNT]⟩,
  ⟨"BH_CE_CNT", 0x140018, 0x20, 2, 1, true, [Fld.BH_CE_CNT_CNT]⟩,
  ⟨"BH_UE_CNT", 0x14001C, 0x20, 2, 1, true, [Fld.BH_UE_CNT_CNT]⟩,
  ⟨"BH_DEFER_CNT", 0x140020, 0x20, 2, 1, true, [Fld.BH_DEFER_CNT_CNT]⟩,
  ⟨"BH_PF_CNT", 0x140024, 0x20, 2, 1, true, [Fld.BH_PF_CNT_CNT]⟩,
  ⟨"BH_SKIP_CNT", 0x140028, 0x20, 2, 1, true, [Fld.BH_SKIP_CNT_CNT]⟩,
  ⟨"BH_BAD", 0x140080, 0x4, 16, 1, true, [Fld.BH_BAD_BAD]⟩,
  ⟨"BH_CKPT", 0x140100, 0x4, 128, 1, true, [Fld.BH_CKPT_S]⟩,
  ⟨"BH_POP_STATUS", 0x140300, 0x4, 128, 1, true, [Fld.BH_POP_STATUS_SLOT_BLOCKS, Fld.BH_POP_STATUS_SUSPENDED, Fld.BH_POP_STATUS_TEACH_LOST, Fld.BH_POP_STATUS_DIRTY, Fld.BH_POP_STATUS_RESULT, Fld.BH_POP_STATUS_STATE]⟩,
  ⟨"BH_POP_LAST", 0x140500, 0x8, 128, 2, true, [Fld.BH_POP_LAST_T_PAUSE]⟩]
/-- Registers of the MDL block (block code 0x15). -/
def regsMDL : List RegRow := [
  ⟨"MDL_STATUS", 0x150000, 0x0, 1, 1, false, [Fld.MDL_STATUS_QUEUED, Fld.MDL_STATUS_BUSY]⟩,
  ⟨"MDL_LAST", 0x150004, 0x0, 1, 1, false, [Fld.MDL_LAST_CARRIED, Fld.MDL_LAST_SLOT, Fld.MDL_LAST_PROFILE, Fld.MDL_LAST_CHECK, Fld.MDL_LAST_STATUS]⟩,
  ⟨"MDL_LAST_ID", 0x150008, 0x0, 1, 1, false, [Fld.MDL_LAST_ID_ID]⟩,
  ⟨"MDL_REFUSED_CNT", 0x15000C, 0x0, 1, 1, true, [Fld.MDL_REFUSED_CNT_CNT]⟩,
  ⟨"MDL_REPLACE_CNT", 0x150010, 0x0, 1, 1, true, [Fld.MDL_REPLACE_CNT_CNT]⟩,
  ⟨"MDL_VEC_SEL", 0x150020, 0x0, 1, 1, false, [Fld.MDL_VEC_SEL_PROFILE, Fld.MDL_VEC_SEL_SOURCE, Fld.MDL_VEC_SEL_PART, Fld.MDL_VEC_SEL_COMP]⟩,
  ⟨"MDL_VEC", 0x150024, 0x0, 1, 2, false, [Fld.MDL_VEC_VALUE]⟩,
  ⟨"MDL_ID", 0x150100, 0x10, 32, 1, false, [Fld.MDL_ID_ID]⟩,
  ⟨"MDL_STATE", 0x150104, 0x10, 32, 1, false, [Fld.MDL_STATE_LANES, Fld.MDL_STATE_PART, Fld.MDL_STATE_PROFILE, Fld.MDL_STATE_STATE]⟩,
  ⟨"MDL_REV", 0x150108, 0x10, 32, 1, false, [Fld.MDL_REV_REV]⟩]
/-- Registers of the RPT block (block code 0x16). -/
def regsRPT : List RegRow := [
  ⟨"RPT_RING_BASE", 0x160000, 0x40, 8, 2, false, [Fld.RPT_RING_BASE_BASE]⟩,
  ⟨"RPT_RING_PROD", 0x160008, 0x40, 8, 1, false, [Fld.RPT_RING_PROD_PROD]⟩,
  ⟨"RPT_RING_CONS", 0x16000C, 0x40, 8, 1, false, [Fld.RPT_RING_CONS_CONS]⟩,
  ⟨"RPT_RING_SIZE", 0x160010, 0x40, 8, 1, false, [Fld.RPT_RING_SIZE_SIZE]⟩,
  ⟨"RPT_BACKLOG", 0x160014, 0x40, 8, 1, false, [Fld.RPT_BACKLOG_N]⟩,
  ⟨"RPT_DROP_CNT", 0x160018, 0x40, 8, 1, false, [Fld.RPT_DROP_CNT_CNT]⟩,
  ⟨"RPT_IRQ_US", 0x16001C, 0x40, 8, 1, false, [Fld.RPT_IRQ_US_US]⟩,
  ⟨"RPT_COL_CFG", 0x160400, 0x20, 4, 1, true, [Fld.RPT_COL_CFG_FLUSH_MS, Fld.RPT_COL_CFG_ACK_MODE]⟩,
  ⟨"RPT_COL_STATUS", 0x160404, 0x20, 4, 1, true, [Fld.RPT_COL_STATUS_UNACKED, Fld.RPT_COL_STATUS_DOWN, Fld.RPT_COL_STATUS_RESOLVED]⟩,
  ⟨"RPT_COL_DGRAM_CNT", 0x160408, 0x20, 4, 1, true, [Fld.RPT_COL_DGRAM_CNT_CNT]⟩,
  ⟨"RPT_COL_RETX_CNT", 0x16040C, 0x20, 4, 1, true, [Fld.RPT_COL_RETX_CNT_CNT]⟩,
  ⟨"RPT_COL_DUP_CNT", 0x160410, 0x20, 4, 1, true, [Fld.RPT_COL_DUP_CNT_CNT]⟩,
  ⟨"RPT_COL_LOST_CNT", 0x160414, 0x20, 4, 1, true, [Fld.RPT_COL_LOST_CNT_CNT]⟩,
  ⟨"RPT_NEXT_SEQ", 0x160800, 0x4, 64, 1, false, [Fld.RPT_NEXT_SEQ_SEQ]⟩]
/-- Registers of the HOST block (block code 0x17). -/
def regsHOST : List RegRow := [
  ⟨"HOST_MB_BASE", 0x170000, 0x40, 8, 2, false, [Fld.HOST_MB_BASE_BASE]⟩,
  ⟨"HOST_MB_CQ_BASE", 0x170008, 0x40, 8, 2, false, [Fld.HOST_MB_CQ_BASE_BASE]⟩,
  ⟨"HOST_MB_CFG", 0x170010, 0x40, 8, 1, false, [Fld.HOST_MB_CFG_FAULT, Fld.HOST_MB_CFG_ENABLE, Fld.HOST_MB_CFG_LOG2_CQ, Fld.HOST_MB_CFG_LOG2_CMD]⟩,
  ⟨"HOST_MB_TAIL", 0x170014, 0x40, 8, 1, false, [Fld.HOST_MB_TAIL_TAIL]⟩,
  ⟨"HOST_MB_HEAD", 0x170018, 0x40, 8, 1, false, [Fld.HOST_MB_HEAD_HEAD]⟩,
  ⟨"HOST_MB_CQ_HEAD", 0x17001C, 0x40, 8, 1, false, [Fld.HOST_MB_CQ_HEAD_CQ_HEAD]⟩,
  ⟨"HOST_MB_NEXT_SEQ", 0x170020, 0x40, 8, 1, false, [Fld.HOST_MB_NEXT_SEQ_SEQ]⟩,
  ⟨"HOST_MB_DUP_CNT", 0x170024, 0x40, 8, 1, false, [Fld.HOST_MB_DUP_CNT_CNT]⟩,
  ⟨"HOST_HB_LAST", 0x170028, 0x40, 8, 1, false, [Fld.HOST_HB_LAST_VALUE]⟩,
  ⟨"HOST_LINK_STATUS", 0x170400, 0x0, 1, 1, true, [Fld.HOST_LINK_STATUS_VFS, Fld.HOST_LINK_STATUS_WIDTH, Fld.HOST_LINK_STATUS_SPEED, Fld.HOST_LINK_STATUS_UP]⟩]
/-- Registers of the JL block (block code 0x18). -/
def regsJL : List RegRow := [
  ⟨"JL_STATUS", 0x180000, 0x40, 3, 1, true, [Fld.JL_STATUS_PARTNER_VALID, Fld.JL_STATUS_PARTNER, Fld.JL_STATUS_STATE]⟩,
  ⟨"JL_CRC_ERR_CNT", 0x180004, 0x40, 3, 1, true, [Fld.JL_CRC_ERR_CNT_CNT]⟩,
  ⟨"JL_REPLAY_CNT", 0x180008, 0x40, 3, 1, true, [Fld.JL_REPLAY_CNT_CNT]⟩,
  ⟨"JL_RETRAIN_CNT", 0x18000C, 0x40, 3, 1, true, [Fld.JL_RETRAIN_CNT_CNT]⟩,
  ⟨"JL_HOP_DROP_CNT", 0x180010, 0x40, 3, 1, true, [Fld.JL_HOP_DROP_CNT_CNT]⟩,
  ⟨"JL_TX_FLITS", 0x180018, 0x40, 3, 2, true, [Fld.JL_TX_FLITS_CNT]⟩,
  ⟨"JL_DUP_CNT", 0x180100, 0x0, 1, 1, true, [Fld.JL_DUP_CNT_CNT]⟩,
  ⟨"JL_STRAY_CNT", 0x180104, 0x0, 1, 1, true, [Fld.JL_STRAY_CNT_CNT]⟩,
  ⟨"JL_ROUTE_SEL", 0x180108, 0x0, 1, 1, true, [Fld.JL_ROUTE_SEL_DEST]⟩,
  ⟨"JL_ROUTE", 0x18010C, 0x0, 1, 1, true, [Fld.JL_ROUTE_NO_ROUTE, Fld.JL_ROUTE_PORT]⟩]
/-- Registers of the PNL block (block code 0x1A). -/
def regsPNL : List RegRow := [
  ⟨"PNL_PIN_CFG", 0x1A0000, 0x8, 24, 1, true, [Fld.PNL_PIN_CFG_ARG, Fld.PNL_PIN_CFG_INV, Fld.PNL_PIN_CFG_FUNC]⟩,
  ⟨"PNL_PIN_ARG2", 0x1A0004, 0x8, 24, 1, true, [Fld.PNL_PIN_ARG2_ARG2]⟩,
  ⟨"PNL_LEVEL", 0x1A0100, 0x0, 1, 1, true, [Fld.PNL_LEVEL_LEVEL]⟩,
  ⟨"PNL_PLUGGED", 0x1A0104, 0x0, 1, 1, true, [Fld.PNL_PLUGGED_PLUGGED]⟩,
  ⟨"PNL_FAULT", 0x1A0108, 0x0, 1, 1, true, [Fld.PNL_FAULT_FAULT]⟩,
  ⟨"PNL_SEL", 0x1A010C, 0x0, 1, 1, true, [Fld.PNL_SEL_NONE, Fld.PNL_SEL_LANE]⟩,
  ⟨"PNL_LED_SW", 0x1A0110, 0x0, 1, 1, true, [Fld.PNL_LED_SW_LED]⟩,
  ⟨"PNL_BUZZ_CTRL", 0x1A0114, 0x0, 1, 1, true, [Fld.PNL_BUZZ_CTRL_TEST, Fld.PNL_BUZZ_CTRL_SILENCE]⟩,
  ⟨"PNL_SENSE_SEL", 0x1A0118, 0x0, 1, 1, true, [Fld.PNL_SENSE_SEL_PIN]⟩,
  ⟨"PNL_SENSE", 0x1A011C, 0x0, 1, 1, true, [Fld.PNL_SENSE_BASELINE, Fld.PNL_SENSE_COUNT]⟩,
  ⟨"PNL_ACTION_CNT", 0x1A0120, 0x0, 1, 1, true, [Fld.PNL_ACTION_CNT_CNT]⟩,
  ⟨"PNL_PLUG_CNT", 0x1A0124, 0x0, 1, 1, true, [Fld.PNL_PLUG_CNT_CNT]⟩]
/-- Registers of the ERR block (block code 0x1B). -/
def regsERR : List RegRow := [
  ⟨"ERR_PROD", 0x1B0000, 0x40, 9, 1, false, [Fld.ERR_PROD_PROD]⟩,
  ⟨"ERR_CONS", 0x1B0004, 0x40, 9, 1, false, [Fld.ERR_CONS_CONS]⟩,
  ⟨"ERR_SEL", 0x1B0008, 0x40, 9, 1, false, [Fld.ERR_SEL_SEL]⟩,
  ⟨"ERR_OVF_CNT", 0x1B000C, 0x40, 9, 1, false, [Fld.ERR_OVF_CNT_CNT]⟩,
  ⟨"ERR_PART_STATE", 0x1B0010, 0x40, 8, 1, false, [Fld.ERR_PART_STATE_CAUSE, Fld.ERR_PART_STATE_STATE]⟩,
  ⟨"ERR_PART_CTRL", 0x1B0014, 0x40, 8, 1, true, [Fld.ERR_PART_CTRL_RESTART]⟩,
  ⟨"ERR_PART_CFG", 0x1B0018, 0x40, 8, 1, true, [Fld.ERR_PART_CFG_AUTO_S, Fld.ERR_PART_CFG_HB_ACTION, Fld.ERR_PART_CFG_HB_MS]⟩,
  ⟨"ERR_REC", 0x1B0020, 0x40, 9, 8, false, [Fld.ERR_REC_REC]⟩,
  ⟨"ERR_UNIT_CMD", 0x1B0240, 0x0, 1, 1, true, [Fld.ERR_UNIT_CMD_ACTION, Fld.ERR_UNIT_CMD_UNIT]⟩,
  ⟨"ERR_UNIT_STATUS", 0x1B0244, 0x0, 1, 1, true, [Fld.ERR_UNIT_STATUS_QUEUED, Fld.ERR_UNIT_STATUS_PENDING, Fld.ERR_UNIT_STATUS_UNIT, Fld.ERR_UNIT_STATUS_STATUS]⟩,
  ⟨"ERR_PATCH_ADDR", 0x1B0248, 0x0, 1, 2, true, [Fld.ERR_PATCH_ADDR_ADDR]⟩,
  ⟨"ERR_STALE_REQ_CNT", 0x1B0250, 0x0, 1, 1, true, [Fld.ERR_STALE_REQ_CNT_CNT]⟩,
  ⟨"ERR_STALE_RSP_CNT", 0x1B0254, 0x0, 1, 1, true, [Fld.ERR_STALE_RSP_CNT_CNT]⟩,
  ⟨"ERR_FATAL_CAUSE", 0x1B0258, 0x0, 1, 1, true, [Fld.ERR_FATAL_CAUSE_VALID, Fld.ERR_FATAL_CAUSE_RESTARTS, Fld.ERR_FATAL_CAUSE_CAUSE]⟩,
  ⟨"ERR_FATAL_HOLD", 0x1B025C, 0x0, 1, 1, true, [Fld.ERR_FATAL_HOLD_MS]⟩,
  ⟨"ERR_WD_CFG", 0x1B0260, 0x0, 1, 1, true, [Fld.ERR_WD_CFG_LATE_MULT]⟩,
  ⟨"ERR_RETIRED", 0x1B0264, 0x4, 3, 1, true, [Fld.ERR_RETIRED_UNITS]⟩,
  ⟨"ERR_EPOCH", 0x1B0400, 0x4, 71, 1, true, [Fld.ERR_EPOCH_RESETS, Fld.ERR_EPOCH_RETIRED, Fld.ERR_EPOCH_DOWN, Fld.ERR_EPOCH_EPOCH]⟩,
  ⟨"ERR_LANE_LATE_CNT", 0x1B0600, 0x4, 64, 1, false, [Fld.ERR_LANE_LATE_CNT_CNT]⟩,
  ⟨"ERR_LANE_END_CNT", 0x1B0700, 0x4, 64, 1, false, [Fld.ERR_LANE_END_CNT_CNT]⟩]
/-- Registers of the DBG block (block code 0x1C). -/
def regsDBG : List RegRow := [
  ⟨"DBG_SESSION", 0x1C0000, 0x0, 1, 1, true, [Fld.DBG_SESSION_LEVEL]⟩,
  ⟨"DBG_HALTED", 0x1C0004, 0x0, 1, 1, true, [Fld.DBG_HALTED_COX, Fld.DBG_HALTED_SCULLS]⟩,
  ⟨"DBG_BP_HIT_CNT", 0x1C0008, 0x0, 1, 1, true, [Fld.DBG_BP_HIT_CNT_CNT]⟩,
  ⟨"DBG_REASON", 0x1C0010, 0x4, 16, 1, true, [Fld.DBG_REASON_LANE, Fld.DBG_REASON_SLOT, Fld.DBG_REASON_REASON]⟩]
/-- Registers of the SEC block (block code 0x1D). -/
def regsSEC : List RegRow := [
  ⟨"SEC_LIFECYCLE", 0x1D0000, 0x0, 1, 1, false, [Fld.SEC_LIFECYCLE_RETIRE_F, Fld.SEC_LIFECYCLE_LOCKED_F, Fld.SEC_LIFECYCLE_LEVEL, Fld.SEC_LIFECYCLE_STATE]⟩,
  ⟨"SEC_ROOT_KEYS", 0x1D0004, 0x0, 1, 1, true, [Fld.SEC_ROOT_KEYS_REVOKED_NOW, Fld.SEC_ROOT_KEYS_KEY_IDX, Fld.SEC_ROOT_KEYS_SLOTS]⟩,
  ⟨"SEC_MODEL_KEYS", 0x1D0008, 0x0, 1, 1, true, [Fld.SEC_MODEL_KEYS_LOADED]⟩,
  ⟨"SEC_DBG_STATUS", 0x1D000C, 0x0, 1, 1, true, [Fld.SEC_DBG_STATUS_LOCKOUT_S, Fld.SEC_DBG_STATUS_FAILS]⟩,
  ⟨"SEC_SESSION_LEFT", 0x1D0010, 0x0, 1, 1, true, [Fld.SEC_SESSION_LEFT_S]⟩,
  ⟨"SEC_UVIEW_CNT", 0x1D0014, 0x0, 1, 1, true, [Fld.SEC_UVIEW_CNT_CNT]⟩,
  ⟨"SEC_DBG_FAIL_CNT", 0x1D0018, 0x0, 1, 1, true, [Fld.SEC_DBG_FAIL_CNT_CNT]⟩,
  ⟨"SEC_SESSION_CNT", 0x1D001C, 0x0, 1, 1, true, [Fld.SEC_SESSION_CNT_CNT]⟩]
/-- Every register row of the index, block by block (R628). -/
def regTable : List RegRow :=
  regsGLB ++ regsBOOT ++ regsFAB ++ regsMEM ++ regsLOCK ++ regsXLU ++ regsSCL ++ regsSLD ++ regsCATCH ++ regsPWR ++ regsLANE ++ regsNET ++ regsLRN ++ regsBH ++ regsMDL ++ regsRPT ++ regsHOST ++ regsJL ++ regsPNL ++ regsERR ++ regsDBG ++ regsSEC

end Sys2Proof.Machine
end

