-- ==== Sys2Proof/Machine/Ops.lean ====
section
/-!
DEFINITION. The named operations over registers, memory, interrupts, error rings and outputs that every meaning uses.
-/
namespace Sys2Proof.Machine

/-- A command begins: the outputs of the last one are gone. -/
def State.start (s : State) : State := { s with out := [] }

/-- Sends an output. -/
def State.emit (s : State) (o : Out) : State := { s with out := s.out ++ [o] }

/-- Writes a line to the J5 console (R652): it begins with device time in milliseconds. The console is silent while the Cox is halted (R618). -/
def State.console (s : State) (code value : Nat) : State :=
  if s.err.coxHalted then s else s.emit (.console (s.dev / 1000000) code value)

/-- The key of field `f` of the register with index `i`. -/
def RegField.key (f : RegField) (i : Nat) : Nat := (f.base + i * f.stride) * 64 + f.lo

/-- The value of a register field. -/
def State.get (s : State) (f : RegField) (i : Nat) : Nat := Tbl.get f.reset s.flds (f.key i)

/-- Sets a register field, cut to its width. -/
def State.put (s : State) (f : RegField) (i v : Nat) : State :=
  { s with flds := Tbl.set f.reset s.flds (f.key i) (v % 2 ^ f.width) }

/-- A counter rises by `n` and stops at its maximum (R133, R175, R226, R588). -/
def State.bump (s : State) (f : RegField) (i n : Nat) : State := s.put f i (satAdd f.width (s.get f i) n)

/-- A maximum register keeps the larger value. -/
def State.raise (s : State) (f : RegField) (i v : Nat) : State :=
  s.put f i (max (s.get f i) (min v (2 ^ f.width - 1)))

/-- A flag. -/
def State.flag (s : State) (f : RegField) (i : Nat) : Bool := s.get f i = 1

/-- The next free value, and the state that has used it (log entry 6). -/
def State.takeFree (s : State) : Nat × State := (Config.freeNat s.free, { s with free := s.free + 1 })

/-! ### Status codes (Table 16.2) -/

def stOK : Nat := 0x0
def stRETRY : Nat := 0x1
def stBUSY : Nat := 0x2
def stDOWN : Nat := 0x3
def stSTALE : Nat := 0x4
def stDENIED : Nat := 0x5
def stXLATE : Nat := 0x6
def stORPHAN : Nat := 0x7
def stREFUSED : Nat := 0x8
def stDUPLICATE : Nat := 0x9
def stECC : Nat := 0xA
def stCONFLICT : Nat := 0xB
def stUVIEW : Nat := 0xC
def stTIMEOUT : Nat := 0xD
def stABORTED : Nat := 0xE
def stPOISONED : Nat := 0xF

/-! ### Memory -/

/-- The local offset of a physical address (R26). -/
def localOff (a : Nat) : Nat := a % 2 ^ 44

/-- One byte of memory; an unlisted byte reads 0 (log entry 3). -/
def State.rdByte (s : State) (a : Nat) : Byte := Tbl.get 0 s.mem (localOff a)

/-- Writes one byte of memory. -/
def State.wrByte (s : State) (a : Nat) (v : Byte) : State := { s with mem := Tbl.set 0 s.mem (localOff a) v }

/-- `n` bytes from `a`. -/
def State.rdBytes (s : State) (a : Nat) : Nat → List Byte
  | 0 => []
  | n + 1 => s.rdByte a :: s.rdBytes (a + 1) n

/-- Writes bytes from `a` upward. -/
def State.wrBytes (s : State) (a : Nat) : List Byte → State
  | [] => s
  | b :: bs => (s.wrByte a b).wrBytes (a + 1) bs

/-- A little-endian number of `n` bytes at `a` (R6). -/
def State.rdNat (s : State) (a n : Nat) : Nat := leNat (s.rdBytes a n)

/-- Writes a little-endian number of `n` bytes. -/
def State.wrNat (s : State) (a n v : Nat) : State := s.wrBytes a (leBytes n v)

/-- The key of the 64-bit word at `a` (R168). -/
def wordKey (a : Nat) : Nat := localOff a / 8

/-- Whether the word at `a` is marked poisoned (R167, R168). -/
def State.poisoned (s : State) (a : Nat) : Bool := NatSet.has s.poison (wordKey a)

/-- Marks the word at `a` poisoned. -/
def State.setPoison (s : State) (a : Nat) : State := { s with poison := NatSet.add s.poison (wordKey a) }

/-- Clears the mark of the word at `a`. -/
def State.clrPoison (s : State) (a : Nat) : State := { s with poison := NatSet.del s.poison (wordKey a) }

/-- The poison mask of the line at `a` (R168). -/
def State.poisonMask (s : State) (a : Nat) : Nat :=
  (List.range 8).foldl (fun m i => m + (if s.poisoned (a + 8 * i) then 2 ^ i else 0)) 0

/-- Writes the masked bytes of a line, byte `i` of the mask first. -/
def State.wrMasked (s : State) (a mask : Nat) : List Byte → State
  | [] => s
  | b :: bs => (if mask % 2 = 1 then s.wrByte a b else s).wrMasked (a + 1) (mask / 2) bs

/-- The poison mark of word `i` after a masked write: a whole write takes the writer's mark, a partial write only adds
one (R168, R169). -/
def State.markWord (s : State) (a mask poison i : Nat) : State :=
  let whole := mask / 2 ^ (8 * i) % 256 = 255
  let some_ := mask / 2 ^ (8 * i) % 256 ≠ 0
  if bit poison i ∧ some_ then s.setPoison (a + 8 * i)
  else if whole then s.clrPoison (a + 8 * i) else s

/-- Writes the masked bytes of the aligned line at `a` with their poison marks (R168, R169). -/
def State.wrLine (s : State) (a mask : Nat) (bytes : List Byte) (poison : Nat) : State :=
  (List.range 8).foldl (fun s i => s.markWord a mask poison i) (s.wrMasked a mask bytes)

/-! ### Interrupts (R491) -/

/-- Raises MSI-X vector `v` of function `f`: it fires at most once per RPT_IRQ_US_f; a cause that meets a running interval
stays due. -/
def State.msix (s : State) (f v : Nat) : State :=
  let k := f * 8 + v
  let us := s.get Fld.RPT_IRQ_US_US f
  let free : Bool := match Tbl.get none s.host.irqAt k with
    | none => true
    | some t => decide (t + us * 1000 ≤ s.now)
  if free = true ∧ s.get Fld.HOST_LINK_STATUS_UP 0 = 1 then
    { s with out := s.out ++ [.msix f v],
             host := { s.host with irqAt := Tbl.set none s.host.irqAt k (some s.now), irqDue := NatSet.del s.host.irqDue k } }
  else { s with host := { s.host with irqDue := NatSet.add s.host.irqDue k } }

/-! ### Error rings (R555 to R559) -/

/-- The device ring. -/
def devRing : Nat := 8

/-- Whether ring `r` is full: 512 records stand between CONS and PROD (R557, R558). -/
def State.ringFull (s : State) (r : Nat) : Bool :=
  512 ≤ (s.get Fld.ERR_PROD_PROD r + 65536 - s.get Fld.ERR_CONS_CONS r) % 65536

/-- A record that finds its ring full is lost and counted (R558). -/
def State.loseRec (s : State) (r : Nat) : State :=
  let s := s.bump Fld.ERR_OVF_CNT_CNT r 1
  { s with err := { s.err with lost := Tbl.set 0 s.err.lost r (Tbl.get 0 s.err.lost r + 1) } }

/-- The record as it is written to ring `r`: sequence, time, and OVF with the count of the records lost before it (R555, R558). -/
def State.stampRec (s : State) (r : Nat) (e : ErrRec) : ErrRec :=
  let lost := Tbl.get 0 s.err.lost r
  { e with seq := Tbl.get 0 s.err.seq r % 2 ^ 32, time := s.dev, ovf := decide (lost ≠ 0),
           count := if lost ≠ 0 then min lost 65535 else e.count }

/-- The number of the place of ring `r` in the Cox's reserve. -/
def State.ringPlace (s : State) (r : Nat) : Nat := if (s.err.place.any fun kv => kv.1 = r) then Tbl.get 0 s.err.place r else r

/-- The local offset of ring `r` (R450, R557): DESIGN CHOICE (log entry 110), its place counted from the reserve at the top of the lowest stack that is up. -/
def State.ringAt (s : State) (r : Nat) : Nat :=
  let site := ((List.range 4).find? fun n => bit (s.get Fld.GLB_PRESENT_STACK_UP 0) n).getD 0
  site * 2 ^ 34 + 0x3C0000000 + s.ringPlace r % 65536 * 0x4000

/-- Whether the memory of record `k` of ring `r` answers POISONED (R585). -/
def State.ringPoisoned (s : State) (r k : Nat) : Bool :=
  (List.range 4).any fun i => s.poisoned (s.ringAt r + k % 512 * 32 + 8 * i)

/-- A record is lost with the memory of its ring, and the Cox moves the ring to another place in its reserve (R585). -/
def State.moveRing (s : State) (r : Nat) : State :=
  let s := s.loseRec r
  { s with err := { s.err with place := Tbl.set 0 s.err.place r s.err.places, places := s.err.places + 1 } }

/-- Writes one record to ring `r`, or loses it (R557 to R559, R585). -/
def State.ringWrite (s : State) (r : Nat) (e : ErrRec) : State :=
  if s.ringFull r then s.loseRec r
  else if s.ringPoisoned r (s.get Fld.ERR_PROD_PROD r) then s.moveRing r
  else
    let prod := s.get Fld.ERR_PROD_PROD r
    let s := { s with err := { s.err with
      recs := Tbl.set none s.err.recs (r * 512 + prod % 512) (some (s.stampRec r e)),
      seq := Tbl.set 0 s.err.seq r (Tbl.get 0 s.err.seq r + 1), lost := Tbl.set 0 s.err.lost r 0 } }
    let s := s.put Fld.ERR_PROD_PROD r (prod + 1)
    s.msix (if r < 8 then r else 0) 3

/-! ### Copies of lines, and the unit's own writes (R121, R169) -/

/-- The line number of an address. -/
def lineOf (a : Nat) : Nat := localOff a / 64

/-- The key of an agent's copy of a line. -/
def cacheKey (agent line : Nat) : Nat := agent * 2 ^ 42 + line

/-- The directory entry of a line. -/
def State.dirLine (s : State) (l : Nat) : DirLine := Tbl.get {} s.coh.dir l

/-- Sets a directory entry. -/
def State.setDir (s : State) (l : Nat) (d : DirLine) : State := { s with coh := { s.coh with dir := Tbl.set {} s.coh.dir l d } }

/-- The holders a directory entry lists. -/
def DirLine.holders (d : DirLine) : List Nat := (List.range 19).filter fun g => bit d.vec g

/-- Removes a holder. -/
def DirLine.drop (d : DirLine) (g : Nat) : DirLine :=
  let v := if bit d.vec g then d.vec - 2 ^ g else d.vec
  { x := d.x && v ≠ 0, vec := v }

/-- Whether a grant of the line to an agent is in flight, as AFTER_GRANT shows (R140). DESIGN CHOICE (log entry 105): by R140's words every holder that
has answered nothing since its grant would count, long after the grant arrived; Tables 4.5 and 4.6 and R145 have the flag clear there. -/
def State.afterGrant (s : State) (l g : Nat) : Bool := bit (Tbl.get 0 s.coh.granted l) g

/-- Notes or clears a grant in flight. -/
def State.setGranted (s : State) (l g : Nat) (on : Bool) : State :=
  let m := Tbl.get 0 s.coh.granted l
  let m' := if on ∧ !bit m g then m + 2 ^ g else if !on ∧ bit m g then m - 2 ^ g else m
  { s with coh := { s.coh with granted := Tbl.set 0 s.coh.granted l m' } }

/-- The copy an agent holds of a line. -/
def State.copy (s : State) (g l : Nat) : Option CacheLine := Tbl.get none s.coh.cache (cacheKey g l)

/-- Sets or drops a copy. -/
def State.setCopy (s : State) (g l : Nat) (c : Option CacheLine) : State :=
  { s with coh := { s.coh with cache := Tbl.set none s.coh.cache (cacheKey g l) c } }

/-- The modified copy of an agent that is on its way to the home. -/
def State.flightOf (s : State) (g l : Nat) : Option CacheLine := Tbl.get none s.coh.flight (cacheKey g l)

/-- Notes or clears data on its way home. -/
def State.setFlight (s : State) (g l : Nat) (c : Option CacheLine) : State :=
  { s with coh := { s.coh with flight := Tbl.set none s.coh.flight (cacheKey g l) c } }

/-- The bytes of a line written at the home since an agent's grant or data set out. -/
def State.overOf (s : State) (g l : Nat) : Nat := Tbl.get 0 s.coh.since (cacheKey g l)

/-- Sets the bytes written at the home meanwhile. -/
def State.setOver (s : State) (g l m : Nat) : State :=
  { s with coh := { s.coh with since := Tbl.set 0 s.coh.since (cacheKey g l) m } }

/-- The access an agent's outstanding request of a line will perform (R145). -/
def State.pendOf (s : State) (g l : Nat) : Option Pend := Tbl.get none s.coh.pend (cacheKey g l)

/-- Notes or clears an agent's outstanding request. -/
def State.setPend (s : State) (g l : Nat) (p : Option Pend) : State :=
  { s with coh := { s.coh with pend := Tbl.set none s.coh.pend (cacheKey g l) p } }

/-- An agent's eviction is on its way: the copy is gone, and what it held in M is in flight (R137). -/
def State.leave (s : State) (g l : Nat) : State :=
  match s.copy g l with
  | some c => (if c.st = .m then s.setFlight g l (some c) else s).setCopy g l none
  | none => s

/-- Merges a store into line bytes. -/
def mergeBytes : Nat → List Byte → List Byte → List Byte
  | _, [], _ => []
  | _, o, [] => o
  | m, o :: os, n :: ns => (if m % 2 = 1 then n else o) :: mergeBytes (m / 2) os ns

/-- The poison marks of a line after a masked store with no poison of its own (R168, R169). -/
def mergePoison (mask old new : Nat) : Nat :=
  (List.range 8).foldl (fun m i =>
    let b := mask / 2 ^ (8 * i) % 256
    m + (if b = 255 then b2n (bit new i) else if b = 0 then b2n (bit old i) else b2n (bit old i || bit new i)) * 2 ^ i) 0

/-- A line as an agent's data shows it, with the bytes written at the home since it set out (R121). -/
def State.current (s : State) (g l : Nat) (bytes : List Byte) (poison : Nat) : List Byte × Nat :=
  let m := s.overOf g l
  if m = 0 then (bytes, poison)
  else (mergeBytes m bytes (s.rdBytes (l * 64) 64), mergePoison m poison (s.poisonMask (l * 64)))

/-- Data of an agent arrives at the home and goes into memory, but for the bytes written there since (R121, R143). -/
def State.sink (s : State) (g l mask : Nat) (bytes : List Byte) (poison : Nat) : State :=
  let m := s.overOf g l
  (s.wrLine (l * 64) (mask - Nat.land mask m) bytes poison)

/-- A write ordered at the home meets the copies of its line: they go, a modified one into memory first (Table 4.3). Where a copy or a grant is in
flight, the bytes written stay the home's; an Upgrade whose Ack is in flight keeps its copy, which the write then reaches too. -/
def State.claim (s : State) (l mask : Nat) : State :=
  let d := s.dirLine l
  d.holders.foldl (fun s g =>
    let s := if (s.copy g l).isNone || (s.flightOf g l).isSome then s.setOver g l (Nat.lor (s.overOf g l) mask) else s
    match s.copy g l with
    | some c =>
      if d.x ∧ c.st = .s ∧ s.afterGrant l g then s
      else
        let s := if c.st = .m then s.wrLine (l * 64) (2 ^ 64 - 1) c.bytes c.poison else s
        (s.setCopy g l none).setDir l ((s.dirLine l).drop g)
    | none => s) s

/-- A write of the unit's own hardware to a line, with the effect of a WriteLine that its home orders now (R121, R125, R169; log entry 54). -/
def State.ownWrite (s : State) (a mask : Nat) (bytes : List Byte) (poison : Nat) : State :=
  let l := lineOf a
  let s := (s.claim l mask).wrLine (a / 64 * 64) mask bytes poison
  let new := fun (c : CacheLine) => { c with bytes := mergeBytes mask c.bytes bytes, poison := mergePoison mask c.poison poison }
  (s.dirLine l).holders.foldl (fun s g =>
    let s := match s.copy g l with
      | some c => s.setCopy g l (some (new c))
      | none => s
    match s.flightOf g l with
    | some c => s.setFlight g l (some (new c))
    | none => s) s

/-- Writes bytes from `a` upward, one line after another, as the unit's own WriteLines. -/
def State.ownBytes (s : State) (a : Nat) (bs : List Byte) : State :=
  if bs = [] then s
  else (rangeFrom (a / 64) ((a + bs.length - 1) / 64 + 1 - a / 64)).foldl (fun s l =>
    let i := max a (l * 64)
    let n := min (a + bs.length) (l * 64 + 64) - i
    let o := i - l * 64
    s.ownWrite (l * 64) ((2 ^ n - 1) * 2 ^ o) (List.replicate o 0 ++ (bs.drop (i - a)).take n) 0) s

/-- Writes a little-endian number of `n` bytes as the unit's own WriteLine. -/
def State.ownNat (s : State) (a n v : Nat) : State := s.ownBytes a (leBytes n v)

/-- The modified copy of a line's owner, in its cache or on its way home. -/
def State.dirty (s : State) (l : Nat) : Option CacheLine :=
  let d := s.dirLine l
  match (if d.x then d.holders.head? else none) with
  | some g => match s.copy g l with
    | some c => if c.st = .m then some c else none
    | none => s.flightOf g l
  | none => none

/-- A byte as every observer sees it: an owner's modified copy where one exists, else memory (R121, R134). -/
def State.coherentByte (s : State) (a : Nat) : Byte :=
  match s.dirty (lineOf a) with
  | some c => c.bytes.getD (localOff a % 64) 0
  | none => s.rdByte a

/-- A little-endian number of `n` bytes as every observer sees it. -/
def State.coherentNat (s : State) (a n : Nat) : Nat := leNat ((List.range n).map fun i => s.coherentByte (a + i))

/-- Whether the word at `a` is poisoned as every observer sees it (R168). -/
def State.coherentPoison (s : State) (a : Nat) : Bool :=
  match s.dirty (lineOf a) with
  | some c => bit c.poison (localOff a % 64 / 8)
  | none => s.poisoned a

/-! ### Ends of Slide transfers (R247, R255, R268, R271, R273) -/

/-- Bytes of a whole stream. -/
def Slide.total (x : Slide) : Nat := x.counts.foldl (· * ·) 1 * x.elem

/-- The indices of element `n` (R256): i0 fastest. -/
def elemIdx : List Nat → Nat → List Nat
  | [], _ => []
  | c :: cs, n => n % max c 1 :: elemIdx cs (n / max c 1)

/-- Stream bytes whose bursts are complete in stream order, published or not. -/
def Slide.completed (x : Slide) : Nat := x.done + ((x.bursts.takeWhile fun b => b.done).map (·.len)).foldl (· + ·) 0

/-- A transfer ends with ERROR and a status; its published prefix stays, the cursor names the first burst not completed, and bursts in flight are still
awaited. What a task's transfer has not published is never published (R247); another keeps the completed prefix that its halted Scull holds back
(R615). -/
def Slide.fail (x : Slide) (status : Nat) : Slide :=
  let kept := if x.byTask.isSome then [] else x.bursts.takeWhile fun b => b.done
  { x with st := 5, status := status, issued := x.completed, bursts := kept ++ x.bursts.filter fun b => b.sent && !b.done }

/-- The tasks bound to one context. -/
def State.tasksOfCtx (s : State) (c : Nat) : Nat :=
  (s.tasks.filter fun kv => match kv.2 with
    | some t => decide (t.ctx = c)
    | none => false).length

/-- Whether an engine's transfer is bound to a context: SYS_0 and SYS_1 use none (R179, R185). -/
def Slide.boundTo (x : Slide) (e c : Nat) : Bool := (x.st = 1 || x.st = 2 || x.st = 3) && x.ctx = c && e ≠ 64 && e ≠ 65

/-- Whether a task or a transfer is bound to a context (R185). -/
def State.ctxBound (s : State) (c : Nat) : Bool := s.tasksOfCtx c ≠ 0 || s.sld.any fun kv => kv.2.boundTo kv.1 c

/-- A context's state follows its bound tasks and transfers (R185). -/
def State.showCtx (s : State) (c : Nat) : State :=
  let st := s.get Fld.XLU_CTX_STATE_STATE c
  if st = 1 ∨ st = 2 then s.put Fld.XLU_CTX_STATE_STATE c (if s.ctxBound c then 2 else 1) else s

/-- Shows a Slide engine's state in its registers (R273), and the state of its context (R185). -/
def State.showSlide (s : State) (e : Nat) : State :=
  let x := Tbl.get {} s.sld e
  (((s.put Fld.SLD_STATE_STATE e x.st).put Fld.SLD_STATE_STATUS e x.status).put Fld.SLD_BYTES_BYTES e x.done).showCtx x.ctx

/-- Writes an engine's state to its registers and its descriptor's status words (Table 6.7), which lie in the descriptor's second line. -/
def State.writeStatus (s : State) (e : Nat) : State :=
  let x := Tbl.get {} s.sld e
  let idx := elemIdx x.counts (x.issued / max x.elem 1)
  let s := s.showSlide e
  if x.desc2 = 0 then s
  else
    let s := s.ownBytes (x.desc2 + 0x10) (leBytes 1 x.st ++ leBytes 1 x.status)
    let s := s.ownBytes (x.desc2 + 0x14) (((List.range 4).flatMap fun d => leBytes 2 (idx.getD d 0)) ++ leBytes 1 (x.issued % max x.elem 1))
    s.ownBytes (x.desc2 + 0x20) (leBytes 8 x.done ++ leBytes 8 x.faultAddr)

/-- Sets an engine's state and shows it everywhere. -/
def State.putSlide (s : State) (e : Nat) (x : Slide) : State := ({ s with sld := Tbl.set {} s.sld e x }).writeStatus e

/-- What stopped work waited for in the XLUs is no one's: its misses go, and it waits for no queued fault (R247). -/
def State.dropMissesOf (s : State) (p : Miss → Bool) : State :=
  { s with xlu := { s.xlu with
    misses := s.xlu.misses.filter fun (m : Miss) => !p m,
    faults := s.xlu.faults.map fun (f : FaultRec) => { f with waiters := f.waiters.filter fun (m : Miss) => !p m } } }

/-- Ends the transfer of engine `e` with ERROR and a status. -/
def State.endSlide (s : State) (e status : Nat) : State :=
  (s.putSlide e ((Tbl.get {} s.sld e).fail status)).dropMissesOf fun m => decide (m.work = .slide (Fin.ofNat 72 e))

/-- Ends every active transfer that satisfies `p` with ERROR and a status. -/
def State.failSlides (s : State) (p : Slide → Bool) (status : Nat) : State :=
  (List.range 72).foldl (fun s e =>
    let x := Tbl.get {} s.sld e
    if (x.st = 1 ∨ x.st = 2 ∨ x.st = 3) ∧ p x then s.endSlide e status else s) s

/-! ### Partition-fatal errors (R577, R578) -/

/-- Applies `f` to every entry of a table. -/
def Tbl.mapAll {α : Type} (f : Nat → α → α) (t : Tbl α) : Tbl α := t.map fun kv => (kv.1, f kv.1 kv.2)

/-- Keeps only the tasks that satisfy `p`, in the table and in the ready lists. -/
def State.keepTasks (s : State) (p : Task → Bool) : State :=
  let keep := fun (k : Nat) => match Tbl.get none s.tasks k with
    | some t => p t
    | none => true
  { s with tasks := s.tasks.filter fun kv => keep kv.1,
           ready := Tbl.mapAll (fun sc l => l.filter fun id => keep (sc * 65536 + id)) s.ready,
           heldReady := Tbl.mapAll (fun sc l => l.filter fun id => keep (sc * 65536 + id)) s.heldReady }

/-- Sets each Scull's tile entry to the partition whose tasks it holds (R455 rule 1). -/
def State.relineTiles (s : State) : State :=
  let part := fun (n : Nat) => s.tasks.findSome? fun kv => if kv.1 / 65536 = n then kv.2.map Task.part else none
  let one := fun (t : Tbl Nat) (n : Nat) => Tbl.set 0 t (2 * 2 ^ 24 + n * 2 ^ 16) (match part n with
    | some p => 2 ^ p + 2 ^ (8 + p)
    | none => 0)
  { s with xlu := { s.xlu with lining := (List.range 16).foldl one s.xlu.lining } }

/-- Shows a Scull's run state, running task and ready count (Table 6.9). -/
def State.showScull (s : State) (n : Nat) : State :=
  let sc := Tbl.get {} s.scl n
  let run := s.tasks.find? fun kv => match kv.2 with
    | some t => decide (kv.1 / 65536 = n) && (decide (t.st = .running) || decide (t.st = .committing))
    | none => false
  let on := bit (s.get Fld.PWR_STATE_ON (n / 32)) (n % 32)
  let st := if !on then 0 else if sc.halted then 3 else if run.isSome then 2 else 1
  let id := match run with
    | some kv => kv.1 % 65536
    | none => 0
  ((s.put Fld.SCL_STATUS_STATE n st).put Fld.SCL_STATUS_TASK_ID n id).put Fld.SCL_STATUS_READY n
    (Tbl.get [] s.ready n).length

/-- Moves a context to QUARANTINED, sends its context-fault notice and discards its holding word and shadow (R18, R161,
R213, R578). -/
def State.quarantineCtx (s : State) (c : Nat) : State :=
  let s := s.put Fld.XLU_CTX_STATE_STATE c 3
  { s with out := s.out ++ [.ctlCtxFault c],
           holds := s.holds.filter fun kv => !(decide (kv.1 < 2048) && decide (kv.1 / 8 = c)) }

/-- The contexts granted to a partition. -/
def State.ctxsOf (s : State) (p : Nat) : List Nat :=
  match Tbl.get none s.boot.parts p with
  | some c => rangeFrom c.ctxBase c.ctxCount
  | none => []

/-- A failure within 10 s of a restart is not retried automatically (R579). -/
def State.noteRepeat (s : State) (p : Nat) : State :=
  match Tbl.get none s.err.restartAt p with
  | some t =>
    if s.now < t + 10000000000 then { s with err := { s.err with noAuto := NatSet.add s.err.noAuto p } } else s
  | none => s

/-- The partition of a context. -/
def State.ctxPart (s : State) (c : Nat) : Nat := s.get Fld.XLU_CTX_CFG_PART c

/-- Faults held for a queue (R211). -/
def State.showHeld (s : State) (q : Nat) : State :=
  s.put Fld.XLU_FQ_STATUS_HELD q (s.xlu.misses.filter fun (m : Miss) => m.held && m.queue = q).length

/-- Unresolved fault entries of a context (Table 5.16). -/
def State.showFaults (s : State) (c : Nat) : State :=
  s.put Fld.XLU_CTX_STATE_FAULTS c (s.xlu.faults.filter fun (f : FaultRec) => f.ctx = c && f.st = 0).length

/-- A partition becomes partition-fatal (R577, R578): FAILED with its cause, one record to its ring and to the device ring,
tasks unbound, contexts quarantined, fault entries resolved ABORTED. Resources stay allocated; lanes write no entries while
the partition is FAILED. -/
def State.partFatal (s : State) (p status : Nat) : State :=
  let r : ErrRec := { cls := 2, status := status, part := p, block := 0x1B }
  let s := (s.ringWrite p r).ringWrite devRing r
  let s := (s.put Fld.ERR_PART_STATE_STATE p 1).put Fld.ERR_PART_STATE_CAUSE p status
  let s := ((s.failSlides (fun x => x.part == p) stABORTED).keepTasks (fun t => t.part ≠ p)).relineTiles
  let s := (s.ctxsOf p).foldl State.quarantineCtx s
  let s := { s with xlu := { s.xlu with
    faults := s.xlu.faults.map fun (f : FaultRec) => if f.queue = p ∧ f.st = 0 then { f with st := 2, waiters := [] } else f,
    misses := s.xlu.misses.filter fun (m : Miss) => !((s.ctxsOf p).contains m.ctx) } }
  let s := (s.ctxsOf p).foldl State.showFaults (((s.showHeld p).showHeld 0).noteRepeat p)
  (List.range 16).foldl State.showScull s

/-- A contained record of partition `p` counts towards its storm limit: the 64th within 1 s makes the partition
partition-fatal (R577). -/
def State.stormCount (s : State) (p status : Nat) : State :=
  let l := s.now :: (Tbl.get [] s.err.storm p).filter fun t => decide (s.now < t + 1000000000)
  let s := { s with err := { s.err with storm := Tbl.set [] s.err.storm p (l.take 64) } }
  if 64 ≤ l.length ∧ s.get Fld.ERR_PART_STATE_STATE p = 0 then
    ({ s with err := { s.err with storm := Tbl.set [] s.err.storm p [] } }).partFatal p status
  else s

/-- Writes an error record to the ring R556 names: the partition's, or the device ring. -/
def State.record (s : State) (e : ErrRec) : State :=
  if e.part < 8 then
    let written := !s.ringFull e.part
    let s := s.ringWrite e.part e
    if e.cls = 1 ∧ written then s.stormCount e.part e.status else s
  else s.ringWrite devRing e

/-- A corrected record (class 0) that names only a block and a status. -/
def recC (block status : Nat) : ErrRec := { cls := 0, status := status, block := block }

/-- A contained record (class 1) that names only a block and a status. -/
def recX (block status : Nat) : ErrRec := { cls := 1, status := status, block := block }

/-! ### Lanes, partitions and units -/

/-- The partition a lane belongs to (R78), as MDL and LANE show it: the lowest created partition whose LANE_MASK named it,
else 0; kept as ownership kind 9. -/
def State.lanePart (s : State) (l : Nat) : Nat :=
  match Tbl.get none s.boot.owners (9 * 4096 + l) with
  | some o => o.num
  | none => 0

/-- Whether a partition runs (R578). -/
def State.partRunning (s : State) (p : Nat) : Bool := s.get Fld.ERR_PART_STATE_STATE p = 0

/-- Whether the unit works on its lanes: in RUNNING, and until the rails drop after PWRFAIL (R641). -/
def State.alive (s : State) : Bool := s.boot.phase = .running || s.boot.phase = .powerFail

/-- Whether power domain `d` is on (Table 7.9). -/
def State.domOn (s : State) (d : Nat) : Bool := bit (s.get Fld.PWR_STATE_ON (d / 32)) (d % 32)

/-- Sets or clears a bit of a 32-bit bitmap register with index d / 32. -/
def State.putBit (s : State) (f : RegField) (d : Nat) (on : Bool) : State :=
  let w := s.get f (d / 32)
  let has := bit w (d % 32)
  s.put f (d / 32) (if on ∧ !has then w + 2 ^ (d % 32) else if !on ∧ has then w - 2 ^ (d % 32) else w)

/-- Sets or clears bit `b` of the field of register `i`. -/
def State.putBitAt (s : State) (f : RegField) (i b : Nat) (on : Bool) : State :=
  let w := s.get f i
  let has := bit w b
  s.put f i (if on ∧ !has then w + 2 ^ b else if !on ∧ has then w - 2 ^ b else w)

/-- The power domain of a unit (Table 14.1); 99 for the always-on units. -/
def unitDomain (u : Nat) : Nat :=
  if u ≤ 0x2F then u
  else if u ≤ 0x35 then u + 2
  else if u ≤ 0x43 then u + 3
  else if u = 0x46 then 71 else 99

/-- The unit of a power domain, 0xFF for Yokes and the Seam (R551). -/
def domainUnit (d : Nat) : Nat :=
  if d ≤ 47 then d else if 50 ≤ d ∧ d ≤ 55 then d - 2 else if 57 ≤ d ∧ d ≤ 70 then d - 3 else if d = 71 then 0x46 else 0xFF

/-- Whether a unit's site is fitted (Table 1.2, R36). -/
def State.unitFitted (s : State) (u : Nat) : Bool :=
  if 0x36 ≤ u ∧ u ≤ 0x39 then bit (s.get Fld.GLB_VARIANT_STACK_FIT 0) (u - 0x36)
  else if 0x3A ≤ u ∧ u ≤ 0x42 then bit (s.get Fld.GLB_VARIANT_IOD_FIT 0) ((u - 0x3A) / 3)
  else u ≤ 0x46

/-- The current epoch of a unit (R552). -/
def State.epoch (s : State) (u : Nat) : Nat := s.get Fld.ERR_EPOCH_EPOCH u

/-- The epoch of a unit as the targets know it from the broadcasts (R553). -/
def State.knownEpoch (s : State) (u : Nat) : Nat := Tbl.get 1 s.err.known u

/-- The half of a lane's home (R37) as LANE_CFG shows it. -/
def State.laneHalf (s : State) (l : Nat) : Nat := s.get Fld.LANE_CFG_HOME l

end Sys2Proof.Machine
end

