-- ==== Sys2Proof/Machine/Flags.lean ====
section
/-!
DEFINITION. Number formats and their flags: decoding and rounding (Tables 6.2 and 6.3, R233 to R237), the array's products and
sums (R235, R236), the lane operations of the vector unit (R238), and SCL_FPX (Table 6.10).
-/
namespace Sys2Proof

/-- Exponent width, mantissa width of a format. -/
def NumFmt.eb : NumFmt → Nat
  | .fp8 => 4
  | .fp16 => 5
  | _ => 8

/-- Mantissa bits of a floating-point format (Table 6.2). -/
def NumFmt.mb : NumFmt → Nat
  | .fp8 => 3
  | .fp16 => 10
  | .bf16 => 7
  | _ => 23

/-- Width in bits. -/
def NumFmt.width : NumFmt → Nat
  | .int4 => 4
  | .int8 => 8
  | .fp8 => 8
  | .int16 => 16
  | .fp16 => 16
  | .bf16 => 16
  | _ => 32

/-- Whether a format is floating-point. -/
def NumFmt.isFp : NumFmt → Bool
  | .fp8 => true
  | .fp16 => true
  | .bf16 => true
  | .fp32 => true
  | _ => false

/-- The exponent bias. -/
def NumFmt.bias (f : NumFmt) : Int := 2 ^ (f.eb - 1) - 1

/-- A number for each approximated function, for its free value. -/
def ApproxFn.code : ApproxFn → Nat
  | .recip => 0
  | .sqrt => 1
  | .rsqrt => 2
  | .exp2 => 3
  | .log2 => 4
  | .sin => 5
  | .cos => 6
  | .atan2 => 7

/-- The vector registers an operation reads. -/
def VecOp.reads : VecOp → List Nat
  | .int _ a b _ => [a, b]
  | .select c a b _ => [c, a, b]
  | .fp _ a b _ => [a, b]
  | .fma a b c _ => [a, b, c]
  | .conv _ _ a _ none => [a]
  | .conv _ _ a _ (some q) => [a, q.1, q.2]
  | .reduce _ a d => [a, d]
  | .approx .atan2 a b _ => [a, b]
  | .approx _ a _ _ => [a]
  | .load _ _ _ _ => []
  | .store a _ => [a]

/-- The vector register an operation writes. -/
def VecOp.writes : VecOp → Option Nat
  | .int _ _ _ d => some d
  | .select _ _ _ d => some d
  | .fp _ _ _ d => some d
  | .fma _ _ _ d => some d
  | .conv _ _ _ d _ => some d
  | .reduce _ _ d => some d
  | .approx _ _ _ d => some d
  | .load _ d _ _ => some d
  | .store _ _ => none

end Sys2Proof

namespace Sys2Proof.Machine

/-- The flags of SCL_FPX (Table 6.10). -/
structure Fpx where
  sat : Bool := false
  nv : Bool := false
  of_ : Bool := false
  uf : Bool := false
  nx : Bool := false
deriving DecidableEq, Repr

/-- Flags raised by either of two operations. -/
def Fpx.or (a b : Fpx) : Fpx :=
  ⟨a.sat || b.sat, a.nv || b.nv, a.of_ || b.of_, a.uf || b.uf, a.nx || b.nx⟩

/-- A floating-point value: (−1)^neg × m × 2^e, or a special. -/
inductive FpVal where
  | nan
  | inf (neg : Bool)
  | fin (neg : Bool) (m : Nat) (e : Int)
deriving DecidableEq, Repr

/-- Decodes a bit pattern (Table 6.2, R234: FP8 reads 0x7F and 0xFF as NaN and has no infinities). -/
def fpDecode (f : NumFmt) (x : Nat) : FpVal :=
  let mb := f.mb
  let m := x % 2 ^ mb
  let e := x / 2 ^ mb % 2 ^ f.eb
  let neg := bit x (mb + f.eb)
  let top := 2 ^ f.eb - 1
  if f = .fp8 ∧ e = top ∧ m = 7 then .nan
  else if f ≠ .fp8 ∧ e = top then (if m = 0 then .inf neg else .nan)
  else if e = 0 then .fin neg m (1 - f.bias - mb)
  else .fin neg (m + 2 ^ mb) ((e : Int) - f.bias - mb)

/-- The canonical NaN of a format (Table 6.3, R234, R237). -/
def fpNan : NumFmt → Nat
  | .fp8 => 0x7F
  | .fp16 => 0x7E00
  | .bf16 => 0x7FC0
  | _ => 0x7FC00000

/-- Division by a power of two, to nearest, ties to even, and whether it was exact. -/
def rneShift (m d : Nat) : Nat × Bool :=
  let q := m / 2 ^ d
  let r := m % 2 ^ d
  let h := 2 ^ d / 2
  (if r = 0 then q else if h < r ∨ (r = h ∧ q % 2 = 1) then q + 1 else q, r = 0)

/-- Rounds a value to a format, to nearest, ties to even, with the flags of Table 6.3. -/
def fpEncode (f : NumFmt) (v : FpVal) : Nat × Fpx :=
  let sgn := fun (n : Bool) => if n then 2 ^ (f.mb + f.eb) else 0
  let infPat := (2 ^ f.eb - 1) * 2 ^ f.mb
  match v with
  | .nan => (fpNan f, { nv := true })
  | .inf n => if f = .fp8 then (sgn n + 0x7E, { of_ := true }) else (sgn n + infPat, {})
  | .fin n m e =>
    if m = 0 then (sgn n, {})
    else
      let ee := max (e + Nat.log2 m) (1 - f.bias)
      let q := ee - f.mb
      let r := if q ≤ e then (m * 2 ^ (e - q).toNat, true) else rneShift m (q - e).toNat
      let pat := ((ee + f.bias - 1).toNat) * 2 ^ f.mb + r.1
      let fl : Fpx := { nx := !r.2, uf := r.1 = 0 }
      if f = .fp8 then
        (if 0x7E < pat then (sgn n + 0x7E, { fl with of_ := true }) else (sgn n + pat, fl))
      else if infPat ≤ pat then (sgn n + infPat, { fl with of_ := true }) else (sgn n + pat, fl)

/-- The exact sum of two values; opposite infinities and NaN give NaN. -/
def fpAddV (a b : FpVal) : FpVal :=
  match a, b with
  | .nan, _ => .nan
  | _, .nan => .nan
  | .inf n, .inf k => if n = k then .inf n else .nan
  | .inf n, _ => .inf n
  | _, .inf k => .inf k
  | .fin n m e, .fin k p g =>
    let c := min e g
    let x : Int := (if n then -1 else 1) * (m * 2 ^ (e - c).toNat : Nat)
    let y : Int := (if k then -1 else 1) * (p * 2 ^ (g - c).toNat : Nat)
    let z := x + y
    if z = 0 then .fin (n && k) 0 c else .fin (z < 0) z.natAbs c

/-- The exact product of two values. -/
def fpMulV (a b : FpVal) : FpVal :=
  match a, b with
  | .nan, _ => .nan
  | _, .nan => .nan
  | .inf n, .inf k => .inf (n != k)
  | .inf n, .fin k p _ => if p = 0 then .nan else .inf (n != k)
  | .fin n m _, .inf k => if m = 0 then .nan else .inf (n != k)
  | .fin n m e, .fin k p g => .fin (n != k) (m * p) (e + g)

/-- FP32 addition, rounded to nearest even (R236, R238). -/
def fp32Add (a b : Nat) : Nat := (fpEncode .fp32 (fpAddV (fpDecode .fp32 a) (fpDecode .fp32 b))).1

/-- FP32 multiplication. -/
def fp32Mul (a b : Nat) : Nat := (fpEncode .fp32 (fpMulV (fpDecode .fp32 a) (fpDecode .fp32 b))).1

/-- FP32 fused multiply-add. -/
def fp32Fma (a b c : Nat) : Nat :=
  (fpEncode .fp32 (fpAddV (fpMulV (fpDecode .fp32 a) (fpDecode .fp32 b)) (fpDecode .fp32 c))).1

/-- Comparison of values: less than; false on NaN. -/
def fpLt (a b : FpVal) : Bool :=
  match a, b with
  | .nan, _ => false
  | _, .nan => false
  | .inf n, .inf k => n && !k
  | .inf n, _ => n
  | _, .inf k => !k
  | .fin n m e, .fin k p g =>
    let c := min e g
    let x : Int := (if n then -1 else 1) * (m * 2 ^ (e - c).toNat : Nat)
    let y : Int := (if k then -1 else 1) * (p * 2 ^ (g - c).toNat : Nat)
    decide (x < y)

/-- FP32 equality as values (zeros of either sign are equal). -/
def fpEq (a b : FpVal) : Bool :=
  a ≠ .nan && b ≠ .nan && !fpLt a b && !fpLt b a

/-- The integer nearest to a value, ties to even, clamped to a range; NaN gives 0 (Table 6.3). -/
def fpToInt (w : Nat) (v : FpVal) : Int × Fpx :=
  let lo : Int := -(2 ^ (w - 1) : Nat)
  let hi : Int := (2 ^ (w - 1) : Nat) - 1
  match v with
  | .nan => (0, { nv := true })
  | .inf n => (if n then lo else hi, { sat := true })
  | .fin n m e =>
    let r := if 0 ≤ e then (m * 2 ^ e.toNat, true) else rneShift m (-e).toNat
    let x : Int := if n then -(r.1 : Int) else r.1
    if x < lo then (lo, { sat := true }) else if hi < x then (hi, { sat := true })
    else (x, { nx := !r.2, uf := r.1 = 0 && m ≠ 0 })

/-- Clamps an integer to `w` bits (R235, Table 6.3). -/
def intSat (w : Nat) (x : Int) : Int × Fpx :=
  let lo : Int := -(2 ^ (w - 1) : Nat)
  let hi : Int := (2 ^ (w - 1) : Nat) - 1
  if x < lo then (lo, { sat := true }) else if hi < x then (hi, { sat := true }) else (x, {})

/-- Converts a pattern between formats (Table 6.3). Patterns are zero-extended. -/
def convert (src dst : NumFmt) (x : Nat) : Nat × Fpx :=
  if src.isFp then
    if dst.isFp then
      let r := fpEncode dst (fpDecode src x)
      if src = .fp32 then r else (r.1, { nv := r.2.nv })
    else
      let r := fpToInt dst.width (fpDecode src x)
      (ofInt dst.width r.1, r.2)
  else
    let v := toInt src.width x
    if dst.isFp then
      let r := fpEncode dst (.fin (v < 0) v.natAbs 0)
      (r.1, { nx := r.2.nx, of_ := r.2.of_ })
    else
      let r := intSat dst.width v
      (ofInt dst.width r.1, r.2)

/-- A requantisation (Table 6.4): the operand times its lane's scale, divided by 2 to the power of its lane's shift (modulo 64), rounded once.
DESIGN CHOICE (log entry 108): the scale of an integer operand is a signed integer, that of a floating-point operand FP32. -/
def requantize (src dst : NumFmt) (x scale shift : Nat) : Nat × Fpx :=
  let v : FpVal :=
    if src.isFp then fpMulV (fpDecode src x) (fpDecode .fp32 scale)
    else
      let p := toInt src.width x * toInt 32 scale
      .fin (decide (p < 0)) p.natAbs 0
  let v := match v with
    | .fin n m e => FpVal.fin n m (e - (shift % 64 : Nat))
    | v => v
  if dst.isFp then fpEncode dst v
  else
    let r := fpToInt dst.width v
    (ofInt dst.width r.1, r.2)

/-- Raises flags in SCL_FPX of a Scull (Table 6.10). -/
def State.raiseFpx (s : State) (n : Nat) (f : Fpx) : State :=
  let set := fun (s : State) (fd : RegField) (b : Bool) => if b then s.put fd n 1 else s
  set (set (set (set (set s Fld.SCL_FPX_SAT f.sat) Fld.SCL_FPX_NV f.nv) Fld.SCL_FPX_OF f.of_) Fld.SCL_FPX_UF f.uf)
    Fld.SCL_FPX_NX f.nx

/-! ### The array (R230 to R236) -/

/-- The step times of an accepted operand pair (Table 6.1); `none` for any other pair (R231). -/
def stepCost : NumFmt → NumFmt → Option Nat
  | .int8, .int8 => some 1
  | .int8, .int4 => some 1
  | .int4, .int4 => some 1
  | .int16, .int8 => some 2
  | .int16, .int16 => some 4
  | .fp8, .fp8 => some 1
  | .fp16, .fp16 => some 2
  | .fp16, .fp8 => some 2
  | .bf16, .bf16 => some 2
  | .bf16, .fp8 => some 2
  | _, _ => none

/-- The FP32 result of an arithmetic operation on operands, with its flags (Table 6.10): a NaN consumed or produced, an overflow, an underflow to zero; NX is
for conversions alone. -/
def arith (args : List FpVal) (v : FpVal) : Nat × Fpx :=
  let r := fpEncode .fp32 v
  (r.1, { nv := decide (v = .nan) || args.any (· = .nan), of_ := r.2.of_, uf := r.2.uf })

/-- An FP32 sum with its flags. -/
def addLane (a b : Nat) : Nat × Fpx :=
  let x := fpDecode .fp32 a
  let y := fpDecode .fp32 b
  arith [x, y] (fpAddV x y)

/-- An FP32 product, rounded where a BF16 product leaves FP32's range (R236), with its flags. -/
def productFp (af wf : NumFmt) (a w : Nat) : Nat × Fpx :=
  let x := fpDecode af a
  let y := fpDecode wf w
  arith [x, y] (fpMulV x y)

/-- The fixed pairwise tree of FP32 sums (R236): one level. -/
def treeLevel : List (Nat × Fpx) → List (Nat × Fpx)
  | a :: b :: t =>
    let r := addLane a.1 b.1
    (r.1, (a.2.or b.2).or r.2) :: treeLevel t
  | l => l

/-- The seven levels of the tree. -/
def treeSum : Nat → List (Nat × Fpx) → Nat × Fpx
  | 0, l => l.headD (0, {})
  | n + 1, l => treeSum n (treeLevel l)

/-- One column's new accumulator: exact integer products and sums with INT32 saturation (R235), or the FP32 tree (R236). -/
def columnStep (op : ArrayOp) (weights : List Nat) (acc : Nat) : Nat × Fpx :=
  if op.aFmt.isFp then
    let t := treeSum 7 (List.zipWith (fun a w => productFp op.aFmt op.wFmt a w) op.acts weights)
    let r := addLane t.1 acc
    (r.1, t.2.or r.2)
  else
    let ps : List Int :=
      if op.aFmt = .int4 then
        List.zipWith (fun (i : Nat) w => toInt 4 (op.acts.getD (2 * i) 0) * toInt 4 (w % 16) +
          toInt 4 (op.acts.getD (2 * i + 1) 0) * toInt 4 (w / 16 % 16)) (List.range 128) weights
      else List.zipWith (fun a w => toInt op.aFmt.width a * toInt op.wFmt.width w) op.acts weights
    let r := intSat 32 (toInt 32 acc + ps.foldl (· + ·) 0)
    (ofInt 32 r.1, r.2)

/-! ### The vector unit (R238) -/

/-- An integer lane operation on 32-bit patterns. -/
def intLane (f : IntFn) (a b : Nat) : Nat :=
  let m := 2 ^ 32
  match f with
  | .add => (a + b) % m
  | .sub => (a + m - b % m) % m
  | .mulLow => a * b % m
  | .shl => a * 2 ^ (b % 32) % m
  | .shrLogic => a / 2 ^ (b % 32)
  | .shrArith => ofInt 32 (toInt 32 a / (2 ^ (b % 32) : Nat))
  | .and => Nat.land a b
  | .or => Nat.lor a b
  | .xor => Nat.xor a b
  | .minS => if toInt 32 a ≤ toInt 32 b then a else b
  | .maxS => if toInt 32 b ≤ toInt 32 a then a else b
  | .minU => min a b
  | .maxU => max a b
  | .cmpEq => if a = b then m - 1 else 0
  | .cmpLtS => if toInt 32 a < toInt 32 b then m - 1 else 0
  | .cmpLtU => if a < b then m - 1 else 0

/-- An FP32 lane operation on 32-bit patterns, with its flags. -/
def fpLane (f : FpFn) (a b : Nat) : Nat × Fpx :=
  let x := fpDecode .fp32 a
  let y := fpDecode .fp32 b
  let fl : Fpx := { nv := decide (x = .nan) || decide (y = .nan) }
  match f with
  | .add => addLane a b
  | .mul => arith [x, y] (fpMulV x y)
  | .min => (if fl.nv then fpNan .fp32 else if fpLt y x then b else a, fl)
  | .max => (if fl.nv then fpNan .fp32 else if fpLt x y then b else a, fl)
  | .cmpEq => (if fpEq x y then 2 ^ 32 - 1 else 0, fl)
  | .cmpLt => (if fpLt x y then 2 ^ 32 - 1 else 0, fl)

/-- An FP32 fused multiply-add lane, rounded once, with its flags. -/
def fmaLane (a b c : Nat) : Nat × Fpx :=
  let x := fpDecode .fp32 a
  let y := fpDecode .fp32 b
  let z := fpDecode .fp32 c
  arith [x, y, z] (fpAddV (fpMulV x y) z)

/-- The exact result of an approximated function; none where the spec states no FP32 result: of an infinity, at a pole, of a negative number's root or
logarithm, of (0, 0). The second operand counts for atan2 (its angle is that of x = b, y = a; log entry 108). -/
def exactOf (f : ApproxFn) (a b : FpVal) : Option Real32 :=
  match a with
  | .fin n m e => match f with
    | .recip => if m = 0 then none else some (exactRecip n m e)
    | .sqrt => if n && m ≠ 0 then none else some (exactSqrt m e)
    | .rsqrt => if n || m = 0 then none else some (exactRsqrt m e)
    | .exp2 => some (exactExp2 n m e)
    | .log2 => if n || m = 0 then none else some (exactLog2 m e)
    | .sin => some (exactTrig false n m e)
    | .cos => some (exactTrig true n m e)
    | .atan2 => match b with
      | .fin n' m' e' => if m = 0 ∧ m' = 0 then none else some (exactAtan2 n m e n' m' e')
      | _ => none
  | _ => none

/-- An approximated function's lane (R238): a value within 2 units in the last place of the exact result, which one the spec does not state; where it states
no result, any (log entry 6). NaN gives the canonical NaN (R237). -/
def approxLane (f : ApproxFn) (a b : Nat) : Nat × Fpx :=
  let x := fpDecode .fp32 a
  let y := if f = .atan2 then fpDecode .fp32 b else x
  let pick := Config.approx f.code a b
  if x = .nan ∨ y = .nan then (fpNan .fp32, { nv := true })
  else match exactOf f x y with
    | some r =>
      let v := withinUlps (fpFloor r.m r.e) pick
      (b2n r.neg * 2 ^ 31 + v, { of_ := decide (v = 0x7F800000), uf := decide (v = 0) && r.m ≠ 0 })
    | none =>
      let v := if fpDecode .fp32 (pick % 2 ^ 32) = .nan then fpNan .fp32 else pick % 2 ^ 32
      (v, { nv := decide (fpDecode .fp32 v = .nan) })

/-- A reduction across lanes (Table 6.4), in lane order, with its flags. -/
def reduceLanes (f : RedFn) (l : List Nat) : Nat × Fpx :=
  match l with
  | [] => (0, {})
  | x :: xs =>
    xs.foldl (fun a b =>
      let r := match f with
        | .sumInt => ((a.1 + b) % 2 ^ 32, ({} : Fpx))
        | .sumFp => addLane a.1 b
        | .maxS => (intLane .maxS a.1 b, {})
        | .minS => (intLane .minS a.1 b, {})
        | .maxFp => fpLane .max a.1 b
        | .minFp => fpLane .min a.1 b
      (r.1, a.2.or r.2)) (x, {})

/-- The step times of a vector operation (Table 6.4). -/
def vecCost : VecOp → Nat
  | .reduce _ _ _ => 4
  | .approx _ _ _ _ => 4
  | _ => 1

end Sys2Proof.Machine
end

