-- ==== Sys2Proof/Machine/Operands.lean ====
section
/-!
DEFINITION. What an address or a tag names: the address map (Table 1.5), the lining check (R181 to R183), and what a
target answers before it serves a request (R26 to R31, R116, R553, R561, R563).
-/
namespace Sys2Proof.Machine

/-- A region of the physical address map (R26, R27). -/
inductive Region where
  | remote (pkg : Nat)
  | hbm (site : Nat)
  | pocket (n : Nat)
  | tile (n : Nat)
  | boathouse (bank : Nat)
  | regs (priv : Bool)
  | host
  | unlisted
deriving DecidableEq, Repr

/-- The region of a local offset (Table 1.5). -/
def localRegion (o : Nat) : Region :=
  if o < 0x01000000000 then .hbm (o / 0x00400000000)
  else if o < 0x01004000000 then .pocket ((o - 0x01000000000) / 0x200000)
  else if 0x01010000000 ≤ o ∧ o < 0x01011000000 then .tile ((o - 0x01010000000) / 0x100000)
  else if 0x01020000000 ≤ o ∧ o < 0x01022000000 then .boathouse ((o - 0x01020000000) / 0x1000000)
  else if 0x01040000000 ≤ o ∧ o < 0x01041000000 then .regs true
  else if 0x01050000000 ≤ o ∧ o < 0x01051000000 then .regs false
  else if 0x80000000000 ≤ o ∧ o < 0x100000000000 then .host
  else .unlisted

/-- The region a 48-bit physical address names (R26). -/
def State.region (s : State) (a : Nat) : Region :=
  if a / 2 ^ 44 = s.get Fld.GLB_PKG_ID_PKG_ID 0 then localRegion (localOff a) else .remote (a / 2 ^ 44)

/-- The unit that serves a region (Table 14.1); 0x45 for the register aperture. -/
def regionUnit : Region → Nat
  | .hbm n => 0x36 + n
  | .pocket n => 0x10 + n
  | .tile n => n
  | .boathouse n => 0x34 + n
  | .host => 0x43
  | _ => 0x45

/-- Whether a region is cacheable (R134). -/
def Region.cacheable : Region → Bool
  | .hbm _ => true
  | .pocket _ => true
  | _ => false

/-- The half a unit sits in (Tables 1.1 and 3.6): 0 West, 1 East, 2 for IO-C, whose traffic enters on its own side. -/
def unitHalf (u : Nat) : Nat :=
  if u ≤ 0x0F then u / 8
  else if u ≤ 0x2F then (u - 0x10) / 16
  else if u ≤ 0x35 then u % 2
  else if u ≤ 0x39 then (u - 0x36) / 2
  else if u ≤ 0x3C then 0
  else if u ≤ 0x3F then 1
  else if u ≤ 0x42 then 2 else 0

/-- Whether a request from `src` to `dst` crosses the Seam's payload paths (R116). -/
def crossesSeam (src dst : Nat) : Bool :=
  unitHalf src ≠ 2 && unitHalf dst ≠ 2 && unitHalf src ≠ unitHalf dst

/-- The key of a granule's ownership entry (Table 5.1), as XLU_LINE_SEL names it: kind, target, granule. -/
def liningKey (r : Region) (o : Nat) : Option Nat :=
  match r with
  | .pocket n => some (n * 2 ^ 16 + o % 0x200000 / 0x10000)
  | .hbm n => some (2 ^ 24 + n * 2 ^ 16 + o % 0x400000000 / 0x4000000)
  | .tile n => some (2 * 2 ^ 24 + n * 2 ^ 16)
  | .boathouse n => some (3 * 2 ^ 24 + n * 2 ^ 16 + o % 0x1000000 / 0x10000)
  | _ => none

/-- The READ and WRITE masks of an ownership entry (R181). -/
def State.liningMask (s : State) (k : Nat) : Nat := Tbl.get 0 s.xlu.lining k

/-- Whether partition `p` holds the right to read (or write) at `a` (R181, R182): the host window grants every partition
its own function. -/
def State.linedUp (s : State) (p : Nat) (write : Bool) (a : Nat) : Bool :=
  match s.region a with
  | .host => true
  | .regs _ => true
  | r => match liningKey r (localOff a) with
    | some k => bit (s.liningMask k) (if write then 8 + p else p)
    | none => false

/-- Whether partition `p` may use memory of this package at `a`, which no register view is (R181, R182). -/
def State.ownMem (s : State) (p : Nat) (write : Bool) (a : Nat) : Bool :=
  s.linedUp p write a && (match s.region a with
    | .remote _ => false
    | .regs _ => false
    | .unlisted => false
    | _ => true)

/-- The tag of the requests that a Learning Engine, Delta Engine, I/O die or Boathouse controller makes for a lane or a population of partition `p`: the
partition and its lowest-numbered context (R178, R179). -/
def State.serviceTag (s : State) (unit p : Nat) : Tag := ⟨unit, (s.ctxsOf p).headD 0, p, s.epoch unit, false⟩

/-- The lining check of a request: SYS passes (R182). -/
def State.liningOk (s : State) (t : Tag) (write : Bool) (a : Nat) : Bool := t.sys || s.linedUp t.part write a

/-- A failed lining check: one DENIED record to the requester's partition ring, XLU_LINE_DENIED_CNT (R183). -/
def State.liningFail (s : State) (t : Tag) (a : Nat) : State :=
  (s.bump Fld.XLU_LINE_DENIED_CNT_CNT 0 1).record
    { cls := 1, status := stDENIED, unit := t.unit, part := t.part % 8, block := 0x06, infoKind := 1, ctx := some t.ctx,
      count := 1, info := a }

/-- An access of an engine that uses physical addresses, for partition `p`, to the lines of `n` bytes at `a`: its tag leaves with it, and the lining check decides
(R179 to R183). -/
def State.service (s : State) (unit p : Nat) (write : Bool) (a n : Nat) : Bool × State :=
  let t := s.serviceTag unit p
  let s := s.emit (.access t write a n)
  if (rangeFrom (a / 64) ((a + n + 63) / 64 - a / 64)).all fun l => s.linedUp p write (l * 64) then (true, s) else (false, s.liningFail t a)

/-- A write of such an engine (R179). -/
def State.serviceWrite (s : State) (unit p a : Nat) (bs : List Byte) : State :=
  let r := s.service unit p true a bs.length
  if r.1 then r.2.ownBytes a bs else r.2

/-- Whether a unit is down: its stand-in answers (R29, R563). -/
def State.unitDown (s : State) (u : Nat) : Bool :=
  s.flag Fld.ERR_EPOCH_DOWN u || (unitDomain u < 72 && !s.domOn (unitDomain u))

/-- What an access of partition `p` to `n` bytes at `a` is answered (R29, R30, R181, R490, R499). -/
def State.memCheck (s : State) (p : Nat) (write : Bool) (a n : Nat) : Nat :=
  let at_ := fun (x : Nat) =>
    let r := s.region x
    match r with
    | .unlisted => stDENIED
    | .regs _ => stDENIED
    | .remote _ => stDENIED
    | .host => if s.get Fld.HOST_LINK_STATUS_UP 0 = 0 then stDOWN else stOK
    | .hbm n => if !bit (s.get Fld.GLB_PRESENT_STACK_UP 0) n then stDENIED
        else if !s.linedUp p write x then stDENIED else if s.unitDown (0x36 + n) then stDOWN else stOK
    | r => if !s.linedUp p write x then stDENIED else if s.unitDown (regionUnit r) then stDOWN else stOK
  let pts := (List.range ((n - 1) / 65536 + 1)).map (fun i => a + i * 65536) ++ [a + (n - 1)]
  pts.foldl (fun st x => if st = stOK then at_ x else st) stOK

/-- Whether a domain is waking. -/
def State.waking (s : State) (d : Nat) : Bool := (Tbl.get none s.pwr.waking d).isSome

/-- The waking domain that a request from unit `src` to unit `dst` waits for at its requester (R309): the target's, unless a reset wakes it and its stand-in still
answers (Table 14.5 step 6), or the Seam's. -/
def State.waitsWake (s : State) (src dst : Nat) : Option Nat :=
  if s.waking (unitDomain dst) && (Tbl.get none s.pwr.returning (unitDomain dst)).isNone then some (unitDomain dst)
  else if s.waking 56 && crossesSeam src dst then some 56 else none

/-- Whether a unit is fenced by the quiesce in progress (R561 step 1). -/
def State.fenced (s : State) (u : Nat) : Bool :=
  match s.err.cur with
  | some q => decide (q.1 = u)
  | none => false

/-- What a target answers before it serves a request; `none` lets the request in. The state carries the records and
counts of a refusal. Order: the map (R27, R28), the Seam and the stand-in (R116, R30, R563), the fence (R561), the epoch (R553), the
lining check (R180). -/
def State.gate (s : State) (t : Tag) (write : Bool) (a : Nat) : Option Nat × State :=
  let r := s.region a
  let u := regionUnit r
  if r = .unlisted then (some stDENIED, s)
  else if (match r with
      | .hbm n => !bit (s.get Fld.GLB_PRESENT_STACK_UP 0) n
      | _ => false) then
    (some stDENIED, s.record { cls := 1, status := stDENIED, unit := u, block := 0x00, infoKind := 1, count := 1, info := a })
  else if !s.domOn 56 && crossesSeam t.unit u then (some stDOWN, s)
  else if r = .host ∧ s.get Fld.HOST_LINK_STATUS_UP 0 = 0 then (some stDOWN, s)
  else if s.unitDown u then (some stDOWN, s)
  else if s.fenced u then (some stRETRY, s)
  else if t.epoch ≠ s.knownEpoch t.unit then (some stSTALE, s.bump Fld.ERR_STALE_REQ_CNT_CNT 0 1)
  else if !s.liningOk t write a then (some stDENIED, s.liningFail t a)
  else (none, s)

/-- A tag of the Cox or of debug access for partition-0 work (R178, R622). -/
def State.sysTag (s : State) (u : Nat) : Tag := ⟨u, 0, 0, s.epoch u, true⟩

end Sys2Proof.Machine
end

