-- ==== Sys2Proof/Machine/LinkOps.lean ====
section
/-!
DEFINITION. The Jalvin link's shared operations: messages and flits (R503, R509), sending under credits and the replay buffer
(R505, R506, R511), routing (R512), end-to-end tags (R513), and Epoch messages (R515).
-/
namespace Sys2Proof.Machine

/-- A message as 24 header bytes and, when DATA is set, 64 data bytes (Table 12.12). -/
def JlMsg.bytes (m : JlMsg) : List Byte :=
  leBytes 1 m.mop ++ leBytes 1 m.flags ++ leBytes 1 m.srcPkg ++ leBytes 1 m.srcUnit ++ leBytes 2 m.tag ++
  leBytes 2 m.epoch ++ leBytes 8 m.addr ++ leBytes 8 m.arg ++
  (if bit m.flags 0 then (m.data ++ List.replicate 64 0).take 64 else [])

/-- Whether a message is a response (MFLAGS RESP). -/
def JlMsg.resp (m : JlMsg) : Bool := bit m.flags 3

/-- HOPS of a message. -/
def JlMsg.hops (m : JlMsg) : Nat := bits m.flags 7 4

/-- A flit with its CRC (Table 12.11): LSEQ, ACKSEQ, LFLAGS, the credits freed, and the payload. -/
def flitBytes (lseq ackseq lflags credReq credRsp pkg : Nat) (msgs : List JlMsg) : List Byte :=
  let head := leBytes 1 lseq ++ leBytes 1 ackseq ++ leBytes 1 lflags ++ leBytes 1 msgs.length ++ leBytes 2 credReq ++
    leBytes 2 credRsp ++ leBytes 1 pkg ++ leBytes 3 0
  let body := ((msgs.flatMap JlMsg.bytes) ++ List.replicate 112 0).take 112
  head ++ leBytes 4 (crc32 (head ++ leBytes 4 0 ++ body)) ++ body

/-- A link port's state. -/
def State.jlPort (s : State) (d : Nat) : JlPort := Tbl.get {} s.jl.ports d

/-- Writes a link port back. -/
def State.setPort (s : State) (d : Nat) (p : JlPort) : State :=
  { s with jl := { s.jl with ports := Tbl.set {} s.jl.ports d p } }

/-- Whether a link port is UP (Table 12.14). -/
def State.portUp (s : State) (d : Nat) : Bool := s.get Fld.JL_STATUS_STATE d = 2

/-- Sends one flit on port `d` with the acknowledgement and credits due (R503, R505, R511). -/
def State.sendFlit (s : State) (d lseq lflags : Nat) (msgs : List JlMsg) : State :=
  let p := s.jlPort d
  (s.setPort d { p with freedReq := 0, freedRsp := 0 }).emit
    (.flit d (flitBytes lseq p.lastAccepted lflags p.freedReq p.freedRsp (s.get Fld.GLB_PKG_ID_PKG_ID 0) msgs))

/-- Takes a credit of a message's class (R511). -/
def JlPort.spend (p : JlPort) (m : JlMsg) : JlPort :=
  if m.resp then { p with credRsp := p.credRsp - 1 } else { p with credReq := p.credReq - 1 }

/-- Whether port `p` can send message `m` now: fewer than 64 flits unacknowledged (R506) and a credit of its class (R511). -/
def JlPort.canSend (p : JlPort) (m : JlMsg) : Bool :=
  decide (p.replay.length < 64) && (if m.resp then decide (0 < p.credRsp) else decide (0 < p.credReq))

/-- A message leaves a port's receive buffer, whose place is given back (R511). -/
def State.freePlace (s : State) (d : Nat) (m : JlMsg) : State :=
  let p := s.jlPort d
  s.setPort d (if m.resp then { p with freedRsp := p.freedRsp + 1 } else { p with freedReq := p.freedReq + 1 })

/-- A message that was on its way through this package has left it, or is discarded. -/
def State.leftBuffer (s : State) (m : JlMsg) : State :=
  match m.origin with
  | some d => s.freePlace d m
  | none => s

/-- Sends a message in a new flit (R503, R506, R511). -/
def State.portFlit (s : State) (d : Nat) (m : JlMsg) : State :=
  let p := s.jlPort d
  let x := { m with origin := none }
  let q := { p.spend m with nextSeq := (p.nextSeq + 1) % 256, replay := p.replay ++ [(p.nextSeq, [x])],
                            ackAt := if p.replay = [] then s.now else p.ackAt }
  (((s.setPort d q).sendFlit d p.nextSeq 0 [x]).bump Fld.JL_TX_FLITS_CNT d 1).leftBuffer m

/-- Sends a message in a new flit, or leaves it waiting for a credit, replay space or the end of a training. A response does not wait behind a request
(R511). -/
def State.portSend (s : State) (d : Nat) (m : JlMsg) : State :=
  let p := s.jlPort d
  if s.portUp d ∧ p.canSend m ∧ p.waiting.all (fun x => x.resp ≠ m.resp) then s.portFlit d m
  else s.setPort d { p with waiting := p.waiting ++ [m] }

/-- Sends the waiting messages of a port, oldest first in each class, while credits and replay space last. -/
def State.portDrain : Nat → Nat → State → State
  | 0, _, s => s
  | n + 1, d, s =>
    let p := s.jlPort d
    match p.waiting.find? p.canSend with
    | none => s
    | some m =>
      if s.portUp d then State.portDrain n d ((s.setPort d { p with waiting := p.waiting.erase m }).portFlit d m) else s

/-- The link port that carries traffic to a package (Table 2.8 KIND 4, R512). -/
def State.route (s : State) (pkg : Nat) : Option Nat := Tbl.get none s.boot.routes pkg

/-- Whether tag `t` of unit `u` is busy (R513). -/
def State.tagBusy (s : State) (u t : Nat) : Bool := s.jl.tags.any fun x => x.unit = u ∧ x.tag = t

/-- The next free tag of a unit, ascending modulo 4,096 from its last one (R513). -/
def State.freeTag (s : State) (u : Nat) : Option Nat :=
  ((List.range 4096).map fun i => (Tbl.get 0 s.jl.nextTag u + i) % 4096).find? fun t => !s.tagBusy u t

/-- Issues a tagged request on its port, or holds it while every tag of its unit is busy (R513). -/
def State.jlIssue (s : State) (d : Nat) (w : Work) (m : JlMsg) : State :=
  match s.freeTag m.srcUnit with
  | none => { s with jl := { s.jl with heldReqs := s.jl.heldReqs ++ [(w, m)] } }
  | some t =>
    let use : TagUse :=
      { unit := m.srcUnit, tag := t, work := w, part := bits m.tag 14 12, addr := m.addr,
        hold := decide (m.mop ≠ 1), answered := false, acq := m.mop = 3 && bit m.flags 1 }
    let s := { s with jl := { s.jl with
      tags := s.jl.tags ++ [use], nextTag := Tbl.set 0 s.jl.nextTag m.srcUnit ((t + 1) % 4096),
      addressed := NatSet.add s.jl.addressed (m.srcUnit * 16 + m.addr / 2 ^ 44) } }
    s.portSend d { m with tag := m.tag / 4096 * 4096 + t }

/-- The requests a unit holds for want of a tag are issued as far as tags are free (R513). -/
def State.releaseHeld (s : State) (u : Nat) : State :=
  let mine := s.jl.heldReqs.filter fun x => x.2.srcUnit = u
  let s := { s with jl := { s.jl with heldReqs := s.jl.heldReqs.filter fun x => x.2.srcUnit ≠ u } }
  mine.foldl (fun s x => match s.route (x.2.addr / 2 ^ 44) with
    | none => s.emit (.ack x.1 x.2.addr stDENIED [])
    | some d => if s.get Fld.JL_STATUS_STATE d = 0 then s.emit (.ack x.1 x.2.addr stDOWN []) else s.jlIssue d x.1 x.2) s

/-- A local unit's request to another package (R26, R221, R510, R513, R517): DENIED with no route, TARGET_DOWN with the port
down or behind a dark Seam (R116). -/
def State.jlRequest (s : State) (w : Work) (t : Tag) (mop addr arg : Nat) (data : List Byte) (order : Nat) : State :=
  match s.route (addr / 2 ^ 44) with
  | none => s.emit (.ack w addr stDENIED [])
  | some d =>
    if s.get Fld.JL_STATUS_STATE d = 0 ∨ (!s.domOn 56 ∧ crossesSeam t.unit (0x3A + 3 * d)) then s.emit (.ack w addr stDOWN [])
    else s.jlIssue d w
      { mop := mop, flags := (if data = [] then 0 else 1) + order % 4 * 2, srcPkg := s.get Fld.GLB_PKG_ID_PKG_ID 0,
        srcUnit := t.unit, tag := t.part % 8 * 4096, epoch := t.epoch, addr := addr, arg := arg, data := data }

/-- A link port goes DOWN (R517): the flits it holds are discarded, with one record per transition. -/
def State.portDown (s : State) (d : Nat) : State :=
  if s.get Fld.JL_STATUS_STATE d = 0 then s
  else
    let lost := (s.jlPort d).waiting
    let s := lost.foldl State.leftBuffer (s.setPort d {})
    (s.put Fld.JL_STATUS_STATE d 0).record { cls := 1, status := stDOWN, unit := 0x3A + 3 * d, block := 0x18 }

/-- The 12-bit tag and the requester's partition of a message. -/
def JlMsg.tag12 (m : JlMsg) : Nat := m.tag % 4096
def JlMsg.part (m : JlMsg) : Nat := bits m.tag 14 12

/-- The package a message is for (R512). -/
def JlMsg.dest (m : JlMsg) : Nat := if m.resp then m.srcPkg else bits m.addr 47 44

/-- The response to a request: MOP 0x81 Ack or 0x82 Data, with a status and DUPLICATE (R510). -/
def JlMsg.answer (m : JlMsg) (status : Nat) (dup : Bool) (data : List Byte) : JlMsg :=
  { m with mop := if data = [] then 0x81 else 0x82, flags := 8 + b2n (data ≠ []), arg := status + 256 * b2n dup, data := data, origin := none }

/-- Sends a message on its way through the port that the routes give for its destination. -/
def State.jlSend (s : State) (m : JlMsg) : State :=
  match s.route m.dest with
  | none => s
  | some d => if s.get Fld.JL_STATUS_STATE d = 0 then s else s.portSend d m

/-- Records an executed WriteLine or Atomic in the duplicate window, which holds 4,096 entries per source (R514). -/
def State.dupNote (s : State) (m : JlMsg) (status old : Nat) : State :=
  let e : DupEntry := { pkg := m.srcPkg, unit := m.srcUnit, tag := m.tag12, epoch := m.epoch, status := status, old := old, at_ := s.now }
  let mine := fun (x : DupEntry) => x.pkg = m.srcPkg && x.unit = m.srcUnit
  let kept := s.jl.dup.filter fun x => !(mine x && decide (x.tag = m.tag12))
  let kept := if 4096 ≤ (kept.filter mine).length then
      (match kept.find? mine with
        | some x => kept.erase x
        | none => kept)
    else kept
  { s with jl := { s.jl with dup := kept ++ [e] } }

/-- The entry of the duplicate window that a WriteLine or Atomic meets (R514). -/
def State.dupHit (s : State) (m : JlMsg) : Option DupEntry :=
  if m.mop = 1 then none
  else s.jl.dup.find? fun (x : DupEntry) => x.pkg = m.srcPkg && x.unit = m.srcUnit && x.tag = m.tag12 && x.epoch = m.epoch

/-- Answers a repeated WriteLine or Atomic from the window, with DUPLICATE (R514). -/
def State.dupAnswer (s : State) (m : JlMsg) (x : DupEntry) : State :=
  let old := if m.mop = 3 ∧ x.status = stOK then leBytes (if bit m.arg 4 then 8 else 4) x.old else []
  (s.bump Fld.JL_DUP_CNT_CNT 0 1).jlSend (m.answer x.status true old)

/-- The Epoch messages a bump sends: one to each package the unit addressed since its last bump (R515). -/
def State.jlEpochs (s : State) (u epoch : Nat) : State :=
  let dests := (List.range 16).filter fun p => NatSet.has s.jl.addressed (u * 16 + p)
  let s := dests.foldl (fun s p => match s.route p with
    | none => s
    | some d => s.portSend d
        { mop := 4, flags := 0, srcPkg := s.get Fld.GLB_PKG_ID_PKG_ID 0, srcUnit := u, tag := 0,
          epoch := epoch, addr := p * 2 ^ 44, arg := 0, data := [] }) s
  { s with jl := { s.jl with addressed := dests.foldl (fun a p => NatSet.del a (u * 16 + p)) s.jl.addressed } }

end Sys2Proof.Machine
end

