-- ==== Sys2Proof/Machine/CohOps.lean ====
section
/-!
DEFINITION. Homes, caches and locks: reading a line with its check code (R164 to R171), the directory transitions (Table 4.3),
busy lines, waiters, Retry tickets and reservations (R146 to R150), snoop answers (Table 4.4), atomics (Table 4.7) and
Thole locks (Table 4.9).
-/
namespace Sys2Proof.Machine

/-- The home of a cacheable region: Pocket n is home n, stack site s home 32 + s (R135, R136). -/
def homeOf : Region → Nat
  | .pocket n => n
  | .hbm n => 32 + n
  | _ => 99

/-- Busy entries of a home (R146). -/
def busyLimit (h : Nat) : Nat := if h < 32 then 32 else 256

/-- The unit of a caching agent (Tables 4.1, 14.1). -/
def agentUnit (a : Nat) : Nat := if a < 16 then a else if a = 16 then 0x45 else a - 17 + 0x30

/-- The caching agent of a unit, or 99. -/
def unitAgent (u : Nat) : Nat := if u < 16 then u else if u = 0x45 then 16 else if u = 0x30 then 17 else if u = 0x31 then 18 else 99

/-- Counts what the fabric met (R98, R120, R129). -/
def State.fabric (s : State) (f : FabEv) : State :=
  let s := ((s.bump Fld.FAB_XING_FULL_CNT_CNT 0 f.full).bump Fld.FAB_CONTEST_CNT_CNT 0 f.contested).bump
    Fld.FAB_LONG_GRANT_CNT_CNT 0 f.long
  let s := if f.header = 0 then s else s.bump Fld.FAB_HDR_ERR_CNT_CNT 0 1
  if f.header = 2 then s.record (recX 0x03 stECC) else s

/-- A message reaches its target through the fabric (R98, R120): an uncorrectable header discards it on its way (R129). -/
def State.carried (s : State) (f : FabEv) (go : State → State) : State :=
  if f.header = 2 then s.fabric f else go (s.fabric f)

/-- Counts payload bytes that cross the Seam from the half of `src` to the half of `dst` (Table 3.9). -/
def State.seamBytes (s : State) (src dst n : Nat) : State :=
  if crossesSeam src dst then
    s.bump (if unitHalf src = 0 then Fld.FAB_SEAM_BYTES_WE_CNT else Fld.FAB_SEAM_BYTES_EW_CNT) 0 n
  else s

/-! ### ECC and poison -/

/-- MEM_ERR_INFO's SOURCE code of a region (Table 4.12). DESIGN CHOICE (log entry 103): the table has no code for the Boathouse and the host window,
which show 0. -/
def errSource : Region → Nat
  | .pocket _ => 0
  | .hbm _ => 1
  | .tile _ => 3
  | _ => 0

/-- Counts an uncorrectable error against its pseudo-channel pair, and retires the pair at RETIRE_UE errors within 24 h (R171). -/
def State.pairError (s : State) (a : Nat) : State :=
  match s.region a with
  | .hbm n =>
    let pr := n * 16 + localOff a / 256 % 16
    let l := s.now :: (Tbl.get [] s.coh.pairUe pr).filter fun t => decide (s.now < t + 86400000000000)
    let s := { s with coh := { s.coh with pairUe := Tbl.set [] s.coh.pairUe pr (l.take 255) } }
    let lim := s.get Fld.MEM_SCRUB_CFG_RETIRE_UE 0
    if lim ≠ 0 ∧ lim ≤ l.length ∧ !bit (s.get Fld.MEM_PAIR_RETIRED_PAIRS 0) pr then
      (s.putBitAt Fld.MEM_PAIR_RETIRED_PAIRS 0 pr true).record
        { cls := 1, status := stECC, unit := 0x36 + n, block := 0x04, infoKind := 1, count := 1, info := a }
    else s
  | _ => s

/-- Records an uncorrectable memory error that a unit's memory holds at line `a` (R167): MEM_UE_CNT, MEM_ERR_ADDR, MEM_ERR_INFO, one device record. -/
def State.ueMet (s : State) (unit a source mask : Nat) : State :=
  let s := (((s.bump Fld.MEM_UE_CNT_CNT 0 1).put Fld.MEM_ERR_ADDR_ADDR 0 a).put Fld.MEM_ERR_INFO_VALID 0 1).put
    Fld.MEM_ERR_INFO_SOURCE 0 source
  (s.put Fld.MEM_ERR_INFO_MASK 0 mask).record
    { cls := 1, status := stECC, unit := unit, block := 0x04, infoKind := 1, count := 1, info := a }

/-- Records an uncorrectable memory error at line `a` of a memory with addresses (R167). -/
def State.ueRecord (s : State) (a source mask : Nat) : State := s.ueMet (regionUnit (s.region a)) a source mask

/-- Records an uncorrectable error of a memory that no address names, with a free one (R167; log entry 103). -/
def State.ueFree (s : State) (unit source : Nat) : State :=
  let a := s.takeFree.1 % 2 ^ 48
  s.takeFree.2.ueMet unit (a / 64 * 64) source (2 ^ (a / 8 % 8))

/-- Marks the words of `mask` in the line at `a` poisoned. -/
def State.poisonWords (s : State) (a mask : Nat) : State :=
  (List.range 8).foldl (fun s i => if bit mask i then s.setPoison (a + 8 * i) else s) s

/-- Meets a read's check code at line `a` (R165, R167): a corrected error is counted; words not already marked make a new
uncorrectable error. A lost directory entry is met where the request is served (R173). -/
def State.meetEcc (s : State) (a : Nat) (e : Ecc) : State :=
  match e with
  | .clean => s
  | .corrected => s.bump Fld.MEM_CE_CNT_CNT 0 1
  | .uncorrectable m =>
    let fresh := (List.range 8).any fun i => bit m.toNat i && !s.poisoned (a + 8 * i)
    if fresh then ((s.poisonWords a m.toNat).ueRecord a (errSource (s.region a)) m.toNat).pairError a else s
  | .directory _ => s

/-- The status of data whose poison mask is `m` (R167). -/
def dataStatus (m : Nat) : Nat := if m = 0 then stOK else stPOISONED

/-! ### Directory, busy lines and waiters -/

/-- The busy entry of a line. -/
def State.busyLine (s : State) (l : Nat) : Option Busy := Tbl.get none s.coh.busy l

/-- Sets or closes a busy entry. -/
def State.setBusy (s : State) (l : Nat) (b : Option Busy) : State := { s with coh := { s.coh with busy := Tbl.set none s.coh.busy l b } }

/-- Adds a holder in state S. -/
def DirLine.addS (d : DirLine) (g : Nat) : DirLine := { x := false, vec := if bit d.vec g then d.vec else d.vec + 2 ^ g }

/-- Poisons a line whose directory entry is lost and records it; the holders are the agents whose bit still reads (R173). -/
def State.directoryUe (s : State) (l readable : Nat) : State :=
  ((s.poisonWords (l * 64) 0xFF).ueRecord (s.get Fld.GLB_PKG_ID_PKG_ID 0 * 2 ^ 44 + l * 64) 6 0xFF).setDir l { x := false, vec := readable % 2 ^ 19 }

/-- The agent that issued a request, or 99 for an engine without a cache. -/
def workAgent : Work → Nat
  | .agent n => n.val
  | _ => 99

/-- Whether a request's snoops invalidate (Table 4.3). -/
def ReqKind.inv : ReqKind → Bool
  | .readShared => false
  | .readOnce => false
  | _ => true

/-- Whether the request met a lost directory entry (R173). -/
def HomeReq.lost (r : HomeReq) : Bool :=
  match r.ecc with
  | .directory _ => true
  | _ => false

/-- Whether a request's snoops invalidate, a lost directory entry's included (R173). -/
def HomeReq.snoopInv (r : HomeReq) : Bool := r.lost || r.kind.inv

/-- Payload bytes a request itself carries (Table 4.2). -/
def ReqKind.payload : ReqKind → Nat
  | .writeLine => 64
  | .atomic _ => 64
  | _ => 0

/-- Whether a request needs the right to write (R182). -/
def ReqKind.writes : ReqKind → Bool
  | .readShared => false
  | .readOnce => false
  | _ => true

/-- Whether a request is an atomic with acquire, and with release (R124, R155). -/
def HomeReq.acq (r : HomeReq) : Bool :=
  match r.kind with
  | .atomic _ => bit r.args.order 0
  | _ => false
def HomeReq.rel (r : HomeReq) : Bool :=
  match r.kind with
  | .atomic _ => bit r.args.order 1
  | _ => false

/-- The caches a request snoops (Table 4.3). -/
def snoopTargets (d : DirLine) (k : ReqKind) (self : Nat) : List Nat :=
  match k with
  | .readShared => if d.x then d.holders else []
  | .readOnce => if d.x then d.holders else []
  | .readOwn => d.holders
  | .upgrade => d.holders.filter fun g => g ≠ self
  | .writeLine => d.holders
  | .atomic _ => d.holders
  | .repair => []

/-- The result of an atomic on the old value of a word of `w` bits (Table 4.7). -/
def atomicResult (op w old operand compare : Nat) : Nat :=
  let m := 2 ^ w
  let o := operand % m
  match op with
  | 0 => (old + o) % m
  | 1 => o
  | 2 => if old = compare % m then o else old
  | 3 => if toInt w o < toInt w old then o else old
  | 4 => if toInt w old < toInt w o then o else old
  | 5 => min old o
  | _ => max old o

/-! ### Answers and directory service -/

/-- A request is completed without data: on the mesh, or over the link it came by (R139, R510). -/
def State.answerAck (s : State) (r : HomeReq) (st : Nat) : State :=
  match r.link with
  | some m => s.jlSend (m.answer st false [])
  | none => s.emit (.ack r.src r.addr st [])

/-- A request is answered with data (R139, R510); a line's data that crosses the Seam counts (R133). -/
def State.answerData (s : State) (r : HomeReq) (st : Nat) (bytes : List Byte) (poison : Nat) (g : Grant) : State :=
  let s := if bytes = [] then s else s.seamBytes (regionUnit (s.region r.addr)) r.tag.unit 64
  match r.link with
  | some m => s.jlSend (m.answer st false bytes)
  | none => s.emit (.data r.src r.addr st bytes poison g)

/-- Sends Data with a grant to a caching agent, and notes the grant (R140). -/
def State.grantData (s : State) (r : HomeReq) (g : Grant) : State :=
  let m := s.poisonMask r.addr
  let s := s.answerData r (dataStatus m) (s.rdBytes r.addr 64) m g
  if workAgent r.src < 19 then s.setGranted (lineOf r.addr) (workAgent r.src) true else s

/-- Executes a WriteLine or Atomic of the link once: a repeated one is answered from the window (R514). -/
def State.once (s : State) (r : HomeReq) (go : State → State) : State :=
  match r.link with
  | some m => match s.dupHit m with
    | some x => s.dupAnswer m x
    | none => go s
  | none => go s

/-- Records an executed request of the link in its window (R514). -/
def State.noteOnce (s : State) (r : HomeReq) (status old : Nat) : State :=
  match r.link with
  | some m => s.dupNote m status old
  | none => s

/-- Performs an atomic on the line's memory: a poisoned target word answers POISONED and changes nothing (R153, R169). -/
def State.performAtomic (s : State) (r : HomeReq) (op : Nat) : State :=
  if s.poisoned r.addr then (s.noteOnce r stPOISONED 0).answerData r stPOISONED [] 0 .none
  else
    let n := if r.args.wide then 8 else 4
    let old := s.rdNat r.addr n
    let new := atomicResult op (8 * n) old r.args.operand.toNat r.args.compare.toNat
    ((s.wrNat r.addr n new).noteOnce r stOK old).answerData r stOK (leBytes n old) 0 .none

/-- Performs a WriteLine on the line's memory; the read of a line that is only partly written meets its check code (R167). -/
def State.performWrite (s : State) (r : HomeReq) : State :=
  let s := if r.store.mask = BitVec.allOnes 64 then s else s.meetEcc r.addr r.ecc
  ((s.wrLine r.addr r.store.mask.toNat r.store.bytes r.store.poison.toNat).noteOnce r stOK 0).answerAck r stOK

/-- Responds to a request whose snoops are all answered, and records the new directory state (Table 4.3). A ReadShared whose owner turned out to have
evicted the line finds it in I, and is granted E (log entry 106). -/
def State.finish (s : State) (r : HomeReq) : State :=
  let l := lineOf r.addr
  let d := s.dirLine l
  let g := workAgent r.src
  match r.kind with
  | .readShared =>
    let s := s.meetEcc r.addr r.ecc
    if d.vec = 0 then (s.setDir l { x := true, vec := 2 ^ g }).grantData r .e
    else (s.setDir l (d.addS g)).grantData r .s
  | .readOwn => ((s.meetEcc r.addr r.ecc).setDir l { x := true, vec := 2 ^ g }).grantData r .m
  | .upgrade =>
    if bit d.vec g ∧ !d.x then
      ((s.setDir l { x := true, vec := 2 ^ g }).answerAck r stOK).setGranted l g true
    else ((s.meetEcc r.addr r.ecc).setDir l { x := true, vec := 2 ^ g }).grantData r .m
  | .readOnce =>
    let s := s.meetEcc r.addr r.ecc
    let m := s.poisonMask r.addr
    s.answerData r (dataStatus m) (s.rdBytes r.addr 64) m .none
  | .writeLine => (s.once r (State.performWrite · r)).setDir l {}
  | .atomic op => (s.once r fun s => (s.meetEcc r.addr r.ecc).performAtomic r op).setDir l {}
  | .repair => s.setDir l {}

/-- Begins to serve a request on its line: a read from a cache the directory lists waits for that cache's eviction, as the first of the line's
waiters (R142); otherwise the snoops of Table 4.3 go out with AFTER_GRANT as R140 says. A lost directory entry poisons the line and snoops every agent
whose bit reads (R173). -/
def State.serve (s : State) (r : HomeReq) (ws : List HomeReq) : State :=
  let l := lineOf r.addr
  let g := workAgent r.src
  let s := match r.ecc with
    | .directory v => s.directoryUe l v.toNat
    | _ => s
  let d := s.dirLine l
  if !r.lost ∧ (r.kind = .readShared ∨ r.kind = .readOwn) ∧ bit d.vec g then
    ((s.leave g l).setBusy l (some { cur := r, await := [], evict := [g], waiters := ws, parked := true })).raise
      Fld.MEM_WAIT_MAX_MAX 0 (ws.length + 1)
  else
    let t := if r.lost then d.holders else snoopTargets d r.kind g
    let s := s.setBusy l (some { cur := r, await := t, evict := [], waiters := ws })
    t.foldl (fun s q => s.emit (.snoop r.snoopInv q r.addr (s.afterGrant l q))) s

/-- Reserves a freed place for the lowest unserved ticket that waits for it (R149). -/
def State.reserve (s : State) (h l : Nat) (entry : Bool) : State :=
  match s.coh.unserved.find? fun u => u.1 = h ∧ u.2.2.2 = entry ∧ (entry ∨ u.2.2.1 = l) ∧ !s.coh.reserved.contains u with
  | some u => { s with coh := { s.coh with reserved := s.coh.reserved ++ [u] } }
  | none => s

/-- Moves a line on: a request whose answers are all in is finished, and the oldest waiter is served next (R147). -/
def State.pump : Nat → Nat → State → State
  | 0, _, s => s
  | n + 1, l, s =>
    match s.busyLine l with
    | none => s
    | some b =>
      if b.await ≠ [] ∨ b.evict ≠ [] then s
      else if b.parked then State.pump n l (s.serve b.cur b.waiters)
      else
        let s := s.finish b.cur
        let h := homeOf (s.region b.cur.addr)
        match b.waiters with
        | [] => (s.setBusy l none).reserve h l true
        | w :: ws => State.pump n l ((s.serve w ws).reserve h l false)

/-- Enough turns for a line's four waiters. -/
def pumpFuel : Nat := 12

/-- Busy entries in use at a home. -/
def State.busyCount (s : State) (h : Nat) : Nat :=
  (s.coh.busy.filter fun kv => match kv.2 with
    | some b => decide (homeOf (s.region b.cur.addr) = h)
    | none => false).length

/-- Answers Retry with the home's next ticket (R148). -/
def State.answerRetry (s : State) (h : Nat) (r : HomeReq) (entry : Bool) : State :=
  let t := Tbl.get 0 s.coh.ticket h
  let s := { s with coh := { s.coh with
    ticket := Tbl.set 0 s.coh.ticket h ((t + 1) % 256), unserved := s.coh.unserved ++ [(h, t, lineOf r.addr, entry)],
    turned := s.coh.turned ++ [r] } }
  (s.bump Fld.MEM_RETRY_CNT_CNT 0 1).emit (.retry r.src r.addr t)

/-- Whether a request's ticket holds a reservation at home `h` for its line or a busy entry. -/
def State.hasReserved (s : State) (h : Nat) (t : Option Nat) (l : Nat) (entry : Bool) : Bool :=
  match t with
  | some t => s.coh.reserved.any fun u => u.1 = h ∧ u.2.1 = t ∧ u.2.2.1 = l ∧ u.2.2.2 = entry
  | none => false

/-- A ticket that is served leaves both lists (R149). -/
def State.serveTicket (s : State) (h : Nat) (t : Option Nat) (l : Nat) : State :=
  match t with
  | some t =>
    let keep := fun (u : Nat × Nat × Nat × Bool) => !(decide (u.1 = h) && decide (u.2.1 = t) && decide (u.2.2.1 = l))
    { s with coh := { s.coh with unserved := s.coh.unserved.filter keep, reserved := s.coh.reserved.filter keep } }
  | none => s

/-- A home takes a request: it waits behind a busy line, opens a busy entry, or is answered Retry (R146 to R149). A request that stands behind its own
cache's eviction is one of the four waiters (R142). The payload of a request that is taken counts where it crosses the Seam (R133, R148). -/
def State.arrive (s : State) (r : HomeReq) (ticket : Option Nat) : State :=
  let l := lineOf r.addr
  let h := homeOf (s.region r.addr)
  let took := fun (s : State) => (s.serveTicket h ticket l).seamBytes r.tag.unit (regionUnit (s.region r.addr)) r.kind.payload
  match s.busyLine l with
  | some b =>
    let resv := (s.coh.reserved.filter fun u => u.1 = h ∧ u.2.2.1 = l ∧ u.2.2.2 = false).length
    let n := b.waiters.length + b2n b.parked
    if n < 4 ∧ (s.hasReserved h ticket l false ∨ n + resv < 4) then
      ((took s).setBusy l (some { b with waiters := b.waiters ++ [r] })).raise Fld.MEM_WAIT_MAX_MAX 0 (n + 1)
    else s.answerRetry h r false
  | none =>
    let resv := (s.coh.reserved.filter fun u => u.1 = h ∧ u.2.2.2 = true).length
    if s.busyCount h < busyLimit h ∧ (s.hasReserved h ticket l true ∨ s.busyCount h + resv < busyLimit h) then
      State.pump pumpFuel l ((took s).serve r [])
    else s.answerRetry h r true

/-! ### Requests -/

/-- Notes the access a cache's request will perform when it is granted (R145). -/
def State.notePend (s : State) (r : HomeReq) : State :=
  match r.src with
  | .agent n => s.setPend n.val (lineOf r.addr) (some ⟨r.tag, r.store, []⟩)
  | _ => s

/-- A request turned away before it is served (R30, R116, R183, R553): Retry carries a ticket with no reserved place (R561 step 1). -/
def State.turnAway (s : State) (r : HomeReq) (st : Nat) : State :=
  if st = stRETRY then
    let h := homeOf (s.region r.addr)
    let t := Tbl.get 0 s.coh.ticket h
    (({ s with coh := { s.coh with ticket := Tbl.set 0 s.coh.ticket h ((t + 1) % 256), turned := s.coh.turned ++ [r] } }).bump
      Fld.MEM_RETRY_CNT_CNT 0 1).emit (.retry r.src r.addr t)
  else s.answerAck r st

/-- The bytes of an uncached target's line: tile memory and the host window in memory, the Boathouse in its banks. -/
def State.uncachedLine (s : State) (a : Nat) : List Byte :=
  match s.region a with
  | .boathouse _ => (List.range 64).map fun i => Tbl.get 0 s.bh (localOff a - 0x01020000000 + i)
  | _ => s.rdBytes a 64

/-- An access that no cache keeps, at its target (R134, R138, R221): a cache's read is one of the line, and its write one of the bytes it stores. -/
def State.uncachedAccess (s : State) (r : HomeReq) : State :=
  let a := r.addr
  match r.kind, s.region a with
  | .atomic _, _ => s.answerAck r stDENIED
  | .repair, _ => s
  | _, .regs _ => s.answerAck r stDENIED
  | k, .boathouse _ =>
    if k.writes then s.answerAck r stDENIED else s.answerData r (dataStatus (s.poisonMask a)) (s.uncachedLine a) (s.poisonMask a) .none
  | k, _ =>
    if k.writes then
      let s := s.seamBytes r.tag.unit (regionUnit (s.region a)) 64
      s.once r (State.performWrite · r)
    else
      let s := s.meetEcc a r.ecc
      s.answerData r (dataStatus (s.poisonMask a)) (s.uncachedLine a) (s.poisonMask a) .none

/-- The entries an XLU holds, L1 first. -/
def State.tlbEntries (s : State) (x : Nat) : List TlbEntry :=
  Tbl.get [] s.xlu.l1 x ++ ((s.xlu.l2.filter fun kv => kv.1 / 128 = x).map (·.2)).flatten

/-- Whether the translation a Scull's access used keeps the line out of its cache (R138): a TLB entry of its context that covers the address without
the cache attribute. The Cox and the Learning Engines use physical addresses (R179). -/
def State.uncachedBy (s : State) (r : HomeReq) : Bool :=
  match r.src with
  | .agent n =>
    decide (n.val < 16) && (s.tlbEntries n.val).any fun (e : TlbEntry) =>
      e.ctx = r.tag.ctx && decide (e.pa ≤ r.addr) && decide (r.addr < e.pa + e.len) && !bit e.rights 3
  | _ => false

/-- The request a caching agent makes for an access it may not cache. -/
def ReqKind.uncached : ReqKind → ReqKind
  | .readShared => .readOnce
  | .readOwn => .writeLine
  | .upgrade => .writeLine
  | k => k

/-- A request that its target's checks have let in (R134, R138, R141). -/
def State.letIn (s : State) (r : HomeReq) (ticket : Option Nat) : State :=
  let s := s.notePend r
  if (s.region r.addr).cacheable then s.arrive (if s.uncachedBy r then { r with kind := r.kind.uncached } else r) ticket
  else s.uncachedAccess r

/-- Whether a request is one that its target answers DENIED whatever it holds (R138, R154). -/
def HomeReq.badShape (r : HomeReq) : Bool :=
  match r.kind with
  | .atomic _ => r.args.badCode || decide (r.addr % (if r.args.wide then 8 else 4) ≠ 0)
  | _ => decide (r.addr % 64 ≠ 0)

/-- A request to another package: only ReadOnce, WriteLine and Atomic cross the link (R154, R510). -/
def State.sendRemote (s : State) (r : HomeReq) : State :=
  match r.kind with
  | .readOnce => s.jlRequest r.src r.tag 1 r.addr 0 [] 0
  | .writeLine => s.jlRequest r.src r.tag 2 r.addr r.store.mask.toNat ((r.store.bytes ++ List.replicate 64 0).take 64) 0
  | .atomic op => s.jlRequest r.src r.tag 3 r.addr (op + (if r.args.wide then 16 else 0))
      (leBytes 8 r.args.operand.toNat ++ leBytes 8 r.args.compare.toNat) r.args.order
  | _ => s.answerAck r stDENIED

/-- Holds an operation at its requester until a domain is on (R309). -/
def State.holdWake (s : State) (d : Nat) (t : Tag) (op : RelOp) : State :=
  { s with coh := { s.coh with waitWake := s.coh.waitWake ++ [(d, t, op)] } }

/-- Issues a request to its target (R26 to R31, R138, R153, R180, R221); one to a domain that is waking waits (R309). -/
def State.issue (s : State) (r : HomeReq) (ticket : Option Nat) : State :=
  if r.badShape then s.answerAck r stDENIED
  else match s.region r.addr with
    | .remote _ => s.sendRemote r
    | q => match s.waitsWake r.tag.unit (regionUnit q) with
      | some d => s.holdWake d r.tag (.req r)
      | none => match s.gate r.tag r.kind.writes r.addr with
        | (some st, s) => s.turnAway r st
        | (none, s) => s.letIn r ticket

/-! ### The order of a context's accesses (R123, R124) -/

/-- Whether two tags are of one context of a unit, under one epoch. -/
def sameCtx (a b : Tag) : Bool := a.unit = b.unit && a.ctx = b.ctx && a.epoch = b.epoch

/-- The requests that stand at homes, or that their requesters still hold after a Retry or for a waking domain. -/
def State.standing (s : State) : List HomeReq :=
  let at_ := s.coh.busy.flatMap fun kv => match kv.2 with
    | some b => b.cur :: b.waiters
    | none => []
  let held := s.coh.waitWake.filterMap fun w => match w.2.2 with
    | .req r => some r
    | _ => none
  (at_ ++ s.coh.turned ++ s.coh.retries.map (·.1) ++ held).filter fun r => r.link.isNone

/-- Whether an access of the context is still to be performed (R123). A remote one is told by its unit, which is all the link's tag names. -/
def State.outstanding (s : State) (t : Tag) : Bool :=
  (s.standing.any fun r => sameCtx r.tag t) ||
  (s.coh.pend.any fun kv => match kv.2 with
    | some p => sameCtx p.tag t
    | none => false) ||
  (s.jl.tags.any fun (x : TagUse) => x.unit = t.unit && !x.answered) || (s.jl.heldReqs.any fun x => x.2.srcUnit = t.unit) ||
  s.coh.waitRel.any fun w => sameCtx w.1 t

/-- Whether an operation holds the later accesses of its context until it is performed. -/
def RelOp.acq : RelOp → Bool
  | .lock _ _ => false
  | .req r => r.acq
  | .fence a => a

/-- Whether an acquire of the context is still to be performed: an atomic with acquire, or a full fence that waits (R123). -/
def State.acqAhead (s : State) (t : Tag) : Bool :=
  (s.standing.any fun r => r.acq && sameCtx r.tag t) || (s.coh.waitRel.any fun w => w.2.acq && sameCtx w.1 t) ||
  (s.jl.tags.any fun (x : TagUse) => x.acq && x.unit = t.unit && !x.answered) ||
  s.jl.heldReqs.any fun x => x.2.srcUnit = t.unit && x.2.mop = 3 && bit x.2.flags 1

/-- Whether an operation of a context waits: a release for every earlier access, any access for an earlier acquire (R123). -/
def State.mustWait (s : State) (t : Tag) (release : Bool) : Bool := (release && s.outstanding t) || s.acqAhead t

/-- Puts an operation behind its context's earlier accesses. -/
def State.holdOp (s : State) (t : Tag) (op : RelOp) : State := { s with coh := { s.coh with waitRel := s.coh.waitRel ++ [(t, op)] } }

/-- A request of a unit (R123): one that must wait for its context's order is held; a reissue with its ticket is not. -/
def State.request (s : State) (r : HomeReq) (ticket : Option Nat) : State :=
  match ticket with
  | some _ => ({ s with coh := { s.coh with retries := s.coh.retries.filter fun x => !(x.1.src = r.src && x.1.addr = r.addr) } }).issue r ticket
  | none => if s.mustWait r.tag r.rel then s.holdOp r.tag (.req r) else s.issue r none

/-! ### Answers at the home -/

/-- An answer of agent `g` to the snoop of the line's request: `miss` for SnoopMiss (R151), else Ack or Data. -/
def State.snoopAnswer (s : State) (g l : Nat) (miss : Bool) : State :=
  match s.busyLine l with
  | none => s.setGranted l g false
  | some b =>
    if b.await.contains g then
      let d := s.dirLine l
      let waitEv := miss && bit d.vec g
      let b' := { b with await := b.await.filter (· ≠ g), evict := if waitEv then b.evict ++ [g] else b.evict }
      let d' := if miss then d else if b.cur.snoopInv then d.drop g else { d with x := false }
      State.pump pumpFuel l (((s.setGranted l g false).setDir l d').setBusy l (some b'))
    else s

/-- Data of a snooped cache arrives at the home: it is written before the request is answered (R141, R143), but for bytes written there since. -/
def State.snoopData (s : State) (g l : Nat) (bytes : List Byte) (poison : Nat) : State :=
  match s.busyLine l with
  | some b =>
    if b.await.contains g then
      (((s.sink g l (2 ^ 64 - 1) bytes poison).setFlight g l none).setOver g l 0).snoopAnswer g l false
    else s
  | none => s

/-- An eviction of agent `g` arrives: the holder is removed and a request that stood behind it goes on (R141, R142, R151). -/
def State.evicted (s : State) (g l : Nat) : State :=
  let s := (s.setGranted l g false).setDir l ((s.dirLine l).drop g)
  let s := ((s.setCopy g l none).setFlight g l none).setOver g l 0
  match s.busyLine l with
  | none => s
  | some b => State.pump pumpFuel l (s.setBusy l (some { b with evict := b.evict.filter (· ≠ g) }))

/-! ### Caches -/

/-- A copy as its cache's check code leaves it (R165 to R167): a corrected error counts; the failing words of a line in M are marked poisoned, and
counted and recorded with SOURCE 2; a clean line's error is met when the line is discarded. -/
def State.readCopy (s : State) (a : Nat) (c : CacheLine) (e : Ecc) : CacheLine × State :=
  match e with
  | .corrected => (c, s.bump Fld.MEM_CE_CNT_CNT 0 1)
  | .uncorrectable m =>
    if c.st = .m ∧ m ≠ 0 then ({ c with poison := Nat.lor c.poison m.toNat }, s.ueRecord a 2 m.toNat) else (c, s)
  | _ => (c, s)

/-- A cache answers a snoop for a copy it holds, or SnoopMiss (Table 4.4). -/
def State.answerSnoop (s : State) (inv : Bool) (g a : Nat) (e : Ecc) : State :=
  let l := lineOf a
  match s.copy g l with
  | none => s.emit (.snoopMiss g a)
  | some c =>
    let r := s.readCopy a c e
    let s := r.2.setCopy g l (if inv then none else some { r.1 with st := .s })
    if c.st = .m then
      ((s.setFlight g l (some r.1)).seamBytes (agentUnit g) (regionUnit (s.region a)) 64).emit (.snoopData g a r.1.bytes r.1.poison)
    else s.emit (.snoopAck g a)

/-- A snoop reaches a cache (R116, R144, R145, R563): a down agent's stand-in answers SnoopMiss; a snoop that follows a grant
still in flight is held; a cache whose eviction is in flight has no copy. -/
def State.snooped (s : State) (inv : Bool) (g a : Nat) (after evicting : Bool) (e : Ecc) : State :=
  let l := lineOf a
  let u := agentUnit g
  if s.unitDown u ∨ (!s.domOn 56 ∧ crossesSeam (regionUnit (s.region a)) u) then s.emit (.snoopMiss g a)
  else if after ∧ s.afterGrant l g ∧ (s.pendOf g l).isSome then
    { s with coh := { s.coh with held := Tbl.set none s.coh.held (cacheKey g l) (some inv) } }
  else if evicting then (s.leave g l).emit (.snoopMiss g a)
  else s.answerSnoop inv g a e

/-- A cache's grant arrives: the line is installed with what was written at the home since, the access that caused the request is performed, and a
held snoop is answered (R145). -/
def State.install (s : State) (g a : Nat) (st : Grant) (bytes : List Byte) (poison : Nat) : State :=
  let l := lineOf a
  let k := cacheKey g l
  let v := s.current g l bytes poison
  let c : CacheLine := match s.pendOf g l with
    | some p => if st = .m then ⟨st, mergeBytes p.store.mask.toNat v.1 p.store.bytes, mergePoison p.store.mask.toNat v.2 p.store.poison.toNat⟩
        else ⟨st, v.1, v.2⟩
    | none => ⟨st, v.1, v.2⟩
  let s := ((((s.setCopy g l (some c)).setPend g l none).setOver g l 0)).setGranted l g false
  let h := Tbl.get none s.coh.held k
  let s := { s with coh := { s.coh with held := Tbl.set none s.coh.held k none } }
  match h with
  | some inv => s.answerSnoop inv g a .clean
  | none => s

/-- Removes every cached copy of a line whose granule is about to be withdrawn, writing back what is held in M (R184): SnoopInv goes to each holder, and
one whose grant is in flight answers it after its one access. -/
def State.recallLine (s : State) (l : Nat) : State :=
  let s := (s.dirLine l).holders.foldl (fun s g =>
    let s := s.emit (.snoop true g (s.get Fld.GLB_PKG_ID_PKG_ID 0 * 2 ^ 44 + l * 64) (s.afterGrant l g))
    match s.copy g l with
    | some c => (if c.st = .m then s.wrLine (l * 64) (2 ^ 64 - 1) c.bytes c.poison else s).setCopy g l none
    | none =>
      if s.afterGrant l g ∧ (s.pendOf g l).isSome then
        { s with coh := { s.coh with held := Tbl.set none s.coh.held (cacheKey g l) (some true) } }
      else s) s
  s.setDir l {}

/-! ### Locks -/

/-- A lock. -/
def State.lock (s : State) (i : Nat) : Lock := Tbl.get {} s.locks i

/-- Sets a lock. -/
def State.setLock (s : State) (i : Nat) (l : Lock) : State := { s with locks := Tbl.set {} s.locks i l }

/-- The Pocket that holds a lock (R156). -/
def lockPocket (i : Nat) : Nat := 16 * (i / 4096) + i % 16

/-- Whether a tag is the lock's owner: unit, context and epoch all match (R159). -/
def Lock.ownedBy (l : Lock) (t : Tag) : Bool :=
  l.owner.unit = t.unit && l.owner.ctx = t.ctx && l.owner.epoch = t.epoch

/-- The lock state layout (Table 4.16). -/
def Lock.layout (l : Lock) : Nat :=
  if l.st = 0 then l.queue.length * 4
  else l.owner.epoch % 65536 * 2 ^ 32 + l.owner.part % 8 * 2 ^ 24 + l.owner.unit % 256 * 2 ^ 16 + l.owner.ctx % 256 * 2 ^ 8 +
    l.queue.length * 4 + l.st

/-- An Orphaned lock with waiters passes at once to the first, with LockGrant ORPHAN (R162); one of a Pocket that is down waits for its return
(R567). -/
def State.passOrphan (s : State) (i : Nat) : State :=
  let l := s.lock i
  if l.st = 2 ∧ !s.unitDown (0x10 + lockPocket i) then
    match l.queue with
    | [] => s
    | (t, _) :: q => (s.setLock i { st := 1, owner := t, queue := q }).emit (.lockGrant t i stORPHAN)
  else s

/-- Orphans a Held lock (R161): counted, and handed to a remaining first waiter. -/
def State.orphan (s : State) (i : Nat) : State :=
  ((s.setLock i { s.lock i with st := 2 }).bump Fld.LOCK_ORPHAN_CNT_CNT 0 1).passOrphan i

/-- Removes the waiters that `p` names from every queue and orphans every Held lock whose owner `p` names (R161). -/
def State.orphanAll (s : State) (p : Tag → Bool) : State :=
  let ids := s.locks.map (·.1)
  let s := { s with locks := s.locks.map fun kv => (kv.1, { kv.2 with queue := kv.2.queue.filter fun q => !p q.1 }) }
  ids.foldl (fun s i => if (s.lock i).st = 1 ∧ p (s.lock i).owner then s.orphan i else s) s

/-- A LockOp turned away DENIED: counted, one record to the requester's partition (R157, R158). -/
def State.lockDenied (s : State) (t : Tag) (i : Nat) : State :=
  ((s.bump Fld.LOCK_DENIED_CNT_CNT 0 1).record
    { cls := 1, status := stDENIED, unit := t.unit, part := t.part % 8, block := 0x05, ctx := some t.ctx }).emit
    (.lockAck t i stDENIED false 0)

/-- An uncorrectable error in a lock's storage (R173): 1 the lock, 2 its waiter queue. -/
def State.lockUe (s : State) (i e : Nat) : State :=
  let s := ((((s.bump Fld.MEM_UE_CNT_CNT 0 1).put Fld.MEM_ERR_ADDR_ADDR 0 i).put Fld.MEM_ERR_INFO_VALID 0 1).put
    Fld.MEM_ERR_INFO_SOURCE 0 7).put Fld.MEM_ERR_INFO_MASK 0 0
  let s := (s.bump Fld.LOCK_ORPHAN_CNT_CNT 0 1).record { cls := 1, status := stECC, unit := 0x10 + lockPocket i, block := 0x05 }
  let l := s.lock i
  let all1 : Tag := ⟨0xFF, 0xFF, 7, 0xFFFF, false⟩
  if e = 2 then
    let s := l.queue.foldl (fun s q => s.emit (.lockGrant q.1 i stTIMEOUT)) s
    s.setLock i { st := 2, owner := all1, queue := [] }
  else (s.setLock i { st := 2, owner := all1, queue := l.queue }).passOrphan i

/-- What every LockOp passes before Table 4.9: the stand-in, the fence, the epoch, the fields (R158), the block's ENABLE and
owner (R157). `none` lets it in. -/
def State.lockGate (s : State) (t : Tag) (x : LockArgs) : Option State :=
  let i := x.lockId.toNat % 8192
  let u := 0x10 + lockPocket i
  if (!s.domOn 56 && crossesSeam t.unit u) || s.unitDown u then some (s.emit (.lockAck t i stDOWN false 0))
  else if s.fenced u then some (s.emit (.lockAck t i stRETRY false 0))
  else if t.epoch ≠ s.knownEpoch t.unit then
    some ((s.bump Fld.ERR_STALE_REQ_CNT_CNT 0 1).emit (.lockAck t i stSTALE false 0))
  else if 3 < x.code ∨ 8192 ≤ x.lockId.toNat ∨ !x.reservedZero then some (s.lockDenied t i)
  else if s.get Fld.LOCK_PART_ENABLE (i / 256) = 0 then some (s.lockDenied t i)
  else if !t.sys ∧ s.get Fld.LOCK_PART_PART (i / 256) ≠ t.part then some (s.lockDenied t i)
  else none

/-- A DENIED by Table 4.9, which leaves the lock unchanged and counts (Table 4.14). -/
def State.lockRefuse (s : State) (t : Tag) (i st : Nat) : State :=
  let s := if st = stBUSY then s.bump Fld.LOCK_BUSY_CNT_CNT 0 1 else s.bump Fld.LOCK_DENIED_CNT_CNT 0 1
  s.emit (.lockAck t i st false 0)

/-- Meets an uncorrectable error in a lock's storage before its LockOp is served (R173). -/
def State.meetLockEcc (s : State) (op : LockArgs) : State :=
  if op.ecc = 0 then s else s.lockUe (op.lockId.toNat % 8192) op.ecc

/-- When a wait of WAIT_MS ends (Table 4.8). -/
def State.waitUntil (s : State) (ms : Nat) : Nat := s.now + (if ms = 0 then 65535 else ms) * 1000000

/-- Acquire (`queueing`) or TryAcquire of a lock that passed its gate (Table 4.9, R160). -/
def State.acquire (s : State) (t : Tag) (i ms : Nat) (queueing : Bool) : State :=
  let l := s.lock i
  if l.st = 0 then (s.setLock i { l with st := 1, owner := t }).emit (.lockAck t i stOK false 0)
  else if l.st = 2 then (s.setLock i { l with st := 1, owner := t }).emit (.lockAck t i stORPHAN false 0)
  else if l.ownedBy t then s.lockRefuse t i stDENIED
  else if queueing ∧ l.queue.length < 16 then
    (s.setLock i { l with queue := l.queue ++ [(t, s.waitUntil ms)] }).emit (.lockAck t i stOK true 0)
  else s.lockRefuse t i stBUSY

/-- Release (Table 4.9): Free, or Held by the first waiter, which receives LockGrant OK. -/
def State.release (s : State) (t : Tag) (i : Nat) : State :=
  let l := s.lock i
  if l.st = 1 ∧ l.ownedBy t then
    let s := s.emit (.lockAck t i stOK false 0)
    match l.queue with
    | [] => s.setLock i { l with st := 0, owner := ⟨0, 0, 0, 0, false⟩ }
    | (w, _) :: q => (s.setLock i { st := 1, owner := w, queue := q }).emit (.lockGrant w i stOK)
  else s.lockRefuse t i stDENIED

/-- A Pocket serves a LockOp (Table 4.9), by its command: 0 Acquire, 1 TryAcquire, 2 Release, 3 Inspect; one to a Pocket that is waking waits (R309). -/
def State.lockServe (s : State) (op : Nat) (t : Tag) (x : LockArgs) : State :=
  match s.waitsWake t.unit (0x10 + lockPocket (x.lockId.toNat % 8192)) with
  | some d => s.holdWake d t (.lock op x)
  | none =>
    let s := s.meetLockEcc x
    match s.lockGate t x with
    | some s => s
    | none =>
      let i := x.lockId.toNat
      let s := s.seamBytes t.unit (0x10 + lockPocket i) 64
      if op = 0 then s.acquire t i x.waitMs.toNat true
      else if op = 1 then s.acquire t i 0 false
      else if op = 2 then s.release t i
      else s.emit (.lockAck t i stOK false (s.lock i).layout)

/-- A LockOp of a unit (R123, R163): a Release waits for every earlier access of its context. -/
def State.lockRequest (s : State) (op : Nat) (t : Tag) (x : LockArgs) : State :=
  if s.mustWait t (op = 2) then s.holdOp t (.lock op x) else s.lockServe op t x

/-- Whether a held operation still waits, given what stands before it. -/
def State.stillHeld (s : State) (t : Tag) : RelOp → Bool
  | .lock op _ => s.mustWait t (op = 2)
  | .req r => s.mustWait t r.rel
  | .fence _ => s.outstanding t

/-- The operations held for their context's order are performed, oldest first, as far as the order allows (R123). -/
def State.settle (s : State) : State :=
  s.coh.waitRel.foldl (fun s w =>
    if s.stillHeld w.1 w.2 then s.holdOp w.1 w.2
    else match w.2 with
      | .lock op x => s.lockServe op w.1 x
      | .req r => s.issue r none
      | .fence _ => s) { s with coh := { s.coh with waitRel := [] } }

/-- Takes the operations held for a domain. -/
def State.takeWake (s : State) (d : Nat) : List (Nat × Tag × RelOp) × State :=
  (s.coh.waitWake.filter fun w => w.1 = d, { s with coh := { s.coh with waitWake := s.coh.waitWake.filter fun w => w.1 ≠ d } })

/-- A domain is on: what was held for it goes on, in its order (R309). -/
def State.wakeGo (s : State) (d : Nat) : State :=
  let r := s.takeWake d
  r.1.foldl (fun s w => match w.2.2 with
    | .lock op x => s.lockServe op w.2.1 x
    | .req r => s.issue r none
    | .fence _ => s) r.2

/-- A domain does not wake: what was held for it completes with TARGET_DOWN (R315). -/
def State.wakeLost (s : State) (d : Nat) : State :=
  let r := s.takeWake d
  r.1.foldl (fun s w => match w.2.2 with
    | .lock _ x => s.emit (.lockAck w.2.1 (x.lockId.toNat % 8192) stDOWN false 0)
    | .req r => s.answerAck r stDOWN
    | .fence _ => s) r.2

/-- Drops the holder `g` everywhere when its epoch is bumped (R172): sharer vectors, open snoops, and the lines recorded X for
it, whose words are marked poisoned with one record each. -/
def State.dropAgent (s : State) (g : Nat) : State :=
  let lines := (s.coh.dir.filter fun kv => bit kv.2.vec g).map (·.1)
  let s := lines.foldl (fun s l =>
    let d := s.dirLine l
    let s := if d.x then
        (s.poisonWords (l * 64) 0xFF).record
          { cls := 1, status := stPOISONED, unit := agentUnit g, block := 0x04, infoKind := 1, count := 1,
            info := s.get Fld.GLB_PKG_ID_PKG_ID 0 * 2 ^ 44 + l * 64 }
      else s
    s.setDir l (d.drop g)) s
  let s := (s.coh.granted.map (·.1)).foldl (fun s l => s.setGranted l g false) s
  let s := { s with coh := { s.coh with
    cache := s.coh.cache.filter fun kv => kv.1 / 2 ^ 42 ≠ g,
    pend := s.coh.pend.filter fun kv => kv.1 / 2 ^ 42 ≠ g,
    flight := s.coh.flight.filter fun kv => kv.1 / 2 ^ 42 ≠ g,
    since := s.coh.since.filter fun kv => kv.1 / 2 ^ 42 ≠ g,
    held := s.coh.held.filter fun kv => kv.1 / 2 ^ 42 ≠ g } }
  (s.coh.busy.map (·.1)).foldl (fun s l => match s.busyLine l with
    | none => s
    | some b => State.pump pumpFuel l (s.setBusy l (some
        { b with await := b.await.filter (· ≠ g), evict := b.evict.filter (· ≠ g) }))) s

/-- The requests that a unit's earlier epoch still held are gone with it (R553). -/
def State.dropHeld (s : State) (u epoch : Nat) : State :=
  let old := fun (t : Tag) => t.unit = u && t.epoch ≠ epoch
  { s with coh := { s.coh with turned := s.coh.turned.filter fun r => !old r.tag, retries := s.coh.retries.filter fun r => !old r.1.tag,
                               waitRel := s.coh.waitRel.filter fun w => !old w.1, waitWake := s.coh.waitWake.filter fun w => !old w.2.1 } }

end Sys2Proof.Machine
end

