-- ==== Sys2Proof/Machine/LaneOps.lean ====
section
/-!
DEFINITION. What a lane is and loses: the fields of its descriptor (Table 8.1), its intervals and deadline, and the counts of shed
and lost frames and blocks (R351, Table 12.2).
-/
namespace Sys2Proof.Machine

/-- A little-endian field of a lane's descriptor (Table 8.1). -/
def State.laneField (s : State) (l off n : Nat) : Nat := leAt (Tbl.get [] s.boot.lanes l) off n

/-- The lane's kind: 0 none, 1 camera, 2 sensors on 10BASE-T1S, 3 sensors on TDM. -/
def State.laneKind (s : State) (l : Nat) : Nat := s.laneField l 0 1

/-- The unit that takes a lane's frames or blocks in: the decoders of its die, or the field-bus and TDM side (Table 14.1). -/
def State.laneFront (s : State) (l : Nat) : Nat := 0x3A + 3 * s.laneField l 4 1 + (if s.laneKind l = 1 then 1 else 2)

/-- A lane's state. -/
def State.lane (s : State) (l : Nat) : LaneSt := Tbl.get {} s.lanes l

/-- Sets a lane's state. -/
def State.setLane (s : State) (l : Nat) (x : LaneSt) : State := { s with lanes := Tbl.set {} s.lanes l x }

/-- LANE_STATUS.STATE (Table 8.2). -/
def State.laneState (s : State) (l : Nat) : Nat := s.get Fld.LANE_STATUS_STATE l

/-- Whether a lane is admitted: RUNNING, SILENT or ABSENT. -/
def State.laneAdmitted (s : State) (l : Nat) : Bool := decide (3 ≤ s.laneState l)

/-- The frame or block interval in ns (fields 32, 43, 44). -/
def State.laneInterval (s : State) (l : Nat) : Nat :=
  if s.laneKind l = 1 then 10 ^ 12 / max 1 (s.laneField l 0x70 4)
  else s.laneField l 0x118 4 * 10 ^ 9 / max 1 (s.laneField l 0x114 4)

/-- The lane's deadline in ns (field 19, Table 14.7). -/
def State.laneDeadline (s : State) (l : Nat) : Nat :=
  if s.laneField l 0x24 4 = 0 then s.laneInterval l else s.laneField l 0x24 4 * 1000

/-- The time a Scull has spent halted, in ns (R621). -/
def State.haltedFor (s : State) (n : Nat) : Nat :=
  Tbl.get 0 s.mod.haltTotal n + (match Tbl.get none s.mod.haltAt n with
    | some t => s.now - t
    | none => 0)

/-- That of every Scull, as an entry notes it. -/
def State.haltTimes (s : State) : List Nat :=
  let ts := (List.range 16).map s.haltedFor
  if ts.all fun t => t = 0 then [] else ts

/-- The gap interval in ns (field 10). -/
def State.laneGap (s : State) (l : Nat) : Nat :=
  (if s.laneField l 0x0E 2 = 0 then 1000 else s.laneField l 0x0E 2) * 1000000

/-- Sets a bit of the gap causes (Table 12.2). -/
def addCause (c b : Nat) : Nat := if bit c b then c else c + 2 ^ b

/-- Counts `n` frames or blocks lost, with cause bit `cause` (R351); the next entry is marked all changed (R294). -/
def State.laneLose (s : State) (l n cause : Nat) : State :=
  if n = 0 then s
  else
    let x := s.lane l
    (s.setLane l { x with missed := x.missed + n, gapLost := x.gapLost + n, gapCause := addCause x.gapCause cause,
                          allNext := true }).bump Fld.LANE_LOST_CNT_CNT l n

/-- The next frame that reaches the Delta Engine is marked all changed (R294, R302). -/
def State.markAll (s : State) (l : Nat) : State :=
  { s with reuse := Tbl.set {} s.reuse l { Tbl.get {} s.reuse l with all := true } }

/-- An entry already written is lost, with cause bit `cause` (R248, R314, R575): the gap lies before the next frame that reaches the Delta Engine,
which is marked all changed; frames still to be written are not (R294). -/
def State.entryLost (s : State) (l cause : Nat) : State :=
  let a := (s.lane l).allNext
  let s := s.laneLose l 1 cause
  (s.setLane l { s.lane l with allNext := a }).markAll l

/-- Counts a frame or block shed (R350, R351). -/
def State.laneShedOne (s : State) (l : Nat) : State :=
  let x := s.lane l
  (s.setLane l { x with missed := x.missed + 1, gapShed := x.gapShed + 1, gapCause := addCause x.gapCause 0,
                        allNext := true }).bump Fld.LANE_SHED_CNT_CNT l 1

/-- The tasks of a lane, as keys Scull × 2^16 + TASK_ID. -/
def State.laneTasks (s : State) (l : Nat) : List Nat :=
  (s.tasks.filter fun kv => match kv.2 with
    | some t => decide (t.lane = l)
    | none => false).map (·.1)

/-- Frees the entries every task has finished with: their slots return, a committed camera frame becomes the previous frame (R294, R326), and the last one's
energy is that of the lane's last frame or block (R306). -/
def State.retireEntries (s : State) (l : Nat) : State :=
  let x := s.lane l
  let done := x.entries.filter fun (e : Entry) => e.stage = 3 && e.left.isEmpty
  let r := Tbl.get {} s.reuse l
  let r := match (done.filter fun (e : Entry) => !e.ended).getLast? with
    | some e => { r with prev := some e.slot }
    | none => r
  let s := { s with reuse := Tbl.set {} s.reuse l r }
  let s := match done.getLast? with
    | some e => s.put Fld.CATCH_FRAME_ENERGY_NJ l e.energy
    | none => s
  s.setLane l { x with entries := x.entries.filter fun (e : Entry) => !(e.stage = 3 && e.left.isEmpty) }

/-- Changes the lane's entry with a given SEQ. -/
def State.onEntry (s : State) (l seq : Nat) (f : Entry → Entry) : State :=
  let x := s.lane l
  s.setLane l { x with entries := x.entries.map fun (e : Entry) => if e.seq = seq then f e else e }

/-- The lane's entry with a given SEQ. -/
def State.entry (s : State) (l seq : Nat) : Option Entry := (s.lane l).entries.find? fun (e : Entry) => e.seq = seq

/-- A task has committed for its entry (R244), or ended for it. -/
def State.entryDone (s : State) (l seq key : Nat) : State :=
  (s.onEntry l seq fun e => { e with left := e.left.filter (· ≠ key) }).retireEntries l

end Sys2Proof.Machine
end

