-- ==== Sys2Proof/Machine/SclOps.lean ====
section
/-!
DEFINITION. Sculls and tasks: the ready list (R251, R253), the end of an attempt (R247), failure (R248), switching out (R209, R246),
commit (R244), and what a step does when its checker confirms it (R230, R238, R279).
-/
namespace Sys2Proof.Machine

/-- A Scull's compute state. -/
def State.scull (s : State) (n : Nat) : Scull := Tbl.get {} s.scl n

/-- Sets a Scull's compute state. -/
def State.setScull (s : State) (n : Nat) (x : Scull) : State := { s with scl := Tbl.set {} s.scl n x }

/-- The key of a task. -/
def taskKey (n id : Nat) : Nat := n * 65536 + id

/-- A task. -/
def State.task (s : State) (k : Nat) : Option Task := Tbl.get none s.tasks k

/-- Sets a task. -/
def State.setTask (s : State) (k : Nat) (t : Task) : State := { s with tasks := Tbl.set none s.tasks k (some t) }

/-- The task of a Scull in a given state. -/
def State.taskIn (s : State) (n : Nat) (st : TaskSt) : Option (Nat × Task) :=
  s.tasks.findSome? fun kv => match kv.2 with
    | some t => if kv.1 / 65536 = n ∧ t.st = st then some (kv.1, t) else none
    | none => none

/-- The running task of a Scull. -/
def State.running (s : State) (n : Nat) : Option (Nat × Task) := s.taskIn n .running

/-- Whether a Scull issues operations: on, and not halted (R614). -/
def State.sclOn (s : State) (n : Nat) : Bool := s.domOn n && !(s.scull n).halted && (s.scull n).haltPending.isNone

/-- Whether an access of the Scull's running task has missed its XLU and waits for the fill: the sequencer stands still (R202). -/
def State.stalled (s : State) (n : Nat) : Bool :=
  match s.running n with
  | some (k, _) => s.xlu.misses.any fun (m : Miss) => decide (m.work = .task (Fin.ofNat 16 n)) && m.tid = k % 65536 && !m.faulted
  | none => false

/-- Whether the sequencer goes on: the Scull issues operations, and its task does not wait for a translation (R202, R614). -/
def State.sclGo (s : State) (n : Nat) : Bool := s.sclOn n && !s.stalled n

/-- Whether the sequencer is taken: by a running task, or by one whose commit is under way (R244, R252). -/
def State.seqBusy (s : State) (n : Nat) : Bool := (s.running n).isSome || (s.taskIn n .committing).isSome

/-- An operation was issued: a STEP counts it, and the Scull halts again after the last (R617). -/
def State.issuedOp (s : State) (n : Nat) : State :=
  let x := s.scull n
  match x.stepLeft with
  | none => s
  | some k => s.setScull n (if k ≤ 1 then { x with stepLeft := none, haltPending := some (2, 0, 0) } else { x with stepLeft := some (k - 1) })

/-! ### Halts, breakpoints and watchpoints -/

/-- Asks a Scull to halt with a reason: (reason, slot, lane); the first halt stands (R614). -/
def State.askHalt (s : State) (n : Nat) (r : Nat × Nat × Nat) : State :=
  let x := s.scull n
  if x.halted ∨ x.haltPending.isSome then s
  else s.setScull n { x with haltPending := some r, haltMarks := (List.range 4).map fun j => (Tbl.get {} s.sld (4 * n + j)).issued }

/-- The breakpoint slots of a Scull in the running task's context. -/
def State.bpSlots (s : State) (n : Nat) : List Nat :=
  match s.running n with
  | none => []
  | some (_, t) => (List.range 8).filter fun k => match Tbl.get none s.dbg.bps (n * 8 + k) with
    | some b => b.ctx = t.ctx
    | none => false

/-- The code breakpoint that the operation a Scull is about to issue meets, if any (R619). No command carries the operation's code address, so
whether a slot of its context matches is a free value. -/
def State.codeBp (s : State) (n : Nat) : Option Nat × State :=
  let ks := s.bpSlots n
  if ks = [] then (none, s)
  else
    let r := s.takeFree
    (ks.find? fun k => bit r.1 k, r.2)

/-- Issues an operation unless a breakpoint halts the Scull before it (R619). -/
def State.withBp (s : State) (n : Nat) (op : State → State) : State :=
  match s.codeBp n with
  | (some k, s) => (s.askHalt n (3, k, 0)).bump Fld.DBG_BP_HIT_CNT_CNT 0 1
  | (none, s) => op s

/-- A watchpoint of a Scull met an access: it halts, after the access (R619). -/
def State.watchHit (s : State) (n k : Nat) : State := (s.askHalt n (4, k, 0)).bump Fld.DBG_BP_HIT_CNT_CNT 0 1

/-- An access of a Slide engine to `len` bytes at context address `a`: the lowest watchpoint slot whose range and direction it meets halts the
Scull (R619). -/
def State.watch (s : State) (n ctx a len : Nat) (write : Bool) : State :=
  match (List.range 4).find? fun k => match Tbl.get none s.dbg.wps (n * 4 + k) with
    | some b => b.ctx = ctx && bit b.dir (if write then 1 else 0) && decide (a < b.addr + 2 ^ b.log2) && decide (b.addr < a + len)
    | none => false with
  | some k => s.watchHit n k
  | none => s

/-- An access of the vector unit or the array to tile memory: no command carries its context address, so whether a watchpoint of its context and
direction matches is a free value (R619). -/
def State.watchTile (s : State) (n : Nat) (write : Bool) : State :=
  match s.running n with
  | none => s
  | some (_, t) =>
    let ks := (List.range 4).filter fun k => match Tbl.get none s.dbg.wps (n * 4 + k) with
      | some b => b.ctx = t.ctx && bit b.dir (if write then 1 else 0)
      | none => false
    if ks = [] then s
    else
      let r := s.takeFree
      match ks.find? fun k => bit r.1 k with
      | some k => r.2.watchHit n k
      | none => r.2

/-! ### Ring records (R260) -/

/-- PUB of the ring at `r`. -/
def State.ringPub (s : State) (r : Nat) : Nat := s.coherentNat (r + 0x20) 8

/-- CON of the ring at `r`. -/
def State.ringCon (s : State) (r : Nat) : Nat := s.coherentNat (r + 0x40) 8

/-- BASE of the ring at `r`. -/
def State.ringBaseOf (s : State) (r : Nat) : Nat := s.coherentNat r 8

/-- SIZE of the ring at `r`. -/
def State.ringSizeOf (s : State) (r : Nat) : Nat := s.coherentNat (r + 8) 8

/-- The endpoint code of the ring's consumer. -/
def State.ringConsumer (s : State) (r : Nat) : Nat := s.coherentNat (r + 18) 2

/-- The endpoint code of the ring's producer. -/
def State.ringProducer (s : State) (r : Nat) : Nat := s.coherentNat (r + 16) 2

/-- A count of a ring is written with release semantics (R261): every copy of its line goes. -/
def State.ringPut (s : State) (a v : Nat) : State := s.ownNat a 8 (v % 2 ^ 64)

/-- Publishes PUB. -/
def State.putPub (s : State) (r v : Nat) : State := s.ringPut (r + 0x20) v

/-! ### The ready list -/

/-- The order of R251: whether task `a` runs before task `b`. -/
def Task.before (a b : Task) : Bool :=
  let ka := [a.cls, a.trigger + a.deadlineNs, 255 - a.prio, a.lane, a.id]
  let kb := [b.cls, b.trigger + b.deadlineNs, 255 - b.prio, b.lane, b.id]
  (ka.zip kb).foldr (fun p r => decide (p.1 < p.2) || (decide (p.1 = p.2) && r)) false

/-- A task joins the ready list, or waits for a place in arrival order (R251, R253). -/
def State.makeReady (s : State) (k : Nat) : State :=
  match s.task k with
  | none => s
  | some t =>
    let n := k / 65536
    let l := Tbl.get [] s.ready n
    if l.length < 16 then
      { (s.setTask k { t with st := .ready, held := false }) with ready := Tbl.set [] s.ready n (l ++ [k % 65536]) }.showScull n
    else
      ({ (s.setTask k { t with st := .waiting, held := true }) with
         heldReady := Tbl.set [] s.heldReady n (Tbl.get [] s.heldReady n ++ [k % 65536]) }).bump Fld.SCL_READY_FULL_CNT_CNT n 1

/-- The tasks BLOCKED for space on the output ring `r`, with no transfer of their own under way, are READY again (Table 6.6). -/
def State.wakeFor (s : State) (r : Nat) : State :=
  (s.tasks.filterMap fun kv => match kv.2 with
    | some t =>
      let busy := (List.range 72).any fun e =>
        let x := Tbl.get {} s.sld e
        decide (x.byTask = some kv.1) && (decide (x.st = 1) || decide (x.st = 2) || decide (x.st = 3))
      if t.st = .blocked ∧ (t.outs.any fun o => !o.2.2 && o.1 == r) ∧ !busy then some kv.1 else none
    | none => none).foldl State.makeReady s

/-- Returns CON; a task that waited for the space goes on. -/
def State.putCon (s : State) (r v : Nat) : State := (s.ringPut (r + 0x40) v).wakeFor r

/-- A place of the ready list has freed: the first held task joins (R253). -/
def State.admitHeld (s : State) (n : Nat) : State :=
  match Tbl.get [] s.heldReady n with
  | [] => s
  | id :: t =>
    if (Tbl.get [] s.ready n).length < 16 then
      ({ s with heldReady := Tbl.set [] s.heldReady n t }).makeReady (taskKey n id)
    else s

/-- The first task of a Scull's ready list by R251. -/
def State.firstReady (s : State) (n : Nat) : Option (Nat × Task) :=
  (Tbl.get [] s.ready n).foldl (fun best id => match s.task (taskKey n id) with
    | none => best
    | some t => match best with
      | none => some (taskKey n id, t)
      | some b => if t.before b.2 then some (taskKey n id, t) else best) none

/-! ### Energy (R306, R307) -/

/-- Attributes energy to a lane, to the entry it was spent on where one is named, and to the device: the coefficients are not given, so the amount is a
free value (log entry 6). -/
def State.laneEnergy (s : State) (l : Nat) (seq : Option Nat) (e : Nat) : State :=
  let s := s.bump Fld.CATCH_DEV_ENERGY_NJ 0 e
  if l < 64 then
    let s := s.bump Fld.CATCH_LANE_ENERGY_NJ l e
    match seq with
    | some q => s.onEntry l q fun x => { x with energy := x.energy + e }
    | none => s
  else s

/-- Attributes the energy of the step times an attempt ran to its Scull, its lane and the device, whether or not it commits (R306, R307). -/
def State.addEnergy (s : State) (n : Nat) (t : Task) : State :=
  if t.steps = 0 then s
  else
    let e := Config.energy n t.steps s.free
    (({ s with free := s.free + 1 }).bump Fld.CATCH_ENERGY_NJ n e).laneEnergy t.lane (some t.entry) e

/-! ### The end of an attempt -/

/-- The input rings whose bytes of a task's trigger `i` never come (R248). -/
def Task.skipped (t : Task) (i : Nat) : List Nat := (t.skip.filter fun x => x.1 = i).map (·.2)

/-- A task is done with its trigger: the next one follows. -/
def Task.next (t : Task) : Task :=
  { t with runs := t.runs + 1, skip := t.skip.filter (fun x => x.1 ≠ t.runs), steps := 0, restarts := 0, poisoned := false, saving := false,
           resumed := false, held := false, kept := none, saved := none, commit := none }

/-- A task begins its attempt again (R247). -/
def Task.again (t : Task) : Task :=
  { t with steps := 0, poisoned := false, saving := false, resumed := false, kept := none, saved := none, commit := none }

/-- Returns the credits of a task's inputs, but for the rings `skip` names (R244 step 4, R248). -/
def State.returnCredits (s : State) (t : Task) (skip : List Nat) : State :=
  (t.ins.filter fun i => !skip.contains i.1).foldl (fun s i => s.putCon i.1 (s.ringCon i.1 + i.2)) s

/-- The tasks that consume one of the rings `rs`. -/
def State.consumers (s : State) (rs : List Nat) : List (Nat × Task) :=
  s.tasks.filterMap fun kv => match kv.2 with
    | some t => if t.ins.any fun i => rs.contains i.1 then some (kv.1, t) else none
    | none => none

/-- The rings a task gives outputs on. -/
def Task.outRings (t : Task) : List Nat := (t.outs.filter fun o => !o.2.2).map (·.1)

/-- Every task that consumes an output of a task ended for trigger `i`, directly or through others, ends for that trigger (R248). -/
def State.skipConsumers (i : Nat) : Nat → State → List Nat → State
  | 0, s, _ => s
  | fuel + 1, s, rs =>
    if rs = [] then s
    else
      let cs := (s.consumers rs).filter fun kt => decide (kt.2.runs ≤ i)
      let s := cs.foldl (fun s kt =>
        let hit := (kt.2.ins.map (·.1)).filter fun r => rs.contains r && !(kt.2.skipped i).contains r
        s.setTask kt.1 { kt.2 with skip := kt.2.skip ++ hit.map fun r => (i, r) }) s
      State.skipConsumers i fuel s ((cs.flatMap fun kt => kt.2.outRings).filter fun r => !rs.contains r)

/-- A task leaves the ready list and those that wait for a place in it. -/
def State.unready (s : State) (k : Nat) : State :=
  let n := k / 65536
  { s with ready := Tbl.set [] s.ready n ((Tbl.get [] s.ready n).filter (· ≠ k % 65536)),
           heldReady := Tbl.set [] s.heldReady n ((Tbl.get [] s.heldReady n).filter (· ≠ k % 65536)) }

/-- The values of an attempt, or of a run, that has ended are no one's: no checker of its stays open (R246, R247). -/
def State.dropValues (s : State) (k : Nat) : State :=
  let x := s.scull (k / 65536)
  if x.owner = some k then s.setScull (k / 65536) { x with owner := none, open_ := [] } else s

/-- Stops the transfers a task started (R247). -/
def State.stopTransfers (s : State) (k status : Nat) : State :=
  s.failSlides (fun x => x.byTask = some k) status

/-- Everything an attempt has under way stops (R247): its transfers, the misses of its own accesses, its place in the ready list, its values. -/
def State.stopAttempt (s : State) (k : Nat) : State :=
  let s := (s.stopTransfers k stABORTED).dropMissesOf fun m => decide (m.work = .task (Fin.ofNat 16 (k / 65536))) && m.tid = k % 65536
  (s.unready k).dropValues k

/-! ### Values (R246) -/

/-- The local address of tile memory of Scull `n`. -/
def tileBase (n : Nat) : Nat := 0x01010000000 + n * 0x100000

/-- The bytes of tile memory in the ranges that Maleus declares live for a task's code (R246: which, no table says). -/
def State.liveTile (s : State) (n : Nat) (t : Task) : List (Nat × Byte × Bool) :=
  (Config.liveTile t.code).flatMap fun r => (rangeFrom r.1 r.2).map fun o =>
    let a := tileBase n + o % 0x100000
    (o % 0x100000, s.rdByte a, s.poisoned a)

/-- The values a Scull holds for a task; those of one that is switched out take in its live tile memory. -/
def State.values (s : State) (n : Nat) (t : Task) : Compute :=
  let x := s.scull n
  { planes := x.planes, active := x.active, acc := x.acc, vreg := x.vreg, planePoison := x.planePoison, accPoison := x.accPoison,
    vregPoison := x.vregPoison, tile := if t.st = .switchedOut then s.liveTile n t else [] }

/-- Loads values into a Scull, for the task they belong to. -/
def State.setValues (s : State) (n k : Nat) (c : Compute) : State :=
  let x := s.scull n
  let s := s.setScull n { x with planes := c.planes, active := c.active, acc := c.acc, vreg := c.vreg, planePoison := c.planePoison,
                                 accPoison := c.accPoison, vregPoison := c.vregPoison, owner := some k }
  c.tile.foldl (fun s b =>
    let a := tileBase n + b.1
    let s := s.wrByte a b.2.1
    if b.2.2 then s.setPoison a else if b.1 % 8 = 0 then s.clrPoison a else s) s

/-- The Scull's values are kept for the task they belong to (R246, Table 6.6). -/
def State.keepValues (s : State) (n : Nat) : State :=
  match (s.scull n).owner with
  | some o =>
    (match s.task o with
      | some u => if u.kept.isNone then s.setTask o { u with kept := some (s.values n u) } else s
      | none => s)
  | none => s

/-- The task whose operations are open in a Scull: the running one, or the one whose values it holds. -/
def State.opTask (s : State) (n : Nat) : Option (Nat × Task) :=
  match s.running n, (s.scull n).owner with
  | some r, _ => some r
  | none, some k => (s.task k).map fun t => (k, t)
  | none, none => none

/-! ### Failure (R247, R248) -/

/-- A task is ended for its trigger: its input credits return and nothing is published (R248, R575). -/
def State.endTrigger (s : State) (k : Nat) (t : Task) : State :=
  let n := k / 65536
  let s := (s.stopAttempt k).addEnergy n t
  let s := s.returnCredits t (t.skipped t.runs)
  let s := s.setTask k { t.next with st := .failed }
  let s := State.skipConsumers t.runs 64 s t.outRings
  ((if t.lane < 64 then s.entryDone t.lane t.entry k else s).admitHeld n).showScull n

/-- A task that has not begun for its trigger `i` is ended for it: it returns its inputs when they are published and does not run (R575); ring
address 0 stands for no input. -/
def State.dropTrigger (i : Nat) (s : State) (k : Nat) : State :=
  match s.task k with
  | some t => if i < t.runs ∨ (t.skipped i).contains 0 then s
    else State.skipConsumers i 64 (s.setTask k { t with skip := t.skip ++ [(i, 0)] }) t.outRings
  | none => s

/-- A task is FAILED (R248): one record, its credits, and its lane's entry counted lost with cause task FAILED. -/
def State.taskFail (s : State) (k : Nat) (t : Task) (status : Nat) : State :=
  let n := k / 65536
  let s := (s.bump Fld.SCL_TASK_FAIL_CNT_CNT n 1).record
    { cls := 1, status := status, unit := n, part := t.part, block := 0x08, lane := if t.lane < 64 then some t.lane else none,
      ctx := some t.ctx }
  let lose := fun (s : State) =>
    let s := s.entryLost t.lane 5
    if status = stPOISONED then s.setLane t.lane { s.lane t.lane with gapCause := addCause (s.lane t.lane).gapCause 6 } else s
  let s := if t.lane < 64 then
      (match s.entry t.lane t.entry with
        | some e => if e.ended then s else lose (s.onEntry t.lane t.entry fun e => { e with ended := true })
        | none => lose s)
    else s
  match s.task k with
  | some t => s.endTrigger k t
  | none => s

/-- Whether a task has an attempt: READY, RUNNING, BLOCKED or SWITCHED_OUT, or runnable without a place in the ready list. -/
def Task.begun (t : Task) : Bool :=
  decide (t.st = .ready) || decide (t.st = .running) || decide (t.st = .blocked) || decide (t.st = .switchedOut) || t.held

/-- An attempt ends as a contained error (R247, R248): it restarts from its inputs, or the task is FAILED. A task with no attempt, or whose commit is
under way, is as it was. -/
def State.attemptEnd (s : State) (k status : Nat) : State :=
  match s.task k with
  | none => s
  | some t =>
    if !t.begun then s else
    let n := k / 65536
    let s := s.stopAttempt k
    if t.restarts < s.get Fld.SCL_RESTART_MAX_MAX n then
      (((s.addEnergy n t).setTask k { t.again with restarts := t.restarts + 1 }).bump Fld.SCL_RESTART_CNT_CNT n 1).makeReady k |>.showScull n
    else s.taskFail k t status

/-- A Scull's task is switched out for a fault (R209, R246): one without a save area ends its attempt instead. -/
def State.switchOut (s : State) (k : Nat) : State :=
  match s.task k with
  | none => s
  | some t =>
    if t.saveLen = 0 then s.attemptEnd k stXLATE
    else ((s.setTask k { t with st := .switchedOut, saving := true, resumed := false, kept := none, saved := none }).bump
      Fld.SCL_SWITCH_CNT_CNT (k / 65536) 1).showScull (k / 65536)

/-- The switched-out task's fault is resolved: it is ready once its state is saved (R210, Crossing 5 of chapter 5). -/
def State.resumeTask (s : State) (k : Nat) : State :=
  match s.task k with
  | none => s
  | some t =>
    if t.st ≠ .switchedOut then s
    else if t.saving then s.setTask k { t with resumed := true }
    else s.makeReady k

/-- A blocked task whose transfer has ended is ready again (Table 6.6). -/
def State.unblock (s : State) (k : Nat) : State :=
  match s.task k with
  | some t => if t.st = .blocked then s.makeReady k else s
  | none => s

/-! ### Steps -/

/-- Adds step times to SCL_STEPS and to the task whose operations they are (R249, R282). -/
def State.countSteps (s : State) (n c : Nat) : State :=
  let s := s.bump Fld.SCL_STEPS_CNT n c
  match s.opTask n with
  | some (k, t) => s.setTask k { t with steps := t.steps + c }
  | none => s

/-- The local offset `off` of Scull `n`'s tile memory as an address, wrapped to its 1 MiB. -/
def tileAt (n off : Nat) : Nat := tileBase n + off % 0x100000

/-- A read of tile memory by its own Scull meets the check code of one of the lines it takes (R164, R165, R167). -/
def State.tileEcc (s : State) (n off line : Nat) (e : Ecc) : State :=
  s.meetEcc (s.get Fld.GLB_PKG_ID_PKG_ID 0 * 2 ^ 44 + tileAt n (off + 64 * line) / 64 * 64) e

/-- Sets or clears a mark. -/
def NatSet.put (t : NatSet) (k : Nat) (on : Bool) : NatSet := if on then NatSet.add t k else NatSet.del t k

/-- A confirmed array step (R230, R235, R236): every column adds into the entry it names. A poisoned operand poisons every column, a poisoned weight its
own (R168). -/
def State.applyArray (s : State) (n : Nat) (op : ArrayOp) (plane : Nat) : State :=
  let x := s.scull n
  let e := op.entry.val
  let r := (List.range 512).foldl (fun (p : Tbl Nat × Fpx) c =>
    let w := (List.range 128).map fun row => Tbl.get 0 x.planes (plane * 65536 + row * 512 + c)
    let v := columnStep op w (Tbl.get 0 p.1 (e * 512 + c))
    (Tbl.set 0 p.1 (e * 512 + c) v.1, p.2.or v.2)) (x.acc, {})
  let bad := fun (w : Nat) => op.poisoned || (List.range 128).any fun row =>
    NatSet.has x.planePoison (plane * 65536 + row * 512 + 2 * w) || NatSet.has x.planePoison (plane * 65536 + row * 512 + 2 * w + 1)
  let marks := (List.range 256).foldl (fun m w => if bad w then NatSet.add m (e * 256 + w) else m) x.accPoison
  (s.setScull n { x with acc := r.1, accPoison := marks }).raiseFpx n r.2

/-- One register lane. -/
def Scull.lane (x : Scull) (r i : Nat) : Nat := Tbl.get 0 x.vreg (r * 512 + i)

/-- Writes a register from a list of lane values. -/
def Scull.setReg (x : Scull) (r : Nat) (l : List Nat) : Scull :=
  { x with vreg := (List.range 512).foldl (fun v i => Tbl.set 0 v (r * 512 + i) (l.getD i 0)) x.vreg }

/-- Whether word `w` of a register is poisoned (R168). -/
def Scull.bad (x : Scull) (r w : Nat) : Bool := NatSet.has x.vregPoison (r * 256 + w)

/-- Marks the words of a register (R168). -/
def Scull.markBy (x : Scull) (d : Nat) (p : Nat → Bool) : Scull :=
  { x with vregPoison := (List.range 256).foldl (fun m w => NatSet.put m (d * 256 + w) (p w)) x.vregPoison }

/-- Carries poison marks from operand registers to the result, word by word (R168). -/
def Scull.mark (x : Scull) (from_ : List Nat) (d : Nat) : Scull := x.markBy d fun w => from_.any fun r => x.bad r w

/-- The 512 lanes as a list. -/
def Scull.reg (x : Scull) (r : Nat) : List Nat := (List.range 512).map fun i => x.lane r i

/-- A lane-wise operation whose lane `i` is `f i`, from operand registers. -/
def State.laneWise (s : State) (n : Nat) (from_ : List Nat) (d : Nat) (f : Nat → Nat × Fpx) : State :=
  let x := s.scull n
  let r := (List.range 512).map f
  (s.setScull n ((x.setReg d (r.map (·.1))).mark from_ d)).raiseFpx n (r.foldl (fun a v => a.or v.2) {})

/-- A confirmed vector operation (R238). -/
def State.applyVec (s : State) (n : Nat) (op : VecOp) : State :=
  let x := s.scull n
  match op with
  | .int f a b d => s.laneWise n [a, b] d fun i => (intLane f (x.lane a i) (x.lane b i), {})
  | .fp f a b d => s.laneWise n [a, b] d fun i => fpLane f (x.lane a i) (x.lane b i)
  | .approx f a b d => s.laneWise n (if f = .atan2 then [a, b] else [a]) d fun i => approxLane f (x.lane a i) (x.lane b i)
  | .select c a b d => s.laneWise n [c, a, b] d fun i => (if x.lane c i ≠ 0 then x.lane a i else x.lane b i, {})
  | .fma a b c d => s.laneWise n [a, b, c] d fun i => fmaLane (x.lane a i) (x.lane b i) (x.lane c i)
  | .conv src dst a d none => s.laneWise n [a] d fun i => convert src dst (x.lane a i)
  | .conv src dst a d (some q) => s.laneWise n [a, q.1, q.2] d fun i => requantize src dst (x.lane a i) (x.lane q.1 i) (x.lane q.2 i)
  | .reduce f a d =>
    let r := reduceLanes f (x.reg a)
    let y := { x with vreg := Tbl.set 0 x.vreg (d.val * 512) r.1,
                      vregPoison := NatSet.put x.vregPoison (d.val * 256) (((List.range 256).any fun w => x.bad a w) || x.bad d 0) }
    (s.setScull n y).raiseFpx n r.2
  | .load off d ecc line =>
    let s := s.tileEcc n off line ecc
    let y := x.setReg d ((List.range 512).map fun i => s.rdNat (tileAt n (off + 4 * i)) 4)
    s.setScull n (y.markBy d fun w => s.poisoned (tileAt n (off + 8 * w)))
  | .store a off =>
    let s := (List.range 512).foldl (fun s i => s.wrNat (tileAt n (off + 4 * i)) 4 (x.lane a i)) s
    (List.range 256).foldl (fun s w => if x.bad a w then s.setPoison (tileAt n (off + 8 * w)) else s.clrPoison (tileAt n (off + 8 * w))) s

/-- Whether an operation used a poisoned value (R168). -/
def State.opPoisoned (s : State) (n : Nat) : PendOp → Bool
  | .array op _ => op.poisoned
  | .vec (.load off _ _ _) => (List.range 256).any fun w => s.poisoned (tileAt n (off + 8 * w))
  | .vec (.store a _) => (List.range 256).any fun w => (s.scull n).bad a w
  | .vec _ => false

/-- Confirms the oldest open operation of a Scull (R279). -/
def State.confirm (s : State) (n : Nat) : State :=
  match (s.scull n).open_ with
  | [] => s
  | op :: rest =>
    let s := s.setScull n { s.scull n with open_ := rest }
    let s := match op with
      | .array a p => s.applyArray n a p
      | .vec v => s.applyVec n v
    match s.opTask n with
    | some (k, t) => s.setTask k { t with poisoned := t.poisoned || s.opPoisoned n op }
    | none => s

/-! ### What an open operation reads and writes (R279, R283) -/

/-- Whether an open operation is an array step into an entry. -/
def PendOp.into (e : Nat) : PendOp → Bool
  | .array op _ => op.entry.val = e
  | .vec _ => false

/-- Whether an open operation reads or writes a vector register. -/
def PendOp.touches (r : Nat) : PendOp → Bool
  | .array _ _ => false
  | .vec op => op.reads.contains r || op.writes == some r

/-- Whether an open operation uses a weight plane. -/
def PendOp.uses (p : Nat) : PendOp → Bool
  | .array _ q => q = p
  | .vec _ => false

/-- Whether an open operation writes tile memory. -/
def PendOp.stores : PendOp → Bool
  | .vec (.store _ _) => true
  | _ => false

/-- How many of the operations after a late one consumed a provisional value derived from it (R280): steps into a tainted entry, and vector operations
that read a tainted register. A store to tile memory waits for its value (R285) and consumes none. -/
def dependants : List Nat → List Nat → List PendOp → Nat
  | _, _, [] => 0
  | es, rs, .array op _ :: t => b2n (es.contains op.entry.val) + dependants es rs t
  | es, rs, .vec op :: t =>
    let hit := op.reads.any rs.contains && op.writes.isSome
    let w := op.writes.toList
    b2n hit + dependants es (if hit then rs ++ w else rs.filter fun r => !w.contains r) t

/-- The dependants of the oldest open operation, at most 3 (R280). -/
def PendOp.dependants (op : PendOp) (later : List PendOp) : Nat :=
  min 3 (match op with
    | .array a _ => Machine.dependants [a.entry.val] [] later
    | .vec v => Machine.dependants [] v.writes.toList later)

/-- The datapath rail at aggressiveness `a` and V_so `v` in mV, rounded down, never below 400 mV (R277). -/
def dataMv (v a : Nat) : Nat := max 400 ((v * 10 - 125 * a) / 10)

/-- The supply of a rail now: it moves by at most 10 mV per microsecond (R95, R290). -/
def Rail.now (r : Rail) (t : Nat) : Nat :=
  let d := (t - r.since) * 10 / 1000
  if r.start ≤ r.mv then min r.mv (r.start + d) else max r.mv (r.start - d)

/-- The supply of a rail: 0 and 1 the halves' VDD_CORE, 2 + n a Scull's timing rail, 18 + n its datapath rail. -/
def State.railNow (s : State) (k : Nat) : Nat := (Tbl.get {} s.pwr.rails k).now s.now

/-- A rail begins to move from where it is (R95, R290). -/
def State.moveRail (s : State) (k v : Nat) : State :=
  { s with pwr := { s.pwr with rails := Tbl.set {} s.pwr.rails k { mv := v, start := s.railNow k, since := s.now } } }

/-- Sets a Scull's A with its datapath rail, and starts a new window (R277, R289). -/
def State.setA (s : State) (n a : Nat) : State :=
  let v := dataMv (s.get Fld.CATCH_STATE_VSO_MV n) a
  let s := ((s.put Fld.CATCH_STATE_A n a).put Fld.CATCH_STATE_DATA_MV n v).moveRail (18 + n) v
  s.setScull n { s.scull n with windowSteps := 0, windowErrs := 0, quiet := 0 }

/-- Sets a Scull's V_so, and both its rails with it (R277, R288, R290). -/
def State.setVso (s : State) (n v : Nat) : State :=
  let d := dataMv v (s.get Fld.CATCH_STATE_A n)
  (((s.put Fld.CATCH_STATE_VSO_MV n v).put Fld.CATCH_STATE_DATA_MV n d).moveRail (2 + n) v).moveRail (18 + n) d

/-- Counts a closed step in the window; too many Catch errors lower A by 1 (R289). -/
def State.windowStep (s : State) (n errs : Nat) : State :=
  let x := s.scull n
  let len := 2 ^ s.get Fld.CATCH_GOV_CFG_WINDOW_LOG2 0
  let s := s.setScull n { x with windowSteps := x.windowSteps + 1, windowErrs := x.windowErrs + errs }
  if len < (x.windowErrs + errs) * 10000 then
    let q := s.setA n (s.get Fld.CATCH_STATE_A n - 1)
    q
  else s

/-- Adds replay time in tenths of a step time (R280 to R282). -/
def State.addTenths (s : State) (n t : Nat) : State :=
  let x := s.scull n
  let tot := x.tenths + t
  (s.setScull n { x with tenths := tot % 10 }).countSteps n (tot / 10)

/-- Replay time, in tenths of a step time, of a Catch error confirmed at notch `k` with `d` dependants (R281). -/
def replayTenths : Nat → Nat → Nat
  | 0, _ => 0
  | k + 1, d => replayTenths k d + (10 + 8 * (k + 1)) + 10 * d

/-- A step late at notch 3 escalates (R281, R312). -/
def State.escalate (s : State) (n : Nat) : State :=
  let s := match s.opTask n with
    | some (k, _) => s.attemptEnd k stABORTED
    | none => s
  let s := ((s.setA n 0).bump Fld.CATCH_ESC_CNT_CNT n 1).record { cls := 1, status := stABORTED, unit := n, block := 0x0C }
  let x := s.scull n
  let l := s.now :: x.escTimes.filter fun t => decide (s.now < t + 1000000000)
  let s := s.setScull n { x with escTimes := l.take 3 }
  if 3 ≤ l.length ∧ s.get Fld.CATCH_CTRL_ESC_LOCK n = 0 then
    (s.put Fld.CATCH_CTRL_ESC_LOCK n 1).record { cls := 0, status := stABORTED, unit := n, block := 0x0C }
  else s

end Sys2Proof.Machine
end

