-- ==== Sys2Proof/Machine/ReportOps.lean ====
section
/-!
DEFINITION. The report path: report records (Tables 12.1 and 12.2), the host rings and their backlogs (R477 to R480, R518), drop markers (R481),
and UDP collectors (R482 to R485).
-/
namespace Sys2Proof.Machine

/-- The 64 bytes of a record (Table 12.1). -/
def Report.bytes (r : Report) : List Byte :=
  leBytes 1 r.lane ++ leBytes 1 r.kind ++ leBytes 2 r.flags ++ leBytes 4 r.seq ++ leBytes 8 r.devTime ++ leBytes 4 r.score ++
  leBytes 4 r.modelId ++ ((r.src ++ [0xFF, 0xFF, 0xFF]).take 3).flatMap (leBytes 1) ++ leBytes 1 r.state ++
  ((r.w ++ [0, 0, 0]).take 3).flatMap (leBytes 2) ++ leBytes 1 r.part ++ leBytes 1 r.pkg ++ leBytes 4 r.count ++
  leBytes 8 r.tFrom ++ (r.detail ++ List.replicate 16 0).take 16

/-- The marker that stands for `n` dropped records of a lane of which `r` is the first, as made at device time `dev` (R481). -/
def markerOf (r : Report) (n dev tflags : Nat) : Report :=
  { r with kind := 8, flags := tflags % 32 + 32 + r.flags / 64 * 64, count := n, devTime := dev, tFrom := 0,
           detail := leBytes 1 7 ++ leBytes 1 3, src := [], w := [] }

/-- What a lane's record does besides going out: the kind-specific fields (Table 12.2). -/
structure RptArgs where
  kind : Nat
  devTime : Nat
  tflags : Nat := 0
  count : Nat := 0
  tFrom : Nat := 0
  detail : List Byte := []
  src : List Nat := []
  w : List Nat := []

/-- The time flags of device time now (Table 8.8 bits 0 and 1). -/
def State.timeFlags (s : State) : Nat :=
  match s.get Fld.NET_PTP_STATUS_STATE 0 with
  | 2 => 2
  | _ => if s.flag Fld.NET_PTP_STATUS_SYNC 0 then 0 else 1

/-- A record of a lane with SEQ `q` as the lane stands (Table 12.1). -/
def State.mkReport (s : State) (l q : Nat) (a : RptArgs) : Report :=
  let st := s.get Fld.LRN_NOV_STATE_STATE l + 4 * s.get Fld.LRN_NOV_STATE_ACKED l + 8 * s.get Fld.LRN_NOV_STATE_LEARN_FROZEN l
  { lane := l, kind := a.kind, seq := q, devTime := a.devTime, count := a.count, tFrom := a.tFrom, detail := a.detail,
    src := a.src, w := a.w, part := s.lanePart l, pkg := s.get Fld.GLB_PKG_ID_PKG_ID 0, score := s.get Fld.LRN_SCORE_S l, state := st,
    modelId := if s.laneAdmitted l then s.laneField l 8 4 else 0,
    flags := a.tflags % 32 + 64 * s.get Fld.LRN_MOD_TEACH l + 128 * s.get Fld.LRN_MOD_MARK l }

/-- Whether a record is a marker. -/
def Report.isMarker (r : Report) : Bool := bit r.flags 5

/-! ### Host rings -/

/-- Whether the ring of partition `p` can take a record now; the second part is whether its memory answers the write DENIED (R518). -/
def State.rptRoom (s : State) (p : Nat) : Bool × Bool :=
  let base := s.get Fld.RPT_RING_BASE_BASE p * 64
  let size := s.get Fld.RPT_RING_SIZE_SIZE p
  let st := [s.memCheck p true (base + s.get Fld.RPT_RING_PROD_PROD p % max size 1 * 64) 64, s.memCheck p true (base + size * 64) 8]
  let full := decide (size ≤ (s.get Fld.RPT_RING_PROD_PROD p + 2 ^ 32 - s.get Fld.RPT_RING_CONS_CONS p) % 2 ^ 32)
  if base = 0 then (false, false) else (st.all (· = stOK) && !full, st.contains stDENIED)

/-- Writes a record to the ring of partition `p`, then the count and its write-back (R478), and raises vector 1. -/
def State.rptWrite (s : State) (p : Nat) (r : Report) : State :=
  let base := s.get Fld.RPT_RING_BASE_BASE p * 64
  let size := s.get Fld.RPT_RING_SIZE_SIZE p
  let prod := s.get Fld.RPT_RING_PROD_PROD p
  let s := s.ownBytes (base + prod % max size 1 * 64) r.bytes
  let s := s.put Fld.RPT_RING_PROD_PROD p (prod + 1)
  let s := s.ownNat (base + size * 64) 8 ((prod + 1) % 2 ^ 32)
  ({ s with rpt := { s.rpt with failing := NatSet.del s.rpt.failing p } }).msix p 1

/-- Sets a partition's backlog and shows its length. -/
def State.setBacklog (s : State) (p : Nat) (l : List Report) : State :=
  ({ s with rpt := { s.rpt with backlog := Tbl.set [] s.rpt.backlog p l } }).put Fld.RPT_BACKLOG_N p l.length

/-- Notes that delivery to the ring fails: one record per transition (R518). -/
def State.rptFailing (s : State) (p : Nat) : State :=
  if NatSet.has s.rpt.failing p then s
  else ({ s with rpt := { s.rpt with failing := NatSet.add s.rpt.failing p } }).record
    { cls := 0, status := stDENIED, part := p, block := 0x16 }

/-- Writes backlog records to the ring, oldest first, as space allows (R479). -/
def State.rptDrain : Nat → Nat → State → State
  | 0, _, s => s
  | n + 1, p, s =>
    match Tbl.get [] s.rpt.backlog p with
    | [] => s
    | r :: rs =>
      let room := s.rptRoom p
      if room.1 then State.rptDrain n p ((s.rptWrite p r).setBacklog p rs)
      else if room.2 then s.rptFailing p else s

/-- Drains a partition's whole backlog where it can. -/
def State.drainAll (s : State) (p : Nat) : State := State.rptDrain ((Tbl.get [] s.rpt.backlog p).length) p s

/-- Adds one dropped record of a lane to the marker that ends its records in a list, or appends the marker `m` (R481). -/
def addDrop (l : List Report) (m : Report) : List Report :=
  match (l.filter fun x => x.lane = m.lane).getLast? with
  | some x => if x.isMarker then l.map fun y => if y = x then { x with count := x.count + 1 } else y else l ++ [m]
  | none => l ++ [m]

/-- A record for partition `p`'s ring: written at once, or put in the backlog, or dropped (R478, R479, R481). -/
def State.toRing (s : State) (p : Nat) (r : Report) : State :=
  let l := Tbl.get [] s.rpt.backlog p
  if (l.filter fun x => !x.isMarker).length < 4096 then (s.setBacklog p (l ++ [r])).drainAll p
  else (s.setBacklog p (addDrop l (markerOf r 1 s.dev s.timeFlags))).bump Fld.RPT_DROP_CNT_CNT p 1

/-! ### Collectors -/

/-- A collector's state. -/
def State.col (s : State) (i : Nat) : Option Collector := Tbl.get none s.rpt.cols i

/-- Sets a collector and shows its unacknowledged datagrams. -/
def State.setCol (s : State) (i : Nat) (c : Collector) : State :=
  ({ s with rpt := { s.rpt with cols := Tbl.set none s.rpt.cols i (some c) } }).put Fld.RPT_COL_STATUS_UNACKED i c.unacked.length

/-- A datagram's payload (Table 12.4). -/
def State.dgramBytes (s : State) (i dseq flags : Nat) (rs : List Report) : List Byte :=
  ascii ['T', 'W', 'R', 'P'] ++ leBytes 1 1 ++ leBytes 1 rs.length ++ leBytes 1 i ++ leBytes 1 flags ++ leBytes 4 dseq ++
  leBytes 1 (s.get Fld.GLB_PKG_ID_PKG_ID 0) ++ leBytes 3 0 ++ rs.flatMap Report.bytes

/-- Whether the first `n` bits of two addresses agree. -/
def samePrefix (n : Nat) (a b : List Byte) : Bool :=
  let k := 8 * a.length - n
  beNat a / 2 ^ k = beNat b / 2 ^ k

/-- The die and SFP28 port through which a collector is reached (R484): the first NET record whose prefix of its family contains its address, else the first
with a gateway of that family. A port whose address of a family is 0 has no prefix of it (log entry 103). -/
def State.colPort (s : State) (c : Collector) : Option (Nat × Nat) :=
  let v6 := decide (c.family = 6)
  let own := fun (r : List Byte) => if v6 then slice r 4 16 else slice r 24 4
  let gate := fun (r : List Byte) => if v6 then slice r 36 16 else slice r 32 4
  let n := fun (r : List Byte) => if v6 then leAt r 20 1 else leAt r 28 1
  let dst := if v6 then c.addr else c.addr.take 4
  let near := s.boot.ports.find? fun r => !allZero (own r) && samePrefix (n r) (own r) dst
  (near.or (s.boot.ports.find? fun r => !allZero (gate r))).map fun r => (leAt r 1 1, leAt r 2 1)

/-- Whether a collector with ACK_MODE 1 has as many unacknowledged datagrams as the unit keeps (R485). -/
def State.colFull (s : State) (i : Nat) (c : Collector) : Bool := s.flag Fld.RPT_COL_CFG_ACK_MODE i && decide (64 ≤ c.unacked.length)

/-- Sends the first 22 records of a collector's datagram (R482, R483); one without a resolved next hop (R484, R520), or behind 64 unacknowledged ones
(R485), waits. -/
def State.sendDgram (s : State) (i : Nat) : State :=
  match s.col i with
  | none => s
  | some c =>
    if c.fill = [] ∨ s.get Fld.RPT_COL_STATUS_RESOLVED i = 0 ∨ s.colFull i c then s
    else
      let rs := c.fill.take 22
      let d : Dgram := { dseq := c.dseq, recs := rs, sentAt := s.now, resends := 0 }
      let c' := { c with fill := c.fill.drop 22, firstAt := s.now, dseq := (c.dseq + 1) % 2 ^ 32,
                         unacked := if s.flag Fld.RPT_COL_CFG_ACK_MODE i then c.unacked ++ [d] else c.unacked }
      ((s.setCol i c').bump Fld.RPT_COL_DGRAM_CNT_CNT i 1).emit (.datagram i (s.colPort c) (s.dgramBytes i c.dseq 0 rs))

/-- Drops a record from a collector: it joins the lane's run (R481, R485, R520); a marker gives back the run it stood for. -/
def State.colDrop (s : State) (i : Nat) (r : Report) : State :=
  let k := (8 + i) * 64 + r.lane
  let n := if r.isMarker then r.count else 1
  let run := match Tbl.get none s.rpt.runs k with
    | some (f, m) => (min f r.seq, m + n)
    | none => (r.seq, n)
  ({ s with rpt := { s.rpt with runs := Tbl.set none s.rpt.runs k (some run) } }).bump Fld.RPT_COL_LOST_CNT_CNT i (if r.isMarker then 0 else 1)

/-- The markers of a collector's runs, which go before the next record (R481, R485). -/
def State.colMarkers (s : State) (i : Nat) : List Report × State :=
  let ks := (List.range 64).filter fun l => (Tbl.get none s.rpt.runs ((8 + i) * 64 + l)).isSome
  let ms := ks.map fun l =>
    let run := (Tbl.get none s.rpt.runs ((8 + i) * 64 + l)).getD (0, 0)
    markerOf (s.mkReport l run.1 { kind := 8, devTime := s.dev }) run.2 s.dev s.timeFlags
  (ms, { s with rpt := { s.rpt with runs := ks.foldl (fun t l => Tbl.set none t ((8 + i) * 64 + l) none) s.rpt.runs } })

/-- A record for collector `i` (R482, R483, R485, R520). -/
def State.toCol (s : State) (i : Nat) (r : Report) : State :=
  match s.col i with
  | none => s
  | some c =>
    if s.flag Fld.RPT_COL_STATUS_DOWN i ∨ s.colFull i c then s.colDrop i r
    else
      let (ms, s) := s.colMarkers i
      let c' := { c with fill := c.fill ++ ms ++ [r], firstAt := if c.fill = [] then s.now else c.firstAt }
      let s := (List.range (c'.fill.length / 22)).foldl (fun s _ => s.sendDgram i) (s.setCol i c')
      if r.kind = 2 ∨ r.kind = 3 then s.sendDgram i else s

/-! ### Emission -/

/-- A record that a lane breakpoint selects halts every Scull that holds a task of the lane (R620). -/
def State.laneBpHit (s : State) (l kind : Nat) : State :=
  if bit (Tbl.get 0 s.dbg.laneBp l) (kind - 1) then
    let ns := ((s.laneTasks l).map fun k => k / 65536).dedup
    ns.foldl (fun s n => s.askHalt n (5, 0, l)) (s.bump Fld.DBG_BP_HIT_CNT_CNT 0 1)
  else s

/-- The panel's part of a record that names it (R486): an ALARM record of a listed lane starts the buzzer (R532, R537). The panel's other
indications follow from the lane's state. -/
def State.panelRecord (s : State) (l kind : Nat) : State :=
  if kind = 2 ∧ s.laneAdmitted l then ({ s with pnl := { s.pnl with alarm := true } }).emit (.note (0x1A00 + kind) l)
  else s.emit (.note (0x1A00 + kind) l)

/-- A lane emits a record (R471 to R475): the next SEQ, to the destinations of its mask. -/
def State.emitReport (s : State) (l : Nat) (a : RptArgs) : State :=
  let q := s.get Fld.RPT_NEXT_SEQ_SEQ l
  let p := s.lanePart l
  let r := s.mkReport l q a
  let m := s.get Fld.LANE_REPORT_MASK_MASK l
  let s := s.put Fld.RPT_NEXT_SEQ_SEQ l (q + 1)
  let s := if bit m 0 then s.toRing p r else s
  let s := (List.range 4).foldl (fun s i => if bit m (1 + i) then s.toCol i r else s) s
  let s := if bit m 5 then s.panelRecord l a.kind else s
  s.laneBpHit l a.kind

/-- A HEALTH record (Table 12.3): `src` is 0 panel, 1 register, 2 mailbox, 3 unit. -/
def State.emitHealth (s : State) (l sub src count : Nat) : State :=
  s.emitReport l { kind := 8, devTime := s.dev, tflags := s.timeFlags, count := count, detail := leBytes 1 sub ++ leBytes 1 src }

/-- Emits the GAP record of an interval or an absence, and clears its counts (R351, R352). -/
def State.emitGap (s : State) (l from_ upTo : Nat) : State :=
  let x := s.lane l
  let s := (s.emitReport l { kind := 4, devTime := upTo, tflags := s.timeFlags, count := x.gapShed, tFrom := from_,
                             detail := leBytes 4 x.gapLost ++ leBytes 1 x.gapCause }).bump Fld.LANE_GAP_CNT_CNT l 1
  s.setLane l { s.lane l with gapShed := 0, gapLost := 0, gapCause := 0 }

/-- A lane's state or shed level changed: vector 4 of its partition's function (Table 12.6). -/
def State.laneIrq (s : State) (l : Nat) : State := s.msix (s.lanePart l) 4

/-- Sets LANE_STATUS.STATE (Table 8.2). -/
def State.putLaneState (s : State) (l st : Nat) : State :=
  if s.laneState l = st then s else (s.put Fld.LANE_STATUS_STATE l st).laneIrq l

end Sys2Proof.Machine
end

