-- ==== Sys2Proof/Machine/LeOps.lean ====
section
/-!
DEFINITION. The Learning Engine: neurons, deliveries and spikes (R371 to R375), rule tables and weight updates (R376 to R379), normalisation
(R381, R382), delay learning (R384), structural plasticity (R385 to R388), the modulator (R390, R391), novelty (R394 to R399), and the deferral
of learning by a pause (R414 to R417).
-/
namespace Sys2Proof.Machine

/-! ### FP32 division, roots and powers -/

/-- The quotient of two values, with enough bits and a sticky bit for correct rounding. -/
def fpDivV (a b : FpVal) : FpVal :=
  match a, b with
  | .nan, _ => .nan
  | _, .nan => .nan
  | .inf _, .inf _ => .nan
  | .inf n, .fin k _ _ => .inf (n != k)
  | .fin n _ _, .inf k => .fin (n != k) 0 0
  | .fin n m e, .fin k p g =>
    if p = 0 then (if m = 0 then .nan else .inf (n != k))
    else
      let sh := 64 + Nat.log2 p
      let q := m * 2 ^ sh / p
      let r := m * 2 ^ sh % p
      .fin (n != k) (2 * q + (if r = 0 then 0 else 1)) (e - g - sh - 1)

/-- FP32 division, rounded to nearest even. -/
def fp32Div (a b : Nat) : Nat := (fpEncode .fp32 (fpDivV (fpDecode .fp32 a) (fpDecode .fp32 b))).1

/-- The integer square root, bit by bit from `2 ^ k` down. -/
def isqrt (x : Nat) : Nat → Nat → Nat
  | 0, r => r
  | k + 1, r => let c := r + 2 ^ k; isqrt x k (if c * c ≤ x then c else r)

/-- FP32 square root, rounded to nearest even; a negative operand gives NaN. -/
def fp32Sqrt (a : Nat) : Nat :=
  match fpDecode .fp32 a with
  | .nan => fpNan .fp32
  | .inf n => if n then fpNan .fp32 else a
  | .fin n m e =>
    if m = 0 then a
    else if n then fpNan .fp32
    else
      let m' := if e % 2 = 0 then m * 2 ^ 60 else m * 2 ^ 61
      let e' := if e % 2 = 0 then e - 60 else e - 61
      let r := isqrt m' 48 0
      (fpEncode .fp32 (.fin false (2 * r + (if r * r = m' then 0 else 1)) (e' / 2 - 1))).1

/-- FP32 negation. -/
def fp32Neg (a : Nat) : Nat := if a < 2 ^ 31 then a + 2 ^ 31 else a - 2 ^ 31

/-- FP32 subtraction. -/
def fp32Sub (a b : Nat) : Nat := fp32Add a (fp32Neg b)

/-- The magnitude of an FP32 value. -/
def fp32Abs (a : Nat) : Nat := a % 2 ^ 31

/-- FP32 comparison `a < b`. -/
def fp32Lt (a b : Nat) : Bool := fpLt (fpDecode .fp32 a) (fpDecode .fp32 b)

/-- FP32 comparison `a ≤ b`; false on NaN. -/
def fp32Le (a b : Nat) : Bool := fp32Lt a b || fpEq (fpDecode .fp32 a) (fpDecode .fp32 b)

/-- The FP32 value nearest an integer. -/
def fp32OfInt (x : Int) : Nat := (fpEncode .fp32 (.fin (x < 0) x.natAbs 0)).1

/-- The nearest integer of an FP32 value, ties to even, clamped to `w` bits. -/
def fp32ToInt (w a : Nat) : Int := (fpToInt w (fpDecode .fp32 a)).1

/-- Whether an FP32 value is NaN or infinite. -/
def fp32Bad (a : Nat) : Bool := 255 * 2 ^ 23 ≤ a % 2 ^ 31

/-- FP16 to FP32, exact. -/
def fp16to32 (a : Nat) : Nat := (convert .fp16 .fp32 a).1

/-- A decay factor to the power `n` (R371, R375): within 2 units in the last place of the exact result; where in that range is a free value
that depends on the factor and `n` alone (log entry 6). -/
def decayPow (factor n : Nat) : Nat :=
  match fpDecode .fp16 factor with
  | .fin _ m e =>
    let exact := if n = 0 then (0x3F800000, true) else if m = 0 then (0, true) else if 2 ^ 18 ≤ n ∧ factor ≠ 0x3C00 then (0, false)
      else if factor = 0x3C00 then (0x3F800000, true)
      else fpFloor (m ^ n) (e * n)
    withinUlps exact (Config.decayUlp factor n)
  | _ => 0

/-! ### Descriptors (Table 9.2) -/

/-- A field of a population descriptor. -/
def Pop.f (p : Pop) (off n : Nat) : Nat := leAt p.desc off n

/-- A flag of FLAGS. -/
def Pop.flag (p : Pop) (b : Nat) : Bool := bit (p.f 3 1) b

/-- KIND: 0 INPUT, 1 HIDDEN, 2 PREDICT. -/
def Pop.kind (p : Pop) : Nat := p.f 1 1

/-- The event tick in ns (R361). -/
def Pop.tick (p : Pop) : Nat := max 1 (p.f 0x0C 2) * 1000

/-- The persistence mode in force (R408, R572). -/
def Pop.mode (p : Pop) : Nat := if p.asHost then 2 else bits (p.f 3 1) 7 6

/-- Whether a population's learning is frozen (R392). -/
def Pop.isFrozen (p : Pop) : Bool := p.freeze || p.laneFrozen

/-- A Learning Engine. -/
def State.leng (s : State) (h : Nat) : LeSt := Tbl.get {} s.le h

/-- Sets a Learning Engine. -/
def State.setLe (s : State) (h : Nat) (x : LeSt) : State := { s with le := Tbl.set {} s.le h x }

/-- A population. -/
def State.pop (s : State) (h p : Nat) : Option Pop := Tbl.get none (s.leng h).pops p

/-- Sets a population. -/
def State.setPop (s : State) (h p : Nat) (x : Option Pop) : State :=
  s.setLe h { s.leng h with pops := Tbl.set none (s.leng h).pops p x }

/-- A neuron. -/
def State.neuron (s : State) (h j : Nat) : Option Neuron := Tbl.get none (s.leng h).neurons j

/-- Sets a neuron. -/
def State.setNeuron (s : State) (h j : Nat) (n : Neuron) : State :=
  s.setLe h { s.leng h with neurons := Tbl.set none (s.leng h).neurons j (some n) }

/-- The population of a neuron. -/
def State.popOf (s : State) (h j : Nat) : Option Pop :=
  match s.neuron h j with
  | some n => s.pop h n.pop
  | none => none

/-- The number of a neuron's population, or 64. -/
def State.popNo (s : State) (h j : Nat) : Nat :=
  match s.neuron h j with
  | some n => n.pop
  | none => 64

/-- A fan-out row. -/
def State.row (s : State) (h i : Nat) : List Syn := Tbl.get [] (s.leng h).rows i

/-- Sets a fan-out row. -/
def State.setRow (s : State) (h i : Nat) (l : List Syn) : State :=
  s.setLe h { s.leng h with rows := Tbl.set [] (s.leng h).rows i l }

/-- A synapse by its row and name. -/
def State.syn (s : State) (h i uid : Nat) : Option Syn := (s.row h i).find? fun (y : Syn) => y.uid = uid

/-- Changes a synapse. -/
def State.modSyn (s : State) (h i uid : Nat) (f : Syn → Syn) : State :=
  s.setRow h i ((s.row h i).map fun (y : Syn) => if y.uid = uid then f y else y)

/-- Marks a population dirty (R409). -/
def State.setDirty (s : State) (h p : Nat) : State :=
  match s.pop h p with
  | some x => (s.setPop h p (some { x with dirty := true })).put Fld.BH_POP_STATUS_DIRTY (64 * h + p) 1
  | none => s

/-- The valid incoming synapses of a neuron, in record order (R375): source and name. -/
def State.incoming (s : State) (h j : Nat) : List (Nat × Nat) :=
  (s.leng h).rows.flatMap fun kv => (kv.2.filter fun (y : Syn) => y.valid && y.target = j).map fun (y : Syn) => (kv.1, y.uid)

/-- Writes one error record of an engine to a population's partition. -/
def State.leRecord (s : State) (h part cls status : Nat) : State :=
  s.record { cls := cls, status := status, unit := 0x30 + h, part := part, block := 0x12 }

/-! ### Weights -/

/-- The value of a stored weight under the target's population (R370). -/
def Pop.weight (p : Pop) (w : Nat) : Nat :=
  match p.f 2 1 with
  | 0 => fp32Mul (fp32OfInt (toInt 16 w)) (p.f 0x28 4)
  | 1 => fp16to32 w
  | _ => (convert .bf16 .fp32 w).1

/-- The stored weight nearest a value (R379 step 3). -/
def Pop.encode (p : Pop) (v : Nat) : Nat :=
  match p.f 2 1 with
  | 0 => ofInt 16 (fp32ToInt 16 (fp32Div v (p.f 0x28 4)))
  | 1 => (convert .fp32 .fp16 v).1
  | _ => (convert .fp32 .bf16 v).1

/-- A value clamped to [W_MIN, W_MAX]. -/
def Pop.clampW (p : Pop) (v : Nat) : Nat :=
  if fp32Lt v (p.f 0x2C 4) then p.f 0x2C 4 else if fp32Lt (p.f 0x30 4) v then p.f 0x30 4 else v

/-! ### Neuron state -/

/-- A neuron decayed to time `t` (R371); state never decays backwards. -/
def Neuron.decay (n : Neuron) (p : Pop) (t : Nat) : Neuron :=
  if t ≤ n.tLast then n
  else
    let k := t / p.tick - n.tLast / p.tick
    if k = 0 then { n with tLast := t }
    else
      { n with
        v := fp32Mul n.v (decayPow (p.f 0x18 2) k)
        x1 := fp32Mul n.x1 (decayPow (p.f 0x1A 2) k)
        x2 := fp32Mul n.x2 (decayPow (p.f 0x1C 2) k)
        y1 := fp32Mul n.y1 (decayPow (p.f 0x1E 2) k)
        y2 := fp32Mul n.y2 (decayPow (p.f 0x20 2) k)
        tLast := t }

/-- Whether an accumulator or trace is NaN or infinite (R403). -/
def Neuron.bad (n : Neuron) : Bool := fp32Bad n.v || fp32Bad n.x1 || fp32Bad n.x2 || fp32Bad n.y1 || fp32Bad n.y2

/-- Recomputes FANIN, NORM_SUM and s of a neuron from its valid incoming synapses, in record order (R381, R388). -/
def State.renormal (s : State) (h j : Nat) : State :=
  match s.neuron h j, s.popOf h j with
  | some n, some p =>
    let ins := s.incoming h j
    let ws := ins.map fun iu => match s.syn h iu.1 iu.2 with
      | some y => p.weight y.w
      | none => 0
    let sum := ws.foldl (fun a w => fp32Add a (if p.flag 2 then fp32Mul w w else fp32Abs w)) 0
    let n := { n with fanin := ins.length }
    if !p.flag 1 then s.setNeuron h j n
    else
      let root := if p.flag 2 then fp32Sqrt sum else sum
      s.setNeuron h j { n with norm := sum, s := if sum = 0 then 0x3F800000 else fp32Div (p.f 0x34 4) root }
  | _, _ => s

/-- Rewrites a neuron's state to its reset values (R403). -/
def State.resetNeuron (s : State) (h j t : Nat) : State :=
  match s.neuron h j, s.popOf h j with
  | some n, some p =>
    (s.setNeuron h j { n with v := p.f 0x14 4, x1 := 0, x2 := 0, y1 := 0, y2 := 0, nov := 0, tLast := t, tSpike := 0,
                              poisoned := false }).renormal h j
  | _, _ => s

/-- Reads a neuron's state for an action at `t`, decayed, with poison and NaN handled (R371, R403). -/
def State.touch (s : State) (h j t : Nat) : State :=
  match s.neuron h j, s.popOf h j with
  | some n, some p =>
    if n.poisoned then (((s.resetNeuron h j t).bump Fld.LRN_POISON_CNT_CNT h 1).leRecord h p.part 1 stECC)
    else
      let n := n.decay p t
      if n.bad then ((s.setNeuron h j n).resetNeuron h j t).bump Fld.LRN_NAN_CNT_CNT h 1 else s.setNeuron h j n
  | _, _ => s

/-- A neuron after an addition to its accumulator or traces that made it NaN or infinite (R403). -/
def State.checkNeuron (s : State) (h j t : Nat) : State :=
  match s.neuron h j with
  | some n => if n.bad then (s.resetNeuron h j t).bump Fld.LRN_NAN_CNT_CNT h 1 else s
  | none => s

/-! ### Renormalisation -/

/-- Sweeps neuron `j` once when s leaves [0.5, 2.0] (R382). -/
def State.renormSweep (s : State) (h j : Nat) : State :=
  match s.neuron h j, s.popOf h j with
  | some n, some p =>
    let ins := s.incoming h j
    let s := ins.foldl (fun s iu =>
      (s.modSyn h iu.1 iu.2 fun y => if y.frozen then y else { y with w := p.encode (p.clampW (fp32Mul (p.weight y.w) n.s)) }).setDirty
        h (s.popNo h iu.1)) s
    (((s.renormal h j).bump Fld.LRN_RENORM_CNT_CNT h 1).bump Fld.LRN_EVENTS_CNT h ins.length).setDirty h n.pop
  | _, _ => s

/-- The population an engine has paused (R415). -/
def State.paused (s : State) (h : Nat) : Option Nat := (s.leng h).pause.map Pause.pop

/-- Places a trigger in the pause queue, or discards it (R414 to R417). -/
def State.defer (s : State) (h lane : Nat) (t : Trig) : State :=
  match (s.leng h).pause with
  | none => s
  | some q =>
    if q.full ∨ 65536 ≤ q.queue.length then
      let q' : Pause := { q with full := true, skipped := Tbl.set 0 q.skipped lane (Tbl.get 0 q.skipped lane + 1) }
      (s.setLe h { s.leng h with pause := some q' }).bump Fld.BH_SKIP_CNT_CNT h 1
    else s.setLe h { s.leng h with pause := some { q with queue := q.queue ++ [t] } }

/-- Recomputes s after a stored weight changed, and sweeps or defers the sweep (R381, R382, R414). -/
def State.afterWeight (s : State) (h j : Nat) : State :=
  let s := s.renormal h j
  match s.neuron h j, s.popOf h j with
  | some n, some p =>
    if p.flag 1 ∧ (fp32Lt n.s 0x3F000000 ∨ fp32Lt 0x40000000 n.s) then
      (match s.paused h with
        | some q =>
          if q = n.pop ∨ ((s.incoming h j).any fun iu => s.popNo h iu.1 = q && ((s.syn h iu.1 iu.2).map fun y => !y.frozen).getD false)
          then s.defer h 64 (.renorm j) else s.renormSweep h j
        | none => s.renormSweep h j)
    else s
  | _, _ => s

/-! ### Rule tables -/

/-- The FP32 value of a modulator code. -/
def modValue (m : Nat) : Nat := if m = 1 then 0x3F800000 else if m = 2 then 0xBF800000 else 0

/-- The modulator of a lane at a trigger time (R391). -/
def State.modAt (s : State) (lane t : Nat) : Nat :=
  let x := Tbl.get {} s.lrn lane
  if t < x.mAt then x.mPrev else x.m

/-- A factor's value (Table 9.5). -/
def factor (src tgt : Neuron) (p : Pop) (y : Syn) (m : Nat) : Nat → Nat
  | 0 => 0x3F800000
  | 1 => src.x1
  | 2 => src.x2
  | 3 => tgt.y1
  | 4 => tgt.y2
  | 5 => fp32Mul tgt.s (p.weight y.w)
  | 6 => fp32Mul (fp32OfInt y.elig) (p.f 0x38 4)
  | _ => modValue m

/-- The sum of the matching terms for one destination (R376), and whether any matched. -/
def termSum (src tgt : Neuron) (p : Pop) (y : Syn) (m : Nat) (post toE : Bool) : Option Nat :=
  (List.range (min 4 (p.f 0x4F 1))).foldl (fun acc k =>
    let o := 0x50 + 8 * k
    let fl := p.f (o + 3) 1
    if bit fl (if post then 1 else 0) ∧ bit fl 2 = toE then
      let v := fp32Mul (fp32Mul (fp32Mul (fp16to32 (p.f (o + 4) 2)) (factor src tgt p y m (p.f o 1)))
        (factor src tgt p y m (p.f (o + 1) 1))) (factor src tgt p y m (p.f (o + 2) 1))
      some (match acc with
        | some a => fp32Add a v
        | none => v)
    else acc) none

/-- Whether a term of a rule table matches the trigger (R376). -/
def Pop.hasTerm (p : Pop) (post : Bool) : Bool :=
  (List.range (min 4 (p.f 0x4F 1))).any fun k => bit (p.f (0x50 + 8 * k + 3) 1) (if post then 1 else 0)

/-- Whether a population counts as frozen for an update (R392): as it stands now, or for a trigger that a pause deferred as it stood when the
trigger was queued (chapter 10, Crossing 7). A neuron of no population counts as frozen. -/
def State.frozenFor (s : State) (h i : Nat) (queued : Option (List Nat)) : Bool :=
  match s.popOf h i, queued with
  | none, _ => true
  | some p, none => p.isFrozen
  | some _, some l => l.contains (s.popNo h i)

/-- The populations of an engine that are frozen now. -/
def State.frozenPops (s : State) (h : Nat) : List Nat :=
  (s.leng h).pops.filterMap fun kv => match kv.2 with
    | some p => if p.isFrozen then some kv.1 else none
    | none => none

/-- Whether learning may change a synapse from `i` to `j` (R376, R392): PLASTIC, not frozen at either end. -/
def State.mayLearn (s : State) (h i j : Nat) (p : Pop) (queued : Option (List Nat)) : Bool :=
  p.flag 0 && !s.frozenFor h i queued && !s.frozenFor h j queued

/-- Counts an update skipped by a freeze or an absence (R392). -/
def State.skipUpdate (s : State) (lane : Nat) : State := if lane < 64 then s.bump Fld.LRN_EV_SKIP_CNT_CNT lane 1 else s

/-- Whether updates of a lane's events are skipped because the lane is ABSENT (R392); a deferred trigger from before the absence is applied
(R416). -/
def State.absentFor (s : State) (lane t : Nat) (queued : Bool) : Bool :=
  match (Tbl.get {} s.lrn lane).absentAt with
  | some a => decide (lane < 64) && (!queued || decide (a ≤ t))
  | none => false

/-- Whether the terms of a trigger touch a synapse with weight to population `p` (R376, R377). -/
def Syn.takes (y : Syn) (p : Pop) (post : Bool) : Bool := y.valid && !y.frozen && p.flag 0 && p.hasTerm post

/-- Applies the PRE (or POST) terms to a synapse at trigger time `t` (R376 to R379). -/
def State.update (s : State) (h i uid t m lane : Nat) (post : Bool) (queued : Option (List Nat)) : State :=
  match s.syn h i uid with
  | none => s
  | some y =>
    match s.popOf h y.target with
    | none => s
    | some p =>
      if !y.takes p post then s
      else if s.absentFor lane t queued.isSome ∨ !s.mayLearn h i y.target p queued then s.skipUpdate lane
      else
        let s := s.touch h i t
        match s.neuron h i, s.neuron h y.target with
        | some src, some tgt =>
          let sw := termSum src tgt p y m post false
          let se := termSum src tgt p y m post true
          let dw := fp32Mul (p.f 0x24 4) (sw.getD 0)
          if (sw.isSome ∧ fp32Bad dw) ∨ (se.isSome ∧ fp32Bad (se.getD 0)) then s.bump Fld.LRN_NAN_CNT_CNT h 1
          else if sw.isNone ∧ se.isNone then s
          else
            let eff := p.clampW (fp32Add (fp32Mul tgt.s (p.weight y.w)) dw)
            let w := if sw.isSome then p.encode (fp32Div eff tgt.s) else y.w
            let e := if se.isSome then fp32ToInt 8 (fp32Add (fp32OfInt y.elig) (fp32Div (se.getD 0) (p.f 0x38 4))) else y.elig
            let s := (s.modSyn h i uid fun y => { y with w := w, elig := e }).setDirty h (s.popNo h i)
            if sw.isSome then (s.afterWeight h y.target).setDirty h (s.popNo h y.target) else s
        | _, _ => s

/-- One delay-learning step of a synapse at a target's spike (R384). -/
def State.delayLearn (s : State) (h i uid j t lane : Nat) (queued : Option (List Nat)) : State :=
  match s.syn h i uid, s.popOf h j, s.neuron h i with
  | some y, some p, some src =>
    if !y.valid ∨ y.frozen ∨ !p.flag 3 ∨ !p.flag 0 then s
    else if src.tSpike = 0 then s
    else
      let a := src.tSpike + y.delay * p.tick
      if a ≤ t ∧ t - a < p.f 0x4B 1 * p.tick then
        if s.absentFor lane t queued.isSome ∨ !s.mayLearn h i j p queued then s.skipUpdate lane else
        let d := t - a
        let q := d / p.tick
        let r := d % p.tick
        let rnd := if 2 * r < p.tick ∨ (2 * r = p.tick ∧ Config.tie d % 2 = 0) then q else q + 1
        let e := max (-128) (min 127 (y.elig + ((rnd : Int) - (p.f 0x4D 1 : Nat))))
        let st : Int := p.f 0x4E 1
        let y' := if st ≤ e then { y with elig := 0, delay := min 63 (y.delay + 1) }
          else if e ≤ -st then { y with elig := 0, delay := y.delay - 1 } else { y with elig := e }
        let s := (s.modSyn h i uid fun _ => y').setDirty h (s.popNo h i)
        if st ≤ e ∨ e ≤ -st then s.bump Fld.LRN_DLY_STEP_CNT_CNT h 1 else s
      else s
  | _, _, _ => s

/-! ### Structural plasticity -/

/-- Valid fast (or spill) records of a population's rows. -/
def State.countRecords (s : State) (h pop : Nat) (spill : Bool) : Nat :=
  ((s.leng h).rows.map fun kv =>
    if s.popNo h kv.1 = pop then (kv.2.filter fun (y : Syn) => y.valid && y.spill == spill).length else 0).foldl (· + ·) 0

/-- Valid fast (or spill) records of an engine. -/
def State.showRecords (s : State) (h : Nat) : State :=
  let c := fun (sp : Bool) => ((s.leng h).rows.map fun kv => (kv.2.filter fun (y : Syn) => y.valid && y.spill == sp).length).foldl (· + ·) 0
  (s.put Fld.LRN_FAST_USED_CNT h (c false)).put Fld.LRN_SPILL_USED_CNT h (c true)

/-- Drops the first invalid fast (or spill) record of a population where as many are stored as its quota, so that its storage can take a new
one (R387, R421; log entry 100). -/
def State.reclaim (s : State) (h pop quota : Nat) (spill : Bool) : State :=
  let rows := (s.leng h).rows.filter fun kv => s.popNo h kv.1 = pop
  let stored := (rows.map fun kv => (kv.2.filter fun (y : Syn) => y.spill == spill).length).foldl (· + ·) 0
  if stored < quota then s
  else match rows.findSome? fun kv => (kv.2.find? fun (y : Syn) => !y.valid && y.spill == spill).map fun y => (kv.1, y.uid) with
    | some iu => s.setRow h iu.1 ((s.row h iu.1).filter fun (y : Syn) => y.uid ≠ iu.2)
    | none => s

/-- Creates a synapse i → j, or counts a refusal (R387). -/
def State.createSyn (s : State) (h i j : Nat) : State :=
  match s.popOf h i, s.popOf h j, s.neuron h j with
  | some pi, some pj, some nj =>
    let no := s.popNo h i
    let fast := s.countRecords h no false < pi.fastQuota
    let spill := pi.flag 5 && decide (s.countRecords h no true < pi.spillQuota)
    if pj.f 0x3C 2 ≤ nj.fanin ∨ (!fast ∧ !spill) then s.bump Fld.LRN_CREATE_REFUSED_CNT_CNT h 1
    else
      let y : Syn := { uid := (s.leng h).nextUid, target := j, w := pj.encode (fp32Div (pj.f 0x40 4) nj.s), delay := pj.f 0x4C 1,
                       elig := 0, age := 0, valid := true, frozen := false, new := true, spill := !fast }
      let s := s.reclaim h no (if fast then pi.fastQuota else pi.spillQuota) (!fast)
      let r := s.row h i
      let r' := if fast then (r.filter fun (y : Syn) => !y.spill) ++ [y] ++ r.filter fun (y : Syn) => y.spill else r ++ [y]
      let s := s.setLe h { s.leng h with nextUid := (s.leng h).nextUid + 1 }
      let s := (((s.setRow h i r').setDirty h no).bump Fld.LRN_CREATE_CNT_CNT h 1).bump Fld.LRN_EVENTS_CNT h 1
      ((s.afterWeight h j).setDirty h (s.popNo h j)).showRecords h
  | _, _, _ => s

/-- Counts one candidate pair (R385, R386). -/
def State.candidate (s : State) (h i j thresh : Nat) : State :=
  let k := (i * 40503 + j * 9973) % 4096
  let put := fun (s : State) (v : Option (Nat × Nat × Nat)) => s.setLe h { s.leng h with cand := Tbl.set none (s.leng h).cand k v }
  match Tbl.get none (s.leng h).cand k with
  | none => if thresh ≤ 1 then s.createSyn h i j else put s (some (i, j, 1))
  | some (a, b, c) =>
    if a = i ∧ b = j then (if thresh ≤ c + 1 then (put s none).createSyn h i j else put s (some (i, j, c + 1)))
    else if c ≤ 1 then (if thresh ≤ 1 then (put s none).createSyn h i j else put s (some (i, j, 1)))
    else put s (some (a, b, c - 1))

/-- Counts the candidates of a spike of `j` at `t`, in ascending source index (R386). -/
def State.structural (s : State) (h j t lane : Nat) (queued : Option (List Nat)) : State :=
  match s.popOf h j with
  | none => s
  | some p =>
    if !p.flag 4 then s
    else
      let win := p.f 0x4A 1 * p.tick
      let src := (((s.leng h).spikes.filter fun e => e.1 ≠ j ∧ e.2 ≤ t ∧ t ≤ e.2 + win ∧ s.popNo h e.1 = p.f 0x0F 1).map (·.1)).dedup
      (src.mergeSort (· ≤ ·)).foldl (fun s i =>
        if (s.row h i).any fun (y : Syn) => y.valid && y.target = j then s
        else if s.frozenFor h j queued ∨ s.frozenFor h i queued ∨ s.absentFor lane t queued.isSome then s.skipUpdate lane
        else s.candidate h i j (p.f 0x49 1)) s

/-- The learning of a target's spike (R373 step 4): POST terms and delay learning in fan-in order, then structural candidates. -/
def State.learnSpike (s : State) (h j t m lane : Nat) (queued : Option (List Nat)) : State :=
  let ins := s.incoming h j
  let s := s.bump Fld.LRN_EVENTS_CNT h ins.length
  let s := ins.foldl (fun s iu => (s.update h iu.1 iu.2 t m lane true queued).delayLearn h iu.1 iu.2 j t lane queued) s
  s.structural h j t lane queued

/-- Whether learning has stopped for a power failure (R433). -/
def State.learnOff (s : State) : Bool := s.boot.phase = .powerFail

/-- Whether a delivery's PRE terms would change its synapse and the paused population `q` holds its row or its target (R414). -/
def State.preWaits (s : State) (h q i uid j : Nat) : Bool :=
  (q = s.popNo h i || q = s.popNo h j) && (match s.syn h i uid, s.popOf h j with
    | some y, some p => y.takes p false && s.mayLearn h i j p none
    | _, _ => false)

/-- Whether a spike's learning would change a synapse of the paused population `q` or of its neurons (R414): POST terms or delay learning of an
incoming synapse, or a synapse that structural counting may create. -/
def State.spikeWaits (s : State) (h q j : Nat) : Bool :=
  match s.popOf h j with
  | none => false
  | some p =>
    let near := fun (i : Nat) => q = s.popNo h i || q = s.popNo h j
    ((s.incoming h j).any fun iu => near iu.1 && (match s.syn h iu.1 iu.2 with
      | some y => !y.frozen && p.flag 0 && (p.hasTerm true || p.flag 3) && s.mayLearn h iu.1 j p none
      | none => false)) ||
    (p.flag 4 && !p.isFrozen && (q = s.popNo h j || p.f 0x0F 1 = q))

/-- Applies or defers the PRE terms of a delivery (R373 step 2, R414). -/
def State.trigPre (s : State) (h i uid j t lane : Nat) : State :=
  let m := s.modAt lane t
  if s.learnOff then s
  else match s.paused h with
    | some q =>
      if s.preWaits h q i uid j ∧ !s.absentFor lane t true then s.defer h lane (.pre i uid t m lane (s.frozenPops h))
      else s.update h i uid t m lane false none
    | none => s.update h i uid t m lane false none

/-- Applies or defers the learning of a spike (R414). -/
def State.trigSpike (s : State) (h j t lane : Nat) : State :=
  let m := s.modAt lane t
  if s.learnOff then s
  else match s.paused h with
    | some q =>
      if s.spikeWaits h q j ∧ !s.absentFor lane t true then s.defer h lane (.spike j t m lane (s.frozenPops h))
      else s.learnSpike h j t m lane none
    | none => s.learnSpike h j t m lane none

/-! ### Deliveries -/

/-- Schedules deliveries through a row for a spike at `t` with amplitude `a` (R372, R374, R404): those with no delay are returned in order. -/
def State.schedule (s : State) (h i t a lane : Nat) : List Deliv × State :=
  (s.row h i).foldl (fun acc (y : Syn) =>
    if !y.valid then acc
    else match acc.2.popOf h y.target with
      | none => (acc.1 ++ [⟨i, y.uid, y.target, t, a, lane, t⟩], acc.2)
      | some p =>
        let d : Deliv := ⟨i, y.uid, y.target, t, a, lane, t + y.delay * p.tick⟩
        if y.delay = 0 then (acc.1 ++ [d], acc.2)
        else if (acc.2.leng h).wheel.length < 262144 then
          (acc.1, acc.2.setLe h { acc.2.leng h with wheel := (acc.2.leng h).wheel ++ [d] })
        else
          let s := acc.2.bump Fld.LRN_DLY_OVF_CNT_CNT h 1
          let due := match p.ovfAt with
            | some u => decide (u + 1000000000 ≤ s.now)
            | none => true
          (acc.1, if due then (s.setPop h (s.popNo h y.target) (some { p with ovfAt := some s.now })).leRecord h p.part 1 stBUSY else s))
    ([], s)

/-- Notes a spike in the record of the last 256 (R386). -/
def State.noteSpike (s : State) (h j t : Nat) : State :=
  let l := (s.leng h).spikes
  s.setLe h { s.leng h with spikes := (if 256 ≤ l.length then l.drop 1 else l) ++ [(j, t)] }

/-- Whether a record is bad (R369). -/
def State.badTarget (s : State) (h i : Nat) (y : Syn) : Bool :=
  match s.popOf h y.target, s.popOf h i with
  | some p, some q => p.kind = 0 || p.model ≠ q.model
  | _, _ => true

/-- Meets a record at a visit: poisoned and bad records are cleared and counted (R369, R402); a spill access may fail (R405). `true` lets the
visit go on. -/
def State.visit (s : State) (h i : Nat) (y : Syn) (spillErr : Option Nat) : Bool × State :=
  let part := match s.popOf h i with
    | some q => q.part
    | none => 0
  if y.poisoned then
    (false, ((((s.modSyn h i y.uid fun y => { y with valid := false, poisoned := false, bad := true, wiped := true }).setDirty h (s.popNo h i)).bump
      Fld.LRN_POISON_CNT_CNT h 1).leRecord h part 1 stECC).showRecords h)
  else match (if y.spill then spillErr else none) with
    | some st => (false, (s.bump Fld.LRN_SPILL_ERR_CNT_CNT h 1).leRecord h part 1 st)
    | none =>
      if s.badTarget h i y then
        (false, (((s.modSyn h i y.uid fun y => { y with valid := false, bad := true }).setDirty h (s.popNo h i)).bump
          Fld.LRN_BADEV_CNT_CNT h 1).showRecords h)
      else (true, s)

/-- Neuron `j` spikes at `t` (R373 step 4). The deliveries without delay are returned. -/
def State.spikeNeuron (s : State) (h j t lane : Nat) : List Deliv × State :=
  match s.neuron h j, s.popOf h j with
  | some n, some p =>
    let one := 0x3F800000
    let s := s.setNeuron h j { n with v := p.f 0x14 4, x1 := fp32Add n.x1 one, x2 := fp32Add n.x2 one, y1 := fp32Add n.y1 one,
                                      y2 := fp32Add n.y2 one, tSpike := t }
    let s := (s.checkNeuron h j t).trigSpike h j t lane
    (s.noteSpike h j t).schedule h j t one lane
  | _, _ => ([], s)

/-- Processes one delivery (R373). -/
def State.deliver (s : State) (h : Nat) (d : Deliv) (spillErr : Option Nat) : List Deliv × State :=
  match s.syn h d.src d.uid with
  | none => ([], s)
  | some y =>
    if !y.valid then ([], s)
    else
      let s := s.bump Fld.LRN_EVENTS_CNT h 1
      match s.visit h d.src y spillErr with
      | (false, s) => ([], s)
      | (true, s) =>
        let t := d.due
        let s := (s.touch h y.target t).trigPre h d.src d.uid y.target t d.lane
        match s.neuron h y.target, s.popOf h y.target, s.syn h d.src d.uid with
        | some n, some p, some y =>
          let v := fp32Add n.v (fp32Mul (fp32Mul n.s (p.weight y.w)) d.amp)
          let s := (s.setNeuron h y.target { n with v := v }).checkNeuron h y.target t
          if fp32Le (p.f 0x10 4) v ∧ !fp32Bad v then s.spikeNeuron h y.target t d.lane else ([], s)
        | _, _, _ => ([], s)

/-- Processes deliveries without delay in the order they were scheduled (R374). -/
def State.runDeliv (h : Nat) (spillErr : Option Nat) : Nat → List Deliv → State → State
  | 0, _, s => s
  | _, [], s => s
  | n + 1, d :: ds, s =>
    let r := s.deliver h d spillErr
    State.runDeliv h spillErr n (ds ++ r.1) r.2

/-- The turns one command gives an engine's deliveries without delay (log entry 22). -/
def delivFuel : Nat := 1000000

/-! ### Evaluation sweeps -/

/-- Drops the fan-in entry of a record that R369 or R402 has made invalid, and recomputes its target (R388). -/
def State.dropEntry (s : State) (h i : Nat) (y : Syn) : State :=
  (((s.modSyn h i y.uid fun y => { y with bad := false }).afterWeight h y.target).setDirty h (s.popNo h i)).setDirty h (s.popNo h y.target)

/-- One synapse of an evaluation sweep (R388). -/
def State.sweepSyn (s : State) (h i : Nat) (p : Pop) (spillErr : Option Nat) (y : Syn) : State :=
  if y.bad then s.dropEntry h i y
  else if !y.valid then s
  else
    let s := s.bump Fld.LRN_EVENTS_CNT h 1
    match s.visit h i y spillErr with
    | (false, s) => if ((s.syn h i y.uid).map Syn.bad).getD false then s.dropEntry h i y else s
    | (true, s) =>
      match s.popOf h y.target, s.neuron h y.target with
      | some pt, some nt =>
        if y.frozen ∨ !p.flag 0 ∨ p.isFrozen ∨ pt.isFrozen ∨ s.learnOff then s
        else
          let e := if pt.flag 3 then y.elig else fp32ToInt 8 (fp32Mul (fp32OfInt y.elig) (fp16to32 (p.f 0x22 2)))
          let weak := p.flag 4 && fp32Lt (fp32Abs (fp32Mul nt.s (pt.weight y.w))) (p.f 0x44 4)
          let age := if weak then min 255 (y.age + 1) else 0
          let s := if e ≠ y.elig ∨ age ≠ y.age then s.setDirty h (s.popNo h i) else s
          if weak ∧ p.f 0x48 1 ≤ age then
            let s := ((s.modSyn h i y.uid fun y => { y with valid := false, elig := e, age := age }).bump Fld.LRN_PRUNE_CNT_CNT h 1).setDirty
              h (s.popNo h i)
            ((s.afterWeight h y.target).setDirty h (s.popNo h y.target)).showRecords h
          else s.modSyn h i y.uid fun y => { y with elig := e, age := age }
      | _, _ => s

/-- Sweeps a population in record order (R388). -/
def State.sweep (s : State) (h pop : Nat) (spillErr : Option Nat) : State :=
  match s.pop h pop with
  | none => s
  | some p =>
    let rows := ((s.leng h).rows.filter fun kv => s.popNo h kv.1 = pop).map (·.1)
    rows.foldl (fun s i => (s.row h i).foldl (fun s y => match s.syn h i y.uid with
      | some y => s.sweepSyn h i p spillErr y
      | none => s) s) s

/-- Whether a sweep of population `p` would change a record or the normalisation of its target (R369, R388, R402). -/
def State.sweepChanges (s : State) (h i : Nat) (p : Pop) (y : Syn) : Bool :=
  y.bad || (y.valid && (y.poisoned || s.badTarget h i y || (!y.frozen && p.flag 0 && !p.isFrozen && !s.frozenFor h y.target none)))

/-- Whether a sweep that falls due is deferred: it would change a synapse whose row or whose target neuron the paused population holds
(R414). -/
def State.sweepDeferred (s : State) (h pop : Nat) : Bool :=
  match s.paused h, s.pop h pop with
  | some q, some p => (s.leng h).rows.any fun kv => s.popNo h kv.1 = pop &&
      kv.2.any fun (y : Syn) => (pop = q || s.popNo h y.target = q) && s.sweepChanges h kv.1 p y
  | _, _ => false

/-! ### The end of a pause -/

/-- Applies a deferred trigger (R416). -/
def State.applyTrig (s : State) (h : Nat) (t : Trig) : State :=
  match t with
  | .pre i uid t m lane fz => s.update h i uid t m lane false (some fz)
  | .spike j t m lane fz => s.learnSpike h j t m lane (some fz)
  | .sweep _ => s
  | .renorm j => s.renormSweep h j

/-- Ends an engine's pause (R416, R417): the queue is applied in order, then the sweeps that fell due, then LEARN_SKIP records. -/
def State.endPause (s : State) (h : Nat) : State :=
  match (s.leng h).pause with
  | none => s
  | some q =>
    let s := s.setLe h { s.leng h with pause := none }
    let s := q.queue.foldl (fun s t => s.applyTrig h t) s
    let s := q.queue.foldl (fun s t => match t with
      | .sweep p => s.sweep h p none
      | _ => s) s
    q.skipped.foldl (fun s kv =>
      if kv.1 < 64 then
        s.emitReport kv.1 { kind := 9, devTime := s.dev, tflags := s.timeFlags, count := kv.2, tFrom := q.t,
                            detail := leBytes 1 h ++ leBytes 1 q.pop }
      else s) s

/-! ### The modulator (R390, R391) -/

/-- A lane's learning state. -/
def State.lrnLane (s : State) (l : Nat) : LrnLane := Tbl.get {} s.lrn l

/-- Sets a lane's learning state. -/
def State.setLrn (s : State) (l : Nat) (x : LrnLane) : State := { s with lrn := Tbl.set {} s.lrn l x }

/-- TEACH_S in force: 0 selects 600 (field 14). -/
def State.teachSecs (s : State) (l : Nat) : Nat :=
  if s.get Fld.LANE_TIMING_TEACH_S l = 0 then 600 else s.get Fld.LANE_TIMING_TEACH_S l

/-- Sets m from the window and the Mark, keeping the value before (R391). -/
def State.setMod (s : State) (l : Nat) : State :=
  let x := s.lrnLane l
  let m := if x.markEnd ≠ 0 then 2 else if x.teachEnd ≠ 0 then 1 else 0
  let s := if m = x.m then s else s.setLrn l { x with m := m, mAt := s.dev, mPrev := x.m }
  let x := s.lrnLane l
  let secs := (x.teachEnd - s.dev + 999999999) / 1000000000
  (((s.put Fld.LRN_MOD_M l m).put Fld.LRN_MOD_TEACH l (b2n (x.teachEnd ≠ 0))).put Fld.LRN_MOD_MARK l (b2n (x.markEnd ≠ 0))).put
    Fld.LRN_MOD_SECS l secs

/-- A Teach is performed (R390); HEALTH TEACH (R474); a RELEARN of the lane no longer awaits one (R545). -/
def State.teach (s : State) (l src : Nat) : State :=
  let t := s.teachSecs l
  let s := { s with pnl := { s.pnl with relearn := NatSet.del s.pnl.relearn l } }
  ((s.setLrn l { s.lrnLane l with teachEnd := s.dev + t * 1000000000 }).setMod l).emitHealth l 1 src t

/-- A Mark is performed (R390); HEALTH MARK. -/
def State.mark (s : State) (l src : Nat) : State :=
  ((s.setLrn l { s.lrnLane l with markEnd := s.dev + 60000000000 }).setMod l).emitHealth l 2 src 60

/-- A Cancel is performed (R390); HEALTH CANCEL. -/
def State.cancelMod (s : State) (l src : Nat) : State :=
  ((s.setLrn l { s.lrnLane l with markEnd := 0, teachEnd := 0 }).setMod l).emitHealth l 3 src 0

/-- An Ack of a lane in ALARM (R400, R474): ACKED is set and HEALTH ACK emitted; of any other lane, nothing. -/
def State.ackLane (s : State) (l src : Nat) : State :=
  if s.get Fld.LRN_NOV_STATE_STATE l = 2 then (s.put Fld.LRN_NOV_STATE_ACKED l 1).emitHealth l 4 src 0 else s

/-! ### Novelty (R393 to R399) -/

/-- The PREDICT population of a lane on its engine (R393). -/
def State.predictOf (s : State) (h l : Nat) : Option Pop :=
  (s.leng h).pops.findSome? fun kv => match kv.2 with
    | some p => if p.kind = 2 ∧ p.f 0x0E 1 = l then some p else none
    | none => none

/-- Adds an event's prediction error (R394). -/
def State.predictError (s : State) (h l k first a src t : Nat) : State :=
  match s.predictOf h l with
  | none => s
  | some p =>
    let q := p.f 4 4 + (k - first)
    let s := s.touch h q t
    match s.neuron h q with
    | none => s
    | some n =>
      let r := fp32Div n.v (p.f 0x10 4)
      let pr := if fp32Lt r 0 then 0 else if fp32Lt 0x3F800000 r then 0x3F800000 else r
      let e := fp32Abs (fp32Sub a pr)
      let s := s.setNeuron h q { n with nov := fp32Add n.nov e }
      let x := s.lrnLane l
      s.setLrn l { x with sum := fp32Add x.sum e, count := x.count + 1, srcs := Tbl.set 0 x.srcs src (fp32Add (Tbl.get 0 x.srcs src) e) }

/-- Adds two tables of per-source sums. -/
def addSrcs (a b : Tbl Nat) : Tbl Nat :=
  (List.range 16).foldl (fun t i => Tbl.set 0 t i (fp32Add (Tbl.get 0 a i) (Tbl.get 0 b i))) []

/-- One hold and its sums after a scored entry (R397, R399). -/
def stepHold (cond restart : Bool) (dev : Nat) (entry : Tbl Nat) (h : Option Nat × Tbl Nat) : Option Nat × Tbl Nat :=
  if !cond then (none, [])
  else match (if restart then none else h.1) with
    | some t0 => (some t0, addSrcs h.2 entry)
    | none => (some dev, entry)

/-- The three sources with the largest sums, ties to the lower, and their weights in FP16 (R399). -/
def topSrcs (t : Tbl Nat) : List Nat × List Nat :=
  let all := (List.range 16).filter fun i => fp32Lt 0 (Tbl.get 0 t i)
  let tot := (List.range 16).foldl (fun a i => fp32Add a (Tbl.get 0 t i)) 0
  let top := (all.mergeSort fun i j => !fp32Lt (Tbl.get 0 t i) (Tbl.get 0 t j)).take 3
  (top, top.map fun i => (convert .fp32 .fp16 (fp32Div (Tbl.get 0 t i) tot)).1)

/-- Emits a novelty record and moves the state (Table 9.7, R399, R400). -/
def State.novelty (s : State) (l kind st dev tflags t0 : Nat) (srcs : Tbl Nat) : State :=
  let top := topSrcs srcs
  let s := s.put Fld.LRN_NOV_STATE_STATE l st
  let s := if kind = 1 then s else s.put Fld.LRN_NOV_STATE_ACKED l 0
  let s := s.emitReport l { kind := kind, devTime := dev, tflags := tflags, tFrom := t0, src := top.1, w := top.2 }
  s.setLrn l { s.lrnLane l with srcA := [], srcN := [], srcC := [] }

/-- The levels and HOLD_MS that an entry with DEV_TIME `dev` carries (R322): those before the first write after it, else those in force. -/
def State.levelsOf (s : State) (l dev : Nat) : OldLevels :=
  match ((s.lrnLane l).older.filter fun (o : OldLevels) => decide (dev ≤ o.upTo)).getLast? with
  | some o => o
  | none => { upTo := dev, nov := s.get Fld.LANE_LEVEL_NOV_LEVEL l, alm := s.get Fld.LANE_LEVEL_ALM_LEVEL l, clr := s.get Fld.LANE_LEVEL_CLR_LEVEL l,
              hold := s.get Fld.LANE_TIMING_HOLD_MS l, reset := false }

/-- Scores an entry at its END event and judges the transitions (R395, R397). -/
def State.scoreEntry (s : State) (h l dev tflags : Nat) : State :=
  match s.predictOf h l with
  | none => s
  | some p =>
    let x := s.lrnLane l
    let e := if x.count = 0 then 0 else fp32Div x.sum (fp32OfInt x.count)
    let sc := s.get Fld.LRN_SCORE_S l
    let sc := fp32Add sc (fp32Mul (p.f 0x70 4) (fp32Sub e sc))
    let s := s.put Fld.LRN_SCORE_S l sc
    let lv := s.levelsOf l dev
    let hold := lv.hold * 1000000
    let passed := x.older.filter fun (o : OldLevels) => decide (o.upTo < dev)
    let restart := x.gapSince || passed.any OldLevels.reset
    let a := stepHold (fp32Le lv.alm sc) restart dev x.srcs (x.holdA, x.srcA)
    let n := stepHold (fp32Le lv.nov sc) restart dev x.srcs (x.holdN, x.srcN)
    let c := stepHold (fp32Le sc lv.clr) restart dev x.srcs (x.holdC, x.srcC)
    let x' := { x with sum := 0, count := 0, srcs := [], holdA := a.1, holdN := n.1, holdC := c.1, srcA := a.2, srcN := n.2, srcC := c.2,
                       gapSince := false, older := x.older.filter fun (o : OldLevels) => decide (dev ≤ o.upTo) }
    let s := s.setLrn l x'
    let held : Option Nat → Bool := fun o => match o with
      | some t0 => decide (t0 + hold ≤ dev)
      | none => false
    let st := s.get Fld.LRN_NOV_STATE_STATE l
    let s := if st ≠ 2 ∧ held a.1 then s.novelty l 2 2 dev tflags (a.1.getD 0) a.2
      else if st = 0 ∧ held n.1 then s.novelty l 1 1 dev tflags (n.1.getD 0) n.2
      else if st ≠ 0 ∧ held c.1 then s.novelty l 3 0 dev tflags (c.1.getD 0) c.2
      else s
    let st := s.get Fld.LRN_NOV_STATE_STATE l
    s.put Fld.LRN_NOV_STATE_HOLDING l (b2n ((st ≠ 2 && a.1.isSome) || (st = 0 && n.1.isSome) || (st ≠ 0 && c.1.isSome)))

end Sys2Proof.Machine
end

