-- ==== Sys2Proof/Machine/MboxOps.lean ====
section
/-!
DEFINITION. Memory that the unit reads and writes for a partition (R490, R499), and mailbox completions (R495 to R497, R519).
-/
namespace Sys2Proof.Machine

/-- Whether the Cox itself can read `n` bytes at `a`: mapped, its unit up, SYS passing the lining check (R182). -/
def State.memCheckSys (s : State) (a n : Nat) : Bool :=
  let ok := fun (x : Nat) => match s.region x with
    | .unlisted => false
    | .regs _ => false
    | .remote _ => false
    | .host => decide (s.get Fld.HOST_LINK_STATUS_UP 0 = 1)
    | r => !s.unitDown (regionUnit r)
  ok a && ok (a + (n - 1))

/-- Reads bytes with every cached copy taken into account (R134). -/
def State.readBytes (s : State) (a n : Nat) : List Byte := (List.range n).map fun i => s.coherentByte (a + i)

/-- Writes bytes as the unit's own WriteLines: cached copies of the lines go, with what they hold in M, and the words' poison marks clear (R137, R169). -/
def State.writeBytes (s : State) (a : Nat) (bs : List Byte) : State := s.ownBytes a bs

/-- The partition function `f` serves (R487). -/
def fnPart (f : Nat) : Nat := f

/-- Entries of function `f`'s completion ring. -/
def State.cqSize (s : State) (f : Nat) : Nat := 2 ^ s.get Fld.HOST_MB_CFG_LOG2_CQ f

/-- Whether function `f`'s completion ring has a free entry (R497). -/
def State.cqFree (s : State) (f : Nat) : Bool :=
  decide ((Tbl.get 0 s.host.cqCount f % 65536 + 65536 - s.get Fld.HOST_MB_CQ_HEAD_CQ_HEAD f) % 65536 < s.cqSize f)

/-- A mailbox ring that cannot be reached stops the mailbox (R519). -/
def State.mbFault (s : State) (f status : Nat) : State :=
  ((s.put Fld.HOST_MB_CFG_ENABLE f 0).put Fld.HOST_MB_CFG_FAULT f 1).record
    { cls := 0, status := status, part := fnPart f, block := 0x17 }

/-- Writes a completion entry (Table 12.8) and raises vector 0 where asked (R495); a mailbox that is not enabled takes none (R492, R519). -/
def State.mbWrite (s : State) (f seq op status orig : Nat) (result : List Byte) (time : Nat) (irq : Bool) : State :=
  let n := Tbl.get 0 s.host.cqCount f
  let size := s.cqSize f
  let a := s.get Fld.HOST_MB_CQ_BASE_BASE f + n % size * 32
  let st := s.memCheck (fnPart f) true a 32
  if !s.flag Fld.HOST_MB_CFG_ENABLE f then s
  else if st ≠ stOK then s.mbFault f st
  else
    let phase := if n / size % 2 = 0 then 1 else 0
    let bs := leBytes 4 seq ++ leBytes 1 op ++ leBytes 1 status ++ leBytes 1 orig ++ leBytes 1 phase ++
      (result ++ List.replicate 16 0).take 16 ++ leBytes 8 time
    let s := (s.writeBytes a bs).emit (.completion f seq op status orig)
    let s := { s with host := { s.host with cqCount := Tbl.set 0 s.host.cqCount f (n + 1) } }
    if irq then s.msix f 0 else s

/-- A command of function `f` ends: its completion is recorded (R496) and written. -/
def State.mbComplete (s : State) (f seq op : Nat) (irq : Bool) (status : Nat) (result : List Byte) : State :=
  let c : Completion := { seq := seq, op := op, status := status, result := result, time := s.dev }
  let l := (Tbl.get [] s.host.done f) ++ [c]
  let s := { s with host := { s.host with done := Tbl.set [] s.host.done f (l.drop (l.length - 1024)),
                                          busy := Tbl.set none s.host.busy f none } }
  s.mbWrite f seq op status status result s.dev irq

/-- The command a function has in progress ends (R497). -/
def State.mbEnd (s : State) (f status : Nat) (result : List Byte) : State :=
  match Tbl.get none s.host.busy f with
  | none => s
  | some b => s.mbComplete f b.seq b.op b.irq status result

/-- Ends the command of an optional function. -/
def State.mbEndFor (s : State) (f : Option Nat) (status : Nat) (result : List Byte) : State :=
  match f with
  | some f => s.mbEnd f status result
  | none => s

/-- The VIEW of a record of a boot flash byte (Table 2.1). -/
def State.flashByte (s : State) (a : Nat) : Byte := Tbl.get 0xFF s.boot.flash a

/-- Bytes of the boot flash. -/
def State.flashBytes (s : State) (a n : Nat) : List Byte := (List.range n).map fun i => s.flashByte (a + i)

end Sys2Proof.Machine
end

