-- ==== Sys2Proof/Machine/BhOps.lean ====
section
/-!
DEFINITION. The Boathouse: snapshot images (R411 to R413), the slot pool and commit log (R420 to R426), checkpoints and readouts (R427,
R428, R433, R436, R437), restore (R429 to R431), and the loading of a population from an image (R430, R446).
-/
namespace Sys2Proof.Machine

/-! ### Layouts -/

/-- The 64 bytes of a neuron's state (Table 9.3). -/
def Neuron.bytes (n : Neuron) : List Byte :=
  leBytes 4 n.v ++ leBytes 4 n.x1 ++ leBytes 4 n.x2 ++ leBytes 4 n.y1 ++ leBytes 4 n.y2 ++ leBytes 4 n.s ++ leBytes 4 n.norm ++
  leBytes 4 n.nov ++ leBytes 8 n.tLast ++ leBytes 8 n.tSpike ++ leBytes 2 n.fanin ++ leBytes 1 n.pop ++ List.replicate 13 0

/-- The 8 bytes of a synapse record (Table 9.4). -/
def Syn.bytes (y : Syn) : List Byte :=
  if y.wiped then leBytes 8 0 else leBytes 8 (y.target * 2 ^ 46 + y.w % 65536 * 2 ^ 30 + y.delay % 64 * 2 ^ 24 + ofInt 8 y.elig * 2 ^ 16 + y.age % 256 * 2 ^ 8 +
    b2n y.valid * 128 + b2n y.frozen * 64 + b2n y.new * 32 + b2n y.spill * 16)

/-- A synapse record from its 64 bits; NEW is clear after a load (R430). -/
def synOf (x uid : Nat) (spill : Bool) : Syn :=
  { uid := uid, target := bits x 63 46, w := bits x 45 30, delay := bits x 29 24, elig := toInt 8 (bits x 23 16), age := bits x 15 8,
    valid := bit x 7, frozen := bit x 6, new := false, spill := spill }

/-- `x` rounded up to a multiple of `m`. -/
def roundUp (x m : Nat) : Nat := (x + m - 1) / m * m

/-- The length of a snapshot (Table 10.2). -/
def snapLen (count nFast : Nat) (spill : Option Nat) : Nat :=
  0x580 + count * 64 + roundUp (count * 4) 64 + nFast * 8 + (match spill with
    | some n => roundUp (count * 4) 64 + n * 8
    | none => 0)

/-- The blocks of a slot (R421). -/
def slotBlocks (count fastQuota : Nat) : Nat := (256 + snapLen count fastQuota none + 65535) / 65536

/-- Whether a mode is checkpointed (Table 10.1). -/
def modeKeeps (m : Nat) : Bool := m = 1 || m = 3

/-- Whether a mode is read out (Table 10.1). -/
def modeReads (m : Nat) : Bool := m = 2 || m = 3

/-- Lanes bound to a MODEL_ID of a partition (R451): admitted lanes whose descriptor names it, in ascending number. -/
def State.lanesBound (s : State) (p id : Nat) : List Nat :=
  (List.range 64).filter fun l => decide (2 ≤ s.laneState l) && s.lanePart l = p && s.laneField l 8 4 = id

/-- The lanes bound to a model slot, in ascending number (R412). -/
def State.boundLanes (s : State) (m : Nat) : List Nat :=
  match Tbl.get none s.mdl.models m with
  | some x => s.lanesBound x.part x.id
  | none => []

/-- An entry of the modulator table (Table 10.2). -/
def State.modEntry (s : State) (l : Nat) : List Byte :=
  let x := s.lrnLane l
  leBytes 1 l ++ leBytes 1 x.m ++ leBytes 1 (b2n (x.teachEnd ≠ 0) + 2 * b2n (x.markEnd ≠ 0)) ++ [0] ++
    leBytes 4 ((x.teachEnd - s.dev + 999999999) / 1000000000) ++ leBytes 8 x.mAt

/-- The CRC of a string whose bytes `off` to `off + 3` are taken as 0. -/
def crcWithout (bs : List Byte) (off : Nat) : Nat := crc32 (bs.take off ++ [0, 0, 0, 0] ++ bs.drop (off + 4))

/-- Puts a CRC into its 4 bytes. -/
def putCrc (bs : List Byte) (off : Nat) : List Byte := bs.take off ++ leBytes 4 (crcWithout bs off) ++ bs.drop (off + 4)

/-- Replaces the bytes from `off` on. -/
def patch (bs : List Byte) (off : Nat) (v : List Byte) : List Byte := bs.take off ++ v ++ bs.drop (off + v.length)

/-- The image of a population as it stands (R411 to R413): without spill for a checkpoint, with it for a readout. -/
def State.snapshot (s : State) (h pop : Nat) (p : Pop) (spill powerFail : Bool) : List Byte :=
  let first := p.f 4 4
  let count := p.f 8 4
  let rows := (rangeFrom first count).map fun i => s.row h i
  let pad := fun (l : List Byte) => l ++ List.replicate (roundUp (count * 4) 64 - count * 4) 0
  let fast := rows.map fun r => r.filter fun (y : Syn) => !y.spill
  let spl := rows.map fun r => r.filter fun (y : Syn) => y.spill
  let idx := fun (l : List (List Syn)) => pad (l.flatMap fun r => leBytes 4 r.length)
  let recs := fun (l : List (List Syn)) => l.flatMap fun r => r.flatMap Syn.bytes
  let nFast := (fast.map List.length).foldl (· + ·) 0
  let nSpill := (spl.map List.length).foldl (· + ·) 0
  let lanes := s.boundLanes p.model
  let mods := (lanes.flatMap s.modEntry ++ List.replicate 1024 0).take 1024
  let body := p.desc ++ mods ++ ((rangeFrom first count).flatMap fun i => match s.neuron h i with
      | some n => n.bytes
      | none => List.replicate 64 0) ++ idx fast ++ recs fast ++ (if spill then idx spl ++ recs spl else [])
  let mid := match Tbl.get none s.mdl.models p.model with
    | some m => m.id
    | none => 0
  let head := ascii ['B', 'H', 'S', 'N'] ++ leBytes 2 1 ++ leBytes 1 h ++ leBytes 1 pop ++ leBytes 1 p.part ++
    leBytes 1 (b2n spill + 2 * b2n powerFail) ++ leBytes 1 lanes.length ++ [0] ++ leBytes 4 mid ++ p.sig ++ leBytes 8 s.dev ++
    leBytes 4 count ++ leBytes 4 nFast ++ leBytes 4 (if spill then nSpill else 0) ++ leBytes 4 0 ++ leBytes 8 (256 + body.length) ++
    List.replicate 192 0
  putCrc (head ++ body) 0xFC

/-- The image once the pause has ended: FLAGS[2] and SKIPPED (Table 10.3). -/
def finishImage (img : List Byte) (skipped : Nat) : List Byte :=
  if skipped = 0 then img
  else putCrc (patch (patch img 0x09 (leBytes 1 (leAt img 9 1 + 4))) 0x34 (leBytes 4 skipped)) 0xFC

/-- Whether bytes are a whole snapshot image (R411, R448 check 7). -/
def snapWhole (img : List Byte) : Bool :=
  img.take 4 = ascii ['B', 'H', 'S', 'N'] && leAt img 4 2 = 1 && leAt img 0x38 8 = img.length && decide (0x580 ≤ img.length) &&
  leAt img 0xFC 4 = crcWithout img 0xFC &&
  leAt img 0x38 8 = snapLen (leAt img 0x28 4) (leAt img 0x2C 4) (if bit (leAt img 9 1) 0 then some (leAt img 0x30 4) else none)

/-- The counts of a row index and their sum. -/
def rowIndex (img : List Byte) (off count : Nat) : List Nat := (List.range count).map fun i => leAt img (off + 4 * i) 4

/-- Sum of a list. -/
def sumN (l : List Nat) : Nat := l.foldl (· + ·) 0

/-! ### The pool and the log -/

/-- A bank. -/
def State.bnk (s : State) (b : Nat) : BankSt := Tbl.get {} s.bank b

/-- Whether a block is retired (R438). -/
def State.blockBad (s : State) (b k : Nat) : Bool := bit (s.get Fld.BH_BAD_BAD (b * 8 + k / 32)) (k % 32)

/-- The free blocks of a bank's pool. -/
def State.poolFree (s : State) (b : Nat) : List Nat :=
  (rangeFrom 2 254).filter fun k => !NatSet.has (s.bnk b).used k && !s.blockBad b k

/-- Sets a bank and shows its free blocks and its writes of the last 24 h. -/
def State.setBank (s : State) (b : Nat) (x : BankSt) : State :=
  let x := { x with recent := x.recent.filter fun e => decide (s.now < e.1 + 86400000000000) }
  let s := { s with bank := Tbl.set {} s.bank b x }
  (s.put Fld.BH_FREE_FREE b (s.poolFree b).length).put Fld.BH_WRITES_24H_CNT b (sumN (x.recent.map (·.2)))

/-- Block writes of the last 24 h (R426). -/
def State.writes24 (s : State) (b : Nat) : Nat :=
  sumN (((s.bnk b).recent.filter fun e => decide (s.now < e.1 + 86400000000000)).map (·.2))

/-- The lowest write counts first, ties to the lower block (R423). -/
def State.poolOrder (s : State) (b : Nat) : List Nat :=
  let w := fun k => Tbl.get 0 (s.bnk b).writes k
  (s.poolFree b).mergeSort fun i j => decide (w i < w j) || (decide (w i = w j) && decide (i ≤ j))

/-- The Boathouse offset of a block. -/
def blockOff (b k : Nat) : Nat := b * 0x1000000 + k * 0x10000

/-- Sets the lining entries of blocks to a partition, or withdraws them (R423). -/
def State.lineBlocks (s : State) (b : Nat) (ks : List Nat) (mask : Nat) : State :=
  { s with xlu := { s.xlu with lining := ks.foldl (fun t k => Tbl.set 0 t (3 * 2 ^ 24 + b * 2 ^ 16 + k) mask) s.xlu.lining } }

/-- Takes `n` blocks from the pool for a partition. -/
def State.takeBlocks (s : State) (b n part : Nat) : Option (List Nat × State) :=
  let l := (s.poolOrder b).take n
  if l.length < n then none
  else
    let x := s.bnk b
    some (l, (s.setBank b { x with used := l.foldl NatSet.add x.used }).lineBlocks b l (2 ^ part + 256 * 2 ^ part))

/-- Returns blocks to the pool. -/
def State.freeBlocks (s : State) (b : Nat) (ks : List Nat) : State :=
  let x := s.bnk b
  (s.setBank b { x with used := ks.foldl NatSet.del x.used }).lineBlocks b ks 0

/-- Writes bytes of the Boathouse; the codewords written hold their check bits again (R420). -/
def State.bhWrite (s : State) (off : Nat) (bs : List Byte) : State :=
  let b := off / 0x1000000
  let w := off % 0x1000000
  let x := Tbl.get {} s.bank b
  let s := { s with bank := Tbl.set {} s.bank b { x with ue := x.ue.filter fun kv => !(decide (w / 512 ≤ kv.1) && decide (kv.1 * 512 < w + bs.length)) } }
  { s with bh := (bs.zip (List.range bs.length)).foldl (fun t bi => Tbl.set 0 t (off + bi.2) bi.1) s.bh }

/-- Reads bytes of the Boathouse. -/
def State.bhRead (s : State) (off n : Nat) : List Byte := (List.range n).map fun i => Tbl.get 0 s.bh (off + i)

/-- Appends a commit log record (R424): KIND 1 COMMIT, 2 RELEASE. -/
def State.logRecord (s : State) (b kind pop part first : Nat) (sig : List Byte) (t len : Nat) : State :=
  let x := s.bnk b
  let body := ascii ['B', 'H', 'C', 'R'] ++ leBytes 4 x.seq ++ leBytes 1 kind ++ leBytes 1 b ++ leBytes 1 pop ++ leBytes 1 part ++
    leBytes 1 first ++ List.replicate 3 0 ++ sig ++ leBytes 8 t ++ leBytes 8 len ++ List.replicate 16 0
  let s := s.bhWrite (b * 0x1000000 + x.logNext * 64) (putCrc body 0x3C)
  s.setBank b { x with seq := x.seq + 1, logNext := (x.logNext + 1) % 2048 }

/-- The valid records of a bank's commit log (R424, R425). -/
def State.logRecords (s : State) (b : Nat) : List (List Byte) :=
  ((List.range 2048).map fun i => s.bhRead (b * 0x1000000 + i * 64) 64).filter fun r =>
    r.take 4 = ascii ['B', 'H', 'C', 'R'] && leAt r 0x3C 4 = crcWithout r 0x3C

/-- Whether a codeword of a slot's first `n` bytes is beyond correction (R429, R439). -/
def State.slotUe (s : State) (b n : Nat) (ks : List Nat) : Bool :=
  (List.range ((n + 511) / 512)).any fun i => NatSet.has (s.bnk b).ue (ks.getD (i / 128) 0 * 128 + i % 128)

/-- The key of a log record: engine, population, partition, signature. -/
def logKey (r : List Byte) : Nat × Nat × Nat × List Byte := (leAt r 9 1, leAt r 10 1, leAt r 11 1, (r.drop 16).take 16)

/-- The blocks named by the slot header at a first block (R422). -/
def State.slotBlocksAt (s : State) (b first : Nat) : List Nat :=
  let hd := s.bhRead (blockOff b first) 256
  if hd.take 4 = ascii ['B', 'H', 'S', 'L'] then (List.range (leAt hd 4 1)).map fun i => leAt hd (0x18 + i) 1 else []

/-- The slot bytes of a list of blocks. -/
def State.slotImage (s : State) (b : Nat) (ks : List Nat) (len : Nat) : List Byte :=
  ((ks.flatMap fun k => s.bhRead (blockOff b k) 65536).drop 256).take len

/-- COMMIT records of a key not undone by a later RELEASE, the highest SEQ first (R425, R429). -/
def State.commits (s : State) (b : Nat) (key : Nat × Nat × Nat × List Byte) : List (List Byte) :=
  let rs := (s.logRecords b).filter fun r => logKey r = key
  let rel := (rs.filter fun r => leAt r 8 1 = 2).foldl (fun m r => max m (leAt r 4 4 + 1)) 0
  (rs.filter fun r => leAt r 8 1 = 1 && decide (rel ≤ leAt r 4 4)).mergeSort fun a b => decide (leAt b 4 4 ≤ leAt a 4 4)

/-! ### Loading a population (R430, R446) -/

/-- Rebuilds a population's neurons and rows from an image's learned state; dynamic state is reset (R430, R446). -/
def State.loadPop (s : State) (h : Nat) (p : Pop) (img : List Byte) (withSpill : Bool) : State :=
  let first := p.f 4 4
  let count := p.f 8 4
  let o1 := 0x580 + count * 64
  let idx := rowIndex img o1 count
  let o2 := o1 + roundUp (count * 4) 64
  let nFast := leAt img 0x2C 4
  let o3 := o2 + nFast * 8
  let sidx := if withSpill ∧ bit (leAt img 9 1) 0 then rowIndex img o3 count else List.replicate count 0
  let o4 := o3 + roundUp (count * 4) 64
  let no := p.f 0 1
  let blank : Neuron := { v := p.f 0x14 4, pop := no }
  let s := (List.range count).foldl (fun s i => s.setNeuron h (first + i) blank) s
  let step := fun (acc : State × Nat × Nat) (i : Nat) =>
    let nf := idx.getD i 0
    let ns := sidx.getD i 0
    let u := (acc.1.leng h).nextUid
    let fast := (List.range nf).map fun k => synOf (leAt img (o2 + 8 * (acc.2.1 + k)) 8) (u + k) false
    let spl := (List.range ns).map fun k => synOf (leAt img (o4 + 8 * (acc.2.2 + k)) 8) (u + nf + k) true
    let s := acc.1.setRow h (first + i) (fast ++ spl)
    (s.setLe h { s.leng h with nextUid := u + nf + ns }, acc.2.1 + nf, acc.2.2 + ns)
  ((List.range count).foldl step (s, 0, 0)).1

/-- Recomputes FANIN, NORM_SUM and s of every neuron that a population's records or its own neurons touch (R430). -/
def State.renormPop (s : State) (h : Nat) (p : Pop) : State :=
  let own := rangeFrom (p.f 4 4) (p.f 8 4)
  let tgt := (own.flatMap fun i => (s.row h i).map fun (y : Syn) => y.target).filter fun j => !own.contains j
  ((own ++ tgt.dedup).foldl (fun s j => s.renormal h j) s).showRecords h

/-- Shows an engine's populations and state (Table 9.8). -/
def State.showLe (s : State) (h : Nat) : State :=
  let n := ((s.leng h).pops.filter fun kv => kv.2.isSome).length
  (s.put Fld.LRN_STATUS_POPS h n).put Fld.LRN_STATUS_STATE h (if !s.domOn (50 + h) then 0 else if n = 0 then 1 else 2)

/-- Removes a population: its neurons, rows, waiting deliveries and status. -/
def State.dropPop (s : State) (h no : Nat) : State :=
  match s.pop h no with
  | none => s
  | some p =>
    let own := rangeFrom (p.f 4 4) (p.f 8 4)
    let x := s.leng h
    let inPop := fun (i : Nat) => decide (p.f 4 4 ≤ i) && decide (i < p.f 4 4 + p.f 8 4)
    let s := s.setLe h
      { x with neurons := x.neurons.filter fun kv => !inPop kv.1,
               rows := x.rows.filter fun kv => !inPop kv.1,
               wheel := x.wheel.filter fun (d : Deliv) => !inPop d.target && !inPop d.src,
               pops := Tbl.set none x.pops no none }
    let _ := own
    ((s.put Fld.BH_POP_STATUS_SLOT_BLOCKS (64 * h + no) 0).showRecords h).showLe h

/-! ### Restore (R429 to R431) -/

/-- Whether an image is the one a log record commits: its key and its T_PAUSE (R424, R425; log entry 101). -/
def imageOf (r img : List Byte) : Bool :=
  leAt img 6 1 = leAt r 9 1 && leAt img 7 1 = leAt r 10 1 && leAt img 8 1 = leAt r 11 1 &&
  decide ((img.drop 16).take 16 = (r.drop 16).take 16) && leAt img 0x20 8 = leAt r 0x20 8

/-- What the commit log holds for a key: the image that verifies first with its rank, its blocks and its SEQ. -/
def State.findImage (s : State) (b : Nat) (key : Nat × Nat × Nat × List Byte) : Option (Nat × List Byte × List Nat × Nat) :=
  let l := s.commits b key
  (l.zip (List.range l.length)).findSome? fun ri =>
    let ks := s.slotBlocksAt b (leAt ri.1 12 1)
    let img := s.slotImage b ks (leAt ri.1 0x28 8)
    if ks.isEmpty ∨ s.slotUe b (256 + leAt ri.1 0x28 8) ks ∨ !snapWhole img ∨ !imageOf ri.1 img then none else some (ri.2, img, ks, leAt ri.1 4 4)

/-- Sets a population's restore result, with the record R431 asks for. -/
def State.popResult (s : State) (h no part r : Nat) : State :=
  let s := s.put Fld.BH_POP_STATUS_RESULT (64 * h + no) r
  if r = 2 ∨ r = 5 then s.record { cls := 1, status := stECC, unit := 0x34 + h, part := part, block := 0x14 }
  else if r = 4 ∨ r = 6 then s.record { cls := 0, status := stREFUSED, unit := 0x34 + h, part := part, block := 0x14 }
  else s

/-- Notes the slot a population was found in, whose blocks are then in use (R423, R429). -/
def State.holdSlot (s : State) (b n : Nat) (ks : List Nat) (seq : Nat) : State :=
  let x := s.bnk b
  s.setBank b { x with used := ks.foldl NatSet.add x.used, committed := Tbl.set none x.committed n (some (ks, seq)) }

/-- Valid records of an image's fast part. -/
def imageValid (img : List Byte) : Nat :=
  let count := leAt img 0x28 4
  let o2 := 0x580 + count * 64 + roundUp (count * 4) 64
  ((List.range (leAt img 0x2C 4)).filter fun k => bit (leAt img (o2 + 8 * k) 8) 7).length

/-- Loads a KEEP or BOTH population from its committed slot at start-up, or from its initial state `init` (R429 to R431, R464). -/
def State.restorePop (s : State) (h : Nat) (p : Pop) (init : List Byte) : State :=
  let no := p.f 0 1
  let n := 64 * h + no
  let key := (h, no, p.part, p.sig)
  let fresh := fun (s : State) (r : Nat) => (s.loadPop h p init true).popResult h no p.part r
  match s.findImage h key with
  | some (rank, img, ks, seq) =>
    if p.fastQuota < imageValid img then fresh s 6
    else
      let s := (s.holdSlot h n ks seq).lineBlocks h ks (2 ^ p.part + 256 * 2 ^ p.part)
      let s := (s.loadPop h p img false).put Fld.BH_POP_LAST_T_PAUSE n (leAt img 0x20 8)
      let teach := (List.range 64).any fun i => bit (leAt img (0x180 + 16 * i + 2) 1) 0
      (s.put Fld.BH_POP_STATUS_TEACH_LOST n (b2n teach)).popResult h no p.part (if rank = 0 then 1 else 2)
  | none =>
    if (s.commits h key) ≠ [] then fresh s 5
    else if (s.logRecords h).any fun r => leAt r 8 1 = 1 && leAt r 9 1 = h && leAt r 10 1 = no && leAt r 11 1 = p.part &&
        decide ((r.drop 16).take 16 ≠ p.sig) && !(s.commits h (logKey r)).isEmpty then fresh s 4
    else fresh s 3

/-- The blocks a controller reads at step 12 for a key: its slots in the order tried, down to the first that verifies (R429). -/
def State.triedBlocks (s : State) (b : Nat) (key : Nat × Nat × Nat × List Byte) : List Nat :=
  let l := s.commits b key
  let n := match s.findImage b key with
    | some r => r.1 + 1
    | none => l.length
  (l.take n).flatMap fun r => s.slotBlocksAt b (leAt r 12 1)

/-- What the check bits of a block show when a controller reads it at step 12 (R439): counts, and codewords beyond correction, noted for a slot
and lost for the commit log. -/
def State.meetBch (s : State) (b : Nat) (r : BchRead) : State :=
  let bad := (r.bad.map fun c => r.block.val * 128 + c.val).dedup
  let s := (s.bump Fld.BH_CE_CNT_CNT b r.corrected).bump Fld.BH_UE_CNT_CNT b bad.length
  if r.block.val < 2 then bad.foldl (fun s c => s.bhWrite (b * 0x1000000 + c * 512) (List.replicate 512 0)) s
  else s.setBank b { s.bnk b with ue := bad.foldl NatSet.add (s.bnk b).ue }

/-- At step 12 each controller reads its log and its committed slots: blocks of committed slots are in use, SEQ and the log position go on (R429, R439,
R440). `bch` is what the check bits of the blocks show; those of a block it does not read count nothing. -/
def State.readLog (s : State) (b : Nat) (bch : List BchRead) : State :=
  let mine := bch.filter fun (r : BchRead) => r.bank.val = b
  let s := (mine.filter fun (r : BchRead) => decide (r.block.val < 2)).foldl (fun s r => s.meetBch b r) s
  let s := (mine.filter fun (r : BchRead) => decide (2 ≤ r.block.val)).foldl (fun s r =>
    if (((s.logRecords b).map logKey).dedup.any fun k => (s.triedBlocks b k).contains r.block.val) then s.meetBch b r else s) s
  let rs := s.logRecords b
  if rs = [] then s.record { cls := 1, status := stECC, unit := 0x34 + b, block := 0x14 }
  else
    let keys := (rs.map logKey).dedup
    let ks := keys.flatMap fun k => match (s.commits b k).head? with
      | some r => s.slotBlocksAt b (leAt r 12 1)
      | none => []
    let top := rs.foldl (fun m r => max m (leAt r 4 4)) 0
    let pos := (List.range 2048).foldl (fun p i =>
      let r := s.bhRead (b * 0x1000000 + i * 64) 64
      if r.take 4 = ascii ['B', 'H', 'C', 'R'] ∧ leAt r 4 4 = top then i else p) 0
    let x := s.bnk b
    s.setBank b { x with used := ks.foldl NatSet.add x.used, seq := top + 1, logNext := (pos + 1) % 2048 }

/-! ### Checkpoints and readouts -/

/-- Shows a population's checkpoint state. -/
def State.bhState (s : State) (h pop st : Nat) : State := s.put Fld.BH_POP_STATUS_STATE (64 * h + pop) st

/-- The register's checkpoint has committed or is abandoned (R441). -/
def State.regDone (s : State) (byReg : Bool) : State := if byReg then s.put Fld.BH_CMD_STATUS_PENDING 0 0 else s

/-- Ends a request: the mailbox command, or the register's. -/
def State.endReq (s : State) (r : SnapReq) (status : Nat) (result : List Byte) : State :=
  (s.mbEndFor r.fn status result).regDone r.byReg

/-- Clears NEW in the live records of a population, as the copy into a snapshot does (R413). -/
def State.clearNew (s : State) (h : Nat) (p : Pop) : State :=
  (rangeFrom (p.f 4 4) (p.f 8 4)).foldl (fun s i => if (s.row h i).isEmpty then s
    else s.setRow h i ((s.row h i).map fun (y : Syn) => { y with new := false })) s

/-- Begins the pause of a request (Table 10.4 steps 1 to 3, R436): the image as it stands, the population clean, NEW cleared. -/
def State.beginSnap (s : State) (h : Nat) (r : SnapReq) : State :=
  match s.pop h r.pop with
  | none => s.endReq r stABORTED []
  | some p =>
    let go := fun (s : State) (blocks : List Nat) =>
      let img := s.snapshot h r.pop p r.readout false
      let s := s.setBank h { s.bnk h with cur := some { r with t := s.dev, blocks := blocks, image := img } }
      let s := (s.clearNew h p).setPop h r.pop (some { p with dirty := false })
      let q : Pause := { pop := r.pop, t := s.dev }
      ((s.put Fld.BH_POP_STATUS_DIRTY (64 * h + r.pop) 0).setLe h { s.leng h with pause := some q }).bhState h r.pop 1
    if r.readout then go s []
    else match s.takeBlocks h (slotBlocks (p.f 8 4) p.fastQuota) p.part with
      | some (ks, s) => go s ks
      | none => (s.put Fld.BH_POP_STATUS_SUSPENDED (64 * h + r.pop) 1).endReq r stBUSY []

/-- Whether the wear budget allows a checkpoint of a population now (R426). -/
def State.wearOk (s : State) (h : Nat) (p : Pop) : Bool :=
  decide (s.writes24 h + slotBlocks (p.f 8 4) p.fastQuota ≤ s.get Fld.BH_WEAR_CFG_BUDGET 0)

/-- Whether the wear budget lets a queued request start now (R426); a readout writes no block. -/
def State.mayStart (s : State) (h : Nat) (r : SnapReq) : Bool :=
  r.readout || (match s.pop h r.pop with
    | some p => s.wearOk h p
    | none => true)

/-- Starts the next queued request of an engine when none is in progress (R437); a checkpoint the wear budget no longer allows is deferred (R426,
R427), checkpoints wait while the Cox is halted (R618), and none begins once both controllers have stopped (R434). -/
def State.nextSnap : Nat → Nat → State → State
  | 0, _, s => s
  | n + 1, h, s =>
    let x := s.bnk h
    match x.cur, x.queue with
    | none, r :: rs =>
      if s.err.coxHalted ∨ s.mod.stopped then s
      else if s.mayStart h r then State.nextSnap n h ((s.setBank h { x with queue := rs }).beginSnap h r)
      else State.nextSnap n h ((s.setBank h { x with queue := rs, deferred := x.deferred ++ [r] }).bump Fld.BH_DEFER_CNT_CNT h 1)
    | _, _ => s

/-- Queues a request, or finds the queue full (R437): the request in progress is one of the 8 pending ones. -/
def State.askSnap (s : State) (h : Nat) (r : SnapReq) : Option State :=
  let x := s.bnk h
  if 8 ≤ x.queue.length + (if x.cur.isSome then 1 else 0) then none
  else some (State.nextSnap 9 h (s.setBank h { x with queue := x.queue ++ [r] }))

/-- The copy of an engine's request has ended (Table 10.4 steps 3 to 5, R436); `ecc` tells that it met an uncorrectable error. -/
def State.copyDone (s : State) (h : Nat) (ecc : Bool) : State :=
  let x := s.bnk h
  match x.cur with
  | none => s
  | some r =>
    let skipped := match (s.leng h).pause with
      | some q => sumN (q.skipped.map (·.2))
      | none => 0
    let img := finishImage r.image skipped
    let s := s.setBank h { x with cur := none }
    let part := match s.pop h r.pop with
      | some p => p.part
      | none => 0
    let st := if ecc then stECC else if r.readout then s.memCheck (r.fn.getD part) true r.dest img.length else stOK
    let s := if r.readout ∧ st = stOK then s.writeBytes r.dest img else s
    let s := (s.endPause h).bhState h r.pop (if r.readout ∨ ecc then 0 else 2)
    let s :=
      if ecc then ((s.freeBlocks h r.blocks).setDirty h r.pop |>.record
          { cls := 1, status := stECC, unit := 0x34 + h, part := part, block := 0x14 }).endReq r stECC []
      else if r.readout then s.endReq r st (if st = stOK then leBytes 8 img.length ++ leBytes 8 r.t else [])
      else
        let w : SlotWrite := { pop := r.pop, blocks := r.blocks, image := img, t := r.t, attempt := 0, verifying := false, fn := r.fn, byReg := r.byReg }
        s.setBank h { s.bnk h with writing := (s.bnk h).writing ++ [w] }
    State.nextSnap 9 h s

/-- The bytes of a slot (R422). -/
def slotBytes (w : SlotWrite) : List Byte :=
  ((ascii ['B', 'H', 'S', 'L'] ++ leBytes 1 w.blocks.length ++ List.replicate 19 0 ++ w.blocks.flatMap (leBytes 1)) ++
    List.replicate 256 0).take 256 ++ w.image

/-- Retires a block (R438). -/
def State.retireBlock (s : State) (b k : Nat) : State := s.putBitAt Fld.BH_BAD_BAD (b * 8 + k / 32) (k % 32) true

/-- KEEP and BOTH populations of a bank, with their S. -/
def State.keptPops (s : State) (b : Nat) : List (Nat × Nat) :=
  (s.leng b).pops.filterMap fun kv => match kv.2 with
    | some p => if modeKeeps p.mode then some (kv.1, slotBlocks (p.f 8 4) p.fastQuota) else none
    | none => none

/-- Retirements that leave the pool too small suspend the population with the highest number (R438). -/
def State.suspendIfShort (s : State) (b : Nat) : State :=
  let good := ((rangeFrom 2 254).filter fun k => !s.blockBad b k).length
  let live := (s.keptPops b).filter fun x => s.get Fld.BH_POP_STATUS_SUSPENDED (64 * b + x.1) = 0
  let need := sumN (live.map fun x => 2 * x.2)
  if good < need then
    let top := live.foldl (fun m x => max m x.1) 0
    let part := match s.pop b top with
      | some p => p.part
      | none => 0
    (s.put Fld.BH_POP_STATUS_SUSPENDED (64 * b + top) 1).record { cls := 0, status := stBUSY, unit := 0x34 + b, part := part, block := 0x14 }
  else s

/-- A slot write or its read-back has failed in some blocks: they are retired and the slot is written once more elsewhere, or the checkpoint
is abandoned (R428, R438). -/
def State.slotFailed (s : State) (b : Nat) (w : SlotWrite) (failed : List Nat) : State :=
  let part := match s.pop b w.pop with
    | some p => p.part
    | none => 0
  let s := (failed.filter fun k => w.blocks.contains k).foldl (fun s k => s.retireBlock b k) s
  let s := (s.freeBlocks b w.blocks).suspendIfShort b
  let again := if w.attempt = 0 then s.takeBlocks b w.blocks.length part else none
  match again with
  | some (ks, s) =>
    let w' : SlotWrite := { w with blocks := ks, attempt := 1, verifying := false }
    s.setBank b { s.bnk b with writing := w' :: (s.bnk b).writing }
  | none =>
    let s := ((s.bhState b w.pop 0).setDirty b w.pop).record { cls := 1, status := stECC, unit := 0x34 + b, part := part, block := 0x14 }
    (s.mbEndFor w.fn stECC []).regDone w.byReg

/-- The controller has written the slot at the head of its work (Table 10.4 step 5). -/
def State.slotWritten (s : State) (b : Nat) (failed : List Nat) : State :=
  let x := s.bnk b
  match x.writing with
  | [] => s
  | w :: ws =>
    if w.verifying ∨ x.stopped then s
    else
      let bs := slotBytes w
      let s := (w.blocks.zip (List.range w.blocks.length)).foldl (fun s ki =>
        s.bhWrite (blockOff b ki.1) ((bs.drop (ki.2 * 65536)).take 65536)) s
      let x := s.bnk b
      let wr := w.blocks.foldl (fun t k => Tbl.set 0 t k (Tbl.get 0 t k + 1)) x.writes
      let x := { x with writes := wr, recent := x.recent ++ [(s.now, w.blocks.length)] }
      let bad := failed.filter fun k => w.blocks.contains k
      if bad = [] then
        let w' : SlotWrite := { w with verifying := true }
        s.setBank b { x with writing := w' :: ws }
      else (s.setBank b { x with writing := ws }).slotFailed b w bad

/-- The read-back of the slot at the head has ended (Table 10.4 steps 6 to 8). -/
def State.slotRead (s : State) (b corrected : Nat) (failed : List Nat) : State :=
  let x := s.bnk b
  match x.writing with
  | [] => s
  | w :: ws =>
    if !w.verifying ∨ x.stopped then s
    else
      let s := (s.bump Fld.BH_CE_CNT_CNT b corrected).bump Fld.BH_UE_CNT_CNT b failed.length
      let s := s.setBank b { s.bnk b with writing := ws }
      if failed ≠ [] then s.slotFailed b w failed
      else match s.pop b w.pop with
        | none => (s.freeBlocks b w.blocks).mbEndFor w.fn stABORTED []
        | some p =>
          let n := 64 * b + w.pop
          let seq := (s.bnk b).seq
          let s := s.logRecord b 1 w.pop p.part (w.blocks.headD 0) p.sig w.t w.image.length
          let old := match Tbl.get none (s.bnk b).committed n with
            | some o => o.1
            | none => []
          let s := s.setBank b { s.bnk b with committed := Tbl.set none (s.bnk b).committed n (some (w.blocks, seq)) }
          let s := ((s.freeBlocks b old).put Fld.BH_POP_LAST_T_PAUSE n w.t).bhState b w.pop 0
          let s := if w.powerFail then s.bump Fld.BH_PF_CNT_CNT b 1 else s
          (s.mbEndFor w.fn stOK (leBytes 8 w.t)).regDone w.byReg

/-- A request ends without its snapshot: the pause ends, the blocks return and the population is dirty again (R433, R461, R597). -/
def State.abortSnap (s : State) (h : Nat) : State :=
  let x := s.bnk h
  match x.cur with
  | none => s
  | some r =>
    let s := (s.setBank h { x with cur := none }).freeBlocks h r.blocks
    (((s.endPause h).bhState h r.pop 0).setDirty h r.pop).endReq r stABORTED []

/-- Ends every checkpoint and readout of the populations that satisfy `p` with ABORTED (R461, R545, R597). -/
def State.abortPops (s : State) (h : Nat) (p : Nat → Bool) : State :=
  let x := s.bnk h
  let gone := x.queue.filter fun (r : SnapReq) => p r.pop
  let gw := x.writing.filter fun (w : SlotWrite) => p w.pop
  let s := s.setBank h { x with queue := x.queue.filter fun (r : SnapReq) => !p r.pop, writing := x.writing.filter fun (w : SlotWrite) => !p w.pop,
                                deferred := x.deferred.filter fun (r : SnapReq) => !p r.pop }
  let s := gone.foldl (fun s r => s.endReq r stABORTED []) s
  let s := gw.foldl (fun s w => (((s.freeBlocks h w.blocks).bhState h w.pop 0).setDirty h w.pop |>.mbEndFor w.fn stABORTED []).regDone
    w.byReg) s
  match x.cur with
  | some r => if p r.pop then State.nextSnap 9 h (s.abortSnap h) else s
  | none => s

/-- Releases a key's committed slot (R424, R432, R545). -/
def State.releaseSlot (s : State) (b pop part : Nat) (sig : List Byte) : State :=
  let n := 64 * b + pop
  match Tbl.get none (s.bnk b).committed n with
  | none => s
  | some o =>
    let s := s.logRecord b 2 pop part (o.1.headD 0) sig s.dev 0
    let s := s.setBank b { s.bnk b with committed := Tbl.set none (s.bnk b).committed n none }
    s.freeBlocks b o.1

/-! ### The power-fail commit (R433) -/

/-- The rank of a population in the power-fail order: class of the best lane bound to its model, engine, number. -/
def State.pfRank (s : State) (h pop : Nat) (p : Pop) : Nat :=
  let cls := (s.boundLanes p.model).foldl (fun m l => min m (s.laneField l 1 1)) 3
  (cls * 2 + h) * 64 + pop

/-- Dirty KEEP and BOTH populations in the order of R433. -/
def State.pfOrder (s : State) : List (Nat × Nat) :=
  let l := [0, 1].flatMap fun h => (s.leng h).pops.filterMap fun kv => match kv.2 with
    | some p => if p.dirty ∧ modeKeeps p.mode then some (s.pfRank h kv.1 p, h, kv.1) else none
    | none => none
  (l.mergeSort fun a b => decide (a.1 ≤ b.1)).map (·.2)

/-- Takes one population into the power-fail commit when its bytes fit (R433). -/
def State.pfTake (s : State) (h pop : Nat) : State :=
  match s.pop h pop with
  | none => s
  | some p =>
    let img := s.snapshot h pop p false true
    let n := slotBlocks (p.f 8 4) p.fastQuota
    if 6000000 < (s.bnk h).pfBytes + 256 + img.length then s
    else match s.takeBlocks h n p.part with
      | none => s
      | some (ks, s) =>
        let w : SlotWrite := { pop := pop, blocks := ks, image := img, t := s.dev, attempt := 0, verifying := false, fn := none,
                               byReg := false, powerFail := true }
        let s := s.setBank h { s.bnk h with writing := (s.bnk h).writing ++ [w], pfBytes := (s.bnk h).pfBytes + 256 + img.length }
        (((s.clearNew h p).setPop h pop (some { p with dirty := false })).put Fld.BH_POP_STATUS_DIRTY (64 * h + pop) 0).bhState h pop 2

/-- The power-fail commit begins (R433): readouts and copies end, slots being written go on, dirty populations are taken in order. -/
def State.powerFailCommit (s : State) : State :=
  let s := [0, 1].foldl (fun s h =>
    let x := s.bnk h
    let gone := x.queue
    let s := s.setBank h { x with queue := [], deferred := [], pfBytes := sumN (x.writing.map fun (w : SlotWrite) => if w.verifying then 0 else 256 + w.image.length) }
    (gone.foldl (fun s r => s.endReq r stABORTED []) s).abortSnap h) s
  s.pfOrder.foldl (fun s hp => s.pfTake hp.1 hp.2) s

end Sys2Proof.Machine
end

