-- ==== Sys2Proof/Machine/Coherence.lean ====
section
/-!
DEFINITION. The commands of homes, caches and locks: requests (R141, R153, R159), snoops (R144), evictions (R141, R143, R151),
Retry (R148 to R150), lock waits (R160), the context-fault notice (R161) and the patrol scrubber (R170).
-/
namespace Sys2Proof.Machine

/-- The meaning of a command that always has its effect. -/
abbrev Effect := Host.Outcome State Fault Refusal

/-- READ_SHARED (R141): a home serves a request for a readable copy. -/
def execReadShared (tag : Tag) (agent : Fin 19) (addr : Addr) (ticket : Option Nat) (ecc : Ecc) (fab : FabEv) (s : State) : Effect :=
  .next (s.start.carried fab fun s => s.request { kind := .readShared, tag := tag, src := .agent agent, addr := addr, ecc := ecc } ticket)

/-- READ_OWN (R141): a home serves a request for a writable copy. -/
def execReadOwn (tag : Tag) (agent : Fin 19) (addr : Addr) (store : Store) (ticket : Option Nat) (ecc : Ecc) (fab : FabEv)
    (s : State) : Effect :=
  .next (s.start.carried fab fun s =>
    s.request { kind := .readOwn, tag := tag, src := .agent agent, addr := addr, store := store, ecc := ecc } ticket)

/-- UPGRADE (R141): a sharer wants M without data. -/
def execUpgrade (tag : Tag) (agent : Fin 19) (addr : Addr) (store : Store) (ticket : Option Nat) (ecc : Ecc) (fab : FabEv)
    (s : State) : Effect :=
  .next (s.start.carried fab fun s =>
    s.request { kind := .upgrade, tag := tag, src := .agent agent, addr := addr, store := store, ecc := ecc } ticket)

/-- READ_ONCE (R141, R138): an engine reads the current line and keeps no copy. An uncorrectable slot header discards the
request on its way (R129). -/
def execReadOnce (tag : Tag) (src : Work) (addr : Addr) (ticket : Option Nat) (ecc : Ecc) (fab : FabEv) (s : State) : Effect :=
  .next (s.start.carried fab fun s => s.request { kind := .readOnce, tag := tag, src := src, addr := addr, ecc := ecc } ticket)

/-- WRITE_LINE (R141, R138): an engine writes the masked bytes of a line. -/
def execWriteLine (tag : Tag) (src : Work) (addr : Addr) (store : Store) (ticket : Option Nat) (ecc : Ecc) (fab : FabEv)
    (s : State) : Effect :=
  .next (s.start.carried fab fun s =>
    s.request { kind := .writeLine, tag := tag, src := src, addr := addr, store := store, ecc := ecc } ticket)

/-- An atomic of Table 4.7 is issued (R153 to R155). -/
def State.atomicAt (s : State) (op : Nat) (tag : Tag) (src : Work) (addr : Addr) (args : AtomicArgs) (ticket : Option Nat) : State :=
  s.carried args.fab fun s =>
    s.request { kind := .atomic op, tag := tag, src := src, addr := addr, args := args, ecc := args.ecc } ticket

/-- ATOMIC_FETCH_ADD (R153). -/
def execAtomicFetchAdd (tag : Tag) (src : Work) (addr : Addr) (args : AtomicArgs) (ticket : Option Nat) (s : State) : Effect :=
  .next (s.start.atomicAt 0 tag src addr args ticket)

/-- ATOMIC_SWAP (R153). -/
def execAtomicSwap (tag : Tag) (src : Work) (addr : Addr) (args : AtomicArgs) (ticket : Option Nat) (s : State) : Effect :=
  .next (s.start.atomicAt 1 tag src addr args ticket)

/-- ATOMIC_COMPARE_SWAP (R153). -/
def execAtomicCompareSwap (tag : Tag) (src : Work) (addr : Addr) (args : AtomicArgs) (ticket : Option Nat)
    (s : State) : Effect :=
  .next (s.start.atomicAt 2 tag src addr args ticket)

/-- ATOMIC_MIN_S (R153). -/
def execAtomicMinS (tag : Tag) (src : Work) (addr : Addr) (args : AtomicArgs) (ticket : Option Nat) (s : State) : Effect :=
  .next (s.start.atomicAt 3 tag src addr args ticket)

/-- ATOMIC_MAX_S (R153). -/
def execAtomicMaxS (tag : Tag) (src : Work) (addr : Addr) (args : AtomicArgs) (ticket : Option Nat) (s : State) : Effect :=
  .next (s.start.atomicAt 4 tag src addr args ticket)

/-- ATOMIC_MIN_U (R153). -/
def execAtomicMinU (tag : Tag) (src : Work) (addr : Addr) (args : AtomicArgs) (ticket : Option Nat) (s : State) : Effect :=
  .next (s.start.atomicAt 5 tag src addr args ticket)

/-- ATOMIC_MAX_U (R153). -/
def execAtomicMaxU (tag : Tag) (src : Work) (addr : Addr) (args : AtomicArgs) (ticket : Option Nat) (s : State) : Effect :=
  .next (s.start.atomicAt 6 tag src addr args ticket)

/-- LOCK_ACQUIRE (R159, R160). -/
def execLockAcquire (tag : Tag) (op : LockArgs) (s : State) : Effect :=
  .next (s.start.carried op.fab (State.lockRequest · 0 tag op))

/-- LOCK_TRY_ACQUIRE (R159). -/
def execLockTryAcquire (tag : Tag) (op : LockArgs) (s : State) : Effect :=
  .next (s.start.carried op.fab (State.lockRequest · 1 tag op))

/-- LOCK_RELEASE (R159, R163): it waits for every earlier access of its context (R123). -/
def execLockRelease (tag : Tag) (op : LockArgs) (s : State) : Effect :=
  .next (s.start.carried op.fab (State.lockRequest · 2 tag op))

/-- LOCK_INSPECT (R159, R177). -/
def execLockInspect (tag : Tag) (op : LockArgs) (s : State) : Effect :=
  .next (s.start.carried op.fab (State.lockRequest · 3 tag op))

/-- SNOOP_SHARE (R144, R145): a downgrade snoop reaches a cache. -/
def execSnoopShare (agent : Fin 19) (addr : Addr) (after evicting : Bool) (ecc : Ecc) (fab : FabEv) (s : State) : Effect :=
  .next (s.start.carried fab (State.snooped · false agent.val addr after evicting ecc))

/-- SNOOP_INV (R144, R145): an invalidating snoop reaches a cache. -/
def execSnoopInv (agent : Fin 19) (addr : Addr) (after evicting : Bool) (ecc : Ecc) (fab : FabEv) (s : State) : Effect :=
  .next (s.start.carried fab (State.snooped · true agent.val addr after evicting ecc))

/-- SNOOP_MISS (R151): a SnoopMiss answer reaches the home. -/
def execSnoopMiss (agent : Fin 19) (addr : Addr) (fab : FabEv) (s : State) : Effect :=
  .next (s.start.carried fab fun s => (s.snoopAnswer agent.val (lineOf addr) true).settle)

/-- What turns an eviction away on its way to the home: the dark Seam's stand-in (R116) and an old epoch (R553). `none` lets it in. -/
def State.evictGate (s : State) (tag : Tag) (agent : Fin 19) (addr : Addr) : Option State :=
  if !s.domOn 56 && crossesSeam tag.unit (regionUnit (s.region addr)) then some (s.emit (.ack (.agent agent) addr stDOWN []))
  else if tag.epoch ≠ s.knownEpoch tag.unit then
    some ((s.bump Fld.ERR_STALE_REQ_CNT_CNT 0 1).emit (.ack (.agent agent) addr stSTALE []))
  else none

/-- A cache evicts a clean line (R137, R141). A line in M leaves only by WriteBack. Where an uncorrectable error made the cache discard the line
(`ue`), it counts as corrected and the cache reads the line again (R166). -/
def State.evictClean (s : State) (tag : Tag) (agent : Fin 19) (addr : Addr) (ue : Bool) : State :=
  let l := lineOf addr
  match s.evictGate tag agent addr with
  | some s => s
  | none =>
    if (s.copy agent.val l).any fun c => c.st = .m then s
    else
      let s := s.evicted agent.val l
      if ue then (s.bump Fld.MEM_CE_CNT_CNT 0 1).request { kind := .readShared, tag := tag, src := .agent agent, addr := addr / 64 * 64 } none
      else s

/-- EVICT_NOTICE (R141): a clean eviction reaches the home; one of an old epoch is turned away (R553). -/
def execEvictNotice (tag : Tag) (agent : Fin 19) (addr : Addr) (ue : Bool) (fab : FabEv) (s : State) : Effect :=
  .next (s.start.carried fab fun s => (s.evictClean tag agent addr ue).settle)

/-- A cache writes a modified line back (R137, R143): memory takes it at once, but for bytes written there since, if the agent is the line's listed
holder and its partition may write there (R182). `ue` names the words whose check code failed in the cache (R166). -/
def State.evictDirty (s : State) (tag : Tag) (agent : Fin 19) (addr : Addr) (data : Store) (ue : BitVec 8) : State :=
  let g := agent.val
  let l := lineOf addr
  match s.evictGate tag agent addr with
  | some s => s
  | none =>
    if !bit (s.dirLine l).vec g then s
    else
      let s := if ue = 0 then s else s.ueRecord (addr / 64 * 64) 2 ue.toNat
      if !s.liningOk tag true addr then (((s.liningFail tag addr).emit (.ack (.agent agent) addr stDENIED [])).evicted g l)
      else
        let s := s.seamBytes tag.unit (regionUnit (s.region addr)) 64
        (s.sink g l data.mask.toNat data.bytes (Nat.lor data.poison.toNat ue.toNat)).evicted g l

/-- WRITE_BACK (R143): a dirty eviction is sunk into memory at once, whatever the line's state. -/
def execWriteBack (tag : Tag) (agent : Fin 19) (addr : Addr) (data : Store) (ue : BitVec 8) (fab : FabEv) (s : State) : Effect :=
  .next (s.start.carried fab fun s => (s.evictDirty tag agent addr data ue).settle)

/-- Whether a request is the one a Retry names. -/
def HomeReq.isOf (r : HomeReq) (src : Work) (addr : Nat) : Bool := r.src = src && r.addr = addr

/-- RETRY (R148, R150): the requester keeps its request, with the ticket, for the reissue. -/
def execRetry (src : Work) (addr : Addr) (ticket : Nat) (fab : FabEv) (s : State) : Effect :=
  .next (s.start.carried fab fun s => match s.coh.turned.find? fun r => r.isOf src addr with
    | none => s
    | some r => { s with coh := { s.coh with turned := s.coh.turned.erase r, retries := s.coh.retries ++ [(r, ticket)] } })

/-- RETRY_REISSUE (R150): 100 ns later the requester issues the same request again with its ticket. -/
def execRetryReissue (src : Work) (addr : Addr) (s : State) : Effect :=
  let s := s.start
  .next (match s.coh.retries.find? fun r => r.1.isOf src addr with
    | none => s
    | some r =>
      ((({ s with coh := { s.coh with retries := s.coh.retries.erase r } }).emit (.reissue src addr r.2)).issue r.1 (some r.2)).settle)

/-- TICKET_RESERVATION_EXPIRY (R149): a place reserved for 10 µs passes to the next unserved ticket. -/
def execTicketReservationExpiry (addr : Addr) (s : State) : Effect :=
  let s := s.start
  let l := lineOf addr
  .next (match s.coh.reserved.find? fun u => u.2.2.1 = l with
    | none => s
    | some u =>
      ({ s with coh := { s.coh with reserved := s.coh.reserved.erase u, unserved := s.coh.unserved.erase u } }).reserve
        u.1 l u.2.2.2)

/-- LOCK_GRANT (R160): a deferred result reaches its waiter; one for an old epoch is discarded (R553). -/
def execLockGrant (tag : Tag) (lock status : Nat) (fab : FabEv) (s : State) : Effect :=
  .next (s.start.carried fab fun s => if tag.epoch ≠ s.epoch tag.unit then s.bump Fld.ERR_STALE_RSP_CNT_CNT 0 1
    else s.emit (.note lock status))

/-- LOCK_WAIT_TIMEOUT (R160, R563): WAIT_MS passes; the waiter leaves the queue and receives LockGrant TIMEOUT. -/
def execLockWaitTimeout (tag : Tag) (lock : Nat) (s : State) : Effect :=
  let s := s.start
  let l := s.lock lock
  .next (match l.queue.find? fun q => q.1 = tag with
    | none => s
    | some q => ((s.setLock lock { l with queue := l.queue.erase q }).bump Fld.LOCK_TIMEOUT_CNT_CNT 0 1).emit
        (.lockGrant tag lock stTIMEOUT))

/-- CONTEXT_FAULT_NOTICE (R161): a Pocket orphans a context's locks and removes its waiters. -/
def execContextFaultNotice (ctx : Nat) (fab : FabEv) (s : State) : Effect :=
  .next (s.start.carried fab fun s => s.orphanAll fun t => t.ctx = ctx)

/-- The scrubber reads a line (R170). A lost directory entry is repaired under a busy entry of the home, unless the line is busy or no entry is free:
the next read meets it then (R173). -/
def State.scrub (s : State) (a : Nat) (ecc : Ecc) : State :=
  let r : HomeReq := { kind := .repair, tag := s.sysTag (regionUnit (s.region a)), src := .unit (regionUnit (s.region a)), addr := a, ecc := ecc }
  let h := homeOf (s.region a)
  if !r.lost then s.meetEcc a ecc
  else if (s.busyLine (lineOf a)).isSome ∨ busyLimit h ≤ s.busyCount h then s
  else State.pump pumpFuel (lineOf a) (s.serve r [])

/-- PATROL_SCRUB (R170): the scrubber reads a Pocket or HBM line; a word already marked poisoned is passed over (R167). -/
def execPatrolScrub (addr : Addr) (ecc : Ecc) (s : State) : Effect :=
  let s := s.start
  .next (if (s.region addr).cacheable ∧ !s.unitDown (regionUnit (s.region addr)) then s.scrub (addr / 64 * 64) ecc else s)

end Sys2Proof.Machine
end

