-- ==== Sys2Proof/Machine/Learning.lean ====
section
/-!
DEFINITION. The Learning Engines' commands: LE_EVENT, DELAY_WHEEL_RELEASE, EVALUATION_SWEEP, MARK_EXPIRY and TEACH_WINDOW_EXPIRY.
-/
namespace Sys2Proof.Machine

/-- The model slot a lane is bound to, if it runs there. -/
def State.laneModel (s : State) (l : Nat) : Option Nat :=
  s.mdl.models.findSome? fun kv => match kv.2 with
    | some m => if m.lanes.any fun (r : LaneRes) => r.lane = l then some kv.1 else none
    | none => none

/-- The engine time of a population (R374). -/
def State.popTime (s : State) (h : Nat) (p : Pop) : Nat := Tbl.get 0 (s.leng h).time p.model

/-- The time flags of the ring entry an event derives from: the entry with its DEV_TIME in the lane's ring, else those of the last entry. -/
def State.entryFlags (s : State) (l dev : Nat) : Nat :=
  let base := (s.lane l).base
  match (List.range 32).find? fun i => s.rdNat (base + i * 128) 8 = dev with
  | some i => s.rdNat (base + i * 128 + 0x10) 2
  | none => s.get Fld.LANE_STATUS_TFLAGS l

/-- Moves the engine time of a model's populations to a processed event's time (R374); an event of a lane no model is bound to moves none. -/
def State.moveTime (s : State) (h : Nat) (model : Option Nat) (t : Nat) : State :=
  match model with
  | none => s
  | some m =>
    let tm := (s.leng h).time
    s.setLe h { s.leng h with time := Tbl.set 0 tm m (max t (Tbl.get 0 tm m)) }

/-- The engine of a lane's half takes the next event of its ring (R364, R365, R372, R394, R395). -/
def State.leEvent (s : State) (l : Nat) (spillErr : Option Nat) : State :=
  let x := s.lrnLane l
  let h := x.engine
  let con := s.ringCon x.ring
  if x.ring = 0 ∨ s.ringPub x.ring ≤ con then s
  else
    let a := s.ringBaseOf x.ring + con % max 1 (s.ringSizeOf x.ring)
    let poison := s.poisoned a || s.poisoned (a + 8)
    let t := s.coherentNat a 8
    let neuron := s.coherentNat (a + 8) 4
    let value := s.coherentNat (a + 12) 2
    let src := s.coherentNat (a + 14) 1 % 16
    let flags := s.coherentNat (a + 15) 1
    let r := s.service (0x30 + h) (s.lanePart l) false a 16
    let s := (r.2.putCon x.ring (con + 16)).bump Fld.LRN_EV_CNT_CNT l 1
    if !r.1 then s
    else if poison then
      let y := s.lane l
      (s.setLane l { y with gapCause := addCause y.gapCause 6 }).bump Fld.MEM_POISON_CNT_CNT 0 1
    else
      let inPop : Option Pop := match s.popOf h (neuron % 2 ^ 17) with
        | some p => if p.kind = 0 ∧ p.part = s.lanePart l ∧ neuron < 2 ^ 17 then some p else none
        | none => none
      let s :=
        if bit flags 1 then s.moveTime h (s.laneModel l) t
        else match inPop, (value % 32768 < 0x7C00 : Bool) with
          | some p, true =>
            let s := s.moveTime h (s.laneModel l) t
            let amp := fp16to32 value
            let s := if p.f 0x0E 1 = l then s.predictError h l neuron (p.f 4 4) amp src t else s
            let s := s.touch h neuron t
            match s.neuron h neuron with
            | none => s
            | some n =>
              let one := 0x3F800000
              let n' : Neuron := { n with x1 := fp32Add n.x1 amp, x2 := fp32Add n.x2 amp, y1 := fp32Add n.y1 one, y2 := fp32Add n.y2 one,
                                          tSpike := t }
              let s := ((s.setNeuron h neuron n').checkNeuron h neuron t).noteSpike h neuron t
              let r := s.schedule h neuron t amp l
              State.runDeliv h spillErr delivFuel r.1 r.2
          | _, _ => (s.bump Fld.LRN_BADEV_CNT_CNT h 1).leRecord h (s.lanePart l) 1 stDENIED
      if bit flags 0 ∧ s.laneState l ≠ 5 then s.scoreEntry h l t (s.entryFlags l t) else s

/-- The check code of an engine's records as a command's reads meet it: a corrected error counts (R165); the first meeting of an uncorrectable one is
counted and recorded, and the record or state reads POISONED until it is written (R167, R402, R403). -/
def State.meetSram (s : State) (h : Nat) (e : SramErr) : State :=
  match e with
  | .clean => s
  | .corrected => s.bump Fld.MEM_CE_CNT_CNT 0 1
  | .synapse i place =>
    match (s.row h i)[place]? with
    | none => s
    | some y =>
      if y.poisoned then s
      else (s.modSyn h i y.uid fun y => { y with poisoned := true }).ueFree (0x30 + h) (if y.spill then 1 else 4)
  | .neuron j =>
    match s.neuron h j with
    | none => s
    | some n => if n.poisoned then s else (s.setNeuron h j { n with poisoned := true }).ueFree (0x30 + h) 4

/-- LE_EVENT (R364). -/
def execLeEvent (lane : Fin 64) (spillErr : Option Nat) (sram : SramErr) (s : State) : Effect :=
  let s := s.start
  let h := (s.lrnLane lane.val).engine
  .next (if s.domOn (50 + h) then (s.meetSram h sram).leEvent lane.val spillErr else s)

/-- Takes every event already published in a lane's ring (Table 11.8 step 4). -/
def State.leDrain (s : State) (l : Nat) : State :=
  let x := s.lrnLane l
  let n := if x.ring = 0 then 0 else (s.ringPub x.ring - s.ringCon x.ring) / 16
  (List.range n).foldl (fun s _ => s.leEvent l none) s

/-- Whether a waiting delivery may be released (R374). -/
def State.releasable (s : State) (h : Nat) (d : Deliv) : Bool :=
  match s.popOf h d.target with
  | some p => decide (d.due ≤ s.popTime h p)
  | none => true

/-- The earliest releasable delivery of an engine, the first scheduled among those due in the same tick (R374). -/
def State.nextDue (s : State) (h : Nat) : Option Deliv :=
  let tickOf := fun (d : Deliv) => match s.popOf h d.target with
    | some p => d.due / p.tick * p.tick
    | none => d.due
  ((s.leng h).wheel.filter (s.releasable h)).foldl (fun (b : Option Deliv) (d : Deliv) => match b with
    | none => some d
    | some c => if tickOf d < tickOf c then some d else b) none

/-- DELAY_WHEEL_RELEASE (R374): the engine releases the next delivery whose due time its model's engine time has reached. -/
def execDelayWheelRelease (eng : Fin 2) (spillErr : Option Nat) (sram : SramErr) (s : State) : Effect :=
  let s := s.start
  let h := eng.val
  .next (if !s.domOn (50 + h) then s
    else match s.nextDue h with
      | none => s
      | some d =>
        let s := s.meetSram h sram
        let x := s.leng h
        State.runDeliv h spillErr delivFuel [d] (s.setLe h { x with wheel := x.wheel.erase d }))

/-- EVALUATION_SWEEP (R388): a population is swept once EVAL_TICKS ticks of its engine time have passed; a sweep that touches a paused population
waits in the pause queue (R414). -/
def execEvaluationSweep (eng : Fin 2) (pop : Fin 64) (spillErr : Option Nat) (sram : SramErr) (s : State) : Effect :=
  let s := s.start
  let h := eng.val
  .next (match s.pop h pop.val with
    | none => s
    | some p =>
      let due := p.evalAt + p.f 0x3E 2 * p.tick
      if !s.domOn (50 + h) ∨ s.popTime h p < due then s
      else
        let s := s.setPop h pop.val (some { p with evalAt := due })
        if s.learnOff then s
        else if s.sweepDeferred h pop.val then s.defer h 64 (.sweep pop.val) else (s.meetSram h sram).sweep h pop.val spillErr)

/-- MARK_EXPIRY (R390): 60 s after the Mark, m returns to the window's value. -/
def execMarkExpiry (lane : Fin 64) (s : State) : Effect :=
  let s := s.start
  let l := lane.val
  .next (if (s.lrnLane l).markEnd = 0 then s else (s.setLrn l { s.lrnLane l with markEnd := 0 }).setMod l)

/-- TEACH_WINDOW_EXPIRY (R390): the teach window ends. -/
def execTeachWindowExpiry (lane : Fin 64) (s : State) : Effect :=
  let s := s.start
  let l := lane.val
  .next (if (s.lrnLane l).teachEnd = 0 then s else (s.setLrn l { s.lrnLane l with teachEnd := 0 }).setMod l)

end Sys2Proof.Machine
end

