-- ==== Sys2Proof/Machine/Crypto.lean ====
section
/-!
DEFINITION. The published algorithms the spec names without restating: SHA-256 (FIPS 180-4), HMAC (FIPS 198-1) and ECDSA
verification over P-256 (FIPS 186-4, SEC 2). PRESUMED: their constants are the standards', not the spec's (log entry 8).
-/
namespace Sys2Proof.Machine

/-- The integer root of degree `k` of `x`, found from bit `b` - 1 of the root downward. -/
def rootNat (k x : Nat) : Nat → Nat → Nat
  | 0, r => r
  | b + 1, r => rootNat k x b (if (r + 2 ^ b) ^ k ≤ x then r + 2 ^ b else r)

/-- The primes below `n`, for `n` up to 361. -/
def primesBelow (n : Nat) : List Nat :=
  (List.range n).filter fun p => decide (2 ≤ p) && [2, 3, 5, 7, 11, 13, 17].all fun d => decide (p = d) || decide (p % d ≠ 0)

/-- The first 32 bits after the point of the root of degree `k` of each prime: SHA-256 takes its round constants from the cube roots of the first 64 primes
and its start value from the square roots of the first 8. -/
def rootFractions (k n : Nat) : List Nat := (primesBelow n).map fun p => rootNat k (p * 2 ^ (32 * k)) 36 0 % 2 ^ 32

/-- A 32-bit word turned right by `n` places. -/
def turn (n x : Nat) : Nat := x / 2 ^ n + x % 2 ^ n * 2 ^ (32 - n)

/-- The exclusive or of three words. -/
def xor3 (a b c : Nat) : Nat := Nat.xor a (Nat.xor b c)

/-- The message schedule of a block: word `n` comes from the words 2, 7, 15 and 16 places before it. -/
def shaSchedule (blk : List Byte) : Nat → List Nat
  | 0 => []
  | n + 1 =>
    let w := shaSchedule blk n
    if n < 16 then w ++ [beNat ((blk.drop (4 * n)).take 4)]
    else
      let at_ := fun (j : Nat) => w.getD (n - j) 0
      let lo := xor3 (turn 7 (at_ 15)) (turn 18 (at_ 15)) (at_ 15 / 8)
      let hi := xor3 (turn 17 (at_ 2)) (turn 19 (at_ 2)) (at_ 2 / 1024)
      w ++ [(at_ 16 + lo + at_ 7 + hi) % 2 ^ 32]

/-- The two registers of the compression, each with its last four words, newest first. -/
structure ShaRegs where
  top : List Nat
  low : List Nat
deriving DecidableEq, Repr

/-- One round, which takes the sum of a schedule word and its constant. -/
def ShaRegs.round (r : ShaRegs) (kw : Nat) : ShaRegs :=
  let t := fun (i : Nat) => r.top.getD i 0
  let l := fun (i : Nat) => r.low.getD i 0
  let choose := Nat.lor (Nat.land (l 0) (l 1)) (Nat.land (2 ^ 32 - 1 - l 0) (l 2))
  let most := Nat.lor (Nat.land (t 0) (Nat.lor (t 1) (t 2))) (Nat.land (t 1) (t 2))
  let sum := l 3 + xor3 (turn 6 (l 0)) (turn 11 (l 0)) (turn 25 (l 0)) + choose + kw
  ⟨(sum + xor3 (turn 2 (t 0)) (turn 13 (t 0)) (turn 22 (t 0)) + most) % 2 ^ 32 :: r.top.take 3, (t 3 + sum) % 2 ^ 32 :: r.low.take 3⟩

/-- The hash value after one more 64-byte block. -/
def shaAbsorb (h : List Nat) (blk : List Byte) : List Nat :=
  let kw := List.zipWith (· + ·) (rootFractions 3 312) (shaSchedule blk 64)
  let r := kw.foldl ShaRegs.round ⟨h.take 4, h.drop 4⟩
  List.zipWith (fun a b => (a + b) % 2 ^ 32) h (r.top ++ r.low)

/-- A message padded with a 1 bit, zeros and its length in bits, to whole blocks. -/
def shaPadded (m : List Byte) : List Byte :=
  let tail := (0x80 : Byte) :: List.replicate ((119 - m.length % 64) % 64) 0
  m ++ tail ++ beBytes 8 (m.length * 8)

/-- SHA-256 of a byte string, 32 bytes. -/
def sha256 (m : List Byte) : List Byte :=
  let p := shaPadded m
  ((List.range (p.length / 64)).foldl (fun h i => shaAbsorb h ((p.drop (64 * i)).take 64)) (rootFractions 2 20)).flatMap (beBytes 4)

/-- HMAC-SHA-256 with a key of at most 64 bytes. -/
def hmacSha256 (key m : List Byte) : List Byte :=
  let k := key ++ List.replicate (64 - key.length) 0
  sha256 (k.map (· ^^^ 0x5c) ++ sha256 (k.map (· ^^^ 0x36) ++ m))

/-- The field prime of P-256. -/
def p256P : Nat := 2 ^ 256 - 2 ^ 224 + 2 ^ 192 + 2 ^ 96 - 1
/-- The order of the base point of P-256. -/
def p256N : Nat := 0xffffffff00000000ffffffffffffffffbce6faada7179e84f3b9cac2fc632551
/-- The curve constant b of P-256. -/
def p256B : Nat := 0x5ac635d8aa3a93e7b3ebbd55769886bc651d06b0cc53b0f63bce3c3e27d2604b
/-- The base point of P-256. -/
def p256G : Nat × Nat :=
  (0x6b17d1f2e12c4247f8bce6e563a440f277037d812deb33a0f4a13945d898c296,
   0x4fe342e2fe1a7f9b8ee7eb4a7c0f9e162bce33576b315ececbb6406837bf51f5)

/-- `b ^ e` modulo `m`, on the low `fuel` bits of `e`. -/
def modPow (m : Nat) : Nat → Nat → Nat → Nat → Nat
  | 0, _, _, acc => acc
  | f + 1, b, e, acc => modPow m f (b * b % m) (e / 2) (if e % 2 = 1 then acc * b % m else acc)

/-- The inverse modulo a 256-bit prime, by Fermat. -/
def modInv (m x : Nat) : Nat := modPow m 256 (x % m) (m - 2) 1

/-- Addition of affine points of P-256; `none` is the point at infinity. -/
def ecAdd : Option (Nat × Nat) → Option (Nat × Nat) → Option (Nat × Nat)
  | none, q => q
  | p, none => p
  | some (x1, y1), some (x2, y2) =>
    let m := p256P
    let fin := fun (l : Nat) =>
      let x3 := (l * l + 2 * m - x1 - x2) % m
      some (x3, (l * (x1 + m - x3) + m - y1) % m)
    if x1 = x2 then
      if (y1 + y2) % m = 0 then none
      else fin ((3 * x1 * x1 + m - 3) % m * modInv m (2 * y1) % m)
    else fin ((y2 + m - y1) % m * modInv m ((x2 + m - x1) % m) % m)

/-- Scalar multiplication over the low `fuel` bits. -/
def ecMul : Nat → Nat → Option (Nat × Nat) → Option (Nat × Nat) → Option (Nat × Nat)
  | 0, _, _, acc => acc
  | f + 1, k, p, acc => ecMul f (k / 2) (ecAdd p p) (if k % 2 = 1 then ecAdd acc p else acc)

/-- ECDSA verification over P-256 with SHA-256 (R54). -/
def ecdsaVerify (msg : List Byte) (x y r s : Nat) : Bool :=
  let n := p256N
  let onCurve := x < p256P && y < p256P && (y * y % p256P = (x * x * x + (p256P - 3) * x + p256B) % p256P)
  if onCurve && 0 < r && r < n && 0 < s && s < n then
    let e := beNat (sha256 msg) % n
    let w := modInv n s
    match ecAdd (ecMul 256 (e * w % n) (some p256G) none) (ecMul 256 (r * w % n) (some (x, y)) none) with
    | none => false
    | some (px, _) => decide (px % n = r)
  else false

end Sys2Proof.Machine
end

