-- ==== Sys2Proof/Machine/ModelImage.lean ====
section
/-!
DEFINITION. Model images (R442 to R447) and their validity (R448, R366, R377, R602).
-/
namespace Sys2Proof.Machine

/-- MODEL_ID. -/
def mimId (img : List Byte) : Nat := leAt img 8 4

/-- N_PROFILES. -/
def mimProfiles (img : List Byte) : Nat := leAt img 0x14 1

/-- Profile record `k` (Table 11.2). -/
def mimProfile (img : List Byte) (k : Nat) : List Byte := slice img (leAt img 0x18 4 + 256 * k) 256

/-- The feature plan entries (Table 11.3). -/
def mimPlans (img : List Byte) : List (List Byte) :=
  (List.range (leAt img 0x15 1)).map fun i => slice img (leAt img 0x1C 4 + 32 * i) 32

/-- The task entries of a profile (Table 11.4). -/
def profTasks (img p : List Byte) : List (List Byte) := (List.range (leAt p 0x80 2)).map fun i => slice img (leAt p 0x88 4 + 64 * i) 64

/-- The population entries of a profile (R446). -/
def profPops (img p : List Byte) : List (List Byte) := (List.range (leAt p 0x82 1)).map fun i => slice img (leAt p 0x8C 4 + 64 * i) 64

/-- A profile's blob. -/
def profBlob (img p : List Byte) : List Byte := slice img (leAt p 0x90 4) (leAt p 0x94 4)

/-- A profile's VECTOR (Table 11.5). -/
def vectorOf (bs : List Byte) : List Nat := (List.range 16).map fun i => leAt bs (8 * i) 8

/-- The descriptor of a population entry. -/
def popDesc (blob e : List Byte) : List Byte := slice blob (leAt e 4 4) 128

/-- The snapshot of a population entry. -/
def popSnap (blob e : List Byte) : List Byte := slice blob (leAt e 0x10 4) (leAt e 0x14 4)

/-- A population's signature (R447). -/
def popSignature (engine : Nat) (desc lineage : List Byte) : List Byte :=
  (sha256 (leBytes 1 engine ++ desc.take 3 ++ leBytes 1 (leAt desc 3 1 % 64) ++ slice desc 4 8 ++ lineage)).take 16

/-- A population as an entry and its blob describe it. -/
def popOfEntry (blob e : List Byte) (part model : Nat) : Pop :=
  { desc := popDesc blob e, part := part, model := model, sig := slice e 0x20 16, fastQuota := leAt e 8 4, spillQuota := leAt e 0xC 4 }

/-! ### Checks -/

/-- Whether ranges (offset, length) overlap pairwise nowhere; empty ranges overlap nothing. -/
def disjoint : List (Nat × Nat) → Bool
  | [] => true
  | r :: t => (t.all fun x => r.2 = 0 || x.2 = 0 || decide (r.1 + r.2 ≤ x.1) || decide (x.1 + x.2 ≤ r.1)) && disjoint t

/-- A plan entry's ranges (Table 11.3). -/
def planOk (e : List Byte) : Bool :=
  let ev := leAt e 0x18 4
  decide (leAt e 0 1 ≤ 15) && (leAt e 1 1 = 1 || leAt e 1 1 = 2) && leAt e 2 2 = 0 && leAt e 0x1C 4 = 0 &&
  (leAt e 1 1 = 1 || (leAt e 8 4 = 0 && leAt e 0x14 4 = 0)) &&
  (ev = 0 || ev = 4096 || ev = 8192 || ev = 16384 || ev = 32768 || ev = 65536)

/-- A task entry's ranges (Table 11.4). -/
def taskOk (i blobLen : Nat) (e : List Byte) : Bool :=
  let plan := leAt e 2 1
  leAt e 0 2 = i && (plan = 0xFF || decide (plan ≤ 15)) && (decide (leAt e 3 1 ≤ 1) || (leAt e 3 1 = 2 && plan ≠ 0xFF)) &&
  decide (1 ≤ leAt e 4 2) && decide (leAt e 4 2 ≤ 1000) && decide (leAt e 6 1 ≤ 4) && decide (leAt e 0x18 1 ≤ 16) &&
  decide (1 ≤ leAt e 0x19 1) && decide (leAt e 0x19 1 ≤ 16) && leAt e 0x1A 2 = 0 && allZero (slice e 0x2C 20) &&
  decide (leAt e 0x1C 4 + leAt e 0x20 4 ≤ blobLen) && decide (leAt e 0x24 4 + leAt e 0x28 4 ≤ blobLen) &&
  decide (32 * (leAt e 0x18 1 + leAt e 0x19 1) ≤ leAt e 0x28 4)

/-- A population entry's ranges (R446). -/
def popEntryOk (blobLen : Nat) (e : List Byte) : Bool :=
  decide (leAt e 0 1 ≤ 1) && decide (leAt e 1 1 ≤ 1) && leAt e 2 2 = 0 && allZero (slice e 0x30 16) &&
  decide (leAt e 4 4 + 128 ≤ blobLen) && decide (leAt e 0x10 4 + leAt e 0x14 4 ≤ blobLen)

/-- Check 3 of R448: fixed fields, counts, offsets, lengths, layout (R443) and reserved bytes. -/
def formatOk (img : List Byte) (n : Nat) : Bool :=
  let np := mimProfiles img
  let nl := leAt img 0x15 1
  let profs := (List.range np).map (mimProfile img)
  let len := leAt img 0x10 4
  let head := leAt img 4 2 = 0x0100 && leAt img 6 2 = 64 && decide (1 ≤ mimId img) && decide (mimId img ≤ 0xFFFFFFFE) && len = n &&
    decide (64 + 144 ≤ n) && decide (1 ≤ np) && decide (np ≤ 4) && decide (1 ≤ nl) && decide (nl ≤ 16) && leAt img 0x16 2 = 0 &&
    allZero (slice img 0x28 20) && decide (leAt img 0x18 4 + 256 * np ≤ n) && decide (leAt img 0x1C 4 + 32 * nl ≤ n)
  let sig := slice img (n - 144) 4 = ascii ['M', 'S', 'I', 'G'] && allZero (slice img (n - 139) 11)
  let plans := mimPlans img
  let plansOk := plans.all planOk && decide ((plans.map fun e => leAt e 0 1).Nodup)
  let prof := fun (p : List Byte) =>
    decide (1 ≤ leAt p 0x80 2) && decide (leAt p 0x80 2 ≤ 512) && decide (leAt p 0x82 1 ≤ 128) && allZero (slice p 0x83 5) &&
    allZero (slice p 0x98 100) && leAt p 0x70 8 = 0 && leAt p 0x78 8 = 0 &&
    decide (leAt p 0x88 4 + 64 * leAt p 0x80 2 ≤ n) && decide (leAt p 0x8C 4 + 64 * leAt p 0x82 1 ≤ n) &&
    decide (leAt p 0x90 4 + leAt p 0x94 4 ≤ n) &&
    (((profTasks img p).zip (List.range (leAt p 0x80 2))).all fun ei => taskOk ei.2 (leAt p 0x94 4) ei.1) &&
    (profPops img p).all (popEntryOk (leAt p 0x94 4))
  let fixed := [(0, 64), (leAt img 0x18 4, 256 * np), (leAt img 0x1C 4, 32 * nl), (n - 144, 144)] ++
    profs.flatMap fun p => [(leAt p 0x88 4, 64 * leAt p 0x80 2), (leAt p 0x8C 4, 64 * leAt p 0x82 1)]
  head && sig && plansOk && profs.all prof && disjoint fixed &&
    profs.all fun p => fixed.all fun r => disjoint [r, (leAt p 0x90 4, leAt p 0x94 4)]

/-- Check 4: PROF_CRC of a profile. -/
def profCrcOk (img p : List Byte) : Bool :=
  leAt p 0xFC 4 = crc32 (p.take 0xFC ++ [0, 0, 0, 0] ++ (profTasks img p).flatten ++ (profPops img p).flatten ++ profBlob img p)

/-- Whether an FP16 pattern lies from 0 to 1 inclusive; -0 is 0. -/
def factorOk (x : Nat) : Bool := decide (x ≤ 0x3C00) || x = 0x8000

/-- A term's ranges (Table 9.6, R377, R383). -/
def termOk (delayLearn : Bool) (t : List Byte) : Bool :=
  let fs := [leAt t 0 1, leAt t 1 1, leAt t 2 1]
  let fl := leAt t 3 1
  fs.all (decide <| · ≤ 7) && decide (fl < 8) && leAt t 6 2 = 0 && (bit fl 0 || bit fl 1) &&
  (!delayLearn || (!bit fl 2 && !fs.contains 6))

/-- A population descriptor's ranges (R366, Table 9.2). -/
def descOk (d : List Byte) : Bool :=
  let f := fun off n => leAt d off n
  let kind := f 1 1
  let nt := f 0x4F 1
  decide (f 0 1 ≤ 63) && decide (kind ≤ 2) && decide (f 2 1 ≤ 2) && decide (1 ≤ f 8 4) && decide (f 8 4 ≤ 131072) &&
  decide (f 4 4 + f 8 4 ≤ 131072) && decide (1 ≤ f 0xC 2) && (if kind = 1 then f 0xE 1 = 0xFF else decide (f 0xE 1 ≤ 63)) &&
  (decide (f 0xF 1 ≤ 63) || f 0xF 1 = 0xFF) && fp32Lt (f 0x14 4) (f 0x10 4) &&
  [0x18, 0x1A, 0x1C, 0x1E, 0x20, 0x22].all (fun o => factorOk (f o 2)) && fp32Lt 0 (f 0x34 4) &&
  decide (1 ≤ f 0x3C 2) && decide (f 0x3C 2 ≤ 4096) && decide (1 ≤ f 0x3E 2) && decide (1 ≤ f 0x48 1) && decide (1 ≤ f 0x49 1) &&
  decide (1 ≤ f 0x4A 1) && decide (f 0x4A 1 ≤ 63) && decide (1 ≤ f 0x4B 1) && decide (f 0x4B 1 ≤ 63) && decide (f 0x4C 1 ≤ 63) &&
  decide (f 0x4D 1 ≤ 63) && decide (1 ≤ f 0x4E 1) && decide (f 0x4E 1 ≤ 127) && decide (nt ≤ 4) &&
  ((List.range nt).all fun k => termOk (bit (f 3 1) 3) (slice d (0x50 + 8 * k) 8)) &&
  allZero (slice d (0x50 + 8 * nt) (32 - 8 * nt)) &&
  (kind ≠ 2 || (fp32Lt 0 (f 0x70 4) && fp32Le (f 0x70 4) 0x3F800000)) && allZero (slice d 0x74 12)

/-- Check 7 for one population entry: descriptor, signature, snapshot, S. -/
def popOk (blob e : List Byte) : Bool :=
  let d := popDesc blob e
  let img := popSnap blob e
  let eng := leAt e 0 1
  let count := leAt img 0x28 4
  let spill := bit (leAt img 9 1) 0
  let o1 := 0x580 + count * 64
  let o2 := o1 + roundUp (count * 4) 64
  let mode := leAt d 3 1 / 64
  descOk d && slice e 0x20 16 = popSignature eng d (slice e 0x18 8) && snapWhole img &&
  sumN (rowIndex img o1 count) = leAt img 0x2C 4 &&
  (if spill then sumN (rowIndex img (o2 + 8 * leAt img 0x2C 4) count) = leAt img 0x30 4 else leAt img 0x30 4 = 0) &&
  count = leAt d 8 4 && leAt img 7 1 = leAt d 0 1 && leAt img 6 1 = eng &&
  (!modeKeeps mode || decide (slotBlocks (leAt d 8 4) (leAt e 8 4) ≤ 127))

/-- BOATHOUSE bytes of a population entry (R421). -/
def popBytes (blob e : List Byte) : Nat :=
  let d := popDesc blob e
  if modeKeeps (leAt d 3 1 / 64) then 2 * slotBlocks (leAt d 8 4) (leAt e 8 4) * 65536 else 0

/-- Check 6: the VECTOR's sums. -/
def vectorOk (img p : List Byte) : Bool :=
  let v := vectorOf p
  let wide := (profTasks img p).filter fun e => leAt e 2 1 = 0xFF
  let pops := profPops img p
  let blob := profBlob img p
  let g := fun i => v.getD i 0
  g 0 = sumN (wide.map fun e => leAt e 4 2) && g 1 = sumN (wide.map fun e => leAt e 8 4) && g 10 = sumN (wide.map fun e => leAt e 6 1) &&
  g 12 = sumN (wide.map fun e => leAt e 0xC 4) && g 6 = sumN (pops.map fun e => leAt (popDesc blob e) 8 4) &&
  g 7 = sumN (pops.map fun e => leAt e 8 4) && g 8 = sumN (pops.map fun e => leAt e 0xC 4) && g 9 = sumN (pops.map (popBytes blob))

/-- Check 5: the signature of an image loaded at run time (R602). -/
def State.modelSigned (s : State) (img : List Byte) : Bool :=
  let n := img.length
  let sb := slice img (n - 144) 144
  let key := leAt sb 4 1
  let x := slice sb 0x10 32
  let y := slice sb 0x30 32
  sb.take 4 = ascii ['M', 'S', 'I', 'G'] && bit (s.get Fld.SEC_MODEL_KEYS_LOADED 0) key && decide (key < 8) &&
  sha256 (x ++ y) = Tbl.get [] s.boot.modelKeys key &&
  ecdsaVerify (img.take (n - 144)) (beNat x) (beNat y) (beNat (slice sb 0x50 32)) (beNat (slice sb 0x70 32))

/-- The check code of a model image (R448, Table 11.6). -/
def State.modelCheck (s : State) (img : List Byte) (runtime : Bool) : Nat :=
  let profs := (List.range (mimProfiles img)).map (mimProfile img)
  let plans := (mimPlans img).map fun e => leAt e 0 1
  if img.take 4 ≠ ascii ['M', 'L', 'S', 'M'] then 1
  else if leAt img 0x3C 4 ≠ crc32 (img.take 0x3C) then 2
  else if !formatOk img img.length then 3
  else if !profs.all (profCrcOk img) then 4
  else if runtime ∧ !s.modelSigned img then 5
  else if !profs.all (vectorOk img) then 6
  else if !(profs.all fun p => (profPops img p).all (popOk (profBlob img p)) &&
      (profTasks img p).all fun e => leAt e 2 1 = 0xFF || plans.contains (leAt e 2 1)) then 7
  else 0

end Sys2Proof.Machine
end

