-- ==== Sys2Proof/Machine/XluCore.lean ====
section
/-!
DEFINITION. Translation as a function of memory: the TLBs (R198 to R201), the Cox's walk of the segment, page and range formats
(R188 to R195), stage 2 (R196, R197), and the merging rule (R199).
-/
namespace Sys2Proof.Machine

/-- A walk that ends in a cause of Table 5.6. -/
structure XlFault where
  cause : Nat
  stage2 : Bool
  pta : Nat
deriving DecidableEq, Repr

/-- A piece of a mapping: input start, length, output start, rights (R 1, W 2, X 4, C 8), page format. -/
structure Piece where
  va : Nat
  len : Nat
  pa : Nat
  rights : Nat
  page : Bool
  /-- Whether the leaf carried CONTIG and was installed unmerged (R199). -/
  refused : Bool := false
  merged : Bool := false
deriving DecidableEq, Repr

/-- The right an access needs (R, W or X). -/
def accessRight : Access → Nat
  | .read => 1
  | .write => 2
  | .exec => 4
  | .atomic => 2

/-- Whether `rights` grant an access. -/
def grants (rights : Nat) (k : Access) : Bool := Nat.land rights (accessRight k) ≠ 0

/-- The XLU of a Slide engine (R198): a Scull's own, or the system XLU 16. -/
def engineXlu (e : Nat) : Nat := if e < 64 then e / 4 else 16

/-- The unit an XLU belongs to (Table 14.1). -/
def xluUnit (x : Nat) : Nat := if x < 16 then x else 0x44

/-! ### TLBs -/

/-- Whether an entry covers an address of a context. -/
def TlbEntry.covers (e : TlbEntry) (ctx va : Nat) : Bool := e.ctx = ctx && decide (e.va ≤ va) && decide (va < e.va + e.len)

/-- A TLB hit with the right needed gives the physical address (R201). -/
def State.tlbHit (s : State) (x ctx va : Nat) (k : Access) : Option Nat :=
  ((s.tlbEntries x).find? fun e => e.covers ctx va && grants e.rights k).map fun e => e.pa + (va - e.va)

/-- Removes the TLB entries that satisfy `p` from every XLU (R216). -/
def State.dropTlb (s : State) (p : TlbEntry → Bool) : State :=
  { s with xlu := { s.xlu with
    l1 := (s.xlu.l1.map fun kv => (kv.1, kv.2.filter fun e => !p e)).filter fun kv => kv.2 ≠ [],
    l2 := (s.xlu.l2.map fun kv => (kv.1, kv.2.filter fun e => !p e)).filter fun kv => kv.2 ≠ [] } }

/-- Empties both levels of an XLU (R198). -/
def State.emptyTlb (s : State) (x : Nat) : State :=
  { s with xlu := { s.xlu with l1 := s.xlu.l1.filter fun kv => kv.1 ≠ x, l2 := s.xlu.l2.filter fun kv => kv.1 / 128 ≠ x } }

/-- An entry evicted from L1: a page entry moves to its L2 set, others are dropped (R198). The victim of a full set is the
replacement's (a free value: pseudo-LRU is not laid down, log entry 6). -/
def State.toL2 (s : State) (x : Nat) (e : TlbEntry) : State :=
  if e.page then
    let k := x * 128 + e.va / max e.len 1 % 128
    let l := Tbl.get [] s.xlu.l2 k
    if l.length < 8 then { s with xlu := { s.xlu with l2 := Tbl.set [] s.xlu.l2 k (e :: l) } }
    else
      let (v, s) := s.takeFree
      { s with xlu := { s.xlu with l2 := Tbl.set [] s.xlu.l2 k (e :: l.eraseIdx (v % 8)) } }
  else s

/-- Fills an XLU with an entry; entries of the context it overlaps are replaced (R198). -/
def State.fillTlb (s : State) (x : Nat) (e : TlbEntry) : State :=
  let ovl := fun (o : TlbEntry) => o.ctx = e.ctx && decide (o.va < e.va + e.len) && decide (e.va < o.va + o.len)
  let s := { s with xlu := { s.xlu with
    l1 := Tbl.set [] s.xlu.l1 x ((Tbl.get [] s.xlu.l1 x).filter fun o => !ovl o),
    l2 := (s.xlu.l2.map fun (kv : Nat × List TlbEntry) => if kv.1 / 128 = x then (kv.1, kv.2.filter fun o => !ovl o) else kv).filter
      fun kv => kv.2 ≠ [] } }
  let l := Tbl.get [] s.xlu.l1 x
  if l.length < 64 then { s with xlu := { s.xlu with l1 := Tbl.set [] s.xlu.l1 x (e :: l) } }
  else
    let (v, s) := s.takeFree
    let s := match l[v % 64]? with
      | some o => s.toL2 x o
      | none => s
    { s with xlu := { s.xlu with l1 := Tbl.set [] s.xlu.l1 x (e :: l.eraseIdx (v % 64)) } }

/-! ### Walk reads -/

/-- A read of a structure by the Cox for partition `p` (R187, R223): the value, or the status of the failed read. -/
def State.walkRead (s : State) (p a n : Nat) : Except Nat Nat :=
  if !(s.region a).cacheable then .error stDENIED
  else if s.unitDown (regionUnit (s.region a)) then .error stDOWN
  else if !s.linedUp p false a then .error stDENIED
  else if s.coherentPoison a then .error stPOISONED
  else .ok (s.coherentNat a n)

/-- A walk read at `a` of a stage-2 structure, which partition 0 owns (R196), for partition address `va`: PTA keeps both the address
and the read's status (Table 5.7). -/
def State.s2Read (s : State) (va a n : Nat) : Except XlFault Nat :=
  match s.walkRead 0 a n with
  | .ok v => .ok v
  | .error st => .error ⟨6, true, st * 2 ^ 56 + va % 2 ^ 48⟩

/-! ### The formats -/

/-- The check of a page-table entry at a level (R193): `none` when it is well formed; causes of stage 1. -/
def pteFault (level e : Nat) : Option Nat :=
  let leaf := bit e 1
  if !bit e 0 then some 1
  else if bits e 63 48 ≠ 0 ∨ bits e 11 7 ≠ 0 then some 5
  else if leaf ∧ level = 0 then some 5
  else if !leaf ∧ level = 3 then some 5
  else if leaf ∧ level = 2 ∧ bits e 20 12 ≠ 0 then some 5
  else if leaf ∧ level = 1 ∧ bits e 29 12 ≠ 0 then some 5
  else if !leaf ∧ bits e 6 2 ≠ 0 then some 5
  else none

/-- Rights and C of a leaf (Table 5.3) in a piece's layout. -/
def pteRights (e : Nat) : Nat := bits e 5 2

/-- The size of the page a leaf at `level` maps (R191). -/
def pageSize (level : Nat) : Nat := 2 ^ (39 - 9 * level)

/-- The index of an address at a level (R191). -/
def pageIdx (level va : Nat) : Nat := va / 2 ^ (39 - 9 * level) % 512

/-- Output base of a leaf or the next table. -/
def pteAddr (e : Nat) : Nat := bits e 47 12 * 4096

/-- A leaf found by a page walk. -/
structure Leaf where
  level : Nat
  table : Nat
  entry : Nat
deriving DecidableEq, Repr

/-- Walks a page structure (R191 to R193) with `rd` reading an entry and `mk` making a fault from a cause. -/
def pageWalk (rd : Nat → Except XlFault Nat) (mk : Nat → XlFault) (va : Nat) : Nat → Nat → Nat → Except XlFault Leaf
  | 0, _, _ => .error (mk 5)
  | fuel + 1, level, table =>
    match rd (table + 8 * pageIdx level va) with
    | .error f => .error f
    | .ok e =>
      match pteFault level e with
      | some c => .error (mk c)
      | none => if bit e 1 then .ok ⟨level, table, e⟩ else pageWalk rd mk va fuel (level + 1) (pteAddr e)

/-- A range entry: start, length, output, flags (Table 5.4). -/
structure RangeEnt where
  start : Nat
  len : Nat
  out : Nat
  flags : Nat
deriving DecidableEq, Repr

/-- Reads `n` range entries with `rd`. -/
def readRanges (rd : Nat → Except XlFault Nat) (base : Nat) : Nat → Except XlFault (List RangeEnt)
  | 0 => .ok []
  | n + 1 =>
    match rd base, rd (base + 8), rd (base + 16), rd (base + 24) with
    | .ok a, .ok b, .ok c, .ok f =>
      match readRanges rd (base + 32) n with
      | .ok l => .ok (⟨a, b, c, f % 256⟩ :: l)
      | .error e => .error e
    | .error e, _, _, _ => .error e
    | _, .error e, _, _ => .error e
    | _, _, .error e, _ => .error e
    | _, _, _, .error e => .error e

/-- Alignment and LENGTH range of one range entry (R194). -/
def RangeEnt.ok (r : RangeEnt) : Bool :=
  r.start % 65536 = 0 && decide (r.start < 2 ^ 48) && r.out % 65536 = 0 && decide (r.out < 2 ^ 48) && r.len % 65536 = 0 &&
  decide (65536 ≤ r.len) && decide (r.len ≤ 2 ^ 40)

/-- Ordering and overlap of the valid entries (R194, R195). -/
def rangesOk : List RangeEnt → Bool
  | [] => true
  | [a] => a.ok
  | a :: b :: t => a.ok && decide (a.start + a.len ≤ b.start) && rangesOk (b :: t)

/-- The mapping a range structure gives an address (R194, R195): `miss` is the cause where no valid entry holds it. -/
def rangeWalk (l : List RangeEnt) (mk : Nat → XlFault) (miss va : Nat) : Except XlFault Piece :=
  let v := l.filter fun r => bit r.flags 0
  if !rangesOk v then .error (mk 5)
  else match v.find? fun r => decide (r.start ≤ va) && decide (va < r.start + r.len) with
    | some r => .ok ⟨r.start, r.len, r.out, bits r.flags 4 1, false, false, false⟩
    | none => .error (mk miss)

/-! ### Stage 2 -/

/-- Whether a partition uses stage 2 (R196). -/
def State.s2On (s : State) (p : Nat) : Bool := s.flag Fld.XLU_S2_CFG_ENABLE p

/-- The stage-2 mapping of a partition address (R196, R197). -/
def State.s2Walk (s : State) (p a : Nat) : Except XlFault Piece :=
  let mk := fun c => XlFault.mk (if c = 1 then 3 else c) true (a % 2 ^ 48)
  let base := s.get Fld.XLU_S2_BASE_BASE p
  if s.get Fld.XLU_S2_CFG_FORMAT p = 2 then
    match pageWalk (fun x => s.s2Read a x 8) mk a 4 0 base with
    | .error f => .error f
    | .ok l =>
      let z := pageSize l.level
      .ok ⟨a / z * z, z, pteAddr l.entry, pteRights l.entry, true, false, false⟩
  else match readRanges (fun x => s.s2Read a x 8) base (s.get Fld.XLU_S2_CFG_COUNT p) with
    | .error f => .error f
    | .ok l => rangeWalk l mk 1 a

/-- A stage-1 walk read (R187, R197): translated by stage 2 where the partition uses it. -/
def State.s1Read (s : State) (p a n : Nat) : Except XlFault Nat :=
  let fin := fun (pa : Nat) => match s.walkRead p pa n with
    | .ok v => .ok v
    | .error st => .error (XlFault.mk 6 false (st * 2 ^ 56))
  if s.s2On p then
    match s.s2Walk p a with
    | .error f => .error f
    | .ok q => if bit q.rights 0 then fin (q.pa + (a - q.va)) else .error ⟨4, true, a % 2 ^ 48⟩
  else fin a

/-- Whether stage 2 maps `a` to `a + delta` up to `stop`, with equal rights (R199); a read of it that fails ends the walk (R223). -/
def State.s2Run (s : State) (p : Nat) (delta : Int) (rights stop : Nat) : Nat → Nat → Except XlFault Bool
  | 0, _ => .ok false
  | fuel + 1, a =>
    if stop ≤ a then .ok true
    else match s.s2Walk p a with
      | .error f => if f.cause = 6 then .error f else .ok false
      | .ok q =>
        if (q.pa : Int) - q.va = delta ∧ q.rights = rights then s.s2Run p delta rights stop fuel (q.va + q.len) else .ok false

/-! ### Stage 1 -/

/-- Whether every granule of Table 5.1 in an output range grants partition `p` the rights of FLAGS (R190). -/
def State.rangeGranted (s : State) (p rights stop : Nat) : Nat → Nat → Bool
  | 0, _ => false
  | fuel + 1, a =>
    if stop ≤ a then true
    else
      let r := s.region a
      let step := match r with
        | .pocket _ => 0x10000
        | .hbm _ => 0x4000000
        | .tile _ => 0x100000
        | .boathouse _ => 0x10000
        | .host => 0x80000000000
        | _ => 0
      if step = 0 then false
      else
        let okR := Nat.land rights 5 = 0 || s.linedUp p false a
        let okW := Nat.land rights 2 = 0 || s.linedUp p true a
        okR && okW && s.rangeGranted p rights stop fuel (a / step * step + step)

/-- The valid segments of a structure (R188), as entries with start, length, output and flags. -/
def segments (l : List RangeEnt) : List RangeEnt :=
  (l.filter fun r => bit r.flags 0).map fun r =>
    let b := bits r.start 47 12 * 4096
    let lim := bits r.len 47 12 * 4096 + 0xFFF
    ⟨b, lim + 1 - b, (b + r.out) % 2 ^ 48, r.flags⟩

/-- The check of a segment structure (R190). -/
def State.segmentsOk (s : State) (p : Nat) (l : List RangeEnt) : Bool :=
  let disjoint := l.all fun a => (l.filter fun b => decide (a.start < b.start + b.len) && decide (b.start < a.start + a.len)).length ≤ 1
  disjoint && l.all fun a => s.rangeGranted p (bits a.flags 3 1) (a.out + a.len) 4000 a.out

/-- Reads the 16 entries of an aligned group; a read that fails ends the walk (R199, R223). -/
def readGroup (rd : Nat → Except XlFault Nat) (base : Nat) : Nat → Except XlFault (List Nat)
  | 0 => .ok []
  | n + 1 => match readGroup rd base n, rd (base + 8 * n) with
    | .ok l, .ok e => .ok (l ++ [e])
    | .error f, _ => .error f
    | _, .error f => .error f

/-- Groups the 16 leaves around a CONTIG leaf into one piece where R199's conditions hold. -/
def State.mergeLeaf (s : State) (p : Nat) (rd : Nat → Except XlFault Nat) (va : Nat) (l : Leaf) : Except XlFault (Option Piece) :=
  let z := pageSize l.level
  match readGroup rd (l.table + 8 * (pageIdx l.level va / 16 * 16)) 16 with
  | .error f => .error f
  | .ok es =>
    let o := pteAddr (es.headD 0)
    let ok := es.all (fun e => (pteFault l.level e).isNone && bit e 1 && bit e 6 && bits e 5 2 = bits l.entry 5 2) &&
      ((List.range 16).all fun i => pteAddr (es.getD i 0) = o + i * z) && o % (16 * z) = 0
    let s2ok : Except XlFault Bool :=
      if !s.s2On p then .ok true
      else match s.s2Walk p o with
        | .ok q => s.s2Run p ((q.pa : Int) - q.va) q.rights (o + 16 * z) 9000 o
        | .error f => if f.cause = 6 then .error f else .ok false
    if !ok then .ok none
    else match s2ok with
      | .error f => .error f
      | .ok b => .ok (if b then some ⟨va / (16 * z) * (16 * z), 16 * z, o, bits l.entry 5 2, true, false, true⟩ else none)

/-- The stage-1 mapping of a context address, and whether it finds the context's structure bad (R190, R195). -/
def State.s1Walk (s : State) (ctx va : Nat) : Except XlFault Piece :=
  let p := s.get Fld.XLU_CTX_CFG_PART ctx
  let mk := fun c => XlFault.mk c false 0
  let base := s.get Fld.XLU_CTX_S1_BASE_BASE ctx
  let rd := fun a => s.s1Read p a 8
  let n := s.get Fld.XLU_CTX_CFG_COUNT ctx
  if NatSet.has s.xlu.badCtx ctx then .error (mk 5)
  else match s.get Fld.XLU_CTX_CFG_FORMAT ctx with
    | 1 => match readRanges rd base (min n 8) with
      | .error f => .error f
      | .ok l =>
        let v := segments l
        if !NatSet.has s.xlu.segOk ctx ∧ !s.segmentsOk p v then .error (mk 5)
        else match v.find? fun r => decide (r.start ≤ va) && decide (va < r.start + r.len) with
          | some r => .ok ⟨r.start, r.len, r.out, bits r.flags 4 1, false, false, false⟩
          | none => .error (mk 1)
    | 2 => match pageWalk rd mk va 4 0 base with
      | .error f => .error f
      | .ok l =>
        let z := pageSize l.level
        let one : Piece := ⟨va / z * z, z, pteAddr l.entry, pteRights l.entry, true, false, false⟩
        if bit l.entry 6 ∧ 2 ≤ l.level then
          (match s.mergeLeaf p rd va l with
            | .ok (some m) => .ok m
            | .ok none => .ok { one with refused := true }
            | .error f => .error f)
        else .ok one
    | 3 => match readRanges rd base n with
      | .error f => .error f
      | .ok l => rangeWalk l mk 1 va
    | _ => .error (mk 1)

/-- Whether the segment structure of a context reads well and passes its check (R190). -/
def State.segPasses (s : State) (ctx : Nat) : Bool :=
  let p := s.get Fld.XLU_CTX_CFG_PART ctx
  s.get Fld.XLU_CTX_CFG_FORMAT ctx = 1 && !NatSet.has s.xlu.badCtx ctx &&
  (match readRanges (fun a => s.s1Read p a 8) (s.get Fld.XLU_CTX_S1_BASE_BASE ctx) (min (s.get Fld.XLU_CTX_CFG_COUNT ctx) 8) with
    | .ok l => s.segmentsOk p (segments l)
    | .error _ => false)

/-- Whether a stage-1 failure makes the whole structure bad until the context is invalidated (R190, R195). -/
def State.badStructure (s : State) (ctx : Nat) (f : XlFault) : Bool :=
  f.cause = 5 && !f.stage2 && s.get Fld.XLU_CTX_CFG_FORMAT ctx % 2 = 1

/-- The whole translation of an access (R197, R200): both stages' mapping cut to the smaller extent, and the right checked. -/
def State.walk (s : State) (ctx va : Nat) (k : Access) : Except XlFault Piece :=
  let p := s.get Fld.XLU_CTX_CFG_PART ctx
  match s.s1Walk ctx va with
  | .error f => .error f
  | .ok a =>
    if !grants a.rights k then .error ⟨2, false, 0⟩
    else if s.s2On p then
      let q := (a.pa + (va - a.va)) % 2 ^ 48
      match s.s2Walk p q with
      | .error f => .error f
      | .ok b =>
        if !grants b.rights k then .error ⟨4, true, q⟩
        else
          let rights := Nat.land a.rights b.rights
          if a.merged then .ok { a with pa := b.pa + (q - b.va) - (q - a.pa), rights := rights }
          else
            let lo := max a.va (va - min va (q - b.va))
            let hi := min (a.va + a.len) (va + (b.va + b.len - q))
            .ok { a with va := lo, len := hi - lo, pa := b.pa + (q - b.va) - (va - lo), rights := rights }
    else .ok a

/-- The TLB entry of a piece. -/
def Piece.entry (c : Piece) (ctx : Nat) : TlbEntry := ⟨ctx, c.va, c.len, c.pa, c.rights, c.page⟩

/-- Counts a walk's merge or refusal (R199). -/
def State.countMerge (s : State) (c : Piece) : State :=
  if c.merged then s.bump Fld.XLU_MERGE_CNT_CNT 0 1
  else if c.refused then s.bump Fld.XLU_MERGE_REFUSED_CNT_CNT 0 1 else s

end Sys2Proof.Machine
end

