-- ==== Sys2Proof/Machine/SlideOps.lean ====
section
/-!
DEFINITION. Slide engines: the descriptor (Table 6.7, R255, R256, R259), bursts (R257, R258), credited rings (R260 to R264),
publication, and the ends of a transfer (R265 to R269).
-/
namespace Sys2Proof.Machine

/-- A Slide engine. -/
def State.slide (s : State) (e : Nat) : Slide := Tbl.get {} s.sld e

/-- The unit that issues an engine's requests. -/
def engineUnit (e : Nat) : Nat := xluUnit (engineXlu e)

/-- The tag of an engine's requests (R178). -/
def State.engineTag (s : State) (e : Nat) : Tag :=
  let x := s.slide e
  ⟨engineUnit e, x.ctx, x.part, s.epoch (engineUnit e), decide (e = 64) || decide (e = 65)⟩

/-- The signed value of a 40-bit stride. -/
def stride (x : Nat) : Int := toInt 40 x

/-- The address of stream byte `i` on one side of a transfer before wrapping, as an integer (R256). -/
def Slide.rawAddr (x : Slide) (base : Nat) (str : List Nat) (i : Nat) : Int :=
  let idx := elemIdx x.counts (i / max x.elem 1)
  (base : Int) + (List.zipWith (fun (k : Nat) s => (k : Int) * stride s) idx str).foldl (· + ·) 0 + (i % max x.elem 1 : Nat)

/-- Whether side `dst` of the transfer is a ring. -/
def Slide.isRing (x : Slide) (dst : Bool) : Bool := bit x.flags (if dst then 1 else 0)

/-- The context address of stream byte `i` on a side; `none` where it wraps past 2^48 (R269). -/
def Slide.addr (x : Slide) (dst : Bool) (i : Nat) : Option Nat :=
  if x.isRing dst then some ((x.ringBase + ((if dst then x.ringPos else x.srcPos) + i) % max x.ringSize 1) % 2 ^ 48)
  else
    let a := if dst then x.rawAddr x.dst x.dstStr i else x.rawAddr x.src x.srcStr i
    if a < 0 ∨ 2 ^ 48 ≤ a then none else some a.toNat

/-- The length of the burst that begins at stream byte `i` (R257): consecutive destinations within one aligned line. -/
def Slide.burstLen (x : Slide) : Nat → Nat → Nat → Nat
  | 0, _, n => n
  | fuel + 1, i, n =>
    if x.total ≤ i + n then n
    else if n = 0 then x.burstLen fuel i 1
    else match x.addr true i, x.addr true (i + n) with
      | some a, some b => if b = a + n ∧ b / 64 = a / 64 then x.burstLen fuel i (n + 1) else n
      | _, _ => n

/-! ### Ends of a transfer -/

/-- The answered bursts of line `l` leave an engine: the burst that writes the line, or those that still read it. -/
def Slide.answered (x : Slide) (l : Nat) : Slide :=
  let whole := fun (b : Burst) => (List.range b.len).all fun j => (Tbl.get none b.got j).isSome
  let hit := fun (b : Burst) => if whole b then decide (b.dst / 64 = l) else b.srcs.any fun a => a / 64 = l
  { x with bursts := x.bursts.filter fun b => b.done || !hit b }

/-- Ends a transfer with ERROR and a status, and its task's attempt (R247, R268). -/
def State.slideError (s : State) (e status : Nat) : State :=
  let s := s.endSlide e status
  match (s.slide e).byTask with
  | some k => s.attemptEnd k status
  | none => s

/-- A request of a burst at line `l` was answered with an error, or never (R130, R268). -/
def State.burstError (s : State) (e l status : Nat) : State :=
  let x := s.slide e
  let s := s.putSlide e (x.answered l)
  if x.st = 1 ∨ x.st = 2 ∨ x.st = 3 then s.slideError e status else s

/-- The translation of a running engine's next burst faults: no further burst is issued, and the cursor and address are saved (R265). -/
def State.slideFault (s : State) (e va : Nat) : State :=
  let x := s.slide e
  if x.st = 1 ∨ x.st = 2 then (s.putSlide e { x with st := 3, status := stXLATE, faultAddr := va }).bump Fld.SLD_FAULT_CNT_CNT e 1 else s

/-- Publishes the completed prefix (R262 to R264); the transfer is DONE when all of it is. An engine of a halted Scull publishes nothing
(R615); what it completed before an ERROR it publishes when it runs on. -/
def State.publish (s : State) (e : Nat) : State :=
  let x := s.slide e
  let pre := x.bursts.takeWhile fun b => b.done
  if pre = [] ∨ (e < 64 ∧ (Tbl.get {} s.scl (e / 4)).halted) then s
  else
    let done := x.completed
    let fin := decide (done = x.total) && x.st ≠ 5
    let x' := { x with bursts := x.bursts.drop pre.length, done := done, st := if fin then 4 else x.st,
                       status := if fin then stOK else x.status, byTask := if fin then none else x.byTask }
    let s := s.putSlide e x'
    let s := if x.isRing true then s.putPub x.ring (x.ringPos + done) else s
    let s := if x.isRing false then s.putCon x.ring (x.srcPos + done) else s
    if fin then
      let s := if bit x.flags 2 then s.emit (.note 0x51D e) else s
      (match x.byTask with
        | some k => s.unblock k
        | none => s)
    else s

/-! ### Start -/

/-- Where an address of an engine's context translates to now, by TLB or walk; SYS_0 and SYS_1 use physical addresses (R179). -/
def State.resolve (s : State) (ctx va : Nat) (k : Access) : Option Nat :=
  match s.walk ctx va k with
  | .ok c => some (c.pa + (va - c.va))
  | .error _ => none

/-- Whether engine `e` is one of the Cox's own, which use physical addresses (R179). -/
def physEngine (e : Nat) : Bool := e = 64 || e = 65

/-- The physical address of engine `e`'s own access to `va`: to its descriptor or a ring record. -/
def State.engineAt (s : State) (e ctx va : Nat) (k : Access) : Option Nat := if physEngine e then some va else s.resolve ctx va k

/-- Whether an engine may read or write memory of this package at `a`; SYS passes every lining check (R182). -/
def State.mayUse (s : State) (e part : Nat) (write : Bool) (a : Nat) : Bool :=
  if physEngine e then (match s.region a with
    | .remote _ => false
    | .regs _ => false
    | .unlisted => false
    | _ => true) else s.ownMem part write a

/-- Parses a descriptor's issuer bytes, whose two lines lie at `pa` and `pb` (Table 6.7). -/
def State.readDesc (s : State) (pa pb : Nat) (x : Slide) : Slide :=
  let rd := fun (off n : Nat) => s.coherentNat (if off < 64 then pa + off else pb + (off - 64)) n
  { x with
    desc := pa
    desc2 := pb
    src := rd 0 6
    dst := rd 8 6
    counts := (List.range 4).map fun d => rd (0x10 + 2 * d) 2
    srcStr := (List.range 4).map fun d => rd (0x18 + 5 * d) 5
    dstStr := (List.range 4).map fun d => rd (0x2C + 5 * d) 5
    elem := rd 0x40 1
    flags := rd 0x41 1
    ring := rd 0x48 6
    issued := 0
    done := 0
    bursts := []
    faultAddr := 0 }

/-- Whether the descriptor at `pa` and `pb` breaks R259, its ring record at `ring` included. -/
def State.descBad (s : State) (e pa pb : Nat) (x : Slide) : Bool :=
  x.counts.any (· = 0) || x.elem = 0 || decide (64 < x.elem) || decide (8 ≤ x.flags) || s.coherentNat (pb + 2) 6 ≠ 0 ||
  s.coherentNat (pa + 6) 2 ≠ 0 || s.coherentNat (pa + 14) 2 ≠ 0 || s.coherentNat (pb + 0xE) 2 ≠ 0 ||
  (x.isRing false && s.ringConsumer x.ring ≠ e) || (x.isRing true && s.ringProducer x.ring ≠ e)

/-- The physical addresses of the descriptor's lines that engine `e` may read: each line has its own translation (R255). -/
def State.descLines (s : State) (e ctx part : Nat) : Option (Nat × Nat) :=
  let a := s.get Fld.SLD_DESC_DESC e * 64
  match s.engineAt e ctx a .read, s.engineAt e ctx (a + 64) .read with
  | some p, some q => if s.mayUse e part false p && s.mayUse e part false q then some (p, q) else none
  | _, _ => none

/-- Starts engine `e` on the descriptor SLD_DESC names, in context `ctx` (R259): a refused descriptor moves nothing. A descriptor
or ring record that does not translate, or that the partition may not use, refuses the start (log entry 20). -/
def State.slideStart (s : State) (e ctx part : Nat) (byTask : Option Nat) : State :=
  let base : Slide := { s.slide e with ctx := ctx, part := part, byTask := byTask, status := stOK, done := 0, issued := 0, counts := [], flags := 0,
                                       desc := 0, desc2 := 0, faultAddr := 0 }
  let refuse := fun (s : State) (x : Slide) => s.putSlide e { x with st := 5, status := stDENIED, byTask := none }
  match s.descLines e ctx part with
  | none => refuse s base
  | some (pa, pb) =>
    let x := s.readDesc pa pb base
    let x := if s.mayUse e part true pb ∧ (physEngine e ∨ (s.resolve ctx (s.get Fld.SLD_DESC_DESC e * 64 + 64) .write).isSome) then x
      else { x with desc2 := 0 }
    let rg := x.isRing false || x.isRing true
    match (if rg then s.engineAt e ctx x.ring .write else some 0) with
    | none => refuse s x
    | some r =>
      let x := if rg then { x with ring := r } else x
      if s.descBad e pa pb x ∨ (rg ∧ !s.mayUse e part true r) then refuse s x
      else
        let x := if rg then
            { x with ringBase := s.ringBaseOf r, ringSize := s.ringSizeOf r, ringPos := s.ringPub r, srcPos := s.ringCon r }
          else x
        s.putSlide e { x with st := 1 }

/-- The partition an engine serves: that of the tasks its Scull holds (R455 rule 1), or the one a system engine was granted to (R61). -/
def State.engineOwner (s : State) (e : Nat) : Option Nat :=
  if e < 64 then s.tasks.findSome? fun kv => if kv.1 / 65536 = e / 4 then kv.2.map Task.part else none else (s.slide e).owner

/-- Whether a register source may command an engine (R274): its partition owns the engine. -/
def State.slideAllowed (s : State) (e part : Nat) : Bool := !physEngine e && s.engineOwner e = some part

/-! ### Issue -/

/-- Whether a ring has the credit for `len` more bytes at stream position `issued` (R262, R263). -/
def State.credit (s : State) (x : Slide) (len : Nat) : Bool :=
  let pos := x.issued + len
  (!x.isRing true || decide (x.ringPos + pos ≤ s.ringCon x.ring + x.ringSize)) && (!x.isRing false || decide (x.srcPos + pos ≤ s.ringPub x.ring))

/-- Notes a miss of an engine at an XLU, unless one for the page is outstanding (R202, R203). -/
def State.noteMiss (s : State) (xlu ctx va : Nat) (k : Access) (w : Work) (tid : Nat) : State :=
  let mine := s.xlu.misses.filter fun (m : Miss) => m.xlu = xlu && !m.again
  if 8 ≤ mine.length ∨ s.xlu.misses.any fun (m : Miss) => m.ctx = ctx && m.work = w && m.va / 4096 = va / 4096 then s
  else
    let m : Miss := { xlu := xlu, ctx := ctx, va := va, kind := k, work := w, at_ := s.now, tid := tid }
    ({ s with xlu := { s.xlu with misses := s.xlu.misses ++ [m] } }).raise Fld.XLU_MISS_INFLIGHT_MAX_MAX 0
      (s.xlu.misses.length + 1) |>.emit (.missRequest xlu ctx va)

/-- The translation an engine's XLU holds of an address; SYS_0 and SYS_1 use physical addresses (R179). -/
def State.engineHit (s : State) (e ctx a : Nat) (k : Access) : Option Nat := if physEngine e then some a else s.tlbHit (engineXlu e) ctx a k

/-- The first address of a list that misses. -/
def State.firstMiss (s : State) (e ctx : Nat) (k : Access) : List Nat → Option Nat
  | [] => none
  | a :: t => if (s.engineHit e ctx a k).isSome then s.firstMiss e ctx k t else some a

/-- Issues the next burst of engine `e` (R257, R258, R262, R263): translated in stream order, at most 8 in flight. -/
def State.issueBurst (s : State) (e : Nat) : State :=
  let x := s.slide e
  let xl := engineXlu e
  if x.st ≠ 1 ∨ x.total ≤ x.issued ∨ 8 ≤ x.bursts.length then s
  else
    let n := x.burstLen 64 x.issued 0
    let srcs := (List.range n).map fun j => x.addr false (x.issued + j)
    if !s.credit x n then s.putSlide e { x with st := 2 }
    else match x.addr true x.issued, srcs.all Option.isSome with
      | some d, true =>
        let va := srcs.map fun o => o.getD 0
        let w := Work.slide (Fin.ofNat 72 e)
        (match s.firstMiss e x.ctx .read va, s.engineHit e x.ctx d .write with
          | some m, _ => s.noteMiss xl x.ctx m .read w 0
          | none, none => s.noteMiss xl x.ctx d .write w 0
          | none, some dp =>
            let pa := va.map fun a => (s.engineHit e x.ctx a .read).getD 0
            let lines := (pa.map fun a => a / 64 * 64).dedup
            let b : Burst := { off := x.issued, len := n, dst := dp, srcs := pa, got := [], sent := true, done := false }
            let s := s.putSlide e { x with bursts := x.bursts ++ [b], issued := x.issued + n }
            lines.foldl (fun s l => s.emit (.readOnce w (s.engineTag e) l)) s)
      | _, _ => s.slideError e stDENIED

/-- The mask and bytes of a burst's WriteLine. -/
def Burst.line (b : Burst) : Nat × List Byte × Nat :=
  let o := b.dst % 64
  let mask := (2 ^ b.len - 1) * 2 ^ o
  let v := (List.range b.len).map fun j => (Tbl.get none b.got j).getD (0, false)
  let bytes := List.replicate o 0 ++ v.map (·.1)
  let poison := (List.range 8).foldl (fun p w =>
    p + (if (List.range b.len).any fun j => (o + j) / 8 = w && (v.getD j (0, false)).2 then 2 ^ w else 0)) 0
  (mask, bytes, poison)

/-- Data of source line `a` arrives: bursts that have all their bytes become WriteLines (R257, Crossing 7 of chapter 6). -/
def State.slideData (s : State) (e a : Nat) (bytes : List Byte) (poison : Nat) : State :=
  let x := s.slide e
  let fill := fun (b : Burst) =>
    { b with got := (List.range b.len).foldl (fun g j =>
        let p := b.srcs.getD j 0
        if p / 64 = a / 64 ∧ Tbl.get none g j = none then
          Tbl.set none g j (some (bytes.getD (p % 64) 0, bit poison (p % 64 / 8))) else g) b.got }
  let whole := fun (b : Burst) => (List.range b.len).all fun j => (Tbl.get none b.got j).isSome
  let before := x.bursts
  let after := before.map fill
  let s := ({ s with sld := Tbl.set {} s.sld e { x with bursts := after } })
  (before.zip after).foldl (fun s p =>
    if !whole p.1 ∧ whole p.2 then
      let l := p.2.line
      s.emit (.writeLine (.slide (Fin.ofNat 72 e)) (s.engineTag e) (p.2.dst / 64 * 64) l.1 l.2.1 l.2.2)
    else s) s

/-- A burst's WriteLine is acknowledged, or a request of a burst is answered with an error (R258, R262, R268). -/
def State.slideAck (s : State) (e a status : Nat) : State :=
  let x := s.slide e
  if x.st = 5 ∨ status ≠ stOK then s.burstError e (a / 64) status
  else match x.bursts.findIdx? fun b => b.dst / 64 = a / 64 && !b.done with
    | none => s
    | some i =>
      let s := (s.putSlide e { x with bursts := x.bursts.modify i fun b => { b with done := true } }).bump
        Fld.SLD_BURST_CNT_CNT e 1
      s.publish e

end Sys2Proof.Machine
end

