-- ==== Sys2Proof/Machine/XluOps.lean ====
section
/-!
DEFINITION. Misses, faults and their queues (R202 to R215, R223 to R225), and the Invalidate commands (R216 to R220).
-/
namespace Sys2Proof.Machine

/-- Ends the task or transfer behind a stalled request (R247, R268). -/
def State.endWork (s : State) (m : Miss) (status : Nat) : State :=
  match m.work with
  | .task n => s.attemptEnd (taskKey n.val m.tid) status
  | .slide e => s.slideError e.val status
  | w => s.emit (.stalledEnd w m.va status)

/-- Lets the engine behind a filled request go on (R210, R266). -/
def State.resumeWork (s : State) (m : Miss) : State :=
  match m.work with
  | .task n => s.resumeTask (taskKey n.val m.tid)
  | .slide e =>
    let x := s.slide e.val
    if x.st = 3 then
      let s := s.putSlide e.val { x with st := 1, status := stOK, faultAddr := 0 }
      match x.byTask with
      | some k => s.resumeTask k
      | none => s
    else s
  | _ => s

/-- Stops the engine behind a faulted request (R209, R265). -/
def State.stopWork (s : State) (m : Miss) : State :=
  match m.work with
  | .task n =>
    let k := taskKey n.val m.tid
    (match s.task k with
      | some t => if t.st = .running then s.switchOut k else s
      | none => s)
  | .slide e => s.slideFault e.val m.va
  | _ => s

/-- PENDING follows TAIL and HEAD (Table 5.10). -/
def State.showPending (s : State) (q : Nat) : State :=
  s.put Fld.XLU_FQ_STATUS_PENDING q (b2n (s.get Fld.XLU_FQ_TAIL_TAIL q ≠ s.get Fld.XLU_FQ_HEAD_HEAD q))

/-- The 32 bytes of a fault entry (Table 5.7). -/
def State.faultBytes (s : State) (id : Nat) (f : XlFault) (m : Miss) (waiters : Nat) : List Byte :=
  let fl := b2n f.stage2 + (if m.kind = .write then 2 else 0) + (if m.kind = .exec then 4 else 0) +
    (if m.kind = .atomic then 8 else 0) + (if m.held then 16 else 0)
  leBytes 2 id ++ leBytes 1 f.cause ++ leBytes 1 fl ++ leBytes 1 m.ctx ++ leBytes 1 (s.ctxPart m.ctx) ++
  leBytes 1 (xluUnit m.xlu) ++ leBytes 1 waiters ++ leBytes 8 m.va ++ leBytes 8 f.pta ++ leBytes 8 s.dev

/-- Counts the fault of a transfer that the Cox ends at once (Table 6.11). -/
def State.faultSeen (s : State) (m : Miss) : State :=
  match m.work with
  | .slide e => if m.faulted then s else s.slideFault e.val m.va
  | _ => s

/-- The Cox owns a fault (R210, R224): one record, and ABORT for its requests. -/
def State.coxAbort (s : State) (q : Nat) (ms : List Miss) (status : Nat) : State :=
  match ms with
  | [] => s
  | m :: _ =>
    let s := s.record { cls := 1, status := status, unit := xluUnit m.xlu, part := q, block := 0x06, infoKind := 2,
                        ctx := some m.ctx, info := m.va }
    ms.foldl (fun s (m : Miss) => (s.faultSeen m).endWork m stABORTED) s

/-- Removes misses from the outstanding list. -/
def State.dropMisses (s : State) (ms : List Miss) : State :=
  { s with xlu := { s.xlu with misses := s.xlu.misses.filter fun m => !ms.contains m } }

/-- Holds a faulted request in its XLU's miss slot for the full queue `q` (R211); one that a RETRY has released takes a slot if its XLU has one free, else it stays
with the Cox (R203). -/
def State.holdMiss (q : Nat) (s : State) (m : Miss) : State :=
  let used := (s.xlu.misses.filter fun (x : Miss) => x.xlu = m.xlu && !x.again).length
  if m.again ∧ 8 ≤ used then s
  else
    let t := s.now
    let hold := fun (x : Miss) =>
      if x = m then { x with held := true, again := false, queue := q, faulted := true, at_ := if x.held then x.at_ else t } else x
    let s := { s with xlu := { s.xlu with misses := s.xlu.misses.map hold } }
    if m.held then s else ((s.bump Fld.XLU_FQ_OVF_CNT q 1).put Fld.XLU_FQ_STATUS_FAULTQ_FULL q 1).msix q 2

/-- Whether queue `q` is full (R207). -/
def State.fqIsFull (s : State) (q : Nat) : Bool := 64 ≤ (s.get Fld.XLU_FQ_TAIL_TAIL q + 65536 - s.get Fld.XLU_FQ_HEAD_HEAD q) % 65536

/-- A fault finds queue `q` full: the first since the queue had room writes the BUSY record (R211). -/
def State.noteFull (s : State) (q : Nat) : State :=
  if NatSet.has s.xlu.fqFull q then s
  else ({ s with xlu := { s.xlu with fqFull := NatSet.add s.xlu.fqFull q } }).record { cls := 0, status := stBUSY, part := q, block := 0x06 }

/-- Raises one fault for requests with the same page, cause and stage (R206 to R211, R224). -/
def State.raiseFault (s : State) (f : XlFault) (ms : List Miss) : State :=
  match ms with
  | [] => s
  | m :: _ =>
    let p := s.ctxPart m.ctx
    let q := if f.stage2 then 0 else p
    let s := if f.cause = 6 then s.bump Fld.XLU_WALK_ERR_CNT_CNT 0 1 else s
    let page := m.va / 4096
    let base := s.get Fld.XLU_FQ_BASE_BASE q * 64
    let tail := s.get Fld.XLU_FQ_TAIL_TAIL q
    let at_ := base + tail % 64 * 32
    let waits := ms.map fun (m : Miss) => { m with held := false, again := false, faulted := true }
    let same := fun (r : FaultRec) => r.st = 0 && r.queue = q && r.ctx = m.ctx && r.page = page && r.cause = f.cause && r.stage2 = f.stage2
    let fresh := ms.filter fun (m : Miss) => !m.held
    if base = 0 then (s.dropMisses ms).coxAbort q ms stXLATE
    else if s.xlu.faults.any same then
      let join := fun (r : FaultRec) => if same r then { r with waiters := r.waiters ++ waits } else r
      let s := { s with xlu := { s.xlu with faults := s.xlu.faults.map join } }
      (s.dropMisses ms).showHeld q |> fun s => fresh.foldl State.stopWork s
    else if s.fqIsFull q then
      let s := ((ms.foldl (State.holdMiss q) s).showHeld q).noteFull q
      fresh.foldl State.stopWork s
    else if !s.ownMem q true at_ then (s.dropMisses ms).coxAbort q ms stDENIED
    else if s.unitDown (regionUnit (s.region at_)) then (s.dropMisses ms).coxAbort q ms stDOWN
    else
      let id := Tbl.get 0 s.xlu.nextId q
      let s := (s.dropMisses ms).ownBytes at_ (s.faultBytes id f m ms.length)
      let rec_ : FaultRec := { id := id, queue := q, ctx := m.ctx, page := page, cause := f.cause, stage2 := f.stage2, waiters := waits }
      let s := { s with xlu := { s.xlu with nextId := Tbl.set 0 s.xlu.nextId q ((id + 1) % 65536),
                                            faults := (s.xlu.faults.filter fun (r : FaultRec) => !(r.queue = q && r.id = id)) ++ [rec_] } }
      let s := (((s.put Fld.XLU_FQ_TAIL_TAIL q (tail + 1)).showPending q).showHeld q).msix q 2
      fresh.foldl State.stopWork (s.showFaults m.ctx)

/-- Fills one waiting request with a piece (R203, R204). -/
def State.fillMiss (s : State) (c : Piece) (m : Miss) : State :=
  let s := (s.fillTlb m.xlu (c.entry m.ctx)).bump Fld.XLU_MISS_CNT_CNT 0 1
  let s := if m.held || m.faulted then s else s.raise Fld.XLU_MISS_LAT_MAX_NS 0 (s.now - m.at_)
  (s.emit (.filled m.work m.va (c.pa + (m.va - c.va)))).resumeWork m

/-- The walk's answer for a request; `readErr` is the status of a walk read that failed outside the model, with the partition address it read for if it read
the stage-2 structure (R223). -/
def State.walkRes (s : State) (readErr : Option (Nat × Option Nat)) (m : Miss) : Except XlFault Piece :=
  match readErr with
  | some (st, some a) => .error (if s.s2On (s.ctxPart m.ctx) then XlFault.mk 6 true (st * 2 ^ 56 + a % 2 ^ 48) else XlFault.mk 6 false (st * 2 ^ 56))
  | some (st, none) => .error (XlFault.mk 6 false (st * 2 ^ 56))
  | none => s.walk m.ctx m.va m.kind

/-- Whether a request faults with `f` too, on the page of `m` (R208). -/
def State.sharesFault (s : State) (readErr : Option (Nat × Option Nat)) (m : Miss) (f : XlFault) (x : Miss) : Bool :=
  x.ctx = m.ctx && x.va / 4096 = m.va / 4096 && (match s.walkRes readErr x with
    | .error g => g.cause = f.cause && g.stage2 = f.stage2
    | .ok _ => false)

/-- Notes that a context's segment structure has passed its check (R190). -/
def State.noteSegOk (s : State) (c : Nat) : State :=
  if s.segPasses c then { s with xlu := { s.xlu with segOk := NatSet.add s.xlu.segOk c } } else s

/-- Walks for requests in their order: those whose right is there are filled; the others fault, together where they share page,
cause and stage (R199 to R204, R208). `seen` lists the pages whose walk has installed an entry: their other requests share it. -/
def State.walkFor (readErr : Option (Nat × Option Nat)) : Nat → List (Nat × Nat) → List Miss → State → State
  | 0, _, _, s => s
  | _, _, [], s => s
  | n + 1, seen, m :: ms, s =>
    let s := if readErr.isNone then s.noteSegOk m.ctx else s
    let pg := (m.ctx, m.va / 4096)
    match s.walkRes readErr m with
    | .ok c =>
      let s := if seen.contains pg then s else s.countMerge c
      State.walkFor readErr n (pg :: seen) ms ((s.dropMisses [m]).fillMiss c m)
    | .error f =>
      let grp := m :: ms.filter (s.sharesFault readErr m f)
      let s := if s.badStructure m.ctx f then
          { s with xlu := { s.xlu with badCtx := NatSet.add s.xlu.badCtx m.ctx } }
        else s
      let s := s.bump Fld.XLU_REFAULT_CNT_CNT 0 (grp.filter fun (x : Miss) => x.again).length
      State.walkFor readErr n seen (ms.filter fun x => !grp.contains x) (s.raiseFault f grp)

/-- Walks for a list of requests. -/
def State.walkAll (s : State) (readErr : Option (Nat × Option Nat)) (ms : List Miss) : State :=
  State.walkFor readErr (ms.length + 1) [] ms s

/-- Queue `q` has room, or the Cox runs on: its held requests are walked again in their order (R212), and those that a RETRY released. -/
def State.rewalkHeld (s : State) (q : Nat) : State :=
  let held := s.xlu.misses.filter fun (m : Miss) => (m.held || m.again) && m.queue = q
  let s := if s.fqIsFull q then s else { s with xlu := { s.xlu with fqFull := NatSet.del s.xlu.fqFull q } }
  (s.walkAll none held).showHeld q

/-- A Resume (R210). `q` is the queue whose register was written. -/
def State.resume (s : State) (q id : Nat) (abort : Bool) : State :=
  let last := fun (s : State) st => s.put Fld.XLU_FQ_STATUS_LAST_RESUME q st
  let next := Tbl.get 0 s.xlu.nextId q
  match s.xlu.faults.find? fun (f : FaultRec) => f.queue = q && f.id = id with
  | none => (last s stDENIED).record { cls := 0, status := stDENIED, part := q, block := 0x06, infoKind := 8, info := id }
  | some f =>
    let ageOk := (next + 65536 - id) % 65536 ≤ 1024
    if f.st = 2 then last s stABORTED
    else if f.st = 1 then
      (if ageOk then last s stDUPLICATE
        else (last s stDENIED).record { cls := 0, status := stDENIED, part := q, block := 0x06, infoKind := 8, info := id })
    else
      let done := fun (r : FaultRec) => if r.queue = q ∧ r.id = id then { r with st := 1, waiters := [] } else r
      let s := { s with xlu := { s.xlu with faults := s.xlu.faults.map done } }
      let s := (last s stOK).showFaults f.ctx
      if abort then f.waiters.foldl (fun s (m : Miss) => s.endWork m stABORTED) s
      else
        let ms := f.waiters.map fun (m : Miss) => { m with held := false, again := true, queue := q }
        let s := { s with xlu := { s.xlu with misses := s.xlu.misses ++ ms } }
        if s.err.coxHalted then s else s.walkAll none ms

/-- Ends every task and transfer bound to a context with a status (R213). -/
def State.endContext (s : State) (c status : Nat) : State :=
  let ks := (s.tasks.filter fun kv => match kv.2 with
    | some t => decide (t.ctx = c)
    | none => false).map (·.1)
  let s := s.failSlides (fun x => x.ctx = c) status
  ks.foldl (fun s k => match s.task k with
    | some t => s.taskFail k t status
    | none => s) s

/-- Quarantines a context for a fault held too long (R213). -/
def State.quarantine (s : State) (c : Nat) : State :=
  let held := s.xlu.misses.filter fun (m : Miss) => m.ctx = c
  let p := s.ctxPart c
  let s := { s with xlu := { s.xlu with
    misses := s.xlu.misses.filter fun (m : Miss) => m.ctx ≠ c,
    faults := s.xlu.faults.map fun (f : FaultRec) => if f.ctx = c ∧ f.st = 0 then { f with st := 2, waiters := [] } else f } }
  let s := held.foldl (fun s (m : Miss) => s.emit (.stalledEnd m.work m.va stTIMEOUT)) s
  let s := (((s.endContext c stTIMEOUT).keepTasks fun t => t.ctx ≠ c).relineTiles).quarantineCtx c
  let s := (s.showFaults c).record { cls := 1, status := stTIMEOUT, part := p, block := 0x06, ctx := some c }
  (s.showHeld p).showHeld 0

/-! ### Invalidation -/

/-- The TLB entries an Invalidate command removes (R216). -/
def State.invHits (s : State) (p : Nat) (c : InvCmd) (e : TlbEntry) : Bool :=
  match c.kind with
  | 0 => e.ctx = c.ctx
  | 1 => e.ctx = c.ctx && decide (e.va < c.addr + c.len) && decide (c.addr < e.va + e.len)
  | _ => s.ctxPart e.ctx = p

/-- Whether a command is well formed for partition `p` (R216, R217). -/
def State.invOk (s : State) (p : Nat) (c : InvCmd) (priv : Bool) : Bool :=
  match c.kind with
  | 0 => (s.ctxsOf p).contains c.ctx
  | 1 => (s.ctxsOf p).contains c.ctx && c.len % 4096 = 0 && decide (4096 ≤ c.len) && decide (c.len ≤ 2 ^ 48)
  | 2 => true
  | _ => priv

/-- Whether a context address of context `ctx` lies in what an Invalidate command removes (R216). -/
def State.invCovers (s : State) (p : Nat) (c : InvCmd) (ctx va : Nat) : Bool :=
  match c.kind with
  | 0 => ctx = c.ctx
  | 1 => ctx = c.ctx && decide (c.addr ≤ va) && decide (va < c.addr + c.len)
  | _ => s.ctxPart ctx = p

/-- Marks the requests in flight that used a translation the command removes: the bursts of Slide engines, by their context addresses, and the caches' requests,
by their context (R219). -/
def State.markInFlight (s : State) (p : Nat) (c : InvCmd) : State :=
  let hitB := fun (e : Nat) (x : Slide) (b : Burst) => !physEngine e && !b.done && (List.range b.len).any fun j =>
    [x.addr false (b.off + j), x.addr true (b.off + j)].any fun o => match o with
      | some va => s.invCovers p c x.ctx va
      | none => false
  let mark := fun (e : Nat) (x : Slide) => { x with bursts := x.bursts.map fun b => if hitB e x b then { b with inv := (p, c.seq) :: b.inv } else b }
  let hitP := fun (t : Tag) => if c.kind ≤ 1 then t.ctx = c.ctx else t.part = p
  let markP := fun (_ : Nat) (o : Option Pend) => o.map fun (y : Pend) => if hitP y.tag then { y with inv := (p, c.seq) :: y.inv } else y
  { s with sld := Tbl.mapAll mark s.sld, coh := { s.coh with pend := Tbl.mapAll markP s.coh.pend } }

/-- Whether a request still in flight holds up the completion of partition `p`'s command `seq` (R219). -/
def State.invWaits (s : State) (p seq : Nat) : Bool :=
  (s.sld.any fun kv => kv.2.bursts.any fun b => !b.done && b.inv.contains (p, seq)) ||
  s.coh.pend.any fun kv => match kv.2 with
    | some y => y.inv.contains (p, seq)
    | none => false

/-- An Invalidate command takes effect in every XLU (R216, R219). -/
def State.applyInv (s : State) (p : Nat) (c : InvCmd) : State :=
  let s := (s.dropTlb (s.invHits p c)).markInFlight p c
  let clear := fun (t : NatSet) => (List.range 256).foldl (fun t x =>
    if (c.kind ≤ 1 ∧ x = c.ctx) ∨ (2 ≤ c.kind ∧ s.ctxPart x = p) then NatSet.del t x else t) t
  let s := { s with xlu := { s.xlu with badCtx := clear s.xlu.badCtx, segOk := clear s.xlu.segOk } }
  s.emit (.ctlInvalidate p c.kind c.ctx)

/-- Accepts or refuses an Invalidate command (R217, R219); the broadcast of a halted Cox waits (R618). -/
def State.invalidate (s : State) (p kind ctx : Nat) (priv : Bool) : State :=
  let l := Tbl.get [] s.xlu.inv p
  let c : InvCmd :=
    { seq := (Tbl.get 0 s.xlu.invSeq p + 1) % 65536, kind := kind, ctx := ctx,
      addr := s.get Fld.XLU_INV_ADDR_ADDR p * 4096, len := s.get Fld.XLU_INV_LEN_LEN p, sent := !s.err.coxHalted }
  if !s.invOk p c priv then s.put Fld.XLU_INV_STATUS_LAST_STATUS p stDENIED
  else if 8 ≤ l.length then s.put Fld.XLU_INV_STATUS_LAST_STATUS p stBUSY
  else
    let s := { s with xlu := { s.xlu with inv := Tbl.set [] s.xlu.inv p (l ++ [c]), invSeq := Tbl.set 0 s.xlu.invSeq p c.seq } }
    let s := (s.put Fld.XLU_INV_STATUS_LAST_STATUS p stOK).put Fld.XLU_INV_STATUS_PENDING p (l.length + 1)
    if c.sent then s.applyInv p c else s

/-- The Invalidate commands that wait for the Cox go out (R618). -/
def State.sendInv (s : State) (p : Nat) : State :=
  let l := Tbl.get [] s.xlu.inv p
  let s := { s with xlu := { s.xlu with inv := Tbl.set [] s.xlu.inv p (l.map fun (c : InvCmd) => { c with sent := true }) } }
  (l.filter fun (c : InvCmd) => !c.sent).foldl (fun s c => s.applyInv p c) s

/-- What a bumped unit loses in the XLUs (R198, Crossing 8 of chapter 5): its TLBs and misses, and the waiters of its queued
entries. -/
def State.xluReset (s : State) (x : Nat) : State :=
  let s := s.emptyTlb x
  let s := { s with xlu := { s.xlu with
    misses := s.xlu.misses.filter fun (m : Miss) => m.xlu ≠ x,
    faults := s.xlu.faults.map fun (f : FaultRec) =>
      let w := f.waiters.filter fun (m : Miss) => m.xlu ≠ x
      if f.st = 0 ∧ w = [] ∧ f.waiters ≠ [] then { f with st := 2, waiters := [] } else { f with waiters := w } } }
  let s := (List.range 256).foldl State.showFaults s
  (List.range 8).foldl State.showHeld s

end Sys2Proof.Machine
end

