-- ==== Sys2Proof/Machine/PowerOps.lean ====
section
/-!
DEFINITION. Power domains: what uses a domain (Table 7.3, R310), pins (R311), and waking (R308, R309, R315).
-/
namespace Sys2Proof.Machine

/-- Whether the site of a domain is fitted (Table 1.2, R36); Yokes and the Seam always are. -/
def State.domFitted (s : State) (d : Nat) : Bool := if domainUnit d = 0xFF then true else s.unitFitted (domainUnit d)

/-- Whether a domain is pinned (R311). -/
def State.pinned (s : State) (d : Nat) : Bool := bit (s.get Fld.PWR_PIN_PINNED (d / 32)) (d % 32)

/-- Whether a domain is pinned off. -/
def State.pinnedOff (s : State) (d : Nat) : Bool := s.pinned d && !s.domOn d && !s.waking d

/-- The Yoke of a domain's half, where its unit hangs on one (Table 7.3). -/
def yokeOf (d : Nat) : Option Nat :=
  if d < 16 then some (48 + d / 8)
  else if d < 48 then some (48 + (d - 16) / 16)
  else if 50 ≤ d ∧ d ≤ 53 then some (48 + d % 2) else none

/-- The switched domains beyond the Seam (Table 7.3): the East half's units, stacks E0 and E1, IO-B and IO-C. -/
def beyondSeam (d : Nat) : Bool :=
  (decide (8 ≤ d) && decide (d < 16)) || (decide (32 ≤ d) && decide (d < 48)) || d = 49 || d = 51 || d = 53 || d = 55 || d = 59 || d = 60 ||
  (decide (64 ≤ d) && decide (d ≤ 69))

/-- Begins to wake one domain. -/
def State.wakeOne (s : State) (d : Nat) : State :=
  if s.domOn d ∨ s.waking d then s else { s with pwr := { s.pwr with waking := Tbl.set none s.pwr.waking d (some s.now) } }

/-- Switches a domain on, and the Yoke and the Seam its traffic needs (Table 7.3). -/
def State.wake (s : State) (d : Nat) : State :=
  let s := match yokeOf d with
    | some y => s.wakeOne y
    | none => s
  (if beyondSeam d then s.wakeOne 56 else s).wakeOne d

/-- The granules of a Pocket's lining entries that some partition holds. -/
def State.pocketGranules (s : State) (n : Nat) : List (Nat × Nat) :=
  s.xlu.lining.filter fun kv => kv.1 / 65536 = n

/-- Granule 0 of P00 to P10 and P16 to P25 belongs to the Cox (R450). -/
def coxGranule (g : Nat) : Bool := g % 32 = 0 && (decide (g / 32 ≤ 10) || (decide (16 ≤ g / 32) && decide (g / 32 ≤ 25)))

/-- Whether a Pocket holds a lock that is not Free, or a line some cache owns. -/
def State.pocketHeld (s : State) (n : Nat) : Bool :=
  (s.locks.any fun kv => lockPocket kv.1 = n && kv.2.st ≠ 0) ||
  (s.coh.dir.any fun kv => localRegion (kv.1 * 64) = .pocket n && kv.2.x)

/-- Whether a lane's source is on a die. -/
def State.onDie (s : State) (l die : Nat) : Bool := s.laneField l 4 1 = die

/-- The admitted lanes that satisfy `p`. -/
def State.lanesWith (s : State) (p : Nat → Bool) : List Nat := (List.range 64).filter fun l => s.laneAdmitted l && p l

/-- The partitions whose resources use a domain (R310). -/
def State.domUsers (s : State) (d : Nat) : List Nat :=
  let masks := fun (l : List (Nat × Nat)) => (List.range 8).filter fun p => l.any fun kv => bit kv.2 p || bit kv.2 (8 + p)
  let parts := fun (ls : List Nat) => (ls.map s.lanePart).dedup
  if d < 16 then ((s.tasks.filterMap fun kv => if kv.1 / 65536 = d then kv.2.map Task.part else none)).dedup
  else if d < 48 then masks (s.pocketGranules (d - 16))
  else if d = 50 ∨ d = 51 then (((s.leng (d - 50)).pops.filterMap fun kv => kv.2.map Pop.part)).dedup
  else if d = 52 ∨ d = 53 then parts (s.lanesWith fun l => s.laneKind l = 1 && s.laneHalf l = d - 52)
  else if d = 54 ∨ d = 55 then (((s.leng (d - 54)).pops.filterMap fun kv => match kv.2 with
      | some p => if modeKeeps p.mode then some p.part else none
      | none => none)).dedup
  else if 57 ≤ d ∧ d ≤ 60 then masks (s.xlu.lining.filter fun kv => kv.1 / 65536 = 256 + (d - 57))
  else if 61 ≤ d ∧ d ≤ 69 then
    let die := (d - 61) / 3
    match (d - 61) % 3 with
    | 0 => parts (s.lanesWith fun l => s.laneKind l = 1 && s.onDie l die)
    | 1 => parts (s.lanesWith fun l => s.laneKind l = 1 && s.onDie l die)
    | _ => parts (s.lanesWith fun l => s.laneKind l ≠ 1 && s.onDie l die)
  else if d = 70 then [0] else []

/-- Whether every domain that satisfies `p` is off. -/
def State.allOff (s : State) (p : Nat → Bool) : Bool := (List.range 72).all fun d => !p d || (!s.domOn d && !s.waking d)

/-- Whether payload traffic that crosses the Seam is on its way (R116): a request at a home, a snoop it awaits, a cache's request, or a burst. -/
def State.seamBusy (s : State) : Bool :=
  let crosses := fun (u a : Nat) => crossesSeam u (regionUnit (s.region (s.get Fld.GLB_PKG_ID_PKG_ID 0 * 2 ^ 44 + localOff a)))
  (s.standing.any fun r => crosses r.tag.unit r.addr) ||
  (s.coh.busy.any fun kv => match kv.2 with
    | some b => (b.await ++ b.evict).any fun g => crosses (agentUnit g) b.cur.addr
    | none => false) ||
  (s.coh.pend.any fun kv => kv.2.isSome && crosses (agentUnit (kv.1 / 2 ^ 42)) (kv.1 % 2 ^ 42 * 64)) ||
  (s.sld.any fun kv => kv.2.bursts.any fun b => !b.done && (b.dst :: b.srcs).any fun a => crosses (engineUnit kv.1) a)

/-- Whether the automatic policy lets a domain be off (Table 7.3). -/
def State.domIdle (s : State) (d : Nat) : Bool :=
  if d < 16 then s.domUsers d = []
  else if d < 48 then s.domUsers d = [] && !coxGranule ((d - 16) * 32) && !s.pocketHeld (d - 16)
  else if d = 48 ∨ d = 49 then s.allOff fun x => yokeOf x = some d
  else if d = 50 ∨ d = 51 then s.domUsers d = []
  else if d = 52 ∨ d = 53 then s.domUsers d = []
  else if d = 54 ∨ d = 55 then
    s.domUsers d = [] && (s.bnk (d - 54)).cur.isNone && (s.bnk (d - 54)).writing.isEmpty
  else if d = 56 then (s.allOff fun x => beyondSeam x && s.domFitted x) && !s.seamBusy
  else if 61 ≤ d ∧ d ≤ 69 then
    let die := (d - 61) / 3
    match (d - 61) % 3 with
    | 0 => false
    | 1 => s.domUsers d = [] && !((List.range 64).any fun l => s.onDie l die && (s.lane l).capture.isSome)
    | _ => s.domUsers d = []
  else if d = 71 then s.dbg.sessionAt.isNone else false

/-- Whether an OFF finds the domain in use (R310). -/
def State.domBusy (s : State) (d : Nat) : Bool :=
  (s.domUsers d ≠ []) || (decide (16 ≤ d) && decide (d < 48) && (coxGranule ((d - 16) * 32) || s.pocketHeld (d - 16))) ||
  (d = 71 && s.dbg.sessionAt.isSome) ||
  ((d = 48 || d = 49) && !(s.allOff fun x => yokeOf x = some d)) ||
  (d = 56 && (!(s.allOff fun x => beyondSeam x && s.domFitted x) || s.seamBusy))

/-- The unit's Learning Engine returns with its dynamic state reset (Table 14.6, R430); waiting deliveries are dropped and counted. -/
def State.leReturn (s : State) (h : Nat) : State :=
  let x := s.leng h
  let reset := fun (n : Neuron) =>
    let th := match Tbl.get none x.pops n.pop with
      | some p => p.f 0x14 4
      | none => 0
    { n with v := th, x1 := 0, x2 := 0, y1 := 0, y2 := 0, nov := 0, tLast := 0, tSpike := 0 }
  let s := (s.bump Fld.LRN_DLY_OVF_CNT_CNT h x.wheel.length).setLe h
    { x with wheel := [], spikes := [], neurons := x.neurons.map fun kv => (kv.1, kv.2.map reset) }
  ((s.leng h).pops.foldl (fun s kv => match kv.2 with
    | some p => s.renormPop h p
    | none => s) s).showLe h

/-- Resets of a unit by R570 in the last 10 s. -/
def State.silentResets (s : State) (u : Nat) : Nat :=
  ((Tbl.get [] s.err.silent u).filter fun t => decide (s.now < t + 10000000000)).length

/-- The contained record of step 6 of Table 14.5. -/
def State.returnRecord (s : State) (u old : Nat) : State :=
  s.record { cls := 1, status := stOK, unit := u, block := 0x1B, infoKind := 11, info := old + s.epoch u * 65536,
             count := s.silentResets u }

/-- Every word of a Pocket's allocated granules is poisoned after its data was lost, with one record per granule (R567 step 6). -/
def State.pocketLost (s : State) (n : Nat) : State :=
  let gs := (List.range 32).filter fun g => coxGranule (n * 32 + g) || Tbl.get 0 s.xlu.lining (n * 65536 + g) ≠ 0
  gs.foldl (fun s g =>
    let base := 0x01000000000 + n * 0x200000 + g * 0x10000
    let m := Tbl.get 0 s.xlu.lining (n * 65536 + g)
    let part := match (List.range 8).find? fun p => bit m p || bit m (8 + p) with
      | some p => p
      | none => 0xFF
    let s := { s with poison := (List.range 8192).foldl (fun t w => NatSet.add t (base / 8 + w)) s.poison }
    s.record { cls := 1, status := stPOISONED, unit := 0x10 + n, part := part, block := 0x04, infoKind := 1,
               count := Tbl.get 0 s.err.lostLines (n * 32 + g), info := s.get Fld.GLB_PKG_ID_PKG_ID 0 * 2 ^ 44 + base }) s

/-- A Pocket returns: lost data is marked, locks pass on as ORPHAN (R162, R567). -/
def State.pocketReturn (s : State) (n : Nat) : State :=
  let lost := NatSet.has s.err.forcedOff n
  let s := if lost then s.pocketLost n else s
  let s := { s with err := { s.err with forcedOff := NatSet.del s.err.forcedOff n,
                                        lostLines := s.err.lostLines.filter fun kv => kv.1 / 32 ≠ n } }
  ((s.locks.filter fun kv => lockPocket kv.1 = n).map (·.1)).foldl State.passOrphan s

/-- What a unit of a domain does when it is back (Table 14.6, R289, R347). -/
def State.unitReturn (s : State) (d : Nat) : State :=
  if d < 16 then
    let s := (s.setA d 0).setScull d { s.scull d with halted := false, haltPending := none, stepLeft := none, open_ := [] }
    (s.put Fld.DBG_REASON_REASON d 0).showScull d
  else if d < 48 then s.pocketReturn (d - 16)
  else if d = 50 ∨ d = 51 then s.leReturn (d - 50)
  else s

/-- The node power of a segment goes on or off (R638): segment die × 4 + segment. -/
def State.nodePower (s : State) (k : Nat) (on : Bool) : State :=
  if on ∧ s.boot.phase = .powerFail then s else s.emit (.pin 4 (2 * k + b2n on))

/-- The node power of every segment goes off with its FLD domain (R638). -/
def State.nodesOff (s : State) : State :=
  ((List.range 12).filter fun k => s.domOn (63 + 3 * (k / 4))).foldl (fun s k => s.nodePower k false) s

/-- An FLD domain switches: the node power of its segments goes with it, but for those switched off on their own (R638, R639). -/
def State.fldPins (s : State) (d : Nat) (on : Bool) : State :=
  if d = 63 ∨ d = 66 ∨ d = 69 then
    ((rangeFrom ((d - 63) / 3 * 4) 4).filter fun k => !NatSet.has s.mod.segOff k).foldl (fun s k => s.nodePower k on) s
  else s

/-- A domain comes on: its stand-in goes, the record of step 6 where the unit was down is written, and the requests held for it go on (R309, Table 14.5
step 6). -/
def State.domainUp (s : State) (d : Nat) : State :=
  let u := domainUnit d
  let old := Tbl.get none s.pwr.returning d
  let s := { s with pwr := { s.pwr with waking := Tbl.set none s.pwr.waking d none, returning := Tbl.set none s.pwr.returning d none } }
  let s := ((s.putBit Fld.PWR_STATE_ON d true).fldPins d true).bump Fld.PWR_WAKE_CNT_CNT 0 1
  let s := if u = 0xFF then s else s.put Fld.ERR_EPOCH_DOWN u 0
  let s := s.unitReturn d
  let s := if s.pwr.explicit = some d then
      ({ s with pwr := { s.pwr with explicit := none } }).put Fld.PWR_REQ_STATUS_PENDING 0 0 |>.put Fld.PWR_REQ_STATUS_STATUS 0 stOK
    else s
  let s := match old with
    | some o => if u = 0xFF then s else s.returnRecord u o
    | none => s
  s.wakeGo d

end Sys2Proof.Machine
end

