-- ==== Sys2Proof/Machine/Placement.lean ====
section
/-!
DEFINITION. Demands and placement (R449 to R456): what a profile and its bound lanes ask for, what is free, and where each part goes.
-/
namespace Sys2Proof.Machine

/-! ### Lanes as admission sees them -/

/-- Tiles of a frame in a row and in a column (R292). -/
def State.tileCols (s : State) (l : Nat) : Nat := (s.laneField l 0x66 2 + 15) / 16
def State.tileRows (s : State) (l : Nat) : Nat := (s.laneField l 0x68 2 + 15) / 16

/-- The used watch windows of a lane: number, X, Y, W, H (R323). -/
def State.windows (s : State) (l : Nat) : List (Nat × Nat × Nat × Nat × Nat) :=
  ((List.range 16).map fun w => (w, s.laneField l (0x90 + 8 * w) 2, s.laneField l (0x92 + 8 * w) 2, s.laneField l (0x94 + 8 * w) 2,
    s.laneField l (0x96 + 8 * w) 2)).filter fun w => w.2.2.2.1 ≠ 0 && w.2.2.2.2 ≠ 0

/-- The tiles that overlap a watch window, in row-major order (R292). -/
def State.comparedTiles (s : State) (l : Nat) : List Nat :=
  let cols := s.tileCols l
  let ws := s.windows l
  (List.range (cols * s.tileRows l)).filter fun t =>
    let x := t % cols * 16
    let y := t / cols * 16
    ws.any fun w => decide (w.2.1 < x + 16) && decide (x < w.2.1 + w.2.2.2.1) && decide (w.2.2.1 < y + 16) && decide (y < w.2.2.1 + w.2.2.2.2)

/-- Bytes of a data-area slot (R325). -/
def State.slotSize (s : State) (l : Nat) : Nat :=
  if s.laneKind l = 1 then s.laneField l 0x66 2 * s.laneField l 0x68 2 * 3 / 2 else s.laneField l 0x118 4 * s.laneField l 0x111 1 * 4

/-- Bytes of a changed-tile map. -/
def State.mapBytes (s : State) (l : Nat) : Nat := if s.laneKind l = 1 then (s.tileCols l * s.tileRows l + 7) / 8 else 0

/-- RING_DEPTH. -/
def State.laneDepth (s : State) (l : Nat) : Nat := s.laneField l 0x0D 1

/-- Bytes of the data area and of the entry ring's area: a ring of 4 KiB, the least R260 allows, and a map per slot (log entry 31). -/
def State.dataBytes (s : State) (l : Nat) : Nat := s.slotSize l * s.laneDepth l
def State.ringBytes (s : State) (l : Nat) : Nat := 4096 + s.laneDepth l * s.mapBytes l

/-- HBM is allocated in whole 2 MiB, Pockets in whole 64 KiB (R450). -/
def hbmRound (n : Nat) : Nat := roundUp n 0x200000
def pocketRound (n : Nat) : Nat := roundUp n 0x10000

/-- A lane's charge in kB/s under its plan (R452). -/
def State.laneCharge (s : State) (l : Nat) (plan : List Byte) : Nat :=
  let scale := leAt plan 0x10 4
  let x :=
    if s.laneKind l = 1 then (scale * s.laneField l 0x66 2 * s.laneField l 0x68 2 * s.laneField l 0x70 4 + 999999999) / 1000000000
    else (scale * s.laneField l 0x114 4 * s.laneField l 0x111 1 + 999) / 1000
  leAt plan 0xC 4 + x

/-- The plan entry a lane names. -/
def State.lanePlan (s : State) (l : Nat) (plans : List (List Byte)) : Option (List Byte) :=
  plans.find? fun e => leAt e 0 1 = s.laneField l 0xC 1

/-- Reuse-store bytes of a camera lane, both sides (R451). -/
def State.reuseBytes (s : State) (l : Nat) (plan : List Byte) : Nat :=
  if s.laneKind l = 1 then 2 * leAt plan 0x14 4 * (s.comparedTiles l).length else 0

/-- Lanes in the rank order of R76: class, higher priority, lower number. -/
def State.rankOrder (s : State) (ls : List Nat) : List Nat :=
  let key := fun (l : Nat) => (s.laneField l 1 1 * 256 + (255 - s.laneField l 2 1)) * 64 + l
  ls.mergeSort fun a b => decide (key a ≤ key b)

/-! ### Vectors -/

/-- Adds two vectors. -/
def vecAdd (a b : List Nat) : List Nat := (List.range 16).map fun i => a.getD i 0 + b.getD i 0

/-- A vector with one component. -/
def vecOf (i n : Nat) : List Nat := (List.range 16).map fun k => if k = i then n else 0

/-- A lane's part of a demand (R451). -/
def State.lanePart_ (s : State) (l : Nat) (tasks plans : List (List Byte)) : List Nat :=
  match s.lanePlan l plans with
  | none => vecOf 13 1
  | some pl =>
    let own := tasks.filter fun e => leAt e 2 1 = leAt pl 0 1
    let hbm := hbmRound (s.dataBytes l) + hbmRound (s.ringBytes l) + hbmRound (s.reuseBytes l pl)
    [sumN (own.map fun e => leAt e 4 2), sumN (own.map fun e => leAt e 8 4), pocketRound (16 * leAt pl 0x18 4), hbm,
     s.laneCharge l pl, 0, 0, 0, 0, 0, sumN (own.map fun e => leAt e 6 1), 0, sumN (own.map fun e => leAt e 0xC 4), 1, 0, 0]

/-- The demand of a profile with its bound lanes (R454). -/
def State.demandOf (s : State) (p id : Nat) (img prof : List Byte) : List Nat :=
  (s.lanesBound p id).foldl (fun d l => vecAdd d (s.lanePart_ l (profTasks img prof) (mimPlans img))) (vectorOf prof)

/-- The loaded models but one. -/
def State.otherModels (s : State) (without : Option Nat) : List Model :=
  s.mdl.models.filterMap fun kv => if some kv.1 = without then none else kv.2

/-- What a partition's models use (R454). -/
def State.usedBy (s : State) (p : Nat) (without : Option Nat) : List Nat :=
  (s.otherModels without).foldl (fun d (m : Model) => if m.part = p then vecAdd d m.demand else d) (vecOf 0 0)

/-- Sculls that are on or under automatic policy. -/
def State.usableSculls (s : State) : List Nat := (List.range 16).filter fun n => !s.pinnedOff n

/-- Whether a stack site is trained. -/
def State.trained (s : State) (n : Nat) : Bool := bit (s.get Fld.GLB_PRESENT_STACK_UP 0) n

/-- The deliverable bandwidth D of a stack in kB/s (R347). -/
def State.stackD (s : State) (n : Nat) : Nat :=
  if !s.trained n ∨ !s.domOn (57 + n) then 0
  else
    let gone := ((List.range 16).filter fun k => bit (s.get Fld.MEM_PAIR_RETIRED_PAIRS 0) (n * 16 + k)).length
    31200000 * (16 - gone) / (if (Tbl.get {} s.shed n).halved then 2 else 1)

/-- Partition `p`'s contexts that are IDLE and that no model holds. -/
def State.freeCtxs (s : State) (p : Nat) (others : List Model) : List Nat :=
  (s.ctxsOf p).filter fun c =>
    !(others.any fun (m : Model) => m.ctxs.contains c) &&
    (s.get Fld.XLU_CTX_STATE_STATE c = 1 || (s.get Fld.XLU_CTX_STATE_STATE c = 2 && s.mdl.models.any fun kv => match kv.2 with
      | some m => m.ctxs.contains c
      | none => false))

/-- Good pool blocks of a bank that no other kept population holds (R421). -/
def State.bankRoom (s : State) (b : Nat) (others : List Model) : Nat :=
  let good := ((rangeFrom 2 254).filter fun k => !s.blockBad b k).length
  let need := sumN (others.map fun (m : Model) => sumN (m.pops.map fun x => if x.1 = b then popBytes m.blob x.2.2 / 65536 else 0))
  if s.pinnedOff (54 + b) then 0 else good - need

/-- What of the device a set of models leaves, by component (Table 11.5). -/
def State.deviceLeft (s : State) (p : Nat) (others : List Model) (lanesUsed : Nat) : List Nat :=
  let used := others.foldl (fun d (m : Model) => vecAdd d m.demand) (vecOf 0 0)
  let n := s.usableSculls.length
  let hbm := ((List.range 4).filter s.trained).length * 0x3C0000000 - sumN (others.map fun (m : Model) => sumN (m.hbm.map (·.2)))
  let pocket := (1024 - 21 - (others.map fun (m : Model) => m.pocket.length).foldl (· + ·) 0) * 65536
  let bw := sumN ((List.range 4).map fun k => s.stackD k)
  let u := fun (i : Nat) => used.getD i 0
  [1000 * n - u 0, 0x100000 * n - u 1, pocket, hbm, bw - u 4, 1200000000 - u 5, 262144 - u 6, 4194304 - u 7, 268435456 - u 8,
   (s.bankRoom 0 others + s.bankRoom 1 others) * 65536, 4 * n - u 10, (s.freeCtxs p others).length, hbm,
   ((List.range 64).filter fun l => s.lanePart l = p && decide (1 ≤ s.laneState l)).length - lanesUsed, 0, 0]

/-- What of the device is free, by component (Table 11.5). -/
def State.deviceFree (s : State) (p : Nat) (without : Option Nat) : List Nat :=
  s.deviceLeft p (s.otherModels without) ((s.usedBy p without).getD 13 0)

/-- A partition's quota (Table 2.7): the whole device for a partition 0 that no record names (R77). -/
def State.quotaOf (s : State) (p : Nat) : List Nat :=
  match Tbl.get none s.boot.parts p with
  | some c => if c.quota = [] then s.deviceLeft p [] 0 else c.quota
  | none => []

/-! ### Placement (R455) -/

/-- A placement being formed. -/
structure Place where
  units : List TaskUnit := []
  lanes : List LaneRes := []
  pops : List (Nat × Nat × List Byte) := []
  hbm : List (Nat × Nat) := []
  pocket : List Nat := []
  ctxs : List Nat := []
  area : Nat := 0
  save : Nat := 0
  miss : List Nat := []
deriving DecidableEq, Repr

/-- Adds to unplaced. -/
def Place.short (x : Place) (i n : Nat) : Place := { x with miss := vecAdd x.miss (vecOf i n) }

/-- A task of a profile before placement: lane (255 model-wide), entry index, entry. -/
structure TaskUse where
  lane : Nat
  idx : Nat
  e : List Byte
deriving DecidableEq, Repr

/-- The tasks of a profile with its bound lanes, in the order of R455 rule 1. -/
def State.taskUses (s : State) (lanes : List Nat) (tasks plans : List (List Byte)) : List TaskUse :=
  let all := ((List.range tasks.length).zip tasks).flatMap fun ie =>
    let t := fun (l : Nat) => ({ lane := l, idx := ie.1, e := ie.2 } : TaskUse)
    if leAt ie.2 2 1 = 0xFF then [t 255]
    else (lanes.filter fun l => ((s.lanePlan l plans).map fun p => leAt p 0 1) = some (leAt ie.2 2 1)).map t
  let key := fun (t : TaskUse) => (1000 - leAt t.e 4 2, if t.lane = 255 then 0 else t.lane + 1, t.idx)
  all.mergeSort fun a b =>
    let ka := key a
    let kb := key b
    decide (ka.1 < kb.1) || (ka.1 = kb.1 && (decide (ka.2.1 < kb.2.1) || (ka.2.1 = kb.2.1 && decide (ka.2.2 ≤ kb.2.2))))

/-- Whether two tasks are placed as one unit (R455 rule 1, log entry 32). -/
def TaskUse.together (a b : TaskUse) : Bool :=
  a.lane = b.lane && (a.lane ≠ 255 || a.idx = b.idx || (leAt a.e 7 1 ≠ 0 && leAt a.e 7 1 = leAt b.e 7 1))

/-- Groups tasks into units, each at the place of its first task. -/
def groupUses : Nat → List TaskUse → List (List TaskUse)
  | 0, _ => []
  | _, [] => []
  | n + 1, t :: ts => (t :: ts.filter t.together) :: groupUses n (ts.filter fun x => !t.together x)

/-- Places one unit on the lowest Scull of its half that can hold it (R455 rule 1). -/
def State.placeUnit (s : State) (part : Nat) (others : List Model) (x : Place) (u : List TaskUse) : Place :=
  match u with
  | [] => x
  | t :: _ =>
    let share := sumN (u.map fun a => leAt a.e 4 2)
    let tile := sumN (u.map fun a => leAt a.e 8 4)
    let sl := sumN (u.map fun a => leAt a.e 6 1)
    let half := if leAt t.e 3 1 = 2 then s.laneHalf t.lane else leAt t.e 3 1
    let fits := fun (n : Nat) =>
      let us := (others.flatMap fun (m : Model) => m.units.filter fun (a : TaskUnit) => a.scull = n) ++ x.units.filter fun (a : TaskUnit) => a.scull = n
      !s.pinnedOff n && (others.all fun (m : Model) => m.part = part || m.units.all fun (a : TaskUnit) => a.scull ≠ n) &&
      decide (sumN (us.map TaskUnit.share) + share ≤ 1000) && decide (sumN (us.map TaskUnit.tile) + tile ≤ 0x100000) &&
      decide (sumN (us.map TaskUnit.slide) + sl ≤ 4)
    match (rangeFrom (8 * half) 8).find? fits with
    | some n =>
      let v : TaskUnit := { scull := n, half := half, share := share, tile := tile, slide := sl, tasks := u.map fun a => (a.idx, a.lane) }
      { x with units := x.units ++ [v] }
    | none => ((x.short 0 share).short 1 tile).short 10 sl

/-- Places one population (R455 rules 2 and 3). -/
def State.placePop (s : State) (others : List Model) (blob : List Byte) (x : Place) (e : List Byte) : Place :=
  let d := popDesc blob e
  let h := leAt e 0 1
  let first := leAt d 4 4
  let count := leAt d 8 4
  let held := (others.flatMap fun (m : Model) => (m.pops.filter fun y => y.1 = h).map fun y => (popDesc m.blob y.2.2, y.2.2)) ++
    (x.pops.filter fun y => y.1 = h).map fun y => (popDesc blob y.2.2, y.2.2)
  let busy := held.any fun y =>
    leAt y.1 0 1 = leAt d 0 1 || (decide (leAt y.1 4 4 < first + count) && decide (first < leAt y.1 4 4 + leAt y.1 8 4))
  let free := fun (cap i : Nat) => cap - sumN (held.map fun y => leAt y.2 i 4)
  let blocks := popBytes blob e / 65536
  let mine := sumN ((x.pops.filter fun y => y.1 = h).map fun y => popBytes blob y.2.2 / 65536)
  let room := s.bankRoom h others - mine
  let x := if busy ∨ s.pinnedOff (50 + h) then x.short 6 count else x
  let x := x.short 7 (leAt e 8 4 - free 2097152 8)
  let x := x.short 8 (leAt e 0xC 4 - free 134217728 0xC)
  let x := x.short 9 ((blocks - room) * 65536)
  { x with pops := x.pops ++ [(h, leAt d 0 1, e)] }

/-- The lowest address from which `need` bytes are free below `limit`, among allocations in ascending order. -/
def firstFit (limit need : Nat) : Nat → List (Nat × Nat) → Option Nat
  | pos, [] => if pos + need ≤ limit then some pos else none
  | pos, (a, n) :: t => if pos + need ≤ a then some pos else firstFit limit need (max pos (a + n)) t

/-- The HBM allocations in a stack site, ascending. -/
def hbmIn (others : List Model) (x : Place) (site : Nat) : List (Nat × Nat) :=
  let l := (others.flatMap Model.hbm ++ x.hbm).filter fun a => a.1 / 0x400000000 = site
  l.mergeSort fun a b => decide (a.1 ≤ b.1)

/-- Free bytes of a stack site (R450). -/
def hbmFree (others : List Model) (x : Place) (site : Nat) : Nat := 0x3C0000000 - sumN ((hbmIn others x site).map (·.2))

/-- Allocates HBM in a site at its lowest free run, or adds it to unplaced. -/
def takeHbm (others : List Model) (x : Place) (site n : Nat) : Nat × Place :=
  let need := hbmRound n
  if need = 0 then (0, x)
  else
    let base := site * 0x400000000
    match firstFit (base + 0x3C0000000) need base (hbmIn others x site) with
    | some a => (a, { x with hbm := x.hbm ++ [(a, need)] })
    | none => (0, x.short 3 need)

/-- Whether a Pocket granule is free for admission. -/
def State.granuleFree (s : State) (others : List Model) (x : Place) (g : Nat) : Bool :=
  !coxGranule g && !s.pinnedOff (16 + g / 32) && !x.pocket.contains g && !(others.any fun (m : Model) => m.pocket.contains g)

/-- The lowest run of `n` free granules within one Pocket of a half. -/
def State.granuleRun (s : State) (others : List Model) (x : Place) (half n : Nat) : Option Nat :=
  (rangeFrom (512 * half) 512).find? fun g => decide (g % 32 + n ≤ 32) && (rangeFrom g n).all (s.granuleFree others x)

/-- The stack site for a lane's areas (R345), with the bandwidth left in each. -/
def State.siteFor (s : State) (half : Nat) (left : Nat → Nat) : Option Nat :=
  if s.get Fld.GLB_VARIANT_STACK_FIT 0 = 1 then (if s.trained 0 then some 0 else none)
  else
    let a := 2 * half
    match s.trained a, s.trained (a + 1) with
    | true, true => some (if left (a + 1) > left a then a + 1 else a)
    | true, false => some a
    | false, true => some (a + 1)
    | false, false => none

/-- Charges admission has counted against a stack. -/
def chargesAt (others : List Model) (x : Place) (site : Nat) : Nat :=
  sumN ((others.flatMap Model.lanes ++ x.lanes).map fun (r : LaneRes) => if r.site = site then r.kb else 0)

/-- Places one bound lane (R455 rule 4, R362). -/
def State.placeLane (s : State) (others : List Model) (plans : List (List Byte)) (x : Place) (l : Nat) : Place :=
  match s.lanePlan l plans with
  | none => x
  | some pl =>
    let half := s.laneHalf l
    let left := fun (n : Nat) => s.stackD n - chargesAt others x n
    let kb := s.laneCharge l pl
    let ev := pocketRound (16 * leAt pl 0x18 4) / 65536
    let run := if ev = 0 then some 0 else s.granuleRun others x half ev
    let gs := match run with
      | some g => rangeFrom g ev
      | none => []
    let x := if run.isNone then x.short 2 (ev * 65536) else { x with pocket := x.pocket ++ gs }
    match s.siteFor half left with
    | none => (x.short 3 (hbmRound (s.dataBytes l) + hbmRound (s.ringBytes l) + hbmRound (s.reuseBytes l pl))).short 4 kb
    | some site =>
      let x := x.short 4 (kb - left site)
      let (data, x) := takeHbm others x site (s.dataBytes l)
      let (ring, x) := takeHbm others x site (s.ringBytes l)
      let (reuse, x) := takeHbm others x site (s.reuseBytes l pl)
      let r : LaneRes := { lane := l, site := site, kb := kb, data := data, ring := ring, reuse := reuse, evGran := gs }
      { x with lanes := x.lanes ++ [r] }

/-- Places model-wide memory (R455 rule 5): one HBM area, the save areas, and Pocket granules. -/
def State.placeWide (s : State) (others : List Model) (demand prof : List Nat) (x : Place) : Place :=
  let low := (x.units.map TaskUnit.scull).foldl min 16
  let half := if low = 16 then 0 else low / 8
  let sites := if s.get Fld.GLB_VARIANT_STACK_FIT 0 = 1 then [0] else [2 * half, 2 * half + 1]
  let site := match sites.filter (fun n => s.trained n && !s.pinnedOff (57 + n)) with
    | [a, b] => if hbmFree others x b > hbmFree others x a then b else a
    | [a] => a
    | _ => 4
  let place := fun (x : Place) (n : Nat) => if site = 4 then (0, x.short 3 (hbmRound n)) else takeHbm others x site n
  let (area, x) := place x (prof.getD 3 0)
  let (save, x) := place x (demand.getD 12 0)
  let n := pocketRound (prof.getD 2 0) / 65536
  let free := ((rangeFrom (512 * half) 512).filter (s.granuleFree others x)).take n
  let x := x.short 2 ((n - free.length) * 65536)
  { x with area := area, save := save, pocket := x.pocket ++ free }

/-- The whole placement of a profile (R455); lane areas are placed in the rank order of R344 (log entry 32). -/
def State.placeAll (s : State) (part id : Nat) (img prof : List Byte) (without : Option Nat) : Place :=
  let others := s.otherModels without
  let lanes := s.lanesBound part id
  let tasks := profTasks img prof
  let plans := mimPlans img
  let uses := s.taskUses lanes tasks plans
  let x : Place := { miss := vecOf 0 0 }
  let x := (groupUses uses.length uses).foldl (s.placeUnit part others) x
  let x := (profPops img prof).foldl (s.placePop others (profBlob img prof)) x
  let x := (s.rankOrder lanes).foldl (s.placeLane others plans) x
  let x := s.placeWide others (s.demandOf part id img prof) (vectorOf prof) x
  let want := (vectorOf prof).getD 11 0
  let cs := (s.freeCtxs part others).take want
  { (x.short 11 (want - cs.length)) with ctxs := cs }

/-- The shortfall of a profile (R454, R457), with its placement. -/
def State.shortOf (s : State) (part id : Nat) (img prof : List Byte) (without : Option Nat) : List Nat × Place :=
  let d := s.demandOf part id img prof
  let x := s.placeAll part id img prof without
  let q := s.quotaOf part
  let u := s.usedBy part without
  let f := s.deviceFree part without
  let short := (List.range 16).map fun k =>
    let avail := min (q.getD k 0 - u.getD k 0) (f.getD k 0)
    if 14 ≤ k then 0 else max (d.getD k 0 - avail) (x.miss.getD k 0)
  (short, x)

end Sys2Proof.Machine
end

