-- ==== Sys2Proof/Machine/ModelOps.lean ====
section
/-!
DEFINITION. Loading, replacing and unloading models (R453 to R468), lane admission (R344), and binding tasks.
-/
namespace Sys2Proof.Machine

/-! ### Ownership tables (R184) -/

/-- The ownership keys an HBM allocation touches. -/
def hbmKeys (a : Nat × Nat) : List Nat :=
  let off := a.1 % 0x400000000
  let g := off / 0x4000000
  (rangeFrom g ((off + a.2 - 1) / 0x4000000 + 1 - g)).map fun k => 2 ^ 24 + a.1 / 0x400000000 * 2 ^ 16 + k

/-- The ownership key of a Pocket granule (Pocket × 32 + granule). -/
def granKey (g : Nat) : Nat := g / 32 * 65536 + g % 32

/-- The ownership keys of a model's memory. -/
def Model.keys (m : Model) : List Nat := m.hbm.flatMap hbmKeys ++ m.pocket.map granKey

/-- Removes every cached copy of the lines of granules about to be withdrawn, writing back what is held in M (R184). -/
def State.recall (s : State) (p : Nat → Bool) : State :=
  ((s.coh.dir.map (·.1)).filter fun l => p (l * 64)).foldl State.recallLine s

/-- Sets the masks of ownership keys to what the loaded models hold (R184). -/
def State.relineKeys (s : State) (ks : List Nat) : State :=
  let ms := s.otherModels none
  let mask := fun (k : Nat) => (List.range 8).foldl (fun a p =>
    if ms.any fun (m : Model) => m.part = p && m.keys.contains k then a + 2 ^ p + 2 ^ (8 + p) else a) 0
  { s with xlu := { s.xlu with lining := ks.foldl (fun t k => Tbl.set 0 t k (mask k)) s.xlu.lining } }

/-! ### Registers -/

/-- Shows the admission queue (Table 11.9). -/
def State.showMdl (s : State) : State :=
  (s.put Fld.MDL_STATUS_BUSY 0 (b2n s.mdl.cur.isSome)).put Fld.MDL_STATUS_QUEUED 0 s.mdl.queue.length

/-- Puts a model in a slot and shows it (Table 11.9). -/
def State.setModel (s : State) (slot : Nat) (m : Option Model) : State :=
  let s := { s with mdl := { s.mdl with models := Tbl.set none s.mdl.models slot m } }
  match m with
  | some x =>
    let s := ((s.put Fld.MDL_ID_ID slot x.id).put Fld.MDL_REV_REV slot x.rev).put Fld.MDL_STATE_STATE slot x.st
    (s.put Fld.MDL_STATE_PROFILE slot x.prof).put Fld.MDL_STATE_PART slot x.part
  | none =>
    let s := ((s.put Fld.MDL_ID_ID slot 0).put Fld.MDL_REV_REV slot 0).put Fld.MDL_STATE_STATE slot 0
    (s.put Fld.MDL_STATE_PROFILE slot 0).put Fld.MDL_STATE_PART slot 0

/-- The model in a slot. -/
def State.model (s : State) (slot : Nat) : Option Model := Tbl.get none s.mdl.models slot

/-- The slot of a loaded MODEL_ID. -/
def State.slotOf (s : State) (id : Nat) : Option Nat :=
  s.mdl.models.findSome? fun kv => match kv.2 with
    | some m => if m.id = id then some kv.1 else none
    | none => none

/-- Notes a partition's last request (Table 11.9): status, check code, profile, slot, populations carried, MODEL_ID. -/
def State.mdlLast (s : State) (p : Nat) (l : List Nat) : State :=
  { s with mdl := { s.mdl with last := Tbl.set [] s.mdl.last p l } }

/-! ### Lanes -/

/-- The ring records of a lane: its entry ring's, and its event ring's 128 bytes on, in the Cox reserve of its home half (log entry 31). -/
def State.laneRec (s : State) (l : Nat) : Nat := 0x01000000000 + s.laneHalf l * 0x2000000 + 0x8000 + l * 256

/-- Writes a ring record (R260). -/
def State.ringInit (s : State) (r base size prod cons : Nat) : State :=
  s.writeBytes r (leBytes 8 base ++ leBytes 8 size ++ leBytes 2 prod ++ leBytes 2 cons ++ List.replicate 108 0)

/-- The endpoint code of what produces a lane's entry ring (R260). -/
def State.laneProducer (s : State) (l : Nat) : Nat :=
  if s.laneKind l = 1 then 0x132 + s.laneHalf l else 0x13C + 3 * s.laneField l 4 1

/-- Gives a lane its areas and its event ring (R325, R362, Table 11.7 step 4). -/
def State.setAreas (s : State) (l : Nat) (r : LaneRes) (ev : Nat) : State :=
  let rc := s.laneRec l
  let x := s.lane l
  let x := { x with data := r.data, slotLen := s.slotSize l, depth := s.laneDepth l, ring := rc, base := r.ring, site := r.site, kb := r.kb,
                    reuse := r.reuse, entries := [], held := none, allNext := true }
  let s := (s.setLane l x).ringInit rc r.ring 4096 (s.laneProducer l) 0xFFFF
  let s := { s with reuse := Tbl.set {} s.reuse l {} }
  let s := (s.put Fld.LANE_CFG_SITE l r.site).put Fld.LANE_CHARGE_MBPS l ((r.kb + 999) / 1000)
  match r.evGran with
  | [] => s.setLrn l { s.lrnLane l with ring := 0, engine := s.laneHalf l }
  | g :: _ =>
    (s.ringInit (rc + 128) (0x01000000000 + g * 0x10000) (16 * ev) 0xFFFF (0x130 + s.laneHalf l)).setLrn l
      { s.lrnLane l with ring := rc + 128, engine := s.laneHalf l }

/-- A sensor lane's plug-detect pin (Table 13.1). -/
def State.plugPin (s : State) (l : Nat) : Option Nat :=
  (List.range 24).find? fun n => s.get Fld.PNL_PIN_CFG_FUNC n = 3 && s.get Fld.PNL_PIN_CFG_ARG n = l

/-- The serial a lane accepts: the last accepted one, else NODE_SERIAL (R335, R541). -/
def State.laneSerial (s : State) (l : Nat) : Nat :=
  if s.get Fld.LANE_NODE_SERIAL_SERIAL l ≠ 0 then s.get Fld.LANE_NODE_SERIAL_SERIAL l else s.laneField l 0x120 8

/-- Freezes or unfreezes the populations of a lane (R392) and shows it. -/
def State.freezeLane (s : State) (l : Nat) (on : Bool) : State :=
  let s := [0, 1].foldl (fun s h => (s.leng h).pops.foldl (fun s kv => match kv.2 with
    | some p => if p.f 0x0E 1 = l then s.setPop h kv.1 (some { p with laneFrozen := on }) else s
    | none => s) s) s
  s.put Fld.LRN_NOV_STATE_LEARN_FROZEN l (b2n on)

/-- A lane becomes ABSENT (R539, R541): learning frozen, one SENSOR_ABSENT record; an incomplete block is discarded, and what a node sends
meanwhile is not counted (R540). -/
def State.makeAbsent (s : State) (l : Nat) : State :=
  let x := s.lane l
  let nd : NodeSt := { x.node with start := none, samples := [], next := if s.laneKind l = 3 then x.node.next else none }
  let s := (s.setLane l { x with absentAt := s.dev, waiting := false, node := nd }).setLrn l { s.lrnLane l with absentAt := some s.dev }
  ((s.putLaneState l 5).freezeLane l true).emitReport l
    { kind := 5, devTime := s.dev, tflags := s.timeFlags, detail := leBytes 8 (s.laneSerial l) }

/-- Selects the first listed lane from `l` on, wrapping (R532, R533). -/
def State.listed (s : State) : List Nat :=
  (List.range 64).filter fun l => bit (s.get Fld.LANE_REPORT_MASK_MASK l) 5 && s.laneAdmitted l

/-- The selected lane, if one is (R533). -/
def State.selected (s : State) : Option Nat := if s.flag Fld.PNL_SEL_NONE 0 then none else some (s.get Fld.PNL_SEL_LANE 0)

/-- Selects a lane; a change starts the 2 s number display (R536). -/
def State.select (s : State) (l : Nat) : State :=
  let changed := s.selected ≠ some l
  let s := (s.put Fld.PNL_SEL_LANE 0 l).put Fld.PNL_SEL_NONE 0 0
  if changed then { s with pnl := { s.pnl with showUntil := s.now + 2000000000 } } else s

/-- Keeps the selection on a listed lane (R533): a lane that left the list gives way to the next higher one, wrapping. -/
def State.keepSelection (s : State) : State :=
  match s.selected with
  | none => s
  | some l =>
    let ls := s.listed
    if ls.contains l then s
    else match ls.find? fun k => decide (l < k) with
      | some k => s.select k
      | none => match ls with
        | k :: _ => s.select k
        | [] => (s.put Fld.PNL_SEL_LANE 0 0).put Fld.PNL_SEL_NONE 0 1

/-- A lane's reservation is released, and the model uses so much less (R454, R456). -/
def State.dropReserve (s : State) (l : Nat) : State :=
  match s.laneModel l with
  | none => s
  | some slot => match s.model slot with
    | none => s
    | some m =>
      let rs := m.lanes.filter fun (r : LaneRes) => r.lane = l
      let gone := rs.flatMap fun (r : LaneRes) => [r.data, r.ring, r.reuse]
      let gs := rs.flatMap LaneRes.evGran
      let keep := m.hbm.filter fun a => !gone.contains a.1
      let hbm := sumN ((m.hbm.filter fun a => gone.contains a.1).map (·.2))
      let back := vecAdd (vecAdd (vecOf 2 (gs.length * 65536)) (vecOf 3 hbm)) (vecOf 4 (sumN (rs.map LaneRes.kb)))
      let left := (List.range 16).map fun i => m.demand.getD i 0 - back.getD i 0
      let m' : Model := { m with demand := left, lanes := m.lanes.filter (fun (r : LaneRes) => r.lane ≠ l), hbm := keep,
                                 pocket := m.pocket.filter fun g => !gs.contains g }
      let ks := m.keys
      (s.setModel slot (some m')).relineKeys ks

/-- A lane shows REFUSED at a check and holds nothing (R344). -/
def State.unadmit (s : State) (l check : Nat) : State :=
  let s := (s.setLane l {}).setLrn l { s.lrnLane l with ring := 0 }
  let s := ((s.put Fld.LANE_STATUS_SHED l 0).put Fld.LANE_STATUS_REFUSE_CHECK l check).put Fld.LANE_CHARGE_MBPS l 0
  (s.putLaneState l 2).keepSelection

/-- A lane is refused (R344); at start-up the record is contained, later corrected (R669). -/
def State.refuseLane (s : State) (l check : Nat) (boot : Bool) : State :=
  ((s.dropReserve l).unadmit l check).record
    { cls := b2n boot, status := stREFUSED, part := s.lanePart l, block := 0x10, infoKind := 6, info := check, lane := some l }

/-- The decode load of a camera lane in thousandths of a pixel/s (R40, R344 check 3). -/
def State.decodeLoad (s : State) (l : Nat) : Nat := s.laneField l 0x66 2 * s.laneField l 0x68 2 * s.laneField l 0x70 4

/-- COUNT of a node's CONFIG (R332). -/
def State.nodeCount (s : State) (l : Nat) : Nat := 1468 / (3 * max 1 (s.laneField l 0x111 1))

/-- A T1S lane's wire load in bit/s, rounded up (R344 check 4). -/
def State.wireLoad (s : State) (l : Nat) : Nat :=
  let c := max 1 (s.nodeCount l)
  (s.laneField l 0x114 4 * (70 + 3 * s.laneField l 0x111 1 * c) * 8 + c - 1) / c

/-- Whether two lanes have the same match key (R344 check 2). -/
def State.sameKey (s : State) (a b : Nat) : Bool :=
  let f := fun (off n : Nat) => s.laneField a off n = s.laneField b off n
  let k := s.laneKind a
  let bytes := fun (l off : Nat) => ((Tbl.get [] s.boot.lanes l).drop off).take 16
  k = s.laneKind b && f 4 1 && f 5 1 &&
    (if k = 1 then f 0x64 2 && bytes a 0x50 = bytes b 0x50 && bytes a 0x40 = bytes b 0x40 &&
        bit (s.laneField a 6 2) 0 = bit (s.laneField b 6 2) 0 && (bit (s.laneField a 6 2) 0 || f 0x6C 4)
      else if k = 2 then f 0x110 1 else true)

/-- The power domains a lane's source needs (Table 7.3). -/
def State.laneDomains (s : State) (l : Nat) : List Nat :=
  let die := s.laneField l 4 1
  if s.laneKind l = 1 then [62 + 3 * die, 52 + s.laneHalf l] else [63 + 3 * die]

/-- Charges of the admitted lanes of a stack (R344 check 5). -/
def State.admittedCharge (s : State) (site : Nat) : Nat :=
  sumN ((List.range 64).map fun l => if s.laneAdmitted l ∧ (s.lane l).site = site then (s.lane l).kb else 0)

/-- Twice the demand on a stack in kB/s: each admitted lane's charge in full at FULL, half at HALF, 0 at STOP (R347). -/
def State.stackDemand2 (s : State) (site : Nat) : Nat :=
  sumN ((List.range 64).map fun l =>
    if s.laneAdmitted l ∧ (s.lane l).site = site then (2 - s.get Fld.LANE_STATUS_SHED l) * (s.lane l).kb else 0)

/-- The failed check of a lane's admission, 0 when none fails (R344). -/
def State.laneCheck (s : State) (l : Nat) : Nat :=
  let slot := s.slotOf (s.laneField l 8 4)
  let m : Option Model := match slot with
    | some k => s.model k
    | none => none
  let others := (List.range 64).filter fun k => k ≠ l && s.laneAdmitted k
  match m with
  | none => 1
  | some m =>
    if m.part ≠ s.lanePart l ∨ (s.lanePlan l m.plans).isNone then 1
    else if others.any fun k => s.sameKey l k then 2
    else if s.laneKind l = 1 ∧
        1500000000000 < s.decodeLoad l + sumN ((others.filter fun k => s.laneKind k = 1 && s.laneField k 4 1 = s.laneField l 4 1).map s.decodeLoad) then 3
    else if s.laneKind l = 2 ∧
        8000000 < s.wireLoad l + sumN ((others.filter fun k =>
          s.laneKind k = 2 && s.laneField k 4 1 = s.laneField l 4 1 && s.laneField k 5 1 = s.laneField l 5 1).map s.wireLoad) then 4
    else match m.lanes.find? fun (r : LaneRes) => r.lane = l with
      | none => 5
      | some r => if !s.trained r.site ∨ s.stackD r.site < s.admittedCharge r.site + r.kb then 5 else 0

/-- Starts an admitted lane: RUNNING, or ABSENT where its connector reads unplugged (R541); intervals begin (R351). -/
def State.startLane (s : State) (l : Nat) : State :=
  let x := s.lane l
  let s := s.setLane l { x with writes := true, gapStart := s.dev, lastAt := s.dev, coefAt := s.dev }
  let s := (s.put Fld.LANE_STATUS_REFUSE_CHECK l 0).put Fld.LRN_SCORE_S l 0
  let s := (s.laneDomains l).foldl State.wake s
  let s := s.putLaneState l 3
  let unplugged := match s.plugPin l with
    | some n => !bit (s.get Fld.PNL_PLUGGED_PLUGGED 0) n
    | none => false
  if unplugged then s.makeAbsent l else s

/-- Admits a lane (R344). -/
def State.admitLane (s : State) (l : Nat) (boot : Bool) : State :=
  let c := s.laneCheck l
  if c ≠ 0 then s.refuseLane l c boot
  else
    let m : Option Model := match s.laneModel l with
      | some k => s.model k
      | none => none
    match m with
    | none => s.refuseLane l 1 boot
    | some m => match m.lanes.find? fun (r : LaneRes) => r.lane = l with
      | none => s.refuseLane l 5 boot
      | some r =>
        let ev := ((s.lanePlan l m.plans).map fun p => leAt p 0x18 4).getD 0
        ((s.setLane l {}).setAreas l r ev).startLane l

/-! ### Binding tasks -/

/-- Merges an ascending list of (address, bytes) into runs. -/
def mergeRuns : List (Nat × Nat) → List (Nat × Nat)
  | [] => []
  | (a, n) :: t => match mergeRuns t with
    | (b, k) :: u => if a + n = b then (a, n + k) :: u else (a, n) :: (b, k) :: u
    | [] => [(a, n)]

/-- The runs of memory a model holds, in address order: its contexts see them at their own addresses (log entry 33). -/
def Model.runs (m : Model) : List (Nat × Nat) :=
  let l := m.hbm ++ m.pocket.map fun g => (0x01000000000 + g * 0x10000, 0x10000)
  (mergeRuns (l.mergeSort fun a b => decide (a.1 ≤ b.1))).take 256

/-- The bytes of a stage-1 structure in the range format (Table 5.4). -/
def rangeBytes (pkg : Nat) (rs : List (Nat × Nat)) : List Byte :=
  rs.flatMap fun r => leBytes 8 (pkg + r.1) ++ leBytes 8 r.2 ++ leBytes 8 (pkg + r.1) ++ leBytes 1 31 ++ List.replicate 7 0

/-- The offset of each task entry's code in the model-wide area, after 8 KiB for the stage-1 structure (log entry 33). -/
def codeOffsets (tasks : List (List Byte)) : List Nat :=
  (tasks.foldl (fun (acc : List Nat × Nat) e => (acc.1 ++ [acc.2], acc.2 + roundUp (leAt e 0x20 4) 64)) ([], 8192)).1

/-- Where the code of a model ends in its area: task records and slot tables follow (log entry 33). -/
def codeEnd (tasks : List (List Byte)) : Nat := 8192 + sumN (tasks.map fun e => roundUp (leAt e 0x20 4) 64)

/-- The image of the model-wide area: structure, then each entry's code. -/
def areaBytes (pkg : Nat) (m : Model) : List Byte :=
  let st := rangeBytes pkg m.runs
  let code := m.tasks.flatMap fun e =>
    let n := leAt e 0x20 4
    slice m.blob (leAt e 0x1C 4) n ++ List.replicate (roundUp n 64 - n) 0
  st ++ List.replicate (8192 - st.length) 0 ++ code

/-- The bytes of a task record (Table 6.5). -/
def Task.bytes (t : Task) : List Byte :=
  leBytes 2 t.id ++ leBytes 1 t.lane ++ leBytes 1 t.cls ++ leBytes 1 t.prio ++ leBytes 1 t.nIn ++ leBytes 1 t.nOut ++ leBytes 1 t.ctx ++
  leBytes 4 t.deadlineNs ++ leBytes 4 t.envelope ++ leBytes 8 t.code ++ leBytes 8 t.save ++ leBytes 4 t.saveLen ++ leBytes 4 0 ++
  leBytes 8 t.slots ++ leBytes 16 0

/-- Writes a task's record where admission put it (R239). -/
def State.putRecord (s : State) (t : Task) : State := if t.recAt = 0 then s else s.writeBytes t.recAt t.bytes

/-- Whether a ring record is one of a lane's own, which the lane's admission writes (R325, R362). -/
def State.laneRing (s : State) (r : Nat) : Bool := (List.range 64).any fun l => r = s.laneRec l || r = s.laneRec l + 128

/-- Writes the record of a task's ring (R260): BASE, SIZE and the other end as the slot template names them, 0xFFFF for the task's own end. -/
def State.slotRing (s : State) (r base size prod cons : Nat) : State := if s.laneRing r then s else s.ringInit r base size prod cons

/-- The lowest TASK_ID unused on a Scull (log entry 33). -/
def State.freeTask (s : State) (n : Nat) : Nat :=
  match (List.range 1024).find? fun i => (s.task (taskKey n i)).isNone with
  | some i => i
  | none => 1024

/-- The class, priority and deadline of a task of a lane, or of a model-wide task, whose class and priority the spec does not state (free). -/
def State.taskRank (s : State) (lane : Nat) : (Nat × Nat) × State :=
  if lane < 64 then ((s.laneField lane 1 1, s.laneField lane 2 1), s)
  else
    let (c, s) := s.takeFree
    let (p, s) := s.takeFree
    ((c % 3, p % 256), s)

/-- The contexts a model's tasks run in: its own, or its partition's lowest where its profile asks for none (R179; log entry 33). -/
def State.modelCtxs (s : State) (m : Model) : List Nat := if m.ctxs = [] then (s.ctxsOf m.part).take 1 else m.ctxs

/-- Bytes of a task's record and slot table. -/
def recordBytes (entry : List Byte) : Nat := 64 + 32 * (leAt entry 0x18 1 + leAt entry 0x19 1)

/-- Binds one task of a model on a Scull; `k` is its place among the model's tasks, `save` and `table` the places of its save area, and of its record with
its slot table (0 where the model has no area), in the model's memory (R239, R260, Table 11.7 steps 4 and 6; log entry 33). -/
def State.bindTask (s : State) (slot : Nat) (m : Model) (scull idx lane k save table : Nat) : State :=
  let e := m.tasks.getD idx []
  let id := s.freeTask scull
  let ((cls, prio), s) := s.taskRank lane
  let pkg := s.get Fld.GLB_PKG_ID_PKG_ID 0 * 2 ^ 44
  let area := m.area
  let nIn := leAt e 0x18 1
  let nOut := leAt e 0x19 1
  let slots := leAt e 0x24 4
  let ent := fun (i : Nat) => leNat (slice m.blob (slots + 32 * i) 32)
  let fld := fun (i f : Nat) => Config.slotField (ent i) lane area f
  let dl := leAt e 0x14 4
  let cs := s.modelCtxs m
  let ctx := cs.getD (k % cs.length) 0
  let t : Task :=
    { id := id, lane := if lane < 64 then lane else 255, cls := cls, prio := prio, nIn := nIn, nOut := nOut, ctx := ctx,
      deadlineNs := if dl ≠ 0 then dl else if lane < 64 then s.laneDeadline lane else 0,
      envelope := leAt e 0x10 4, saveLen := leAt e 0xC 4, code := pkg + area + (codeOffsets m.tasks).getD idx 0, save := pkg + save,
      part := m.part, model := slot, runs := (s.lane lane).pubs,
      recAt := if table = 0 then 0 else pkg + table, slots := if table = 0 then 0 else pkg + table + 64,
      ins := (List.range nIn).map fun i => (fld i 0, fld i 1),
      outs := (List.range nOut).map fun i => (fld (nIn + i) 0, fld (nIn + i) 1, decide (fld (nIn + i) 2 % 2 = 1)) }
  let s := (List.range nIn).foldl (fun s i => s.slotRing (fld i 0) (fld i 3) (fld i 4) (fld i 5) 0xFFFF) s
  let s := (List.range nOut).foldl (fun s i =>
    let j := nIn + i
    if fld j 2 % 2 = 1 then s else s.slotRing (fld j 0) (fld j 3) (fld j 4) 0xFFFF (fld j 6)) s
  let s := if table = 0 then s
    else s.writeBytes t.slots ((List.range (nIn + nOut)).flatMap fun i => (List.range 32).map fun b => BitVec.ofNat 8 (fld i (8 + b)))
  (s.setTask (taskKey scull id) t).putRecord t

/-- Binds every task of a model (Table 11.7 step 6): contexts go ACTIVE, tile entries follow. -/
def State.bindModel (s : State) (slot : Nat) (m : Model) : State :=
  let all := m.units.flatMap fun (u : TaskUnit) => u.tasks.map fun t => (u.scull, t.1, t.2)
  let saveAt := m.save
  let table0 := m.area + codeEnd m.tasks
  let step := fun (acc : State × Nat × Nat × Nat) (t : Nat × Nat × Nat) =>
    let e := m.tasks.getD t.2.1 []
    let at_ := if m.area = 0 then 0 else table0 + acc.2.2.2
    (acc.1.bindTask slot m t.1 t.2.1 t.2.2 acc.2.1 (saveAt + acc.2.2.1) at_, acc.2.1 + 1, acc.2.2.1 + roundUp (leAt e 0xC 4) 64,
      acc.2.2.2 + recordBytes e)
  let s := (all.foldl step (s, 0, 0, 0)).1
  let s := ((s.modelCtxs m).foldl State.showCtx s).relineTiles
  (List.range 16).foldl State.showScull s

/-! ### Releasing a model -/

/-- Ends the fault entries and misses of contexts with ABORTED (R461, R578). -/
def State.abortFaults (s : State) (cs : List Nat) : State :=
  let fs := s.xlu.faults.filter fun (f : FaultRec) => f.st = 0 && cs.contains f.ctx
  let end_ := fun (f : FaultRec) => if f.st = 0 ∧ cs.contains f.ctx then { f with st := 2, waiters := [] } else f
  let held := s.xlu.misses.filter fun (m : Miss) => cs.contains m.ctx
  let s := { s with xlu := { s.xlu with faults := s.xlu.faults.map end_, misses := s.xlu.misses.filter fun (m : Miss) => !cs.contains m.ctx } }
  let s := fs.foldl (fun s (f : FaultRec) => f.waiters.foldl (fun s (m : Miss) => s.endWork m stABORTED) s) s
  let s := held.foldl (fun s (m : Miss) => s.endWork m stABORTED) s
  cs.foldl (fun s c => ((s.showFaults c).showHeld (s.ctxPart c)).showHeld 0) s

/-- Unbinds a model's tasks: transfers end ABORTED, contexts go IDLE, tile entries follow (Table 11.8 step 3). -/
def State.unbindModel (s : State) (slot : Nat) (m : Model) : State :=
  let s := (s.abortFaults m.ctxs).failSlides (fun x => m.ctxs.contains x.ctx && (x.st = 1 || x.st = 2 || x.st = 3)) stABORTED
  let s := s.keepTasks fun t => t.model ≠ slot
  let s := ((s.modelCtxs m).foldl State.showCtx s).relineTiles
  (List.range 16).foldl State.showScull s

/-- Whether a population of a model is among the carried ones. -/
def carriedPop (carried : List (Nat × Nat)) (h no : Nat) : Bool := carried.any fun c => c.1 = h && c.2 = no

/-- Releases a model (Table 11.8 steps 1 to 5, R465): checkpoints end, published events are taken, tasks unbound, populations but the carried
ones dropped, memory withdrawn. -/
def State.freeModel (s : State) (slot : Nat) (carried : List (Nat × Nat)) : State :=
  match s.model slot with
  | none => s
  | some m =>
    let mine := fun (h no : Nat) => m.pops.any fun x => x.1 = h && x.2.1 = no
    let s := (s.abortPops 0 (mine 0)).abortPops 1 (mine 1)
    let s := s.unbindModel slot m
    let s := (m.lanes.map LaneRes.lane).foldl State.leDrain s
    let s := m.pops.foldl (fun s x => if carriedPop carried x.1 x.2.1 then s
      else
        let n := 64 * x.1 + x.2.1
        let s := s.dropPop x.1 x.2.1
        let s := ((s.put Fld.BH_POP_STATUS_STATE n 0).put Fld.BH_POP_STATUS_RESULT n 0).put Fld.BH_POP_STATUS_DIRTY n 0
        let s := (s.put Fld.BH_POP_STATUS_TEACH_LOST n 0).put Fld.BH_POP_STATUS_SUSPENDED n 0
        s.setBank x.1 { s.bnk x.1 with committed := Tbl.set none (s.bnk x.1).committed n none }) s
    let ks := m.keys
    let gone := fun (a : Nat) => match liningKey (localRegion (localOff a)) (localOff a) with
      | some k => ks.contains k
      | none => false
    let s := s.recall gone
    let s := if carried = [] then [0, 1].foldl (fun s h => s.setLe h { s.leng h with time := Tbl.set 0 (s.leng h).time slot 0 }) s else s
    (s.setModel slot none).relineKeys ks

end Sys2Proof.Machine
end

