-- ==== Sys2Proof/Machine/Admission.lean ====
section
/-!
DEFINITION. The admission queue: loads, replacements and unloads from request to completion (R453, R454, R457 to R468, Tables 11.7, 11.8).
-/
namespace Sys2Proof.Machine

/-- The domains a model needs switched on (Table 11.7 step 2). -/
def Model.domains (m : Model) : List Nat :=
  let kept := m.pops.filter fun (x : Nat × Nat × List Byte) => modeKeeps (leAt (popDesc m.blob x.2.2) 3 1 / 64)
  (m.units.map TaskUnit.scull ++ m.pocket.map (fun g => 16 + g / 32) ++ m.hbm.map (fun (a : Nat × Nat) => 57 + a.1 / 0x400000000) ++ m.pops.map (fun (x : Nat × Nat × List Byte) => 50 + x.1) ++
    kept.map fun (x : Nat × Nat × List Byte) => 54 + x.1).dedup

/-- With the Yoke and the Seam their traffic needs (Table 7.3). -/
def withPaths (ds : List Nat) : List Nat :=
  (ds ++ ds.filterMap yokeOf ++ (if ds.any beyondSeam then [56] else [])).dedup

/-- The result bytes of a load or replacement (Table 12.10). -/
def admitResult (id prof slot check carried : Nat) : List Byte :=
  leBytes 4 id ++ leBytes 1 prof ++ leBytes 1 slot ++ leBytes 1 check ++ leBytes 1 carried

/-- Ends the request in progress: MDL_LAST, the mailbox completion. -/
def State.endAdmit (s : State) (r : AdmitReq) (status check prof slot carried id : Nat) : State :=
  let s := { s with mdl := { s.mdl with cur := none } }
  let s := (s.mdlLast r.part [status, check, prof, slot, carried, id]).showMdl
  s.mbEndFor r.fn status (if r.kind = 3 then leBytes 4 id else admitResult id prof slot check carried)

/-- A request answered without effect (R460, R466): DENIED or CONFLICT; a DENIED image writes one record. -/
def State.denyAdmit (s : State) (r : AdmitReq) (status check : Nat) : State :=
  let s := if check ≠ 0 then
      s.record { cls := 0, status := stDENIED, part := r.part, block := 0x15, infoKind := 6, info := check }
    else s
  s.endAdmit r status check 0 0 0 r.id

/-- Emits MODEL_CHANGE for a lane (Tables 11.8, 12.2). -/
def State.modelChange (s : State) (l old prof carried : Nat) : State :=
  s.emitReport l { kind := 7, devTime := s.dev, tflags := s.timeFlags, detail := leBytes 4 old ++ leBytes 1 prof ++ leBytes 1 carried }

/-- Bound lanes (R451) left without their model: REFUSED at check 1, one MODEL_CHANGE each (R465, R467). -/
def State.orphanLanes (s : State) (ls : List Nat) (old : Nat) : State :=
  ls.foldl (fun s l => (s.unadmit l 1).modelChange l old 0 0) s

/-- Releases committed slots that match no admitted population, in ascending SEQ, until a bank's pool can hold its populations' two slots (R432). -/
def State.makeRoom (s : State) (b : Nat) : State :=
  let mine := (s.bnk b).committed.filterMap fun kv => kv.2
  let need := sumN ((s.keptPops b).map fun x => 2 * x.2)
  let x := s.bnk b
  let moving := sumN (x.writing.map fun (w : SlotWrite) => w.blocks.length) + (match x.cur with
    | some r => r.blocks.length
    | none => 0)
  let used := sumN (mine.map fun o => o.1.length) + moving
  let rs := (s.logRecords b).filter fun r => leAt r 8 1 = 1
  let keys := (rs.map logKey).dedup
  let heads := (keys.filterMap fun k => (s.commits b k).head?).filter fun r => !(mine.any fun o => o.2 = leAt r 4 4)
  let order := heads.mergeSort fun a c => decide (leAt a 4 4 ≤ leAt c 4 4)
  order.foldl (fun s r =>
    if need ≤ (s.poolFree b).length + used then s
    else
      let sig := (r.drop 16).take 16
      let ks := s.slotBlocksAt b (leAt r 12 1)
      let s := (s.logRecord b 2 (leAt r 10 1) (leAt r 11 1) (leAt r 12 1) sig s.dev 0).freeBlocks b ks
      s.record { cls := 1, status := stABORTED, unit := 0x34 + b, block := 0x14, infoKind := 8, info := leAt r 4 4 }) s

/-- Loads one population (Table 11.7 step 5, R429 to R432, R462). At start-up the population that LRN_POP_SEL selects takes FREEZE as the layers
left it (R11, R392). -/
def State.loadOne (s : State) (slot : Nat) (m : Model) (carried : List (Nat × Nat)) (boot : Bool) (x : Nat × Nat × List Byte) : State :=
  let h := x.1
  let no := x.2.1
  let n := 64 * h + no
  let p := popOfEntry m.blob x.2.2 m.part slot
  let keeps := modeKeeps p.mode
  let img := popSnap m.blob x.2.2
  let s := s.put Fld.BH_POP_STATUS_SLOT_BLOCKS n (if keeps then slotBlocks (p.f 8 4) p.fastQuota else 0)
  let s :=
    if carriedPop carried h no then
      match s.pop h no with
      | some o => (s.setPop h no (some { p with evalAt := o.evalAt, freeze := o.freeze, laneFrozen := o.laneFrozen, dirty := o.dirty })).renormPop h p
      | none => s
    else
      let absent := p.f 0x0E 1 < 64 && s.laneState (p.f 0x0E 1) = 5
      let frozen := boot && s.flag Fld.LRN_POP_CTRL_FREEZE 0 && decide (s.get Fld.LRN_POP_SEL_ENGINE 0 = h) && decide (s.get Fld.LRN_POP_SEL_POP 0 = no)
      let s := s.setPop h no (some { p with evalAt := s.popTime h p, laneFrozen := absent, freeze := frozen })
      if boot ∧ keeps then s.restorePop h p img
      else
        let s := s.loadPop h p img true
        let s := s.put Fld.BH_POP_STATUS_RESULT n (if keeps then 3 else 0)
        match (if keeps then s.findImage h (h, no, p.part, p.sig) else none) with
        | some (_, _, ks, seq) => (s.holdSlot h n ks seq).lineBlocks h ks (2 ^ p.part + 256 * 2 ^ p.part)
        | none => s
  (s.renormPop h p).showLe h

/-- Sets up a context for a model (Table 11.7 step 4): the range format over the model's runs; nothing held of the structure before stays
(log entry 33). -/
def State.setCtx (s : State) (m : Model) (c : Nat) : State :=
  let pkg := s.get Fld.GLB_PKG_ID_PKG_ID 0 * 2 ^ 44
  let s := s.dropTlb fun (e : TlbEntry) => e.ctx = c
  let s := { s with xlu := { s.xlu with badCtx := NatSet.del s.xlu.badCtx c, segOk := NatSet.del s.xlu.segOk c } }
  ((s.put Fld.XLU_CTX_CFG_FORMAT c 3).put Fld.XLU_CTX_CFG_COUNT c m.runs.length).put Fld.XLU_CTX_S1_BASE_BASE c (pkg + m.area)

/-- After a replacement a bound lane that runs takes its new areas; score and novelty start anew for every bound lane, and each emits one
MODEL_CHANGE (Table 11.8 step 6, R463). -/
def State.relane (s : State) (m : Model) (l old prof carried : Nat) : State :=
  match m.lanes.find? fun (r : LaneRes) => r.lane = l with
  | none => (s.unadmit l 1).modelChange l old prof carried
  | some r =>
    let ev := ((s.lanePlan l m.plans).map fun p => leAt p 0x18 4).getD 0
    let runs := s.laneAdmitted l
    let s := if runs then s.setAreas l r ev else s.put Fld.LANE_CHARGE_MBPS l ((r.kb + 999) / 1000)
    let x := s.lrnLane l
    let s := s.setLrn l { x with sum := 0, count := 0, srcs := [], holdA := none, holdN := none, holdC := none, srcA := [], srcN := [], srcC := [] }
    let s := ((s.put Fld.LRN_SCORE_S l 0).put Fld.LRN_NOV_STATE_STATE l 0).put Fld.LRN_NOV_STATE_HOLDING l 0
    let s := s.modelChange l old prof carried
    if runs then s.setLane l { s.lane l with writes := true, allNext := true } else s

/-- Steps 3 to 7 of a load once its domains are on (Tables 11.7, 11.8); a replacement ends with its own step 6 in place of step 7. -/
def State.finishLoad (s : State) (ld : Loading) : State :=
  match s.model ld.slot with
  | none => s
  | some m =>
    let boot := ld.req.fn.isNone
    let pkg := s.get Fld.GLB_PKG_ID_PKG_ID 0 * 2 ^ 44
    let size := (m.hbm.find? fun a => a.1 = m.area).map (·.2)
    let s := if m.area = 0 then s else s.writeBytes (pkg + m.area) ((areaBytes pkg m).take (size.getD 0))
    let s := m.ctxs.foldl (fun s c => s.setCtx m c) s
    let s := m.pops.foldl (fun s x => s.loadOne ld.slot m ld.carried boot x) s
    let s := [0, 1].foldl State.makeRoom s
    let m' : Model := { m with st := 2 }
    let s := (s.setModel ld.slot (some m')).bindModel ld.slot m'
    let n := ld.carried.length
    let s := if ld.req.kind = 2 then
        (s.lanesBound m.part m.id).foldl (fun s l => s.relane m' l ld.oldId m.prof n) (s.bump Fld.MDL_REPLACE_CNT_CNT 0 1)
      else s
    let s := if boot ∨ ld.req.kind = 2 then s
      else (s.rankOrder ((s.lanesBound m.part m.id).filter fun l => s.laneState l = 2)).foldl (fun s l => s.admitLane l false) s
    s.endAdmit ld.req stOK 0 m.prof ld.slot n m.id

/-- The load in progress ends ABORTED and releases everything (R467). -/
def State.abortLoad (s : State) (status : Nat) : State :=
  match s.mdl.cur with
  | none => s
  | some ld =>
    let ls := s.lanesBound ld.req.part ld.req.id
    let s := s.freeModel ld.slot []
    let s := if ld.req.kind = 2 then s.orphanLanes ls ld.oldId else s
    (s.record { cls := 1, status := status, part := ld.req.part, block := 0x15, infoKind := 6, info := ld.slot * 256 }).endAdmit ld.req status 0 0 ld.slot
      0 ld.req.id

/-- Goes on with the load in progress where its domains are on. -/
def State.pumpLoad (s : State) : State :=
  match s.mdl.cur with
  | none => s
  | some ld => match s.model ld.slot with
    | none => s
    | some m => if !s.err.coxHalted && (withPaths m.domains).all s.domOn then s.finishLoad ld else s

/-- The populations of the old model that the new profile carries over (R462). -/
def State.carriedOver (s : State) (old : Model) (blob : List Byte) (pops : List (List Byte)) : List (Nat × Nat) :=
  pops.filterMap fun e =>
    let d := popDesc blob e
    let h := leAt e 0 1
    let no := leAt d 0 1
    if bit (leAt e 1 1) 0 ∨ !(old.pops.any fun x => x.1 = h && x.2.1 = no) then none
    else match s.pop h no with
      | some p =>
        let n := fun (sp : Bool) => s.countRecords h no sp
        if p.sig = slice e 0x20 16 ∧ n false ≤ leAt e 8 4 ∧ n true ≤ leAt e 0xC 4 then some (h, no) else none
      | none => none

/-- Steps 1 and 2 of a load (Table 11.7): the model takes its places and its domains begin to wake. -/
def State.startLoad (s : State) (r : AdmitReq) (slot k : Nat) (prof : List Byte) (x : Place) (demand : List Nat) (carried : List (Nat × Nat))
    (oldId : Nat) : State :=
  let img := r.image
  let m : Model := { id := mimId img, rev := leAt img 0xC 4, part := r.part, prof := k, st := 1, demand := demand, lanes := x.lanes, units := x.units,
                     pops := x.pops, hbm := x.hbm, area := x.area, save := x.save, pocket := x.pocket, ctxs := x.ctxs, plans := mimPlans img,
                     tasks := profTasks img prof, blob := profBlob img prof }
  let s := (s.setModel slot (some m)).relineKeys m.keys
  let ld : Loading := { req := { r with id := m.id }, slot := slot, carried := carried, oldId := oldId }
  let s := { s with mdl := { s.mdl with cur := some ld } }
  (m.domains.foldl State.wake s).showMdl.pumpLoad

/-- Tries each profile in order (R454); with none, REFUSED and the shortfalls (R457). -/
def State.tryLoad (s : State) (r : AdmitReq) (old : Option Nat) : State :=
  let img := r.image
  let id := mimId img
  let profs := (List.range (mimProfiles img)).map fun k => (k, mimProfile img k)
  let tried := profs.map fun kp => (kp.1, kp.2, s.shortOf r.part id img kp.2 old)
  let free := match old with
    | some k => some k
    | none => (List.range 32).find? fun k => (s.model k).isNone
  match tried.find? (fun t => t.2.2.1.all (· = 0)), free with
  | some (k, prof, _, x), some slot =>
    let demand := s.demandOf r.part id img prof
    match old.bind s.model with
    | none => s.startLoad r slot k prof x demand [] 0
    | some o =>
      let carried := s.carriedOver o (profBlob img prof) (profPops img prof)
      let s := (o.lanes.map LaneRes.lane).foldl (fun s l => s.setLane l { s.lane l with writes := false }) s
      (s.freeModel slot carried).startLoad r slot k prof x demand carried o.id
  | _, _ =>
    let vs := tried.map fun t => t.2.2.1
    let bytes := (vs.flatMap fun v => v.flatMap (leBytes 8)) ++ List.replicate 512 0
    let s := if r.short = 0 then s else s.writeBytes r.short (bytes.take 512)
    let s := { s with mdl := { s.mdl with short := Tbl.set [] s.mdl.short r.part vs } }
    let s := (s.bump Fld.MDL_REFUSED_CNT_CNT 0 1).record { cls := 0, status := stREFUSED, part := r.part, block := 0x15 }
    s.endAdmit r stREFUSED 0 0 0 0 id

/-- Unloads a model (R465). -/
def State.unload (s : State) (r : AdmitReq) : State :=
  match s.slotOf r.id with
  | none => s.endAdmit r stDENIED 0 0 0 0 r.id
  | some slot => match s.model slot with
    | none => s
    | some m =>
      if m.part ≠ r.part then s.endAdmit r stDENIED 0 0 0 0 r.id
      else
        let ls := s.lanesBound m.part m.id
        let s := s.freeModel slot []
        (s.orphanLanes ls m.id).endAdmit r stOK 0 0 slot 0 r.id

/-- Begins a request of the admission queue (R453). -/
def State.beginAdmit (s : State) (r : AdmitReq) : State :=
  if r.kind = 3 then s.unload r
  else
    let c := s.modelCheck r.image r.fn.isSome
    let id := mimId r.image
    let r := if c = 0 then { r with id := id } else r
    if c ≠ 0 then s.denyAdmit r stDENIED c
    else match r.kind, s.slotOf id with
      | 1, none => s.tryLoad r none
      | 1, some _ => s.denyAdmit r stCONFLICT 0
      | _, none => s.denyAdmit r stDENIED 0
      | _, some slot => match s.model slot with
        | some m => if m.part = r.part ∧ m.st = 2 then s.tryLoad r (some slot) else s.denyAdmit r stDENIED 0
        | none => s.denyAdmit r stDENIED 0

/-- Serves the admission queue while nothing is in progress. -/
def State.pumpAdmit : Nat → State → State
  | 0, s => s
  | n + 1, s =>
    match s.mdl.cur, s.mdl.queue with
    | none, r :: rs =>
      if s.err.coxHalted then s else State.pumpAdmit n ((({ s with mdl := { s.mdl with queue := rs } }).beginAdmit r).showMdl)
    | _, _ => s

/-- A request reaches the Cox: queued behind the one in progress, or answered BUSY (R453). -/
def State.askAdmit (s : State) (r : AdmitReq) : Option State :=
  if s.mdl.cur.isSome ∧ 8 ≤ s.mdl.queue.length then none
  else some (State.pumpAdmit 16 ({ s with mdl := { s.mdl with queue := s.mdl.queue ++ [r] } }).showMdl)

/-- A domain has come on: the load that waits for it goes on, and the next requests are served. -/
def State.afterWake (s : State) : State := State.pumpAdmit 16 s.pumpLoad

/-- A domain did not wake: a load that needs it ends ABORTED (R315, R467). -/
def State.afterWakeFail (s : State) (d : Nat) : State :=
  match s.mdl.cur with
  | none => s
  | some ld => match s.model ld.slot with
    | none => s
    | some m => if (withPaths m.domains).contains d then State.pumpAdmit 16 (s.abortLoad stABORTED) else s

/-- Unloads a model without a command, as R467 ends a load (R572): its lanes are REFUSED, one record. -/
def State.dropModel (s : State) (slot : Nat) : State :=
  match s.model slot with
  | none => s
  | some m =>
    let ls := s.lanesBound m.part m.id
    ((s.freeModel slot []).orphanLanes ls m.id).record
      { cls := 1, status := stABORTED, part := m.part, block := 0x15, infoKind := 6, info := slot * 256 }

/-- Writes the RELEASE record of a key (R545). -/
def State.releaseKey (s : State) (h no : Nat) (p : Pop) : State :=
  match Tbl.get none (s.bnk h).committed (64 * h + no) with
  | some _ => s.releaseSlot h no p.part p.sig
  | none => s.logRecord h 2 no p.part 0 p.sig s.dev 0

/-- A sensor lane's populations are reset (R545): every population of its model whose LANE is the lane, and the others where it is the model's
only bound lane. -/
def State.relearn (s : State) (l : Nat) : State :=
  match s.laneModel l with
  | none => s
  | some slot => match s.model slot with
    | none => s
    | some m =>
      let only := m.lanes.length = 1
      let mine := m.pops.filter fun x => only || leAt (popDesc m.blob x.2.2) 0x0E 1 = l
      let hit := fun (h no : Nat) => mine.any fun x => x.1 = h && x.2.1 = no
      let s := (s.abortPops 0 (hit 0)).abortPops 1 (hit 1)
      let s := mine.foldl (fun s x =>
        let p := popOfEntry m.blob x.2.2 m.part slot
        let s := if modeKeeps p.mode then s.releaseKey x.1 x.2.1 p else s
        let old := s.pop x.1 x.2.1
        let s := (s.dropPop x.1 x.2.1).loadOne slot m [] false x
        match old, s.pop x.1 x.2.1 with
        | some o, some q => s.setPop x.1 x.2.1 (some { q with freeze := o.freeze, laneFrozen := o.laneFrozen })
        | _, _ => s) s
      let y := s.lrnLane l
      let s := s.setLrn l { y with sum := 0, count := 0, srcs := [], holdA := none, holdN := none, holdC := none, srcA := [], srcN := [], srcC := [] }
      let s := (((s.put Fld.LRN_SCORE_S l 0).put Fld.LRN_NOV_STATE_STATE l 0).put Fld.LRN_NOV_STATE_ACKED l 0).put Fld.LRN_NOV_STATE_HOLDING l 0
      { s with pnl := { s.pnl with relearn := NatSet.add s.pnl.relearn l } }

end Sys2Proof.Machine
end

