-- ==== Sys2Proof/Machine/BootOps.lean ====
section
/-!
DEFINITION. The image and start-up: OTP and root keys (R55, R71, R599), slot checks (R50 to R56, R67), the layers of defaults (R72 to R75),
the sections (R57 to R66, R320, R522), single ownership (R76 to R79), and a reset of the whole device (R611, R644).
-/
namespace Sys2Proof.Machine

/-! ### OTP and flash -/

/-- Bytes of the factory record. -/
def State.otpBytes (s : State) (a n : Nat) : List Byte := (List.range n).map fun i => Tbl.get 0 s.boot.otp (a + i)

/-- A little-endian field of the factory record. -/
def State.otpNat (s : State) (a n : Nat) : Nat := leNat (s.otpBytes a n)

/-- Whether the factory record's CRC holds (R71). DESIGN CHOICE: R84 names the CRC alone, and a record whose first bytes are not FREC is
treated as failing too (log entry 103). -/
def State.otpOk (s : State) : Bool :=
  let b := s.otpBytes 0 8192
  b.take 4 = ascii ['F', 'R', 'E', 'C'] && leAt b 0x3C 4 = crcWithout b 0x3C

/-- The unit's serial number, from the factory record's header. -/
def State.serial (s : State) : Nat := Config.factoryField 0 (s.otpNat 0 64) % 2 ^ 64

/-- A value of the factory record's identity area. -/
def State.identity (s : State) (f : Nat) : Nat := Config.factoryField f (s.otpNat 0x40 192)

/-- The hash of root key slot `n`. -/
def State.rootHash (s : State) (n : Nat) : List Byte := s.otpBytes (0x100 + 32 * n) 32

/-- Whether root key slot `n` is revoked (R599). -/
def State.rootRevoked (s : State) (n : Nat) : Bool := bit (s.otpNat 0x180 4) n || bit s.boot.fieldRevoke n

/-- Whether root key slot `n` is usable (R599). -/
def State.rootUsable (s : State) (n : Nat) : Bool := !allZero (s.rootHash n) && !s.rootRevoked n

/-- Checks of a signature block at the end of bytes (R54, R55): 0 accepted, 6 SIG_KEY, 7 SIG_REVOKED, 8 SIG_BAD. DESIGN CHOICE: no check of R67
names a block with another magic; it gets SIG_KEY (log entry 103). -/
def State.rootSigned (s : State) (magic : List Byte) (img : List Byte) : Nat :=
  let n := img.length
  let sb := slice img (n - 144) 144
  let key := leAt sb 4 1
  let x := slice sb 0x10 32
  let y := slice sb 0x30 32
  if sb.take 4 ≠ magic ∨ 4 ≤ key ∨ allZero (s.rootHash key) ∨ sha256 (x ++ y) ≠ s.rootHash key then 6
  else if s.rootRevoked key then 7
  else if ecdsaVerify (img.take (n - 144)) (beNat x) (beNat y) (beNat (slice sb 0x50 32)) (beNat (slice sb 0x70 32)) then 0 else 8

/-- The flash address of a slot (Table 2.1). -/
def slotBase (k : Nat) : Nat := k * 0x02000000

/-- The header of a slot. -/
def State.slotHeader (s : State) (k : Nat) : List Byte := s.flashBytes (slotBase k) 64

/-- COMMIT of a slot, or 0 when check 1 or 2 fails. -/
def State.slotCommit (s : State) (k : Nat) : Nat :=
  let h := s.slotHeader k
  if h.take 4 = ascii ['B', 'R', 'G', 'L'] ∧ leAt h 0x3C 4 = crc32 (h.take 60) then leAt h 0xC 4 else 0

/-- The bytes of the image in a slot. -/
def State.slotImg (s : State) (k : Nat) : List Byte := s.flashBytes (slotBase k) (leAt (s.slotHeader k) 8 4)

/-- Sections in the image's directory: type, offset, length, CRC (R51). -/
def imgDir (img : List Byte) : List (Nat × Nat × Nat × Nat) :=
  (List.range 9).map fun i => (leAt img (64 + 16 * i) 2, leAt img (68 + 16 * i) 4, leAt img (72 + 16 * i) 4, leAt img (76 + 16 * i) 4)

/-- REC_SIZE and the greatest REC_COUNT of a section type (Table 2.6). -/
def secSize : Nat → Nat × Nat
  | 1 => (512, 64)
  | 2 => (8, 24)
  | 3 => (8, 1024)
  | 4 => (256, 8)
  | 5 => (32, 32)
  | 6 => (16, 1)
  | 7 => (64, 128)
  | 8 => (64, 12)
  | _ => (48, 16)

/-- Whether a section's header obeys R56. -/
def secHeaderOk (img : List Byte) (x : Nat × Nat × Nat × Nat) : Bool :=
  let o := x.2.1
  let sz := secSize x.1
  x.2.2.1 = 0 || (leAt img o 2 = x.1 && leAt img (o + 2) 2 = 1 && leAt img (o + 4) 4 = sz.1 && decide (leAt img (o + 8) 4 ≤ sz.2) &&
    leAt img (o + 12) 4 = 0 && decide (16 + sz.1 * leAt img (o + 8) 4 ≤ x.2.2.1))

/-- Whether the bytes between sections are 0 and no two sections overlap (R52). -/
def gapsOk (img : List Byte) (last : Nat) : Nat → List (Nat × Nat) → Bool
  | pos, [] => allZero (slice img pos (last - pos))
  | pos, (a, n) :: t => decide (pos ≤ a) && allZero (slice img pos (a - pos)) && gapsOk img last (a + n) t

/-- The part of check 3 of R67 that the 64-byte header shows. -/
def imgHeaderOk (h : List Byte) : Bool :=
  leAt h 4 2 = 0x0100 && leAt h 6 2 = 64 && leAt h 0x10 2 = 9 && leAt h 0x12 2 = 64 && decide (leAt h 8 4 ≤ 0x1C00000) &&
  decide (1 ≤ leAt h 0xC 4) && decide (leAt h 0xC 4 ≤ 0xFFFFFFFE) && leAt h 0x16 2 = 0 && allZero (slice h 0x30 12)

/-- Check 3 of R67; the image has at least 0x100 + 144 bytes (Table 2.15). DESIGN CHOICE: R51 calls a section of LENGTH 0 valid, and its OFFSET is
not checked (log entry 103). -/
def imgFormatOk (img : List Byte) : Bool :=
  let n := img.length
  let d := imgDir img
  let secs := ((d.filter fun x => x.2.2.1 ≠ 0).map fun x => (x.2.1, x.2.2.1)).mergeSort fun a b => decide (a.1 ≤ b.1)
  imgHeaderOk (img.take 64) && leAt img 8 4 = n && decide (0x190 ≤ n) && decide ((d.map (·.1)).mergeSort (· ≤ ·) = rangeFrom 1 9) &&
  ((List.range 9).all fun i => leAt img (66 + 16 * i) 2 = 0) &&
  (d.all fun x => x.2.2.1 = 0 || (x.2.1 % 64 = 0 && decide (0x100 ≤ x.2.1) && decide (x.2.1 + x.2.2.1 ≤ n - 144))) &&
  gapsOk img (n - 144) 208 secs && d.all (secHeaderOk img) && allZero (slice img (n - 139) 11)

/-- The section of a type: its offset and length. -/
def imgSec (img : List Byte) (ty : Nat) : Nat × Nat :=
  match (imgDir img).find? fun x => x.1 = ty with
  | some x => (x.2.1, x.2.2.1)
  | none => (0, 0)

/-- The records of a section. -/
def imgRecs (img : List Byte) (ty : Nat) : List (List Byte) :=
  let x := imgSec img ty
  let sz := (secSize ty).1
  if x.2 = 0 then [] else (List.range (leAt img (x.1 + 8) 4)).map fun i => slice img (x.1 + 16 + i * sz) sz

/-- The check code of a slot (R67, Table 2.9). -/
def State.slotCheck (s : State) (k : Nat) : Nat :=
  let h := s.slotHeader k
  if h.take 4 ≠ ascii ['B', 'R', 'G', 'L'] then 1
  else if leAt h 0x3C 4 ≠ crc32 (h.take 60) then 2
  else if 0x1C00000 < leAt h 8 4 then 3
  else
    let img := s.slotImg k
    let fit := leAt h 0x14 1
    if !imgFormatOk img then 3
    else if !((List.range 4).all fun i => !bit fit i || bit (s.get Fld.GLB_VARIANT_STACK_FIT 0) i) ||
        !((List.range 3).all fun i => !bit fit (4 + i) || bit (s.get Fld.GLB_VARIANT_IOD_FIT 0) i) || bit fit 7 ||
        decide (s.get Fld.GLB_STEPPING_CORE_STEP 0 < leAt h 0x15 1) then 4
    else if !((imgDir img).all fun x => x.2.2.2 = crc32 (slice img x.2.1 x.2.2.1)) then 5
    else
      let c := s.rootSigned (ascii ['B', 'S', 'I', 'G']) img
      if c ≠ 0 then c
      else match imgRecs img 6 with
        | r :: _ => if leAt r 0 4 = s.identity 3 % 2 ^ 32 then 0 else 9
        | [] => 0

/-- Whether a slot's header passes checks 1 to 3, as far as the header shows them (R68). -/
def State.headerOk (s : State) (k : Nat) : Bool :=
  let h := s.slotHeader k
  h.take 4 = ascii ['B', 'R', 'G', 'L'] && leAt h 0x3C 4 = crc32 (h.take 60) && imgHeaderOk h

/-! ### Registers by offset -/

/-- The index and the word of an offset within a register row. -/
def RegRow.at_ (r : RegRow) (off : Nat) : Option (Nat × Nat) :=
  if off < r.base then none
  else
    let d := off - r.base
    let i := if r.stride = 0 then 0 else d / r.stride
    let w := if r.stride = 0 then d else d % r.stride
    if i < r.count ∧ w % 4 = 0 ∧ w / 4 < r.words then some (i, w / 4) else none

/-- The register at an offset, with its index and word. -/
def findReg (off : Nat) : Option (RegRow × Nat × Nat) := regTable.findSome? fun r => (r.at_ off).map fun p => (r, p.1, p.2)

/-- Whether a value lies in a field's stated ranges (R668). -/
def RegField.inRange (f : RegField) (v : Nat) : Bool := f.ranges.isEmpty || f.ranges.any fun r => decide (r.1 ≤ v) && decide (v ≤ r.2)

/-- Whether the lock list covers a field of the register at `off` (R72). -/
def State.locked (s : State) (f : RegField) (off : Nat) : Bool :=
  (List.range 256).any fun i =>
    let m := s.otpNat (0x800 + 8 * i + 4) 4
    s.otpNat (0x800 + 8 * i) 4 = off && m ≠ 0 && bits m (f.lo + f.width - 1) f.lo ≠ 0

/-- A USR value is refused (R73). -/
def State.usrRefuse (s : State) (off : Nat) : State :=
  (s.bump Fld.BOOT_OVERRIDE_CNT_CNT 0 1).record { cls := 0, status := stDENIED, block := 0x01, infoKind := 3, info := off }

/-- Writes a USR value to a field (R72, R73, R668). -/
def State.usrPut (s : State) (f : RegField) (i v : Nat) : State :=
  let off := f.base + i * f.stride
  if !f.usr ∨ s.locked f off ∨ !f.inRange v then s.usrRefuse off else s.put f i v

/-- Drops an image record (R75). -/
def State.dropRec (s : State) : State := s.record (recC 0x01 stDENIED)

/-- Whether a value obeys what a register demands beyond the ranges of its fields (R303, R321, R668): the band of a camera lane within its limits,
reuse fields of camera lanes only, a report mask within REPORT_ALLOWED, levels in their order. -/
def State.relationsOk (s : State) (off i v : Nat) : Bool :=
  let nov := s.get Fld.LANE_LEVEL_NOV_LEVEL i
  let alm := s.get Fld.LANE_LEVEL_ALM_LEVEL i
  let clr := s.get Fld.LANE_LEVEL_CLR_LEVEL i
  let order := fun (n a c : Nat) => fp32Lt c n && fp32Le n a
  if off = 0x0C1004 then s.laneKind i = 1 && decide (bits v 15 0 ≤ bits v 31 16) && decide (s.laneField i 0x84 2 ≤ bits v 15 0) &&
    decide (bits v 31 16 ≤ s.laneField i 0x86 2)
  else if off = 0x0C1000 then s.laneKind i = 1
  else if off = 0x100008 then Nat.land (bits v 5 0) (s.laneField i 0x10 1) = bits v 5 0
  else if off = 0x10000C then order v alm clr
  else if off = 0x100010 then order nov v clr
  else if off = 0x100014 then order nov alm v
  else true

/-- One FAC preset (R71, R72). -/
def State.facPreset (s : State) (off mask val : Nat) : State :=
  match findReg off with
  | none => s
  | some (r, i, w) =>
    r.fields.foldl (fun s (f : RegField) =>
      let lo := f.lo - 32 * w
      if !f.fac ∨ f.lo < 32 * w ∨ 32 < lo + f.width then s
      else
        let m := bits mask (lo + f.width - 1) lo
        let v := Nat.lor (Nat.land (s.get f i) (2 ^ f.width - 1 - m)) (Nat.land (bits val (lo + f.width - 1) lo) m)
        if m ≠ 0 ∧ f.inRange v then s.put f i v else s) s

/-- The default pin assignment (Table 13.2). -/
def State.defaultPins (s : State) : State :=
  let pin := fun (s : State) (n func arg arg2 : Nat) =>
    ((s.put Fld.PNL_PIN_CFG_FUNC n func).put Fld.PNL_PIN_CFG_ARG n arg).put Fld.PNL_PIN_ARG2_ARG2 n arg2
  let s := (List.range 4).foldl (fun s n => pin s n 1 n 0) s
  let s := (List.range 4).foldl (fun s n => pin s (4 + n) 2 n 30) s
  let s := (List.range 8).foldl (fun s n => pin s (8 + n) 3 0xFFFF 0) s
  let s := (List.range 7).foldl (fun s n => pin s (16 + n) 4 n 10) s
  pin s 23 5 2700 50

/-- The FAC layer (R71, R523). -/
def State.facLayer (s : State) : State :=
  let v := s.identity 1
  let s := ((s.put Fld.GLB_VARIANT_STACK_FIT 0 (v % 16)).put Fld.GLB_VARIANT_IOD_FIT 0 (v / 16 % 8)).put Fld.GLB_VARIANT_IGRADE 0 (v / 128 % 2)
  let s := (s.put Fld.GLB_PKG_ID_PKG_ID 0 (s.identity 2)).defaultPins
  (List.range 128).foldl (fun s i => s.facPreset (s.otpNat (0x200 + 12 * i) 4) (s.otpNat (0x204 + 12 * i) 4) (s.otpNat (0x208 + 12 * i) 4)) s

/-! ### LANES records -/

/-- The fields of a lane descriptor: offset, size, kinds (1 camera, 2 T1S, 4 TDM) (Table 8.1). -/
def laneFields : List (Nat × Nat × Nat) :=
  [(0, 1, 7), (1, 1, 7), (2, 1, 7), (3, 1, 7), (4, 1, 7), (5, 1, 7), (6, 2, 7), (8, 4, 7), (0xC, 1, 7), (0xD, 1, 7), (0xE, 2, 7), (0x10, 1, 7),
   (0x11, 1, 7), (0x12, 1, 6), (0x14, 2, 7), (0x16, 2, 7), (0x18, 4, 7), (0x1C, 4, 7), (0x20, 4, 7), (0x24, 4, 7), (0x28, 1, 6), (0x29, 1, 6),
   (0x40, 16, 1), (0x50, 16, 1), (0x60, 1, 1), (0x61, 1, 1), (0x62, 1, 1), (0x63, 1, 1), (0x64, 2, 1), (0x66, 2, 1), (0x68, 2, 1), (0x6C, 4, 1),
   (0x70, 4, 1), (0x80, 2, 1), (0x82, 2, 1), (0x84, 2, 1), (0x86, 2, 1), (0x88, 1, 1), (0x89, 1, 1), (0x90, 128, 1), (0x110, 1, 2), (0x111, 1, 6),
   (0x112, 2, 4), (0x114, 4, 6), (0x118, 4, 6), (0x120, 8, 2)]

/-- A descriptor with its reserved bytes 0. -/
def laneMasked (d : List Byte) (take : Nat → Bool) : List Byte :=
  ((List.range laneFields.length).zip laneFields).foldl (fun acc x => if take x.1 then patch acc x.2.1 (slice d x.2.1 x.2.2.1) else acc)
    (List.replicate 496 0)

/-- Joins two descriptors, one holding the fields the other leaves 0. -/
def laneJoin (a b : List Byte) : List Byte := List.zipWith (fun (x y : Byte) => x ||| y) a b

/-- Whether a value lies in a range. -/
def within (v a b : Nat) : Bool := decide (a ≤ v) && decide (v ≤ b)

/-- Whether a descriptor obeys Table 8.1 (R320, R323). -/
def laneDescOk (d : List Byte) : Bool :=
  let f := fun o n => leAt d o n
  let kind := f 0 1
  let kb := 2 ^ (kind - 1)
  let w := f 0x66 2
  let h := f 0x68 2
  let wins := (List.range 16).map fun i => (f (0x90 + 8 * i) 2, f (0x92 + 8 * i) 2, f (0x94 + 8 * i) 2, f (0x96 + 8 * i) 2)
  let used := wins.filter fun x => x.2.2.1 ≠ 0 && x.2.2.2 ≠ 0
  let popcount := fun (x : Nat) => ((List.range 16).filter (bit x)).length
  let addr4 := fun (o : Nat) => f 0x60 1 = 6 || allZero (slice d (o + 4) 12)
  within kind 1 3 && (laneFields.all fun x => bit x.2.2 (kind - 1) || allZero (slice d x.1 x.2.1)) && decide (0 < kb) &&
  within (f 1 1) 0 2 && within (f 3 1) 0 1 && within (f 4 1) 0 2 && within (f 5 1) 0 (if kind = 2 then 3 else 1) && within (f 6 2) 0 7 &&
  within (f 0xC 1) 0 15 && within (f 0xD 1) 3 16 && (f 0xE 2 = 0 || within (f 0xE 2) 100 10000) && within (f 0x10 1) 0 63 &&
  Nat.land (f 0x11 1) (f 0x10 1) = f 0x11 1 && (f 0x14 2 = 0 || decide (60 ≤ f 0x14 2)) &&
  (if kind = 1 then
    (f 0x60 1 = 4 || f 0x60 1 = 6) && addr4 0x40 && addr4 0x50 && within (f 0x61 1) 1 3 && within (f 0x62 1) 96 127 && within (f 0x63 1) 1 16 &&
    within (f 0x64 2) 1024 65534 && f 0x64 2 % 2 = 0 && within w 64 4096 && w % 2 = 0 && within h 64 2304 && h % 2 = 0 &&
    within (f 0x70 4) 1000 60000 && decide (f 0x84 2 ≤ f 0x80 2) && decide (f 0x82 2 ≤ f 0x86 2) && decide (f 0x80 2 ≤ f 0x82 2) &&
    decide (f 0x86 2 ≤ 65280) && within (f 0x88 1) 0 1 && decide (1 ≤ f 0x89 1) && used ≠ [] &&
    used.all (fun x => decide (x.1 + x.2.2.1 ≤ w) && decide (x.2.1 + x.2.2.2 ≤ h))
  else
    within (f 0x12 1) 0 1 && within (f 0x28 1) 0 1 && within (f 0x111 1) 1 16 && (f 0x29 1 = 0xFF || decide (f 0x29 1 < f 0x111 1)) &&
    within (f 0x114 4) 1000 51200 && within (f 0x118 4) 256 65536 && 2 ^ Nat.log2 (f 0x118 4) = f 0x118 4 &&
    (if kind = 2 then within (f 0x110 1) 1 8 else popcount (f 0x112 2) = f 0x111 1))

/-- The descriptor of a LANES record, or none where it is dropped (R57, R320). -/
def State.laneDesc (s : State) (r : List Byte) : Option (List Byte) :=
  let t := leAt r 1 1
  let fp := leAt r 8 8
  let own := slice r 16 496
  let tmpl := s.otpBytes (0x1000 + 512 * t + 16) 496
  let clean := fun (d : List Byte) => laneMasked d (fun _ => true) = d
  if leAt r 2 4 ≠ 0 ∨ leAt r 6 2 ≠ 0 ∨ 64 ≤ leAt r 0 1 ∨ fp / 2 ^ 46 ≠ 0 ∨ !clean own then none
  else if t = 0xFF then (if laneDescOk own then some own else none)
  else if 8 ≤ t ∨ !clean tmpl ∨ !allZero (s.otpBytes (0x1000 + 512 * t + 2) 6) then none
  else
    let d := laneJoin (laneMasked own (bit fp)) (laneMasked tmpl fun i => !bit fp i)
    if laneDescOk d then some d else none

/-! ### Ownership (R76 to R79, R524) -/

/-- A pin's configuration: function, inverted, ARG, ARG2. -/
structure PinCfg where
  pin : Nat
  func : Nat
  inv : Nat
  arg : Nat
  arg2 : Nat
deriving DecidableEq, Repr

/-- A claimant: its owner code and its demands, each a list of the resources that would serve it, lowest first. -/
structure Claim where
  owner : Owner
  demands : List (List Nat)
  /-- The pins it configures. -/
  pins : List PinCfg := []
  /-- A later plug-detect of a lane that has one (R524): refused in every case. -/
  never : Bool := false
deriving DecidableEq, Repr

/-- A resource in BOOT_RES_SEL's layout. -/
def resKey (kind die idx : Nat) : Nat := kind * 4096 + die * 256 + idx

/-- Serves the demands in order from what is free. -/
def serveClaim (free : Nat → Bool) : List (List Nat) → Option (List Nat)
  | [] => some []
  | d :: ds => match d.find? free with
    | none => none
    | some r => (serveClaim (fun x => free x && x ≠ r) ds).map (r :: ·)

/-- The first resource of the first demand that what is free cannot serve after the demands before it (R79). -/
def lostDemand (free : Nat → Bool) : List (List Nat) → Nat
  | [] => 0
  | d :: ds => match d.find? free with
    | none => d.headD 0
    | some r => lostDemand (fun x => free x && x ≠ r) ds

/-- A claim is lost (R79); a claim to a lane (R78), which is no resource of Table 2.13, names it in the record's LANE (log entry 103). -/
def State.loseClaim (s : State) (o : Owner) (r : Nat) (lane : Option Nat) : State :=
  (s.bump Fld.BOOT_CONFLICT_CNT_CNT 0 1).record
    { cls := 1, status := stCONFLICT, block := 0x01, infoKind := 4, info := r + (o.num + 256 * o.kind) * 65536, lane := lane }

/-- Writes a pin field unless the lock list keeps its value (R72). -/
def State.pinPut (s : State) (f : RegField) (n v : Nat) : State := if s.locked f (f.base + n * f.stride) then s else s.put f n v

/-- The USR values of a PINS record (R58, R72, R73). -/
def State.pinRec (s : State) (c : PinCfg) : State :=
  (((s.usrPut Fld.PNL_PIN_CFG_FUNC c.pin c.func).usrPut Fld.PNL_PIN_CFG_INV c.pin c.inv).usrPut Fld.PNL_PIN_CFG_ARG c.pin c.arg).usrPut
    Fld.PNL_PIN_ARG2_ARG2 c.pin c.arg2

/-- The configuration of the claimant that was granted a pin stands on it (R76); what the lock list keeps stays (R72). -/
def State.pinGrant (s : State) (c : PinCfg) : State :=
  (((s.pinPut Fld.PNL_PIN_CFG_FUNC c.pin c.func).pinPut Fld.PNL_PIN_CFG_INV c.pin c.inv).pinPut Fld.PNL_PIN_CFG_ARG c.pin c.arg).pinPut
    Fld.PNL_PIN_ARG2_ARG2 c.pin c.arg2

/-- A pin whose function lost its claim, and which no other claimant holds, is unused (R76 rule 6). -/
def State.pinDisable (s : State) (n : Nat) : State :=
  if (Tbl.get none s.boot.owners (1 * 4096 + n)).isNone then
    ((s.put Fld.PNL_PIN_CFG_FUNC n 0).put Fld.PNL_PIN_CFG_ARG n 0).put Fld.PNL_PIN_ARG2_ARG2 n 0
  else s

/-- Grants or refuses a claim (R76 rules 5 and 6); a lane that loses is DISABLED, and so is every function on the claim's pins. -/
def State.takeClaim (s : State) (c : Claim) : State :=
  let free := fun (r : Nat) => (Tbl.get none s.boot.owners r).isNone
  match (if c.never then none else serveClaim free c.demands) with
  | some rs =>
    let s := { s with boot := { s.boot with owners := rs.foldl (fun t r => Tbl.set none t r (some c.owner)) s.boot.owners } }
    c.pins.foldl State.pinGrant s
  | none =>
    let s := s.loseClaim c.owner (if c.never then (c.demands.headD [0]).headD 0 else lostDemand free c.demands) (if c.owner.kind = 2 then some c.owner.num else none)
    let s := c.pins.foldl (fun s p => s.pinDisable p.pin) s
    if c.owner.kind = 2 then s.put Fld.LANE_STATUS_STATE c.owner.num 1 else s

/-- Whether a PINS record obeys R58 and Table 13.1; a plug-detect names a sensor lane or none (R524). -/
def State.pinOk (s : State) (r : List Byte) : Bool :=
  let f := leAt r 1 1
  let a := leAt r 4 2
  let b := leAt r 6 2
  decide (leAt r 0 1 < 24) && decide (leAt r 2 1 ≤ 1) && leAt r 3 1 = 0 &&
  (match f with
    | 0 => a = 0 && b = 0
    | 1 => decide (a ≤ 3) && b = 0
    | 2 => decide (a ≤ 3) && (b = 0 || within b 5 500)
    | 3 => decide (b ≤ 1) && (a = 0xFFFF || (decide (a ≤ 63) && decide (2 ≤ s.laneKind a)))
    | 4 => decide (a ≤ 8) && decide (b % 32 ≤ 20) && b / 32 % 8 = 0 && b / 2048 = 0
    | 5 => (a = 0 || within a 500 5000) && decide (b ≤ 50)
    | _ => false)

/-- A pin's configuration from a record, with the defaults of Table 13.1 filled in. -/
def pinOf (r : List Byte) : PinCfg := { pin := leAt r 0 1, func := leAt r 1 1, inv := leAt r 2 1 % 2, arg := leAt r 4 2, arg2 := leAt r 6 2 }

/-- A pin's present configuration. -/
def State.pinCfg (s : State) (n : Nat) : PinCfg :=
  { pin := n, func := s.get Fld.PNL_PIN_CFG_FUNC n, inv := s.get Fld.PNL_PIN_CFG_INV n, arg := s.get Fld.PNL_PIN_CFG_ARG n,
    arg2 := s.get Fld.PNL_PIN_ARG2_ARG2 n }

/-- What a PINS record makes of its pin: its values, but for those the lock list refuses (R72). -/
def State.pinMerge (s : State) (c : PinCfg) : PinCfg :=
  let keep := fun (f : RegField) (v : Nat) => if s.locked f (f.base + c.pin * f.stride) then s.get f c.pin else v
  { c with func := keep Fld.PNL_PIN_CFG_FUNC c.func, inv := keep Fld.PNL_PIN_CFG_INV c.inv, arg := keep Fld.PNL_PIN_CFG_ARG c.arg,
           arg2 := keep Fld.PNL_PIN_ARG2_ARG2 c.arg2 }

/-- A demand for one pin. -/
def pinDemand (c : PinCfg) : List Nat := [resKey 1 0 c.pin]

/-- A demand for any sense timer. -/
def timerDemand : List Nat := (List.range 4).map (resKey 2 0)

/-- A demand for a PTP timestamp unit of a die: unit `i`, or the lowest free one. -/
def tsuDemand (die i : Nat) : List Nat := if i = 0xFF then (List.range 4).map (resKey 3 die) else [resKey 3 die i]

/-- The demands of the RESOURCES claims of an owner (R59). -/
def claimDemands (cs : List (List Byte)) (ty num : Nat) : List (List Nat) :=
  (cs.filter fun r => leAt r 4 1 = ty && leAt r 6 2 = num).map fun r =>
    if leAt r 0 1 = 1 then tsuDemand (leAt r 1 1) (leAt r 2 1)
    else if leAt r 2 1 = 0xFF then (List.range 8).map (resKey 5 0) else [resKey 5 0 (leAt r 2 1)]

/-- Whether a RESOURCES claim obeys R59. -/
def claimOk (r : List Byte) : Bool :=
  let k := leAt r 0 1
  let i := leAt r 2 1
  leAt r 3 1 = 0 && leAt r 5 1 = 0 && within (leAt r 4 1) 1 2 && decide (leAt r 6 2 ≤ if leAt r 4 1 = 1 then 63 else 7) &&
  (if k = 1 then decide (leAt r 1 1 ≤ 2) && (decide (i ≤ 3) || i = 0xFF) else leAt r 1 1 = 0xFF && (decide (i ≤ 7) || i = 0xFF))

/-- The claim of a lane (Table 2.11, R524). -/
def State.laneClaim (s : State) (pins : List PinCfg) (cs : List (List Byte)) (l : Nat) : Claim :=
  let die := s.laneField l 4 1
  let slots := if s.laneKind l = 1 then List.replicate (s.laneField l 0x63 1 + 2) ((List.range 192).map (resKey 4 die)) else []
  let tsu := if s.laneKind l = 3 then [[resKey 3 die 2, resKey 3 die 3]] else []
  let plug := (pins.filter fun p => p.func = 3 && p.arg = l).take 1
  let timers := (plug.filter fun p => p.arg2 % 2 = 1).map fun _ => timerDemand
  { owner := ⟨2, l⟩, demands := plug.map pinDemand ++ timers ++ tsu ++ slots ++ claimDemands cs 1 l, pins := plug }

/-- The claims of the panel functions, in rank order (R76, R524). -/
def panelClaims (pins : List PinCfg) : List Claim :=
  let of := fun (p : PinCfg → Bool) => pins.filter p
  let one := fun (num : Nat) (ps : List PinCfg) (more : List (List Nat)) =>
    if ps.isEmpty then [] else [({ owner := ⟨3, num⟩, demands := ps.map pinDemand ++ more, pins := ps } : Claim)]
  let keys := (List.range 4).flatMap fun k => one k (of fun p => p.func = 1 && p.arg = k) []
  let leds := ((of fun p => p.func = 4).mergeSort fun a b => decide (a.pin ≤ b.pin)).flatMap fun p => one 6 [p] []
  let late := (of fun p => p.func = 3 && p.arg ≠ 0xFFFF).filter fun p =>
    ((of fun q => q.func = 3 && q.arg = p.arg).head?) ≠ some p
  keys ++ one 4 (of fun p => p.func = 2) [timerDemand] ++ one 5 (of fun p => p.func = 5) [] ++ leds ++
    late.map fun p => { owner := ⟨3, 7⟩, demands := [pinDemand p] ++ (if p.arg2 % 2 = 1 then [timerDemand] else []), pins := [p], never := true }

/-! ### Partitions -/

/-- Whether a PARTITIONS record obeys R61, the reserved components 14 and 15 of its quota among it (Table 11.5); partition 0 has no stage 2 (R196). -/
def partOk (r : List Byte) : Bool :=
  decide (leAt r 0 1 ≤ 7) && decide (leAt r 1 1 ≤ if leAt r 0 1 = 0 then 0 else 1) && within (leAt r 2 2) 1 256 && decide (leAt r 0x10 1 ≤ 6) &&
  (leAt r 4 4 = 0 || decide (leAt r 4 4 ≤ 600000)) && allZero (slice r 0x11 15) && allZero (slice r 0x90 112)

/-- The record that makes partition `p`: the last in order stands (R74). -/
def partRec (rs : List (List Byte)) (p : Nat) : Option (List Byte) := (rs.filter fun r => leAt r 0 1 = p).getLast?

/-- The USR values of a PARTITIONS record: FAULT_HOLD_MS, where 0 selects 500 ms, and the stage-2 enable (R61, R196). -/
def State.partVals (s : State) (r : List Byte) : State :=
  let p := leAt r 0 1
  let hold := leAt r 4 4
  let s := s.usrPut Fld.XLU_FQ_HOLD_MS_MS p (if hold = 0 then 500 else hold)
  if p = 0 then s else s.usrPut Fld.XLU_S2_CFG_ENABLE p (b2n (bit (leAt r 1 1) 0))

/-- Creates a partition from context `c` on (R76, R77). -/
def State.makePart (s : State) (cs : List (List Byte)) (acc : Nat) (p n : Nat) (r : Option (List Byte)) : State × Nat :=
  let sys := match r with
    | some r => leAt r 0x10 1
    | none => 0
  let free := fun (x : Nat) => (Tbl.get none s.boot.owners x).isNone
  let demands := List.replicate sys ((List.range 8).map (resKey 5 0)) ++ claimDemands cs 2 p
  let ctxs := (rangeFrom acc n).map (resKey 6 0)
  match (if 256 < acc + n then none else serveClaim free demands) with
  | none => (s.loseClaim ⟨4, p⟩ (if 256 < acc + n then resKey 6 0 255 else lostDemand free demands) none, acc)
  | some rs =>
    let quota := match r with
      | some r => (List.range 16).map fun i => leAt r (0x20 + 8 * i) 8
      | none => []
    let cfg : PartCfg := { ctxBase := acc, ctxCount := n, stage2 := s.flag Fld.XLU_S2_CFG_ENABLE p, sysSlide := sys, quota := quota }
    let s := { s with boot := { s.boot with
      parts := Tbl.set none s.boot.parts p (some cfg),
      owners := (rs ++ ctxs).foldl (fun t x => Tbl.set none t x (some ⟨4, p⟩)) s.boot.owners } }
    let s := (rs.filter fun x => x / 4096 = 5).foldl (fun s x =>
      let e := 64 + x % 256
      { s with sld := Tbl.set {} s.sld e { (Tbl.get {} s.sld e) with owner := some p } }) s
    let s := (rangeFrom acc n).foldl (fun s c => (s.put Fld.XLU_CTX_CFG_PART c p).put Fld.XLU_CTX_STATE_STATE c 1) s
    (s, acc + n)

/-- Creates the partitions in ascending number (R77). -/
def State.makeParts (s : State) (rs cs : List (List Byte)) : State :=
  let sum := sumN ((rangeFrom 1 7).map fun p => match partRec rs p with
    | some r => leAt r 2 2
    | none => 0)
  ((List.range 8).foldl (fun (a : State × Nat) p => match partRec rs p with
    | some r => a.1.makePart cs a.2 p (leAt r 2 2) (some r)
    | none => if p = 0 then a.1.makePart cs a.2 0 (256 - sum) none else a) (s, 0)).1

/-- Gives the lanes to the partitions (R78): a lane named twice goes to the lower-numbered one; the lanes of one that was not created fall to
partition 0 (R79). -/
def State.lanesToParts (s : State) (rs : List (List Byte)) : State :=
  (List.range 64).foldl (fun s l =>
    let ps := (List.range 8).filter fun p => match partRec rs p with
      | some r => bit (leAt r 8 8) l
      | none => false
    match ps with
    | [] => s
    | p :: more =>
      let s := more.foldl (fun s q => s.loseClaim ⟨4, q⟩ 0 (some l)) s
      let own := if (Tbl.get none s.boot.parts p).isSome then p else 0
      { s with boot := { s.boot with owners := Tbl.set none s.boot.owners (9 * 4096 + l) (some ⟨4, own⟩) } }) s

/-! ### The other sections -/

/-- One NET record (R64). -/
def State.netRec (s : State) (r : List Byte) : State :=
  let f := fun o n => leAt r o n
  match f 0 1 with
  | 1 => if f 1 1 ≤ 2 ∧ f 2 1 ≤ 1 ∧ f 3 1 ≤ 1 ∧ f 20 1 ≤ 128 ∧ f 28 1 ≤ 32 ∧ f 21 3 = 0 ∧ f 29 3 = 0 ∧ allZero (r.drop 52) then
      { s with boot := { s.boot with ports := s.boot.ports ++ [r] } }
    else s.dropRec
  | 2 => if f 1 1 ≤ 2 ∧ f 2 1 ≤ 1 ∧ allZero (r.drop 4) then
      ({ s with boot := { s.boot with ptpPort := some (f 1 1, f 2 1) } }).put Fld.NET_PTP_STATUS_DOMAIN 0 (f 3 1)
    else s.dropRec
  | 3 => if f 1 1 ≤ 15 ∧ allZero (r.drop 2) then s.usrPut Fld.GLB_PKG_ID_PKG_ID 0 (f 1 1) else s.dropRec
  | 4 => if f 1 1 ≤ 15 ∧ f 2 1 ≤ 2 ∧ allZero (r.drop 3) then
      { s with boot := { s.boot with routes := Tbl.set none s.boot.routes (f 1 1) (some (f 2 1)) } }
    else s.dropRec
  | 5 => if f 1 1 ≤ 15 ∧ f 2 1 ≤ 7 ∧ f 3 1 ≤ 7 ∧ allZero (r.drop 4) then
      { s with boot := { s.boot with federation := s.boot.federation ++ [(f 1 1, f 2 1, f 3 1)] } }
    else s.dropRec
  | _ => s.dropRec

/-- One REPORTS record (R65). -/
def State.reportsRec (s : State) (r : List Byte) : State :=
  let f := fun o n => leAt r o n
  match f 0 1 with
  | 1 =>
    if f 1 1 ≤ 3 ∧ (f 2 1 = 4 ∨ f 2 1 = 6) ∧ f 3 1 ≤ 63 ∧ (f 2 1 = 6 ∨ allZero (slice r 8 12)) ∧ allZero (r.drop 22) then
      let c : Collector := { family := f 2 1, dscp := f 3 1, addr := slice r 4 16, port := f 20 2 }
      { s with rpt := { s.rpt with cols := Tbl.set none s.rpt.cols (f 1 1) (some c) } }
    else s.dropRec
  | 2 =>
    let n := f 4 4
    if f 1 1 ≤ 7 ∧ f 2 2 = 0 ∧ within n 64 65536 ∧ 2 ^ Nat.log2 n = n ∧ allZero (r.drop 8) then s.usrPut Fld.RPT_RING_SIZE_SIZE (f 1 1) n
    else s.dropRec
  | _ => s.dropRec

/-- One KEYS record (R66, R600, R601, R624). -/
def State.keysRec (s : State) (keyIdx : Nat) (burnFails : Bool) (r : List Byte) : State :=
  let i := leAt r 1 1
  let h := slice r 16 32
  if !allZero (slice r 2 14) then s.dropRec
  else match leAt r 0 1 with
    | 1 => if 8 ≤ i then s.dropRec
        else ({ s with boot := { s.boot with modelKeys := Tbl.set [] s.boot.modelKeys i h } }).put Fld.SEC_MODEL_KEYS_LOADED 0
          (Nat.lor (s.get Fld.SEC_MODEL_KEYS_LOADED 0) (2 ^ i))
    | 2 =>
      if i < 4 ∧ s.rootRevoked i then s
      else if 4 ≤ i ∨ h ≠ s.rootHash i ∨ i = keyIdx ∨ !((List.range 4).any fun k => k ≠ i && s.rootUsable k) then s.dropRec
      else if burnFails then s.record (recC 0x1D stABORTED)
      else ({ s with boot := { s.boot with fieldRevoke := s.boot.fieldRevoke + 2 ^ i } }).put Fld.SEC_ROOT_KEYS_REVOKED_NOW 0
        (s.get Fld.SEC_ROOT_KEYS_REVOKED_NOW 0 + 2 ^ i)
    | _ => s.dropRec

/-- The register fields that a lane's descriptor sets, each with its field number and its value (R319, Table 8.1). -/
def State.laneValues (s : State) (l : Nat) : List (Nat × RegField × Nat) :=
  let f := fun o n => s.laneField l o n
  [(12, Fld.LANE_REPORT_MASK_MASK, f 0x11 1), (16, Fld.LANE_LEVEL_NOV_LEVEL, f 0x18 4), (17, Fld.LANE_LEVEL_ALM_LEVEL, f 0x1C 4),
   (18, Fld.LANE_LEVEL_CLR_LEVEL, f 0x20 4), (14, Fld.LANE_TIMING_TEACH_S, f 0x14 2), (15, Fld.LANE_TIMING_HOLD_MS, f 0x16 2)] ++
  (if f 0 1 = 1 then [(33, Fld.CATCH_BAND_T_MIN, f 0x80 2), (34, Fld.CATCH_BAND_T_MAX, f 0x82 2), (37, Fld.CATCH_REUSE_CFG_MODE, f 0x88 1),
    (38, Fld.CATCH_REUSE_CFG_AGE_MAX, f 0x89 1)] else [])

/-- The register fields a lane's descriptor sets (R319): a field of the record is a USR value, a field of the template belongs to the layer below
(R72 to R74). `own` holds the fields that come from the record. -/
def State.laneRegs (s : State) (l own : Nat) : State :=
  let f := fun o n => s.laneField l o n
  let home := if f 4 1 = 2 then f 3 1 else f 4 1
  let s := (((s.put Fld.LANE_CFG_KIND l (f 0 1)).put Fld.LANE_CFG_CLASS l (f 1 1)).put Fld.LANE_CFG_PRIORITY l (f 2 1)).put Fld.LANE_CFG_HOME l home
  let s := (s.put Fld.LANE_CFG_DIE l (f 4 1)).put Fld.LANE_CFG_PORT l (f 5 1)
  (s.laneValues l).foldl (fun s x => if bit own x.1 then s.usrPut x.2.1 l x.2.2 else s.put x.2.1 l x.2.2) s

/-- One LANES record (R57, R320). -/
def State.lanesRec (s : State) (r : List Byte) : State :=
  match s.laneDesc r with
  | some d =>
    let l := leAt r 0 1
    ({ s with boot := { s.boot with lanes := Tbl.set [] s.boot.lanes l d } }).laneRegs l (if leAt r 1 1 = 0xFF then 2 ^ 46 - 1 else leAt r 8 8)
  | none => s.dropRec

/-- One register preset (R60, R73): fields in USR are written one by one; bits outside them must be 0. Where the value breaks a relation that the
register's owner demands, every field of it is refused. -/
def State.preset (s : State) (r : List Byte) : State :=
  let off := leAt r 1 3
  let v := leAt r 4 4
  match findReg off with
  | none => s.dropRec
  | some (row, i, w) =>
    let fs := row.fields.filter fun (f : RegField) => f.usr && decide (32 * w ≤ f.lo) && decide (f.lo + f.width ≤ 32 * w + 32)
    if fs = [] ∨ off % 4 ≠ 0 then s.dropRec
    else
      let ok := s.relationsOk row.base i v
      let s := fs.foldl (fun s (f : RegField) =>
        if ok then s.usrPut f i (bits v (f.lo - 32 * w + f.width - 1) (f.lo - 32 * w)) else s.usrRefuse (row.base + i * row.stride)) s
      let mask := fs.foldl (fun m (f : RegField) => m + (2 ^ f.width - 1) * 2 ^ (f.lo - 32 * w)) 0
      if Nat.land v mask ≠ v then s.usrRefuse off else s

/-- Lanes with a descriptor that were not disabled, ranked (R76). -/
def State.lanesPresent (s : State) : List Nat := s.rankOrder ((List.range 64).filter fun l => s.laneKind l ≠ 0)

/-- The claims of the RESOURCES records, in record order: a bad one, one after the 64th and a record of no KIND are dropped (R59, R75). -/
def State.claimRecs (s : State) (rs : List (List Byte)) : State × List (List Byte) :=
  let a := rs.foldl (fun (a : State × List (List Byte) × Nat) r =>
    let k := leAt r 0 1
    if k = 3 then a
    else if k ≠ 1 ∧ k ≠ 2 then (a.1.dropRec, a.2.1, a.2.2)
    else if claimOk r ∧ a.2.2 < 64 then (a.1, a.2.1 ++ [r], a.2.2 + 1) else (a.1.dropRec, a.2.1, a.2.2 + 1)) (s, [], 0)
  (a.1, a.2.1)

/-- The USR sections NET, PARTITIONS, PINS, RESOURCES, LANES, REPORTS and KEYS, then the presets (R74): the state they leave and the claims of
RESOURCES. The PINS records are judged beside the image's lane descriptors, which a plug-detect names. -/
def State.usrSections (s : State) (img : List Byte) (burnFails : Bool) : State × List (List Byte) :=
  let key := leAt img (img.length - 140) 1
  let s := (imgRecs img 1).foldl (fun s r => match s.laneDesc r with
    | some d => { s with boot := { s.boot with lanes := Tbl.set [] s.boot.lanes (leAt r 0 1) d } }
    | none => s) s
  let s := (imgRecs img 7).foldl State.netRec s
  let s := (imgRecs img 4).foldl (fun s r => if partOk r then s.partVals r else s.dropRec) s
  let s := (imgRecs img 2).foldl (fun s r => if s.pinOk r then s.pinRec (pinOf r) else s.dropRec) s
  let (s, cs) := s.claimRecs (imgRecs img 3)
  let s := (imgRecs img 1).foldl State.lanesRec s
  let s := (imgRecs img 8).foldl State.reportsRec s
  let s := (imgRecs img 9).foldl (fun s r => s.keysRec key burnFails r) s
  (((imgRecs img 3).filter fun r => leAt r 0 1 = 3).foldl State.preset s, cs)

/-- The configurations whose functions claim pins (Table 2.11): that of each good PINS record, in record order, and the lower layer's on the
pins no record names. A pin that one record names is configured as its registers stand after the presets (R74, log entry 103). -/
def State.pinClaims (s : State) (good : List (List Byte)) : List PinCfg :=
  let named := good.map fun r => leAt r 0 1
  let cfg := fun (r : List Byte) => if named.count (leAt r 0 1) = 1 then s.pinCfg (leAt r 0 1) else s.pinMerge (pinOf r)
  let all := good.map cfg ++ ((List.range 24).filter fun n => !named.contains n).map s.pinCfg
  all.filter fun p => p.func ≠ 0 && (p.func ≠ 3 || p.arg ≠ 0xFFFF)

/-- One lane takes its claim, and before it the 802.1AS grandmaster of its die where it is the highest-ranked T1S lane there (R76 rule 3). -/
def State.laneTakes (s : State) (pins : List PinCfg) (cs : List (List Byte)) (before : List Nat) (l : Nat) : State :=
  let die := s.laneField l 4 1
  let first := s.laneKind l = 2 && !(before.any fun k => s.laneKind k = 2 && s.laneField k 4 1 = die)
  let gm : Claim := { owner := ⟨1, die⟩, demands := [[resKey 3 die 2, resKey 3 die 3]] }
  (if first then s.takeClaim gm else s).takeClaim (s.laneClaim pins cs l)

/-- Ownership by the fixed rule (R76 to R79): the Cox, the lanes in rank order, the panel functions, the partitions and their lanes. -/
def State.resolveOwners (s : State) (pins : List PinCfg) (cs parts : List (List Byte)) : State :=
  let fixed := [resKey 5 0 0, resKey 5 0 1] ++ (List.range 3).flatMap fun d => [resKey 3 d 0, resKey 3 d 1]
  let s := { s with boot := { s.boot with owners := fixed.foldl (fun t r => Tbl.set none t r (some ⟨1, 0⟩)) s.boot.owners } }
  let lanes := s.lanesPresent
  let s := lanes.foldl (fun s l => s.laneTakes pins cs (lanes.takeWhile (· ≠ l)) l) s
  let s := (panelClaims pins).foldl State.takeClaim s
  (s.makeParts parts cs).lanesToParts parts

/-- One MODELS record (R62): the model image is read with the slot, before the flash is released (R47), and admitted at step 13. -/
def State.modelsRec (s : State) (img : List Byte) (r : List Byte) : State :=
  let sec := imgSec img 5
  let n := (imgRecs img 5).length
  let off := leAt r 4 4
  let len := leAt r 8 4
  if off < 16 + 32 * n ∨ sec.2 < off + len ∨ 7 < leAt r 0xC 1 ∨ !allZero (slice r 0xD 19) then s.dropRec
  else { s with boot := { s.boot with models := s.boot.models ++ [(leAt r 0 4, slice img (sec.1 + off) len, leAt r 0xC 1)] } }

/-- Step 8 of Table 2.12 (R74 to R79): the image's layers, then ownership; the models wait for step 13. -/
def State.applyImage (s : State) (img : List Byte) (burnFails : Bool) : State :=
  let (s, cs) := s.usrSections img burnFails
  let s := s.resolveOwners (s.pinClaims ((imgRecs img 2).filter s.pinOk)) cs ((imgRecs img 4).filter partOk)
  (imgRecs img 5).foldl (fun s r => s.modelsRec img r) s

/-! ### A reset of the whole device -/

/-- What a reset of the device leaves (R611, R644, R580): everything else is as State.reset, FLASH_OWN is released (R47), and node power goes off with the
FLD domains (R638). -/
def State.deviceReset (s : State) : State :=
  let s := s.nodesOff
  let boot : BootSt := { otp := s.boot.otp, lcFuses := s.boot.lcFuses, fieldRevoke := s.boot.fieldRevoke, flash := s.boot.flash,
                         flashWritten := s.boot.flashWritten, onAt := s.boot.onAt }
  let dbg : DbgSt := { lockoutUntil := s.dbg.lockoutUntil, lockoutLen := s.dbg.lockoutLen }
  let err : ErrSt := { fatalTimes := s.err.fatalTimes, fatalReport := s.err.fatalReport, fatalRestarts := s.err.fatalRestarts }
  let md : ModSt := { tripReport := s.mod.tripReport, sfpGone := s.mod.sfpGone, sfpLow := s.mod.sfpLow, perst := s.mod.perst }
  let bank := s.bank.map fun kv => (kv.1, ({ writes := kv.2.writes } : BankSt))
  let keep := [(Fld.ERR_FATAL_CAUSE_VALID, 0), (Fld.ERR_FATAL_CAUSE_RESTARTS, 0), (Fld.ERR_FATAL_CAUSE_CAUSE, 0), (Fld.SEC_DBG_STATUS_FAILS, 0),
               (Fld.SEC_DBG_FAIL_CNT_CNT, 0), (Fld.SEC_SESSION_CNT_CNT, 0)] ++ (List.range 16).map fun i => (Fld.BH_BAD_BAD, i)
  let r : State := { boot := boot, dbg := dbg, err := err, mod := md, bh := s.bh, bank := bank.filter fun kv => kv.2 ≠ {}, now := s.now,
                     free := s.free, pending := s.pending, out := s.out }
  (keep.foldl (fun r fi => r.put fi.1 fi.2 (s.get fi.1 fi.2)) r).emit (.pin 2 0)

/-- Power comes on again: what R611 keeps is at its power-on value, and the fatal cause is cleared (Table 14.11). -/
def State.powerOnReset (s : State) : State :=
  let r := s.deviceReset
  let r := { r with dbg := {}, err := {}, boot := { r.boot with onAt := s.now } }
  let r := ((r.put Fld.ERR_FATAL_CAUSE_VALID 0 0).put Fld.ERR_FATAL_CAUSE_RESTARTS 0 0).put Fld.ERR_FATAL_CAUSE_CAUSE 0 0
  ((r.put Fld.SEC_DBG_STATUS_FAILS 0 3).put Fld.SEC_DBG_FAIL_CNT_CNT 0 0).put Fld.SEC_SESSION_CNT_CNT 0 0

end Sys2Proof.Machine
end

