-- ==== Sys2Proof/Machine/Rates.lean ====
section
/-!
DEFINITION. Step rates (R25, R93, R94, R276): Table 3.2 at its points; between them the die's own value, kept between the neighbouring points and
rising with supply.
-/
namespace Sys2Proof.Machine

/-- Table 3.2: a supply in mV with its rates in M steps/s at −40, 25, 60 and 105 °C. -/
def rateRows : List (Nat × List Nat) :=
  [(450, [120, 160, 180, 210]), (550, [380, 430, 450, 480]), (620, [640, 640, 640, 640]), (650, [750, 730, 720, 700]), (750, [920, 890, 870, 840]),
   (850, [1080, 1030, 1000, 960])]

/-- The columns of Table 3.2 beside a temperature in tenths of a degree: one column where the temperature is tabulated. -/
def rateColumns (t : Int) : Nat × Nat :=
  if t ≤ -400 then (0, 0) else if t < 250 then (0, 1) else if t = 250 then (1, 1) else if t < 600 then (1, 2) else if t = 600 then (2, 2)
  else if t < 1050 then (2, 3) else (3, 3)

/-- The rate of a unit at the supply of row `i`: the table's value, or the die's own between the two neighbouring temperatures (R93). -/
def rowRate (unit i : Nat) (t : Int) : Nat :=
  let r := (rateRows.getD i (850, [])).2
  let a := r.getD (rateColumns t).1 0
  let b := r.getD (rateColumns t).2 0
  min a b + Config.rateShare unit i t % (max a b - min a b + 1)

/-- The last row of Table 3.2 whose supply is not above `mV`. -/
def rateRow (mV : Nat) : Nat := ((List.range 6).filter fun i => decide ((rateRows.getD i (850, [])).1 ≤ mV)).getLastD 0

/-- The sum of the first `k` positive steps of the die's own rise above row `i`, one for each 5 mV. -/
def rateRise (unit i : Nat) (t : Int) : Nat → Nat
  | 0 => 0
  | k + 1 => rateRise unit i t k + 1 + Config.rateShare unit (100 * (i + 1) + k) t

/-- The step rate of a unit in M steps/s at a supply in mV and a temperature in tenths of a degree (R93): the Sculls are units 0 to 15, the replica
stages of the halves 16 and 17. Between two rows it rises at every 5 mV by a share of the difference that is the die's own. -/
def stepRate (unit mV : Nat) (t : Int) : Nat :=
  let i := rateRow mV
  let a := (rateRows.getD i (850, [])).1
  let lo := rowRate unit i t
  if 5 ≤ i then lo
  else
    let n := ((rateRows.getD (i + 1) (850, [])).1 - a) / 5
    let k := (mV - a) / 5
    lo + k + (rowRate unit (i + 1) t - lo - n) * rateRise unit i t k / max 1 (rateRise unit i t n)

/-- The junction temperature of a unit at one moment, in tenths of a degree, within the table's range: no command carries it (log entry 104). -/
def junctionAt (unit moment : Nat) : Int := max (-400) (min 1050 (Config.junction unit moment))

end Sys2Proof.Machine
end

