-- ==== Sys2Proof/Machine/LaneIngest.lean ====
section
/-!
DEFINITION. Frames and blocks on their way into a lane's ring: arrivals (R324, R352), time stamps (R340 to R343), slots (R326), shedding
(R350), ring entries (R325), and the Delta Engine with the energy governor (R292 to R305).
-/
namespace Sys2Proof.Machine

/-! ### Arrivals -/

/-- Frames or blocks that have failed to arrive since the last one: one once 1.5 intervals have passed, one more for each further interval
(R352, log entry 40). -/
def State.lossDue (s : State) (l : Nat) : Nat :=
  let i := s.laneInterval l
  (2 * (s.dev - (s.lane l).lastAt) - i) / (2 * i)

/-- Counts the frames or blocks that have failed to arrive and are not counted yet; a camera's first frame has none before it. -/
def State.countLoss (s : State) (l : Nat) : State :=
  let x := s.lane l
  let due := s.lossDue l
  if (x.heard ∨ s.laneKind l ≠ 1) ∧ x.lossRun < due then
    (s.setLane l { x with lossRun := due }).laneLose l (due - x.lossRun) 1
  else s

/-- Something of the lane's source has arrived (R324, R352). -/
def State.laneArrival (s : State) (l : Nat) : State :=
  let s := s.countLoss l
  let s := s.setLane l { s.lane l with lastAt := s.dev, lossRun := 0, heard := true }
  if s.laneState l = 4 then s.putLaneState l 3 else s

/-! ### Time stamps -/

/-- F × 10^9 / 2^32 rounded; a tie goes where `Config.tie` says (R341). -/
def ntpFraction (f : Nat) : Nat :=
  let q := f * 10 ^ 9 / 2 ^ 32
  let r := f * 10 ^ 9 % 2 ^ 32
  if r < 2 ^ 31 ∨ (r = 2 ^ 31 ∧ Config.tie f % 2 = 0) then q else q + 1

/-- The device time that a sender report gives an RTP timestamp (R341). -/
def State.srTime (s : State) (l : Nat) (m : SrMap) (rtpTs : Nat) : Int :=
  let t : Int := ((m.sec : Int) - 2208988800) * 10 ^ 9 + (ntpFraction m.frac : Nat)
  let t := if bit (s.laneField l 6 2) 2 then t else t + (s.get Fld.NET_UTC_OFFSET_S 0 * 10 ^ 9 : Nat)
  let d := toInt 32 (rtpTs + 2 ^ 32 - m.rtp)
  t + (2 * d * 100000 + 9).fdiv 18

/-- A camera frame's device time and time flags before R343 (R341, R342): the newest report that came before the frame's first packet, at most
30 s old, or the arrival time. -/
def State.cameraTime (s : State) (l rtpTs arrival : Nat) : Nat × Nat :=
  let t : Option Int := match (s.lane l).srs.find? fun (m : SrMap) => m.at_ ≤ arrival with
    | some m => if arrival ≤ m.at_ + 30000000000 then some (s.srTime l m rtpTs) else none
    | none => none
  match t with
  | some t => if (t - (arrival : Int)).natAbs ≤ 2000000000 then (t.toNat, s.timeFlags) else (arrival, s.timeFlags + 4)
  | none => (arrival, s.timeFlags + 4)

/-- Within a lane device times never decrease (R343). -/
def State.raiseTime (s : State) (l t flags : Nat) : Nat × Nat :=
  let x := s.lane l
  if t < x.lastDev then (x.lastDev + 1, flags + 8) else (t, flags)

/-! ### The ring -/

/-- A slot of the data area that no entry and, for a camera, no previous frame occupies (R294, R326). -/
def State.freeSlot (s : State) (l : Nat) : Option Nat :=
  let x := s.lane l
  let prev := if s.laneKind l = 1 then (Tbl.get {} s.reuse l).prev else none
  (List.range x.depth).find? fun k => x.entries.all (fun (e : Entry) => e.slot ≠ k) && decide (prev ≠ some k)

/-- The 128 bytes of a ring entry (Table 8.3). MAP counts from the base of the entry ring's area (log entry 31). -/
def State.entryBytes (s : State) (l : Nat) (e : Entry) : List Byte :=
  let cam := decide (s.laneKind l = 1)
  leBytes 8 e.dev ++ leBytes 4 e.seq ++ leBytes 4 e.missed ++ leBytes 2 e.tflags ++ leBytes 1 e.slot ++ leBytes 1 e.srcFlags ++
  leBytes 4 e.rtpTs ++ leBytes 4 (if cam then 4096 + e.slot * s.mapBytes l else 0) ++
  ((List.range 16).flatMap fun k => leBytes 2 (e.counts.getD k 0)) ++ leBytes 2 e.changed ++ leBytes 1 e.k ++ leBytes 1 (b2n e.all) ++
  List.replicate 60 0

/-- Writes an entry at the ring's next place. -/
def State.putEntry (s : State) (l : Nat) (e : Entry) : State :=
  let x := s.lane l
  s.serviceWrite (if s.laneKind l = 1 then 0x32 + s.laneHalf l else s.laneFront l) (s.lanePart l) (x.base + s.ringPub x.ring % 4096) (s.entryBytes l e)

/-- Publishes an entry to the lane's tasks (R325, Table 7.2 step 4). -/
def State.publishEntry (s : State) (l : Nat) (e : Entry) : State :=
  let r := (s.lane l).ring
  let s := s.putEntry l e
  let s := s.putPub r (s.ringPub r + 128)
  let ts := s.laneTasks l
  let i := (s.lane l).pubs
  let e' := { e with stage := 3, idx := i, left := if e.ended then [] else ts }
  let s := s.setLane l { s.lane l with pubs := i + 1 }
  let s := if e.ended then ts.foldl (State.dropTrigger i) s else s
  (s.onEntry l e.seq fun _ => e').retireEntries l

/-- Writes a frame or block into a slot with a new entry; a sensor's entry is published at once (R325, R326). -/
def State.enterSlot (s : State) (l k : Nat) (h : HeldFrame) : State :=
  let x := s.lane l
  let cam := decide (s.laneKind l = 1)
  let t := s.raiseTime l h.dev h.tflags
  let e : Entry :=
    { seq := x.seq, dev := t.1, arrival := h.arrival, slot := k, tflags := t.2, srcFlags := h.srcFlags, rtpTs := h.rtpTs,
      missed := x.missed, all := cam && x.allNext, stage := if cam then 1 else 3, halts := s.haltTimes }
  let s := s.serviceWrite (s.laneFront l) (s.lanePart l) (x.data + k * x.slotLen) ((h.bytes ++ List.replicate x.slotLen 0).take x.slotLen)
  let s := s.setLane l { x with seq := (x.seq + 1) % 2 ^ 32, missed := 0, entries := x.entries ++ [e], allNext := false, lastDev := t.1 }
  let s := ((s.bump Fld.LANE_RX_CNT_CNT l 1).put Fld.LANE_LAST_TIME_TIME l t.1).put Fld.LANE_STATUS_TFLAGS l t.2
  if cam then s else s.publishEntry l e

/-- A held frame or block takes the slot that has freed (R326), unless the lane now writes no entries (Table 11.8 step 2, R578). -/
def State.flushHeld (s : State) (l : Nat) : State :=
  match (s.lane l).held, s.freeSlot l with
  | some h, some k =>
    if (s.lane l).writes && s.partRunning (s.lanePart l) then (s.setLane l { s.lane l with held := none }).enterSlot l k h else s
  | _, _ => s

/-- Every lane's held frame takes a slot that has freed. -/
def State.flushAll (s : State) : State := (List.range 64).foldl State.flushHeld s

/-- The shed level of a frame or block by its arrival: the last decided before it (R350). -/
def LaneSt.levelAt (x : LaneSt) (arrival : Nat) : Nat := ((x.decided.find? fun d => decide (d.1 ≤ arrival)).map (·.2)).getD 0

/-- A frame held for a slot until the next was decoded is lost with cause OVERRUN; a stream restart that it would have shown is the next entry's (R326, R329). -/
def State.dropHeldFrame (s : State) (l : Nat) : State :=
  let x := s.lane l
  match x.held with
  | none => s
  | some h => (s.setLane l { x with held := none, restart := x.restart || bit h.srcFlags 0 }).laneLose l 1 2

/-- A frame or block that reaches the ring: it is counted (R350), lost while the lane writes no entries (Table 11.8 step 2, R578), shed by the level decided
before it arrived, written, or held until the next one (R326). -/
def State.laneIn (s : State) (l : Nat) (h : HeldFrame) : State :=
  let s := (s.flushHeld l).dropHeldFrame l
  let x := s.lane l
  if !x.writes then s.laneLose l 1 4
  else if !s.partRunning (s.lanePart l) then s.laneLose l 1 5
  else
    let shed := x.levelAt h.arrival
    let s := s.setLane l { x with arrived := x.arrived + 1 }
    if shed = 2 ∨ (shed = 1 ∧ (x.arrived + 1) % 2 = 1) then s.laneShedOne l
    else
      let h := { h with srcFlags := Nat.lor h.srcFlags (b2n x.restart) }
      let s := s.setLane l { s.lane l with restart := false }
      match s.freeSlot l with
      | some k => s.enterSlot l k h
      | none => s.setLane l { s.lane l with held := some h }

/-! ### The Delta Engine (R292 to R298) -/

/-- More than any threshold: the metric kept for a tile that is forced changed. -/
def forcedTile : Nat := 65536

/-- The luma offsets of a tile's pixels inside the frame (R292). -/
def State.tilePixels (s : State) (l t : Nat) : List Nat :=
  let w := s.laneField l 0x66 2
  let hgt := s.laneField l 0x68 2
  let x0 := t % s.tileCols l * 16
  let y0 := t / s.tileCols l * 16
  (List.range 16).flatMap fun y => if y0 + y < hgt then
      ((List.range 16).filter fun x => decide (x0 + x < w)).map fun x => (y0 + y) * w + x0 + x
    else []

/-- The tile-change metric of two slots (R293). -/
def State.tileMetric (s : State) (l t cur prev : Nat) : Nat :=
  let b := (s.lane l).data
  let n := (s.lane l).slotLen
  sumN ((s.tilePixels l t).map fun p =>
    let a := (s.coherentByte (b + cur * n + p)).toNat
    let c := (s.coherentByte (b + prev * n + p)).toNat
    (a - c) + (c - a))

/-- Whether a luma pixel of a tile reads POISONED (R295). -/
def State.tilePoisoned (s : State) (l t slot : Nat) : Bool :=
  (s.tilePixels l t).any fun p => s.coherentPoison ((s.lane l).data + slot * (s.lane l).slotLen + p)

/-- The candidate thresholds (R296). -/
def bandThreshold (tmin tmax k : Nat) : Nat := tmin + k * (tmax - tmin) / 15

/-- The oldest entry the Delta Engine has not published. -/
def State.oldestInDelta (s : State) (l : Nat) : Option Entry := (s.lane l).entries.find? fun (e : Entry) => e.stage ≠ 3

/-- Step 2 of Table 7.2 (R295, R296, R302): metrics, forced tiles and counts of the lane's oldest frame. -/
def State.compareFrame (s : State) (l : Nat) (e : Entry) : State :=
  let r : Reuse := Tbl.get {} s.reuse l
  let tiles := s.comparedTiles l
  let tmin := s.get Fld.CATCH_BAND_T_MIN l
  let tmax := s.get Fld.CATCH_BAND_T_MAX l
  let age := s.get Fld.CATCH_REUSE_CFG_AGE_MAX l
  let ms : Option (List Nat) := match e.all || r.all, r.prev with
    | false, some p => some (tiles.map fun t =>
        if age ≤ Tbl.get 0 r.age t ∨ s.tilePoisoned l t e.slot ∨ s.tilePoisoned l t p then forcedTile else s.tileMetric l t e.slot p)
    | _, _ => none
  let vals := ms.getD (tiles.map fun _ => forcedTile)
  let counts := (List.range 16).map fun k => (vals.filter fun v => bandThreshold tmin tmax k < v).length
  let e' := { e with all := ms.isNone, stage := 2, map := vals, counts := counts, band := (tmin, tmax, s.get Fld.CATCH_REUSE_CFG_MODE l) }
  let s := { s with reuse := Tbl.set {} s.reuse l { r with all := false } }
  let s := if ms.isSome then s.bump Fld.CATCH_DE_PIX_CNT (s.laneHalf l) (sumN (tiles.map fun t => (s.tilePixels l t).length)) else s
  (s.onEntry l e.seq fun _ => e').putEntry l e'

/-! ### The energy governor (R304, R305) -/

/-- A lane's share of each Scull its tasks run on, in permille (R456). -/
def State.laneShares (s : State) (l : Nat) : List (Nat × Nat) :=
  let m : Option Model := match s.laneModel l with
    | some k => Tbl.get none s.mdl.models k
    | none => none
  match m with
  | none => []
  | some m => (List.range 16).filterMap fun n =>
    let sh := sumN ((m.units.filter fun (u : TaskUnit) => u.scull = n).flatMap fun (u : TaskUnit) =>
      (u.tasks.filter fun t => t.2 = l).map fun t => leAt (m.tasks.getD t.1 []) 4 2)
    if sh = 0 then none else some (n, sh)

/-- F and c of the lane's feature plan (Table 11.3). -/
def State.lanePlanCost (s : State) (l : Nat) : Nat × Nat :=
  let m : Option Model := match s.laneModel l with
    | some k => Tbl.get none s.mdl.models k
    | none => none
  match m with
  | none => (0, 0)
  | some m => match s.lanePlan l m.plans with
    | some p => (leAt p 4 4, leAt p 8 4)
    | none => (0, 0)

/-- The capacity of a lane's share at a supply, in 10^-9 of a step time: share × D × rate × PLAN_PERMILLE / 1,000, on the Scull with the least
(R304). -/
def State.laneCap (s : State) (l moment : Nat) (mv : Nat → Nat) : Option Nat :=
  let caps := (s.laneShares l).map fun x =>
    x.2 * s.laneDeadline l * stepRate x.1 (mv x.1) (junctionAt x.1 moment) * s.get Fld.CATCH_GOV_CFG_PLAN_PERMILLE 0
  caps.foldl (fun b c => match b with
    | none => some c
    | some d => some (min c d)) none

/-- Planned work of a lane with `n` changed tiles. -/
def State.planned (s : State) (l n : Nat) : Nat := (s.lanePlanCost l).1 + (s.lanePlanCost l).2 * n

/-- The candidate the energy governor chooses (R304). -/
def State.chooseK (s : State) (l moment : Nat) (counts : List Nat) : Nat :=
  match s.laneCap l moment fun n => s.get Fld.CATCH_VME_VME_MV n with
  | none => 0
  | some cap => ((List.range 16).find? fun k => decide (s.planned l (counts.getD k 0) * 10 ^ 9 ≤ cap)).getD 15

/-- Whether a frame overruns (R305): its work is judged at k = 15 in Governed mode and at T_min in Fixed mode. -/
def State.overruns (s : State) (l moment : Nat) (e : Entry) : Bool :=
  let top := fun (n : Nat) => if s.mod.capped then s.get Fld.CATCH_STATE_VSO_MV n else 850
  let n := e.counts.getD (if e.band.2.2 = 1 then 0 else 15) 0
  match s.laneCap l moment top with
  | none => false
  | some cap => decide (cap < s.planned l n * 10 ^ 9)

/-- The bytes of a changed-tile map: bit t of tile t, row-major (Table 8.3). -/
def mapImage (n : Nat) (changed : List Nat) : List Byte :=
  (List.range n).map fun i => BitVec.ofNat 8 (sumN ((changed.filter fun t => t / 8 = i).map fun t => 2 ^ (t % 8)))

/-- Steps 3 and 4 of Table 7.2: the threshold is chosen, the map formed, the entry published (R295, R298, R304, R305). -/
def State.formMap (s : State) (l : Nat) (e : Entry) : State :=
  let moment := s.free
  let s := { s with free := s.free + 1 }
  let k := if e.band.2.2 = 1 then 0 else s.chooseK l moment e.counts
  let t := bandThreshold e.band.1 e.band.2.1 k
  let pairs := (s.comparedTiles l).zip e.map
  let changed := (pairs.filter fun p => decide (t < p.2)).map (·.1)
  let r : Reuse := Tbl.get {} s.reuse l
  let age := pairs.foldl (fun a p => Tbl.set 0 a p.1 (if t < p.2 then 0 else min 255 (Tbl.get 0 r.age p.1 + 1))) r.age
  let over_ := s.overruns l moment e
  let s := { s with reuse := Tbl.set {} s.reuse l { r with age := age, planned := s.planned l (e.counts.getD k 0) } }
  let s := (((s.put Fld.CATCH_FRAME_CHANGED l changed.length).put Fld.CATCH_FRAME_K l k).put Fld.CATCH_FRAME_ALL l (b2n e.all)).put
    Fld.CATCH_THRESH_T l t
  let s := if over_ then s.bump Fld.CATCH_OVERRUN_CNT_CNT l 1 else s
  let s := s.serviceWrite (0x32 + s.laneHalf l) (s.lanePart l) ((s.lane l).base + 4096 + e.slot * s.mapBytes l) (mapImage (s.mapBytes l) changed)
  s.publishEntry l { e with k := k, changed := changed.length, map := changed }

/-- A frame whose map does not come is dropped and counted lost; the next is marked all changed (R314). -/
def State.dropFrame (s : State) (l : Nat) (e : Entry) : State :=
  let x := s.lane l
  let s := s.setLane l { x with entries := x.entries.filter fun (y : Entry) => y.seq ≠ e.seq }
  (s.entryLost l 1).flushHeld l

end Sys2Proof.Machine
end

