-- ==== Sys2Proof/Machine/Sculls.lean ====
section
/-!
DEFINITION. The commands of Sculls, tasks and Catch (chapters 6 and 7), and the bursts of Slide engines.
-/
namespace Sys2Proof.Machine

/-- Opens a checker for an operation of the running task (R279). -/
def State.openOp (s : State) (n : Nat) (op : PendOp) (cost : Nat) : State :=
  let x := s.scull n
  ((s.setScull n { x with open_ := x.open_ ++ [op] }).countSteps n cost).issuedOp n

/-- ARRAY_STEP (R230, R231, R279): the step is issued on the active plane and its result is provisional; a pair outside Table 6.1 is not performed and
ends the attempt DENIED. -/
def execArrayStep (scull : Fin 16) (step : ArrayOp) (s : State) : Effect :=
  let s := s.start
  let n := scull.val
  .next (match s.sclGo n, s.running n with
    | true, some (k, _) =>
      (match stepCost step.aFmt step.wFmt with
        | some c => s.withBp n fun s => s.openOp n (.array step (s.scull n).active) c
        | none => s.attemptEnd k stDENIED)
    | _, _ => s)

/-- Bits a weight takes in tile memory, two INT4 weights of a cell together (R228, R233). -/
def cellBits (fmt : NumFmt) (dual : Bool) : Nat := if fmt = .int4 ∧ dual then 8 else fmt.width

/-- The weights of cell `i` of a plane in tile memory, packed in the format's width (R228, R233). -/
def State.weightAt (s : State) (n off w i : Nat) : Nat :=
  if w = 4 then (s.rdByte (tileAt n (off + i / 2))).toNat / 2 ^ (4 * (i % 2)) % 16
  else s.rdNat (tileAt n (off + i * (w / 8))) (w / 8)

/-- Loads the shadow plane of a Scull from tile memory, with the marks of its words (R168). -/
def State.loadPlane (s : State) (n off w : Nat) : State :=
  let x := s.scull n
  let p := (1 - x.active) * 65536
  let planes := (List.range 65536).foldl (fun t i => Tbl.set 0 t (p + i) (s.weightAt n off w i)) x.planes
  let marks := (List.range 65536).foldl (fun t i => NatSet.put t (p + i) (s.poisoned (tileAt n (off + i * w / 8)))) x.planePoison
  ((s.setScull n { x with planes := planes, planePoison := marks }).issuedOp n).watchTile n false

/-- WEIGHT_PLANE_LOAD (R228): 128 rows of 512 cells go from tile memory to the shadow plane. A load waits for issued steps that still use that plane, and for
stores to tile memory that are not confirmed (R232). -/
def execWeightPlaneLoad (scull : Fin 16) (fmt : NumFmt) (dual : Bool) (tileOff : Nat) (ecc : Ecc) (line : Nat) (s : State) : Effect :=
  let s := s.start
  let n := scull.val
  let x := s.scull n
  .next (if s.sclGo n ∧ !(x.open_.any fun o => o.uses (1 - x.active) || o.stores) then
      s.withBp n fun s => (s.tileEcc n tileOff line ecc).loadPlane n tileOff (cellBits fmt dual)
    else s)

/-- PLANE_SWAP (R228): shadow and active planes change places between two steps; steps already issued keep the plane they were issued on. -/
def execPlaneSwap (scull : Fin 16) (s : State) : Effect :=
  let s := s.start
  let n := scull.val
  .next (if s.sclGo n then
      s.withBp n fun s => (s.setScull n { s.scull n with active := 1 - (s.scull n).active }).issuedOp n
    else s)

/-- Drains an accumulator entry of all columns, with its poison marks, to a vector register. -/
def State.drainAcc (s : State) (n entry reg : Nat) : State :=
  let x := s.scull n
  let y := (x.setReg reg ((List.range 512).map fun c => Tbl.get 0 x.acc (entry * 512 + c))).markBy reg fun w =>
    NatSet.has x.accPoison (entry * 256 + w)
  ((s.setScull n y).countSteps n 1).issuedOp n

/-- ACCUMULATOR_DRAIN (R229, R232, R285): a confirmed entry of all columns goes to a vector register; a provisional one waits, and so does a drain into a
register that an operation issued before it still reads or writes. -/
def execAccumulatorDrain (scull : Fin 16) (entry reg : Fin 32) (s : State) : Effect :=
  let s := s.start
  let n := scull.val
  .next (if s.sclGo n ∧ (s.running n).isSome ∧ !((s.scull n).open_.any fun o => o.into entry.val || o.touches reg.val) then
      s.withBp n (State.drainAcc · n entry.val reg.val)
    else s)

/-- VECTOR_OP (R238, R279): the operation is issued and its result is provisional until its checker closes. -/
def execVectorOp (scull : Fin 16) (op : VecOp) (s : State) : Effect :=
  let s := s.start
  let n := scull.val
  let seen := fun (s : State) => match op with
    | .load _ _ _ _ => s.watchTile n false
    | .store _ _ => s.watchTile n true
    | _ => s
  .next (if s.sclGo n ∧ (s.running n).isSome then s.withBp n fun s => seen (s.openOp n (.vec op) (vecCost op)) else s)

/-- CATCH_CHECKER_CLOSE (R279 to R281, R289): the oldest open checker closes. `late` is 0 for a step in time, 1 to 3 for the notch at
which its replay was confirmed, more for a step late at notch 3; its dependants are replayed with it. -/
def execCatchCheckerClose (scull : Fin 16) (late : Nat) (s : State) : Effect :=
  let s := s.start
  let n := scull.val
  .next (match (s.scull n).open_ with
    | [] => s
    | op :: later =>
      if late = 0 then (s.confirm n).windowStep n 0
      else
        let s := (s.bump Fld.CATCH_ERR_CNT_CNT n 1).addTenths n (replayTenths (min late 3) (op.dependants later))
        if late ≤ 3 then (s.confirm n).windowStep n 1
        else (s.windowStep n 1).escalate n)

/-- CATCH_WINDOW_END (R289): a full window ends; after 16 quiet windows in a row A rises by 1, up to AGGR_MAX. -/
def execCatchWindowEnd (scull : Fin 16) (s : State) : Effect :=
  let s := s.start
  let n := scull.val
  let x := s.scull n
  let len := 2 ^ s.get Fld.CATCH_GOV_CFG_WINDOW_LOG2 0
  let a := s.get Fld.CATCH_STATE_A n
  .next (if x.windowSteps < len then s
    else
      let q := if x.windowErrs * 100000 ≤ len then x.quiet + 1 else 0
      if 16 ≤ q ∧ a < s.get Fld.CATCH_CTRL_AGGR_MAX n ∧ !s.flag Fld.CATCH_CTRL_ESC_LOCK n ∧ x.monitorOk then s.setA n (a + 1)
      else s.setScull n { x with windowSteps := 0, windowErrs := 0, quiet := if 16 ≤ q then 0 else q })

/-- Whether the inputs of a task, but for the rings `skip` names, are published (R241). -/
def State.inputsReady (s : State) (t : Task) (skip : List Nat) : Bool :=
  t.ins.all fun i => skip.contains i.1 || decide (s.ringCon i.1 + i.2 ≤ s.ringPub i.1)

/-- The lane entry that a task's next run descends from (R248). -/
def State.entryOf (s : State) (t : Task) : Option Entry :=
  if t.lane < 64 then (s.lane t.lane).entries.find? fun (e : Entry) => e.stage = 3 && e.idx = t.runs else none

/-- A task that is ended for its trigger before it began gives back the inputs it has, publishes nothing, and is done with the trigger (R248, R575). -/
def State.passOver (s : State) (k : Nat) (t : Task) : State :=
  let e := s.entryOf t
  let s := (s.returnCredits t (t.skipped t.runs)).setTask k { t.next with st := .waiting }
  match e with
  | some e => s.entryDone t.lane e.seq k
  | none => s

/-- TASK_RUNNABLE (R241, R248, R250, R253): a task whose inputs are all published waits no longer and joins the ready list; one that is ended for
this trigger returns its credits instead. `trigger` is the device time of the triggering input of a task that serves no lane. -/
def execTaskRunnable (scull : Fin 16) (task trigger : Nat) (s : State) : Effect :=
  let s := s.start
  let k := taskKey scull.val task
  .next (match s.task k with
    | none => s
    | some t =>
      if !(t.st = .waiting ∨ t.st = .done ∨ t.st = .failed) ∨ t.held ∨ !s.inputsReady t (t.skipped t.runs) then s
      else if t.skipped t.runs ≠ [] then s.passOver k t
      else
        let e := s.entryOf t
        let s := s.setTask k { t.again with st := .waiting, restarts := 0, trigger := (e.map Entry.dev).getD trigger, entry := (e.map Entry.seq).getD 0 }
        s.makeReady k)

/-! ### Dispatch -/

/-- Whether bursts of an earlier attempt of a task are still in flight (R247). -/
def State.burstsInFlight (s : State) (k : Nat) : Bool :=
  (List.range 72).any fun e => (s.slide e).byTask = some k && (s.slide e).st = 5 && (s.slide e).bursts ≠ []

/-- What a read of a task's save area answers, line by line (R246): the first error, POISONED for marked words. -/
def State.saveError (s : State) (n : Nat) (t : Task) : Option Nat :=
  let tag : Tag := ⟨n, t.ctx, t.part, s.epoch n, false⟩
  (List.range ((t.saveLen + 63) / 64)).findSome? fun j => match s.resolve t.ctx (t.save + 64 * j) .read with
    | none => some stXLATE
    | some a => match (s.gate tag false a).1 with
      | some st => some st
      | none => if (List.range 8).any fun w => s.coherentPoison (a + 8 * w) then some stPOISONED else none

/-- Whether a save area still holds what the switch-out wrote there. -/
def State.saveIntact (s : State) (t : Task) (base : Nat) : Bool :=
  (List.range t.saveLen).all fun i => match s.resolve t.ctx (t.save + i / 64 * 64) .read with
    | some a => decide (s.coherentByte (a + i % 64) = BitVec.ofNat 8 (Config.freeNat (base + i)))
    | none => false

/-- Values read from a save area that something else has written: no table lays the area out, so each is free (log entry 6). -/
def freeValues (base : Nat) : Compute :=
  let fill := fun (from_ n w : Nat) => (List.range n).foldl (fun t i => Tbl.set 0 t i (Config.freeNat (base + from_ + i) % 2 ^ w)) ([] : Tbl Nat)
  { planes := fill 0 131072 16, active := Config.freeNat (base + 163840) % 2, acc := fill 131072 16384 32, vreg := fill 147456 16384 32 }

/-- A task takes the sequencer: the values of the one before are kept, and its own come back, from its save area where it was switched out; a new attempt
finds what is there (R246). An area that cannot be read ends the attempt. -/
def State.switchIn (s : State) (n k : Nat) : State :=
  match s.task k with
  | none => s
  | some t =>
    let other := (s.scull n).owner ≠ some k
    let s := if other then s.keepValues n else s
    let go := fun (s : State) => s.setTask k { t with st := .running, kept := none, saved := none }
    match t.saved, t.kept with
    | some b, c =>
      (match s.saveError n t with
        | some st => s.attemptEnd k st
        | none =>
          if s.saveIntact t b then go (s.setValues n k (c.getD {}))
          else go (({ s with free := s.free + 163841 }).setValues n k (freeValues s.free)))
    | none, some c => go (if other then s.setValues n k c else s)
    | none, none => go (if other then s.setScull n { s.scull n with owner := some k } else s)

/-- TASK_DISPATCH (R246, R247, R251, R252): a free sequencer runs the first task of its ready list. Another task than the one whose values the Scull
holds waits until every operation of that one is confirmed (R285). -/
def execTaskDispatch (scull : Fin 16) (s : State) : Effect :=
  let s := s.start
  let n := scull.val
  .next (if !s.sclOn n ∨ s.seqBusy n then s
    else match s.firstReady n with
      | none => s
      | some (k, _) =>
        if s.burstsInFlight k ∨ ((s.scull n).owner ≠ some k ∧ (s.scull n).open_ ≠ []) then s
        else ((((s.unready k).switchIn n k).admitHeld n).showScull n).issuedOp n)

/-! ### Commit -/

/-- Whether a task still has a transfer under way, and whether one is faulted (R209, R244). -/
def State.transfers (s : State) (k : Nat) : Bool × Bool :=
  let l := (List.range 72).filter fun e => (s.slide e).byTask = some k
  (l.any fun e => (s.slide e).st = 1 || (s.slide e).st = 2 || (s.slide e).st = 3, l.any fun e => (s.slide e).st = 3)

/-- Bytes a task gives on an output ring in this run (Table 6.5): the slot's, or `given` for a ring a Learning Engine consumes, whose
events differ from run to run (log entry 21). -/
def State.givenBytes (s : State) (o : Nat × Nat × Bool) (given : Option Nat) : Nat :=
  let c := s.ringConsumer o.1
  if c = 0x130 ∨ c = 0x131 then given.getD o.2.1 else o.2.1

/-- The absolute values a commit writes, as the rings and sides stand when it begins (R244 steps 3 and 4, R245): in slot order, the new count or the other
side of a two-sided buffer, then the credit of every input. -/
def State.commitWrites (s : State) (t : Task) (given : List Nat) : CommitW where
  pubs := (List.range t.outs.length).filterMap fun i => t.outs[i]?.map fun o =>
    if o.2.2 then (o.1, 4, 1 - min 1 (s.coherentNat o.1 4)) else (o.1 + 0x20, 8, (s.ringPub o.1 + s.givenBytes o given[i]?) % 2 ^ 64)
  cons := t.ins.map fun i => (i.1, s.ringCon i.1 + i.2)

/-- Whether every output ring has room (R261, R362). -/
def State.outRoom (s : State) (t : Task) (given : List Nat) : Bool :=
  (List.range t.outs.length).all fun i => match t.outs[i]? with
    | some o => o.2.2 || decide (s.ringPub o.1 + s.givenBytes o given[i]? ≤ s.ringCon o.1 + s.ringSizeOf o.1)
    | none => true

/-- Whether the unit that serves an address takes a write of a commit now (R116, R561, R563). -/
def State.answers (s : State) (n a : Nat) : Bool :=
  let u := regionUnit (s.region a)
  !(s.unitDown u || s.fenced u || (!s.domOn 56 && crossesSeam n u))

/-- Performs a commit's writes in order, up to the first whose unit does not answer; whether all were performed (R244, R245). -/
def State.performCommit (s : State) (n : Nat) (w : CommitW) : Bool × State :=
  let a := w.pubs.takeWhile fun p => s.answers n p.1
  let c := if a = w.pubs then w.cons.takeWhile fun p => s.answers n p.1 else []
  let s := a.foldl (fun s p => s.ownNat p.1 p.2.1 p.2.2) s
  (decide (a = w.pubs) && decide (c = w.cons), c.foldl (fun s p => s.putCon p.1 p.2) s)

/-- The commit of R244: the writes of steps 3 and 4, then DONE. One that is interrupted stays COMMITTING, and is repeated with the same values (R245). -/
def State.commit (s : State) (k : Nat) (t : Task) (w : CommitW) : State :=
  let n := k / 65536
  match s.performCommit n w with
  | (false, s) => (s.setTask k { t with st := .committing, commit := some w }).showScull n
  | (true, s) =>
    let s := ((s.setTask k { t.next with st := .done }).dropValues k).addEnergy n t
    let s := if t.trigger + t.deadlineNs < s.dev then s.bump Fld.SCL_LATE_CNT_CNT n 1 else s
    (if t.lane < 64 then s.entryDone t.lane t.entry k else s).showScull n

/-- The tag of the running task's own accesses (R178). -/
def State.taskTag (s : State) (n : Nat) (t : Task) : Tag := ⟨n, t.ctx, t.part, s.epoch n, false⟩

/-- TASK_COMMIT (R168, R209, R244, R245, R254): the running task commits, or a commit cut short is repeated. It blocks while a transfer of its own runs or an
output ring lacks room, is switched out while one is faulted, waits for its own earlier accesses and its checkers, and ends POISONED where it used a
poisoned value. -/
def execTaskCommit (scull : Fin 16) (given : List Nat) (s : State) : Effect :=
  let s := s.start
  let n := scull.val
  .next (match s.sclGo n, s.running n, s.taskIn n .committing with
    | true, some (k, t), _ =>
      let tr := s.transfers k
      if tr.2 then s.switchOut k
      else if tr.1 ∨ !s.outRoom t given then (s.setTask k { t with st := .blocked }).showScull n
      else if (s.scull n).open_ ≠ [] ∨ s.outstanding (s.taskTag n t) then s
      else if t.poisoned then (s.bump Fld.MEM_POISON_CNT_CNT 0 1).attemptEnd k stPOISONED
      else s.withBp n fun s => ((s.issuedOp n).commit k t (s.commitWrites t given)).flushHeld t.lane
    | true, none, some (k, t) => (s.commit k t (t.commit.getD ⟨[], []⟩)).flushHeld t.lane
    | _, _, _ => s)

/-- TASK_WATCHDOG_EXPIRY (R249): an attempt that has run for more than twice ENVELOPE ends with TIMEOUT. -/
def execTaskWatchdogExpiry (scull : Fin 16) (s : State) : Effect :=
  let s := s.start
  .next (match s.running scull.val with
    | some (k, t) => if 2 * t.envelope < t.steps then (s.bump Fld.SCL_WDOG_CNT_CNT scull.val 1).attemptEnd k stTIMEOUT else s
    | none => s)

/-- The save area's bytes after a switch-out: no table lays out what R246 puts there, so each byte is a free value (log entry 6). -/
def State.writeSaveArea (s : State) (t : Task) : State :=
  (List.range ((t.saveLen + 63) / 64)).foldl (fun s j => match s.resolve t.ctx (t.save + 64 * j) .write with
    | some a =>
      let n := min 64 (t.saveLen - 64 * j)
      { (s.ownBytes a ((List.range n).map fun i => BitVec.ofNat 8 (Config.freeNat (s.free + i)))) with free := s.free + n }
    | none => s) s

/-- SAVE_AREA_WRITTEN (R246, R270, R285): a switch-out ends, once every operation of the task is confirmed; a write answered DENIED, TARGET_DOWN or TIMEOUT
makes the task FAILED at once. -/
def execSaveAreaWritten (scull : Fin 16) (task status : Nat) (s : State) : Effect :=
  let s := s.start
  let n := scull.val
  let k := taskKey n task
  .next (match s.task k with
    | none => s
    | some t =>
      if t.st ≠ .switchedOut ∨ !t.saving ∨ ((s.scull n).owner = some k ∧ (s.scull n).open_ ≠ []) then s
      else if status = stOK then
        let v := if t.kept.isSome then t.kept else some (s.values n t)
        let s := (s.writeSaveArea t).setTask k { t with saving := false, resumed := false, saved := some s.free, kept := v }
        if t.resumed then s.makeReady k else s
      else s.taskFail k t status)

/-- The accesses of the burst that engine `e` of a Scull issued since `old`: each source byte's read, and the write (R619). -/
def State.watchBurst (s old : State) (e : Nat) : State :=
  let x := old.slide e
  let len := (s.slide e).issued - x.issued
  if 64 ≤ e ∨ len = 0 then s
  else
    let s := (List.range len).foldl (fun s j => match x.addr false (x.issued + j) with
      | some a => s.watch (e / 4) x.ctx a 1 false
      | none => s) s
    match x.addr true x.issued with
    | some d => s.watch (e / 4) x.ctx d len true
    | none => s

/-- FENCE (R124): an acquire adds nothing but its own issue, for commands take effect in the order of the queue; a release or full fence is performed once every
earlier access of the task's context is, and a full one then holds the later ones (R123). -/
def execFence (scull : Fin 16) (kind : FenceKind) (s : State) : Effect :=
  let s := s.start
  let n := scull.val
  .next (match s.sclGo n, s.running n with
    | true, some (_, t) => s.withBp n fun s =>
        let s := s.issuedOp n
        if kind ≠ .acquire ∧ s.outstanding (s.taskTag n t) then s.holdOp (s.taskTag n t) (.fence (decide (kind = .full))) else s
    | _, _ => s)

/-- SLIDE_BURST_ISSUE (R257, R258, R262, R263, R269): a running engine issues its next burst, or misses, or waits for credit. -/
def execSlideBurstIssue (eng : Fin 72) (s : State) : Effect :=
  .next (if s.start.unitDown (engineUnit eng.val) then s.start else (s.start.issueBurst eng.val).watchBurst s.start eng.val)

/-- SLIDE_CREDIT_ARRIVES (R261 to R263): an engine waiting for credit finds the ring's count moved and continues. -/
def execSlideCreditArrives (eng : Fin 72) (s : State) : Effect :=
  let s := s.start
  let x := s.slide eng.val
  .next (if x.st = 2 ∧ s.credit x (x.burstLen 64 x.issued 0) ∧ !s.unitDown (engineUnit eng.val) then s.putSlide eng.val { x with st := 1 } else s)

end Sys2Proof.Machine
end

