-- ==== Sys2Proof/Machine/RecoverOps.lean ====
section
/-!
DEFINITION. Quiesce, reset, power-down and update of units (R561 to R572), the end of a debug session (R612, R623), and the restart of a
partition (R579).
-/
namespace Sys2Proof.Machine

/-! ### Halts and sessions -/

/-- A halted Scull runs on and its reason clears (R623); bursts that completed while it was halted publish (R615). -/
def State.resumeScull (s : State) (n : Nat) : State :=
  let x := s.scull n
  let spent := match Tbl.get none s.mod.haltAt n with
    | some t => s.now - t
    | none => 0
  let s := s.setScull n { x with halted := false, haltPending := none, stepLeft := none }
  let s := { s with mod := { s.mod with haltAt := Tbl.set none s.mod.haltAt n none,
                                        haltTotal := Tbl.set 0 s.mod.haltTotal n (Tbl.get 0 s.mod.haltTotal n + spent) } }
  let s := (((s.put Fld.DBG_REASON_REASON n 0).put Fld.DBG_REASON_SLOT n 0).put Fld.DBG_REASON_LANE n 0).putBitAt Fld.DBG_HALTED_SCULLS 0 n false
  (if x.halted then (rangeFrom (4 * n) 4).foldl State.publish s else s).showScull n

/-- The Cox runs on (R618). -/
def State.resumeCox (s : State) : State := ({ s with err := { s.err with coxHalted := false } }).put Fld.DBG_HALTED_COX 0 0

/-- The session ends (R612): halted units resume, breakpoints clear, the level returns to 0, one record. -/
def State.closeSession (s : State) : State :=
  match s.dbg.sessionAt with
  | none => s
  | some _ =>
    let s := ((List.range 16).foldl State.resumeScull s).resumeCox
    let s := { s with dbg := { s.dbg with sessionAt := none, bps := [], wps := [], laneBp := [] } }
    let s := (s.put Fld.DBG_SESSION_LEVEL 0 0).put Fld.SEC_LIFECYCLE_LEVEL 0 0
    let s := if s.get Fld.SEC_LIFECYCLE_STATE 0 = 2 then s.put Fld.SEC_LIFECYCLE_STATE 0 1 else s
    s.record (recC 0x1D stOK)

/-! ### What a unit drains and loses (Table 14.6) -/

/-- A cache writes back what it holds in M and drops every line. -/
def State.flushAgent (s : State) (g : Nat) : State :=
  let ls := (s.coh.cache.filter fun kv => kv.1 / 2 ^ 42 = g).map fun kv => kv.1 % 2 ^ 42
  ls.foldl (fun s l => match s.copy g l with
    | some c => (if c.st = .m then s.sink g l (2 ^ 64 - 1) c.bytes c.poison else s).evicted g l
    | none => s) s

/-- Transfers on a Scull's own engines that no task owns end with its reset, as a system engine's do (Table 14.6; DEDUCED, log entry 103). -/
def State.endOwnSlides (s : State) (n : Nat) : State :=
  (rangeFrom (4 * n) 4).foldl (fun s e =>
    let x := s.slide e
    if x.byTask.isNone ∧ (x.st = 1 ∨ x.st = 2 ∨ x.st = 3) then s.slideError e stDOWN else s) s

/-- The attempts whose state a Scull holds end (Table 14.6); its computing state is gone. -/
def State.endScull (s : State) (n : Nat) : State :=
  let ks := s.tasks.filterMap fun kv => match kv.2 with
    | some t => if kv.1 / 65536 = n ∧ (t.st = .running ∨ t.st = .blocked) then some kv.1 else none
    | none => none
  let s := ((ks.foldl (fun s k => s.attemptEnd k stABORTED) s).endOwnSlides n).keepValues n
  s.setScull n { s.scull n with acc := [], vreg := [], accPoison := [], vregPoison := [], open_ := [], tenths := 0, owner := none }

/-- Whether an address lies in a Pocket. -/
def inPocket (p a : Nat) : Bool := localRegion (localOff a) = .pocket p

/-- Lines of a Pocket that caches hold in M, counted by granule (R567). -/
def State.countLost (s : State) (p : Nat) : State :=
  let ms := s.coh.cache.filterMap fun kv => match kv.2 with
    | some c => if c.st = .m ∧ inPocket p (kv.1 % 2 ^ 42 * 64) then some (kv.1 % 2 ^ 42 * 64) else none
    | none => none
  { s with err := { s.err with lostLines := ms.foldl (fun t a =>
      let k := p * 32 + a % 0x200000 / 0x10000
      Tbl.set 0 t k (Tbl.get 0 t k + 1)) s.err.lostLines } }

/-- Every cache drops its lines of a Pocket's range without writing them (R570). -/
def State.discardPocket (s : State) (p : Nat) : State :=
  let s := s.countLost p
  let hit := fun (l : Nat) => inPocket p (l * 64)
  { s with coh := { s.coh with cache := s.coh.cache.filter fun kv => !hit (kv.1 % 2 ^ 42), dir := s.coh.dir.filter fun kv => !hit kv.1 } }

/-- A home answers its requests TARGET_DOWN when it goes down (Table 14.5 step 3); the grants and snoops it still had out are no one's. -/
def State.downHome (s : State) (hit : Nat → Bool) : State :=
  let bs := s.coh.busy.filterMap fun kv => match kv.2 with
    | some b => if hit kv.1 then some b else none
    | none => none
  let s := { s with coh := { s.coh with busy := s.coh.busy.filter fun kv => !hit kv.1, unserved := s.coh.unserved.filter fun u => !hit u.2.2.1,
                                        reserved := s.coh.reserved.filter fun u => !hit u.2.2.1,
                                        granted := s.coh.granted.filter fun kv => !hit kv.1,
                                        since := s.coh.since.filter fun kv => !hit (kv.1 % 2 ^ 42),
                                        held := s.coh.held.filter fun kv => !hit (kv.1 % 2 ^ 42) } }
  bs.foldl (fun s (b : Busy) => (b.cur :: b.waiters).foldl (fun s (r : HomeReq) => if r.kind = .repair then s else s.answerAck r stDOWN) s) s

/-- A checkpoint that has not committed is abandoned (Table 14.6). -/
def State.abandonBank (s : State) (b : Nat) : State :=
  let x := s.bnk b
  let s := x.writing.foldl (fun s (w : SlotWrite) =>
    ((((s.freeBlocks b w.blocks).bhState b w.pop 0).setDirty b w.pop).mbEndFor w.fn stABORTED []).regDone w.byReg)
    (s.setBank b { x with writing := [] })
  match (s.bnk b).cur with
  | some r => if r.readout then s else State.nextSnap 9 b (s.abortSnap b)
  | none => s

/-- The PCIe link goes down (R30, R645). -/
def State.hostDown (s : State) : State :=
  ((s.put Fld.HOST_LINK_STATUS_UP 0 0).put Fld.HOST_LINK_STATUS_SPEED 0 0).put Fld.HOST_LINK_STATUS_WIDTH 0 0

/-- The work of a unit ends (Table 14.6 step 2); `clean` where it drained, so that its cache wrote its lines back. -/
def State.drainUnit (s : State) (u : Nat) (clean : Bool) : State :=
  let die := (u - 0x3A) / 3
  if u ≤ 0x0F then (if clean then s.flushAgent u else s).endScull u
  else if u ≤ 0x2F then
    let p := u - 0x10
    let s := if clean then s.recall (inPocket p) else s.discardPocket p
    s.downHome fun l => inPocket p (l * 64)
  else if u = 0x30 ∨ u = 0x31 then if clean then s.flushAgent (17 + (u - 0x30)) else s
  else if u = 0x34 ∨ u = 0x35 then s.abandonBank (u - 0x34)
  else if 0x36 ≤ u ∧ u ≤ 0x39 then s.downHome fun l => localRegion (l * 64) = .hbm (u - 0x36)
  else if 0x3A ≤ u ∧ u ≤ 0x42 then
    match (u - 0x3A) % 3 with
    | 0 => s.portDown die
    | 1 => ((List.range 64).filter fun l => s.laneKind l = 1 && s.onDie l die && s.laneAdmitted l).foldl (fun s l =>
        (s.dropHeldFrame l).setLane l { (s.dropHeldFrame l).lane l with waitIdr := true }) s
    | _ =>
      let s := ((List.range 64).filter fun l => s.laneKind l = 2 && s.onDie l die).foldl (fun s l =>
        s.setLane l { s.lane l with node := { (s.lane l).node with asSync := true, count := 0, next := none, start := none, samples := [],
                                                                    flags := 0 } }) s
      { s with ptp := { s.ptp with nodes := s.ptp.nodes.filter fun kv => kv.1 / 1024 ≠ die } }
  else if u = 0x43 then s.hostDown
  else if u = 0x44 then (rangeFrom 64 8).foldl (fun s e =>
      let x := s.slide e
      if x.st = 1 ∨ x.st = 2 ∨ x.st = 3 then s.slideError e stDOWN else s) s
  else if u = 0x46 then s.closeSession
  else s

/-- The Cox raises a unit's epoch and broadcasts it (R552, R515). -/
def State.bumpEpoch (s : State) (u : Nat) : State :=
  let e := s.epoch u
  let e' := if 65535 ≤ e then 1 else e + 1
  ((s.put Fld.ERR_EPOCH_EPOCH u e').emit (.ctlEpoch u e')).jlEpochs u e'

/-- A forced power-down orphans every Held lock of the Pocket; the waiters are saved (R567 step 4). -/
def State.forceOrphans (s : State) (p : Nat) : State :=
  let is_ := (s.locks.filter fun kv => lockPocket kv.1 = p && kv.2.st = 1).map (·.1)
  is_.foldl (fun s i =>
    let o := (s.lock i).owner
    ((s.setLock i { s.lock i with st := 2 }).bump Fld.LOCK_ORPHAN_CNT_CNT 0 1).record
      { cls := 1, status := stORPHAN, unit := 0x10 + p, part := o.part % 8, block := 0x05, ctx := some o.ctx }) s

/-- The data of a Pocket is lost (R567 step 5). -/
def State.losePocket (s : State) (p : Nat) : State :=
  { s with mem := s.mem.filter fun kv => !inPocket p kv.1, poison := s.poison.filter fun kv => !inPocket p (kv.1 * 8),
           err := { s.err with forcedOff := NatSet.add s.err.forcedOff p } }

/-- A domain without a unit (a Yoke or the Seam): nothing drains there, and it goes off at once. -/
def plainDomain (d : Nat) : Bool := domainUnit d = 0xFF

/-- A domain goes off; its stand-in answers for its unit (R563, Table 14.5 step 5). -/
def State.domainOff (s : State) (d : Nat) : State :=
  let u := domainUnit d
  let s := (s.putBit Fld.PWR_STATE_ON d false).fldPins d false
  let s := { s with pwr := { s.pwr with waking := Tbl.set none s.pwr.waking d none } }
  let s := if u = 0xFF then s else s.put Fld.ERR_EPOCH_DOWN u 1
  if d < 16 then s.showScull d else if d = 50 ∨ d = 51 then s.showLe (d - 50) else s

/-! ### The quiesce queue (R564) -/

/-- Shows the queue. -/
def State.showQuiesce (s : State) : State := s.put Fld.ERR_UNIT_STATUS_QUEUED 0 s.err.queue.length

/-- A quiesce has ended: the register of its command shows the result. -/
def State.endQuiesce (s : State) (status : Nat) : State :=
  match s.err.cur with
  | none => s
  | some (u, a) =>
    let s := { s with err := { s.err with cur := none } }
    let s := match a with
      | .reset | .update => (s.put Fld.ERR_UNIT_STATUS_PENDING 0 0).put Fld.ERR_UNIT_STATUS_STATUS 0 status |>.put Fld.ERR_UNIT_STATUS_UNIT 0 u
      | .off | .forceOff => (s.put Fld.PWR_REQ_STATUS_PENDING 0 0).put Fld.PWR_REQ_STATUS_STATUS 0 status |>.put Fld.PWR_REQ_STATUS_DOMAIN 0
          (unitDomain u)
      | _ => s
    s.showQuiesce

/-- Pins or unpins a domain (R311). -/
def State.pin (s : State) (d : Nat) (on : Bool) : State := s.putBit Fld.PWR_PIN_PINNED d on

/-- The unit is off and begins to wake again (Table 14.5 step 5 of a reset). -/
def State.cycle (s : State) (u old : Nat) : State :=
  let d := unitDomain u
  if d < 72 then
    let s := s.domainOff d
    ({ s with pwr := { s.pwr with returning := Tbl.set none s.pwr.returning d (some old) } }).wakeOne d
  else
    let s := s.put Fld.ERR_EPOCH_DOWN u 0
    (s.returnRecord u old).endQuiesce stOK

/-! ### Retirement (R571, R572) -/

/-- A task moves to another Scull: its attempt restarts there, and its save area is discarded. -/
def State.moveTask (s : State) (old n : Nat) : State :=
  match s.task old with
  | none => s
  | some t =>
    let id := s.freeTask n
    let k := taskKey n id
    let act : Bool := t.begun
    let t' : Task := if act then { t.again with id := id, st := .waiting, held := false } else { t with id := id }
    let s := s.stopAttempt old
    let s := { s with tasks := Tbl.set none s.tasks old none }
    let s := (s.setTask k t').putRecord t'
    let swap := fun (e : Entry) => { e with left := e.left.map fun x => if x = old then k else x }
    let s := { s with lanes := Tbl.mapAll (fun _ (x : LaneSt) => { x with entries := x.entries.map swap }) s.lanes }
    if act then s.makeReady k else s

/-- Places a model's task units of a retired Scull again in its half, or unloads the model (R572). -/
def State.replaceUnits (s : State) (n slot : Nat) : State :=
  match s.model slot with
  | none => s
  | some m =>
    let mine := m.units.filter fun (u : TaskUnit) => u.scull = n
    if mine = [] then s
    else
      let others := s.otherModels (some slot)
      let keep := m.units.filter fun (u : TaskUnit) => u.scull ≠ n
      let fit := fun (us : List TaskUnit) (u : TaskUnit) (k : Nat) =>
        let on := (others.flatMap fun (x : Model) => x.units.filter fun (a : TaskUnit) => a.scull = k) ++ us.filter fun (a : TaskUnit) => a.scull = k
        k ≠ n && !s.pinnedOff k && (others.all fun (x : Model) => x.part = m.part || x.units.all fun (a : TaskUnit) => a.scull ≠ k) &&
        decide (sumN (on.map TaskUnit.share) + u.share ≤ 1000) && decide (sumN (on.map TaskUnit.tile) + u.tile ≤ 0x100000) &&
        decide (sumN (on.map TaskUnit.slide) + u.slide ≤ 4)
      let step := fun (acc : Option (List TaskUnit)) (u : TaskUnit) => match acc with
        | none => none
        | some us => match (rangeFrom (8 * u.half) 8).find? (fit us u) with
          | some k => some (us ++ [{ u with scull := k }])
          | none => none
      match mine.foldl step (some keep) with
      | none => s.dropModel slot
      | some us =>
        let moved := us.drop keep.length
        let s := s.setModel slot (some { m with units := us })
        let s := (moved.map TaskUnit.scull).foldl State.wake s
        -- tasks follow in the order of their units, task by task
        let ks := s.tasks.filterMap fun kv => match kv.2 with
          | some t => if kv.1 / 65536 = n ∧ t.model = slot then some kv.1 else none
          | none => none
        let homes := moved.flatMap fun (u : TaskUnit) => u.tasks.map fun _ => u.scull
        (ks.zip homes).foldl (fun s kh => s.moveTask kh.1 kh.2) s

/-- The model slots in use. -/
def State.modelSlots (s : State) : List Nat := (List.range 32).filter fun k => (s.model k).isSome

/-- Unloads every model that satisfies `p` (R572). -/
def State.dropModels (s : State) (p : Model → Bool) : State :=
  s.modelSlots.foldl (fun s k => match s.model k with
    | some m => if p m then s.dropModel k else s
    | none => s) s

/-- What a retirement entails (R572). -/
def State.retireEffects (s : State) (u : Nat) : State :=
  if u ≤ 0x0F then (s.modelSlots.foldl (fun s k => s.replaceUnits u k) s).relineTiles
  else if u ≤ 0x2F then s.dropModels fun m => m.pocket.any fun g => g / 32 = u - 0x10
  else if u = 0x30 ∨ u = 0x31 then s.dropModels fun m => m.pops.any fun x => x.1 = u - 0x30
  else if u = 0x32 ∨ u = 0x33 then
    s.dropModels fun m => m.lanes.any fun (r : LaneRes) => s.laneHalf r.lane = u - 0x32
  else if u = 0x34 ∨ u = 0x35 then
    let h := u - 0x34
    let s := s.abandonBank h
    (s.leng h).pops.foldl (fun s kv => match kv.2 with
      | some p => if modeKeeps p.mode then s.setPop h kv.1 (some { p with asHost := true }) else s
      | none => s) s
  else if 0x36 ≤ u ∧ u ≤ 0x39 then s.dropModels fun m => m.hbm.any fun a => a.1 / 0x400000000 = u - 0x36
  else if 0x3A ≤ u ∧ u ≤ 0x42 then
    let die := (u - 0x3A) / 3
    let hit := fun (l : Nat) => s.laneState l = 3 && s.onDie l die &&
      (match (u - 0x3A) % 3 with
        | 0 => s.laneKind l = 1
        | 1 => s.laneKind l = 1
        | _ => s.laneKind l ≠ 1)
    ((List.range 64).filter hit).foldl (fun s l => s.putLaneState l 4) (if (u - 0x3A) % 3 = 0 then s.portDown die else s)
  else s

/-- A unit is retired (R571). -/
def State.retire (s : State) (u : Nat) : State :=
  let d := unitDomain u
  let s := if d < 72 then (s.domainOff d).pin d true else s
  let s := ((s.put Fld.ERR_EPOCH_DOWN u 1).put Fld.ERR_EPOCH_RETIRED u 1).putBit Fld.ERR_RETIRED_UNITS u true
  (s.record { cls := 1, status := stDOWN, unit := u, block := 0x1B }).retireEffects u

/-- Whether a unit is retired. -/
def State.isRetired (s : State) (u : Nat) : Bool := u ≤ 0x46 && s.flag Fld.ERR_EPOCH_RETIRED u

/-! ### Starting and performing a quiesce -/

/-- A silent unit is reset without a drain (R570), the third time within 10 s retired (R571). -/
def State.silentGo (s : State) (u : Nat) : State :=
  let l := s.now :: (Tbl.get [] s.err.silent u).filter fun t => decide (s.now < t + 10000000000)
  let old := s.epoch u
  let s := ({ s with err := { s.err with silent := Tbl.set [] s.err.silent u l } }).put Fld.ERR_EPOCH_DOWN u 1
  let s := (s.drainUnit u false).bumpEpoch u
  let s := if 0x10 ≤ u ∧ u ≤ 0x2F then (s.forceOrphans (u - 0x10)).losePocket (u - 0x10) else s
  if 3 ≤ l.length then (s.endQuiesce stOK).retire u else s.cycle u old

/-- The signature and the ROM version of a Cox patch in memory (R568). -/
def State.patchOk (s : State) : Bool :=
  let a := s.get Fld.ERR_PATCH_ADDR_ADDR 0
  let len := leNat (s.readBytes (a + 4) 4)
  let n := 16 + len + 144
  decide (len ≤ 0x100000) && s.memCheckSys a n &&
    (let b := s.readBytes a n
     leAt b 0 4 = s.identity 3 % 2 ^ 32 && leAt b 8 8 = 0 && s.rootSigned (ascii ['C', 'S', 'I', 'G']) b = 0)

/-- The Cox is updated (R568, R569): its patch runs and its own epoch rises, or the command is DENIED. -/
def State.coxUpdate (s : State) : State :=
  if s.patchOk then
    let old := s.epoch 0x45
    let s := ({ s with boot := { s.boot with coxPatch := true } }).bumpEpoch 0x45
    (s.returnRecord 0x45 old).endQuiesce stOK
  else s.endQuiesce stDENIED

/-- Takes the next quiesce of the queue while none is in progress (R564); the halted Cox takes none (R618). -/
def State.nextQuiesce : Nat → State → State
  | 0, s => s
  | n + 1, s =>
    match s.err.cur, s.err.queue with
    | none, q :: qs =>
      if s.err.coxHalted then s
      else
        let s := ({ s with err := { s.err with cur := some q, queue := qs } }).showQuiesce
        match q.2 with
        | .update => State.nextQuiesce n s.coxUpdate
        | .silentReset => State.nextQuiesce n (s.silentGo q.1)
        | _ => s
    | _, _ => s

/-- Whether a unit is queued or in progress. -/
def State.quiescing (s : State) (u : Nat) : Bool :=
  (match s.err.cur with
    | some q => decide (q.1 = u)
    | none => false) || s.err.queue.any fun q => q.1 = u

/-- Asks for a quiesce; none where it is answered BUSY (R564). -/
def State.askQuiesce (s : State) (u : Nat) (a : QAct) : Option State :=
  if s.quiescing u ∨ (s.err.cur.isSome ∧ 8 ≤ s.err.queue.length) then none
  else some (State.nextQuiesce 10 ({ s with err := { s.err with queue := s.err.queue ++ [(u, a)] } }).showQuiesce)

/-- A silent unit's reset: at once, or behind the quiesce in progress (R564, R570); a retired unit, a halted Scull (R616) and the always-on Cox
are left. -/
def State.silentUnit (s : State) (u : Nat) : State :=
  if s.isRetired u ∨ u = 0x45 ∨ 0x46 < u ∨ (u ≤ 0x0F ∧ ((s.scull u).halted ∨ (s.scull u).haltPending.isSome)) then s
  else match s.err.cur with
    | some q =>
      if q.1 = u then
        State.nextQuiesce 10 (({ s.endQuiesce stTIMEOUT with err := { (s.endQuiesce stTIMEOUT).err with cur := some (u, .silentReset) } }).silentGo u)
      else
        let rest := s.err.queue.filter fun x => x.1 ≠ u
        ({ s with err := { s.err with queue := (u, .silentReset) :: rest } }).showQuiesce
    | none => State.nextQuiesce 10 ({ s with err := { s.err with queue := (u, .silentReset) :: s.err.queue.filter fun x => x.1 ≠ u } })

/-- Whether no burst of an engine has been issued that awaits its completion. -/
def State.burstsDone (s : State) (e : Nat) : Bool := (s.slide e).bursts.all fun b => b.done || !b.sent

/-- Whether no line that satisfies `hit` has a request in service at its home. -/
def State.linesIdle (s : State) (hit : Nat → Bool) : Bool := s.coh.busy.all fun kv => kv.2.isNone || !hit kv.1

/-- Whether what a unit completes before it is reset or switched off has completed (Table 14.6, step 2). -/
def State.hasDrained (s : State) (u : Nat) (a : QAct) : Bool :=
  if u ≤ 0x0F then (s.scull u).open_ = [] && (rangeFrom (4 * u) 4).all s.burstsDone
  else if u ≤ 0x2F then a = .forceOff || s.linesIdle fun l => inPocket (u - 0x10) (l * 64)
  else if 0x36 ≤ u ∧ u ≤ 0x39 then s.linesIdle fun l => localRegion (l * 64) = .hbm (u - 0x36)
  else if u = 0x44 then (rangeFrom 64 8).all s.burstsDone
  else true

/-- The drain of the quiesce in progress has ended: steps 3 to 5 of Table 14.5. It has not while something is left of what the unit completes first. -/
def State.drained (s : State) : State :=
  match s.err.cur with
  | none => s
  | some (u, a) =>
    let d := unitDomain u
    if s.err.coxHalted ∨ (Tbl.get none s.pwr.returning d).isSome ∨ !s.hasDrained u a then s
    else
      let old := s.epoch u
      match a with
      | .reset => State.nextQuiesce 10 (((s.drainUnit u true).bumpEpoch u).cycle u old)
      | .off | .forceOff | .autoOff =>
        let force := decide (a = .forceOff) && decide (0x10 ≤ u) && decide (u ≤ 0x2F)
        let s := if force then s.countLost (u - 0x10) else s
        let s := (s.drainUnit u true).bumpEpoch u
        let s := if force then (s.forceOrphans (u - 0x10)).losePocket (u - 0x10) else s
        let s := s.domainOff d
        let s := if a = .autoOff then s else s.pin d true
        State.nextQuiesce 10 (s.endQuiesce stOK)
      | _ => s

/-- A domain has come on: the quiesce that waits for it ends, and what waited for it goes on. -/
def State.domainCame (s : State) (d : Nat) : State :=
  let s := s.domainUp d
  let s := match s.err.cur with
    | some q => if unitDomain q.1 = d then s.endQuiesce stOK else s
    | none => s
  (State.nextQuiesce 10 s).afterWake

/-! ### Partitions -/

/-- The entries that a failed partition's lane left unfinished are lost (R578, log entry 41). -/
def State.loseEntries (s : State) (l : Nat) : State :=
  let n := ((s.lane l).entries.filter fun (e : Entry) => !e.ended).length
  (s.setLane l { s.lane l with entries := [] }).laneLose l n 5

/-- The holds of a lane begin again (R397). -/
def State.restartHolds (s : State) (l : Nat) : State :=
  s.setLrn l { s.lrnLane l with holdA := none, holdN := none, holdC := none, srcA := [], srcN := [], srcC := [] }

/-- What a task's input rings still hold of lost triggers is given back (log entry 41). -/
def State.emptyInputs (s : State) (t : Task) : State := t.ins.foldl (fun s i => s.putCon i.1 (s.ringPub i.1)) s

/-- A FAILED partition restarts (R579). -/
def State.restartPart (s : State) (p : Nat) : State :=
  if s.partRunning p then s
  else
    let s := { s with err := { s.err with restartAt := Tbl.set none s.err.restartAt p (some s.now), storm := Tbl.set [] s.err.storm p [],
                                          noAuto := NatSet.del s.err.noAuto p } }
    let s := (s.ctxsOf p).foldl (fun s c => (s.put Fld.XLU_CTX_STATE_STATE c 1).showFaults c) s
    let s := (s.put Fld.ERR_PART_STATE_STATE p 0).put Fld.ERR_PART_STATE_CAUSE p 0
    let ls := (List.range 64).filter fun l => s.laneAdmitted l && s.lanePart l = p
    let s := ls.foldl State.loseEntries s
    let s := s.modelSlots.foldl (fun s k => match s.model k with
      | some m => if m.part = p ∧ m.st = 2 then ((m.units.map TaskUnit.scull).foldl State.wake s).bindModel k m else s
      | none => s) s
    let ts := s.tasks.filterMap fun kv => match kv.2 with
      | some t => if t.part = p then some t else none
      | none => none
    let s := ts.foldl State.emptyInputs s
    let s := ls.foldl (fun s l => (s.setLane l { s.lane l with allNext := true }).restartHolds l) s
    let r : ErrRec := { cls := 0, status := stOK, part := p, block := 0x1B }
    (s.ringWrite p r).ringWrite devRing r

end Sys2Proof.Machine
end

