-- ==== Sys2Proof/Machine/Mailbox.lean ====
section
/-!
DEFINITION. The mailbox: sequence and duplicates (R496), serial execution (R497), the command set (R498 to R501) and its ring (R493, R494, R519).
-/
namespace Sys2Proof.Machine

/-! ### The commands -/

/-- LOAD_MODEL and REPLACE_MODEL (R453, R460, R499). -/
def State.mbLoad (s : State) (f kind : Nat) (a : List Byte) : State :=
  let img := leAt a 0 8
  let len := leAt a 8 4
  let sh := leAt a 16 8
  if !allZero (slice a 12 4) ∨ !allZero (a.drop 24) then s.mbEnd f stDENIED []
  else
    let c := s.memCheck f false img len
    let d := if sh = 0 then stOK else s.memCheck f true sh 512
    if c ≠ stOK then s.mbEnd f c []
    else if d ≠ stOK then s.mbEnd f d []
    else match s.askAdmit { kind := kind, part := f, id := 0, image := s.readBytes img len, fn := some f, short := sh } with
      | some s => s
      | none => s.mbEnd f stBUSY []

/-- UNLOAD_MODEL (R465). -/
def State.mbUnload (s : State) (f : Nat) (a : List Byte) : State :=
  if !allZero (a.drop 4) then s.mbEnd f stDENIED []
  else match s.askAdmit { kind := 3, part := f, id := leAt a 0 4, image := [], fn := some f, short := 0 } with
    | some s => s
    | none => s.mbEnd f stBUSY []

/-- READOUT (R435, R436). -/
def State.mbReadout (s : State) (f : Nat) (a : List Byte) : State :=
  let h := leAt a 0 1
  let no := leAt a 1 1
  let dest := leAt a 8 8
  let len := leAt a 16 8
  if !allZero (slice a 2 6) ∨ !allZero (a.drop 24) ∨ 2 ≤ h then s.mbEnd f stDENIED []
  else match s.pop h no with
    | none => s.mbEnd f stDENIED []
    | some p =>
      if p.part ≠ f ∨ !modeReads p.mode then s.mbEnd f stDENIED []
      else
        let need := (s.snapshot h no p true false).length
        if len < need then s.mbEnd f stREFUSED (leBytes 8 need)
        else
          let c := s.memCheck f true dest need
          if c ≠ stOK then s.mbEnd f c []
          else
            let s := s.wake (54 + h)
            match s.askSnap h { pop := no, readout := true, dest := dest, len := len, fn := some f } with
            | some s => s
            | none => s.mbEnd f stBUSY []

/-- CHECKPOINT (R426, R427, R437); a population that is not dirty needs none. -/
def State.mbCheckpoint (s : State) (f : Nat) (a : List Byte) : State :=
  let h := leAt a 0 1
  let no := leAt a 1 1
  if !allZero (a.drop 2) ∨ 2 ≤ h then s.mbEnd f stDENIED []
  else match s.pop h no with
    | none => s.mbEnd f stDENIED []
    | some p =>
      if p.part ≠ f ∨ !modeKeeps p.mode then s.mbEnd f stDENIED []
      else if !p.dirty then s.mbEnd f stOK (leBytes 8 (s.get Fld.BH_POP_LAST_T_PAUSE (64 * h + no)))
      else if !s.wearOk h p ∨ s.learnOff ∨ s.get Fld.BH_POP_STATUS_SUSPENDED (64 * h + no) = 1 then s.mbEnd f stBUSY []
      else match s.askSnap h { pop := no, readout := false, fn := some f } with
        | some s => s
        | none => s.mbEnd f stBUSY []

/-- Whether a lane is a partition's and has a descriptor (R498). -/
def State.laneOf (s : State) (f l : Nat) : Bool := decide (l < 64) && s.lanePart l = f && s.laneKind l ≠ 0

/-- LANE_MOD (R391): 1 TEACH, 2 MARK, 3 CANCEL. -/
def State.mbMod (s : State) (f : Nat) (a : List Byte) : State :=
  let l := leAt a 0 1
  let q := s.get Fld.RPT_NEXT_SEQ_SEQ l
  if !allZero (a.drop 2) ∨ !s.laneOf f l then s.mbEnd f stDENIED []
  else match leAt a 1 1 with
    | 1 => (s.teach l 2).mbEnd f stOK (leBytes 4 q)
    | 2 => (s.mark l 2).mbEnd f stOK (leBytes 4 q)
    | 3 => (s.cancelMod l 2).mbEnd f stOK (leBytes 4 q)
    | _ => s.mbEnd f stDENIED []

/-- The buzzer falls silent (R537). -/
def State.silence (s : State) : State := { s with pnl := { s.pnl with alarm := false } }

/-- LANE_ACK (R400, R537). -/
def State.mbAck (s : State) (f : Nat) (a : List Byte) : State :=
  let l := leAt a 0 1
  let q := if s.get Fld.LRN_NOV_STATE_STATE l = 2 then s.get Fld.RPT_NEXT_SEQ_SEQ l else 0xFFFFFFFF
  if !allZero (a.drop 1) ∨ !s.laneOf f l then s.mbEnd f stDENIED []
  else (s.ackLane l 2).silence.mbEnd f stOK (leBytes 4 q)

/-- Decode buffer slots of a die that no lane owns and no capture uses (R80, R501). -/
def State.spareSlots (s : State) (die : Nat) : Nat :=
  192 - ((List.range 192).filter fun i => (Tbl.get none s.boot.owners (resKey 4 die i)).isSome).length -
    ((List.range 64).filter fun l => s.onDie l die && (s.lane l).capture.isSome).length

/-- CAPTURE_FRAME (R501): the lane's next decoded frame goes to the destination. -/
def State.mbCapture (s : State) (f : Nat) (a : List Byte) : State :=
  let l := leAt a 0 1
  let dest := leAt a 8 8
  let need := s.laneField l 0x66 2 * s.laneField l 0x68 2 * 3 / 2
  if !allZero (slice a 1 7) ∨ !allZero (a.drop 24) ∨ !s.laneOf f l ∨ s.laneKind l ≠ 1 then s.mbEnd f stDENIED []
  else if leAt a 16 8 < need then s.mbEnd f stREFUSED []
  else
    let c := s.memCheck f true dest need
    if c ≠ stOK then s.mbEnd f c []
    else if s.spareSlots (s.laneField l 4 1) = 0 ∨ (s.lane l).capture.isSome then s.mbEnd f stBUSY []
    else (s.wake (62 + 3 * s.laneField l 4 1)).setLane l { s.lane l with capture := some (f, dest, s.now) }

/-- HEARTBEAT (R576): the timer restarts; after an expiry one OK record. -/
def State.mbHeartbeat (s : State) (f : Nat) (a : List Byte) : State :=
  if !allZero (a.drop 4) then s.mbEnd f stDENIED []
  else
    let late := NatSet.has s.err.hbLate f
    let s := (s.put Fld.HOST_HB_LAST_VALUE f (leAt a 0 4))
    let s := { s with err := { s.err with hbAt := Tbl.set none s.err.hbAt f (some s.now), hbLate := NatSet.del s.err.hbLate f } }
    let s := if late then s.record { cls := 0, status := stOK, part := f, block := 0x17 } else s
    s.mbEnd f stOK (leBytes 4 (leAt a 0 4))

/-- What every flash command is answered before it acts (R48, R498, R500). -/
def State.flashCheck (s : State) (f slot off len unit : Nat) : Nat :=
  if f ≠ 0 then stDENIED
  else if !s.flag Fld.BOOT_STATUS_FLASH_OWN 0 then stBUSY
  else if 2 ≤ slot ∨ s.boot.slot = some slot then stDENIED
  else if off % unit ≠ 0 ∨ len % unit ≠ 0 ∨ 0x1C00000 < off + len then stDENIED
  else stOK

/-- FLASH_ERASE (R500). -/
def State.mbErase (s : State) (f : Nat) (a : List Byte) : State :=
  let slot := leAt a 0 1
  let off := leAt a 4 4
  let len := leAt a 8 4
  let c := if !allZero (slice a 1 3) ∨ !allZero (a.drop 12) then stDENIED else s.flashCheck f slot off len 65536
  if c ≠ stOK then s.mbEnd f c []
  else
    let b := slotBase slot + off
    let out := fun (k : Nat) => !(decide (b ≤ k) && decide (k < b + len))
    ({ s with boot := { s.boot with flash := s.boot.flash.filter fun kv => out kv.1,
                                    flashWritten := s.boot.flashWritten.filter fun kv => out (kv.1 * 256) } }).mbEnd f stOK []

/-- Writes flash bytes. -/
def State.flashPut (s : State) (b : Nat) (bs : List Byte) : State :=
  { s with boot := { s.boot with
    flash := (bs.zip (List.range bs.length)).foldl (fun t x => Tbl.set 0xFF t (b + x.2) x.1) s.boot.flash,
    flashWritten := (List.range ((bs.length + 255) / 256)).foldl (fun t i => NatSet.add t (b / 256 + i)) s.boot.flashWritten } }

/-- FLASH_WRITE (R500); `bad`: a page reads back different, and what the bytes written now hold is open. -/
def State.mbFlashWrite (s : State) (f : Nat) (a : List Byte) (bad : Bool) : State :=
  let slot := leAt a 0 1
  let off := leAt a 4 4
  let len := leAt a 8 4
  let src := leAt a 16 8
  let c := if !allZero (slice a 1 3) ∨ !allZero (slice a 12 4) ∨ !allZero (a.drop 24) ∨ 0x100000 < len then stDENIED
    else s.flashCheck f slot off len 256
  if c ≠ stOK then s.mbEnd f c []
  else
    let m := s.memCheck f false src len
    let b := slotBase slot + off
    if m ≠ stOK then s.mbEnd f m []
    else if (List.range (len / 256)).any fun i => NatSet.has s.boot.flashWritten (b / 256 + i) then s.mbEnd f stDENIED []
    else
      let bs := s.readBytes src len
      if bad then
        let what := (List.range len).map fun i => BitVec.ofNat 8 (Config.freeNat (s.free + i))
        (({ s with free := s.free + len }).flashPut b what).mbEnd f stECC []
      else (s.flashPut b bs).mbEnd f stOK (leBytes 4 (crc32 bs))

/-- FLASH_READ (R500). -/
def State.mbFlashRead (s : State) (f : Nat) (a : List Byte) : State :=
  let slot := leAt a 0 1
  let off := leAt a 4 4
  let len := leAt a 8 4
  let dest := leAt a 16 8
  let c := if !allZero (slice a 1 3) ∨ !allZero (slice a 12 4) ∨ !allZero (a.drop 24) then stDENIED else s.flashCheck f slot off len 1
  if c ≠ stOK then s.mbEnd f c []
  else
    let m := s.memCheck f true dest len
    if m ≠ stOK then s.mbEnd f m []
    else
      let bs := s.flashBytes (slotBase slot + off) len
      (s.writeBytes dest bs).mbEnd f stOK (leBytes 4 (crc32 bs))

/-- Executes a command whose SEQ is the expected one (R498, Table 12.9). -/
def State.mbAction (s : State) (f op : Nat) (a : List Byte) (bad : Bool) : State :=
  match op with
  | 0x01 => if allZero a then s.mbEnd f stOK [] else s.mbEnd f stDENIED []
  | 0x02 => s.mbLoad f 1 a
  | 0x03 => s.mbLoad f 2 a
  | 0x04 => s.mbUnload f a
  | 0x05 => s.mbReadout f a
  | 0x06 => s.mbCheckpoint f a
  | 0x07 => s.mbMod f a
  | 0x08 => s.mbAck f a
  | 0x09 => s.mbCapture f a
  | 0x0A => s.mbHeartbeat f a
  | 0x10 => s.mbErase f a
  | 0x11 => s.mbFlashWrite f a bad
  | 0x12 => s.mbFlashRead f a
  | _ => s.mbEnd f stDENIED []

/-! ### Taking a command (R496, R497) -/

/-- Whether `seq` is one of the 1,024 numbers before `next` (R496). -/
def seqBefore (next seq : Nat) : Bool := let d := (next + 2 ^ 32 - seq) % 2 ^ 32; decide (1 ≤ d) && decide (d ≤ 1024)

/-- HEAD moves on over the command taken (R494). -/
def State.mbAdvance (s : State) (f : Nat) : State := s.put Fld.HOST_MB_HEAD_HEAD f (s.get Fld.HOST_MB_HEAD_HEAD f + 1)

/-- A command whose SEQ is the expected one is in progress, and the next SEQ is expected (R496, R497). -/
def State.mbBegin (s : State) (f seq op : Nat) (irq : Bool) (a : List Byte) : State :=
  let b : BusyCmd := { seq := seq, op := op, irq := irq, args := a }
  ({ s with host := { s.host with busy := Tbl.set none s.host.busy f (some b) } }).put Fld.HOST_MB_NEXT_SEQ_SEQ f (seq + 1)

/-- One command taken from a function's ring (R496). `clean` tells that its reserved header bytes are 0 (R498). -/
def State.mbTake (s : State) (f seq op : Nat) (irq clean : Bool) (a : List Byte) (bad : Bool) : State :=
  let next := s.get Fld.HOST_MB_NEXT_SEQ_SEQ f
  let s := s.mbAdvance f
  let old := if seqBefore next seq then (Tbl.get [] s.host.done f).find? fun (c : Completion) => c.seq = seq else none
  if seq = next then
    let s := s.mbBegin f seq op irq a
    if clean then s.mbAction f op a bad else s.mbEnd f stDENIED []
  else match old with
    | some c => (s.bump Fld.HOST_MB_DUP_CNT_CNT f 1).mbWrite f c.seq c.op stDUPLICATE c.status c.result c.time irq
    | none => s.mbWrite f seq op stDENIED stDENIED [] s.dev irq

/-- Whether a function has a mailbox: its partition was created, or, before the release step, it is the physical function, whose flash commands
are answered BUSY (R48, Crossing 6 of chapter 2). -/
def State.mbFunction (s : State) (f : Nat) : Bool :=
  (Tbl.get none s.boot.parts f).isSome || (f = 0 && !s.flag Fld.BOOT_STATUS_FLASH_OWN 0)

/-- Whether a function's mailbox takes a command now (R497, R618). -/
def State.mbReady (s : State) (f : Nat) : Bool :=
  s.flag Fld.HOST_MB_CFG_ENABLE f && (Tbl.get none s.host.busy f).isNone && s.cqFree f && !s.err.coxHalted && s.mbFunction f

/-- Takes the commands that wait in a function's ring (R494, R497, R519). -/
def State.mbPump : Nat → Nat → State → State
  | 0, _, s => s
  | n + 1, f, s =>
    let head := s.get Fld.HOST_MB_HEAD_HEAD f
    if !s.mbReady f ∨ head = s.get Fld.HOST_MB_TAIL_TAIL f then s
    else
      let at_ := s.get Fld.HOST_MB_BASE_BASE f + head % 2 ^ s.get Fld.HOST_MB_CFG_LOG2_CMD f * 64
      let c := s.memCheck f false at_ 64
      if c ≠ stOK then s.mbFault f c
      else
        let b := s.readBytes at_ 64
        let fl := leAt b 5 1
        State.mbPump n f (s.mbTake f (leAt b 0 4) (leAt b 4 1) (bit fl 0) (decide (fl < 2) && leAt b 6 2 = 0) (b.drop 8) false)

/-- Every mailbox takes what waits in its ring. -/
def State.mbAll (s : State) : State := (List.range 8).foldl (fun s f => State.mbPump 65536 f s) s

/-- The host has written a command behind the ring's tail and rung the doorbell. -/
def State.mbRing (s : State) (f : Nat) : State :=
  let tail := s.get Fld.HOST_MB_TAIL_TAIL f
  if tail = s.get Fld.HOST_MB_HEAD_HEAD f then s.put Fld.HOST_MB_TAIL_TAIL f (tail + 1) else s

/-- The 56 argument bytes of a command (Table 12.7). -/
def mbArgs (a : List Byte) : List Byte := (a ++ List.replicate 56 0).take 56

/-- A command as its function's mailbox takes it, with arguments `a` padded to 56 bytes (Table 12.7). -/
def State.mbRow (s : State) (f seq op : Nat) (irq : Bool) (a : List Byte) (bad : Bool) : State :=
  if !s.mbReady f then s else ((s.mbRing f).mbTake f seq op irq true (mbArgs a) bad).mbAll

/-- NOP (Table 12.9). -/
def execNop (fn : Fin 8) (seq : BitVec 32) (irq : Bool) (s : State) : Effect := .next (s.start.mbRow fn.val seq.toNat 0x01 irq [] false)

/-- LOAD_MODEL (R453, R458 to R460). -/
def execLoadModel (fn : Fin 8) (seq : BitVec 32) (irq : Bool) (arg : List Byte) (s : State) : Effect :=
  .next (s.start.mbRow fn.val seq.toNat 0x02 irq arg false)

/-- REPLACE_MODEL (R461 to R464, Table 11.8). -/
def execReplaceModel (fn : Fin 8) (seq : BitVec 32) (irq : Bool) (arg : List Byte) (s : State) : Effect :=
  .next (s.start.mbRow fn.val seq.toNat 0x03 irq arg false)

/-- UNLOAD_MODEL (R465). -/
def execUnloadModel (fn : Fin 8) (seq : BitVec 32) (irq : Bool) (id : BitVec 32) (s : State) : Effect :=
  .next (s.start.mbRow fn.val seq.toNat 0x04 irq (leBytes 4 id.toNat) false)

/-- READOUT (R435, R436). -/
def execReadout (fn : Fin 8) (seq : BitVec 32) (irq : Bool) (arg : List Byte) (s : State) : Effect :=
  .next (s.start.mbRow fn.val seq.toNat 0x05 irq arg false)

/-- CHECKPOINT (R427, R428). -/
def execCheckpoint (fn : Fin 8) (seq : BitVec 32) (irq : Bool) (eng pop : BitVec 8) (s : State) : Effect :=
  .next (s.start.mbRow fn.val seq.toNat 0x06 irq (leBytes 1 eng.toNat ++ leBytes 1 pop.toNat) false)

/-- LANE_MOD with action TEACH (R391). -/
def execLaneModTeach (fn : Fin 8) (seq : BitVec 32) (irq : Bool) (lane : BitVec 8) (s : State) : Effect :=
  .next (s.start.mbRow fn.val seq.toNat 0x07 irq (leBytes 1 lane.toNat ++ leBytes 1 1) false)

/-- LANE_MOD with action MARK (R391). -/
def execLaneModMark (fn : Fin 8) (seq : BitVec 32) (irq : Bool) (lane : BitVec 8) (s : State) : Effect :=
  .next (s.start.mbRow fn.val seq.toNat 0x07 irq (leBytes 1 lane.toNat ++ leBytes 1 2) false)

/-- LANE_MOD with action CANCEL (R391). -/
def execLaneModCancel (fn : Fin 8) (seq : BitVec 32) (irq : Bool) (lane : BitVec 8) (s : State) : Effect :=
  .next (s.start.mbRow fn.val seq.toNat 0x07 irq (leBytes 1 lane.toNat ++ leBytes 1 3) false)

/-- LANE_ACK (R400). -/
def execLaneAck (fn : Fin 8) (seq : BitVec 32) (irq : Bool) (lane : BitVec 8) (s : State) : Effect :=
  .next (s.start.mbRow fn.val seq.toNat 0x08 irq (leBytes 1 lane.toNat) false)

/-- CAPTURE_FRAME (R501). -/
def execCaptureFrame (fn : Fin 8) (seq : BitVec 32) (irq : Bool) (arg : List Byte) (s : State) : Effect :=
  .next (s.start.mbRow fn.val seq.toNat 0x09 irq arg false)

/-- CAPTURE_TIMEOUT (R501): no frame arrived within 1 s. -/
def execCaptureTimeout (lane : Fin 64) (s : State) : Effect :=
  let s := s.start
  let x := s.lane lane.val
  .next (match x.capture with
    | none => s
    | some c => ((s.setLane lane.val { x with capture := none }).mbEnd c.1 stDOWN []).mbAll)

/-- HEARTBEAT (R576). -/
def execHeartbeat (fn : Fin 8) (seq : BitVec 32) (irq : Bool) (value : BitVec 32) (s : State) : Effect :=
  .next (s.start.mbRow fn.val seq.toNat 0x0A irq (leBytes 4 value.toNat) false)

/-- FLASH_ERASE (R500). -/
def execFlashErase (fn : Fin 8) (seq : BitVec 32) (irq : Bool) (arg : List Byte) (s : State) : Effect :=
  .next (s.start.mbRow fn.val seq.toNat 0x10 irq arg false)

/-- FLASH_WRITE (R500). -/
def execFlashWrite (fn : Fin 8) (seq : BitVec 32) (irq : Bool) (arg : List Byte) (bad : Bool) (s : State) : Effect :=
  .next (s.start.mbRow fn.val seq.toNat 0x11 irq arg bad)

/-- FLASH_READ (R500). -/
def execFlashRead (fn : Fin 8) (seq : BitVec 32) (irq : Bool) (arg : List Byte) (s : State) : Effect :=
  .next (s.start.mbRow fn.val seq.toNat 0x12 irq arg false)

/-- INTERRUPT_INTERVAL_EXPIRY (R491): a vector's interval ends; it fires again while its cause persists: one met since it fired, or a fault queue that
is not empty or holds faults back (Table 12.6). -/
def execInterruptIntervalExpiry (fn vec : Fin 8) (s : State) : Effect :=
  let s := s.start
  let k := fn.val * 8 + vec.val
  let s := { s with host := { s.host with irqAt := Tbl.set none s.host.irqAt k none } }
  let level := vec.val = 2 && (s.get Fld.XLU_FQ_HEAD_HEAD fn.val ≠ s.get Fld.XLU_FQ_TAIL_TAIL fn.val || s.flag Fld.XLU_FQ_STATUS_FAULTQ_FULL fn.val)
  .next (if NatSet.has s.host.irqDue k ∨ level then s.msix fn.val vec.val else s)

end Sys2Proof.Machine
end

