-- ==== Sys2Proof/Machine/Boathouse.lean ====
section
/-!
DEFINITION. Checkpoints on their way to the Boathouse (R427, R428, R438), and the event ring an engine leaves unconsumed (R406).
-/
namespace Sys2Proof.Machine

/-- EVENT_RING_TIMEOUT (R406): an event ring entry has waited 100 ms; one record, and the engine is silent (R570). -/
def execEventRingTimeout (lane : Fin 64) (s : State) : Effect :=
  let s := s.start
  let x := s.lrnLane lane.val
  .next (if x.ring = 0 ∨ s.ringPub x.ring ≤ s.ringCon x.ring ∨ s.err.coxHalted ∨ !s.domOn (50 + x.engine) then s
    else
      let u := 0x30 + x.engine
      ((s.record { cls := 1, status := stTIMEOUT, unit := u, block := 0x12, lane := some lane.val }).silentUnit u).mbAll)

/-- Whether a population index names a KEEP or BOTH population, with the population. -/
def State.keptPop (s : State) (n : Nat) : Option Pop :=
  match s.pop (n / 64) (n % 64) with
  | some p => if modeKeeps p.mode then some p else none
  | none => none

/-- Whether a population's checkpoints are suspended (R438). -/
def State.suspended (s : State) (n : Nat) : Bool := s.flag Fld.BH_POP_STATUS_SUSPENDED n

/-- Puts a checkpoint off until the wear budget, the request queue or the Cox allows it (R427, R618). -/
def State.putOff (s : State) (n : Nat) (byReg counts : Bool) : State :=
  let b := n / 64
  let x := s.bnk b
  if x.deferred.any fun (r : SnapReq) => r.pop = n % 64 then s
  else
    let s := s.setBank b { x with deferred := x.deferred ++ [{ pop := n % 64, readout := false, byReg := byReg }] }
    if counts then s.bump Fld.BH_DEFER_CNT_CNT b 1 else s

/-- Starts or queues a checkpoint, or puts it off where the queue is full. -/
def State.startCheckpoint (s : State) (n : Nat) (byReg : Bool) : State :=
  match s.askSnap (n / 64) { pop := n % 64, readout := false, byReg := byReg } with
  | some s => s
  | none => s.putOff n byReg false

/-- CHECKPOINT_DUE (R427, R618): a population's interval has passed: skipped where it is not dirty, put off where the wear budget or the halted
Cox asks for it, else started. -/
def execCheckpointDue (n : Fin 128) (s : State) : Effect :=
  let s := s.start
  let k := n.val
  .next (match s.keptPop k with
    | none => s
    | some p =>
      if !p.dirty ∨ s.suspended k ∨ s.learnOff then s
      else if s.err.coxHalted then s.putOff k false false
      else if !s.wearOk (k / 64) p then s.putOff k false true
      else (s.startCheckpoint k false).mbAll)

/-- DEFERRED_CHECKPOINT_START (R427): a checkpoint put off starts as soon as the wear budget allows. -/
def execDeferredCheckpointStart (n : Fin 128) (s : State) : Effect :=
  let s := s.start
  let k := n.val
  let x := s.bnk (k / 64)
  .next (match s.keptPop k, x.deferred.find? fun (r : SnapReq) => r.pop = k % 64 with
    | some p, some r =>
      if s.err.coxHalted ∨ s.learnOff ∨ !s.wearOk (k / 64) p then s
      else
        let s := s.setBank (k / 64) { x with deferred := x.deferred.filter fun (r : SnapReq) => r.pop ≠ k % 64 }
        if p.dirty ∧ !s.suspended k then (s.startCheckpoint k r.byReg).mbAll else s.regDone r.byReg
    | _, _ => s)

/-- BH_CMD_STATUS after a write of BH_CMD (R441). -/
def State.bhAnswer (s : State) (n status notDirty pending : Nat) : State :=
  (((s.put Fld.BH_CMD_STATUS_STATUS 0 status).put Fld.BH_CMD_STATUS_POP 0 n).put Fld.BH_CMD_STATUS_NOT_DIRTY 0 notDirty).put
    Fld.BH_CMD_STATUS_PENDING 0 pending

/-- From now on no earlier request clears PENDING: BH_CMD_STATUS shows the last write. -/
def State.forgetReg (s : State) : State :=
  [0, 1].foldl (fun s b =>
    let x := s.bnk b
    let f := fun (r : SnapReq) => { r with byReg := false }
    s.setBank b { x with cur := x.cur.map f, queue := x.queue.map f, deferred := x.deferred.map f, writing := x.writing.map fun (w : SlotWrite) => { w with byReg := false } }) s

/-- A write of BH_CMD (R427, R441). -/
def State.bhCommand (s : State) (v : Nat) : State :=
  let n := v % 128
  match s.keptPop n, (bits v 9 8 = 1 : Bool) with
  | some p, true =>
    let s := s.forgetReg
    if !p.dirty then s.bhAnswer n stOK 1 0
    else if s.suspended n ∨ s.learnOff ∨ !s.wearOk (n / 64) p then s.bhAnswer n stBUSY 0 0
    else match (s.bhAnswer n stOK 0 1).askSnap (n / 64) { pop := n % 64, readout := false, byReg := true } with
      | some s => s.mbAll
      | none => s.bhAnswer n stBUSY 0 0
  | _, _ => s.forgetReg.bhAnswer n stDENIED 0 0

/-- SNAPSHOT_COPY_DONE (R416, R417, R436, Table 10.4 steps 3 and 4): the engine's copy has ended. -/
def execSnapshotCopyDone (eng : Fin 2) (ecc : Bool) (s : State) : Effect :=
  .next ((s.start.copyDone eng.val ecc).mbAll)

/-- SLOT_WRITE_DONE (R427, R438, Table 10.4 step 5): the controller has written a slot; `failed` names blocks whose write failed. -/
def execSlotWriteDone (bank : Fin 2) (failed : List Nat) (s : State) : Effect :=
  .next ((s.start.slotWritten bank.val failed).mbAll)

/-- READBACK_DONE (R428, R438, R439, Table 10.4 steps 6 to 8): the read-back of a slot has ended. -/
def execReadbackDone (bank : Fin 2) (corrected : Nat) (failed : List Nat) (s : State) : Effect :=
  .next ((s.start.slotRead bank.val corrected failed).mbAll)

end Sys2Proof.Machine
end

