-- ==== Sys2Proof/Machine/Boot.lean ====
section
/-!
DEFINITION. The start-up timeline (Table 2.12): the commands START_UP, FLASH_READ_TIMEOUT and TRAINING_COMPLETE.
-/
namespace Sys2Proof.Machine

/-- A field of the lifecycle (R594, R595). -/
def State.showLifecycle (s : State) : State :=
  let retired := bit s.boot.lcFuses 1
  let locked := bit s.boot.lcFuses 0
  let s := (s.put Fld.SEC_LIFECYCLE_LOCKED_F 0 (b2n locked)).put Fld.SEC_LIFECYCLE_RETIRE_F 0 (b2n retired)
  s.put Fld.SEC_LIFECYCLE_STATE 0 (if retired then 3 else if locked then 1 else 0)

/-- SEC_ROOT_KEYS (Table 15.11). -/
def State.showKeys (s : State) (idx : Nat) : State :=
  let v := (List.range 4).foldl (fun a n => a + (if allZero (s.rootHash n) then 0 else if s.rootRevoked n then 2 else 1) * 4 ^ n) 0
  (s.put Fld.SEC_ROOT_KEYS_SLOTS 0 v).put Fld.SEC_ROOT_KEYS_KEY_IDX 0 idx

/-- Sets a slot's check code (R67). -/
def State.putCode (s : State) (k c : Nat) : State :=
  ((if k = 0 then s.put Fld.BOOT_SLOT_CODE_SLOT_A 0 c else s.put Fld.BOOT_SLOT_CODE_SLOT_B 0 c)).console 1 (k * 256 + c)

/-- A slot's check code. -/
def State.code (s : State) (k : Nat) : Nat := if k = 0 then s.get Fld.BOOT_SLOT_CODE_SLOT_A 0 else s.get Fld.BOOT_SLOT_CODE_SLOT_B 0

/-- Flash is released (R47). -/
def State.releaseFlash (s : State) : State := ((s.put Fld.BOOT_STATUS_FLASH_OWN 0 1).emit (.pin 2 1)).msix 0 5

/-- The units that bare mode and running both need: IO-A's NET domain and the PCIe endpoint (R69). -/
def State.hostDomains (s : State) : State := (s.putBit Fld.PWR_STATE_ON 61 true).putBit Fld.PWR_STATE_ON 70 true

/-- IO-A has not trained: no host endpoint and no panel, PWR_GOOD low, and the console reports it (R43). -/
def State.ioaLost (s : State) : State :=
  let s := { s with boot := { s.boot with ioaLost := true } }
  (((s.putBit Fld.PWR_STATE_ON 61 false).putBit Fld.PWR_STATE_ON 70 false).emit (.pin 1 0)).console 2 0

/-- Bare mode (R69, Table 2.12 step 7). IO-A serves the host and the panel unless its training has failed by then (R43). With code 0x13 no root
key hash is shown (R84). Step 8 is not run here; DESIGN CHOICE: partition 0 gets every context, so that the mailbox of the physical function
lives, and BOOT_RES_OWNER shows every other resource as free (log entry 103). -/
def State.enterBare (s : State) (code : Nat) (env : StartEnv) : State :=
  let s := (((s.put Fld.BOOT_STATUS_STATE 0 2).put Fld.BOOT_STATUS_CODE 0 code).put Fld.BOOT_STATUS_SLOT 0 0).put Fld.BOOT_TIME_MS_VALUE 0 env.ms
  let s := (if code = 0x13 then s else s.showKeys 7).makeParts [] []
  let s := (({ s with boot := { s.boot with phase := .bare } }).console 2 code).releaseFlash
  let s := s.put Fld.PNL_SEL_NONE 0 1
  if env.ioaFails then s.ioaLost else (s.hostDomains).emit (.pin 1 1)

/-- Whether the COXPATCH record obeys R63: its body of at most 1 MiB follows it within the section, and its reserved bytes are 0. -/
def coxPatchOk (img : List Byte) (r : List Byte) : Bool :=
  decide (leAt r 4 4 ≤ 0x100000) && decide (32 + leAt r 4 4 ≤ (imgSec img 6).2) && allZero (slice r 8 8)

/-- Step 9: the patch is loaded, its record dropped (R63, R75), or its load fails (R86). -/
def State.loadPatch (s : State) (img : List Byte) (fails : Bool) : State :=
  match imgRecs img 6 with
  | [] => s
  | r :: _ =>
    if !coxPatchOk img r then s.dropRec
    else if fails then s.record (recX 0x01 stABORTED)
    else { s with boot := { s.boot with coxPatch := true } }

/-- The chosen slot runs (steps 8 and 9): the layers, ownership, the patch, the flash released. -/
def State.runSlot (s : State) (k : Nat) (env : StartEnv) : State :=
  let img := s.slotImg k
  let s := ((s.put Fld.BOOT_STATUS_SLOT 0 k).applyImage img env.burnFails).showKeys (leAt img (img.length - 140) 1)
  let s := (List.range 4).foldl (fun s i => s.put Fld.BOOT_IMAGE_ID_VALUE i (leAt img (0x20 + 4 * i) 4)) s
  let s := s.loadPatch img env.patchFails
  ({ s with boot := { s.boot with slot := some k, phase := .training } }).releaseFlash

/-- Which read of a slot hangs and has not been given up yet (R85). -/
def State.hang (s : State) (env : StartEnv) (k : Nat) : FlashHang :=
  if s.code k = 0x0A then .none else if k = 0 then env.hangA else env.hangB

/-- Whether a slot's header has been read: no read of it was given up in step 4 (R85, R88). -/
def headerRead (env : StartEnv) (k : Nat) : Bool := decide ((if k = 0 then env.hangA else env.hangB) ≠ .header)

/-- Reading slot `k` hangs: the 10 ms of R85 run. -/
def State.slotHangs (s : State) (k : Nat) : State := { s with boot := { s.boot with phase := .readingSlot k } }

/-- Step 6 of Table 2.12: the second slot, or bare mode (R68, R85). -/
def State.secondSlot (s : State) (env : StartEnv) (k : Nat) : State :=
  if s.hang env k = .body then s.slotHangs k
  else
    let c := if s.code k = 0x0A then 0x0A else s.slotCheck k
    let s := s.putCode k c
    if c = 0 then s.runSlot k env else s.enterBare 0x11 env

/-- Step 5 of Table 2.12: the first slot runs where it is valid, the other one then left unchecked (R68, R85). -/
def State.firstSlot (s : State) (env : StartEnv) (k : Nat) : State :=
  if s.hang env k = .body then s.slotHangs k
  else
    let c := if s.code k = 0x0A then 0x0A else s.slotCheck k
    let s := s.putCode k c
    if c = 0 then (if s.code (1 - k) = 0x0A then s else s.putCode (1 - k) 0x0B).runSlot k env else s.secondSlot env (1 - k)

/-- Steps 4 to 9 of Table 2.12, as far as the flash answers (R68, R85). -/
def State.readSlots (s : State) (env : StartEnv) : State :=
  if s.hang env 0 = .header then s.slotHangs 0
  else if s.hang env 1 = .header then s.slotHangs 1
  else
    let cm := fun (k : Nat) => if headerRead env k then s.slotCommit k else 0
    let ok := fun (k : Nat) => headerRead env k && s.headerOk k
    let s := (s.put Fld.BOOT_COMMIT_A_VALUE 0 (cm 0)).put Fld.BOOT_COMMIT_B_VALUE 0 (cm 1)
    s.firstSlot env (if ok 0 ∧ ok 1 then (if cm 0 < cm 1 then 1 else 0) else if ok 1 then 1 else 0)

/-- Writes 0 to every block of both banks (R597 step 3, R598). -/
def State.eraseBanks (s : State) : State := { s with bh := [] }

/-- START_UP (Table 2.12 steps 1 to 9, R82, R84, R598). -/
def execStartUp (env : StartEnv) (s : State) : Effect :=
  let s := s.start
  .next (if s.boot.phase ≠ .reset then s
    else
      let s := if env.powerOn then s.powerOnReset else s
      let s := ({ s with boot := { s.boot with env := some env } }).showLifecycle
      let s := s.console 1 0
      if bit s.boot.lcFuses 1 then
        let s := (s.eraseBanks).console 3 0
        { s with boot := { s.boot with phase := .stopped } }
      else if !s.otpOk then s.enterBare 0x13 env
      else
        let s := s.facLayer
        if env.forceFactory ∨ env.teachAck then s.enterBare 0x12 env
        else (s.put Fld.BOOT_STATUS_STATE 0 0).readSlots env)

/-- FLASH_READ_TIMEOUT (R85): the slot being read has the code FLASH_READ, and R68 goes on. -/
def execFlashReadTimeout (slot : Fin 2) (s : State) : Effect :=
  let s := s.start
  .next (if s.boot.phase = .readingSlot slot.val then
      match s.boot.env with
      | some env => (s.putCode slot.val 0x0A).readSlots env
      | none => s
    else s)

/-- Every domain that wakes is on: the start-up timeline waits for them. -/
def State.wakeAll (s : State) : State := ((List.range 72).filter s.waking).foldl State.domainUp s

/-- Step 13: one model of MODELS. -/
def State.bootModel (s : State) (m : Nat × List Byte × Nat) : State :=
  match s.askAdmit { kind := 1, part := m.2.2, id := m.1, image := m.2.1, fn := none, short := 0 } with
  | some s => s.wakeAll.afterWake
  | none => s

/-- Joins a camera lane's multicast group (Table 8.4, step 15). -/
def State.joinLane (s : State) (l : Nat) : State :=
  let d := Tbl.get [] s.boot.lanes l
  let g := slice d 0x50 16
  if s.laneKind l ≠ 1 ∨ allZero g ∨ !s.laneAdmitted l then s
  else
    let j := (s.laneField l 4 1, s.laneField l 5 1, s.laneField l 0x60 1, g, slice d 0x40 16)
    if s.ptp.joins.contains j then s else { s with ptp := { s.ptp with joins := s.ptp.joins ++ [j] } }

/-- The record of a device-fatal restart (Table 14.8 step 5) and of a thermal trip (R663). -/
def State.startRecords (s : State) : State :=
  let s := match s.err.fatalReport with
    | some c => ({ s with err := { s.err with fatalReport := none } }).record { cls := 3, status := stABORTED, block := 0x1B, infoKind := 6, info := c }
    | none => s
  if s.mod.tripReport then ({ s with mod := { s.mod with tripReport := false } }).record (recX 0x00 stABORTED) else s

/-- Step 10 of Table 2.12: GLB_PRESENT shows the fitted stacks and dies that trained; one record per fitted stack that did not (R41, R44, R45). -/
def State.showPresent (s : State) (stackUp dieUp : Nat) : State :=
  let fitS := s.get Fld.GLB_VARIANT_STACK_FIT 0
  let up := Nat.land stackUp fitS
  let s := (s.put Fld.GLB_PRESENT_STACK_UP 0 up).put Fld.GLB_PRESENT_IOD_UP 0 (Nat.land dieUp (s.get Fld.GLB_VARIANT_IOD_FIT 0))
  ((List.range 4).filter fun n => bit fitS n && !bit up n).foldl (fun s n =>
    s.record { cls := 1, status := stDOWN, unit := 0x36 + n, block := 0x00 }) s

/-- A lane of a die that is not up does not start: DISABLED, with one record (R42). -/
def State.dieLost (s : State) (l : Nat) : State :=
  (s.put Fld.LANE_STATUS_STATE l 1).record
    { cls := 1, status := stDOWN, unit := 0x3A + 3 * s.laneField l 4 1, part := s.lanePart l, block := 0x10, lane := some l }

/-- The domains that are on from start-up (Table 7.3). -/
def State.startDomains (s : State) : List Nat :=
  ((List.range 4).filter (bit (s.get Fld.GLB_PRESENT_STACK_UP 0))).map (57 + ·) ++
  ((List.range 3).filter (bit (s.get Fld.GLB_PRESENT_IOD_UP 0))).map (61 + 3 * ·) ++
  ((List.range 32).filter fun n => coxGranule (n * 32)).map (16 + ·) ++ [48, 49, 56, 54, 55]

/-- A link port notes whether a cable is present, and tries to train only then (R508, R654). -/
def State.portTry (cables : Nat) (s : State) (d : Nat) : State :=
  if bit cables d then ({ s with mod := { s.mod with cables := NatSet.add s.mod.cables d } }).put Fld.JL_STATUS_STATE d 1
  else { s with mod := { s.mod with cables := NatSet.del s.mod.cables d } }

/-- Steps 10 to 16 of Table 2.12 with an image. -/
def State.startAll (s : State) (stackUp dieUp cables : Nat) (bch : List BchRead) (ms : Nat) : State :=
  let s := s.showPresent stackUp dieUp
  let die := s.get Fld.GLB_PRESENT_IOD_UP 0
  let lost := s.lanesPresent.filter fun l => !bit die (s.laneField l 4 1) && s.get Fld.LANE_STATUS_STATE l ≠ 1
  let s := lost.foldl State.dieLost s
  let s := if bit dieUp 0 then s.hostDomains else s.ioaLost
  let s := s.startDomains.foldl (fun s d => s.putBit Fld.PWR_STATE_ON d true) s
  let s := ((List.range 3).filter (bit die)).foldl (State.portTry cables) s
  let s := (s.readLog 0 bch).readLog 1 bch
  let s := s.boot.models.foldl State.bootModel s
  let s := (s.lanesPresent.filter fun l => s.get Fld.LANE_STATUS_STATE l ≠ 1).foldl (fun s l => s.admitLane l true) s
  let s := s.wakeAll.afterWake
  let s := (List.range 64).foldl State.joinLane s
  let s := (List.range 4).foldl (fun s i => match s.col i with
    | some c => s.setCol i { c with unresolvedAt := s.now }
    | none => s) s
  let s := { (s.put Fld.BOOT_STATUS_STATE 0 1).put Fld.BOOT_TIME_MS_VALUE 0 ms with boot := { s.boot with phase := .running } }
  let s := s.startRecords
  let s := match s.listed with
    | l :: _ => s.select l
    | [] => s.put Fld.PNL_SEL_NONE 0 1
  if bit dieUp 0 then s.emit (.pin 1 1) else s

/-- Training ends in bare mode, where it runs on from step 3 (Table 2.12): the present stacks and dies show, and IO-A's failure takes the host,
the panel and PWR_GOOD away (R41, R43 to R45, R69). -/
def State.bareTrained (s : State) (stackUp dieUp : Nat) : State :=
  let s := s.showPresent stackUp dieUp
  let s := (s.startDomains.filter fun d => decide (57 ≤ d) && decide (d ≤ 69)).foldl (fun s d => s.putBit Fld.PWR_STATE_ON d true) s
  if bit dieUp 0 ∨ s.boot.ioaLost then s else s.ioaLost

/-- TRAINING_COMPLETE (Table 2.12 steps 10 to 16, R41 to R43, R45, R69): training ends with the stacks and dies it brought up; with an image,
memories are initialised, populations restored, models and lanes admitted, ports started, lanes started. -/
def execTrainingComplete (stackUp : BitVec 4) (dieUp cables : BitVec 3) (bch : List BchRead) (ms : Nat) (s : State) : Effect :=
  let s := s.start
  .next (match s.boot.phase with
    | .training => s.startAll stackUp.toNat dieUp.toNat cables.toNat bch ms
    | .bare => s.bareTrained stackUp.toNat dieUp.toNat
    | _ => s)

end Sys2Proof.Machine
end

