-- ==== Sys2Proof/Machine/TimeSync.lean ====
section
/-!
DEFINITION. Device time and its masters (R337 to R341, R327): the PTP slave's messages, holdover, and what the unit sends as the
grandmaster of its T1S segments.
-/
namespace Sys2Proof.Machine

/-- Whether an I/O die's NET domain works. -/
def State.netOn (s : State) (die : Nat) : Bool := s.domOn (61 + 3 * die)

/-- Whether a port's link can be up: its die's NET domain works, and its cage holds a transceiver that is not left in low-power mode (R653). -/
def State.portLink (s : State) (die port : Nat) : Bool :=
  s.netOn die && !NatSet.has s.mod.sfpGone (die * 2 + port) && !NatSet.has s.mod.sfpLow (die * 2 + port)

/-- Whether an I/O die's FLD domain works. -/
def State.fldOn (s : State) (die : Nat) : Bool := s.domOn (63 + 3 * die)

/-- A change of UNSYNC or HOLDOVER: one HEALTH TIME record per RUNNING or SILENT lane (Table 12.3). -/
def State.noteFlags (s : State) : State :=
  let f := s.timeFlags
  if f = s.ptp.flags then s
  else (List.range 64).foldl (fun s l => if s.laneState l = 3 ∨ s.laneState l = 4 then s.emitHealth l 6 3 f else s)
    { s with ptp := { s.ptp with flags := f } }

/-- Whether the PTP slave takes messages of a domain (R337, R618). -/
def State.ptpTakes (s : State) (domain : Nat) : Bool :=
  s.alive && !s.err.coxHalted && decide (s.get Fld.NET_PTP_STATUS_DOMAIN 0 = domain) &&
    (match s.boot.ptpPort with
      | some p => s.portLink p.1 p.2
      | none => false)

/-- An offset as NET_PTP_OFFSET shows it: signed, saturating. -/
def satOffset (x : Int) : Nat := ofInt 32 (max (-(2 ^ 31)) (min (2 ^ 31 - 1) x))

/-- An accepted Sync with its origin time and the device time of its arrival (R338, R339). The slew that corrects the offset is not
given but for its bound: a free value within ±500 ppm. -/
def State.syncWith (s : State) (origin arrival : Nat) : State :=
  let off : Int := (origin : Int) + s.ptp.delay - arrival
  let step := !s.ptp.everLocked && decide (0 ≤ off)
  let left : Int := if step then 0 else off
  let near := decide (left.natAbs ≤ 1000)
  let (v, s) := s.takeFree
  let s := { s with dev := if step then (s.dev + off.toNat) % 2 ^ 64 else s.dev }
  let st := if s.get Fld.NET_PTP_STATUS_STATE 0 = 2 ∧ !near then 2 else 1
  let s := { s with ptp := { s.ptp with everLocked := true, lastSync := some s.now, slew := v % 1000001, t21 := (s.ptp.delay : Int) - left } }
  let s := ((s.put Fld.NET_PTP_STATUS_STATE 0 st).put Fld.NET_PTP_STATUS_SYNC 0 (b2n near)).put Fld.NET_PTP_OFFSET_NS 0 (satOffset left)
  s.noteFlags

/-- PTP_SYNC (R338, R339): a one-step Sync disciplines device time; a two-step one waits for its Follow_Up. -/
def execPtpSync (domain : Nat) (seq : BitVec 16) (twoStep : Bool) (origin : Nat) (s : State) : Effect :=
  let s := s.start
  .next (if !s.ptpTakes domain then s
    else if twoStep then { s with ptp := { s.ptp with twoStep := some (seq.toNat, s.dev) } }
    else s.syncWith origin s.dev)

/-- PTP_FOLLOW_UP (R327, R338): the origin time of the two-step Sync with its sequence number. -/
def execPtpFollowUp (seq : BitVec 16) (origin : Nat) (s : State) : Effect :=
  let s := s.start
  .next (match s.ptp.twoStep with
    | none => s
    | some x =>
      if x.1 ≠ seq.toNat ∨ !s.ptpTakes (s.get Fld.NET_PTP_STATUS_DOMAIN 0) then s
      else ({ s with ptp := { s.ptp with twoStep := none } }).syncWith origin x.2)

/-- PTP_DELAY_RESP (R327): delay = ((t2 − t1) + (t4 − t3)) / 2, with the Delay_Req sent at device time `sent` and received by the master at
`received`. -/
def execPtpDelayResp (sent received : Nat) (s : State) : Effect :=
  let s := s.start
  .next (if !s.ptp.everLocked ∨ !s.ptpTakes (s.get Fld.NET_PTP_STATUS_DOMAIN 0) then s
    else
      let d : Int := (s.ptp.t21 + ((received : Int) - sent)).fdiv 2
      { s with ptp := { s.ptp with delay := d.toNat } })

/-- Whether master `a` is at least as good as `b` under the default BMCA: priority1, class, accuracy, variance, priority2, identity. -/
def rankLe : List Nat → List Nat → Bool
  | [], _ => true
  | _ :: _, [] => false
  | a :: x, b :: y => decide (a < b) || (decide (a = b) && rankLe x y)

/-- PTP_ANNOUNCE (R341, Table 8.4): the better master stands; its currentUtcOffset is taken where it is valid. -/
def execPtpAnnounce (domain : Nat) (rank : List Nat) (utcValid : Bool) (utc : BitVec 16) (s : State) : Effect :=
  let s := s.start
  .next (if !s.ptpTakes domain then s
    else
      let better := match s.ptp.master with
        | none => true
        | some m => rankLe rank m
      if !better then s
      else
        let s := ({ s with ptp := { s.ptp with master := some rank } }).put Fld.NET_PTP_STATUS_CLOCK_CLASS 0 (rank.getD 1 0)
        if utcValid then s.put Fld.NET_UTC_OFFSET_S 0 utc.toNat else s)

/-- PTP_HOLDOVER_ENTRY (R339, R618): 2 s without an accepted Sync. -/
def execPtpHoldoverEntry (s : State) : Effect :=
  let s := s.start
  .next (if s.get Fld.NET_PTP_STATUS_STATE 0 ≠ 1 ∨ !s.alive then s
    else
      let s := (s.put Fld.NET_PTP_STATUS_STATE 0 2).bump Fld.NET_PTP_HOLD_CNT_CNT 0 1
      (s.record (recC 0x19 stTIMEOUT)).noteFlags)

/-! ### The grandmaster of the T1S segments -/

/-- The admitted T1S lanes of a segment. -/
def State.segLanes (s : State) (die seg : Nat) : List Nat :=
  (List.range 64).filter fun l => s.laneAdmitted l && s.laneKind l = 2 && s.laneField l 4 1 = die && s.laneField l 5 1 = seg

/-- Whether the unit is coordinator and grandmaster of a segment: it carries a lane and its die's FLD domain works (Table 8.4). -/
def State.segRuns (s : State) (die seg : Nat) : Bool := s.fldOn die && !(s.segLanes die seg).isEmpty

/-- A time as a field of IEEE 802.1AS: 48-bit seconds and 32-bit nanoseconds, in the standard's byte order (R6). -/
def gptpTime (t : Nat) : List Byte := beBytes 6 (t / 1000000000) ++ beBytes 4 (t % 1000000000)

/-- Whether the die's 802.1AS grandmaster works: it was granted its PTP timestamp unit (R76 rule 6, Table 2.11). -/
def State.gmWorks (s : State) (die : Nat) : Bool :=
  [2, 3].any fun i => decide (Tbl.get none s.boot.owners (3 * 4096 + die * 256 + i) = some ⟨1, die⟩)

/-- GPTP_SYNC_TIMER (R335, Table 8.4): every 125 ms a Sync with device time leaves each segment that carries a lane; the output names its sequence
number and time. -/
def execGptpSyncTimer (die : Fin 3) (seg : Fin 4) (s : State) : Effect :=
  let s := s.start
  let k := die.val * 4 + seg.val
  .next (if !s.segRuns die.val seg.val ∨ !s.gmWorks die.val then s
    else
      let n := Tbl.get 0 s.ptp.gseq k
      ({ s with ptp := { s.ptp with gseq := Tbl.set 0 s.ptp.gseq k ((n + 1) % 65536) } }).emit
        (.segFrame die.val seg.val 1 (beBytes 2 n ++ gptpTime s.dev)))

/-- GPTP_PDELAY_REQ (R335, Table 8.4): a node's peer delay request is answered with the device time of its arrival. -/
def execGptpPdelayReq (die : Fin 3) (seg : Fin 4) (frame : List Byte) (s : State) : Effect :=
  let s := s.start
  .next (if !s.segRuns die.val seg.val ∨ !s.gmWorks die.val then s else s.emit (.segFrame die.val seg.val 2 (gptpTime s.dev ++ frame)))

end Sys2Proof.Machine
end

