-- ==== Sys2Proof/Machine/Cameras.lean ====
section
/-!
DEFINITION. What camera lanes receive from the network (R327 to R330, R341, R354): RTP packets, sender reports and membership queries.
-/
namespace Sys2Proof.Machine

/-- Sixteen bytes of a lane's descriptor. -/
def State.laneAddr (s : State) (l off : Nat) : List Byte := slice (Tbl.get [] s.boot.lanes l) off 16

/-- The addresses of an SFP28 port (Table 2.8 KIND 1): its IPv6 address and its IPv4 address padded to 16 bytes. -/
def State.portAddrs (s : State) (die port : Nat) : List (List Byte) :=
  (s.boot.ports.filter fun r => leAt r 1 1 = die && leAt r 2 1 = port).flatMap fun r => [slice r 4 16, slice r 24 4 ++ List.replicate 12 0]

/-- Whether a packet's destination is a lane's: its group, or for unicast an address of the port (R329). -/
def State.dstMatches (s : State) (l die port : Nat) (dst : List Byte) : Bool :=
  let g := s.laneAddr l 0x50
  if allZero g then (s.portAddrs die port).contains dst else dst = g

/-- Whether a packet with a destination port belongs to a camera lane but for its SSRC (R329). -/
def State.pathMatches (s : State) (l die port : Nat) (p : RtpPacket) (rtcp : Bool) : Bool :=
  s.laneAdmitted l && s.laneKind l = 1 && s.laneField l 4 1 = die && s.laneField l 5 1 = port && s.dstMatches l die port p.dstAddr &&
  (allZero (s.laneAddr l 0x40) || s.laneAddr l 0x40 = p.srcAddr) &&
  decide (p.dstPort = s.laneField l 0x64 2 + (if rtcp && !bit (s.laneField l 6 2) 1 then 1 else 0))

/-- The camera lane a packet belongs to: an exact SSRC before SSRC_ANY (R329). -/
def State.cameraOf (s : State) (die port : Nat) (p : RtpPacket) (rtcp : Bool) : Option Nat :=
  let ls := (List.range 64).filter fun l => s.pathMatches l die port p rtcp
  match ls.find? fun l => !bit (s.laneField l 6 2) 0 && s.laneField l 0x6C 4 = p.ssrc.toNat with
  | some l => some l
  | none => ls.find? fun l => bit (s.laneField l 6 2) 0

/-- A stream restart on an SSRC_ANY lane (R329): the next entry says so and is marked all changed; the new stream starts at an IDR. -/
def State.streamRestart (s : State) (l : Nat) : State :=
  s.setLane l { s.lane l with restart := true, allNext := true, waitIdr := true, rtpSeq := none, srs := [] }

/-- RTP_PACKET (R327, R329, R354): a tagged or oversize frame and a fragment are dropped and counted; else the packet reaches its lane; a change of SSRC restarts the stream, and a gap in the sequence numbers breaks the
access unit. -/
def execRtpPacket (die : Fin 3) (port : Fin 2) (pkt : RtpPacket) (s : State) : Effect :=
  let s := s.start
  .next (if !s.portLink die.val port.val then s
    else if pkt.unsupported then s.bump Fld.NET_DROP_CNT_CNT 0 1
    else match s.cameraOf die.val port.val pkt false with
      | none => s
      | some l =>
        if pkt.payloadType ≠ s.laneField l 0x62 1 then s
        else
          let x := s.lane l
          let s := if x.ssrc ≠ pkt.ssrc.toNat ∧ x.rtpSeq.isSome then s.streamRestart l else s
          let x := s.lane l
          let gap := match x.rtpSeq with
            | some q => (pkt.seq.toNat + 65536 - (q + 1) % 65536) % 65536
            | none => 0
          let s := (s.setLane l { x with ssrc := pkt.ssrc.toNat, rtpSeq := some pkt.seq.toNat }).put Fld.LANE_SRC_INFO_INFO l pkt.ssrc.toNat
          if gap = 0 then s
          else if 2 ^ 15 ≤ gap then s.setLane l { s.lane l with rtpSeq := x.rtpSeq }
          else
            let y := s.lane l
            let s := (s.setLane l { y with waitIdr := true, lossRec := true }).bump Fld.LANE_PKT_LOST_CNT_CNT l gap
            if y.lossRec then s else s.record { cls := 1, status := stABORTED, block := 0x10, lane := some l })

/-- RTCP_SENDER_REPORT (R341): the lane's newest mapping; reports older than any frame can still need are let go. -/
def execRtcpSenderReport (die : Fin 3) (port : Fin 2) (pkt : RtpPacket) (sec : Nat) (frac : BitVec 32) (s : State) : Effect :=
  let s := s.start
  .next (if !s.portLink die.val port.val then s
    else if pkt.unsupported then s.bump Fld.NET_DROP_CNT_CNT 0 1
    else match s.cameraOf die.val port.val pkt true with
      | none => s
      | some l =>
        let x := s.lane l
        let keep := x.srs.filter fun (m : SrMap) => decide (s.dev ≤ m.at_ + 60000000000)
        s.setLane l { x with srs := ⟨sec % 2 ^ 32, frac.toNat, pkt.rtpTs.toNat, s.dev⟩ :: keep })

/-- MEMBERSHIP_QUERY (R327): one report for each join on the port that the query asks about; a general query names group 0. -/
def execMembershipQuery (die : Fin 3) (port : Fin 2) (family : Nat) (group : List Byte) (s : State) : Effect :=
  let s := s.start
  .next (if !s.portLink die.val port.val then s
    else
      let js := s.ptp.joins.filter fun j =>
        j.1 = die.val && j.2.1 = port.val && j.2.2.1 = family && (allZero group || j.2.2.2.1 = group)
      js.foldl (fun s j => s.emit (.membership die.val port.val family j.2.2.2.1 j.2.2.2.2)) s)

end Sys2Proof.Machine
end

