-- ==== Sys2Proof/Machine/Collectors.lean ====
section
/-!
DEFINITION. UDP collectors (R483 to R485, R520), function level resets (R492) and the PCIe link's own events (R491, R645).
-/
namespace Sys2Proof.Machine

/-- Whether a collector's datagram is due: 22 records, an ALARM or CLEAR record, or FLUSH_MS since its first record (R483). -/
def State.dgramDue (s : State) (i : Nat) (c : Collector) : Bool :=
  decide (22 ≤ c.fill.length) || (c.fill.any fun (r : Report) => r.kind = 2 || r.kind = 3) ||
  decide (c.firstAt + s.get Fld.RPT_COL_CFG_FLUSH_MS i * 1000000 ≤ s.now)

/-- Sends a collector's datagrams while one is due. -/
def State.sendDue : Nat → Nat → State → State
  | 0, _, s => s
  | n + 1, i, s =>
    match s.col i with
    | none => s
    | some c => if c.fill = [] ∨ !s.dgramDue i c ∨ s.get Fld.RPT_COL_STATUS_RESOLVED i = 0 then s else State.sendDue n i (s.sendDgram i)

/-- A collector can take records again: the markers of what was dropped go into its next datagram, and what is due goes out (R481, R485). -/
def State.colResume (s : State) (i : Nat) : State :=
  match s.col i with
  | none => s
  | some c =>
    if s.flag Fld.RPT_COL_STATUS_DOWN i ∨ s.colFull i c then s
    else
      let (ms, s) := s.colMarkers i
      let c' := { c with fill := c.fill ++ ms, firstAt := if c.fill = [] then s.now else c.firstAt }
      State.sendDue 4096 i (s.setCol i c')

/-- COLLECTOR_FLUSH (R483): FLUSH_MS has passed since the datagram's first record. -/
def execCollectorFlush (col : Fin 4) (s : State) : Effect := .next (s.start.sendDgram col.val)

/-- COLLECTOR_ACK (R485): an acknowledgement; `known` tells that it comes from the collector's address. -/
def execCollectorAck (col : Fin 4) (dseq : BitVec 32) (known : Bool) (s : State) : Effect :=
  let s := s.start
  let i := col.val
  let d := dseq.toNat
  .next (match s.col i with
    | none => s
    | some c =>
      if !known ∨ !s.flag Fld.RPT_COL_CFG_ACK_MODE i then s
      else if c.unacked.any fun (x : Dgram) => x.dseq = d then
        (s.setCol i { c with unacked := c.unacked.filter (fun (x : Dgram) => x.dseq ≠ d), acked := NatSet.add c.acked d }).colResume i
      else if NatSet.has c.acked d then s.bump Fld.RPT_COL_DUP_CNT_CNT i 1
      else s)

/-- Puts a marker among the markers at the head of a datagram: one run with a marker whose run it continues or precedes, else before the first
of its lane with a higher SEQ (R481, R485). -/
def headMarker (ms : List Report) (m : Report) : List Report :=
  let next := fun (a b : Report) => decide (a.lane = b.lane) && decide ((a.seq + a.count) % 2 ^ 32 = b.seq)
  if ms.any fun x => next x m then ms.map fun x => if next x m then { x with count := x.count + m.count } else x
  else if ms.any fun x => next m x then ms.map fun x => if next m x then { m with count := m.count + x.count } else x
  else
    let low := fun (x : Report) => decide (x.lane ≠ m.lane) || decide (x.seq < m.seq)
    ms.takeWhile low ++ m :: ms.dropWhile low

/-- The markers that stand for an abandoned datagram's records, one per lane (R481, R485). -/
def State.abandonMarkers (s : State) (rs : List Report) : List Report :=
  ((rs.map Report.lane).dedup).filterMap fun l =>
    let mine := rs.filter fun (r : Report) => r.lane = l
    match mine with
    | [] => none
    | r :: _ => some (markerOf r (sumN (mine.map fun (x : Report) => if x.isMarker then x.count else 1)) s.dev s.timeFlags)

/-- The records waiting for a collector with the markers of an abandoned datagram at their head (R485). -/
def State.withAbandoned (s : State) (fill rs : List Report) : List Report :=
  (s.abandonMarkers rs).foldl headMarker (fill.takeWhile Report.isMarker) ++ fill.dropWhile Report.isMarker

/-- DATAGRAM_RESEND (R485): 200 ms after its last sending an unacknowledged datagram is sent again; after 5 resends it is abandoned. -/
def execDatagramResend (col : Fin 4) (dseq : BitVec 32) (s : State) : Effect :=
  let s := s.start
  let i := col.val
  .next (match s.col i with
    | none => s
    | some c => match c.unacked.find? fun (x : Dgram) => x.dseq = dseq.toNat with
      | none => s
      | some d =>
        if 5 ≤ d.resends then
          let c' := { c with unacked := c.unacked.filter fun (x : Dgram) => x.dseq ≠ d.dseq, fill := s.withAbandoned c.fill d.recs,
                             firstAt := if c.fill = [] then s.now else c.firstAt }
          ((s.setCol i c').bump Fld.RPT_COL_LOST_CNT_CNT i (d.recs.filter fun (x : Report) => !x.isMarker).length).colResume i
        else
          let d' := { d with sentAt := s.now, resends := d.resends + 1 }
          let c' := { c with unacked := c.unacked.map fun (x : Dgram) => if x.dseq = d.dseq then d' else x }
          ((s.setCol i c').bump Fld.RPT_COL_RETX_CNT_CNT i 1).emit (.datagram i (s.colPort c) (s.dgramBytes i d.dseq 1 d.recs)))

/-- NEXT_HOP_RESOLVE (R484, R520): the next hop answers, or no longer does; a collector that no port reaches has none. -/
def execNextHopResolve (col : Fin 4) (found : Bool) (s : State) : Effect :=
  let s := s.start
  let i := col.val
  .next (match s.col i with
    | none => s
    | some c =>
      if found ∧ ((s.colPort c).any fun (p : Nat × Nat) => s.portLink p.1 p.2) then
        ((s.put Fld.RPT_COL_STATUS_RESOLVED i 1).put Fld.RPT_COL_STATUS_DOWN i 0).colResume i
      else if s.get Fld.RPT_COL_STATUS_RESOLVED i = 1 then
        (s.put Fld.RPT_COL_STATUS_RESOLVED i 0).setCol i { c with unresolvedAt := s.now }
      else s)

/-- COLLECTOR_DOWN (R520): no next hop for 10 s: DOWN, one record, and the records that wait are dropped. -/
def execCollectorDown (col : Fin 4) (s : State) : Effect :=
  let s := s.start
  let i := col.val
  .next (match s.col i with
    | none => s
    | some c =>
      if s.get Fld.RPT_COL_STATUS_RESOLVED i = 1 ∨ s.flag Fld.RPT_COL_STATUS_DOWN i then s
      else
        let s := (s.setCol i { c with fill := [] }).put Fld.RPT_COL_STATUS_DOWN i 1
        let s := c.fill.foldl (fun s r => s.colDrop i r) s
        s.record (recX 0x16 stDOWN))

/-- The registers a function level reset clears (R492). -/
def State.flrRegs (s : State) (f : Nat) : State :=
  [Fld.RPT_RING_BASE_BASE, Fld.RPT_RING_PROD_PROD, Fld.RPT_RING_CONS_CONS, Fld.HOST_MB_BASE_BASE, Fld.HOST_MB_CQ_BASE_BASE,
   Fld.HOST_MB_CFG_ENABLE, Fld.HOST_MB_TAIL_TAIL, Fld.HOST_MB_HEAD_HEAD, Fld.HOST_MB_CQ_HEAD_CQ_HEAD].foldl (fun s r => s.put r f 0) s

/-- FUNCTION_LEVEL_RESET (R492): the function's mailbox and ring are disabled and cleared; everything else of its partition goes on. -/
def execFunctionLevelReset (fn : Fin 8) (s : State) : Effect :=
  let s := s.start
  let f := fn.val
  .next (if f ≠ 0 ∧ (Tbl.get none s.boot.parts f).isNone then s
    else
      let s := s.flrRegs f
      { s with host := { s.host with cqCount := Tbl.set 0 s.host.cqCount f 0 } })

end Sys2Proof.Machine
end

