-- ==== Sys2Proof/Machine/Responses.lean ====
section
/-!
DEFINITION. Responses and what bounds them: DATA and ACK (R139, R145, R257, R262, R268, R553), request timeouts (R130), epoch
broadcasts (R114, R161, R172, R553) and the replica rates (R93).
-/
namespace Sys2Proof.Machine

/-- The unit that issued a request (Table 14.1). -/
def workUnit : Work → Nat
  | .agent n => agentUnit n.val
  | .task n => n.val
  | .slide e => engineUnit e.val
  | .unit u => u

/-- A request of a task came back with an error (R247). -/
def State.taskError (s : State) (n status : Nat) : State :=
  match s.running n with
  | some (k, _) => s.attemptEnd k status
  | none => s

/-! ### The debug monitor's responses (Table 15.7) -/

/-- The monitor gives a response frame; OVERRUN says that a command frame was dropped before it (R605). -/
def State.respond (s : State) (op status tag : Nat) (result : List Byte) : State :=
  let f := leBytes 1 op ++ leBytes 1 status ++ leBytes 2 tag ++ leBytes 1 (1 + 4 * b2n s.dbg.overrun) ++ leBytes 3 0 ++
    (result ++ List.replicate 24 0).take 24
  { s with dbg := { s.dbg with rsp := s.dbg.rsp ++ [f], overrun := false } }

/-- The memory access of the monitor to the line of `a` ends with a status, and the line a MEM_READ asked for (R606, R622, R626). -/
def State.dbgEnd (s : State) (a status : Nat) (line : List Byte) : State :=
  match s.dbg.waiting with
  | none => s
  | some w =>
    if lineOf w.addr ≠ lineOf a ∨ w.addr / 2 ^ 44 ≠ a / 2 ^ 44 then s
    else
      let s := { s with dbg := { s.dbg with waiting := none } }
      s.respond w.op status w.tag (if w.op = 0x40 then (line.drop (w.addr % 64)).take w.len else [])

/-- A request's response carries data (R145, R168, R257). -/
def State.dataTo (s : State) (w : Work) (a : Nat) (d : Store) (g : Grant) : State :=
  match w with
  | .agent n => if g = .none then s.setPend n.val (lineOf a) none else s.install n.val a g d.bytes d.poison.toNat
  | .slide e => s.slideData e.val a d.bytes d.poison.toNat
  | .task n =>
    (match s.running n with
      | some (k, t) => if d.poison = 0 then s else s.setTask k { t with poisoned := true }
      | none => s)
  | .unit u => if u = 0x46 then s.dbgEnd a (if d.poison = 0 then stOK else stPOISONED) d.bytes else s

/-- The attempt that a Scull's cache access belongs to ends with it (R130, R183, R247); the Cox's and the engines' caches run no task. -/
def State.agentError (s : State) (n status : Nat) : State := if n < 16 then s.taskError n status else s

/-- A request completes without data (R139, R262, R268): an Upgrade's grant, a burst's acknowledgement, or an error. -/
def State.ackTo (s : State) (w : Work) (a status : Nat) : State :=
  match w with
  | .agent n =>
    let l := lineOf a
    if status = stOK then
      (match s.copy n.val l with
        | some c => s.install n.val a .m c.bytes c.poison
        | none => s.setPend n.val l none)
    else if (s.pendOf n.val l).isSome then (s.setPend n.val l none).agentError n.val status
    else s
  | .slide e => s.slideAck e.val a status
  | .task n => if status = stOK then s else s.taskError n.val status
  | .unit u => if u = 0x46 then s.dbgEnd a status [] else s

/-- A link request to the line of `a` has waited 100 µs: a WriteLine's or Atomic's tag is held from now on, a ReadOnce's is free, and one still held
for want of a tag is given up (R513). -/
def State.tagTimeout (s : State) (w : Work) (a : Nat) : State :=
  let mine := fun (t : TagUse) => decide (t.work = w) && decide (t.addr / 64 = a / 64)
  let us := (s.jl.tags.filter mine).map TagUse.unit
  let s := { s with jl := { s.jl with
    heldReqs := s.jl.heldReqs.filter fun x => !(decide (x.1 = w) && decide (x.2.addr / 64 = a / 64)),
    tags := s.jl.tags.filterMap fun (t : TagUse) =>
      if mine t then (if t.hold then some { t with answered := true } else none) else some t } }
  us.dedup.foldl State.releaseHeld s

/-- Every target takes a unit's new epoch (R114, R161, R172, R198, R515, R553): its locks are orphaned, homes drop it, its XLU empties, and what its earlier
epoch held is gone. `latNs` is the time the broadcast took, as measured. -/
def State.epochTaken (s : State) (unit epoch latNs : Nat) : State :=
  let s := { s with err := { s.err with known := Tbl.set 1 s.err.known unit epoch } }
  let s := s.raise Fld.FAB_CTL_LAT_MAX_VALUE 0 latNs
  let s := s.orphanAll fun t => t.unit = unit && t.epoch ≠ epoch
  let s := s.dropHeld unit epoch
  let s := if unitAgent unit < 19 then s.dropAgent (unitAgent unit) else s
  (if unit < 16 then s.xluReset unit else if unit = 0x44 then s.xluReset 16 else s).settle

/-- EPOCH_BROADCAST (R114, R161, R172, R553): every target takes a unit's new epoch. -/
def execEpochBroadcast (unit epoch latNs : Nat) (fab : FabEv) (s : State) : Effect :=
  .next (s.start.carried fab (State.epochTaken · unit epoch latNs))

/-- REPLICA_RATE_REFRESH (R93): each half's replica stage shows the rate it measures, in M steps/s. -/
def execReplicaRateRefresh (west east : BitVec 16) (s : State) : Effect :=
  .next ((s.start.put Fld.FAB_SPEED_W_RATE 0 west.toNat).put Fld.FAB_SPEED_E_RATE 0 east.toNat)

end Sys2Proof.Machine
end

