-- ==== Sys2Proof/Machine/Link.lean ====
section
/-!
DEFINITION. The Jalvin link's commands: flits, replay and retraining (R503 to R508), messages served, answered or forwarded (R510 to R516),
the duplicate window (R514) and tags (R513).
-/
namespace Sys2Proof.Machine

/-! ### Answers and forwarding -/

/-- A link message as the port holds it, with its MOP and RESP. -/
def jlOf (mop : Nat) (resp : Bool) (m : LinkMsg) : JlMsg :=
  { mop := mop, flags := Nat.land m.flags.toNat 0xF7 + 8 * b2n resp, srcPkg := m.srcPkg.toNat, srcUnit := m.srcUnit.toNat, tag := m.tag.toNat, epoch := m.epoch.toNat,
    addr := m.addr.toNat, arg := m.arg.toNat, data := m.data }

/-- Forwards a message that arrived at port `die` (R512, R517): HOPS 15 or no route discards it, and a request is answered; so is one whose port is DOWN or behind
a dark Seam (R116). It keeps its place in the receive buffer until it leaves (R511). -/
def State.jlForward (s : State) (die : Nat) (m : JlMsg) : State :=
  let back := fun (s : State) (st : Nat) =>
    let s := s.freePlace die m
    if m.resp ∨ m.mop = 4 then s else s.jlSend (m.answer st false [])
  match s.route m.dest with
  | none => back (s.bump Fld.JL_HOP_DROP_CNT_CNT die 1) stDENIED
  | some d =>
    if m.hops = 15 then back (s.bump Fld.JL_HOP_DROP_CNT_CNT die 1) stDENIED
    else if s.get Fld.JL_STATUS_STATE d = 0 ∨ (!s.domOn 56 ∧ crossesSeam (0x3A + 3 * die) (0x3A + 3 * d)) then back s stDOWN
    else s.portSend d { m with flags := m.flags + 16, origin := some die }

/-! ### Serving requests (R514 to R516, R222) -/

/-- The key of a source. -/
def JlMsg.source (m : JlMsg) : Nat := m.srcPkg * 256 + m.srcUnit

/-- Whether a request's epoch is the recorded one; the first request of a source records its epoch (R515). -/
def State.jlEpochOk (s : State) (m : JlMsg) : Bool × State :=
  match Tbl.get none s.jl.epochs m.source with
  | some e => (decide (e = m.epoch), s)
  | none => (true, { s with jl := { s.jl with epochs := Tbl.set none s.jl.epochs m.source (some m.epoch) } })

/-- The local partition a request's package and partition map to (R222). -/
def State.federated (s : State) (m : JlMsg) : Option Nat :=
  (s.boot.federation.find? fun f => f.1 = m.srcPkg && f.2.1 = m.part).map fun f => f.2.2

/-- What the target's memory answers a link request of local partition `p` (R29, R30, R181, R222): a failed lining check writes its record. -/
def State.jlGate (s : State) (die p : Nat) (write : Bool) (a : Nat) : Option Nat × State :=
  let r := s.region a
  let u := regionUnit r
  let net := 0x3A + 3 * die
  let hole := match r with
    | .unlisted => true
    | .regs _ => true
    | .remote _ => true
    | .boathouse _ => write
    | .hbm n => !bit (s.get Fld.GLB_PRESENT_STACK_UP 0) n
    | _ => false
  if hole then (some stDENIED, s)
  else if (!s.domOn 56 && crossesSeam net u) ∨ (r = .host ∧ s.get Fld.HOST_LINK_STATUS_UP 0 = 0) ∨ s.unitDown u ∨ s.fenced u then (some stDOWN, s)
  else if !s.linedUp p write a then
    (some stDENIED, (s.bump Fld.XLU_LINE_DENIED_CNT_CNT 0 1).record
      { cls := 1, status := stDENIED, unit := net, part := p, block := 0x06, infoKind := 1, count := 1, info := a })
  else (none, s)

/-- The link tag as a record names it (Table 14.4). -/
def JlMsg.info (m : JlMsg) : Nat := m.srcPkg + m.srcUnit * 256 + m.tag12 * 65536

/-- A link request as a home serves it: the port of the die is the engine that makes it (R138), for local partition `p` (R222). -/
def State.jlHomeReq (s : State) (die p : Nat) (m : JlMsg) (ecc : Ecc) : HomeReq :=
  let u := 0x3A + 3 * die
  { kind := if m.mop = 1 then .readOnce else if m.mop = 2 then .writeLine else .atomic (bits m.arg 3 0)
    tag := ⟨u, 0, p, s.knownEpoch u, false⟩
    src := .unit u
    addr := m.addr
    store := ⟨BitVec.ofNat 64 m.arg, m.data, 0⟩
    args := { wide := bit m.arg 4, order := bits m.flags 2 1, operand := BitVec.ofNat 64 (leAt m.data 0 8),
              compare := BitVec.ofNat 64 (leAt m.data 8 8), badCode := decide (6 < bits m.arg 3 0), ecc := ecc, fab := ⟨0, 0, 0, 0⟩ }
    ecc := ecc
    link := some m }

/-- A request for this package (R516): epoch, federation and lining, then the duplicate window. -/
def State.jlServe (s : State) (die : Nat) (m : JlMsg) (ecc : Ecc) : State :=
  let r := s.jlEpochOk m
  let s := r.2
  if !r.1 then s.jlSend (m.answer stSTALE false [])
  else match s.federated m with
    | none => (s.record { cls := 1, status := stDENIED, unit := 0x3A + 3 * die, block := 0x18, infoKind := 7, info := m.info }).jlSend
        (m.answer stDENIED false [])
    | some p =>
      let g := s.jlGate die p (m.mop ≠ 1) m.addr
      let s := g.2
      match g.1 with
      | some st => s.jlSend (m.answer st false [])
      | none =>
        match s.dupHit m with
        | some x => s.dupAnswer m x
        | none =>
          let r := s.jlHomeReq die p m ecc
          if r.badShape then s.answerAck r stDENIED else s.letIn r none

/-- An Epoch message (R515): a new epoch replaces the recorded one and discards the source's window. -/
def State.jlEpoch (s : State) (m : JlMsg) : State :=
  if Tbl.get none s.jl.epochs m.source = some m.epoch then s
  else { s with jl := { s.jl with epochs := Tbl.set none s.jl.epochs m.source (some m.epoch),
                                  dup := s.jl.dup.filter fun (x : DupEntry) => !(x.pkg = m.srcPkg && x.unit = m.srcUnit) } }

/-! ### Responses (R513) -/

/-- A response for this package: it completes the request of its tag, or is stray; one of an older epoch is discarded (R553). -/
def State.jlResponse (s : State) (m : JlMsg) : State :=
  match s.jl.tags.find? fun (t : TagUse) => t.unit = m.srcUnit && t.tag = m.tag12 && !t.answered with
  | none => s.bump Fld.JL_STRAY_CNT_CNT 0 1
  | some t =>
    let tags := if t.hold then s.jl.tags.map fun (x : TagUse) => if x = t then { x with answered := true } else x else s.jl.tags.erase t
    let s := ({ s with jl := { s.jl with tags := tags } }).releaseHeld t.unit
    let st := m.arg % 256
    if m.epoch ≠ s.epoch t.unit then s.bump Fld.ERR_STALE_RSP_CNT_CNT 0 1
    else if m.mop = 0x82 ∧ (st = stOK ∨ st = stPOISONED) then
      let line := (m.data ++ List.replicate 64 0).take 64
      s.dataTo t.work t.addr ⟨BitVec.allOnes 64, line, if st = stPOISONED then BitVec.allOnes 8 else 0⟩ .none
    else s.ackTo t.work t.addr st

/-- A message has arrived at a port: it is forwarded, or leaves the receive buffer and is served or taken as a response (R511, R512). -/
def State.jlMessage (s : State) (die : Nat) (m : JlMsg) (ecc : Ecc) : State :=
  if m.hops = 15 ∨ m.dest ≠ s.get Fld.GLB_PKG_ID_PKG_ID 0 then s.jlForward die m
  else
    let s := s.freePlace die m
    if m.resp then s.jlResponse m
    else if m.mop = 4 then s.jlEpoch m
    else if 1 ≤ m.mop ∧ m.mop ≤ 3 then s.jlServe die m ecc
    else s.jlSend (m.answer stDENIED false [])

/-! ### Flits (R503 to R507) -/

/-- The messages of a flit's payload, at most `n` (R509). -/
def flitMsgs : Nat → List Byte → List JlMsg
  | 0, _ => []
  | n + 1, bs =>
    if bs.length < 24 then []
    else
      let fl := leAt bs 1 1
      let len := if bit fl 0 then 88 else 24
      if bs.length < len then []
      else { mop := leAt bs 0 1, flags := fl, srcPkg := leAt bs 2 1 % 16, srcUnit := leAt bs 3 1, tag := leAt bs 4 2, epoch := leAt bs 6 2,
             addr := leAt bs 8 8 % 2 ^ 48, arg := leAt bs 16 8, data := if bit fl 0 then slice bs 24 64 else [] } :: flitMsgs n (bs.drop len)

/-- A port begins to retrain (R507): both ends number from 0 again; the replay buffer stays. The flit that asks for it goes out. -/
def State.retrain (s : State) (d : Nat) : State :=
  let s := ((s.sendFlit d 0 6 []).put Fld.JL_STATUS_STATE d 1).bump Fld.JL_RETRAIN_CNT_CNT d 1
  s.setPort d { s.jlPort d with nextSeq := 0, expect := 0, lastAccepted := 255, resends := [], badRun := 0, nakSent := false, trying := true }

/-- Sends again the unacknowledged flits of a port, in order (R506); one resent 8 times asks for a retrain. -/
def State.resend (s : State) (d : Nat) : State :=
  let s := (s.jlPort d).replay.foldl (fun s x =>
    let p := s.jlPort d
    let s := s.setPort d { p with resends := Tbl.set 0 p.resends x.1 (Tbl.get 0 p.resends x.1 + 1), ackAt := s.now }
    ((s.sendFlit d x.1 0 x.2).bump Fld.JL_REPLAY_CNT_CNT d 1).bump Fld.JL_TX_FLITS_CNT d 1) s
  if (s.jlPort d).replay.any fun x => decide (8 ≤ Tbl.get 0 (s.jlPort d).resends x.1) then s.retrain d else s

/-- The acknowledgement and the credits of a good flit (R505, R506, R511). -/
def State.flitAck (s : State) (d ackseq creq crsp : Nat) : State :=
  let p := s.jlPort d
  let hit := p.replay.any fun x => x.1 = ackseq
  let rest := if hit then (p.replay.dropWhile fun x => x.1 ≠ ackseq).drop 1 else p.replay
  let gone := p.replay.take (p.replay.length - rest.length)
  s.setPort d { p with replay := rest, ackAt := if hit then s.now else p.ackAt,
                       resends := gone.foldl (fun t x => Tbl.set 0 t x.1 0) p.resends,
                       credReq := min 64 (p.credReq + creq), credRsp := min 64 (p.credRsp + crsp) }

/-- A flit is discarded: the first discard after an accepted flit sends NAK (R505). -/
def State.flitNak (s : State) (d : Nat) : State :=
  let p := s.jlPort d
  if p.nakSent then s else (s.setPort d { p with nakSent := true }).sendFlit d 0 3 []

/-- A whole flit has arrived at a port that is UP (R505 to R507). -/
def State.flitIn (s : State) (d : Nat) (bs : List Byte) : State :=
  let crc := leAt bs 12 4
  if bs.length ≠ 128 ∨ crc32 (bs.take 12 ++ leBytes 4 0 ++ bs.drop 16) ≠ crc then
    let s := s.bump Fld.JL_CRC_ERR_CNT_CNT d 1
    let p := s.jlPort d
    let s := (s.setPort d { p with badRun := p.badRun + 1 }).flitNak d
    if 16 ≤ p.badRun + 1 then s.retrain d else s
  else
    let fl := leAt bs 2 1
    let s := s.setPort d { s.jlPort d with badRun := 0 }
    let s := s.flitAck d (leAt bs 1 1) (leAt bs 4 2) (leAt bs 6 2)
    let s := if bit fl 0 then s.resend d else s
    let s := if bit fl 2 ∧ s.portUp d then s.retrain d else s
    if bit fl 1 ∨ !s.portUp d then s
    else
      let p := s.jlPort d
      if leAt bs 0 1 ≠ p.expect then s.flitNak d
      else
        let s := s.setPort d { p with expect := (p.expect + 1) % 256, lastAccepted := p.expect, nakSent := false }
        (flitMsgs (min 4 (leAt bs 3 1)) (bs.drop 16)).foldl (fun s m => s.jlMessage d m .clean) s

/-- What waits at a port goes out as far as it can. -/
def State.portGo (s : State) (d : Nat) : State := State.portDrain (s.jlPort d).waiting.length d s

/-- Whether a port's NET domain works. -/
def State.linkOn (s : State) (d : Nat) : Bool := s.domOn (61 + 3 * d)

/-- REPLAY_TIMEOUT (R506): ACKSEQ has not advanced for 2 µs while flits are outstanding. -/
def execReplayTimeout (die : Fin 3) (s : State) : Effect :=
  let s := s.start
  let d := die.val
  .next (if s.linkOn d ∧ s.portUp d then s.resend d else s)

/-- RETRAIN_DONE (R507, R508): a retrain ends: the unacknowledged flits are renumbered from 0 and sent again; three failures within 1 s take the
port DOWN. -/
def execRetrainDone (die : Fin 3) (ok : Bool) (s : State) : Effect :=
  let s := s.start
  let d := die.val
  let p := s.jlPort d
  .next (if !s.linkOn d ∨ !p.trying ∨ s.get Fld.JL_STATUS_STATE d ≠ 1 then s
    else if ok then
      let re := (List.range p.replay.length).zip (p.replay.map (·.2))
      let s := (s.setPort d { p with replay := re, nextSeq := re.length, trying := false }).put Fld.JL_STATUS_STATE d 2
      (s.resend d).portGo d
    else
      let fails := s.now :: p.retrains.filter fun t => decide (s.now < t + 1000000000)
      let s := s.setPort d { p with retrains := fails }
      if 3 ≤ fails.length then s.portDown d else s.bump Fld.JL_RETRAIN_CNT_CNT d 1)

/-- IDLE_FLIT_TIMER (R504): a port that has sent nothing for 1 µs sends an IDLE flit. -/
def execIdleFlitTimer (die : Fin 3) (s : State) : Effect :=
  let s := s.start
  let d := die.val
  .next (if s.linkOn d ∧ s.portUp d then s.sendFlit d 0 2 [] else s)

/-- LINK_TRAIN_ATTEMPT (R508): a port trains at start-up, or again while DOWN; a partner with this package's own ID keeps it DOWN. A port whose presence pin
shows no cable does not try (R654). -/
def execLinkTrainAttempt (die : Fin 3) (cable ok : Bool) (partner : BitVec 4) (s : State) : Effect :=
  let s := s.start
  let d := die.val
  .next (if !s.linkOn d ∨ s.portUp d ∨ (s.jlPort d).trying then s
    else
    let s := { s with mod := { s.mod with cables := if cable then NatSet.add s.mod.cables d else NatSet.del s.mod.cables d } }
    if !cable then s.portDown d
    else if !ok then s.portDown d
    else
      let own := s.get Fld.GLB_PKG_ID_PKG_ID 0
      let known := s.flag Fld.JL_STATUS_PARTNER_VALID d && s.get Fld.JL_STATUS_PARTNER d = own
      let s := (s.put Fld.JL_STATUS_PARTNER d partner.toNat).put Fld.JL_STATUS_PARTNER_VALID d 1
      if partner.toNat = own then
        let s := (s.setPort d {}).put Fld.JL_STATUS_STATE d 0
        if known then s else s.record { cls := 0, status := stCONFLICT, unit := 0x3A + 3 * d, block := 0x18 }
      else
        let w := (s.jlPort d).waiting
        ((s.setPort d { waiting := w }).put Fld.JL_STATUS_STATE d 2).portGo d)

/-! ### Messages as commands of their own -/

/-- JL_READ_ONCE (R510, R516): a ReadOnce arrives over the link. -/
def execJlReadOnce (die : Fin 3) (msg : LinkMsg) (ecc : Ecc) (s : State) : Effect :=
  let s := s.start
  .next (if s.linkOn die.val then (s.jlMessage die.val (jlOf 1 false msg) ecc).settle else s)

/-- JL_WRITE_LINE (R514, R516): a WriteLine arrives over the link. -/
def execJlWriteLine (die : Fin 3) (msg : LinkMsg) (ecc : Ecc) (s : State) : Effect :=
  let s := s.start
  .next (if s.linkOn die.val then (s.jlMessage die.val (jlOf 2 false msg) ecc).settle else s)

/-- JL_ATOMIC (R514, R516): an Atomic arrives over the link. -/
def execJlAtomic (die : Fin 3) (msg : LinkMsg) (ecc : Ecc) (s : State) : Effect :=
  let s := s.start
  .next (if s.linkOn die.val then (s.jlMessage die.val (jlOf 3 false msg) ecc).settle else s)

/-- JL_EPOCH (R515): an Epoch message arrives over the link. -/
def execJlEpoch (die : Fin 3) (msg : LinkMsg) (s : State) : Effect :=
  let s := s.start
  .next (if s.linkOn die.val then s.jlMessage die.val (jlOf 4 false msg) .clean else s)

/-- DUP_WINDOW_EXPIRY (R583): a duplicate-window entry expires 200 µs after it was recorded. -/
def execDupWindowExpiry (pkg : BitVec 4) (unit : BitVec 8) (tag : BitVec 12) (s : State) : Effect :=
  let s := s.start
  .next { s with jl := { s.jl with dup := s.jl.dup.filter fun (x : DupEntry) =>
    !(x.pkg = pkg.toNat && x.unit = unit.toNat && x.tag = tag.toNat) } }

/-- TAG_HOLD_EXPIRY (R513): 250 µs after its response or timeout, a WriteLine's or Atomic's tag is free. -/
def execTagHoldExpiry (unit : BitVec 8) (tag : BitVec 12) (s : State) : Effect :=
  let s := s.start
  .next (({ s with jl := { s.jl with tags := s.jl.tags.filter fun (t : TagUse) =>
    !(t.unit = unit.toNat && t.tag = tag.toNat && t.hold && t.answered) } }).releaseHeld unit.toNat)

end Sys2Proof.Machine
end

