-- ==== Sys2Proof/Machine/Sensors.lean ====
section
/-!
DEFINITION. Sensor lanes (R331 to R336, R356, R357, R540 to R545, R661): sensor frames, blocks, serials, TDM ports and segment faults.
-/
namespace Sys2Proof.Machine

/-! ### Leaving ABSENT, and serials -/

/-- A lane leaves ABSENT for a state (R352, R392, R542): one GAP record covers the absence. -/
def State.leaveAbsent (s : State) (l st : Nat) : State :=
  let x := s.lane l
  let s := s.setLane l { x with waiting := false, gapCause := addCause x.gapCause 3, lastAt := s.dev, coefAt := s.dev, lossRun := 0, allNext := true }
  let s := (s.emitGap l x.absentAt s.dev).setLrn l { s.lrnLane l with absentAt := none, gapSince := true }
  (s.freezeLane l false).putLaneState l st

/-- A serial arrives on a sensor lane (R335, R542 to R544): whether its frame may be used, and the state after. While the lane writes no
entries the comparison waits; an unplugged lane only reads the serial. -/
def State.serialSeen (s : State) (l serial : Nat) : Bool × State :=
  let x := s.lane l
  let absent := decide (s.laneState l = 5)
  if !x.writes ∨ (absent ∧ !x.waiting) then (false, s)
  else
    let old := s.laneSerial l
    let changed := decide (old ≠ 0) && decide (old ≠ serial)
    let policy := s.laneField l 0x12 1
    let s := s.put Fld.LANE_NODE_SERIAL_SERIAL l serial
    let s := if changed then s.emitReport l { kind := 6, devTime := if absent then x.waitAt else s.dev, tflags := s.timeFlags, count := policy,
                                              detail := leBytes 8 old ++ leBytes 8 serial } else s
    let s := if absent then s.leaveAbsent l 3 else s
    let s := if changed then
        let nd : NodeSt := { (s.lane l).node with next := none, start := none, samples := [], error := 0 }
        s.setLane l { s.lane l with node := nd, coefAt := s.dev }
      else s
    (true, if changed ∧ policy = 1 then s.relearn l else s)

/-! ### Sensor frames (Tables 8.5, 8.6) -/

/-- Body bytes that a TYPE asks for, 0 where LEN follows from AXES and COUNT. -/
def bodyLen (ty : Nat) (frame : List Byte) : Nat :=
  if ty = 1 ∨ ty = 2 then 16 else if ty = 3 then 8 else 16 + 3 * leAt frame 28 2 * leAt frame 30 1

/-- Whether a frame passes R333 but for the CONFIG it must match. -/
def frameOk (frame : List Byte) : Bool :=
  let ty := leAt frame 1 1
  leAt frame 0 1 = 1 && decide (1 ≤ ty) && decide (ty ≤ 4) && leAt frame 2 2 = bodyLen ty frame && decide (16 + bodyLen ty frame ≤ frame.length)

/-- A frame of a given TYPE reaches a segment: the lane it belongs to where its samples or fields may be used, and the state after. A frame that
breaks R333, or SAMPLES that do not match the lane's last CONFIG, is dropped and counted; a serial of 0 names no node. -/
def State.sensorFrame (s : State) (die seg ty : Nat) (frame : List Byte) : Option Nat × State :=
  if !s.fldOn die ∨ !s.alive then (none, s)
  else if !frameOk frame then (none, s.bump Fld.NET_T1S_BAD_CNT_CNT 0 1)
  else if leAt frame 1 1 ≠ ty then (none, s)
  else
    let serial := leAt frame 4 8
    let id := leAt frame 12 1
    if serial = 0 then (none, s)
    else
      let k := die * 4 + seg
      let s := { s with ptp := { s.ptp with nodes := NatSet.add s.ptp.nodes (k * 256 + id), segFault := NatSet.del s.ptp.segFault k } }
      match (s.segLanes die seg).find? fun l => s.laneField l 0x110 1 = id with
      | none => (none, s)
      | some l =>
        let nd := (s.lane l).node
        if ty = 4 ∧ (leAt frame 28 2 ≠ nd.count ∨ leAt frame 30 1 ≠ nd.axes) then (none, s.bump Fld.NET_T1S_BAD_CNT_CNT 0 1)
        else
          let r := s.serialSeen l serial
          (if r.1 then some l else none, r.2)

/-- Sends a CONFIG to a lane's node (R332), under its Ethernet address in the standard's byte order (R6). -/
def State.sendConfig (s : State) (l serial mac : Nat) : State :=
  let x := s.lane l
  let axes := s.laneField l 0x111 1
  let n := s.nodeCount l
  let body := leBytes 1 axes ++ leBytes 1 0 ++ leBytes 2 n ++ leBytes 4 (s.laneField l 0x114 4) ++ List.replicate 8 0
  let frame := [1, 2] ++ leBytes 2 16 ++ leBytes 8 serial ++ List.replicate 4 0 ++ body
  let nd : NodeSt := { x.node with serial := serial, mac := mac, axes := axes, count := n, fresh := true }
  (s.setLane l { x with node := nd }).emit (.segFrame (s.laneField l 4 1) (s.laneField l 5 1) 3 (beBytes 6 mac ++ frame))

/-- SENSOR_ANNOUNCE (R332, Table 8.6, R542 to R544): an accepted node is answered with CONFIG. -/
def execSensorAnnounce (die : Fin 3) (seg : Fin 4) (mac : BitVec 48) (frame : List Byte) (s : State) : Effect :=
  let s := s.start
  let r := s.sensorFrame die.val seg.val 1 frame
  .next (match r.1 with
    | none => r.2
    | some l => r.2.sendConfig l (leAt frame 4 8) mac.toNat)

/-- CONFIG_RESEND (Table 8.6): every 10 s each node that a lane accepts is sent its CONFIG. -/
def execConfigResend (s : State) : Effect :=
  let s := s.start
  .next ((List.range 64).foldl (fun s l =>
    let nd := (s.lane l).node
    if s.laneKind l = 2 ∧ s.laneAdmitted l ∧ nd.count ≠ 0 ∧ s.fldOn (s.laneField l 4 1) then s.sendConfig l nd.serial nd.mac else s) s)

/-- SENSOR_STATUS (R357): the node's state, synchronisation and error; one record per change of ERROR. -/
def execSensorStatus (die : Fin 3) (seg : Fin 4) (frame : List Byte) (s : State) : Effect :=
  let s := s.start
  let r := s.sensorFrame die.val seg.val 3 frame
  .next (match r.1 with
    | none => r.2
    | some l =>
      let s := r.2
      let x := s.lane l
      let e := leAt frame 18 2
      let nd : NodeSt := { x.node with asSync := leAt frame 17 1 ≠ 0, error := e }
      let s := (s.setLane l { x with node := nd }).put Fld.LANE_SRC_INFO_INFO l (e + leAt frame 16 1 * 65536)
      if e = x.node.error then s
      else s.record { cls := 0, status := stABORTED, part := s.lanePart l, block := 0x10, infoKind := 9, info := leAt frame 4 8, lane := some l })

/-! ### Blocks -/

/-- BLOCK of a sensor lane. -/
def State.laneBlock (s : State) (l : Nat) : Nat := max 1 (s.laneField l 0x118 4)

/-- A sample as a slot holds it, sign-extended to 32 bits and, with SELF_REJECT, cleaned of self-vibration unless the reference is bypassed
(R325, R661, R665). -/
def State.slotSample (s : State) (l axis x : Nat) : Nat :=
  let v := ofInt 32 (toInt 24 x)
  if s.laneField l 0x28 1 = 1 ∧ !s.mod.refBypass then ofInt 32 (toInt 24 (Config.reject l axis v (s.lane l).coefAt s.free)) else v

/-- The bytes of a block of samples that stand axis by axis within each sample: planar, axis 0 first (R325). -/
def planar (axes block : Nat) (xs : List Nat) : List Byte :=
  (List.range axes).flatMap fun a => (List.range block).flatMap fun i => leBytes 4 (xs.getD (i * axes + a) 0)

/-- One sample of all axes joins the block being assembled, or begins one at a multiple of BLOCK (R334); a full block enters the ring. -/
def State.nodeSample (s : State) (l idx t flags nodeUnsync : Nat) (xs : List Nat) : State :=
  let x := s.lane l
  let b := s.laneBlock l
  let axes := s.laneField l 0x111 1
  let nd := x.node
  let nd : NodeSt := if nd.start = none ∧ idx % b = 0 then
      { nd with start := some idx, samples := [], t0 := t, tflags := s.timeFlags + 16 * nodeUnsync, flags := 0 }
    else nd
  match nd.start with
  | none => s
  | some i0 =>
    let ys := (List.range axes).map fun a => s.slotSample l a (xs.getD a 0)
    let s := { s with free := s.free + 1 }
    let nd : NodeSt := { nd with samples := nd.samples ++ ys, flags := Nat.lor nd.flags (Nat.land flags 6) }
    if nd.samples.length < b * axes then s.setLane l { x with node := nd }
    else
      let s := s.setLane l { x with node := { nd with start := none, samples := [] } }
      s.laneIn l { dev := nd.t0, tflags := nd.tflags, srcFlags := nd.flags, rtpTs := i0, arrival := s.dev,
                   bytes := planar axes b nd.samples }

/-- The blocks that miss a sample when the next index is `f` in place of `n` (R334); samples of a block that was not being assembled are already
counted. -/
def missedBlocks (b n f : Nat) (open_ : Bool) : Nat :=
  let lo := if open_ then n else roundUp n b
  let hi := n + (f + 2 ^ 32 - n) % 2 ^ 32
  if lo < hi then (hi - 1) / b - lo / b + 1 else 0

/-- A SAMPLES frame whose FIRST_INDEX does not follow on (R332, R334): the blocks that miss samples are lost, less those that silence has
counted (R352). -/
def State.sampleGap (s : State) (l f count already : Nat) : State :=
  let x := s.lane l
  let nd := x.node
  match nd.next with
  | none => s.setLane l { x with node := { nd with start := none, samples := [] } }
  | some n =>
    if f = n then s
    else
      let d := (f + 2 ^ 32 - n) % 2 ^ 32
      let restart := (f = 0 && nd.fresh) || decide (2 ^ 31 ≤ d)
      let lost := if restart then b2n nd.start.isSome else missedBlocks (s.laneBlock l) n f nd.start.isSome
      let s := s.setLane l { x with node := { nd with start := none, samples := [] } }
      let s := if restart then s else s.bump Fld.LANE_PKT_LOST_CNT_CNT l ((d + count - 1) / max 1 count)
      s.laneLose l (lost - already) 1

/-- The extrapolation of T0 by `j` samples at RATE (R334); a fraction of a nanosecond goes where `Config.tie` says. -/
def State.sampleTime (s : State) (l t0 j : Nat) : Nat :=
  let r := max 1 (s.laneField l 0x114 4)
  let q := t0 + j * 10 ^ 9 / r
  if j * 10 ^ 9 % r = 0 then q else q + Config.tie q % 2

/-- A SAMPLES frame of a lane's node (R334, R340, R352). -/
def State.samplesIn (s : State) (l : Nat) (frame : List Byte) : State :=
  let f := leAt frame 24 4
  let count := leAt frame 28 2
  let axes := leAt frame 30 1
  let flags := leAt frame 31 1
  let s := s.countLoss l
  let already := (s.lane l).lossRun
  let s := (s.laneArrival l).sampleGap l f count already
  let y := s.lane l
  let s := s.setLane l { y with node := { y.node with next := some ((f + count) % 2 ^ 32), fresh := false } }
  let bad := b2n (bit flags 0 || !y.node.asSync)
  (List.range count).foldl (fun s j =>
    let xs := (List.range axes).map fun a => leAt frame (32 + 3 * (j * axes + a)) 3
    s.nodeSample l ((f + j) % 2 ^ 32) (s.sampleTime l (leAt frame 16 8) j) flags bad xs) s

/-- SENSOR_SAMPLES (R333, R334). -/
def execSensorSamples (die : Fin 3) (seg : Fin 4) (frame : List Byte) (s : State) : Effect :=
  let s := s.start
  let r := s.sensorFrame die.val seg.val 4 frame
  .next (match r.1 with
    | none => r.2
    | some l => r.2.samplesIn l frame)

/-! ### TDM ports -/

/-- The admitted lane of a TDM port. -/
def State.tdmLane (s : State) (die port : Nat) : Option Nat :=
  (List.range 64).find? fun l => s.laneAdmitted l && s.laneKind l = 3 && s.laneField l 4 1 = die && s.laneField l 5 1 = port

/-- TDM_BLOCK_COMPLETE (R336, R542): a block of a TDM lane with the device time of its first frame; `samples` stand axis by axis within each
sample. An unplugged lane discards it; one that waits for its source resumes. -/
def execTdmBlockComplete (die : Fin 3) (port : Fin 2) (t0 : Nat) (samples : List Nat) (s : State) : Effect :=
  let s := s.start
  .next (if !s.fldOn die.val then s
    else match s.tdmLane die.val port.val with
      | none => s
      | some l =>
        if s.laneState l = 5 ∧ !((s.lane l).waiting && (s.lane l).writes) then s
        else
          let s := if s.laneState l = 5 then s.leaveAbsent l 3 else s
          let s := s.laneArrival l
          let x := s.lane l
          let b := s.laneBlock l
          let axes := s.laneField l 0x111 1
          let i := x.node.next.getD 0
          let s := s.setLane l { x with node := { x.node with next := some ((i + b) % 2 ^ 32) } }
          let ys := (List.range (b * axes)).map fun k => s.slotSample l (k % max 1 axes) (samples.getD k 0)
          let s := { s with free := s.free + 1 }
          s.laneIn l { dev := t0, tflags := s.timeFlags, srcFlags := 0, rtpTs := i, arrival := s.dev, bytes := planar axes b ys })

/-- A lane whose source falls silent (R324, R356). -/
def State.goSilent (s : State) (l : Nat) : State := if s.laneState l = 3 then s.putLaneState l 4 else s

/-- TDM_SDIN_SILENT (R356): no clock activity on SDIN for 1 s. -/
def execTdmSdinSilent (die : Fin 3) (port : Fin 2) (s : State) : Effect :=
  let s := s.start
  .next (match s.tdmLane die.val port.val with
    | none => s
    | some l => s.goSilent l)

/-- T1S_SEGMENT_FAULT (R356): no beacon echo, or a PHY fault: every lane of the segment goes SILENT; one record when the fault begins. -/
def execT1sSegmentFault (die : Fin 3) (seg : Fin 4) (s : State) : Effect :=
  let s := s.start
  let k := die.val * 4 + seg.val
  .next (if !s.segRuns die.val seg.val ∨ NatSet.has s.ptp.segFault k then s
    else
      let s := (s.segLanes die.val seg.val).foldl State.goSilent { s with ptp := { s.ptp with segFault := NatSet.add s.ptp.segFault k } }
      s.record { cls := 1, status := stDOWN, unit := 0x3C + 3 * die.val, block := 0x19 })

end Sys2Proof.Machine
end

