-- ==== Sys2Proof/Machine/Panel.lean ====
section
/-!
DEFINITION. The operator panel (chapter 13): keys, the slider, plug-detect, LEDs, the buzzer and pin faults.
-/
namespace Sys2Proof.Machine

/-! ### Pins -/

/-- Whether the module has a panel: IO-A carries it and has not failed to train (R21, R43). -/
def State.panelUp (s : State) : Bool := !s.boot.ioaLost

/-- FUNC, ARG and ARG2 of a pin (Table 13.1). -/
def State.pinFunc (s : State) (n : Nat) : Nat := s.get Fld.PNL_PIN_CFG_FUNC n
def State.pinArg (s : State) (n : Nat) : Nat := s.get Fld.PNL_PIN_CFG_ARG n
def State.pinArg2 (s : State) (n : Nat) : Nat := s.get Fld.PNL_PIN_ARG2_ARG2 n

/-- Whether a pin is in fault. -/
def State.pinFault (s : State) (n : Nat) : Bool := bit (s.get Fld.PNL_FAULT_FAULT 0) n

/-- Sets or clears a pin's fault bit. -/
def State.setFault (s : State) (n : Nat) (on : Bool) : State := s.putBitAt Fld.PNL_FAULT_FAULT 0 n on

/-! ### Actions -/

/-- A panel action is performed (R530). -/
def State.acted (s : State) : State := s.bump Fld.PNL_ACTION_CNT_CNT 0 1

/-- The 50 ms tone of a Teach, Mark or Cancel (R537). -/
def State.tone (s : State) : State := { s with pnl := { s.pnl with toneUntil := s.now + 50000000 } }

/-- An Ack of a lane that is in ALARM; of any other lane, nothing (R530). -/
def State.panelAck (s : State) (l : Nat) : State :=
  if s.get Fld.LRN_NOV_STATE_STATE l = 2 then (s.ackLane l 0).acted else s

/-- The next listed lane after the selected one that satisfies `p`, wrapping (R527). -/
def State.nextListed (s : State) (p : Nat → Bool) : Option Nat :=
  match s.selected with
  | none => none
  | some l => ((s.listed.filter fun k => decide (l < k)) ++ s.listed.filter fun k => decide (k ≤ l)).find? p

/-- Selects the next listed lane that satisfies `p`. -/
def State.selectNext (s : State) (p : Nat → Bool) : State :=
  match s.nextListed p with
  | some l => s.select l
  | none => s

/-- A key's short action on its target (Table 13.3). -/
def State.shortAct (s : State) (act : Nat) (target : Option Nat) : State :=
  match act, target with
  | 0, some l => ((s.teach l 0).acted).tone
  | 2, some l => (s.panelAck l).silence
  | 2, none => s.silence
  | 3, _ => s.selectNext fun _ => true
  | _, _ => s

/-- A key's long action (Table 13.3). -/
def State.longAct (s : State) (act : Nat) (target : Option Nat) : State :=
  match act, target with
  | 0, some l => ((s.cancelMod l 0).acted).tone
  | 2, _ => (s.listed.foldl State.panelAck s).silence
  | 3, _ => s.selectNext fun l => s.get Fld.LRN_NOV_STATE_STATE l = 2 && s.get Fld.LRN_NOV_STATE_ACKED l = 0
  | _, _ => s

/-- A held key. -/
def State.key (s : State) (n : Nat) : Option KeyHeld := Tbl.get none s.pnl.held n

/-- Sets or removes a held key. -/
def State.setKey (s : State) (n : Nat) (k : Option KeyHeld) : State := { s with pnl := { s.pnl with held := Tbl.set none s.pnl.held n k } }

/-- The recognised level of a pin (Table 13.7): a key held or a connector plugged is the pin's active level, low, or high with INV (Table 13.1); a released
key and an open connector read the other one. -/
def State.pinLevel (s : State) (n : Nat) : Bool :=
  match s.pinFunc n with
  | 1 => (s.key n).isSome == s.flag Fld.PNL_PIN_CFG_INV n
  | 3 => bit (s.get Fld.PNL_PLUGGED_PLUGGED 0) n == s.flag Fld.PNL_PIN_CFG_INV n
  | _ => false

/-- PNL_LEVEL (R549). -/
def State.pinLevels (s : State) : Nat := (List.range 24).foldl (fun a n => a + b2n (s.pinLevel n) * 2 ^ n) 0

/-- A chord (R529): every action of a held key not yet performed is cancelled. -/
def State.chordKeys (s : State) : State :=
  { s with pnl := { s.pnl with chord := true, held := s.pnl.held.map fun kv => (kv.1, kv.2.map fun (k : KeyHeld) => { k with spent := true }) } }

/-- KEY_PRESS (R526 to R529): a press is recognised; MARK acts at once; a press while another key is held makes a chord. -/
def execKeyPress (pin : Fin 24) (s : State) : Effect :=
  let s := s.start
  let n := pin.val
  .next (if !s.panelUp ∨ s.pinFunc n ≠ 1 ∨ (s.key n).isSome then s
    else
      let act := s.pinArg n
      let k : KeyHeld := { act := act, target := s.selected, at_ := s.now, spent := act = 1 }
      let others := s.pnl.held ≠ []
      let s := s.setKey n (some k)
      if others then s.chordKeys
      else match act, s.selected with
        | 1, some l => ((s.mark l 0).acted).tone
        | _, _ => s)

/-- KEY_RELEASE (R527, R529, R546): a release is recognised; a key not spent performs its short action; a stuck key is cleared. -/
def execKeyRelease (pin : Fin 24) (s : State) : Effect :=
  let s := s.start
  let n := pin.val
  .next (match s.key n with
    | none => s
    | some k =>
      let s := (s.setKey n none).setFault n false
      let s := if k.spent then s else s.shortAct k.act k.target
      if s.pnl.held = [] then { s with pnl := { s.pnl with chord := false } } else s)

/-- KEY_LONG_PRESS (R526, R527): a key has been held for 2 s. -/
def execKeyLongPress (pin : Fin 24) (s : State) : Effect :=
  let s := s.start
  let n := pin.val
  .next (match s.key n with
    | none => s
    | some k => if k.spent then s else (s.setKey n (some { k with spent := true })).longAct k.act k.target)

/-- KEY_STUCK (R546): a key held for 60 s: its actions are cancelled, its fault bit set, one record. -/
def execKeyStuck (pin : Fin 24) (s : State) : Effect :=
  let s := s.start
  let n := pin.val
  .next (match s.key n with
    | none => s
    | some k =>
      if s.pinFault n then s
      else ((s.setKey n (some { k with spent := true })).setFault n true).record (recC 0x1A stBUSY))

/-! ### Electrodes -/

/-- The factory baseline of an electrode (R547; the factory record's layout does not place it). -/
def State.factoryBase (s : State) (n : Nat) : Nat := s.identity (16 + n) % 65536

/-- The baseline of an electrode in 1/256 of a count; it starts at the factory's. -/
def State.base256 (s : State) (n : Nat) : Nat :=
  let b := Tbl.get 0 s.pnl.base n
  if b = 0 then s.factoryBase n * 256 else b

/-- Whether a count lies within ±50 % of the factory baseline (R547). -/
def State.countOk (s : State) (n c : Nat) : Bool := decide (s.factoryBase n ≤ 2 * c) && decide (2 * c ≤ 3 * s.factoryBase n)

/-- Whether an electrode is touched at a count (R534, Table 13.1). -/
def State.touched (s : State) (n c : Nat) : Bool :=
  let thr := if s.pinArg2 n = 0 then 30 else s.pinArg2 n
  decide (s.base256 n * (1000 + thr) < c * 256 * 1000)

/-- The slider's pin at a position. -/
def State.sliderPin (s : State) (k : Nat) : Option Nat := (List.range 24).find? fun n => s.pinFunc n = 2 && s.pinArg n = k

/-- The lane under the finger (R534): position p = Σ k·d / Σ d over the touched electrodes (pin, position, count). -/
def State.underFinger (s : State) (es : List (Nat × Nat × Nat)) : Option Nat :=
  let d := fun (e : Nat × Nat × Nat) => e.2.2 * 256 - s.base256 e.1
  let num := sumN (es.map fun e => e.2.1 * d e)
  let den := sumN (es.map d)
  let n := s.listed.length
  if n = 0 ∨ den = 0 then none else s.listed[min (n - 1) (num * n / (3 * den))]?

/-- Moves an electrode's baseline by 1/256 of the difference between count and baseline (R534). -/
def State.track (s : State) (n c : Nat) : State :=
  let b : Int := s.base256 n
  { s with pnl := { s.pnl with base := Tbl.set 0 s.pnl.base n (b + ((c * 256 : Nat) - b).fdiv 256).toNat } }

/-- Takes a sweep's counts: they are kept, and an electrode back in range leaves its fault (R547). -/
def State.takeCounts (s : State) (es : List (Nat × Nat × Nat)) : State :=
  es.foldl (fun s e =>
    let s := { s with pnl := { s.pnl with count := Tbl.set 0 s.pnl.count e.1 e.2.2 } }
    if s.pinFault e.1 ∧ s.countOk e.1 e.2.2 then s.setFault e.1 false else s) s

/-- A sweep with or without a touch (R534). -/
def State.sweepTouch (s : State) (es : List (Nat × Nat × Nat)) : State :=
  let hit := es.filter fun e => s.touched e.1 e.2.2
  let p := s.pnl
  if hit ≠ [] ∧ hit.length < 4 then
    { s with pnl := { p with touchRun := p.touchRun + 1, freeRun := 0, touching := p.touching || decide (1 ≤ p.touchRun),
                             finger := s.underFinger hit } }
  else
    let ends := p.touching && decide (1 ≤ p.freeRun)
    let s := { s with pnl := { p with touchRun := 0, freeRun := p.freeRun + 1, touching := p.touching && !ends } }
    match ends, p.finger with
    | true, some l => if s.listed.contains l then s.select l else s
    | _, _ => s

/-- Whether a pin is the electrode of a capacitive plug-detect. -/
def State.capPlug (s : State) (n : Nat) : Bool := s.pinFunc n = 3 && decide (s.pinArg n < 64) && bit (s.pinArg2 n) 0

/-- Whether a capacitive plug-detect reads plugged at a count: d exceeds 30 ‰ of its baseline (R538). -/
def State.plugReads (s : State) (n c : Nat) : Bool := decide (s.base256 n * 1030 < c * 256 * 1000)

/-- SLIDER_SWEEP (R525, R534, R538, R547): the sense timers' measurements of 40 ms: one count per slider position, and the counts of capacitive
plug-detect electrodes, whose baseline tracks while the connector reads unplugged. A faulty electrode stops the slider. -/
def execSliderSweep (counts : List Nat) (plugs : List (Fin 24 × Nat)) (s : State) : Effect :=
  let s := s.start
  let es := (List.range 4).filterMap fun k => match s.sliderPin k, counts[k]? with
    | some n, some c => some (n, k, c)
    | _, _ => none
  let ps := (plugs.filter fun (x : Fin 24 × Nat) => s.capPlug x.1.val).map fun (x : Fin 24 × Nat) => (x.1.val, 4, x.2)
  .next (if !s.panelUp then s
    else
      let s := s.takeCounts (es ++ ps)
      let s := ps.foldl (fun s e => if s.plugReads e.1 e.2.2 then s else s.track e.1 e.2.2) s
      if es.any fun e => s.pinFault e.1 then s
      else
        let t := s.sweepTouch es
        if t.pnl.touching then t else es.foldl (fun s e => s.track e.1 e.2.2) t)

/-- SELECTION_DISPLAY_END (R536): 2 s after a change of selection the number display ends. -/
def execSelectionDisplayEnd (s : State) : Effect :=
  let s := s.start
  .next { s with pnl := { s.pnl with showUntil := 0 } }

/-! ### Plug-detect (R538 to R542) -/

/-- Whether a pin is an active plug-detect whose recognised state may change: a capacitive one in fault keeps it (R547). -/
def State.plugPinOk (s : State) (n : Nat) : Bool :=
  s.panelUp && s.pinFunc n = 3 && decide (s.pinArg n < 64) && !(bit (s.pinArg2 n) 0 && s.pinFault n)

/-- A recognised change of a plug-detect pin (R538). -/
def State.plugChange (s : State) (n : Nat) (plugged : Bool) : State :=
  (s.putBitAt Fld.PNL_PLUGGED_PLUGGED 0 n plugged).bump Fld.PNL_PLUG_CNT_CNT 0 1

/-- SENSOR_UNPLUG (R538, R539): the lane goes ABSENT; one that waited for its source waits no more. -/
def execSensorUnplug (pin : Fin 24) (s : State) : Effect :=
  let s := s.start
  let n := pin.val
  .next (if !s.plugPinOk n ∨ !bit (s.get Fld.PNL_PLUGGED_PLUGGED 0) n then s
    else
      let l := s.pinArg n
      let s := s.plugChange n false
      if !s.laneAdmitted l then s
      else if s.laneState l = 5 then s.setLane l { s.lane l with waiting := false }
      else s.makeAbsent l)

/-- SENSOR_REPLUG (R538, R542): an ABSENT lane waits for its source to identify itself. -/
def execSensorReplug (pin : Fin 24) (s : State) : Effect :=
  let s := s.start
  let n := pin.val
  .next (if !s.plugPinOk n ∨ bit (s.get Fld.PNL_PLUGGED_PLUGGED 0) n then s
    else
      let l := s.pinArg n
      let s := s.plugChange n true
      if s.laneState l = 5 then s.setLane l { s.lane l with waiting := true, waitAt := s.dev } else s)

/-- REPLUG_WAIT_TIMEOUT (R542): no frame or block within 10 s: the lane leaves ABSENT for SILENT. -/
def execReplugWaitTimeout (lane : Fin 64) (s : State) : Effect :=
  let s := s.start
  let l := lane.val
  .next (if s.laneState l = 5 ∧ (s.lane l).waiting then s.leaveAbsent l 4 else s)

/-! ### Faults -/

/-- ELECTRODE_FAULT (R547): an electrode's count has stayed outside ±50 % of its factory baseline for 10 s. -/
def execElectrodeFault (pin : Fin 24) (s : State) : Effect :=
  let s := s.start
  let n := pin.val
  .next (if !s.panelUp ∨ !(s.pinFunc n = 2 || (s.pinFunc n = 3 && bit (s.pinArg2 n) 0)) ∨ s.pinFault n then s
    else (s.setFault n true).record (recC 0x1A stDOWN))

/-- SINK_OVERCURRENT (R548): an LED or buzzer pin sinks more than 25 mA and is switched off. -/
def execSinkOvercurrent (pin : Fin 24) (s : State) : Effect :=
  let s := s.start
  let n := pin.val
  .next (if !s.panelUp ∨ !(s.pinFunc n = 4 || s.pinFunc n = 5) ∨ s.pinFault n then s else (s.setFault n true).record (recC 0x1A stDOWN))

/-- SINK_RETRY (R548): every 10 s the pin is tried again. -/
def execSinkRetry (pin : Fin 24) (still : Bool) (s : State) : Effect :=
  let s := s.start
  let n := pin.val
  .next (if (s.pinFunc n = 4 ∨ s.pinFunc n = 5) ∧ !still then s.setFault n false else s)

/-! ### What the panel shows (R535 to R537, R69) -/

/-- What an LED shows. -/
inductive Led where
  | off | steady | slow | fast
deriving DecidableEq, Repr

/-- An LED that is steady or off. -/
def ledIf (b : Bool) : Led := if b then .steady else .off

/-- What the sources that follow the selected lane show (Table 13.4, sources 2 to 7). -/
def State.laneLed (s : State) (src n l : Nat) : Led :=
  let st := s.get Fld.LRN_NOV_STATE_STATE l
  match src with
  | 2 => ledIf (st = 1)
  | 3 => if st ≠ 2 then .off else if s.get Fld.LRN_NOV_STATE_ACKED l = 1 then .steady else .fast
  | 4 =>
    let e := (s.lrnLane l).teachEnd
    if e = 0 then .off else if e ≤ s.dev + 60000000000 then .slow else .steady
  | 5 => ledIf ((s.lrnLane l).markEnd ≠ 0)
  | 6 => if s.laneState l = 5 then .steady else if s.laneState l = 4 ∨ NatSet.has s.pnl.relearn l then .slow else .off
  | _ => ledIf (bit l (bits (s.pinArg2 n) 10 8))

/-- The lane the LEDs show: the one under the finger while a touch is held, else the selected one (R534, R536). -/
def State.shownLane (s : State) : Option Nat := if s.pnl.touching then s.pnl.finger else s.selected

/-- What a pin's source shows (Table 13.4). -/
def State.ledSource (s : State) (n : Nat) : Led :=
  match s.pinArg n with
  | 0 => if s.boot.phase = .running then .steady else .slow
  | 1 =>
    let al := s.listed.filter fun l => s.get Fld.LRN_NOV_STATE_STATE l = 2
    if al.isEmpty then .off else if al.any fun l => s.get Fld.LRN_NOV_STATE_ACKED l = 0 then .fast else .steady
  | 8 => ledIf (bit (s.get Fld.PNL_LED_SW_LED 0) n)
  | src => match s.selected with
    | some l => s.laneLed src n l
    | none => .off

/-- What an LED pin shows (R535, R536, R69, R548), before FLAGS bit 0 inverts it. -/
def State.led (s : State) (n : Nat) : Led :=
  if !s.panelUp ∨ s.pinFunc n ≠ 4 ∨ s.pinFault n then .off
  else if s.boot.phase = .bare then (if 16 ≤ n ∧ n ≤ 22 then ledIf (bit (s.get Fld.BOOT_STATUS_CODE 0) (n - 16)) else .off)
  else if s.pnl.touching ∨ s.now < s.pnl.showUntil then
    (if 16 ≤ n ∧ n ≤ 21 then ledIf ((s.shownLane.map fun l => bit l (n - 16)).getD false) else if n = 22 then .steady else s.ledSource n)
  else s.ledSource n

/-- Whether the buzzer sounds (R537): its alarm cadence, a test or a tone; silent in bare mode. -/
def State.buzzer (s : State) : Bool :=
  s.panelUp && decide (s.boot.phase ≠ .bare) && (s.pnl.alarm || decide (s.now < s.pnl.testUntil) || decide (s.now < s.pnl.toneUntil))

end Sys2Proof.Machine
end

