-- ==== Sys2Proof/Machine/Recovery.lean ====
section
/-!
DEFINITION. Quiesce drains, watchdogs, partition restarts, channel stalls and device-fatal errors (R131, R561 to R581).
-/
namespace Sys2Proof.Machine

/-- QUIESCE_DRAIN_DONE (Table 14.5 steps 2 to 6): the unit being quiesced has drained. -/
def execQuiesceDrainDone (s : State) : Effect := .next s.start.drained.mbAll

/-- DRAIN_TIMEOUT (R561, R570): the drain has lasted 100 µs: the unit is silent. -/
def execDrainTimeout (s : State) : Effect :=
  let s := s.start
  .next (match s.err.cur with
    | none => s
    | some (u, _) =>
      if s.err.coxHalted ∨ (Tbl.get none s.pwr.returning (unitDomain u)).isSome then s else (s.silentUnit u).mbAll)

/-- CHANNEL_STALL (R131, R570, R616): a channel has held its request for 50 µs without acknowledge; one that a halted Scull causes is not
counted. -/
def execChannelStall (ch : Channel) (unit : Nat) (s : State) : Effect :=
  let s := s.start
  .next (if s.err.coxHalted ∨ (unit ≤ 0x0F ∧ ((s.scull unit).halted ∨ (s.scull unit).haltPending.isSome)) then s
    else
      let last := 2 ^ 31 + ch.vc % 8 * 0x10000 + ch.column % 16 * 0x1000 + ch.row % 16 * 0x100 + ch.port % 256
      let s := (((s.put Fld.FAB_STALL_LAST_VALID 0 1).put Fld.FAB_STALL_LAST_VC 0 ch.vc).put Fld.FAB_STALL_LAST_COLUMN 0 ch.column)
      let s := ((s.put Fld.FAB_STALL_LAST_ROW 0 ch.row).put Fld.FAB_STALL_LAST_PORT 0 ch.port).bump Fld.FAB_STALL_CNT_CNT 0 1
      let s := s.record { cls := 1, status := stTIMEOUT, unit := unit, block := 0x03, infoKind := 10, info := last }
      (s.silentUnit unit).mbAll)

/-! ### The frame deadline (R573 to R575) -/

/-- Whether a SEQ is one that the lane has used. -/
def State.seqUsed (s : State) (l seq : Nat) : Bool :=
  let d := ((s.lane l).seq + 2 ^ 32 - seq) % 2 ^ 32
  s.laneAdmitted l && decide (0 < d) && decide (d ≤ 2 ^ 31)

/-- How long an entry's limits are moved: the time that a Scull with a task of its lane has spent halted since it entered, the longest where several have
(R621; DEDUCED for several, log entry 103). -/
def State.limitMoved (s : State) (l : Nat) (e : Entry) : Nat :=
  ((s.laneTasks l).map fun k => s.haltedFor (k / 65536) - e.halts.getD (k / 65536) 0).foldl max 0

/-- A frame-deadline limit of an entry: DEV_TIME and so many deadlines, moved by the halts of its lane's Sculls (Table 14.7, R621). -/
def State.frameLimit (s : State) (l : Nat) (e : Entry) (mult : Nat) : Nat := e.dev + mult * s.laneDeadline l + s.limitMoved l e

/-- FRAME_DEADLINE (R574): DEV_TIME + deadline of an entry. -/
def execFrameDeadline (lane : Fin 64) (seq : BitVec 32) (s : State) : Effect :=
  let s := s.start
  let l := lane.val
  .next (if s.err.coxHalted ∨ !s.seqUsed l seq.toNat then s
    else match s.entry l seq.toNat with
      | none => { s with err := { s.err with lateRun := NatSet.del s.err.lateRun l } }
      | some e =>
        if e.late ∨ e.ended ∨ s.dev < s.frameLimit l e 1 then s
        else
          let s := (s.onEntry l seq.toNat fun e => { e with late := true }).bump Fld.ERR_LANE_LATE_CNT_CNT l 1
          if NatSet.has s.err.lateRun l then s
          else
            let s := { s with err := { s.err with lateRun := NatSet.add s.err.lateRun l } }
            s.record { cls := 1, status := stTIMEOUT, part := s.lanePart l, block := 0x1B, lane := some l })

/-- Ends one task for an entry that has run out of time (R575): a task that has begun its attempt ends it, another returns its inputs. -/
def State.endForEntry (e : Entry) (s : State) (k : Nat) : State :=
  match s.task k with
  | none => s
  | some t =>
    if t.st = .committing ∧ t.entry = e.seq then s
    else if t.begun ∧ t.entry = e.seq then s.endTrigger k t
    else if !t.begun ∧ t.st ≠ .committing ∧ t.runs = e.idx ∧ s.inputsReady t (t.skipped t.runs) then s.endTrigger k { t with entry := e.seq }
    else s.dropTrigger e.idx k

/-- FRAME_LATE_LIMIT (R575): DEV_TIME + LATE_MULT × deadline of an entry; one whose tasks all commit loses nothing (Crossing 5 of chapter 14). -/
def execFrameLateLimit (lane : Fin 64) (seq : BitVec 32) (s : State) : Effect :=
  let s := s.start
  let l := lane.val
  .next (if s.err.coxHalted then s
    else match s.entry l seq.toNat with
      | none => s
      | some e =>
        let keep := e.left.filter fun k => match s.task k with
          | some t => decide (t.st = .committing) && t.entry = e.seq
          | none => false
        if e.ended ∨ (e.stage = 3 ∧ keep = e.left) ∨ s.dev < s.frameLimit l e (s.get Fld.ERR_WD_CFG_LATE_MULT 0) then s
        else
          let s := (s.onEntry l seq.toNat fun e => { e with ended := true }).entryLost l 5
          let s := (s.bump Fld.ERR_LANE_END_CNT_CNT l 1).restartHolds l
          let s := e.left.foldl (State.endForEntry e) s
          let s := s.onEntry l seq.toNat fun e => { e with left := e.left.filter keep.contains }
          (s.retireEntries l).flushHeld l)

/-! ### Heartbeats and partitions (R576 to R579) -/

/-- HEARTBEAT_EXPIRY (R576): a partition's last HEARTBEAT is more than HB_MS old. -/
def execHeartbeatExpiry (part : Fin 8) (s : State) : Effect :=
  let s := s.start
  let p := part.val
  .next (if s.get Fld.ERR_PART_CFG_HB_MS p = 0 ∨ NatSet.has s.err.hbLate p ∨ s.err.coxHalted ∨ !s.alive then s
    else
      let s := { s with err := { s.err with hbLate := NatSet.add s.err.hbLate p } }
      let s := s.record { cls := 1, status := stTIMEOUT, part := p, block := 0x1B }
      if s.get Fld.ERR_PART_CFG_HB_ACTION p = 2 ∧ s.partRunning p then s.partFatal p stTIMEOUT else s)

/-- PARTITION_AUTO_RESTART (R579): AUTO_S seconds after a failure that is not the repeat of a restart. -/
def execPartitionAutoRestart (part : Fin 8) (s : State) : Effect :=
  let s := s.start
  let p := part.val
  .next (if s.get Fld.ERR_PART_CFG_AUTO_S p = 0 ∨ NatSet.has s.err.noAuto p ∨ s.err.coxHalted then s else (s.restartPart p).mbAll)

/-! ### Device-fatal errors (R580, R581) -/

/-- The code of a device-fatal cause (Table 14.11). -/
def FatalCause.code : FatalCause → Nat
  | .lockstep => 1
  | .coxWatchdog => 2
  | .coxSram => 3
  | .supply => 4

/-- Records a device-fatal cause (Table 14.8 step 1). -/
def State.fatalCause (s : State) (c : Nat) : State :=
  (({ s with err := { s.err with fatalReport := some c } }).put Fld.ERR_FATAL_CAUSE_VALID 0 1).put Fld.ERR_FATAL_CAUSE_CAUSE 0 c

/-- A device-fatal error during a power-fail commit: the units are held, so that slots without complete COMMIT records stay uncommitted, and the shutdown
goes on (Crossing 7 of chapter 14, R642). -/
def State.fatalInPowerFail (s : State) (c : Nat) : State :=
  let s := (s.fatalCause c).console 4 c
  let s := [0, 1].foldl (fun s b => s.setBank b { s.bnk b with writing := [], cur := none }) s
  { s with mod := { s.mod with stopped := true } }

/-- A device-fatal error (Table 14.8 steps 1 to 3): the cause is recorded, every unit is held (log entry 42), PWR_GOOD and the PCIe link go
down. A third within 10 min, or an ERR_FATAL_HOLD of 0, leaves the device held (R581). -/
def State.deviceFatal (s : State) (c : Nat) : State :=
  if s.boot.phase = .fatalHeld then s
  else if s.boot.phase = .powerFail then s.fatalInPowerFail c
  else
    let times := s.now :: s.err.fatalTimes.filter fun t => decide (s.now < t + 600000000000)
    let go := decide (s.get Fld.ERR_FATAL_HOLD_MS 0 ≠ 0) && decide (times.length < 3)
    let s := ({ s with err := { s.err with fatalTimes := times } }).fatalCause c
    let s := ((s.console 4 c).deviceReset).emit (.pin 1 0)
    { s with boot := { s.boot with phase := .fatalHeld }, err := { s.err with fatalGo := go } }

/-- DEVICE_FATAL (R580). -/
def execDeviceFatal (cause : FatalCause) (s : State) : Effect := .next (s.start.deviceFatal (FatalCause.code cause))

/-- COX_WATCHDOG_EXPIRY (R573, R580, R618): the firmware has not served its timer for 50 ms; suspended while the Cox is halted. -/
def execCoxWatchdogExpiry (s : State) : Effect :=
  let s := s.start
  .next (if s.err.coxHalted then s else s.deviceFatal 2)

/-- FATAL_HOLD_EXPIRY (R581, Table 14.8 step 4): the fatal controller resets the device, unless it holds it. -/
def execFatalHoldExpiry (s : State) : Effect :=
  let s := s.start
  .next (if s.boot.phase ≠ .fatalHeld ∨ !s.err.fatalGo then s
    else
      let times := s.now :: s.err.fatalRestarts.filter fun t => decide (s.now < t + 600000000000)
      ({ s with err := { s.err with fatalRestarts := times } }).deviceReset)

end Sys2Proof.Machine
end

