-- ==== Sys2Proof/Machine/RegView.lean ====
section
/-!
DEFINITION. What a register reads as: its stored fields, and the fields that follow from other state; who an access comes from, what its view
shows it, and the answers of the register aperture (R9 to R18, R32, R488, R489, R589 to R593, R633).
-/
namespace Sys2Proof.Machine

/-! ### Derived fields -/

/-- The 32 bytes of an error record (Table 14.3). -/
def ErrRec.bytes (r : ErrRec) : List Byte :=
  leBytes 4 r.seq ++ leBytes 1 r.cls ++ leBytes 1 r.status ++ leBytes 1 r.unit ++ leBytes 1 r.part ++ leBytes 8 r.time ++ leBytes 1 r.block ++
  leBytes 1 r.infoKind ++ leBytes 1 (b2n r.lane.isSome + 2 * b2n r.ctx.isSome + 4 * b2n r.ovf) ++ leBytes 1 (r.lane.getD 0) ++
  leBytes 1 (r.ctx.getD 0) ++ [0] ++ leBytes 2 r.count ++ leBytes 8 r.info

/-- The record ERR_SEL_r selects, as ERR_REC_r_0 to _7 give it (R557). -/
def State.selectedRec (s : State) (r : Nat) : Nat :=
  let k := s.get Fld.ERR_SEL_SEL r
  let cons := s.get Fld.ERR_CONS_CONS r
  if (k + 65536 - cons) % 65536 < (s.get Fld.ERR_PROD_PROD r + 65536 - cons) % 65536 then
    match Tbl.get none s.err.recs (r * 512 + k % 512) with
    | some e => leNat e.bytes
    | none => 0
  else 0

/-- The owner BOOT_RES_SEL selects: type and number (Table 2.13). DESIGN CHOICE: pins, sense timers, system Slide engines and contexts, which have
no die, are selected under die 0 (log entry 103). -/
def State.selectedOwner (s : State) : Nat × Nat :=
  let kind := s.get Fld.BOOT_RES_SEL_KIND 0
  if 1 ≤ kind ∧ kind ≤ 6 then
    match Tbl.get none s.boot.owners (resKey kind (s.get Fld.BOOT_RES_SEL_DIE 0) (s.get Fld.BOOT_RES_SEL_INDEX 0)) with
    | some o => (o.kind, o.num)
    | none => (0, 0)
  else (0, 0)

/-- The value MDL_VEC_SEL selects (Table 11.9); the view of a partition shows its own vectors only. -/
def State.selectedVec (s : State) (view : Option Nat) : Nat :=
  let p := s.get Fld.MDL_VEC_SEL_PART 0
  let c := s.get Fld.MDL_VEC_SEL_COMP 0
  if view.isSome ∧ view ≠ some p then 0
  else match s.get Fld.MDL_VEC_SEL_SOURCE 0 with
    | 0 => (s.quotaOf p).getD c 0
    | 1 => (s.usedBy p none).getD c 0
    | 2 => (s.deviceFree p none).getD c 0
    | _ => ((Tbl.get [] s.mdl.short p).getD (s.get Fld.MDL_VEC_SEL_PROFILE 0) []).getD c 0

/-- Seconds from now to a time, rounded up. -/
def secsTo (now t : Nat) : Nat := (t - now + 999999999) / 1000000000

/-- Seconds left of the lockout (R610). -/
def State.lockoutLeft (s : State) : Nat :=
  match s.dbg.lockoutUntil with
  | some t => secsTo s.now t
  | none => 0

/-- Seconds left of the open session (R612). -/
def State.sessionLeft (s : State) : Nat :=
  match s.dbg.sessionAt with
  | some t => secsTo s.now (t + 28800000000000)
  | none => 0

/-- Device-fatal restarts of the last 10 min (Table 14.11). -/
def State.fatalRestarts10 (s : State) : Nat := (s.err.fatalRestarts.filter fun t => decide (s.now < t + 600000000000)).length

/-- NET_T1S_STATUS of a die: a byte for each segment (R358). -/
def State.t1sStatus (s : State) (die : Nat) : Nat :=
  leNat ((List.range 4).map fun g =>
    let k := die * 4 + g
    let heard := (s.ptp.nodes.filter fun kv => kv.1 / 256 = k).length
    BitVec.ofNat 8 (b2n (NatSet.has s.ptp.segFault k) + 2 * b2n (s.segRuns die g) + 4 * min heard 63))

/-- The selected population of LRN_POP_SEL. -/
def State.selectedPop (s : State) : Option Pop := s.pop (s.get Fld.LRN_POP_SEL_ENGINE 0) (s.get Fld.LRN_POP_SEL_POP 0)

/-- The lock LOCK_INSPECT_SEL selects (R177). -/
def State.selectedLock (s : State) : Nat := (s.lock (s.get Fld.LOCK_INSPECT_SEL_LOCK_ID 0)).layout

/-- What a field reads as in the view of partition `view` (none: the privileged view). A field that no other state determines reads as stored;
a WO field reads 0 (Table 0.3). -/
def State.fieldRead (s : State) (view : Option Nat) (f : RegField) (i : Nat) : Nat :=
  let part := view.getD 0
  let last := fun (k : Nat) => (Tbl.get [] s.mdl.last part).getD k 0
  if f.acc = .wo then 0
  else if f = Fld.BOOT_RES_OWNER_TYPE then s.selectedOwner.1
  else if f = Fld.BOOT_RES_OWNER_OWNER then s.selectedOwner.2
  else if f.base = Fld.LOCK_INSPECT_STATE.base then bits s.selectedLock (f.lo + f.width - 1) f.lo
  else if f = Fld.XLU_LINE_READ_READ then
    bits (s.liningMask (s.get Fld.XLU_LINE_SEL_KIND 0 * 2 ^ 24 + s.get Fld.XLU_LINE_SEL_TARGET 0 * 2 ^ 16 + s.get Fld.XLU_LINE_SEL_GRANULE 0)) 7 0
  else if f = Fld.XLU_LINE_READ_WRITE then
    bits (s.liningMask (s.get Fld.XLU_LINE_SEL_KIND 0 * 2 ^ 24 + s.get Fld.XLU_LINE_SEL_TARGET 0 * 2 ^ 16 + s.get Fld.XLU_LINE_SEL_GRANULE 0)) 15 8
  else if f = Fld.LRN_POP_FAST_CNT then s.countRecords (s.get Fld.LRN_POP_SEL_ENGINE 0) (s.get Fld.LRN_POP_SEL_POP 0) false
  else if f = Fld.LRN_POP_SPILL_CNT then s.countRecords (s.get Fld.LRN_POP_SEL_ENGINE 0) (s.get Fld.LRN_POP_SEL_POP 0) true
  else if f = Fld.LRN_POP_CTRL_FREEZE then b2n ((s.selectedPop.map Pop.freeze).getD false)
  else if f = Fld.LRN_POP_CTRL_LANE_FROZEN then b2n ((s.selectedPop.map Pop.laneFrozen).getD false)
  else if f = Fld.LRN_MOD_SECS then secsTo s.dev (s.lrnLane i).teachEnd % 65536
  else if f = Fld.BH_WRITES_24H_CNT then s.writes24 i % 2 ^ 17
  else if f = Fld.MDL_VEC_VALUE then s.selectedVec view
  else if f = Fld.MDL_LAST_STATUS then last 0
  else if f = Fld.MDL_LAST_CHECK then last 1
  else if f = Fld.MDL_LAST_PROFILE then last 2
  else if f = Fld.MDL_LAST_SLOT then last 3
  else if f = Fld.MDL_LAST_CARRIED then last 4
  else if f = Fld.MDL_LAST_ID_ID then last 5
  else if f.base = Fld.CATCH_BAND_T_MIN.base then (if s.laneKind i = 1 then s.get f i else 0)
  else if f = Fld.JL_ROUTE_NO_ROUTE then b2n (s.route (s.get Fld.JL_ROUTE_SEL_DEST 0)).isNone
  else if f = Fld.JL_ROUTE_PORT then (s.route (s.get Fld.JL_ROUTE_SEL_DEST 0)).getD 0
  else if f = Fld.PNL_LEVEL_LEVEL then s.pinLevels
  else if f = Fld.PNL_SENSE_COUNT then Tbl.get 0 s.pnl.count (s.get Fld.PNL_SENSE_SEL_PIN 0) % 65536
  else if f = Fld.PNL_SENSE_BASELINE then s.base256 (s.get Fld.PNL_SENSE_SEL_PIN 0) / 256 % 65536
  else if f = Fld.ERR_REC_REC then s.selectedRec i
  else if f = Fld.ERR_EPOCH_RESETS then min 3 (s.silentResets i)
  else if f = Fld.ERR_FATAL_CAUSE_RESTARTS then min 255 s.fatalRestarts10
  else if f = Fld.LANE_STACK_D_MBPS then s.stackD i / 1000
  else if f = Fld.LANE_STACK_DEMAND_MBPS then s.stackDemand2 i / 2000
  else if f = Fld.MDL_STATE_LANES then (match s.model i with
    | some m => (s.lanesBound m.part m.id).length
    | none => 0)
  else if f = Fld.NET_T1S_STATUS_SEGS then s.t1sStatus i
  else if f = Fld.SEC_DBG_STATUS_LOCKOUT_S then s.lockoutLeft
  else if f = Fld.SEC_SESSION_LEFT_S then s.sessionLeft
  else s.get f i

/-- Whether an offset lies in the DBG block (R593). -/
def inDbg (off : Nat) : Bool := decide (0x1C0000 ≤ off) && decide (off < 0x1D0000)

/-- The offset of index `i` of a register. -/
def RegRow.offset (r : RegRow) (i : Nat) : Nat := r.base + i * r.stride

/-- The whole value of a register: 0 where an uncorrectable error stands (R633), and for the DBG block outside a session (R593). -/
def State.regValue (s : State) (view : Option Nat) (r : RegRow) (i : Nat) : Nat :=
  if NatSet.has s.regUe (r.offset i) ∨ (inDbg r.base ∧ (view.isSome ∨ s.dbg.sessionAt.isNone)) then 0
  else r.fields.foldl (fun a (f : RegField) => a + s.fieldRead view f i * 2 ^ f.lo) 0

/-! ### Who accesses, and what is shown -/

/-- Where an access comes from: the partition whose view it uses (none: the privileged view), its holding word and shadow (R18), the function of
a host access. -/
structure RegWho where
  view : Option Nat
  key : Nat
  fn : Option Nat
deriving DecidableEq, Repr

/-- The writing partition: partition 0 for the privileged view. -/
def RegWho.part (w : RegWho) : Nat := w.view.getD 0

/-- The key of a fabric context (R18). -/
def fabricKey (ctx part : Nat) : Nat := ctx % 256 * 8 + part % 8

/-- Who a register source is (R18, R488, R590). -/
def State.regWho (s : State) (src : RegSrc) : RegWho :=
  match src with
  | .bar0 f => ⟨some f.val, 10000 + f.val, some f.val⟩
  | .bar2 => ⟨none, 10100, some 0⟩
  | .fabric t priv => ⟨if priv then none else some (if t.sys then 0 else t.part % 8), fabricKey t.ctx t.part, none⟩
  | .tap => ⟨none, 10101, none⟩
  | .task n => match s.running n.val with
    | some (_, t) => ⟨some t.part, fabricKey t.ctx t.part, none⟩
    | none => ⟨some 0, 10102, none⟩

/-- Whether an indexed register belongs to partition `p` (R591): by its lane, context, partition, function, ring, engine or model slot. -/
def State.regOwned (s : State) (p : Nat) (r : RegRow) (i : Nat) : Bool :=
  let b := r.base
  if r.stride = 0 then true
  else if 0x100000 ≤ b ∧ b < 0x110000 then s.lanePart i = p
  else if 0x0C1000 ≤ b ∧ b < 0x0D0000 then s.lanePart i = p
  else if 0x120000 ≤ b ∧ b < 0x130000 then s.lanePart i = p
  else if b = 0x160800 ∨ b = 0x1B0600 ∨ b = 0x1B0700 then s.lanePart i = p
  else if 0x061000 ≤ b ∧ b < 0x070000 then (s.ctxsOf p).contains i
  else if 0x0A0000 ≤ b ∧ b < 0x0B0000 then
    let x := s.slide i
    !physEngine i && (s.engineOwner i = some p || ((x.st = 1 || x.st = 2 || x.st = 3) && x.part = p))
  else if 0x150000 ≤ b ∧ b < 0x160000 then (match s.model i with
    | some m => m.part = p
    | none => false)
  else i = p

/-- Whether a view shows a register. -/
def State.regShown (s : State) (w : RegWho) (r : RegRow) (i : Nat) : Bool :=
  match w.view with
  | none => true
  | some p => !r.priv && s.regOwned p r i

/-- At most one record per 10 ms per partition (R489, R591). -/
def State.ratedRec (s : State) (k : Nat) (e : ErrRec) : State :=
  match Tbl.get none s.err.lastRec k with
  | some t => if s.now < t + 10000000 then s else ({ s with err := { s.err with lastRec := Tbl.set none s.err.lastRec k (some s.now) } }).record e
  | none => ({ s with err := { s.err with lastRec := Tbl.set none s.err.lastRec k (some s.now) } }).record e

/-- The code of the block an offset lies in (R629). -/
def blockOf (off : Nat) : Nat := let c := off / 0x10000 % 32; if c = 0x11 then 0x10 else c

/-- A host access that the aperture answers DENIED (R489). -/
def State.hostDenied (s : State) (f off : Nat) : State :=
  s.ratedRec f { cls := 0, status := stDENIED, part := f, block := blockOf off, infoKind := 3, info := off % 2 ^ 24 }

/-- A write to a hidden offset (R591). -/
def State.hiddenWrite (s : State) (p off : Nat) : State :=
  (s.bump Fld.SEC_UVIEW_CNT_CNT 0 1).ratedRec (8 + p)
    { cls := 0, status := stUVIEW, part := p, block := blockOf off, infoKind := 3, info := off }

/-- The address of an offset of a register view (Table 1.5). -/
def State.viewAddr (s : State) (priv : Bool) (off : Nat) : Nat :=
  s.get Fld.GLB_PKG_ID_PKG_ID 0 * 2 ^ 44 + (if priv then 0x01040000000 else 0x01050000000) + off

/-- Whether an access is not of one aligned word below the reserved space of a view (R9, R32). -/
def regShape (off size : Nat) : Bool := size ≠ 4 || off % 4 ≠ 0 || decide (0x1E0000 ≤ off)

/-- What refuses a host's access through function `f` (R487 to R489): a virtual function without a created partition answers Unsupported Request. -/
def State.hostGate (s : State) (f off : Nat) (shape : Bool) : Option Nat × State :=
  if s.get Fld.HOST_LINK_STATUS_UP 0 = 0 then (some stDOWN, s)
  else if f ≠ 0 ∧ (Tbl.get none s.boot.parts f).isNone then (some stDENIED, s)
  else if shape then (some stDENIED, s.hostDenied f off) else (none, s)

/-- What refuses a fabric access that the aperture's own gate has answered `g` (R9, R32, R589). -/
def viewGate (g : Option Nat × State) (t : Tag) (va : Nat) (priv shape : Bool) : Option Nat × State :=
  match g.1 with
  | some st => (some st, g.2)
  | none =>
    if priv ∧ !t.sys ∧ t.part ≠ 0 then (some stDENIED, g.2.liningFail t va) else if shape then (some stDENIED, g.2) else (none, g.2)

/-- What refuses an access before it reaches a register: none where it is let in (R9, R32, R488, R489, R589). -/
def State.regGate (s : State) (src : RegSrc) (write : Bool) (off size : Nat) : Option Nat × State :=
  match src with
  | .bar0 f => s.hostGate f.val off (regShape off size)
  | .bar2 => s.hostGate 0 off (regShape off size)
  | .fabric t priv => viewGate (s.gate t write (s.viewAddr priv off)) t (s.viewAddr priv off) priv (regShape off size)
  | .tap => if regShape off size then (some stDENIED, s) else (none, s)
  | .task n =>
    if regShape off size then (some stDENIED, s)
    else if (s.running n.val).isSome ∧ 0x0A0000 + n.val * 0x200 ≤ off ∧ off < 0x0A0000 + (n.val + 1) * 0x200 then (none, s)
    else (some stDENIED, s)

/-- Answers a register access. -/
def State.regAnswer (s : State) (status value : Nat) : State := s.emit (.regAnswer status value)

/-! ### Reads -/

/-- The holding word and the shadow of a context. -/
def State.hold (s : State) (k : Nat) : Hold := Tbl.get {} s.holds k

/-- Sets them. -/
def State.setHold (s : State) (k : Nat) (h : Hold) : State := { s with holds := Tbl.set {} s.holds k h }

/-- A read that reaches a shown register: the word, and the state with its shadow (R17, R18, R633). -/
def State.regRead (s : State) (w : RegWho) (r : RegRow) (i word : Nat) (ue : Bool) : Nat × State :=
  let off := r.offset i
  let s := if ue ∧ !NatSet.has s.regUe off then
      ({ s with regUe := NatSet.add s.regUe off }).record
        { cls := 1, status := stECC, block := blockOf off, infoKind := 3, info := off }
    else s
  let v := s.regValue w.view r i
  if r.words ≠ 2 then (v / 2 ^ (32 * word) % 2 ^ 32, s)
  else
    let h := s.hold w.key
    if word = 0 then (v % 2 ^ 32, s.setHold w.key { h with shadow := some (off, v / 2 ^ 32 % 2 ^ 32) })
    else match h.shadow with
      | some (o, x) => if o = off then (x, s.setHold w.key { h with shadow := none }) else (v / 2 ^ 32 % 2 ^ 32, s)
      | none => (v / 2 ^ 32 % 2 ^ 32, s)

/-- A read access to a register view: the status, the value, and the state after it (R591 to R593). -/
def State.viewRead (s : State) (src : RegSrc) (off size : Nat) (ue : Bool) : Nat × Nat × State :=
  let g := s.regGate src false off size
  let s := g.2
  match g.1 with
  | some st => (st, if (s.regWho src).fn.isSome then 2 ^ (8 * size) - 1 else 0, s)
  | none =>
    let w := s.regWho src
    match findReg off with
    | none => (stOK, 0, s)
    | some (r, i, word) =>
      if !s.regShown w r i then (stOK, 0, s)
      else
        let v := s.regRead w r i word ue
        (stOK, v.1, v.2)

/-- A read access with its answer. -/
def State.busRead (s : State) (src : RegSrc) (off size : Nat) (ue : Bool) : State :=
  let r := s.viewRead src off size ue
  r.2.2.regAnswer r.1 r.2.1

end Sys2Proof.Machine
end

