-- ==== Sys2Proof/Machine/Translation.lean ====
section
/-!
DEFINITION. The commands of translation that are not register writes: misses (R202), walks (R203), the fault-hold limit (R213), the end of an
Invalidate (R217, R219), and the miss time-out (R225).
-/
namespace Sys2Proof.Machine

/-- The task that runs on the Scull of a miss. -/
def State.missTask (s : State) (w : Work) : Nat :=
  match w with
  | .task n => (match s.running n.val with
    | some (k, _) => k % 65536
    | none => 0)
  | _ => 0

/-- TLB_MISS (R201 to R203): an access that hits no entry with its right stalls its engine and asks the Cox. -/
def execTlbMiss (xlu : Fin 17) (ctx va : Nat) (kind : Access) (w : Work) (s : State) : Effect :=
  let s := s.start
  let phys := match w with
    | .slide e => physEngine e.val
    | _ => false
  .next (if phys then s.emit (.filled w va va)
    else match s.tlbHit xlu.val ctx va kind with
      | some pa => s.emit (.filled w va pa)
      | none => s.noteMiss xlu.val ctx va kind w (s.missTask w))

/-- WALK_COMPLETE (R199 to R204, R207, R211, R223): a walk ends for every request of the context on the page; the halted
Cox walks for none (R618). `ecc` is what the walk meets in the Cox's own records of the partition: an uncorrectable error there is partition-fatal (R164, R577). -/
def execWalkComplete (ctx va : Nat) (readErr : Option (Nat × Option Nat)) (ecc : Ecc) (s : State) : Effect :=
  let s := s.start
  let ms := s.xlu.misses.filter fun (m : Miss) => m.ctx = ctx && m.va / 4096 = va / 4096 && !m.held
  let p := s.ctxPart ctx
  .next (if s.err.coxHalted then s
    else match ecc with
      | .uncorrectable _ =>
        let s := s.ueFree 0x45 5
        if s.get Fld.ERR_PART_STATE_STATE p = 0 then s.partFatal p stECC else s
      | .corrected => (s.bump Fld.MEM_CE_CNT_CNT 0 1).walkAll readErr ms
      | _ => s.walkAll readErr ms)

/-- FAULT_HOLD_TIMEOUT (R213): a held fault has passed its limit; its context is quarantined. -/
def execFaultHoldTimeout (ctx : Nat) (s : State) : Effect :=
  let s := s.start
  .next (if !s.err.coxHalted && s.xlu.misses.any fun (m : Miss) => m.held && m.ctx = ctx then s.quarantine ctx else s)

/-- INVALIDATE_COMPLETE (R217, R219): the partition's oldest pending command completes once no request it waits for is in flight. -/
def execInvalidateComplete (part : Fin 8) (s : State) : Effect :=
  let s := s.start
  .next (match Tbl.get [] s.xlu.inv part.val with
    | [] => s
    | c :: t =>
      if s.err.coxHalted ∨ !c.sent ∨ s.invWaits part.val c.seq then s else
      let s := { s with xlu := { s.xlu with inv := Tbl.set [] s.xlu.inv part.val t } }
      (s.put Fld.XLU_INV_STATUS_DONE_SEQ part.val c.seq).put Fld.XLU_INV_STATUS_PENDING part.val t.length)

/-- MISS_TIMEOUT (R225): a miss unfilled for 1 ms completes TIMEOUT; one device record, and its task ends. -/
def execMissTimeout (xlu : Fin 17) (ctx va : Nat) (s : State) : Effect :=
  let s := s.start
  .next (match s.xlu.misses.find? fun (m : Miss) => m.xlu = xlu.val && m.ctx = ctx && m.va = va && !m.held && !m.faulted with
    | none => s
    | some m =>
      if s.err.coxHalted then s else
      let s := (s.dropMisses [m]).record { cls := 1, status := stTIMEOUT, unit := xluUnit m.xlu, block := 0x06, infoKind := 2,
                                            ctx := some ctx, info := va }
      s.endWork m stTIMEOUT)

end Sys2Proof.Machine
end

