-- ==== Sys2Proof/Machine/RegEffects.lean ====
section
/-!
DEFINITION. What a write to each register with an effect of its own does, and the write of every other register (R10, R15, R16, R186, R210 to R217,
R259, R274, R302, R303, R310, R321, R390 to R392, R398, R427, R475 to R478, R493, R533, R537, R557, R566, R568, R579, R668).
-/
namespace Sys2Proof.Machine

/-- A refused register write (R215, R303, R321, R478, R533): one corrected DENIED record that names the offset (log entry 43). -/
def State.refuseReg (s : State) (part off : Nat) (lane : Option Nat) : State :=
  s.record { cls := 0, status := stDENIED, part := part, block := blockOf off, infoKind := 3, info := off, lane := lane }

/-- Writes one field from the register value `v` (Table 0.3, R668). -/
def State.writeField (i v : Nat) (s : State) (f : RegField) : State :=
  let x := bits v (f.lo + f.width - 1) f.lo
  match f.acc with
  | .rw => if f.inRange x then s.put f i x else s
  | .rwl => if f.inRange x ∧ s.get f i = f.reset then s.put f i x else s
  | .w1c => s.put f i (s.get f i - Nat.land (s.get f i) x)
  | .w1s => s.put f i (Nat.lor (s.get f i) x)
  | .ro | .wo => s

/-- Writes the fields of a register with no effect of its own (R10, R668). -/
def State.plainWrite (s : State) (r : RegRow) (i v : Nat) : State := r.fields.foldl (State.writeField i v) s

/-! ### Translation -/

/-- A write of XLU_FQ_HEAD_q (R212, R215). -/
def State.fqHead (s : State) (q v : Nat) : State :=
  let head := s.get Fld.XLU_FQ_HEAD_HEAD q
  let room := (s.get Fld.XLU_FQ_TAIL_TAIL q + 65536 - head) % 65536
  if room < (v % 65536 + 65536 - head) % 65536 then s.refuseReg q (0x060108 + q * 0x80) none
  else
    let s := (s.put Fld.XLU_FQ_HEAD_HEAD q v).showPending q
    if s.err.coxHalted then s else s.rewalkHeld q

/-- A segment structure is checked anew after its context's FORMAT, COUNT or S1_BASE has changed (R190). -/
def State.recheckSeg (s : State) (c : Nat) : State := { s with xlu := { s.xlu with segOk := NatSet.del s.xlu.segOk c } }

/-- A write of XLU_CTX_CFG_c: FORMAT and COUNT change only while the context is IDLE (R186); a partition with stage 2 enabled may
not select the segment format (R189), whose COUNT is at most 8 (R188, R668). -/
def State.ctxCfg (s : State) (c v : Nat) : State :=
  let fmt := bits v 1 0
  let cnt := bits v 24 16
  let cnt := if Fld.XLU_CTX_CFG_COUNT.inRange cnt ∧ (fmt ≠ 1 ∨ cnt ≤ 8) then cnt else s.get Fld.XLU_CTX_CFG_COUNT c
  if fmt = s.get Fld.XLU_CTX_CFG_FORMAT c ∧ cnt = s.get Fld.XLU_CTX_CFG_COUNT c then s
  else if s.get Fld.XLU_CTX_STATE_STATE c = 1 then
    let s := (s.recheckSeg c).put Fld.XLU_CTX_CFG_COUNT c cnt
    if fmt = 1 ∧ s.s2On (s.ctxPart c) then
      s.record { cls := 0, status := stDENIED, part := s.ctxPart c, block := 0x06, infoKind := 3, info := 0x061000 + c * 0x10, ctx := some c }
    else s.put Fld.XLU_CTX_CFG_FORMAT c fmt
  else s.record { cls := 0, status := stBUSY, part := s.ctxPart c, block := 0x06, infoKind := 3, info := 0x061000 + c * 0x10, ctx := some c }

/-- A write of XLU_CTX_S1_BASE_c: in any granted state (R186). -/
def State.ctxBase (s : State) (c v : Nat) : State :=
  if s.get Fld.XLU_CTX_STATE_STATE c = 0 then s else (s.recheckSeg c).put Fld.XLU_CTX_S1_BASE_BASE c v

/-- RELEASE returns a QUARANTINED context to IDLE (R214). -/
def State.ctxRelease (s : State) (c : Nat) : State :=
  if s.get Fld.XLU_CTX_STATE_STATE c = 3 then s.put Fld.XLU_CTX_STATE_STATE c 1 else s

/-! ### Slide engines (R259, R273, R274) -/

/-- Whether a context may carry a transfer of the writing partition (Table 6.12). -/
def State.ctxUsable (s : State) (part c : Nat) : Bool := (s.ctxsOf part).contains c && s.get Fld.XLU_CTX_STATE_STATE c ≠ 3

/-- A write of SLD_CTRL_e with the answer it gets: `byTask` is the task of the engine's own Scull that writes it. CTX is kept where it is one of the writing
partition's, with or without ABORT (Table 6.12). -/
def State.sldCtrl (s : State) (e part v : Nat) (byTask : Option (Nat × Task)) : Nat × State :=
  let x := s.slide e
  let active : Bool := x.st = 1 || x.st = 2 || x.st = 3
  let c := match byTask with
    | some kt => kt.2.ctx
    | none => bits v 15 8
  let kept := if (s.ctxsOf part).contains c then s.put Fld.SLD_CTRL_CTX e c else s
  if bits v 1 0 = 0 then (stOK, kept)
  else if byTask.isNone ∧ !s.slideAllowed e part then (stDENIED, s)
  else if bit v 1 then (stOK, if active then kept.slideError e stABORTED else kept)
  else if active then (stBUSY, s)
  else if !s.ctxUsable part c then (stDENIED, s)
  else (stOK, kept.slideStart e c part (byTask.map (·.1)))

/-! ### Lanes (R302, R303, R321, R322, R398, R475) -/

/-- A write of CATCH_BAND_l (R302, R303). -/
def State.catchBand (s : State) (l v : Nat) : State :=
  let lo := bits v 15 0
  let hi := bits v 31 16
  if s.laneKind l ≠ 1 ∨ hi < lo ∨ lo < s.laneField l 0x84 2 ∨ s.laneField l 0x86 2 < hi then
    s.refuseReg (s.lanePart l) (0x0C1004 + l * 0x40) (some l)
  else ((s.put Fld.CATCH_BAND_T_MIN l lo).put Fld.CATCH_BAND_T_MAX l hi).markAll l

/-- A write of CATCH_REUSE_CFG_l (R302, R303, R321). -/
def State.catchReuse (s : State) (l v : Nat) : State :=
  let off := 0x0C1000 + l * 0x40
  if s.laneKind l ≠ 1 then s.refuseReg (s.lanePart l) off (some l)
  else
    let s := (s.put Fld.CATCH_REUSE_CFG_MODE l v).markAll l
    if bits v 15 8 = 0 then s.refuseReg (s.lanePart l) off (some l) else s.put Fld.CATCH_REUSE_CFG_AGE_MAX l (bits v 15 8)

/-- A write of LANE_REPORT_MASK_l (R321, R475). -/
def State.laneMask (s : State) (l v : Nat) : State :=
  let m := bits v 5 0
  if Nat.land m (s.laneField l 0x10 1) = m then s.put Fld.LANE_REPORT_MASK_MASK l m
  else s.refuseReg (s.lanePart l) (0x100008 + l * 0x400) (some l)

/-- Keeps the levels and HOLD_MS with which the entries now in the ring entered, before a write of them (R322); `changed` where it changes a level (R398). -/
def State.keepLevels (s : State) (l : Nat) (changed : Bool) : State :=
  let x := s.lrnLane l
  let upTo := (s.lane l).lastDev
  let now : OldLevels :=
    { upTo := upTo, nov := s.get Fld.LANE_LEVEL_NOV_LEVEL l, alm := s.get Fld.LANE_LEVEL_ALM_LEVEL l, clr := s.get Fld.LANE_LEVEL_CLR_LEVEL l,
      hold := s.get Fld.LANE_TIMING_HOLD_MS l, reset := changed }
  match x.older with
  | o :: os => if o.upTo = upTo then s.setLrn l { x with older := { o with reset := o.reset || changed } :: os }
    else s.setLrn l { x with older := now :: o :: os }
  | [] => s.setLrn l { x with older := [now] }

/-- A write of one of a lane's levels (R321, R322, R398): 0 NOVELTY, 1 ALARM, 2 CLEAR. -/
def State.laneLevel (s : State) (l which v : Nat) : State :=
  let old := [s.get Fld.LANE_LEVEL_NOV_LEVEL l, s.get Fld.LANE_LEVEL_ALM_LEVEL l, s.get Fld.LANE_LEVEL_CLR_LEVEL l]
  let new := old.set which v
  let g := fun (k : Nat) => new.getD k 0
  if !(fp32Lt (g 2) (g 0) && fp32Le (g 0) (g 1)) then s.refuseReg (s.lanePart l) (0x10000C + which * 4 + l * 0x400) (some l)
  else if new = old then s
  else
    (((s.keepLevels l true).put Fld.LANE_LEVEL_NOV_LEVEL l (g 0)).put Fld.LANE_LEVEL_ALM_LEVEL l (g 1)).put Fld.LANE_LEVEL_CLR_LEVEL l (g 2)

/-- A write of LANE_TIMING_l (R321, R322): TEACH_S is 0 or from 60. -/
def State.laneTiming (s : State) (l v : Nat) : State :=
  let t := bits v 31 16
  let s := (s.keepLevels l false).put Fld.LANE_TIMING_HOLD_MS l (bits v 15 0)
  if t = 0 ∨ 60 ≤ t then s.put Fld.LANE_TIMING_TEACH_S l t else s.refuseReg (s.lanePart l) (0x100018 + l * 0x400) (some l)

/-- A write of LRN_MOD_CMD_l (R390, R391): 1 TEACH, 2 MARK, 3 CANCEL. -/
def State.modCommand (s : State) (l cmd : Nat) : State :=
  if s.laneKind l = 0 then s
  else match cmd with
    | 1 => s.teach l 1
    | 2 => s.mark l 1
    | 3 => s.cancelMod l 1
    | _ => s

/-- A write of LRN_POP_CTRL (R392). -/
def State.popFreeze (s : State) (v : Nat) : State :=
  let s := s.put Fld.LRN_POP_CTRL_FREEZE 0 (bits v 0 0)
  let h := s.get Fld.LRN_POP_SEL_ENGINE 0
  let n := s.get Fld.LRN_POP_SEL_POP 0
  match s.pop h n with
  | some p => s.setPop h n (some { p with freeze := bit v 0 })
  | none => s

/-! ### Power requests (R310, R311, R567) -/

/-- Shows a PWR_REQ's result. -/
def State.reqDone (s : State) (d status : Nat) : State :=
  ((s.put Fld.PWR_REQ_STATUS_PENDING 0 0).put Fld.PWR_REQ_STATUS_STATUS 0 status).put Fld.PWR_REQ_STATUS_DOMAIN 0 d

/-- Shows a PWR_REQ that goes on. -/
def State.reqPending (s : State) (d : Nat) : State :=
  ((s.put Fld.PWR_REQ_STATUS_PENDING 0 1).put Fld.PWR_REQ_STATUS_STATUS 0 stOK).put Fld.PWR_REQ_STATUS_DOMAIN 0 d

/-- Whether a domain belongs to an I/O die that did not train: IO-A's, and the host endpoint with it, are absent then (R42, R43). -/
def State.dieAbsent (s : State) (d : Nat) : Bool :=
  (decide (64 ≤ d) && decide (d ≤ 69) && !bit (s.get Fld.GLB_PRESENT_IOD_UP 0) ((d - 61) / 3)) ||
  (s.boot.ioaLost && (d = 61 || d = 62 || d = 63 || d = 70))

/-- Whether no request may switch a domain: there is none of that number, its site is not fitted or not up, or its unit is retired. -/
def State.domBarred (s : State) (d : Nat) : Bool := decide (71 < d) || !s.domFitted d || s.dieAbsent d || s.isRetired (domainUnit d)

/-- Whether another partition's resources use a domain. -/
def State.domForeign (s : State) (d : Nat) : Bool := (s.domUsers d).any fun p => p ≠ 0

/-- PWR_REQ ON (R310). -/
def State.reqOn (s : State) (d : Nat) : State :=
  if s.domBarred d ∨ s.domForeign d then s.reqDone d stDENIED
  else if s.quiescing (domainUnit d) then s.reqDone d stBUSY
  else
    let s := s.pin d true
    if s.domOn d then s.reqDone d stOK
    else ({ s with pwr := { s.pwr with explicit := some d } }).reqPending d |>.wake d

/-- PWR_REQ OFF or FORCE_OFF (R310, R567): a Pocket forced off is neither busy nor anyone's. -/
def State.reqOff (s : State) (d : Nat) (force : Bool) : State :=
  let forced : Bool := force && decide (16 ≤ d) && decide (d < 48)
  if s.domBarred d ∨ (!forced ∧ s.domForeign d) then s.reqDone d stDENIED
  else if !forced ∧ s.domBusy d then s.reqDone d stBUSY
  else if !s.domOn d ∧ !s.waking d then (s.pin d true).reqDone d stOK
  else if plainDomain d then ((s.domainOff d).pin d true).reqDone d stOK
  else match (s.reqPending d).askQuiesce (domainUnit d) (if forced then .forceOff else .off) with
    | some s => s
    | none => s.reqDone d stBUSY

/-- PWR_REQ AUTO (R310, R311). -/
def State.reqAuto (s : State) (d : Nat) : State :=
  if s.domBarred d then s.reqDone d stDENIED
  else
    let s := s.pin d false
    let s := if s.domOn d ∨ s.waking d ∨ s.domIdle d then s else s.wake d
    s.reqDone d stOK

/-- A write of PWR_REQ: 0 AUTO, 1 ON, 2 OFF, 3 FORCE_OFF; one while a request is pending is ignored, and shows BUSY (R318). -/
def State.pwrReq (s : State) (v : Nat) : State :=
  let d := bits v 7 0
  if s.flag Fld.PWR_REQ_STATUS_PENDING 0 then (s.put Fld.PWR_REQ_STATUS_STATUS 0 stBUSY).put Fld.PWR_REQ_STATUS_DOMAIN 0 d
  else match bits v 10 8 with
  | 0 => s.reqAuto d
  | 1 => s.reqOn d
  | 2 => s.reqOff d false
  | 3 => s.reqOff d true
  | _ => s

/-! ### Reports and mailboxes (R477, R478, R493, R497) -/

/-- A write of RPT_RING_CONS_p (R478). -/
def State.rptCons (s : State) (p v : Nat) : State :=
  let cons := s.get Fld.RPT_RING_CONS_CONS p
  if (s.get Fld.RPT_RING_PROD_PROD p + 2 ^ 32 - cons) % 2 ^ 32 < (v + 2 ^ 32 - cons) % 2 ^ 32 then s.refuseReg p (0x16000C + p * 0x40) none
  else (s.put Fld.RPT_RING_CONS_CONS p v).drainAll p

/-- A write of RPT_RING_BASE_p (R477). -/
def State.rptBase (s : State) (p v : Nat) : State := (s.put Fld.RPT_RING_BASE_BASE p (v / 64)).drainAll p

/-- A write of HOST_MB_CFG_f (R493, R519). -/
def State.mbCfg (s : State) (r : RegRow) (f v : Nat) : State :=
  let was := s.flag Fld.HOST_MB_CFG_ENABLE f
  let s := s.plainWrite r f v
  let s := if !was ∧ s.flag Fld.HOST_MB_CFG_ENABLE f then s.put Fld.HOST_MB_CFG_FAULT f 0 else s
  s.mbAll

/-! ### The panel and the ERR block -/

/-- A write of PNL_SEL (R533). -/
def State.panelSelect (s : State) (v : Nat) : State :=
  let l := v % 64
  if s.listed.contains l then s.select l else s.refuseReg 0xFF 0x1A010C none

/-- A write of PNL_BUZZ_CTRL (R537). -/
def State.buzzCtrl (s : State) (v : Nat) : State :=
  let s := if bit v 0 then s.silence else s
  if bit v 1 then { s with pnl := { s.pnl with testUntil := s.now + 1000000000 } } else s

/-- A write of ERR_CONS_r (R557): one that would move CONS backwards or past PROD is ignored. -/
def State.errCons (s : State) (r v : Nat) : State :=
  let cons := s.get Fld.ERR_CONS_CONS r
  if (s.get Fld.ERR_PROD_PROD r + 65536 - cons) % 65536 < (v % 65536 + 65536 - cons) % 65536 then s else s.put Fld.ERR_CONS_CONS r v

/-- Shows the result of an ERR_UNIT_CMD that is not taken. -/
def State.unitDone (s : State) (u status : Nat) : State :=
  (s.put Fld.ERR_UNIT_STATUS_STATUS 0 status).put Fld.ERR_UNIT_STATUS_UNIT 0 u

/-- A write of ERR_UNIT_CMD (R564, R566, R568): 1 RESET, 2 UPDATE. -/
def State.unitCmd (s : State) (v : Nat) : State :=
  let u := bits v 7 0
  let take := fun (a : QAct) =>
    match (((s.put Fld.ERR_UNIT_STATUS_PENDING 0 1).unitDone u stOK).askQuiesce u a : Option State) with
    | some s => s.mbAll
    | none => s.unitDone u stBUSY
  match bits v 10 8 with
  | 1 => if u = 0x45 ∨ !s.unitFitted u ∨ s.isRetired u then s.unitDone u stDENIED else take .reset
  | 2 => if u = 0x45 then take .update else s.unitDone u stDENIED
  | _ => s

/-! ### The write of a register -/

/-- The task of a Scull that writes a register of one of its own engines (R254, R274). -/
def State.writerTask (s : State) (src : RegSrc) : Option (Nat × Task) :=
  match src with
  | .task n => s.running n.val
  | _ => none

/-- Commits the value `v` to a register: its effect, and the answer the write gets. -/
def State.commitReg (s : State) (src : RegSrc) (w : RegWho) (r : RegRow) (i v : Nat) : Nat × State :=
  let ok := fun (s : State) => (stOK, s)
  let b := r.base
  if b = 0x060108 then ok (s.fqHead i v)
  else if b = 0x060118 then ok (s.resume i (bits v 15 0) (bit v 16))
  else if b = 0x060130 then ok (s.invalidate i (bits v 1 0) (bits v 15 8) w.view.isNone)
  else if b = 0x061000 then ok (s.ctxCfg i v)
  else if b = 0x061004 then ok (s.ctxBase i v)
  else if b = 0x06100C then ok (if bit v 31 then s.ctxRelease i else s)
  else if b = 0x0A0008 then s.sldCtrl i w.part v (s.writerTask src)
  else if b = 0x0C1000 then ok (s.catchReuse i v)
  else if b = 0x0C1004 then ok (s.catchBand i v)
  else if b = 0x020010 then ok (s.pwrReq v).mbAll
  else if b = 0x100008 then ok (s.laneMask i v)
  else if b = 0x10000C then ok (s.laneLevel i 0 v)
  else if b = 0x100010 then ok (s.laneLevel i 1 v)
  else if b = 0x100014 then ok (s.laneLevel i 2 v)
  else if b = 0x100018 then ok (s.laneTiming i v)
  else if b = 0x12010C then ok (s.popFreeze v)
  else if b = 0x12040C then ok (s.modCommand i (bits v 1 0))
  else if b = 0x140004 then ok (s.bhCommand v)
  else if b = 0x160000 then ok (s.rptBase i v)
  else if b = 0x16000C then ok (s.rptCons i v)
  else if b = 0x170010 then ok (s.mbCfg r i v)
  else if b = 0x170014 then ok (s.put Fld.HOST_MB_TAIL_TAIL i v).mbAll
  else if b = 0x17001C then ok (s.put Fld.HOST_MB_CQ_HEAD_CQ_HEAD i v).mbAll
  else if b = 0x1A010C then ok (s.panelSelect v)
  else if b = 0x1A0114 then ok (s.buzzCtrl v)
  else if b = 0x1B0004 then ok (s.errCons i v)
  else if b = 0x1B0014 then ok (if bit v 0 then (s.restartPart i).mbAll else s)
  else if b = 0x1B0240 then ok (s.unitCmd v)
  else ok (s.plainWrite r i v)

/-- A write that reaches a shown register (R15, R16, R18, R633). -/
def State.regWrite (s : State) (src : RegSrc) (w : RegWho) (r : RegRow) (i word v : Nat) : Nat × State :=
  let off := r.offset i
  let heal := fun (s : State) => { s with regUe := NatSet.del s.regUe off }
  if r.words ≠ 2 then (heal s).commitReg src w r i v
  else
    let h := s.hold w.key
    if word = 0 then (stOK, s.setHold w.key { h with word := some (off, v) })
    else match h.word with
      | some (o, lo) =>
        if o = off then ((heal s).setHold w.key { h with word := none }).commitReg src w r i (v * 2 ^ 32 + lo)
        else s.commitReg src w r i (v * 2 ^ 32 + r.fields.foldl (fun a (f : RegField) => a + s.get f i * 2 ^ f.lo) 0 % 2 ^ 32)
      | none => s.commitReg src w r i (v * 2 ^ 32 + r.fields.foldl (fun a (f : RegField) => a + s.get f i * 2 ^ f.lo) 0 % 2 ^ 32)

/-- A write access to a register view: its status, and the state after it (R591 to R593). A hidden write of START or ABORT is answered DENIED (R274). -/
def State.viewWrite (s : State) (src : RegSrc) (off size v : Nat) : Nat × State :=
  let g := s.regGate src true off size
  let s := g.2
  match g.1 with
  | some st => (st, s)
  | none =>
    let w := s.regWho src
    if inDbg off then (stOK, s)
    else
      let hide := match w.view with
        | some p => s.hiddenWrite p off
        | none => s
      match findReg off with
      | none => (stOK, hide)
      | some (r, i, word) =>
        if s.regShown w r i then s.regWrite src w r i word (v % 2 ^ 32)
        else (if r.base = 0x0A0008 ∧ bits v 1 0 ≠ 0 then stDENIED else stOK, hide)

/-- A write access with its answer. -/
def State.busWrite (s : State) (src : RegSrc) (off size v : Nat) : State :=
  let r := s.viewWrite src off size v
  r.2.regAnswer r.1 0

end Sys2Proof.Machine
end

