-- ==== Sys2Proof/Machine/Registers.lean ====
section
/-!
DEFINITION. Register accesses: reads, writes, the two words of 64-bit registers, and the writes that have a row of their own (R9 to R18, R589 to R593).
-/
namespace Sys2Proof.Machine

/-- REG64_LOW_WRITE (R15). -/
def execReg64LowWrite (src : RegSrc) (off : Nat) (v : Word) (s : State) : Effect := .next (s.start.busWrite src off 4 v.toNat)

/-- REG64_HIGH_WRITE (R15, R16). -/
def execReg64HighWrite (src : RegSrc) (off : Nat) (v : Word) (s : State) : Effect := .next (s.start.busWrite src off 4 v.toNat)

/-- REG64_LOW_READ (R17). -/
def execReg64LowRead (src : RegSrc) (off : Nat) (s : State) : Effect := .next (s.start.busRead src off 4 false)

/-- REG64_HIGH_READ (R17). -/
def execReg64HighRead (src : RegSrc) (off : Nat) (s : State) : Effect := .next (s.start.busRead src off 4 false)

/-- REGISTER_WRITE (R9, R10, R32, R489, R591, R668). -/
def execRegisterWrite (src : RegSrc) (off size : Nat) (v : Word) (s : State) : Effect := .next (s.start.busWrite src off size v.toNat)

/-- REGISTER_READ (R9, R32, R489, R591, R633). -/
def execRegisterRead (src : RegSrc) (off size : Nat) (ue : Bool) (s : State) : Effect := .next (s.start.busRead src off size ue)

/-! ### Translation -/

/-- XLU_FQ_HEAD_WRITE (R212, R215). -/
def execXluFqHeadWrite (src : RegSrc) (part : Fin 8) (v : Word) (s : State) : Effect :=
  .next (s.start.busWrite src (0x060108 + part.val * 0x80) 4 v.toNat)

/-- FQ_RESUME_RETRY (R210). -/
def execFqResumeRetry (src : RegSrc) (part : Fin 8) (id : Nat) (s : State) : Effect :=
  .next (s.start.busWrite src (0x060118 + part.val * 0x80) 4 (id % 65536))

/-- FQ_RESUME_ABORT (R210). -/
def execFqResumeAbort (src : RegSrc) (part : Fin 8) (id : Nat) (s : State) : Effect :=
  .next (s.start.busWrite src (0x060118 + part.val * 0x80) 4 (0x10000 + id % 65536))

/-- CTX_RELEASE (R214). -/
def execCtxRelease (src : RegSrc) (ctx : Nat) (s : State) : Effect := .next (s.start.busWrite src (0x06100C + ctx % 256 * 0x10) 4 0x80000000)

/-- XLU_CTX_CFG_WRITE (R186). -/
def execXluCtxCfgWrite (src : RegSrc) (ctx : Nat) (v : Word) (s : State) : Effect :=
  .next (s.start.busWrite src (0x061000 + ctx % 256 * 0x10) 4 v.toNat)

/-- INV_CONTEXT (R216, R217). -/
def execInvContext (src : RegSrc) (part : Fin 8) (ctx : Nat) (s : State) : Effect :=
  .next (s.start.busWrite src (0x060130 + part.val * 0x80) 4 (ctx % 256 * 256))

/-- INV_RANGE (R216, R217). -/
def execInvRange (src : RegSrc) (part : Fin 8) (ctx : Nat) (s : State) : Effect :=
  .next (s.start.busWrite src (0x060130 + part.val * 0x80) 4 (ctx % 256 * 256 + 1))

/-- INV_PARTITION (R216, R217). -/
def execInvPartition (src : RegSrc) (part : Fin 8) (s : State) : Effect := .next (s.start.busWrite src (0x060130 + part.val * 0x80) 4 2)

/-- INV_STAGE2 (R216, R217). -/
def execInvStage2 (src : RegSrc) (part : Fin 8) (s : State) : Effect := .next (s.start.busWrite src (0x060130 + part.val * 0x80) 4 3)

/-! ### Slide engines, Catch and power -/

/-- SLD_START (R259, R273, R274). -/
def execSldStart (src : RegSrc) (eng : Fin 72) (ctx : Nat) (s : State) : Effect :=
  .next (s.start.busWrite src (0x0A0008 + eng.val * 0x80) 4 (ctx % 256 * 256 + 1))

/-- SLD_ABORT (R273, R274). -/
def execSldAbort (src : RegSrc) (eng : Fin 72) (s : State) : Effect := .next (s.start.busWrite src (0x0A0008 + eng.val * 0x80) 4 2)

/-- CATCH_BAND_WRITE (R302, R303). -/
def execCatchBandWrite (src : RegSrc) (lane : Fin 64) (v : Word) (s : State) : Effect :=
  .next (s.start.busWrite src (0x0C1004 + lane.val * 0x40) 4 v.toNat)

/-- CATCH_REUSE_CFG_WRITE (R302, R303). -/
def execCatchReuseCfgWrite (src : RegSrc) (lane : Fin 64) (v : Word) (s : State) : Effect :=
  .next (s.start.busWrite src (0x0C1000 + lane.val * 0x40) 4 v.toNat)

/-- CATCH_AGGR_MAX_WRITE (R289). -/
def execCatchAggrMaxWrite (src : RegSrc) (scull : Fin 16) (v : Word) (s : State) : Effect :=
  .next (s.start.busWrite src (0x0C0100 + scull.val * 0x20) 4 v.toNat)

/-- PWR_REQ_AUTO (R310). -/
def execPwrReqAuto (src : RegSrc) (dom : BitVec 8) (s : State) : Effect := .next (s.start.busWrite src 0x020010 4 dom.toNat)

/-- PWR_REQ_ON (R310). -/
def execPwrReqOn (src : RegSrc) (dom : BitVec 8) (s : State) : Effect := .next (s.start.busWrite src 0x020010 4 (0x100 + dom.toNat))

/-- PWR_REQ_OFF (R310). -/
def execPwrReqOff (src : RegSrc) (dom : BitVec 8) (s : State) : Effect := .next (s.start.busWrite src 0x020010 4 (0x200 + dom.toNat))

/-- PWR_REQ_FORCE_OFF (R310, R567). -/
def execPwrReqForceOff (src : RegSrc) (dom : BitVec 8) (s : State) : Effect := .next (s.start.busWrite src 0x020010 4 (0x300 + dom.toNat))

/-! ### Lanes and learning -/

/-- LANE_REPORT_MASK_WRITE (R321, R475). -/
def execLaneReportMaskWrite (src : RegSrc) (lane : Fin 64) (v : Word) (s : State) : Effect :=
  .next (s.start.busWrite src (0x100008 + lane.val * 0x400) 4 v.toNat)

/-- LANE_LEVEL_WRITE (R321, R322, R398): 0 NOVELTY, 1 ALARM, 2 CLEAR. -/
def execLaneLevelWrite (src : RegSrc) (lane : Fin 64) (which : Fin 3) (v : Word) (s : State) : Effect :=
  .next (s.start.busWrite src (0x10000C + which.val * 4 + lane.val * 0x400) 4 v.toNat)

/-- LANE_TIMING_WRITE (R321, R322). -/
def execLaneTimingWrite (src : RegSrc) (lane : Fin 64) (v : Word) (s : State) : Effect :=
  .next (s.start.busWrite src (0x100018 + lane.val * 0x400) 4 v.toNat)

/-- LRN_MOD_TEACH (R390, R391). -/
def execLrnModTeach (src : RegSrc) (lane : Fin 64) (s : State) : Effect := .next (s.start.busWrite src (0x12040C + lane.val * 0x20) 4 1)

/-- LRN_MOD_MARK (R390, R391). -/
def execLrnModMark (src : RegSrc) (lane : Fin 64) (s : State) : Effect := .next (s.start.busWrite src (0x12040C + lane.val * 0x20) 4 2)

/-- LRN_MOD_CANCEL (R390, R391). -/
def execLrnModCancel (src : RegSrc) (lane : Fin 64) (s : State) : Effect := .next (s.start.busWrite src (0x12040C + lane.val * 0x20) 4 3)

/-- POP_FREEZE_WRITE (R392). -/
def execPopFreezeWrite (src : RegSrc) (v : Word) (s : State) : Effect := .next (s.start.busWrite src 0x12010C 4 v.toNat)

/-- BH_CKPT_CMD (R427, R441). -/
def execBhCkptCmd (src : RegSrc) (n : Fin 128) (s : State) : Effect := .next (s.start.busWrite src 0x140004 4 (0x100 + n.val))

/-! ### Mailboxes, reports, the panel -/

/-- The host writes bytes in the memory its function may reach before it rings the doorbell: its own memory, and what the lining check
grants it (R182, R490). -/
def State.hostBytes (s : State) (f : Nat) (bs : List HostByte) : State :=
  bs.foldl (fun s (b : HostByte) => if s.linedUp f true b.addr then s.writeBytes b.addr [b.val] else s) s

/-- HOST_MB_TAIL_WRITE (R493, R497). -/
def execHostMbTailWrite (src : RegSrc) (fn : Fin 8) (v : Word) (host : List HostByte) (s : State) : Effect :=
  .next ((s.start.hostBytes fn.val host).busWrite src (0x170014 + fn.val * 0x40) 4 v.toNat)

/-- HOST_MB_CFG_WRITE (R493, R519). -/
def execHostMbCfgWrite (src : RegSrc) (fn : Fin 8) (v : Word) (s : State) : Effect :=
  .next (s.start.busWrite src (0x170010 + fn.val * 0x40) 4 v.toNat)

/-- HOST_MB_CQ_HEAD_WRITE (R497). -/
def execHostMbCqHeadWrite (src : RegSrc) (fn : Fin 8) (v : Word) (s : State) : Effect :=
  .next (s.start.busWrite src (0x17001C + fn.val * 0x40) 4 v.toNat)

/-- RPT_RING_CONS_WRITE (R478, R479). -/
def execRptRingConsWrite (src : RegSrc) (part : Fin 8) (v : Word) (s : State) : Effect :=
  .next (s.start.busWrite src (0x16000C + part.val * 0x40) 4 v.toNat)

/-- RPT_RING_BASE_WRITE (R477): both words of the register. -/
def execRptRingBaseWrite (src : RegSrc) (part : Fin 8) (v : BitVec 64) (s : State) : Effect :=
  let off := 0x160000 + part.val * 0x40
  .next ((s.start.busWrite src off 4 (v.toNat % 2 ^ 32)).busWrite src (off + 4) 4 (v.toNat / 2 ^ 32))

/-- PNL_SEL_WRITE (R533). -/
def execPnlSelWrite (src : RegSrc) (v : Word) (s : State) : Effect := .next (s.start.busWrite src 0x1A010C 4 v.toNat)

/-- BUZZER_SILENCE (R537). -/
def execBuzzerSilence (src : RegSrc) (s : State) : Effect := .next (s.start.busWrite src 0x1A0114 4 1)

/-- BUZZER_TEST (R537). -/
def execBuzzerTest (src : RegSrc) (s : State) : Effect := .next (s.start.busWrite src 0x1A0114 4 2)

/-! ### Faults and recovery -/

/-- ERR_CONS_WRITE (R557). -/
def execErrConsWrite (src : RegSrc) (ring : Fin 9) (v : Word) (s : State) : Effect :=
  .next (s.start.busWrite src (0x1B0004 + ring.val * 0x40) 4 v.toNat)

/-- ERR_UNIT_RESET (R564, R566). -/
def execErrUnitReset (src : RegSrc) (unit : BitVec 8) (s : State) : Effect := .next (s.start.busWrite src 0x1B0240 4 (0x100 + unit.toNat))

/-- ERR_UNIT_UPDATE (R568, R569). -/
def execErrUnitUpdate (src : RegSrc) (unit : BitVec 8) (s : State) : Effect := .next (s.start.busWrite src 0x1B0240 4 (0x200 + unit.toNat))

/-- PARTITION_RESTART (R579). -/
def execPartitionRestart (src : RegSrc) (part : Fin 8) (s : State) : Effect := .next (s.start.busWrite src (0x1B0014 + part.val * 0x40) 4 1)

end Sys2Proof.Machine
end

