-- ==== Sys2Proof/Machine/Debug.lean ====
section
/-!
DEFINITION. The debug port and the lifecycle (chapter 15): the monitor's frames (R605, R606), unlock and sessions (R608 to R613), halting,
breakpoints and watchpoints (R614 to R623), debug memory access (R622), RETIRE and LOCK (R596, R597, R624).
-/
namespace Sys2Proof.Machine

/-! ### The monitor -/

/-- The lifecycle state (R594, R595). -/
def State.lifecycle (s : State) : Nat :=
  if bit s.boot.lcFuses 1 then 3 else if bit s.boot.lcFuses 0 then (if s.dbg.sessionAt.isSome then 2 else 1) else 0

/-- The level at which the TAP serves commands: 2 in FACTORY, else that of the open session (Table 15.1). -/
def State.dbgLevel (s : State) : Nat := if s.lifecycle = 0 then 2 else if s.dbg.sessionAt.isSome then s.get Fld.DBG_SESSION_LEVEL 0 else 0

/-- Whether the monitor, a part of the Cox, runs: not while a reset or the fatal controller holds the unit. -/
def State.monitorOn (s : State) : Bool := decide (s.boot.phase ≠ .reset) && decide (s.boot.phase ≠ .fatalHeld)

/-- A command frame reaches the monitor: served at once, or held behind a memory access whose answer is out; the monitor holds two, and drops
the next (R605). -/
def State.frame (s : State) (i : Instr) (f : State → State) : State :=
  if !s.monitorOn then s
  else if s.dbg.waiting.isNone then f s
  else if s.dbg.held.isNone then { s with dbg := { s.dbg with held := some i } }
  else { s with dbg := { s.dbg with overrun := true } }

/-- A command of Table 15.8: refused with non-zero reserved bytes or below its level (R606); a RETIRED unit answers STATUS only (R598). -/
def State.command (s : State) (op tag level : Nat) (zero : Bool) (f : State → Nat × List Byte × State) : State :=
  if s.lifecycle = 3 ∧ op ≠ 0 then s
  else if !zero ∨ s.dbgLevel < level then s.respond op stDENIED tag []
  else
    let r := f s
    r.2.2.respond op r.1 tag r.2.1

/-- STATUS (Table 15.8). -/
def State.cmdStatus (s : State) (tag : Nat) (zero : Bool) : State :=
  s.command 0x00 tag 0 zero fun s =>
    (stOK, leBytes 1 s.lifecycle ++ leBytes 1 s.dbgLevel ++ leBytes 1 (s.get Fld.SEC_DBG_STATUS_FAILS 0) ++ [0] ++ leBytes 4 s.lockoutLeft ++
      leBytes 4 s.sessionLeft ++ leBytes 2 (s.get Fld.DBG_HALTED_SCULLS 0) ++ leBytes 1 (b2n s.err.coxHalted), s)

/-! ### Unlock and sessions (R608 to R613) -/

/-- Whether the debug credentials are provisioned in a valid factory record (R603, R613, R625). -/
def State.credOk (s : State) : Bool := s.otpOk && !allZero (s.otpBytes 0x198 32) && !allZero (s.otpBytes 0x1B8 32)

/-- Whether a lockout runs (R610). -/
def State.lockedOut (s : State) : Bool :=
  match s.dbg.lockoutUntil with
  | some t => decide (s.now < t)
  | none => false

/-- What an unlock that fails or meets a lockout returns (Table 15.8). -/
def State.failResult (s : State) : List Byte := leBytes 1 (s.get Fld.SEC_DBG_STATUS_FAILS 0) ++ leBytes 3 0 ++ leBytes 4 s.lockoutLeft

/-- A failed unlock (R610): the counts rise, with one record; the fifth starts a lockout of 10 min and each later one a lockout of twice the
previous length, up to 10,240 min. -/
def State.unlockFail (s : State) : Nat × List Byte × State :=
  let s := (s.bump Fld.SEC_DBG_STATUS_FAILS 0 1).bump Fld.SEC_DBG_FAIL_CNT_CNT 0 1
  let s := s.record (recC 0x1D stDENIED)
  let s := if s.get Fld.SEC_DBG_STATUS_FAILS 0 < 5 then s
    else
      let n := s.dbg.lockoutLen
      ({ s with dbg := { s.dbg with lockoutUntil := some (s.now + n * 1000000000), lockoutLen := min 614400 (2 * n) } }).record (recC 0x1D stBUSY)
  (stDENIED, s.failResult, s)

/-- The record of a session's opening or of its higher level, which names the level (R612). -/
def State.levelRecord (s : State) (level : Nat) : State := s.record { cls := 0, status := stOK, block := 0x1D, info := level }

/-- A successful unlock (R608 to R610, R612): the count is 0; from FIELD_LOCKED a session opens, and a session of a lower level is raised. -/
def State.unlocked (s : State) (level : Nat) : State :=
  let s := ({ s with dbg := { s.dbg with lockoutUntil := none, lockoutLen := 600 } }).put Fld.SEC_DBG_STATUS_FAILS 0 0
  let show_ := fun (s : State) => (s.put Fld.DBG_SESSION_LEVEL 0 level).put Fld.SEC_LIFECYCLE_LEVEL 0 level
  if s.lifecycle = 1 then
    let s := { s with dbg := { s.dbg with sessionAt := some s.now } }
    let s := ((show_ s).put Fld.SEC_LIFECYCLE_STATE 0 2).bump Fld.SEC_SESSION_CNT_CNT 0 1
    (s.wake 71).levelRecord level
  else if s.lifecycle = 2 ∧ s.dbgLevel < level then (show_ s).levelRecord level
  else s

/-- What refuses an unlock: no credentials, uncounted (R613, R625), or a lockout (R610). -/
def State.unlockGate (s : State) (f : State → Nat × List Byte × State) : Nat × List Byte × State :=
  if !s.credOk then (stDENIED, [], s) else if s.lockedOut then (stBUSY, s.failResult, s) else f s

/-- UNLOCK_PW (R608): SHA-256 over PW_SALT and the password against PW_HASH. -/
def State.cmdUnlockPw (s : State) (tag : Nat) (arg : List Byte) (zero : Bool) : State :=
  s.command 0x01 tag 0 zero fun s => s.unlockGate fun s =>
    if sha256 (s.otpBytes 0x188 16 ++ (arg ++ List.replicate 16 0).take 16) = s.otpBytes 0x198 32 then (stOK, [], s.unlocked 1)
    else s.unlockFail

/-- CHALLENGE (R609): a fresh nonce and the serial; the only level is 2. -/
def State.cmdChallenge (s : State) (tag : Nat) (arg : List Byte) (zero : Bool) : State :=
  s.command 0x02 tag 0 zero fun s => s.unlockGate fun s =>
    if leAt arg 0 1 ≠ 2 then (stDENIED, [], s)
    else
      let n := Config.random s.free % 2 ^ 128
      (stOK, leBytes 16 n ++ leBytes 8 s.serial, { s with free := s.free + 1, dbg := { s.dbg with nonce := some (n, s.now) } })

/-- The live nonce: one that has not been used, nor lapsed 60 s after its issue (R609). -/
def State.liveNonce (s : State) : Option Nat :=
  match s.dbg.nonce with
  | some (n, t) => if s.now < t + 60000000000 then some n else none
  | none => none

/-- The response that R609 asks for. -/
def State.expected (s : State) (n : Nat) : List Byte := (hmacSha256 (s.otpBytes 0x1B8 32) (leBytes 16 n ++ leBytes 8 s.serial ++ [2])).take 16

/-- UNLOCK_RSP (R609): the nonce serves once; none live counts as a failure. -/
def State.cmdUnlockRsp (s : State) (tag : Nat) (arg : List Byte) (zero : Bool) : State :=
  s.command 0x03 tag 0 zero fun s => s.unlockGate fun s =>
    let n := s.liveNonce
    let s := { s with dbg := { s.dbg with nonce := none } }
    match n with
    | some n => if (arg ++ List.replicate 16 0).take 16 = s.expected n then (stOK, [], s.unlocked 2) else s.unlockFail
    | none => s.unlockFail

/-- What the Cox takes up again once it runs on (R618): held quiesces, admissions, checkpoints, held misses, invalidates, mailbox commands. -/
def State.coxBack (s : State) : State :=
  let s := (State.nextQuiesce 10 s).afterWake
  let s := State.nextSnap 9 1 (State.nextSnap 9 0 s)
  let s := (List.range 8).foldl State.sendInv ((List.range 8).foldl State.rewalkHeld s)
  s.mbAll

/-- Ends the session (R612), and lets a halted Cox take up its work again. -/
def State.endSession (s : State) : State := if s.err.coxHalted then s.closeSession.coxBack else s.closeSession

/-- END (R612). -/
def State.cmdEnd (s : State) (tag : Nat) (zero : Bool) : State := s.command 0x04 tag 1 zero fun s => (stOK, [], s.endSession)

/-! ### Telemetry and registers (Table 15.9, R607) -/

/-- The word of the privileged view at an offset. -/
def State.wordAt (s : State) (off : Nat) : Nat :=
  match findReg off with
  | some (r, i, w) => s.regValue none r i / 2 ^ (32 * w) % 2 ^ 32
  | none => 0

/-- A bit for each lane that satisfies `p`. -/
def laneBits (p : Nat → Bool) : Nat := (List.range 64).foldl (fun a l => if p l then a + 2 ^ l else a) 0

/-- The six words of a telemetry page (Table 15.9); page 0 is what the module measures. -/
def State.telemetry (s : State) (page : Nat) (meas : List Nat) : List Nat :=
  let regs := fun (l : List Nat) => l.map s.wordAt
  match page with
  | 0 => (List.range 6).map fun i => meas.getD i 0
  | 1 => (List.range 2).map s.railNow ++ regs [Fld.FAB_SPEED_W_RATE.base, Fld.FAB_SPEED_E_RATE.base, Fld.CATCH_DEV_ENERGY_NJ.base,
      Fld.CATCH_DEV_ENERGY_NJ.base + 4]
  | 2 => regs [Fld.SEC_LIFECYCLE_STATE.base, Fld.BOOT_STATUS_STATE.base, Fld.GLB_PRESENT_STACK_UP.base, Fld.ERR_FATAL_CAUSE_VALID.base,
      Fld.PWR_STATE_ON.base, Fld.PWR_STATE_ON.base + 4]
  | _ =>
    let both : Nat → List Nat := fun v => [v % 2 ^ 32, v / 2 ^ 32]
    both (laneBits fun l => s.laneState l = 3) ++ both (laneBits fun l => s.laneState l = 5) ++
      both (laneBits fun l => s.get Fld.LRN_NOV_STATE_STATE l = 2)

/-- TELEMETRY (Table 15.9): pages 0 to 3. -/
def State.cmdTelemetry (s : State) (tag page : Nat) (meas : List Nat) (zero : Bool) : State :=
  s.command 0x10 tag 1 zero fun s => if 3 < page then (stDENIED, [], s) else (stOK, (s.telemetry page meas).flatMap (leBytes 4 ·), s)

/-- REG_READ (R607). -/
def State.cmdRegRead (s : State) (tag off : Nat) (zero : Bool) : State :=
  s.command 0x11 tag 1 zero fun s =>
    let r := s.viewRead .tap off 4 false
    (r.1, leBytes 4 r.2.1, r.2.2)

/-- REG_WRITE (R607). -/
def State.cmdRegWrite (s : State) (tag off v : Nat) (zero : Bool) : State :=
  s.command 0x12 tag 2 zero fun s =>
    let r := s.viewWrite .tap off 4 v
    (r.1, [], r.2)

/-! ### Halting (R614 to R618, R623) -/

/-- Whether a unit can be halted: a fitted Scull, or the Cox (Table 15.8). -/
def State.haltable (s : State) (u : Nat) : Bool := u = 0x45 || (decide (u < 16) && s.unitFitted u)

/-- Whether a unit is halted. -/
def State.isHalted (s : State) (u : Nat) : Bool := if u = 0x45 then s.err.coxHalted else (s.scull u).halted

/-- The Cox's firmware stops (R618); the always-on logic sets every Scull's A to 0. -/
def State.haltCox (s : State) : State :=
  if s.err.coxHalted then s
  else
    let s := ({ s with err := { s.err with coxHalted := true } }).put Fld.DBG_HALTED_COX 0 1
    (List.range 16).foldl (fun s n => s.setA n 0) s

/-- HALT (R614, R618): a halted unit answers OK. -/
def State.cmdHalt (s : State) (tag u : Nat) (zero : Bool) : State :=
  s.command 0x20 tag 2 zero fun s =>
    if !s.haltable u then (stDENIED, [], s) else if u = 0x45 then (stOK, [], s.haltCox) else (stOK, [], s.askHalt u (1, 0, 0))

/-- Whether the halt of a Scull can take effect: every operation issued is confirmed, and every burst its engines had issued when the halt was
asked for has completed (R614). -/
def State.haltReady (s : State) (n : Nat) : Bool :=
  let x := s.scull n
  x.open_.isEmpty && (List.range 4).all fun j => (s.slide (4 * n + j)).bursts.all fun b => b.done || decide (x.haltMarks.getD j 0 ≤ b.off)

/-- A pending halt takes effect, with its reason (R614, Table 15.12). -/
def State.haltNow (s : State) (n : Nat) : State :=
  match (s.scull n).haltPending with
  | none => s
  | some (reason, slot, lane) =>
    let s := s.setScull n { s.scull n with halted := true, haltPending := none, haltMarks := [], stepLeft := none }
    let s := { s with mod := { s.mod with haltAt := Tbl.set none s.mod.haltAt n (some s.now) } }
    let s := ((s.put Fld.DBG_REASON_REASON n reason).put Fld.DBG_REASON_SLOT n slot).put Fld.DBG_REASON_LANE n lane
    (s.putBitAt Fld.DBG_HALTED_SCULLS 0 n true).showScull n

/-- RESUME (R618, R623). -/
def State.cmdResume (s : State) (tag u : Nat) (zero : Bool) : State :=
  s.command 0x21 tag 2 zero fun s =>
    if !s.haltable u then (stDENIED, [], s)
    else if u = 0x45 then (stOK, [], if s.err.coxHalted then s.resumeCox.coxBack else s)
    else (stOK, [], s.resumeScull u)

/-- STEP (R617, R618): a halted Scull issues the next `n` operations and halts again; what firmware instructions the Cox steps through has no
effect of its own here. -/
def State.cmdStep (s : State) (tag u n : Nat) (zero : Bool) : State :=
  s.command 0x22 tag 2 zero fun s =>
    if !s.haltable u ∨ n = 0 ∨ !s.isHalted u then (stDENIED, [], s)
    else if u = 0x45 then (stOK, [], s)
    else
      let s := s.resumeScull u
      (stOK, [], s.setScull u { s.scull u with stepLeft := some n })

/-- STATE_READ: six state words of a halted unit, whose meaning no rule gives. -/
def State.cmdStateRead (s : State) (tag u page : Nat) (zero : Bool) : State :=
  s.command 0x23 tag 2 zero fun s =>
    if !s.haltable u ∨ !s.isHalted u then (stDENIED, [], s)
    else (stOK, (List.range 6).flatMap fun w => leBytes 4 (Config.stateWord u page w s.free % 2 ^ 32), { s with free := s.free + 1 })

/-! ### Breakpoints and watchpoints (R619, R620) -/

/-- Sets a code breakpoint slot. -/
def State.setBp (s : State) (k : Nat) (b : Option DbgSlot) : State := { s with dbg := { s.dbg with bps := Tbl.set none s.dbg.bps k b } }

/-- Sets a watchpoint slot. -/
def State.setWp (s : State) (k : Nat) (b : Option DbgSlot) : State := { s with dbg := { s.dbg with wps := Tbl.set none s.dbg.wps k b } }

/-- BP_SET. -/
def State.cmdBpSet (s : State) (tag n slot ctx addr : Nat) (zero : Bool) : State :=
  s.command 0x30 tag 2 zero fun s =>
    if 15 < n ∨ 7 < slot then (stDENIED, [], s) else (stOK, [], s.setBp (n * 8 + slot) (some { ctx := ctx, addr := addr }))

/-- BP_CLR. -/
def State.cmdBpClr (s : State) (tag n slot : Nat) (zero : Bool) : State :=
  s.command 0x31 tag 2 zero fun s => if 15 < n ∨ 7 < slot then (stDENIED, [], s) else (stOK, [], s.setBp (n * 8 + slot) none)

/-- WP_SET: log2 length 0 to 12, direction 1 read, 2 write, 3 both, and an address aligned to its length (Table 15.8). -/
def State.cmdWpSet (s : State) (tag n slot ctx spec addr : Nat) (zero : Bool) : State :=
  s.command 0x32 tag 2 zero fun s =>
    let k := bits spec 3 0
    let d := bits spec 5 4
    if 15 < n ∨ 3 < slot ∨ 12 < k ∨ d = 0 ∨ bits spec 7 6 ≠ 0 ∨ addr % 2 ^ k ≠ 0 then (stDENIED, [], s)
    else (stOK, [], s.setWp (n * 4 + slot) (some { ctx := ctx, addr := addr, log2 := k, dir := d }))

/-- WP_CLR. -/
def State.cmdWpClr (s : State) (tag n slot : Nat) (zero : Bool) : State :=
  s.command 0x33 tag 2 zero fun s => if 15 < n ∨ 3 < slot then (stDENIED, [], s) else (stOK, [], s.setWp (n * 4 + slot) none)

/-- LANE_BP (R620): bit k − 1 selects report KIND k; 0 clears. -/
def State.cmdLaneBp (s : State) (tag l kinds : Nat) (zero : Bool) : State :=
  s.command 0x34 tag 2 zero fun s =>
    if 63 < l ∨ bits kinds 15 9 ≠ 0 then (stDENIED, [], s)
    else (stOK, [], { s with dbg := { s.dbg with laneBp := Tbl.set 0 s.dbg.laneBp l kinds } })

/-! ### Debug memory access (R622) -/

/-- Whether a debug access has a length of Table 15.8 and stays within one line. -/
def dbgShape (a len : Nat) : Bool := decide (1 ≤ len) && decide (len ≤ 16) && decide (a % 64 + len ≤ 64)

/-- The monitor issues an access with tag unit 0x46, CTX 0, PART 0, SYS set and the debug unit's epoch, and awaits its response (R622). -/
def State.dbgAccess (s : State) (w : DbgWait) (kind : ReqKind) (store : Store) (ecc : Ecc) : State :=
  ({ s with dbg := { s.dbg with waiting := some w } }).request
    { kind := kind, tag := s.sysTag 0x46, src := .unit 0x46, addr := w.addr / 64 * 64, store := store, ecc := ecc } none

/-- Whether the monitor takes a debug access, or answers it DENIED (R606, R622). -/
def State.dbgTakes (s : State) (a len : Nat) (zero : Bool) : Bool := zero && decide (2 ≤ s.dbgLevel) && dbgShape a len

/-- MEM_READ (R622): a ReadOnce, never of a provisional value (R284). -/
def State.cmdMemRead (s : State) (tag a len : Nat) (ecc : Ecc) (zero : Bool) : State :=
  if s.lifecycle = 3 then s
  else if s.dbgTakes a len zero then s.dbgAccess ⟨0x40, tag, a, len⟩ .readOnce ⟨0, [], 0⟩ ecc
  else s.respond 0x40 stDENIED tag []

/-- The masked line that MEM_WRITE writes. -/
def dbgStore (a len : Nat) (bytes : List Byte) : Store :=
  let data := (bytes ++ List.replicate 16 0).take len
  ⟨BitVec.ofNat 64 ((2 ^ len - 1) * 2 ^ (a % 64)), (List.replicate (a % 64) 0 ++ data ++ List.replicate 64 0).take 64, 0⟩

/-- MEM_WRITE (R31, R622): a WriteLine under a mask, coherent, whatever lock is held. -/
def State.cmdMemWrite (s : State) (tag a len : Nat) (bytes : List Byte) (zero : Bool) : State :=
  if s.lifecycle = 3 then s
  else if s.dbgTakes a len zero then s.dbgAccess ⟨0x41, tag, a, len⟩ .writeLine (dbgStore a len bytes) .clean
  else s.respond 0x41 stDENIED tag []

/-! ### RETIRE and LOCK (R596, R597, R624) -/

/-- RETIRE (R596, R597, R624): only in FIELD_SESSION at level 2, with the unit's serial. The unit resets, so its success has no response. -/
def State.cmdRetire (s : State) (tag serial : Nat) (burnFails zero : Bool) : State :=
  if s.lifecycle = 3 then s
  else if !zero ∨ s.dbgLevel < 2 ∨ s.lifecycle ≠ 2 ∨ serial ≠ s.serial then s.respond 0x51 stDENIED tag []
  else
    let s := (s.abortPops 0 fun _ => true).abortPops 1 fun _ => true
    if burnFails then (s.record (recC 0x1D stABORTED)).respond 0x51 stABORTED tag []
    else
      let fuses := Nat.lor s.boot.lcFuses 2
      (({ s with boot := { s.boot with lcFuses := fuses } }).eraseBanks.deviceReset).emit (.pin 1 0)

/-- Whether LOCK's conditions hold (Table 15.3). -/
def State.lockable (s : State) : Bool := s.lifecycle = 0 && s.credOk && (List.range 4).any fun n => !allZero (s.rootHash n)

/-- LOCK (Table 15.3, R624): the fuse LOCKED_F burns. No table gives its OP, which the response echoes, so that byte is a free value. -/
def State.cmdLock (s : State) (tag : Nat) (burnFails zero : Bool) : State :=
  if s.lifecycle = 3 then s
  else
    let op := s.takeFree.1 % 256
    let s := s.takeFree.2
    if !zero ∨ !s.lockable then s.respond op stDENIED tag []
    else if burnFails then (s.record (recC 0x1D stABORTED)).respond op stABORTED tag []
    else (({ s with boot := { s.boot with lcFuses := Nat.lor s.boot.lcFuses 1 } }).showLifecycle).respond op stOK tag []

/-! ### The commands -/

/-- STATUS (R606). -/
def execStatus (tag : BitVec 16) (zero : Bool) (s : State) : Effect :=
  .next (s.start.frame (.status tag zero) (State.cmdStatus · tag.toNat zero))

/-- UNLOCK_PW (R608, R610). -/
def execUnlockPw (tag : BitVec 16) (arg : List Byte) (zero : Bool) (s : State) : Effect :=
  .next (s.start.frame (.unlockPw tag arg zero) (State.cmdUnlockPw · tag.toNat arg zero))

/-- CHALLENGE (R609, R610). -/
def execChallenge (tag : BitVec 16) (arg : List Byte) (zero : Bool) (s : State) : Effect :=
  .next (s.start.frame (.challenge tag arg zero) (State.cmdChallenge · tag.toNat arg zero))

/-- UNLOCK_RSP (R609, R610). -/
def execUnlockRsp (tag : BitVec 16) (arg : List Byte) (zero : Bool) (s : State) : Effect :=
  .next (s.start.frame (.unlockRsp tag arg zero) (State.cmdUnlockRsp · tag.toNat arg zero))

/-- LOCKOUT_EXPIRY (R610). -/
def execLockoutExpiry (s : State) : Effect := .next { s.start with dbg := { s.dbg with lockoutUntil := none } }

/-- NONCE_LAPSE (R609). -/
def execNonceLapse (s : State) : Effect := .next { s.start with dbg := { s.dbg with nonce := none } }

/-- END (R612). -/
def execEndSession (tag : BitVec 16) (zero : Bool) (s : State) : Effect :=
  .next (s.start.frame (.endSession tag zero) (State.cmdEnd · tag.toNat zero))

/-- SESSION_TIMEOUT (R612): 8 h after the session opened. -/
def execSessionTimeout (s : State) : Effect := .next s.start.endSession

/-- TELEMETRY (R606). -/
def execTelemetry (tag : BitVec 16) (page : BitVec 8) (meas : List Nat) (zero : Bool) (s : State) : Effect :=
  .next (s.start.frame (.telemetry tag page meas zero) (State.cmdTelemetry · tag.toNat page.toNat meas zero))

/-- REG_READ (R607). -/
def execRegRead (tag : BitVec 16) (off : BitVec 32) (zero : Bool) (s : State) : Effect :=
  .next (s.start.frame (.regRead tag off zero) (State.cmdRegRead · tag.toNat off.toNat zero))

/-- REG_WRITE (R607). -/
def execRegWrite (tag : BitVec 16) (off : BitVec 32) (v : Word) (zero : Bool) (s : State) : Effect :=
  .next (s.start.frame (.regWrite tag off v zero) (State.cmdRegWrite · tag.toNat off.toNat v.toNat zero))

/-- HALT (R614, R618). -/
def execHalt (tag : BitVec 16) (unit : BitVec 8) (zero : Bool) (s : State) : Effect :=
  .next (s.start.frame (.halt tag unit zero) (State.cmdHalt · tag.toNat unit.toNat zero))

/-- HALT_TAKES_EFFECT (R614). -/
def execHaltTakesEffect (scull : Fin 16) (s : State) : Effect :=
  let s := s.start
  .next (if s.haltReady scull.val then s.haltNow scull.val else s)

/-- RESUME (R623). -/
def execResume (tag : BitVec 16) (unit : BitVec 8) (zero : Bool) (s : State) : Effect :=
  .next (s.start.frame (.resume tag unit zero) (State.cmdResume · tag.toNat unit.toNat zero))

/-- STEP (R617, R618). -/
def execStep (tag : BitVec 16) (unit : BitVec 8) (count : BitVec 16) (zero : Bool) (s : State) : Effect :=
  .next (s.start.frame (.step tag unit count zero) (State.cmdStep · tag.toNat unit.toNat count.toNat zero))

/-- STATE_READ (R606). -/
def execStateRead (tag : BitVec 16) (unit page : BitVec 8) (zero : Bool) (s : State) : Effect :=
  .next (s.start.frame (.stateRead tag unit page zero) (State.cmdStateRead · tag.toNat unit.toNat page.toNat zero))

/-- BP_SET (R619). -/
def execBpSet (tag : BitVec 16) (scull slot ctx : BitVec 8) (addr : BitVec 64) (zero : Bool) (s : State) : Effect :=
  .next (s.start.frame (.bpSet tag scull slot ctx addr zero)
    (State.cmdBpSet · tag.toNat scull.toNat slot.toNat ctx.toNat addr.toNat zero))

/-- BP_CLR (R619). -/
def execBpClr (tag : BitVec 16) (scull slot : BitVec 8) (zero : Bool) (s : State) : Effect :=
  .next (s.start.frame (.bpClr tag scull slot zero) (State.cmdBpClr · tag.toNat scull.toNat slot.toNat zero))

/-- WP_SET (R619). -/
def execWpSet (tag : BitVec 16) (scull slot ctx spec : BitVec 8) (addr : BitVec 64) (zero : Bool) (s : State) : Effect :=
  .next (s.start.frame (.wpSet tag scull slot ctx spec addr zero)
    (State.cmdWpSet · tag.toNat scull.toNat slot.toNat ctx.toNat spec.toNat addr.toNat zero))

/-- WP_CLR (R619). -/
def execWpClr (tag : BitVec 16) (scull slot : BitVec 8) (zero : Bool) (s : State) : Effect :=
  .next (s.start.frame (.wpClr tag scull slot zero) (State.cmdWpClr · tag.toNat scull.toNat slot.toNat zero))

/-- LANE_BP (R620). -/
def execLaneBp (tag : BitVec 16) (lane : BitVec 8) (kinds : BitVec 16) (zero : Bool) (s : State) : Effect :=
  .next (s.start.frame (.laneBp tag lane kinds zero) (State.cmdLaneBp · tag.toNat lane.toNat kinds.toNat zero))

/-- MEM_READ (R622). -/
def execMemRead (tag : BitVec 16) (addr : BitVec 64) (len : BitVec 8) (ecc : Ecc) (zero : Bool) (s : State) : Effect :=
  .next (s.start.frame (.memRead tag addr len ecc zero) (State.cmdMemRead · tag.toNat addr.toNat len.toNat ecc zero))

/-- MEM_WRITE (R622). -/
def execMemWrite (tag : BitVec 16) (addr : BitVec 64) (len : BitVec 8) (bytes : List Byte) (zero : Bool) (s : State) : Effect :=
  .next (s.start.frame (.memWrite tag addr len bytes zero) (State.cmdMemWrite · tag.toNat addr.toNat len.toNat bytes zero))

/-- RETIRE (R597). -/
def execRetire (tag : BitVec 16) (serial : BitVec 64) (burnFails : Bool) (zero : Bool) (s : State) : Effect :=
  .next (s.start.frame (.retire tag serial burnFails zero) (State.cmdRetire · tag.toNat serial.toNat burnFails zero))

/-- LOCK (R596). -/
def execLock (tag : BitVec 16) (burnFails : Bool) (zero : Bool) (s : State) : Effect :=
  .next (s.start.frame (.lock tag burnFails zero) (State.cmdLock · tag.toNat burnFails zero))

/-- DBG_RSP_CAPTURE (R605, Table 15.5): the oldest unread response, with MORE where others wait, or zeros. -/
def execDbgRspCapture (s : State) : Effect :=
  let s := s.start
  .next (match s.dbg.rsp with
    | [] => s.emit (.tapFrame (List.replicate 32 0))
    | f :: fs => ({ s with dbg := { s.dbg with rsp := fs } }).emit
        (.tapFrame (f.set 4 (f.getD 4 0 + BitVec.ofNat 8 (2 * b2n (!fs.isEmpty))))))

end Sys2Proof.Machine
end

