-- ==== Sys2Proof/Machine/Governors.lean ====
section
/-!
DEFINITION. The Delta Engine's and the governors' commands (chapter 7), the decoder's frames (R326), and what power domains do on their own
(R308, R309, R315).
-/
namespace Sys2Proof.Machine

/-! ### Frames -/

/-- The decode domain of a lane's die. -/
def State.decOn (s : State) (l : Nat) : Bool := s.domOn (62 + 3 * s.laneField l 4 1)

/-- A frame capture takes the frame (R501). -/
def State.capture (s : State) (l dev : Nat) (bytes : List Byte) : State :=
  let x := s.lane l
  match x.capture with
  | none => s
  | some c =>
    let n := s.laneField l 0x66 2 * s.laneField l 0x68 2 * 3 / 2
    let s := s.setLane l { x with capture := none }
    let st := s.memCheck c.1 true c.2.1 n
    let s := if st ≠ stOK then s.mbEnd c.1 st []
      else (s.writeBytes c.2.1 ((bytes ++ List.replicate n 0).take n)).mbEnd c.1 stOK (leBytes 8 dev ++ leBytes 4 n)
    s.mbAll

/-- An access unit that cannot be decoded, and every frame up to the next one that starts a picture, is counted lost (R328, R354). -/
def State.frameLost (s : State) (l : Nat) (broken : Bool) : State :=
  let x := s.lane l
  let s := s.setLane l { x with waitIdr := true, lossRec := broken || x.lossRec }
  let s := s.laneLose l 1 1
  if broken ∧ !x.lossRec then s.record { cls := 1, status := stABORTED, block := 0x10, lane := some l } else s

/-- A stream of another size, profile or coding (R355): one record when it begins. -/
def State.frameMismatch (s : State) (l : Nat) : State :=
  let x := s.lane l
  let s := (s.setLane l { x with mismatch := true }).laneLose l 1 1
  if x.mismatch then s
  else s.record { cls := 1, status := stDENIED, part := s.lanePart l, block := 0x10, lane := some l }

/-- A decoded frame enters the lane (R326, R330, R340 to R343, R350). -/
def State.frameIn (s : State) (l rtpTs arrival : Nat) (bytes : List Byte) : State :=
  let x := s.lane l
  let recent := x.recent.filter fun t => decide (s.dev < t + 1000000000)
  let s := s.setLane l { x with waitIdr := false, lossRec := false, mismatch := false, recent := recent }
  if s.laneField l 0x70 4 * 11 < (recent.length + 1) * 10000 then s.bump Fld.LANE_EXCESS_CNT_CNT l 1
  else
    let t := s.cameraTime l rtpTs arrival
    let s := s.setLane l { s.lane l with recent := s.dev :: recent }
    s.laneIn l { dev := t.1, tflags := t.2, srcFlags := 0, rtpTs := rtpTs, arrival := arrival, bytes := bytes }

/-- FRAME_DECODED (R326, R328, R330, R340 to R343, R350, R354, R355, R501): a decoder finishes an access unit of a lane. A frame
one of whose slots a router discarded (R129) never lies whole in memory: it is lost (log entry 103). -/
def execFrameDecoded (lane : Fin 64) (kind : FrameKind) (rtpTs : BitVec 32) (arrival : Nat) (bytes : List Byte) (fab : FabEv) (s : State) : Effect :=
  let s := s.start.fabric fab
  let l := lane.val
  .next (if s.laneKind l ≠ 1 ∨ !s.decOn l then s
    else
      let whole := kind = .entry || (kind = .inter && !(s.lane l).waitIdr)
      let s := if whole then s.capture l (s.cameraTime l rtpTs.toNat arrival).1 bytes else s
      if !s.laneAdmitted l then s
      else
        let s := s.laneArrival l
        if fab.header = 2 then s.frameLost l false
        else match kind with
        | .rejected => s.frameLost l true
        | .mismatch => s.frameMismatch l
        | .inter => if whole then s.frameIn l rtpTs.toNat arrival bytes else s.frameLost l false
        | .entry => s.frameIn l rtpTs.toNat arrival bytes)

/-! ### The Delta Engine and the energy governor -/

/-- Whether the Delta Engine of a lane's half works. -/
def State.deOn (s : State) (l : Nat) : Bool := s.domOn (52 + s.laneHalf l)

/-- DELTA_COMPARE_DONE (R296, R298): step 2 of Table 7.2 for the lane's oldest frame; in Fixed mode the map follows at once. -/
def execDeltaCompareDone (lane : Fin 64) (s : State) : Effect :=
  let s := s.start
  let l := lane.val
  .next (match s.oldestInDelta l with
    | none => s
    | some e =>
      if e.stage ≠ 1 ∨ !s.deOn l then s
      else
        let s := s.compareFrame l e
        match s.oldestInDelta l with
        | some e => if e.band.2.2 = 1 then (s.formMap l e).flushHeld l else s
        | none => s)

/-- ENERGY_GOVERNOR_CHOOSE (R298, R304, R305): the Cox chooses the threshold, and the map is published. -/
def execEnergyGovernorChoose (lane : Fin 64) (s : State) : Effect :=
  let s := s.start
  let l := lane.val
  .next (match s.oldestInDelta l with
    | none => s
    | some e => if e.stage ≠ 2 ∨ !s.deOn l ∨ s.err.coxHalted then s else (s.formMap l e).flushHeld l)

/-- DELTA_MAP_TIMEOUT (R314): no map within one frame interval of the frame's arrival. -/
def execDeltaMapTimeout (lane : Fin 64) (s : State) : Effect :=
  let s := s.start
  let l := lane.val
  .next (match s.oldestInDelta l with
    | none => s
    | some e => s.dropFrame l e)

/-! ### The voltage governor -/

/-- A monitor that does not answer (R313): A goes to 0, V_me to 0.60 V; one record. -/
def State.monitorLost (s : State) (n : Nat) : State :=
  let was := (s.scull n).monitorOk
  let s := (s.setA n 0).put Fld.CATCH_VME_VME_MV n 600
  let s := s.setScull n { s.scull n with monitorOk := false }
  if was then s.record { cls := 0, status := stTIMEOUT, unit := n, block := 0x0C } else s

/-- VME_UPDATE (R287, R313): V_me of a Scull, or its monitor's failure. -/
def execVmeUpdate (scull : Fin 16) (leakage temp : Nat) (ok : Bool) (s : State) : Effect :=
  let s := s.start
  let n := scull.val
  .next (if s.err.coxHalted then s
    else if ok then
      (s.setScull n { s.scull n with monitorOk := true }).put Fld.CATCH_VME_VME_MV n (min 600 (max 450 (Config.vme n leakage temp)))
    else s.monitorLost n)

/-- The planned step times of a lane per frame or block (R288). -/
def State.lanePlanned (s : State) (l : Nat) : Nat :=
  let r : Reuse := Tbl.get {} s.reuse l
  if s.laneKind l = 1 then r.planned else (s.lanePlanCost l).1

/-- The lanes with tasks on a Scull, with their shares. -/
def State.sclLanes (s : State) (n : Nat) : List (Nat × Nat) :=
  (s.lanesWith fun _ => true).filterMap fun l => ((s.laneShares l).find? fun x => x.1 = n).map fun x => (l, x.2)

/-- Whether a rate in M steps/s meets a Scull's demand over PLAN_PERMILLE (R288). -/
def State.rateMeets (s : State) (n rate : Nat) : Bool :=
  (s.sclLanes n).all fun x =>
    decide (s.lanePlanned x.1 * 10 ^ 9 ≤ x.2 * s.laneDeadline x.1 * rate * s.get Fld.CATCH_GOV_CFG_PLAN_PERMILLE 0)

/-- A Scull's demand in steps per second (R288). -/
def State.sclDemand (s : State) (n : Nat) : Nat :=
  (s.sclLanes n).foldl (fun d x => max d (s.lanePlanned x.1 * 10 ^ 12 / max 1 (x.2 * s.laneDeadline x.1))) 0

/-- The lowest supply from 450 mV in 5 mV steps that satisfies `p`, else 850 mV (R276). -/
def lowestMv (p : Nat → Bool) : Nat := (((List.range 81).map fun i => 450 + 5 * i).find? p).getD 850

/-- The lower cold-plate limit of the module's grade, in tenths of a degree (R23, R313). -/
def State.coldLimit (s : State) : Int := if s.flag Fld.GLB_VARIANT_IGRADE 0 then -400 else -200

/-- The supply the governor wants for a Scull (R276, R288, R313). -/
def State.wantedVso (s : State) (n moment : Nat) : Nat :=
  let vme := (s.get Fld.CATCH_VME_VME_MV n + 4) / 5 * 5
  if (s.scull n).monitorOk then max vme (lowestMv fun mv => s.rateMeets n (stepRate n mv (junctionAt n moment)))
  else max vme (max (lowestMv fun mv => s.rateMeets n (stepRate n mv s.coldLimit)) (lowestMv fun mv => s.rateMeets n (stepRate n mv 1050)))

/-- One Scull at the governor's tick (R288, R289, R312, R313, R657). -/
def State.governScull (s : State) (moment n : Nat) : State :=
  if !s.domOn n then s
  else
    let v := s.wantedVso n moment
    let v := if s.mod.capped then min v (s.get Fld.CATCH_STATE_VSO_MV n) else v
    let s := (s.setScull n { s.scull n with demand := s.sclDemand n }).setVso n v
    let top := if s.flag Fld.CATCH_CTRL_ESC_LOCK n ∨ !(s.scull n).monitorOk then 0 else s.get Fld.CATCH_CTRL_AGGR_MAX n
    if top < s.get Fld.CATCH_STATE_A n then s.setA n top else s

/-- VDD_CORE of a half moves towards the lowest supply at which its fabric meets its demand (R95, R291). -/
def State.governHalf (s : State) (moment h : Nat) : State :=
  s.moveRail h (lowestMv fun mv => decide (Config.fabricDemand h moment ≤ stepRate (16 + h) mv (junctionAt (16 + h) moment)))

/-- The energy spent since the last tick beside the Sculls' (R306, R307): each lane's traffic and events, and the Cox, the always-on part and leakage for the
device alone. No command carries the bytes and events themselves, and the coefficients are not given, so each amount is free (log entry 109). -/
def State.tickEnergy (s : State) (moment : Nat) : State :=
  let s := (s.lanesWith fun _ => true).foldl (fun s l => s.laneEnergy l ((s.lane l).entries.head?.map Entry.seq) (Config.energy (32 + l) 0 moment)) s
  s.bump Fld.CATCH_DEV_ENERGY_NJ 0 (Config.energy 31 0 moment)

/-- VSO_GOVERNOR_TICK (R288, R291, R307): every 1 ms, each Scull's V_so and each half's VDD_CORE; rails hold while the Cox is halted (R618). -/
def execVsoGovernorTick (s : State) : Effect :=
  let s := s.start
  let moment := s.free
  .next (if s.err.coxHalted then s
    else
      let s := (List.range 16).foldl (State.governScull · moment) { s with free := s.free + 1 }
      ([0, 1].foldl (State.governHalf · moment) s).tickEnergy moment)

/-! ### Power domains -/

/-- POWER_POLICY_OFF (R308, R311): a domain that Table 7.3 lets be off, and nothing pins, is quiesced and switched off. -/
def execPowerPolicyOff (dom : Fin 72) (s : State) : Effect :=
  let s := s.start
  let d := dom.val
  .next (if !s.domOn d ∨ s.pinned d ∨ !s.domIdle d ∨ !s.domFitted d ∨ s.err.coxHalted then s
    else if plainDomain d then s.domainOff d
    else match s.askQuiesce (domainUnit d) .autoOff with
      | some s => s
      | none => s)

/-- DOMAIN_WAKE_DONE (R309, Table 14.5 step 6): a waking domain comes on. -/
def execDomainWakeDone (dom : Fin 72) (s : State) : Effect :=
  let s := s.start
  .next (if s.waking dom.val then (s.domainCame dom.val).mbAll else s)

/-- WAKE_TIMEOUT (R315, R570): a wake has not ended within ten times its time; held requests see TARGET_DOWN, and the unit is silent. -/
def execWakeTimeout (dom : Fin 72) (s : State) : Effect :=
  let s := s.start
  let d := dom.val
  .next (if !s.waking d ∨ s.err.coxHalted then s
    else
      let u := domainUnit d
      let s := { s with pwr := { s.pwr with waking := Tbl.set none s.pwr.waking d none, returning := Tbl.set none s.pwr.returning d none } }
      let s := if s.pwr.explicit = some d then
          ({ s with pwr := { s.pwr with explicit := none } }).put Fld.PWR_REQ_STATUS_PENDING 0 0 |>.put Fld.PWR_REQ_STATUS_STATUS 0 stDOWN
        else s
      let s := s.record { cls := 1, status := stDOWN, unit := u, block := 0x02 }
      let s := if u = 0xFF then s else s.silentUnit u
      ((s.wakeLost d).afterWakeFail d).mbAll)

end Sys2Proof.Machine
end

