-- ==== Sys2Proof/Machine/Module.lean ====
section
/-!
DEFINITION. The module (chapter 17): PWRFAIL and the restart (R433, R434, R641 to R643), RESET_N and PERST_N (R644, R645), node power (R639),
thermal protection (R657, R663), the reference accelerometer (R665), transceivers (R653), supplies (R666), the PCIe link (R30, R479), ALARM_N (R648).
-/
namespace Sys2Proof.Machine

/-- Whether ALARM_N is driven low (R648): a listed lane is in ALARM and not ACKED. -/
def State.alarmLow (s : State) : Bool :=
  s.listed.any fun l => decide (s.get Fld.LRN_NOV_STATE_STATE l = 2) && decide (s.get Fld.LRN_NOV_STATE_ACKED l = 0)

/-! ### Power -/

/-- PWRFAIL (R641, Crossing 6 of chapter 15): PWR_GOOD and FLASH_OWN go low and PWRFAIL_N is asserted, node power goes off, the debug session ends and a halted
Cox runs on, and the power-fail commit begins (R433). -/
def State.powerFail (s : State) : State :=
  let s := ((s.emit (.pin 1 0)).emit (.pin 3 1)).emit (.pin 2 0)
  let s := s.nodesOff
  let s := s.endSession
  let s := if s.err.coxHalted then s.resumeCox.coxBack else s
  ({ s with boot := { s.boot with phase := .powerFail } }).powerFailCommit

/-- PWRFAIL (R641): latched; a second one changes nothing (R642). -/
def execPwrfail (s : State) : Effect :=
  let s := s.start
  .next (if s.boot.phase = .powerFail then s else s.powerFail)

/-- POWERFAIL_CONTROLLERS_STOP (R434): at 18 ms after PWRFAIL both Boathouse controllers stop; what has not committed is not committed. -/
def execPowerfailControllersStop (s : State) : Effect :=
  let s := s.start
  .next (if s.boot.phase ≠ .powerFail then s
    else
      let s := [0, 1].foldl (fun s b => s.setBank b { s.bnk b with writing := [], cur := none }) s
      { s with mod := { s.mod with stopped := true } })

/-- RESTART_AFTER_PWRFAIL (R642, R663): the rails have been off for 50 ms, the input is in range, SHUTDOWN_N is high, and after a thermal trip
every junction is below 90 °C. Start-up begins from the state after power-on. -/
def execRestartAfterPwrfail (offMs : Nat) (inRange shutdownHigh cool : Bool) (s : State) : Effect :=
  let s := s.start
  .next (if s.boot.phase ≠ .powerFail ∨ offMs < 50 ∨ !inRange ∨ !shutdownHigh ∨ (s.mod.tripped ∧ !cool) then s else s.powerOnReset)

/-- RESET_N (R643, R644): low for 10 µs or more, it resets the device; from 1 µs to 10 µs it either does or is ignored (`taken`); shorter, or
after PWRFAIL, it is ignored. -/
def execResetN (lowNs : Nat) (taken : Bool) (s : State) : Effect :=
  let s := s.start
  .next (if s.boot.phase = .powerFail ∨ lowNs < 1000 ∨ (lowNs < 10000 ∧ !taken) then s else (s.deviceReset).emit (.pin 1 0))

/-- PERST_N (R643, R645): its fall resets the PCIe endpoint behind the quiesce sequence, whatever waits for one already (DEDUCED, log entry 103); its rise
lets the link train again. -/
def execPerstN (low : Bool) (s : State) : Effect :=
  let s := s.start
  let was := s.mod.perst
  .next (if s.boot.phase = .powerFail ∨ low = was then s
    else
      let s := { s with mod := { s.mod with perst := low } }
      if !low ∨ s.quiescing 0x43 then s
      else State.nextQuiesce 10 ({ s with err := { s.err with queue := s.err.queue ++ [(0x43, QAct.reset)] } }).showQuiesce)

/-! ### Node power, temperature, the reference, transceivers, supplies -/

/-- NODE_POWER_OVERCURRENT (R639): a segment is switched off; its lanes go SILENT, with one record. -/
def execNodePowerOvercurrent (die : Fin 3) (seg : Fin 4) (s : State) : Effect :=
  let s := s.start
  let k := die.val * 4 + seg.val
  .next (if !s.fldOn die.val ∨ NatSet.has s.mod.segOff k then s
    else
      let s := (({ s with mod := { s.mod with segOff := NatSet.add s.mod.segOff k } }).nodePower k false)
      let s := (s.segLanes die.val seg.val).foldl State.goSilent s
      s.record { cls := 1, status := stDOWN, unit := 0x3C + 3 * die.val, block := 0x19 })

/-- NODE_POWER_RETRY (R639): 10 s later the segment is tried; one that still draws too much is switched off again, with a record. -/
def execNodePowerRetry (die : Fin 3) (seg : Fin 4) (still : Bool) (s : State) : Effect :=
  let s := s.start
  let k := die.val * 4 + seg.val
  .next (if !NatSet.has s.mod.segOff k then s
    else if still then s.record { cls := 1, status := stDOWN, unit := 0x3C + 3 * die.val, block := 0x19 }
    else
      let s := { s with mod := { s.mod with segOff := NatSet.del s.mod.segOff k } }
      if s.fldOn die.val then s.nodePower k true else s)

/-- THERMAL_CAP (R657): above 105 °C no V_so rises; below 100 °C everywhere, control is normal again. -/
def execThermalCap (hot : Bool) (s : State) : Effect := .next { s.start with mod := { s.mod with capped := hot } }

/-- THERMAL_TRIP (R663): PWRFAIL, and a restart only when every junction is below 90 °C; the console reports it, and the next start-up a record. -/
def execThermalTrip (s : State) : Effect :=
  let s := s.start
  let s := { s with mod := { s.mod with tripReport := true, tripped := true } }
  .next ((if s.boot.phase = .powerFail then s else s.powerFail).console 5 0)

/-- REFERENCE_ACCEL_FAULT (R665): rejection is bypassed on every lane, with one record. -/
def execReferenceAccelFault (s : State) : Effect :=
  let s := s.start
  .next (if s.mod.refBypass then s
    else ({ s with mod := { s.mod with refBypass := true } }).record { cls := 0, status := stDOWN, block := 0x10 })

/-- REFERENCE_ACCEL_RETRY (R661, R665): on recovery, every lane's coefficients are reset. -/
def execReferenceAccelRetry (recovered : Bool) (s : State) : Effect :=
  let s := s.start
  .next (if !s.mod.refBypass ∨ !recovered then s
    else ((List.range 64).filter s.laneAdmitted).foldl (fun s l => s.setLane l { s.lane l with coefAt := s.dev })
      { s with mod := { s.mod with refBypass := false } })

/-- TRANSCEIVER_INSERT (R653): one of a higher power class stays in low-power mode, its port down, with one record. -/
def execTransceiverInsert (die : Fin 3) (port : Fin 2) (highPower : Bool) (s : State) : Effect :=
  let s := s.start
  let k := die.val * 2 + port.val
  let s := { s with mod := { s.mod with sfpGone := NatSet.del s.mod.sfpGone k } }
  .next (if highPower then
      ({ s with mod := { s.mod with sfpLow := NatSet.add s.mod.sfpLow k } }).record
        { cls := 0, status := stDENIED, unit := 0x3A + 3 * die.val, block := 0x19 }
    else { s with mod := { s.mod with sfpLow := NatSet.del s.mod.sfpLow k } })

/-- TRANSCEIVER_REMOVE (R653): the port's link goes down. -/
def execTransceiverRemove (die : Fin 3) (port : Fin 2) (s : State) : Effect :=
  let k := die.val * 2 + port.val
  .next { s.start with mod := { s.mod with sfpGone := NatSet.add s.mod.sfpGone k, sfpLow := NatSet.del s.mod.sfpLow k } }

/-- SUPPLY_SHORT (R356, R666): PNL_3V3 (0) or TDM_3V3_j (1 + j) is switched off, with one record; the lane of a TDM port goes SILENT. -/
def execSupplyShort (supply : Fin 7) (s : State) : Effect :=
  let s := s.start
  let s := s.emit (.pin 5 supply.val)
  .next (if supply.val = 0 then s.record { cls := 0, status := stDOWN, block := 0x1A }
    else
      let j := supply.val - 1
      let s := match s.tdmLane (j / 2) (j % 2) with
        | some l => s.goSilent l
        | none => s
      s.record { cls := 1, status := stDOWN, unit := 0x3C + 3 * (j / 2), block := 0x19 })

/-! ### The PCIe link -/

/-- PCIE_LINK_DOWN (R30, R479): accesses to the host window answer TARGET_DOWN, and records wait. -/
def execPcieLinkDown (s : State) : Effect := .next s.start.hostDown

/-- The interrupts that are due fire as far as their intervals allow (R491). -/
def State.fireDue (s : State) : State := (s.host.irqDue.map (·.1)).foldl (fun s k => s.msix (k / 8) (k % 8)) s

/-- PCIE_LINK_UP (R479, R645): the link trains; the backlogs are written oldest first, and due interrupts fire. -/
def execPcieLinkUp (speed : Fin 5) (width : BitVec 4) (s : State) : Effect :=
  let s := s.start
  .next (if !s.domOn 70 ∨ s.mod.perst ∨ s.boot.phase = .powerFail then s
    else
      let s := ((s.put Fld.HOST_LINK_STATUS_UP 0 1).put Fld.HOST_LINK_STATUS_SPEED 0 speed.val).put Fld.HOST_LINK_STATUS_WIDTH 0 width.toNat
      (((List.range 8).foldl State.drainAll s).fireDue).mbAll)

end Sys2Proof.Machine
end

