-- ==== Sys2Proof/Machine/Replies.lean ====
section
/-!
DEFINITION. Responses: DATA and ACK (R139, R553), the link's responses and the request timeout (R130, R505, R513), which can end a memory access of the
debug monitor: the command frame held behind it is then served (R605).
-/
namespace Sys2Proof.Machine

/-- The monitor serves a held command frame. -/
def State.serveHeld (i : Instr) (s : State) : State :=
  match i with
  | .status tag z => s.cmdStatus tag.toNat z
  | .unlockPw tag arg z => s.cmdUnlockPw tag.toNat arg z
  | .challenge tag arg z => s.cmdChallenge tag.toNat arg z
  | .unlockRsp tag arg z => s.cmdUnlockRsp tag.toNat arg z
  | .endSession tag z => s.cmdEnd tag.toNat z
  | .telemetry tag page meas z => s.cmdTelemetry tag.toNat page.toNat meas z
  | .regRead tag off z => s.cmdRegRead tag.toNat off.toNat z
  | .regWrite tag off v z => s.cmdRegWrite tag.toNat off.toNat v.toNat z
  | .halt tag u z => s.cmdHalt tag.toNat u.toNat z
  | .resume tag u z => s.cmdResume tag.toNat u.toNat z
  | .step tag u n z => s.cmdStep tag.toNat u.toNat n.toNat z
  | .stateRead tag u p z => s.cmdStateRead tag.toNat u.toNat p.toNat z
  | .bpSet tag n k c a z => s.cmdBpSet tag.toNat n.toNat k.toNat c.toNat a.toNat z
  | .bpClr tag n k z => s.cmdBpClr tag.toNat n.toNat k.toNat z
  | .wpSet tag n k c sp a z => s.cmdWpSet tag.toNat n.toNat k.toNat c.toNat sp.toNat a.toNat z
  | .wpClr tag n k z => s.cmdWpClr tag.toNat n.toNat k.toNat z
  | .laneBp tag l k z => s.cmdLaneBp tag.toNat l.toNat k.toNat z
  | .memRead tag a n e z => s.cmdMemRead tag.toNat a.toNat n.toNat e z
  | .memWrite tag a n bs z => s.cmdMemWrite tag.toNat a.toNat n.toNat bs z
  | .retire tag sn b z => s.cmdRetire tag.toNat sn.toNat b z
  | .lock tag b z => s.cmdLock tag.toNat b z
  | _ => s

/-- Once no memory access is out, the frame held behind it is served. -/
def State.monitorGo (s : State) : State :=
  match s.dbg.waiting, s.dbg.held with
  | none, some i => State.serveHeld i { s with dbg := { s.dbg with held := none } }
  | _, _ => s

/-- DATA (R139, R145, R553): a response with data reaches its requester, or a snooped cache's data reaches the home. A slot with an
uncorrectable header is discarded (R129). -/
def execData (dst : MsgTo) (addr : Addr) (data : Store) (grant : Grant) (epoch : Nat) (fab : FabEv) (s : State) : Effect :=
  .next (s.start.carried fab fun s => (match dst with
    | .requester w =>
      if epoch ≠ s.epoch (workUnit w) then s.bump Fld.ERR_STALE_RSP_CNT_CNT 0 1
      else s.dataTo w addr data grant
    | .home g => s.snoopData g.val (lineOf addr) data.bytes data.poison.toNat).monitorGo.settle)

/-- ACK (R139, R553): a completion without data reaches its requester, or a snooped cache's Ack reaches the home. -/
def execAck (dst : MsgTo) (addr : Addr) (status : Nat) (epoch : Nat) (fab : FabEv) (s : State) : Effect :=
  .next (s.start.carried fab fun s => (match dst with
    | .requester w =>
      if epoch ≠ s.epoch (workUnit w) then s.bump Fld.ERR_STALE_RSP_CNT_CNT 0 1 else s.ackTo w addr status
    | .home g => s.snoopAnswer g.val (lineOf addr) false).monitorGo.settle)

/-- FLIT_RECEIVE (R505 to R507, R511): a flit arrives at a link port; an accepted one delivers its messages. -/
def execFlitReceive (die : Fin 3) (bytes : List Byte) (s : State) : Effect :=
  let s := s.start
  let d := die.val
  .next (if s.linkOn d ∧ s.portUp d then (((s.flitIn d bytes).monitorGo).portGo d).settle else s)

/-- JL_ACK (R513): a response without data arrives over the link. -/
def execJlAck (die : Fin 3) (msg : LinkMsg) (s : State) : Effect :=
  let s := s.start
  .next (if s.linkOn die.val then ((s.jlMessage die.val (jlOf 0x81 true msg) .clean).monitorGo).settle else s)

/-- JL_DATA (R513): a response with data arrives over the link. -/
def execJlData (die : Fin 3) (msg : LinkMsg) (s : State) : Effect :=
  let s := s.start
  .next (if s.linkOn die.val then ((s.jlMessage die.val (jlOf 0x82 true msg) .clean).monitorGo).settle else s)

/-- A requester gives up what it holds for reissue: an engine's work ends whole, a cache's one request at its line (R130). -/
def State.giveUp (s : State) (w : Work) (a : Nat) : State :=
  let mine := fun (r : HomeReq) => r.src = w && (match w with
    | .agent _ => lineOf r.addr = lineOf a
    | .unit _ => r.addr = a
    | _ => true)
  let s := { s with coh := { s.coh with turned := s.coh.turned.filter fun r => !mine r, retries := s.coh.retries.filter fun r => !mine r.1 } }
  match w with
  | .agent n => s.setPend n.val (lineOf a) none
  | _ => s

/-- The error ring whose memory an address names (R557). -/
def State.ringOfAddr (s : State) (a : Nat) : Option Nat :=
  (List.range 9).find? fun r => a / 2 ^ 44 = s.get Fld.GLB_PKG_ID_PKG_ID 0 && decide (s.ringAt r ≤ localOff a) && decide (localOff a < s.ringAt r + 0x4000)

/-- REQUEST_TIMEOUT (R130, R174, R585, R626): 100 µs without a response to the request at `addr`; the task or transfer behind it ends as a contained error, a
debug access answers TIMEOUT, a record that the Cox could not write is lost and its ring moved, and the home's busy entry stays as it is. -/
def execRequestTimeout (w : Work) (addr : Addr) (s : State) : Effect :=
  let s := (s.start.tagTimeout w addr).giveUp w addr
  .next ((match w with
    | .task n => s.taskError n.val stTIMEOUT
    | .slide e => s.burstError e.val (addr / 64) stTIMEOUT
    | .unit 0x46 => (s.dbgEnd addr stTIMEOUT []).monitorGo
    | .unit 0x45 => (match s.ringOfAddr addr with
      | some r => s.moveRing r
      | none => s.emit (.stalledEnd w addr stTIMEOUT))
    | .agent n => (s.emit (.stalledEnd w addr stTIMEOUT)).agentError n.val stTIMEOUT
    | w => s.emit (.stalledEnd w addr stTIMEOUT)).settle)

end Sys2Proof.Machine
end

