-- ==== Sys2Proof/Machine/Shedding.lean ====
section
/-!
DEFINITION. Silence, lost intervals, gap records and shedding (R324, R347 to R353).
-/
namespace Sys2Proof.Machine

/-- LANE_SILENT_TIMEOUT (R324): nothing has arrived for three intervals or 1 s. -/
def execLaneSilentTimeout (lane : Fin 64) (s : State) : Effect :=
  let s := s.start
  let l := lane.val
  .next (if s.laneState l = 3 then s.putLaneState l 4 else s)

/-- FRAME_INTERVAL_LOSS (R352): one more frame or block has failed to arrive; a camera's first frame has none before it, and an ABSENT lane
counts none (R540). -/
def execFrameIntervalLoss (lane : Fin 64) (s : State) : Effect :=
  let s := s.start
  let l := lane.val
  let x := s.lane l
  .next (if (s.laneState l = 3 ∨ s.laneState l = 4) ∧ (x.heard ∨ s.laneKind l ≠ 1) then
      (s.setLane l { x with lossRun := x.lossRun + 1 }).laneLose l 1 1
    else s)

/-- GAP_INTERVAL_END (R351, R352): one GAP record for an interval in which something was shed or lost; none while the lane is ABSENT. -/
def execGapIntervalEnd (lane : Fin 64) (s : State) : Effect :=
  let s := s.start
  let l := lane.val
  .next (if !s.laneAdmitted l then s
    else
      let x := s.lane l
      let upTo := x.gapStart + s.laneGap l
      let s := s.setLane l { x with gapStart := upTo }
      if s.laneState l = 5 ∨ (x.gapShed + x.gapLost = 0 ∧ x.gapCause = 0) then s
      else (s.emitGap l x.gapStart upTo).setLrn l { s.lrnLane l with gapSince := true })

/-! ### Shedding (R347 to R353) -/

/-- The admitted lanes whose areas lie in a stack. -/
def State.stackLanes (s : State) (n : Nat) : List Nat := (List.range 64).filter fun l => s.laneAdmitted l && (s.lane l).site = n

/-- One step of a shed list: a lane and the level it is set to (1 HALF, 2 STOP). -/
structure ShedStep where
  lane : Nat
  level : Nat
deriving DecidableEq, Repr

/-- The shed list of a stack (R348): class C, then B, then A; HALF before STOP; the lowest PRIORITY first, then the higher lane number. -/
def State.shedList (s : State) (n : Nat) : List ShedStep :=
  let key := fun (l : Nat) => s.laneField l 2 1 * 64 + (63 - l)
  let group := fun (c : Nat) => ((s.stackLanes n).filter fun l => s.laneField l 1 1 = c).mergeSort fun a b => decide (key a ≤ key b)
  [2, 1, 0].flatMap fun c => [1, 2].flatMap fun v => (group c).map fun l => ⟨l, v⟩

/-- A lane's level after the first steps of a list. -/
def levelAfter (steps : List ShedStep) (l : Nat) : Nat :=
  steps.foldl (fun v (x : ShedStep) => if x.lane = l then x.level else v) 0

/-- Twice the demand on a stack in kB/s after the first steps of its list (R347). -/
def State.demand2 (s : State) (n : Nat) (steps : List ShedStep) : Nat :=
  sumN ((s.stackLanes n).map fun l => (2 - levelAfter steps l) * (s.lane l).kb)

/-- The target t of a stack: the smallest number of leading steps after which the demand is at most D (R348). -/
def State.shedTarget (s : State) (n : Nat) : Nat :=
  let ls := s.shedList n
  ((List.range (ls.length + 1)).find? fun k => decide (s.demand2 n (ls.take k) ≤ 2 * s.stackD n)).getD ls.length

/-- A lane's shed level changes (R350, R353): one record with the level and D in MB/s, one HEALTH SHED record, one interrupt; the next entry is
marked all changed. -/
def State.setShed (s : State) (n l level : Nat) (down : Bool) : State :=
  let s := s.put Fld.LANE_STATUS_SHED l level
  let x := s.lane l
  let s := s.setLane l { x with allNext := true, decided := (s.dev, level) :: x.decided }
  let s := s.record { cls := b2n down, status := if down then stBUSY else stOK, part := s.lanePart l, block := 0x10, infoKind := 5,
                      info := level + s.stackD n / 1000 * 2 ^ 32, lane := some l }
  (s.emitHealth l 5 3 level).laneIrq l

/-- Takes one step of the list in force. -/
def State.takeStep (n : Nat) (s : State) (x : ShedStep) : State :=
  if s.get Fld.LANE_STATUS_SHED x.lane < x.level then s.setShed n x.lane x.level true else s

/-- Undoes one step of the list that is no longer in force. -/
def State.undoStep (n : Nat) (s : State) (x : ShedStep) : State :=
  if s.get Fld.LANE_STATUS_SHED x.lane = x.level then s.setShed n x.lane (x.level - 1) false else s

/-- A stack's shedding state. -/
def State.shedSt (s : State) (n : Nat) : ShedSt := Tbl.get {} s.shed n

/-- Evaluates a stack (R348, R349): the largest target of the last 10 s is in force; steps are taken in order and undone in reverse. -/
def State.shedStack (s : State) (n : Nat) : State :=
  let x := s.shedSt n
  let t := s.shedTarget n
  let hist := (s.now, t) :: x.hist.filter fun h => decide (s.now ≤ h.1 + 10000000000)
  let f := hist.foldl (fun m h => max m h.2) 0
  let ls := s.shedList n
  let s := { s with shed := Tbl.set {} s.shed n { x with hist := hist } }
  let s := (ls.drop f).reverse.foldl (State.undoStep n) s
  let s := (ls.take f).foldl (State.takeStep n) s
  (s.put Fld.LANE_STACK_STEPS_STEPS n (min f ls.length)).put Fld.LANE_STACK_STEPS_TARGET n t

/-- SHED_EVALUATE (R348, R353): every 100 ms, and within 1 ms of a change of D. -/
def execShedEvaluate (s : State) : Effect :=
  let s := s.start
  .next (if !s.alive ∨ s.err.coxHalted then s else (List.range 4).foldl State.shedStack s)

/-- STACK_THERMAL_HALVING (R347): a stack crosses 95 °C upward or 90 °C downward. -/
def execStackThermalHalving (site : Fin 4) (hot : Bool) (s : State) : Effect :=
  let s := s.start
  let n := site.val
  .next (
    let s := { s with shed := Tbl.set {} s.shed n { s.shedSt n with halved := hot } }
    s.put Fld.LANE_STACK_STEPS_HALVED n (b2n hot))

end Sys2Proof.Machine
end

