-- ==== Sys2Proof/Machine/Dispatch.lean ====
section
/-!
DEFINITION. The dispatch: one arm per constructor of `Instr`, each one direct call of that command's meaning.
-/
namespace Sys2Proof.Machine

/-- The effect of a command on everything but the queue. -/
def exec (i : Instr) (s : State) : Host.Outcome State Fault Refusal :=
  match i with
  | .reg64LowWrite src off v => Sys2Proof.Machine.execReg64LowWrite src off v s
  | .reg64HighWrite src off v => Sys2Proof.Machine.execReg64HighWrite src off v s
  | .reg64LowRead src off => Sys2Proof.Machine.execReg64LowRead src off s
  | .reg64HighRead src off => Sys2Proof.Machine.execReg64HighRead src off s
  | .registerWrite src off size v => Sys2Proof.Machine.execRegisterWrite src off size v s
  | .startUp env => Sys2Proof.Machine.execStartUp env s
  | .flashReadTimeout slot => Sys2Proof.Machine.execFlashReadTimeout slot s
  | .trainingComplete stackUp dieUp cables bch ms => Sys2Proof.Machine.execTrainingComplete stackUp dieUp cables bch ms s
  | .replicaRateRefresh west east => Sys2Proof.Machine.execReplicaRateRefresh west east s
  | .requestTimeout w addr => Sys2Proof.Machine.execRequestTimeout w addr s
  | .channelStall ch unit => Sys2Proof.Machine.execChannelStall ch unit s
  | .fence scull kind => Sys2Proof.Machine.execFence scull kind s
  | .readShared tag agent addr ticket ecc fab => Sys2Proof.Machine.execReadShared tag agent addr ticket ecc fab s
  | .readOwn tag agent addr store ticket ecc fab => Sys2Proof.Machine.execReadOwn tag agent addr store ticket ecc fab s
  | .upgrade tag agent addr store ticket ecc fab => Sys2Proof.Machine.execUpgrade tag agent addr store ticket ecc fab s
  | .readOnce tag src addr ticket ecc fab => Sys2Proof.Machine.execReadOnce tag src addr ticket ecc fab s
  | .writeLine tag src addr store ticket ecc fab => Sys2Proof.Machine.execWriteLine tag src addr store ticket ecc fab s
  | .atomicFetchAdd tag src addr args ticket => Sys2Proof.Machine.execAtomicFetchAdd tag src addr args ticket s
  | .atomicSwap tag src addr args ticket => Sys2Proof.Machine.execAtomicSwap tag src addr args ticket s
  | .atomicCompareSwap tag src addr args ticket => Sys2Proof.Machine.execAtomicCompareSwap tag src addr args ticket s
  | .atomicMinS tag src addr args ticket => Sys2Proof.Machine.execAtomicMinS tag src addr args ticket s
  | .atomicMaxS tag src addr args ticket => Sys2Proof.Machine.execAtomicMaxS tag src addr args ticket s
  | .atomicMinU tag src addr args ticket => Sys2Proof.Machine.execAtomicMinU tag src addr args ticket s
  | .atomicMaxU tag src addr args ticket => Sys2Proof.Machine.execAtomicMaxU tag src addr args ticket s
  | .lockAcquire tag op => Sys2Proof.Machine.execLockAcquire tag op s
  | .lockTryAcquire tag op => Sys2Proof.Machine.execLockTryAcquire tag op s
  | .lockRelease tag op => Sys2Proof.Machine.execLockRelease tag op s
  | .lockInspect tag op => Sys2Proof.Machine.execLockInspect tag op s
  | .snoopShare agent addr after evicting ecc fab => Sys2Proof.Machine.execSnoopShare agent addr after evicting ecc fab s
  | .snoopInv agent addr after evicting ecc fab => Sys2Proof.Machine.execSnoopInv agent addr after evicting ecc fab s
  | .snoopMiss agent addr fab => Sys2Proof.Machine.execSnoopMiss agent addr fab s
  | .evictNotice tag agent addr ue fab => Sys2Proof.Machine.execEvictNotice tag agent addr ue fab s
  | .writeBack tag agent addr data ue fab => Sys2Proof.Machine.execWriteBack tag agent addr data ue fab s
  | .data dst addr data grant epoch fab => Sys2Proof.Machine.execData dst addr data grant epoch fab s
  | .ack dst addr status epoch fab => Sys2Proof.Machine.execAck dst addr status epoch fab s
  | .retry src addr ticket fab => Sys2Proof.Machine.execRetry src addr ticket fab s
  | .retryReissue src addr => Sys2Proof.Machine.execRetryReissue src addr s
  | .ticketReservationExpiry addr => Sys2Proof.Machine.execTicketReservationExpiry addr s
  | .lockGrant tag lock status fab => Sys2Proof.Machine.execLockGrant tag lock status fab s
  | .lockWaitTimeout tag lock => Sys2Proof.Machine.execLockWaitTimeout tag lock s
  | .epochBroadcast unit epoch latNs fab => Sys2Proof.Machine.execEpochBroadcast unit epoch latNs fab s
  | .contextFaultNotice ctx fab => Sys2Proof.Machine.execContextFaultNotice ctx fab s
  | .patrolScrub addr ecc => Sys2Proof.Machine.execPatrolScrub addr ecc s
  | .tlbMiss xlu ctx va kind w => Sys2Proof.Machine.execTlbMiss xlu ctx va kind w s
  | .walkComplete ctx va readErr ecc => Sys2Proof.Machine.execWalkComplete ctx va readErr ecc s
  | .saveAreaWritten scull task status => Sys2Proof.Machine.execSaveAreaWritten scull task status s
  | .xluFqHeadWrite src part v => Sys2Proof.Machine.execXluFqHeadWrite src part v s
  | .fqResumeRetry src part id => Sys2Proof.Machine.execFqResumeRetry src part id s
  | .fqResumeAbort src part id => Sys2Proof.Machine.execFqResumeAbort src part id s
  | .faultHoldTimeout ctx => Sys2Proof.Machine.execFaultHoldTimeout ctx s
  | .ctxRelease src ctx => Sys2Proof.Machine.execCtxRelease src ctx s
  | .xluCtxCfgWrite src ctx v => Sys2Proof.Machine.execXluCtxCfgWrite src ctx v s
  | .invContext src part ctx => Sys2Proof.Machine.execInvContext src part ctx s
  | .invRange src part ctx => Sys2Proof.Machine.execInvRange src part ctx s
  | .invPartition src part => Sys2Proof.Machine.execInvPartition src part s
  | .invStage2 src part => Sys2Proof.Machine.execInvStage2 src part s
  | .invalidateComplete part => Sys2Proof.Machine.execInvalidateComplete part s
  | .missTimeout xlu ctx va => Sys2Proof.Machine.execMissTimeout xlu ctx va s
  | .arrayStep scull step => Sys2Proof.Machine.execArrayStep scull step s
  | .weightPlaneLoad scull fmt dual tileOff ecc line => Sys2Proof.Machine.execWeightPlaneLoad scull fmt dual tileOff ecc line s
  | .planeSwap scull => Sys2Proof.Machine.execPlaneSwap scull s
  | .accumulatorDrain scull entry reg => Sys2Proof.Machine.execAccumulatorDrain scull entry reg s
  | .vectorOp scull op => Sys2Proof.Machine.execVectorOp scull op s
  | .catchCheckerClose scull late => Sys2Proof.Machine.execCatchCheckerClose scull late s
  | .catchWindowEnd scull => Sys2Proof.Machine.execCatchWindowEnd scull s
  | .taskRunnable scull task trigger => Sys2Proof.Machine.execTaskRunnable scull task trigger s
  | .taskDispatch scull => Sys2Proof.Machine.execTaskDispatch scull s
  | .taskCommit scull given => Sys2Proof.Machine.execTaskCommit scull given s
  | .taskWatchdogExpiry scull => Sys2Proof.Machine.execTaskWatchdogExpiry scull s
  | .sldStart src eng ctx => Sys2Proof.Machine.execSldStart src eng ctx s
  | .sldAbort src eng => Sys2Proof.Machine.execSldAbort src eng s
  | .slideBurstIssue eng => Sys2Proof.Machine.execSlideBurstIssue eng s
  | .slideCreditArrives eng => Sys2Proof.Machine.execSlideCreditArrives eng s
  | .vmeUpdate scull leakage temp ok => Sys2Proof.Machine.execVmeUpdate scull leakage temp ok s
  | .vsoGovernorTick => Sys2Proof.Machine.execVsoGovernorTick s
  | .frameDecoded lane kind rtpTs arrival bytes fab => Sys2Proof.Machine.execFrameDecoded lane kind rtpTs arrival bytes fab s
  | .deltaCompareDone lane => Sys2Proof.Machine.execDeltaCompareDone lane s
  | .energyGovernorChoose lane => Sys2Proof.Machine.execEnergyGovernorChoose lane s
  | .deltaMapTimeout lane => Sys2Proof.Machine.execDeltaMapTimeout lane s
  | .catchBandWrite src lane v => Sys2Proof.Machine.execCatchBandWrite src lane v s
  | .catchReuseCfgWrite src lane v => Sys2Proof.Machine.execCatchReuseCfgWrite src lane v s
  | .catchAggrMaxWrite src scull v => Sys2Proof.Machine.execCatchAggrMaxWrite src scull v s
  | .powerPolicyOff dom => Sys2Proof.Machine.execPowerPolicyOff dom s
  | .domainWakeDone dom => Sys2Proof.Machine.execDomainWakeDone dom s
  | .wakeTimeout dom => Sys2Proof.Machine.execWakeTimeout dom s
  | .pwrReqAuto src dom => Sys2Proof.Machine.execPwrReqAuto src dom s
  | .pwrReqOn src dom => Sys2Proof.Machine.execPwrReqOn src dom s
  | .pwrReqOff src dom => Sys2Proof.Machine.execPwrReqOff src dom s
  | .pwrReqForceOff src dom => Sys2Proof.Machine.execPwrReqForceOff src dom s
  | .rtpPacket die port pkt => Sys2Proof.Machine.execRtpPacket die port pkt s
  | .rtcpSenderReport die port pkt sec frac => Sys2Proof.Machine.execRtcpSenderReport die port pkt sec frac s
  | .membershipQuery die port family group => Sys2Proof.Machine.execMembershipQuery die port family group s
  | .ptpSync domain seq twoStep origin => Sys2Proof.Machine.execPtpSync domain seq twoStep origin s
  | .ptpFollowUp seq origin => Sys2Proof.Machine.execPtpFollowUp seq origin s
  | .ptpDelayResp sent received => Sys2Proof.Machine.execPtpDelayResp sent received s
  | .ptpAnnounce domain rank utcValid utc => Sys2Proof.Machine.execPtpAnnounce domain rank utcValid utc s
  | .ptpHoldoverEntry => Sys2Proof.Machine.execPtpHoldoverEntry s
  | .gptpSyncTimer die seg => Sys2Proof.Machine.execGptpSyncTimer die seg s
  | .gptpPdelayReq die seg frame => Sys2Proof.Machine.execGptpPdelayReq die seg frame s
  | .sensorAnnounce die seg mac frame => Sys2Proof.Machine.execSensorAnnounce die seg mac frame s
  | .sensorStatus die seg frame => Sys2Proof.Machine.execSensorStatus die seg frame s
  | .sensorSamples die seg frame => Sys2Proof.Machine.execSensorSamples die seg frame s
  | .configResend => Sys2Proof.Machine.execConfigResend s
  | .tdmBlockComplete die port t0 samples => Sys2Proof.Machine.execTdmBlockComplete die port t0 samples s
  | .tdmSdinSilent die port => Sys2Proof.Machine.execTdmSdinSilent die port s
  | .t1sSegmentFault die seg => Sys2Proof.Machine.execT1sSegmentFault die seg s
  | .laneSilentTimeout lane => Sys2Proof.Machine.execLaneSilentTimeout lane s
  | .frameIntervalLoss lane => Sys2Proof.Machine.execFrameIntervalLoss lane s
  | .gapIntervalEnd lane => Sys2Proof.Machine.execGapIntervalEnd lane s
  | .stackThermalHalving site hot => Sys2Proof.Machine.execStackThermalHalving site hot s
  | .shedEvaluate => Sys2Proof.Machine.execShedEvaluate s
  | .laneReportMaskWrite src lane v => Sys2Proof.Machine.execLaneReportMaskWrite src lane v s
  | .laneLevelWrite src lane which v => Sys2Proof.Machine.execLaneLevelWrite src lane which v s
  | .laneTimingWrite src lane v => Sys2Proof.Machine.execLaneTimingWrite src lane v s
  | .leEvent lane spillErr sram => Sys2Proof.Machine.execLeEvent lane spillErr sram s
  | .delayWheelRelease eng spillErr sram => Sys2Proof.Machine.execDelayWheelRelease eng spillErr sram s
  | .evaluationSweep eng pop spillErr sram => Sys2Proof.Machine.execEvaluationSweep eng pop spillErr sram s
  | .lrnModTeach src lane => Sys2Proof.Machine.execLrnModTeach src lane s
  | .lrnModMark src lane => Sys2Proof.Machine.execLrnModMark src lane s
  | .lrnModCancel src lane => Sys2Proof.Machine.execLrnModCancel src lane s
  | .markExpiry lane => Sys2Proof.Machine.execMarkExpiry lane s
  | .teachWindowExpiry lane => Sys2Proof.Machine.execTeachWindowExpiry lane s
  | .popFreezeWrite src v => Sys2Proof.Machine.execPopFreezeWrite src v s
  | .eventRingTimeout lane => Sys2Proof.Machine.execEventRingTimeout lane s
  | .checkpointDue n => Sys2Proof.Machine.execCheckpointDue n s
  | .bhCkptCmd src n => Sys2Proof.Machine.execBhCkptCmd src n s
  | .deferredCheckpointStart n => Sys2Proof.Machine.execDeferredCheckpointStart n s
  | .snapshotCopyDone eng ecc => Sys2Proof.Machine.execSnapshotCopyDone eng ecc s
  | .slotWriteDone bank failed => Sys2Proof.Machine.execSlotWriteDone bank failed s
  | .readbackDone bank corrected failed => Sys2Proof.Machine.execReadbackDone bank corrected failed s
  | .pwrfail => Sys2Proof.Machine.execPwrfail s
  | .powerfailControllersStop => Sys2Proof.Machine.execPowerfailControllersStop s
  | .restartAfterPwrfail offMs inRange shutdownHigh cool => Sys2Proof.Machine.execRestartAfterPwrfail offMs inRange shutdownHigh cool s
  | .nop fn seq irq => Sys2Proof.Machine.execNop fn seq irq s
  | .loadModel fn seq irq arg => Sys2Proof.Machine.execLoadModel fn seq irq arg s
  | .replaceModel fn seq irq arg => Sys2Proof.Machine.execReplaceModel fn seq irq arg s
  | .unloadModel fn seq irq id => Sys2Proof.Machine.execUnloadModel fn seq irq id s
  | .readout fn seq irq arg => Sys2Proof.Machine.execReadout fn seq irq arg s
  | .checkpoint fn seq irq eng pop => Sys2Proof.Machine.execCheckpoint fn seq irq eng pop s
  | .laneModTeach fn seq irq lane => Sys2Proof.Machine.execLaneModTeach fn seq irq lane s
  | .laneModMark fn seq irq lane => Sys2Proof.Machine.execLaneModMark fn seq irq lane s
  | .laneModCancel fn seq irq lane => Sys2Proof.Machine.execLaneModCancel fn seq irq lane s
  | .laneAck fn seq irq lane => Sys2Proof.Machine.execLaneAck fn seq irq lane s
  | .captureFrame fn seq irq arg => Sys2Proof.Machine.execCaptureFrame fn seq irq arg s
  | .captureTimeout lane => Sys2Proof.Machine.execCaptureTimeout lane s
  | .heartbeat fn seq irq value => Sys2Proof.Machine.execHeartbeat fn seq irq value s
  | .flashErase fn seq irq arg => Sys2Proof.Machine.execFlashErase fn seq irq arg s
  | .flashWrite fn seq irq arg bad => Sys2Proof.Machine.execFlashWrite fn seq irq arg bad s
  | .flashRead fn seq irq arg => Sys2Proof.Machine.execFlashRead fn seq irq arg s
  | .hostMbTailWrite src fn v host => Sys2Proof.Machine.execHostMbTailWrite src fn v host s
  | .hostMbCfgWrite src fn v => Sys2Proof.Machine.execHostMbCfgWrite src fn v s
  | .rptRingConsWrite src part v => Sys2Proof.Machine.execRptRingConsWrite src part v s
  | .rptRingBaseWrite src part v => Sys2Proof.Machine.execRptRingBaseWrite src part v s
  | .collectorFlush col => Sys2Proof.Machine.execCollectorFlush col s
  | .collectorAck col dseq known => Sys2Proof.Machine.execCollectorAck col dseq known s
  | .datagramResend col dseq => Sys2Proof.Machine.execDatagramResend col dseq s
  | .nextHopResolve col found => Sys2Proof.Machine.execNextHopResolve col found s
  | .collectorDown col => Sys2Proof.Machine.execCollectorDown col s
  | .functionLevelReset fn => Sys2Proof.Machine.execFunctionLevelReset fn s
  | .flitReceive die bytes => Sys2Proof.Machine.execFlitReceive die bytes s
  | .replayTimeout die => Sys2Proof.Machine.execReplayTimeout die s
  | .retrainDone die ok => Sys2Proof.Machine.execRetrainDone die ok s
  | .idleFlitTimer die => Sys2Proof.Machine.execIdleFlitTimer die s
  | .linkTrainAttempt die cable ok partner => Sys2Proof.Machine.execLinkTrainAttempt die cable ok partner s
  | .jlReadOnce die msg ecc => Sys2Proof.Machine.execJlReadOnce die msg ecc s
  | .jlWriteLine die msg ecc => Sys2Proof.Machine.execJlWriteLine die msg ecc s
  | .jlAtomic die msg ecc => Sys2Proof.Machine.execJlAtomic die msg ecc s
  | .jlEpoch die msg => Sys2Proof.Machine.execJlEpoch die msg s
  | .jlAck die msg => Sys2Proof.Machine.execJlAck die msg s
  | .jlData die msg => Sys2Proof.Machine.execJlData die msg s
  | .dupWindowExpiry pkg unit tag => Sys2Proof.Machine.execDupWindowExpiry pkg unit tag s
  | .tagHoldExpiry unit tag => Sys2Proof.Machine.execTagHoldExpiry unit tag s
  | .keyPress pin => Sys2Proof.Machine.execKeyPress pin s
  | .keyRelease pin => Sys2Proof.Machine.execKeyRelease pin s
  | .keyLongPress pin => Sys2Proof.Machine.execKeyLongPress pin s
  | .keyStuck pin => Sys2Proof.Machine.execKeyStuck pin s
  | .sliderSweep counts plugs => Sys2Proof.Machine.execSliderSweep counts plugs s
  | .selectionDisplayEnd => Sys2Proof.Machine.execSelectionDisplayEnd s
  | .pnlSelWrite src v => Sys2Proof.Machine.execPnlSelWrite src v s
  | .buzzerSilence src => Sys2Proof.Machine.execBuzzerSilence src s
  | .buzzerTest src => Sys2Proof.Machine.execBuzzerTest src s
  | .sensorUnplug pin => Sys2Proof.Machine.execSensorUnplug pin s
  | .sensorReplug pin => Sys2Proof.Machine.execSensorReplug pin s
  | .replugWaitTimeout lane => Sys2Proof.Machine.execReplugWaitTimeout lane s
  | .electrodeFault pin => Sys2Proof.Machine.execElectrodeFault pin s
  | .sinkOvercurrent pin => Sys2Proof.Machine.execSinkOvercurrent pin s
  | .sinkRetry pin still => Sys2Proof.Machine.execSinkRetry pin still s
  | .errConsWrite src ring v => Sys2Proof.Machine.execErrConsWrite src ring v s
  | .quiesceDrainDone => Sys2Proof.Machine.execQuiesceDrainDone s
  | .drainTimeout => Sys2Proof.Machine.execDrainTimeout s
  | .errUnitReset src unit => Sys2Proof.Machine.execErrUnitReset src unit s
  | .errUnitUpdate src unit => Sys2Proof.Machine.execErrUnitUpdate src unit s
  | .frameDeadline lane seq => Sys2Proof.Machine.execFrameDeadline lane seq s
  | .frameLateLimit lane seq => Sys2Proof.Machine.execFrameLateLimit lane seq s
  | .coxWatchdogExpiry => Sys2Proof.Machine.execCoxWatchdogExpiry s
  | .heartbeatExpiry part => Sys2Proof.Machine.execHeartbeatExpiry part s
  | .partitionRestart src part => Sys2Proof.Machine.execPartitionRestart src part s
  | .partitionAutoRestart part => Sys2Proof.Machine.execPartitionAutoRestart part s
  | .deviceFatal cause => Sys2Proof.Machine.execDeviceFatal cause s
  | .fatalHoldExpiry => Sys2Proof.Machine.execFatalHoldExpiry s
  | .dbgRspCapture => Sys2Proof.Machine.execDbgRspCapture s
  | .status tag zero => Sys2Proof.Machine.execStatus tag zero s
  | .unlockPw tag arg zero => Sys2Proof.Machine.execUnlockPw tag arg zero s
  | .challenge tag arg zero => Sys2Proof.Machine.execChallenge tag arg zero s
  | .unlockRsp tag arg zero => Sys2Proof.Machine.execUnlockRsp tag arg zero s
  | .lockoutExpiry => Sys2Proof.Machine.execLockoutExpiry s
  | .nonceLapse => Sys2Proof.Machine.execNonceLapse s
  | .endSession tag zero => Sys2Proof.Machine.execEndSession tag zero s
  | .sessionTimeout => Sys2Proof.Machine.execSessionTimeout s
  | .telemetry tag page meas zero => Sys2Proof.Machine.execTelemetry tag page meas zero s
  | .regRead tag off zero => Sys2Proof.Machine.execRegRead tag off zero s
  | .regWrite tag off v zero => Sys2Proof.Machine.execRegWrite tag off v zero s
  | .halt tag unit zero => Sys2Proof.Machine.execHalt tag unit zero s
  | .haltTakesEffect scull => Sys2Proof.Machine.execHaltTakesEffect scull s
  | .resume tag unit zero => Sys2Proof.Machine.execResume tag unit zero s
  | .step tag unit count zero => Sys2Proof.Machine.execStep tag unit count zero s
  | .stateRead tag unit page zero => Sys2Proof.Machine.execStateRead tag unit page zero s
  | .bpSet tag scull slot ctx addr zero => Sys2Proof.Machine.execBpSet tag scull slot ctx addr zero s
  | .bpClr tag scull slot zero => Sys2Proof.Machine.execBpClr tag scull slot zero s
  | .wpSet tag scull slot ctx spec addr zero => Sys2Proof.Machine.execWpSet tag scull slot ctx spec addr zero s
  | .wpClr tag scull slot zero => Sys2Proof.Machine.execWpClr tag scull slot zero s
  | .laneBp tag lane kinds zero => Sys2Proof.Machine.execLaneBp tag lane kinds zero s
  | .memRead tag addr len ecc zero => Sys2Proof.Machine.execMemRead tag addr len ecc zero s
  | .memWrite tag addr len bytes zero => Sys2Proof.Machine.execMemWrite tag addr len bytes zero s
  | .retire tag serial burnFails zero => Sys2Proof.Machine.execRetire tag serial burnFails zero s
  | .lock tag burnFails zero => Sys2Proof.Machine.execLock tag burnFails zero s
  | .resetN lowNs taken => Sys2Proof.Machine.execResetN lowNs taken s
  | .perstN low => Sys2Proof.Machine.execPerstN low s
  | .nodePowerOvercurrent die seg => Sys2Proof.Machine.execNodePowerOvercurrent die seg s
  | .nodePowerRetry die seg still => Sys2Proof.Machine.execNodePowerRetry die seg still s
  | .thermalCap hot => Sys2Proof.Machine.execThermalCap hot s
  | .thermalTrip => Sys2Proof.Machine.execThermalTrip s
  | .referenceAccelFault => Sys2Proof.Machine.execReferenceAccelFault s
  | .referenceAccelRetry recovered => Sys2Proof.Machine.execReferenceAccelRetry recovered s
  | .transceiverInsert die port highPower => Sys2Proof.Machine.execTransceiverInsert die port highPower s
  | .transceiverRemove die port => Sys2Proof.Machine.execTransceiverRemove die port s
  | .supplyShort supply => Sys2Proof.Machine.execSupplyShort supply s
  | .pcieLinkDown => Sys2Proof.Machine.execPcieLinkDown s
  | .pcieLinkUp speed width => Sys2Proof.Machine.execPcieLinkUp speed width s
  | .hostMbCqHeadWrite src fn v => Sys2Proof.Machine.execHostMbCqHeadWrite src fn v s
  | .interruptIntervalExpiry fn vec => Sys2Proof.Machine.execInterruptIntervalExpiry fn vec s
  | .registerRead src off size ue => Sys2Proof.Machine.execRegisterRead src off size ue s

end Sys2Proof.Machine
end

