-- ==== Sys2Proof/Safety.lean ====
section
/-!
DEFINITION. What counts as a sound state of the block, and what the statements say of an access, in the terms they use.
-/
namespace Sys2Proof.Machine

/-- The canonical form of memory: addresses strictly rising, no byte equal to 0, what an unlisted address reads as (log entry 3). -/
def Memory.wf (m : List Host.Cell) : Bool := Tbl.wf 0 m

/-- Whether lifecycle fuse `n` reads as burned: 0 is LOCKED_F, 1 is RETIRE_F (Table 15.2). -/
def State.burned (s : State) (n : Nat) : Bool := bit s.boot.lcFuses n

/-- Whether the fuse of root key slot `n`'s field revocation reads as burned (Table 15.2). -/
def State.revokeBurned (s : State) (n : Nat) : Bool := bit s.boot.fieldRevoke n

/-- The lifecycle area holds nothing but the fuses of Table 15.2: LC_FUSES[31:2] and FIELD_REVOKE[31:4] are unburned. -/
def State.fusesOk (s : State) : Bool := decide (s.boot.lcFuses < 4) && decide (s.boot.fieldRevoke < 16)

/-- Whether a write of a whole register word at `off` reaches its register: nothing refuses the access, and the view shows the register (R9, R32,
R488, R489, R589 to R592). -/
def State.reaches (s : State) (src : RegSrc) (off : Nat) : Bool :=
  decide (s.regGate src true off 4 = (none, s)) && !inDbg off &&
    (match findReg off with
      | some (r, i, _) => s.regShown (s.regWho src) r i
      | none => false)

/-- Whether a read of a whole register word at `off` reaches its register (R9, R32, R488, R489, R589 to R592). -/
def State.readable (s : State) (src : RegSrc) (off : Nat) : Bool :=
  decide (s.regGate src false off 4 = (none, s)) &&
    (match findReg off with
      | some (r, i, _) => s.regShown (s.regWho src) r i
      | none => false)

/-- The registers whose write does more than set fields. -/
def ownEffect : List Nat :=
  [0x060108, 0x060118, 0x060130, 0x061000, 0x061004, 0x06100C, 0x0A0008, 0x0C1000, 0x0C1004, 0x020010, 0x100008, 0x10000C, 0x100010, 0x100014,
   0x100018, 0x12010C, 0x12040C, 0x140004, 0x160000, 0x16000C, 0x170010, 0x170014, 0x17001C, 0x1A010C, 0x1A0114, 0x1B0004, 0x1B0014, 0x1B0240]

/-- The stored value of a register's fields together. -/
def State.stored (s : State) (r : RegRow) (i : Nat) : Nat := r.fields.foldl (fun a (f : RegField) => a + s.get f i * 2 ^ f.lo) 0

/-- Whether no Scull's XLU holds a translation of the context without the cache attribute that covers the address (R138). -/
def State.mayCache (s : State) (t : Tag) (a : Nat) : Bool :=
  (List.range 16).all fun x => (s.tlbEntries x).all fun (e : TlbEntry) =>
    !(e.ctx = t.ctx && decide (e.pa ≤ a) && decide (a < e.pa + e.len) && !bit e.rights 3)

/-- Whether the home of the cacheable line at `a` takes a request of tag `t` at once: every check lets it in, the line is not busy, a busy entry is
free, no place is reserved for a ticket (R146 to R149), no earlier access of the context holds it back (R123), no translation keeps the line out of a
cache (R138), and the home's domain is not waking (R309). -/
def State.homeReady (s : State) (t : Tag) (write : Bool) (a : Nat) : Bool :=
  decide (s.gate t write a = (none, s)) && (s.region a).cacheable && (s.busyLine (lineOf a)).isNone &&
    decide (s.busyCount (homeOf (s.region a)) < busyLimit (homeOf (s.region a))) && s.coh.reserved.isEmpty && s.coh.unserved.isEmpty &&
    !s.mustWait t true && s.mayCache t a && (s.waitsWake t.unit (regionUnit (s.region a))).isNone

/-- Whether a Scull issues its running task's next operation: on, not halted, not stalled on a miss, and no breakpoint slot of the task's context is set (R202,
R614, R619). -/
def State.issues (s : State) (n : Nat) : Bool := s.sclGo n && (s.running n).isSome && (s.bpSlots n).isEmpty

/-- Whether no watchpoint of a Scull is set (R619). -/
def State.unwatched (s : State) (n : Nat) : Bool := (List.range 4).all fun k => (Tbl.get none s.dbg.wps (n * 4 + k)).isNone

/-- A write to the register at `off` clears an uncorrectable error of its backing state (R633). -/
def State.heal (s : State) (off : Nat) : State := { s with regUe := NatSet.del s.regUe off }

end Sys2Proof.Machine
end

