-- ==== Sys2Proof/Certificates/Slice0/Obligations.lean ====
section
/-!
DEFINITION. The statements for the provers. Each docstring names the rules of spec/ that its statement formalises; where a statement rests on a choice of
the model, it names the log entry.
-/
open Sys2Proof Sys2Proof.Machine

/-- The command at the front of the queue is taken off it and performed; step adds nothing else. The queue is the model's own, and so is the passing of one nanosecond on an empty one (DESIGN CHOICE, log entry 7). -/
def Obligations.StepRunsTheFrontCommandOrPassesTime : Prop :=
  (∀ (c : Instr) (rest : List Instr) (s : State), s.pending = c :: rest → step s = exec c { s with pending := rest }) ∧
  (∀ s : State, s.pending = [] → ∃ t : State, step s = .next t ∧ t.now = s.now + 1 ∧
    (∃ d : Nat, d * 1000000000 + t.ptp.frac + 500000 = s.dev * 1000000000 + s.ptp.frac + 1000000000 + s.ptp.slew ∧ t.dev = d % 2 ^ 64) ∧
    t.ptp.frac < 1000000000 ∧ t = { s with now := t.now, dev := t.dev, ptp := { s.ptp with frac := t.ptp.frac } })

/-- R15 and R16. The answer of the low word is OK; the commit is the register's own, `State.commitReg`. The high word is at the register's offset + 4. -/
def Obligations.Reg64WritesCommitOnTheHighWord : Prop :=
  (∀ (src : RegSrc) (r : RegRow) (i : Nat) (v : Word) (s : State),
    findReg (r.offset i) = some (r, i, 0) → r.words = 2 → s.start.reaches src (r.offset i) = true →
    let k := (s.start.regWho src).key
    exec (.reg64LowWrite src (r.offset i) v) s =
      .next ((s.start.setHold k { s.start.hold k with word := some (r.offset i, v.toNat) }).regAnswer stOK 0)) ∧
  (∀ (src : RegSrc) (r : RegRow) (i : Nat) (v : Word) (s : State),
    findReg (r.offset i + 4) = some (r, i, 1) → r.words = 2 → s.start.reaches src (r.offset i + 4) = true →
    let w := s.start.regWho src
    let h := s.start.hold w.key
    exec (.reg64HighWrite src (r.offset i + 4) v) s = .next (
      if (h.word.map Prod.fst) = some (r.offset i) then
        let c := ((s.start.heal (r.offset i)).setHold w.key { h with word := none }).commitReg src w r i (v.toNat * 2 ^ 32 + (h.word.map Prod.snd).getD 0)
        c.2.regAnswer c.1 0
      else
        let c := s.start.commitReg src w r i (v.toNat * 2 ^ 32 + s.start.stored r i % 2 ^ 32)
        c.2.regAnswer c.1 0))

/-- R17. The live value is what the context's view shows, `State.regValue`. -/
def Obligations.Reg64ReadsShadowTheHighWord : Prop :=
  (∀ (src : RegSrc) (r : RegRow) (i : Nat) (s : State),
    findReg (r.offset i) = some (r, i, 0) → r.words = 2 → s.start.readable src (r.offset i) = true →
    let w := s.start.regWho src
    let live := s.start.regValue w.view r i
    exec (.reg64LowRead src (r.offset i)) s =
      .next ((s.start.setHold w.key { s.start.hold w.key with shadow := some (r.offset i, live / 2 ^ 32 % 2 ^ 32) }).regAnswer stOK (live % 2 ^ 32))) ∧
  (∀ (src : RegSrc) (r : RegRow) (i : Nat) (s : State),
    findReg (r.offset i + 4) = some (r, i, 1) → r.words = 2 → s.start.readable src (r.offset i + 4) = true →
    let w := s.start.regWho src
    let h := s.start.hold w.key
    exec (.reg64HighRead src (r.offset i + 4)) s = .next (
      if (h.shadow.map Prod.fst) = some (r.offset i) then
        (s.start.setHold w.key { h with shadow := none }).regAnswer stOK ((h.shadow.map Prod.snd).getD 0)
      else s.start.regAnswer stOK (s.start.regValue w.view r i / 2 ^ 32 % 2 ^ 32)))

/-- R10 and R668, for the registers that `ownEffect` does not list. -/
def Obligations.RegisterWriteSetsFieldsByTheirAccess : Prop :=
  ∀ (src : RegSrc) (r : RegRow) (i : Nat) (v : Word) (s : State), findReg (r.offset i) = some (r, i, 0) → r.words = 1 → r.base ∉ ownEffect →
    s.start.reaches src (r.offset i) = true →
    ∃ t : State, exec (.registerWrite src (r.offset i) 4 v) s = .next t ∧
      t = { s.start with flds := t.flds, regUe := NatSet.del s.regUe (r.offset i), out := [.regAnswer stOK 0] } ∧
      (∀ f ∈ r.fields, f.acc = .rw → f.inRange (bits v.toNat (f.lo + f.width - 1) f.lo) = true → t.get f i = bits v.toNat (f.lo + f.width - 1) f.lo) ∧
      (∀ f ∈ r.fields, f.acc = .rw → f.inRange (bits v.toNat (f.lo + f.width - 1) f.lo) = false → t.get f i = s.get f i) ∧
      (∀ f ∈ r.fields, f.acc = .ro ∨ f.acc = .wo → t.get f i = s.get f i) ∧
      (∀ f ∈ r.fields, f.acc = .w1c → t.get f i = (s.get f i - Nat.land (s.get f i) (bits v.toNat (f.lo + f.width - 1) f.lo)) % 2 ^ f.width) ∧
      (∀ (g : RegField) (j : Nat), (∀ f ∈ r.fields, f.key i ≠ g.key j) → t.get g j = s.get g j)

/-- R9 and R633's reads. What finds the error is the command's operand. -/
def Obligations.RegisterReadAnswersTheViewsValue : Prop :=
  ∀ (src : RegSrc) (r : RegRow) (i : Nat) (s : State), findReg (r.offset i) = some (r, i, 0) → r.words = 1 →
    s.start.readable src (r.offset i) = true →
    exec (.registerRead src (r.offset i) 4 false) s =
      .next (s.start.regAnswer stOK (s.start.regValue (s.start.regWho src).view r i % 2 ^ 32)) ∧
    (NatSet.has s.regUe (r.offset i) = true → exec (.registerRead src (r.offset i) 4 true) s = .next (s.start.regAnswer stOK 0)) ∧
    (NatSet.has s.regUe (r.offset i) = false → exec (.registerRead src (r.offset i) 4 true) s =
      .next ((({ s.start with regUe := NatSet.add s.regUe (r.offset i) }).record
        { cls := 1, status := stECC, block := blockOf (r.offset i), infoKind := 3, info := r.offset i }).regAnswer stOK 0))

/-- R9 and R32. The accesses of the host are R489's and have a statement of their own. R489; a function without a partition answers as an Unsupported Request does (log entry 103). The link's state is HOST_LINK_STATUS.UP; the answer with the link down is the model's reading (log entry 43). R592 in the privileged view, and R593's writes. -/
def Obligations.RefusedAccessesChangeNothing : Prop :=
  (
  ∀ (src : RegSrc) (off size : Nat) (v : Word) (ue : Bool) (s : State), (size ≠ 4 ∨ off % 4 ≠ 0 ∨ 0x1E0000 ≤ off) →
    (src = .tap ∨ (∃ n, src = .task n) ∨ (∃ t priv, src = .fabric t priv ∧ (priv = true → t.sys = true ∨ t.part = 0) ∧
      (∀ wr, s.start.gate t wr (s.start.viewAddr priv off) = (none, s.start)))) →
    exec (.registerWrite src off size v) s = .next (s.start.regAnswer stDENIED 0) ∧
    exec (.registerRead src off size ue) s = .next (s.start.regAnswer stDENIED 0)) ∧
  (
  ∀ (f : Fin 8) (off size : Nat) (v : Word) (ue : Bool) (s : State), (size ≠ 4 ∨ off % 4 ≠ 0 ∨ 0x1E0000 ≤ off) →
    let rec_ : ErrRec := { cls := 0, status := stDENIED, part := f.val, block := blockOf off, infoKind := 3, info := off % 2 ^ 24 }
    let marked : State := { s.start with err := { s.err with lastRec := Tbl.set none s.err.lastRec f.val (some s.now) } }
    let made : Prop := f.val = 0 ∨ (Tbl.get none s.boot.parts f.val).isSome = true
    (s.get Fld.HOST_LINK_STATUS_UP 0 = 1 → made → (∀ at_, Tbl.get none s.err.lastRec f.val = some at_ → at_ + 10000000 ≤ s.now) →
      exec (.registerWrite (.bar0 f) off size v) s = .next ((marked.record rec_).regAnswer stDENIED 0) ∧
      exec (.registerRead (.bar0 f) off size ue) s = .next ((marked.record rec_).regAnswer stDENIED (2 ^ (8 * size) - 1))) ∧
    (s.get Fld.HOST_LINK_STATUS_UP 0 = 1 → made → (∃ at_, Tbl.get none s.err.lastRec f.val = some at_ ∧ s.now < at_ + 10000000) →
      exec (.registerWrite (.bar0 f) off size v) s = .next (s.start.regAnswer stDENIED 0) ∧
      exec (.registerRead (.bar0 f) off size ue) s = .next (s.start.regAnswer stDENIED (2 ^ (8 * size) - 1))) ∧
    (s.get Fld.HOST_LINK_STATUS_UP 0 = 1 → ¬ made →
      exec (.registerWrite (.bar0 f) off size v) s = .next (s.start.regAnswer stDENIED 0) ∧
      exec (.registerRead (.bar0 f) off size ue) s = .next (s.start.regAnswer stDENIED (2 ^ (8 * size) - 1))) ∧
    (s.get Fld.HOST_LINK_STATUS_UP 0 = 0 → exec (.registerWrite (.bar0 f) off size v) s = .next (s.start.regAnswer stDOWN 0) ∧
      exec (.registerRead (.bar0 f) off size ue) s = .next (s.start.regAnswer stDOWN (2 ^ (8 * size) - 1)))) ∧
  (
  ∀ (off : Nat) (v : Word) (ue : Bool) (s : State), off % 4 = 0 → off < 0x1E0000 →
    (findReg off = none → exec (.registerRead .tap off 4 ue) s = .next (s.start.regAnswer stOK 0)) ∧
    ((findReg off = none ∨ inDbg off = true) → exec (.registerWrite .tap off 4 v) s = .next (s.start.regAnswer stOK 0)))

/-- R215, and the completion of XLU_FQ_HEAD_WRITE (R212). Counts are free-running and compared modulo 2^16. -/
def Obligations.FaultQueueHeadMovesForwardOnly : Prop :=
  ∀ (src : RegSrc) (q : Fin 8) (v : Word) (s : State), s.start.reaches src (0x060108 + q.val * 0x80) = true →
    let u := s.start.heal (0x060108 + q.val * 0x80)
    let head := s.get Fld.XLU_FQ_HEAD_HEAD q
    let ahead := (v.toNat % 65536 + 65536 - head) % 65536
    let room := (s.get Fld.XLU_FQ_TAIL_TAIL q + 65536 - head) % 65536
    let moved := (u.put Fld.XLU_FQ_HEAD_HEAD q v.toNat).showPending q
    (ahead ≤ room → exec (.xluFqHeadWrite src q v) s = .next ((if s.err.coxHalted then moved else moved.rewalkHeld q).regAnswer stOK 0)) ∧
    (room < ahead → exec (.xluFqHeadWrite src q v) s = .next ((u.record { cls := 0, status := stDENIED, part := q, block := 0x06, infoKind := 3, info := 0x060108 + q.val * 0x80 }).regAnswer stOK 0))

/-- R210 and R211. `id` is the FAULT_ID written. -/
def Obligations.ResumeResolvesAQueuedFault : Prop :=
  ∀ (src : RegSrc) (q : Fin 8) (id : Nat) (f : FaultRec) (s : State), id < 65536 → s.start.reaches src (0x060118 + q.val * 0x80) = true →
    (s.xlu.faults.find? fun (f : FaultRec) => f.queue = q.val && f.id = id) = some f →
    let u := s.start.heal (0x060118 + q.val * 0x80)
    let resolve := fun (r : FaultRec) => if r.queue = q.val ∧ r.id = id then { r with st := 1, waiters := [] } else r
    let shown := (({ u with xlu := { s.xlu with faults := s.xlu.faults.map resolve } }).put Fld.XLU_FQ_STATUS_LAST_RESUME q stOK).showFaults f.ctx
    let back := f.waiters.map fun (m : Miss) => { m with held := false, again := true, queue := q.val }
    let unknown : ErrRec := { cls := 0, status := stDENIED, part := q, block := 0x06, infoKind := 8, info := id }
    let again := { shown with xlu := { shown.xlu with misses := shown.xlu.misses ++ back } }
    (f.st = 0 →
      exec (.fqResumeAbort src q id) s = .next ((f.waiters.foldl (fun s (m : Miss) => s.endWork m stABORTED) shown).regAnswer stOK 0) ∧
      exec (.fqResumeRetry src q id) s = .next ((if s.err.coxHalted then again else again.walkAll none back).regAnswer stOK 0)) ∧
    (f.st = 2 →
      exec (.fqResumeAbort src q id) s = .next ((u.put Fld.XLU_FQ_STATUS_LAST_RESUME q stABORTED).regAnswer stOK 0) ∧
      exec (.fqResumeRetry src q id) s = .next ((u.put Fld.XLU_FQ_STATUS_LAST_RESUME q stABORTED).regAnswer stOK 0)) ∧
    (f.st = 1 →
      let left := if (Tbl.get 0 s.xlu.nextId q + 65536 - id) % 65536 ≤ 1024 then u.put Fld.XLU_FQ_STATUS_LAST_RESUME q stDUPLICATE
        else (u.put Fld.XLU_FQ_STATUS_LAST_RESUME q stDENIED).record unknown
      exec (.fqResumeAbort src q id) s = .next (left.regAnswer stOK 0) ∧ exec (.fqResumeRetry src q id) s = .next (left.regAnswer stOK 0))

/-- R214, R186, R189 and R190's new check. States: 1 IDLE, 3 QUARANTINED (Table 5.16). -/
def Obligations.ContextStateWritesFollowItsState : Prop :=
  ∀ (src : RegSrc) (c : Fin 256) (v : Word) (s : State),
    (s.start.reaches src (0x06100C + c.val * 0x10) = true →
      exec (.ctxRelease src c.val) s = .next ((
        if s.get Fld.XLU_CTX_STATE_STATE c = 3 then (s.start.heal (0x06100C + c.val * 0x10)).put Fld.XLU_CTX_STATE_STATE c 1
        else s.start.heal (0x06100C + c.val * 0x10)).regAnswer stOK 0)) ∧
    (s.start.reaches src (0x061000 + c.val * 0x10) = true →
      let u := s.start.heal (0x061000 + c.val * 0x10)
      let asked := bits v.toNat 24 16
      let cnt := if Fld.XLU_CTX_CFG_COUNT.inRange asked = true ∧ (bits v.toNat 1 0 = 1 → asked ≤ 8) then asked else s.get Fld.XLU_CTX_CFG_COUNT c
      let refused := fun (st : Nat) => ({ cls := 0, status := st, part := s.get Fld.XLU_CTX_CFG_PART c, block := 0x06, infoKind := 3, info := 0x061000 + c.val * 0x10, ctx := some c.val } : ErrRec)
      exec (.xluCtxCfgWrite src c.val v) s = .next ((
        if bits v.toNat 1 0 = s.get Fld.XLU_CTX_CFG_FORMAT c ∧ cnt = s.get Fld.XLU_CTX_CFG_COUNT c then u
        else if s.get Fld.XLU_CTX_STATE_STATE c = 1 then
          let again := { u with xlu := { s.xlu with segOk := NatSet.del s.xlu.segOk c } }
          if bits v.toNat 1 0 = 1 ∧ s.s2On (s.ctxPart c) = true then (again.put Fld.XLU_CTX_CFG_COUNT c cnt).record (refused stDENIED)
          else (again.put Fld.XLU_CTX_CFG_COUNT c cnt).put Fld.XLU_CTX_CFG_FORMAT c (bits v.toNat 1 0)
        else u.record (refused stBUSY)).regAnswer stOK 0))

/-- R216, R217 and R219, for INV_CONTEXT, INV_RANGE, INV_PARTITION and INV_STAGE2. The broadcast of a halted Cox waits (R618). -/
def Obligations.InvalidateTakesAPlaceAndDropsItsTranslations : Prop :=
  ∀ (src : RegSrc) (q : Fin 8) (x : Nat) (i : Instr) (kind ctx : Nat) (s : State),
    (i, kind, ctx) ∈ [(Instr.invContext src q x, 0, x % 256), (Instr.invRange src q x, 1, x % 256), (Instr.invPartition src q, 2, 0), (Instr.invStage2 src q, 3, 0)] →
    s.start.reaches src (0x060130 + q.val * 0x80) = true →
    let u := s.start.heal (0x060130 + q.val * 0x80)
    let l := Tbl.get [] s.xlu.inv q
    let c : InvCmd := { seq := (Tbl.get 0 s.xlu.invSeq q + 1) % 65536, kind := kind, ctx := ctx, addr := s.get Fld.XLU_INV_ADDR_ADDR q * 4096, len := s.get Fld.XLU_INV_LEN_LEN q, sent := !s.err.coxHalted }
    let ok := u.invOk q c (s.start.regWho src).view.isNone
    let taken := (({ u with xlu := { s.xlu with inv := Tbl.set [] s.xlu.inv q (l ++ [c]), invSeq := Tbl.set 0 s.xlu.invSeq q c.seq } }).put
      Fld.XLU_INV_STATUS_LAST_STATUS q stOK).put Fld.XLU_INV_STATUS_PENDING q (l.length + 1)
    (ok = false → exec i s = .next ((u.put Fld.XLU_INV_STATUS_LAST_STATUS q stDENIED).regAnswer stOK 0)) ∧
    (ok = true → 8 ≤ l.length → exec i s = .next ((u.put Fld.XLU_INV_STATUS_LAST_STATUS q stBUSY).regAnswer stOK 0)) ∧
    (ok = true → l.length < 8 → s.err.coxHalted = true → exec i s = .next (taken.regAnswer stOK 0)) ∧
    (ok = true → l.length < 8 → s.err.coxHalted = false →
      ∃ t : State, exec i s = .next t ∧ t = { (taken.markInFlight q c) with xlu := t.xlu, out := [.ctlInvalidate q kind ctx, .regAnswer stOK 0] } ∧
        t.xlu.inv = taken.xlu.inv ∧ t.xlu.invSeq = taken.xlu.invSeq ∧ t.xlu.misses = s.xlu.misses ∧ t.xlu.faults = s.xlu.faults ∧
        (∀ n e, e ∈ t.tlbEntries n → s.invHits q c e = false) ∧ (∀ n e, e ∈ t.tlbEntries n → e ∈ s.tlbEntries n))

/-- R179 and R201 to R204 for TLB_MISS and WALK_COMPLETE. A request of a caching agent or another unit is answered by the output alone; a task or a Slide engine goes on by R210 and R266. -/
def Obligations.MissesStallOrAreFilled : Prop :=
  (∀ (xlu : Fin 17) (ctx va : Nat) (kind : Access) (e : Fin 72) (s : State), physEngine e = true →
    exec (.tlbMiss xlu ctx va kind (.slide e)) s = .next (s.start.emit (.filled (.slide e) va va))) ∧
  (∀ (xlu : Fin 17) (ctx va pa : Nat) (kind : Access) (w : Work) (s : State), (∀ e, w = .slide e → physEngine e = false) → s.tlbHit xlu ctx va kind = some pa →
    exec (.tlbMiss xlu ctx va kind w) s = .next (s.start.emit (.filled w va pa))) ∧
  (∀ (xlu : Fin 17) (ctx va : Nat) (kind : Access) (w : Work) (s : State), (∀ e, w = .slide e → physEngine e = false) → s.tlbHit xlu ctx va kind = none →
    (s.xlu.misses.filter fun (m : Miss) => m.xlu = xlu.val && !m.again).length < 8 →
    (s.xlu.misses.any fun (m : Miss) => m.ctx = ctx && m.work = w && m.va / 4096 = va / 4096) = false →
    ∃ t : State, exec (.tlbMiss xlu ctx va kind w) s = .next t ∧
      t = { s.start with flds := t.flds, xlu := { s.xlu with misses := s.xlu.misses ++ [{ xlu := xlu, ctx := ctx, va := va, kind := kind, work := w, at_ := s.now, tid := s.missTask w }] }, out := [.missRequest xlu ctx va] }) ∧
  (∀ (ctx va : Nat) (m : Miss) (c : Piece) (s : State), s.err.coxHalted = false →
    (s.xlu.misses.filter fun (m : Miss) => m.ctx = ctx && m.va / 4096 = va / 4096 && !m.held) = [m] →
    (∀ n, m.work ≠ .task n) → (∀ e, m.work ≠ .slide e) → (s.start.noteSegOk m.ctx).walk m.ctx m.va m.kind = .ok c → c.merged = false → c.refused = false →
    ∃ t : State, exec (.walkComplete ctx va none .clean) s = .next t ∧
      t = { s.start with flds := t.flds, xlu := t.xlu, free := t.free, out := [.filled m.work m.va (c.pa + (m.va - c.va))] } ∧
      t.xlu.misses = (s.xlu.misses.filter fun x => !([m].contains x)) ∧ t.xlu.faults = s.xlu.faults ∧
      t.get Fld.XLU_MISS_CNT_CNT 0 = satAdd 32 (s.get Fld.XLU_MISS_CNT_CNT 0) 1)

/-- R213, R217, R219 and R225, for FAULT_HOLD_TIMEOUT, INVALIDATE_COMPLETE and MISS_TIMEOUT. -/
def Obligations.LimitsOfTranslation : Prop :=
  (∀ (ctx : Nat) (s : State), s.err.coxHalted = false → (s.xlu.misses.any fun (m : Miss) => m.held && m.ctx = ctx) = true →
    exec (.faultHoldTimeout ctx) s = .next (s.start.quarantine ctx)) ∧
  (∀ (q : Fin 8) (c : InvCmd) (l : List InvCmd) (s : State), s.err.coxHalted = false → Tbl.get [] s.xlu.inv q = c :: l → c.sent = true → s.invWaits q c.seq = false →
    exec (.invalidateComplete q) s = .next ((({ s.start with xlu := { s.xlu with inv := Tbl.set [] s.xlu.inv q l } }).put
      Fld.XLU_INV_STATUS_DONE_SEQ q c.seq).put Fld.XLU_INV_STATUS_PENDING q l.length)) ∧
  (∀ (xlu : Fin 17) (ctx va : Nat) (m : Miss) (s : State), s.err.coxHalted = false →
    (s.xlu.misses.find? fun (m : Miss) => m.xlu = xlu.val && m.ctx = ctx && m.va = va && !m.held && !m.faulted) = some m →
    exec (.missTimeout xlu ctx va) s = .next (((s.start.dropMisses [m]).record { cls := 1, status := stTIMEOUT, unit := xluUnit m.xlu, block := 0x06, infoKind := 2, ctx := some ctx, info := va }).endWork m stTIMEOUT))

/-- R140, R141 and Table 4.3 for READ_SHARED, READ_OWN, UPGRADE, READ_ONCE and WRITE_LINE. Only register counters, the coherence state and the answer change, and memory for WRITE_LINE. AFTER_GRANT means a grant in flight (DESIGN CHOICE, log entry 105). -/
def Obligations.HomeServesAnUnheldLine : Prop :=
  ∀ (tag : Tag) (g : Fin 19) (src : Work) (a : Addr) (st : Store) (tk : Option Nat) (fab : FabEv) (s : State), a % 64 = 0 → fab.header ≠ 2 →
    let l := lineOf a
    let u := s.start.fabric fab
    let m := u.poisonMask a
    let done := fun (t u : State) => t = { u with flds := t.flds, coh := t.coh, out := t.out } ∧ t.busyLine l = none
    (u.homeReady tag false a = true → u.dirLine l = {} →
      (∃ t : State, exec (.readShared tag g a tk .clean fab) s = .next t ∧ done t u ∧ t.dirLine l = { x := true, vec := 2 ^ g.val } ∧
        t.out = [.data (.agent g) a (dataStatus m) (u.rdBytes a 64) m .e]) ∧
      (∃ t : State, exec (.readOnce tag src a tk .clean fab) s = .next t ∧ done t u ∧ t.dirLine l = {} ∧
        t.out = [.data src a (dataStatus m) (u.rdBytes a 64) m .none])) ∧
    (u.homeReady tag true a = true → u.dirLine l = {} →
      (∃ t : State, exec (.readOwn tag g a st tk .clean fab) s = .next t ∧ done t u ∧ t.dirLine l = { x := true, vec := 2 ^ g.val } ∧
        t.out = [.data (.agent g) a (dataStatus m) (u.rdBytes a 64) m .m]) ∧
      (∃ t : State, exec (.upgrade tag g a st tk .clean fab) s = .next t ∧ done t u ∧ t.dirLine l = { x := true, vec := 2 ^ g.val } ∧
        t.out = [.data (.agent g) a (dataStatus m) (u.rdBytes a 64) m .m]) ∧
      (∃ t : State, exec (.writeLine tag src a st tk .clean fab) s = .next t ∧
        done t (u.wrLine a st.mask.toNat st.bytes st.poison.toNat) ∧ t.dirLine l = {} ∧ t.out = [.ack src a stOK []])) ∧
    (u.homeReady tag true a = true → u.dirLine l = { x := false, vec := 2 ^ g.val } →
      (∃ t : State, exec (.upgrade tag g a st tk .clean fab) s = .next t ∧ done t u ∧ t.dirLine l = { x := true, vec := 2 ^ g.val } ∧
        t.out = [.ack (.agent g) a stOK []])) ∧
    (u.homeReady tag true a = true → (u.dirLine l).holders ≠ [] → bit (u.dirLine l).vec g = false →
      (∃ (t : State) (b : Busy), exec (.readOwn tag g a st tk .clean fab) s = .next t ∧ t = { u with flds := t.flds, coh := t.coh, out := t.out } ∧
        t.busyLine l = some b ∧ b.await = (u.dirLine l).holders ∧ b.evict = [] ∧ b.waiters = [] ∧ t.dirLine l = u.dirLine l ∧
        t.out = (u.dirLine l).holders.map fun q => Out.snoop true q a (u.afterGrant l q)))

/-- R153, R154 and Table 4.7, for ATOMIC_FETCH_ADD to ATOMIC_MAX_U. The stored word is at the atomic's address and is 4 bytes wide, or 8 for a wide operand. -/
def Obligations.AtomicsReturnTheOldValue : Prop :=
  ∀ (tag : Tag) (src : Work) (a : Addr) (x : AtomicArgs) (tk : Option Nat) (op : Nat) (i : Instr) (s : State), x.fab.header ≠ 2 →
    (op, i) ∈ [(0, Instr.atomicFetchAdd tag src a x tk), (1, Instr.atomicSwap tag src a x tk), (2, Instr.atomicCompareSwap tag src a x tk),
      (3, Instr.atomicMinS tag src a x tk), (4, Instr.atomicMaxS tag src a x tk), (5, Instr.atomicMinU tag src a x tk), (6, Instr.atomicMaxU tag src a x tk)] →
    let n := if x.wide then 8 else 4
    let w := 8 * n
    let u := s.start.fabric x.fab
    let old := u.rdNat a n
    let o := x.operand.toNat % 2 ^ w
    (x.badCode = false → x.ecc = .clean → a % n = 0 → u.homeReady tag true a = true → u.dirLine (lineOf a) = {} → u.poisoned a = false →
      ∃ (new : Nat) (t : State), exec i s = .next t ∧ t = { (u.wrNat a n new) with flds := t.flds, coh := t.coh, out := [.data src a stOK (leBytes n old) 0 .none] } ∧
        t.dirLine (lineOf a) = {} ∧ (∀ b, localOff b < localOff a ∨ localOff a + n ≤ localOff b → t.rdByte b = s.rdByte b) ∧
        (op = 0 → new = (old + o) % 2 ^ w) ∧ (op = 1 → new = o) ∧ (op = 2 → new = if old = x.compare.toNat % 2 ^ w then o else old) ∧
        (op = 3 → toInt w new = min (toInt w old) (toInt w o)) ∧ (op = 4 → toInt w new = max (toInt w old) (toInt w o)) ∧
        (op = 5 → new = min old o) ∧ (op = 6 → new = max old o)) ∧
    (tk = none → u.mustWait tag true = false → x.badCode = true ∨ a % n ≠ 0 → exec i s = .next (u.emit (.ack src a stDENIED [])))

/-- R169. -/
def Obligations.PoisonedWordsStopAtomicsAndAreClearedByWholeWrites : Prop :=
  (∀ (tag : Tag) (src : Work) (a : Addr) (x : AtomicArgs) (tk : Option Nat) (i : Instr) (s : State), x.fab.header ≠ 2 →
    i ∈ [Instr.atomicFetchAdd tag src a x tk, Instr.atomicSwap tag src a x tk, Instr.atomicCompareSwap tag src a x tk,
      Instr.atomicMinS tag src a x tk, Instr.atomicMaxS tag src a x tk, Instr.atomicMinU tag src a x tk, Instr.atomicMaxU tag src a x tk] →
    let u := s.start.fabric x.fab
    x.badCode = false → x.ecc = .clean → a % (if x.wide then 8 else 4) = 0 → u.homeReady tag true a = true → u.dirLine (lineOf a) = {} → u.poisoned a = true →
    ∃ t : State, exec i s = .next t ∧ t = { u with flds := t.flds, coh := t.coh, out := [.data src a stPOISONED [] 0 .none] }) ∧
  (∀ (tag : Tag) (src : Work) (a : Addr) (st : Store) (tk : Option Nat) (e : Ecc) (fab : FabEv) (k : Fin 8) (s : State), a % 64 = 0 → fab.header ≠ 2 → (∀ v, e ≠ .directory v) →
    let u := s.start.fabric fab
    u.homeReady tag true a = true → u.dirLine (lineOf a) = {} → st.mask.toNat / 2 ^ (8 * k.val) % 256 = 255 → bit st.poison.toNat k = false →
    ∃ t : State, exec (.writeLine tag src a st tk e fab) s = .next t ∧ t.poisoned (a + 8 * k.val) = false)

/-- R116, R133, R144, R145, R165 to R167 and Table 4.4 for SNOOP_SHARE and SNOOP_INV. -/
def Obligations.CachesAnswerSnoops : Prop :=
  ∀ (g : Fin 19) (a : Addr) (after ev inv : Bool) (e : Ecc) (fab : FabEv) (i : Instr) (s : State), fab.header ≠ 2 →
    (inv, i) ∈ [(true, Instr.snoopInv g a after ev e fab), (false, Instr.snoopShare g a after ev e fab)] →
    let l := lineOf a
    let u := s.start.fabric fab
    let away := u.unitDown (agentUnit g) = true ∨ (u.domOn 56 = false ∧ crossesSeam (regionUnit (u.region a)) (agentUnit g) = true)
    let hold := after = true ∧ u.afterGrant l g = true ∧ (u.pendOf g l).isSome = true
    (away → exec i s = .next (u.emit (.snoopMiss g a))) ∧
    (¬ away → hold → exec i s = .next { u with coh := { u.coh with held := Tbl.set none u.coh.held (cacheKey g l) (some inv) } }) ∧
    (¬ away → ¬ hold → ev = true → exec i s = .next ((u.leave g l).emit (.snoopMiss g a))) ∧
    (¬ away → ¬ hold → ev = false → u.copy g l = none → exec i s = .next (u.emit (.snoopMiss g a))) ∧
    (∀ c, ¬ away → ¬ hold → ev = false → u.copy g l = some c →
      let r := u.readCopy a c e
      let v := r.2.setCopy g l (if inv then none else some { r.1 with st := .s })
      let w := v.setFlight g l (some r.1)
      (c.st = .m → exec i s = .next ((w.seamBytes (agentUnit g) (regionUnit (v.region a)) 64).emit (.snoopData g a r.1.bytes r.1.poison))) ∧
      (c.st ≠ .m → exec i s = .next (v.emit (.snoopAck g a))) ∧
      (e = .clean → r = (c, u)) ∧ (e = .corrected → r = (c, u.bump Fld.MEM_CE_CNT_CNT 0 1)) ∧
      (∀ m, e = .uncorrectable m → m ≠ 0 → c.st = .m → r = ({ c with poison := Nat.lor c.poison m.toNat }, u.ueRecord a 2 m.toNat)))

/-- R141, R143, R151 and Tables 4.3 and 4.5, for SNOOP_MISS, and for ACK and DATA that answer a snoop. R123, R139, R145, R247 and R553, for DATA and ACK that answer a caching agent's request. `settle` serves what waited for its context's order, `monitorGo` a command frame held behind a debug access. -/
def Obligations.SnoopAnswersAreCollectedAndGrantsTaken : Prop :=
  (
  ∀ (g : Fin 19) (a : Addr) (b : Busy) (d : Store) (gr : Grant) (st ep : Nat) (fab : FabEv) (s : State), fab.header ≠ 2 →
    let l := lineOf a
    let u := s.start.fabric fab
    u.busyLine l = some b → b.await.contains g.val = true →
    let rest := b.await.filter (· ≠ g.val)
    let evict := if bit (u.dirLine l).vec g then b.evict ++ [g.val] else b.evict
    let left := if b.cur.snoopInv then (u.dirLine l).drop g else { u.dirLine l with x := false }
    let taken := ((u.sink g l (2 ^ 64 - 1) d.bytes d.poison.toNat).setFlight g l none).setOver g l 0
    (rest ≠ [] ∨ evict ≠ [] →
      exec (.snoopMiss g a fab) s = .next (((u.setGranted l g false).setDir l (u.dirLine l)).setBusy l (some { b with await := rest, evict := evict })).settle) ∧
    (rest ≠ [] ∨ b.evict ≠ [] →
      exec (.ack (.home g) a st ep fab) s =
        .next (((u.setGranted l g false).setDir l left).setBusy l (some { b with await := rest, evict := b.evict })).monitorGo.settle ∧
      exec (.data (.home g) a d gr ep fab) s =
        .next (((taken.setGranted l g false).setDir l left).setBusy l (some { b with await := rest, evict := b.evict })).monitorGo.settle)) ∧
  (
  ∀ (g : Fin 19) (a : Addr) (d : Store) (gr : Grant) (w : Option Pend) (st ep : Nat) (fab : FabEv) (s : State), fab.header ≠ 2 →
    let l := lineOf a
    let u := s.start.fabric fab
    let k := cacheKey g l
    u.pendOf g l = w →
    let merged := fun (c : CacheLine) => match w with
      | some p => if c.st = .m then (⟨c.st, mergeBytes p.store.mask.toNat c.bytes p.store.bytes, mergePoison p.store.mask.toNat c.poison p.store.poison.toNat⟩ : CacheLine) else c
      | none => c
    let put := fun (c : CacheLine) =>
      let v := (((u.setCopy g l (some (merged c))).setPend g l none).setOver g l 0).setGranted l g false
      let v : State := { v with coh := { v.coh with held := Tbl.set none v.coh.held k none } }
      match Tbl.get none u.coh.held k with
      | some inv => v.answerSnoop inv g a .clean
      | none => v
    let now := fun (bytes : List Byte) (poison : Nat) => u.current g l bytes poison
    (ep = u.epoch (agentUnit g) →
      (gr ≠ .none → exec (.data (.requester (.agent g)) a d gr ep fab) s =
        .next (put ⟨gr, (now d.bytes d.poison.toNat).1, (now d.bytes d.poison.toNat).2⟩).monitorGo.settle) ∧
      (∀ c, u.copy g l = some c → exec (.ack (.requester (.agent g)) a stOK ep fab) s =
        .next (put ⟨.m, (now c.bytes c.poison).1, (now c.bytes c.poison).2⟩).monitorGo.settle) ∧
      (st ≠ stOK → w.isSome = true → exec (.ack (.requester (.agent g)) a st ep fab) s = .next ((u.setPend g l none).agentError g st).monitorGo.settle)) ∧
    (ep ≠ u.epoch (agentUnit g) →
      exec (.data (.requester (.agent g)) a d gr ep fab) s = .next (u.bump Fld.ERR_STALE_RSP_CNT_CNT 0 1).monitorGo.settle ∧
      exec (.ack (.requester (.agent g)) a st ep fab) s = .next (u.bump Fld.ERR_STALE_RSP_CNT_CNT 0 1).monitorGo.settle))

/-- R133, R137, R141, R143, R166, R182 and R553, for EVICT_NOTICE and WRITE_BACK. R148 to R150 for RETRY, RETRY_REISSUE and TICKET_RESERVATION_EXPIRY. -/
def Obligations.EvictionsAndRetriesAreServed : Prop :=
  (
  ∀ (tag : Tag) (g : Fin 19) (a : Addr) (d : Store) (ue : BitVec 8) (fab : FabEv) (s : State), fab.header ≠ 2 →
    let l := lineOf a
    let u := s.start.fabric fab
    let opened := u.domOn 56 = true ∨ crossesSeam tag.unit (regionUnit (u.region a)) = false
    let again : HomeReq := { kind := .readShared, tag := tag, src := .agent g, addr := a / 64 * 64 }
    let v := if ue = 0 then u else u.ueRecord (a / 64 * 64) 2 ue.toNat
    let written := (v.seamBytes tag.unit (regionUnit (v.region a)) 64).sink g l d.mask.toNat d.bytes (Nat.lor d.poison.toNat ue.toNat)
    (opened → tag.epoch = u.knownEpoch tag.unit →
      ((∀ c, u.copy g l = some c → c.st ≠ .m) →
        exec (.evictNotice tag g a false fab) s = .next (u.evicted g l).settle ∧
        exec (.evictNotice tag g a true fab) s = .next (((u.evicted g l).bump Fld.MEM_CE_CNT_CNT 0 1).request again none).settle) ∧
      (∀ c b, u.copy g l = some c → c.st = .m → exec (.evictNotice tag g a b fab) s = .next u.settle) ∧
      (bit (u.dirLine l).vec g = true → v.liningOk tag true a = true → exec (.writeBack tag g a d ue fab) s = .next (written.evicted g l).settle) ∧
      (bit (u.dirLine l).vec g = true → v.liningOk tag true a = false →
        exec (.writeBack tag g a d ue fab) s = .next ((((v.liningFail tag a).emit (.ack (.agent g) a stDENIED [])).evicted g l).settle)) ∧
      (bit (u.dirLine l).vec g = false → exec (.writeBack tag g a d ue fab) s = .next u.settle)) ∧
    (opened → tag.epoch ≠ u.knownEpoch tag.unit → ∀ b,
      exec (.evictNotice tag g a b fab) s = .next ((u.bump Fld.ERR_STALE_REQ_CNT_CNT 0 1).emit (.ack (.agent g) a stSTALE [])).settle ∧
      exec (.writeBack tag g a d ue fab) s = .next ((u.bump Fld.ERR_STALE_REQ_CNT_CNT 0 1).emit (.ack (.agent g) a stSTALE [])).settle)) ∧
  (∀ (g l : Nat) (u : State), u.busyLine l = none →
    let t := u.evicted g l
    t = { u with coh := t.coh } ∧ t.dirLine l = (u.dirLine l).drop g ∧ t.copy g l = none ∧ (∀ k, k ≠ l → t.dirLine k = u.dirLine k)) ∧
  (
  (∀ (src : Work) (a : Addr) (tk : Nat) (fab : FabEv) (s : State), fab.header ≠ 2 →
    let u := s.start.fabric fab
    (∀ r, (u.coh.turned.find? fun r => r.isOf src a) = some r →
      exec (.retry src a tk fab) s = .next { u with coh := { u.coh with turned := u.coh.turned.erase r, retries := u.coh.retries ++ [(r, tk)] } }) ∧
    ((u.coh.turned.find? fun r => r.isOf src a) = none → exec (.retry src a tk fab) s = .next u)) ∧
  (∀ (src : Work) (a : Addr) (r : HomeReq × Nat) (s : State), (s.coh.retries.find? fun r => r.1.isOf src a) = some r →
    exec (.retryReissue src a) s =
      .next ((({ s.start with coh := { s.coh with retries := s.coh.retries.erase r } }).emit (.reissue src a r.2)).issue r.1 (some r.2)).settle) ∧
  (∀ (a : Addr) (u : Nat × Nat × Nat × Bool) (s : State), (s.coh.reserved.find? fun u => u.2.2.1 = lineOf a) = some u →
    exec (.ticketReservationExpiry a) s = .next (({ s.start with coh := { s.coh with reserved := s.coh.reserved.erase u, unserved := s.coh.unserved.erase u } }).reserve
      u.1 (lineOf a) u.2.2.2)))

/-- R123, R159, R160, R177, R309 and Table 4.9 for LOCK_ACQUIRE, LOCK_TRY_ACQUIRE and LOCK_INSPECT. States: 0 Free, 1 Held, 2 Orphaned. -/
def Obligations.LocksAreAcquiredAndInspected : Prop :=
  ∀ (t : Tag) (op : LockArgs) (s : State), op.ecc = 0 → op.fab.header ≠ 2 →
    let i := op.lockId.toNat
    let v := s.start.fabric op.fab
    v.mustWait t false = false → v.waitsWake t.unit (0x10 + lockPocket (i % 8192)) = none → v.lockGate t op = none →
    let u := v.seamBytes t.unit (0x10 + lockPocket i) 64
    let l := u.lock i
    let owned := u.setLock i { l with st := 1, owner := t }
    (l.st = 0 →
      exec (.lockAcquire t op) s = .next (owned.emit (.lockAck t i stOK false 0)) ∧ exec (.lockTryAcquire t op) s = .next (owned.emit (.lockAck t i stOK false 0))) ∧
    (l.st = 2 →
      exec (.lockAcquire t op) s = .next (owned.emit (.lockAck t i stORPHAN false 0)) ∧ exec (.lockTryAcquire t op) s = .next (owned.emit (.lockAck t i stORPHAN false 0))) ∧
    (l.st = 1 → l.ownedBy t = true →
      exec (.lockAcquire t op) s = .next ((u.bump Fld.LOCK_DENIED_CNT_CNT 0 1).emit (.lockAck t i stDENIED false 0)) ∧
      exec (.lockTryAcquire t op) s = .next ((u.bump Fld.LOCK_DENIED_CNT_CNT 0 1).emit (.lockAck t i stDENIED false 0))) ∧
    (l.st = 1 → l.ownedBy t = false → l.queue.length < 16 →
      exec (.lockAcquire t op) s = .next ((u.setLock i { l with queue := l.queue ++ [(t, u.waitUntil op.waitMs.toNat)] }).emit (.lockAck t i stOK true 0))) ∧
    (l.st = 1 → l.ownedBy t = false → 16 ≤ l.queue.length →
      exec (.lockAcquire t op) s = .next ((u.bump Fld.LOCK_BUSY_CNT_CNT 0 1).emit (.lockAck t i stBUSY false 0))) ∧
    (l.st = 1 → l.ownedBy t = false →
      exec (.lockTryAcquire t op) s = .next ((u.bump Fld.LOCK_BUSY_CNT_CNT 0 1).emit (.lockAck t i stBUSY false 0))) ∧
    exec (.lockInspect t op) s = .next (u.emit (.lockAck t i stOK false l.layout))

/-- R123, R159, R160, R163, R553 and Table 4.9 for LOCK_RELEASE, LOCK_WAIT_TIMEOUT and LOCK_GRANT. R157, in the form the model's gate applies it (`State.lockGate`); the record names unit and context. -/
def Obligations.LocksAreReleasedToTheFirstWaiter : Prop :=
  (
  (∀ (t : Tag) (op : LockArgs) (s : State), op.ecc = 0 → op.fab.header ≠ 2 →
    let i := op.lockId.toNat
    let v := s.start.fabric op.fab
    (v.mustWait t true = true → exec (.lockRelease t op) s = .next (v.holdOp t (.lock 2 op))) ∧
    (v.mustWait t true = false → v.waitsWake t.unit (0x10 + lockPocket (i % 8192)) = none → v.lockGate t op = none →
      let u := v.seamBytes t.unit (0x10 + lockPocket i) 64
      let l := u.lock i
      let said := u.emit (.lockAck t i stOK false 0)
      (l.st = 1 → l.ownedBy t = true → l.queue = [] →
        exec (.lockRelease t op) s = .next (said.setLock i { l with st := 0, owner := ⟨0, 0, 0, 0, false⟩ })) ∧
      (∀ w d q, l.st = 1 → l.ownedBy t = true → l.queue = (w, d) :: q →
        exec (.lockRelease t op) s = .next ((said.setLock i { st := 1, owner := w, queue := q }).emit (.lockGrant w i stOK))) ∧
      (l.st ≠ 1 ∨ l.ownedBy t = false →
        exec (.lockRelease t op) s = .next ((u.bump Fld.LOCK_DENIED_CNT_CNT 0 1).emit (.lockAck t i stDENIED false 0))))) ∧
  (∀ (t : Tag) (i : Nat) (q : Tag × Nat) (s : State), ((s.lock i).queue.find? fun q => q.1 = t) = some q →
    exec (.lockWaitTimeout t i) s = .next (((s.start.setLock i { s.lock i with queue := (s.lock i).queue.erase q }).bump Fld.LOCK_TIMEOUT_CNT_CNT 0 1).emit (.lockGrant t i stTIMEOUT))) ∧
  (∀ (t : Tag) (i st : Nat) (fab : FabEv) (s : State), fab.header ≠ 2 →
    let u := s.start.fabric fab
    (t.epoch = u.epoch t.unit → exec (.lockGrant t i st fab) s = .next (u.emit (.note i st))) ∧
    (t.epoch ≠ u.epoch t.unit → exec (.lockGrant t i st fab) s = .next (u.bump Fld.ERR_STALE_RSP_CNT_CNT 0 1)))) ∧
  (
  ∀ (t : Tag) (op : LockArgs) (i : Instr) (s : State), op.ecc = 0 → op.fab.header ≠ 2 →
    i ∈ [Instr.lockAcquire t op, Instr.lockTryAcquire t op, Instr.lockRelease t op, Instr.lockInspect t op] →
    let id := op.lockId.toNat
    let p := 0x10 + lockPocket id
    let u := s.start.fabric op.fab
    id < 8192 → op.code ≤ 3 → op.reservedZero = true → t.part < 8 → u.unitDown p = false → u.domOn 56 = true → u.fenced p = false → t.epoch = u.knownEpoch t.unit →
    u.mustWait t true = false → u.waitsWake t.unit p = none →
    (u.get Fld.LOCK_PART_ENABLE (id / 256) = 0 ∨ (t.sys = false ∧ u.get Fld.LOCK_PART_PART (id / 256) ≠ t.part)) →
    exec i s = .next (((u.bump Fld.LOCK_DENIED_CNT_CNT 0 1).record { cls := 1, status := stDENIED, unit := t.unit, part := t.part, block := 0x05, ctx := some t.ctx }).emit
      (.lockAck t id stDENIED false 0)))

/-- R161, for CONTEXT_FAULT_NOTICE. An Orphaned lock with a remaining waiter passes on by R162. -/
def Obligations.ContextFaultOrphansTheContextsLocks : Prop :=
  ∀ (ctx : Nat) (fab : FabEv) (s : State), fab.header ≠ 2 → ∃ t : State, exec (.contextFaultNotice ctx fab) s = .next t ∧
    t = { s.start with locks := t.locks, flds := t.flds, out := t.out } ∧
    (∀ i, (s.lock i).st = 1 → (s.lock i).owner.ctx = ctx → ((s.lock i).queue.filter fun q => decide (q.1.ctx ≠ ctx)) = [] →
      t.lock i = { st := 2, owner := (s.lock i).owner, queue := [] }) ∧
    (∀ i, ((s.lock i).st ≠ 1 ∨ (s.lock i).owner.ctx ≠ ctx) →
      t.lock i = { s.lock i with queue := (s.lock i).queue.filter fun q => decide (q.1.ctx ≠ ctx) })

/-- R114, R161, R165, R167, R170 to R172 and R553, for EPOCH_BROADCAST and PATROL_SCRUB. R93, R129, R130, R131, R570, R585 and R626, for REPLICA_RATE_REFRESH, CHANNEL_STALL, REQUEST_TIMEOUT and the slot headers. A stall while the Cox is halted is dropped (DESIGN CHOICE, log entry 107). -/
def Obligations.EpochsMemoryErrorsAndFabricEventsAreKept : Prop :=
  (
  (∀ (n e lat : Nat) (fab : FabEv) (s : State), fab.header ≠ 2 →
    let u := s.start.fabric fab
    let known : State := { u with err := { u.err with known := Tbl.set 1 u.err.known n e } }
    let freed := ((known.raise Fld.FAB_CTL_LAT_MAX_VALUE 0 lat).orphanAll fun t => t.unit = n && t.epoch ≠ e).dropHeld n e
    let dropped := if unitAgent n < 19 then freed.dropAgent (unitAgent n) else freed
    exec (.epochBroadcast n e lat fab) s = .next (if n < 16 then dropped.xluReset n else if n = 0x44 then dropped.xluReset 16 else dropped).settle ∧
    known.knownEpoch n = e ∧ (∀ x, x ≠ n → known.knownEpoch x = s.knownEpoch x)) ∧
  (∀ (a : Addr) (m : BitVec 8) (s : State), (s.region a).cacheable = true → s.unitDown (regionUnit (s.region a)) = false →
    let l := a / 64 * 64
    exec (.patrolScrub a .clean) s = .next s.start ∧
    exec (.patrolScrub a .corrected) s = .next (s.start.bump Fld.MEM_CE_CNT_CNT 0 1) ∧
    (((List.range 8).any fun i => bit m.toNat i && !s.poisoned (l + 8 * i)) = true →
      exec (.patrolScrub a (.uncorrectable m)) s =
        .next (((s.start.poisonWords l m.toNat).ueRecord l (errSource (s.region l)) m.toNat).pairError l)) ∧
    (((List.range 8).any fun i => bit m.toNat i && !s.poisoned (l + 8 * i)) = false → exec (.patrolScrub a (.uncorrectable m)) s = .next s.start))) ∧
  (
  (∀ (w e : BitVec 16) (s : State), exec (.replicaRateRefresh w e) s = .next ((s.start.put Fld.FAB_SPEED_W_RATE 0 w.toNat).put Fld.FAB_SPEED_E_RATE 0 e.toNat) ∧
    ∃ t : State, exec (.replicaRateRefresh w e) s = .next t ∧ t.get Fld.FAB_SPEED_W_RATE 0 = w.toNat ∧ t.get Fld.FAB_SPEED_E_RATE 0 = e.toNat) ∧
  (∀ (ch : Channel) (u : Nat) (s : State), s.err.coxHalted = false → (u ≤ 0x0F → (s.scull u).halted = false ∧ (s.scull u).haltPending = none) →
    let shown := (((((s.start.put Fld.FAB_STALL_LAST_VALID 0 1).put Fld.FAB_STALL_LAST_VC 0 ch.vc).put Fld.FAB_STALL_LAST_COLUMN 0 ch.column).put
      Fld.FAB_STALL_LAST_ROW 0 ch.row).put Fld.FAB_STALL_LAST_PORT 0 ch.port).bump Fld.FAB_STALL_CNT_CNT 0 1
    exec (.channelStall ch u) s = .next (((shown.record { cls := 1, status := stTIMEOUT, unit := u, block := 0x03, infoKind := 10, info := 2 ^ 31 + ch.vc % 8 * 0x10000 + ch.column % 16 * 0x1000 + ch.row % 16 * 0x100 + ch.port % 256 }).silentUnit u).mbAll)) ∧
  (∀ (a : Addr) (s : State),
    let left := fun (w : Work) => (s.start.tagTimeout w a).giveUp w a
    (∀ e : Fin 72, exec (.requestTimeout (.slide e) a) s = .next ((left (.slide e)).burstError e (a / 64) stTIMEOUT).settle) ∧
    (∀ n : Fin 16, exec (.requestTimeout (.task n) a) s = .next ((left (.task n)).taskError n stTIMEOUT).settle) ∧
    (∀ g : Fin 19, exec (.requestTimeout (.agent g) a) s = .next (((left (.agent g)).emit (.stalledEnd (.agent g) a stTIMEOUT)).agentError g stTIMEOUT).settle) ∧
    (exec (.requestTimeout (.unit 0x46) a) s = .next ((left (.unit 0x46)).dbgEnd a stTIMEOUT []).monitorGo.settle) ∧
    (∀ r, (left (.unit 0x45)).ringOfAddr a = some r → exec (.requestTimeout (.unit 0x45) a) s = .next ((left (.unit 0x45)).moveRing r).settle)) ∧
  (∀ (t : Tag) (g : Fin 19) (src : Work) (a : Addr) (st : Store) (tk : Option Nat) (e : Ecc) (x : AtomicArgs) (op : LockArgs) (b1 b2 : Bool) (dst : MsgTo) (gr : Grant)
      (m : BitVec 8) (n1 n2 n3 : Nat) (i : Instr) (fab : FabEv) (s : State), fab.header = 2 → x.fab = fab → op.fab = fab →
    i ∈ [Instr.readShared t g a tk e fab, Instr.readOwn t g a st tk e fab, Instr.upgrade t g a st tk e fab, Instr.readOnce t src a tk e fab,
      Instr.writeLine t src a st tk e fab, Instr.atomicFetchAdd t src a x tk, Instr.atomicSwap t src a x tk, Instr.atomicCompareSwap t src a x tk,
      Instr.atomicMinS t src a x tk, Instr.atomicMaxS t src a x tk, Instr.atomicMinU t src a x tk, Instr.atomicMaxU t src a x tk, Instr.lockAcquire t op,
      Instr.lockTryAcquire t op, Instr.lockRelease t op, Instr.lockInspect t op, Instr.snoopShare g a b1 b2 e fab, Instr.snoopInv g a b1 b2 e fab,
      Instr.snoopMiss g a fab, Instr.evictNotice t g a b1 fab, Instr.writeBack t g a st m fab, Instr.data dst a st gr n1 fab, Instr.ack dst a n1 n2 fab,
      Instr.retry src a n1 fab, Instr.lockGrant t n1 n2 fab, Instr.epochBroadcast n1 n2 n3 fab, Instr.contextFaultNotice n1 fab] →
    exec i s = .next (s.start.fabric fab)))

/-- R123, R124, R202, R230, R231, R238 and R279 for ARRAY_STEP, VECTOR_OP and FENCE. The Scull has no breakpoint in the task's context and no watchpoint; a STEP's count is `State.issuedOp`. -/
def Obligations.OperationsAreIssuedProvisionally : Prop :=
  (∀ (n : Fin 16) (s : State), s.start.issues n = true →
    let x := s.scull n
    (∀ (op : ArrayOp) (c : Nat), stepCost op.aFmt op.wFmt = some c →
      exec (.arrayStep n op) s = .next (((s.start.setScull n { x with open_ := x.open_ ++ [.array op x.active] }).countSteps n c).issuedOp n)) ∧
    (∀ (op : ArrayOp) (k : Nat) (t : Task), stepCost op.aFmt op.wFmt = none → s.running n = some (k, t) →
      exec (.arrayStep n op) s = .next (s.start.attemptEnd k stDENIED)) ∧
    (∀ op : VecOp, s.unwatched n = true →
      exec (.vectorOp n op) s = .next (((s.start.setScull n { x with open_ := x.open_ ++ [.vec op] }).countSteps n (vecCost op)).issuedOp n)) ∧
    (∀ (k : FenceKind) (i : Nat) (t : Task), s.running n = some (i, t) →
      let u := s.start.issuedOp n
      (k = .acquire ∨ u.outstanding (u.taskTag n t) = false → exec (.fence n k) s = .next u) ∧
      (k ≠ .acquire → u.outstanding (u.taskTag n t) = true → exec (.fence n k) s = .next (u.holdOp (u.taskTag n t) (.fence (decide (k = .full)))))) ∧
    (∀ (y : Scull) (c : Nat), y.planes = x.planes → y.acc = x.acc → y.vreg = x.vreg →
      let t := ((s.start.setScull n y).countSteps n c).issuedOp n
      t.mem = s.mem ∧ (t.scull n).planes = x.planes ∧ (t.scull n).acc = x.acc ∧ (t.scull n).vreg = x.vreg ∧
        t.get Fld.SCL_STEPS_CNT n = satAdd 64 (s.get Fld.SCL_STEPS_CNT n) c)) ∧
  (∀ (n : Fin 16) (s : State), s.sclGo n = false → ∀ (op : ArrayOp) (v : VecOp) (k : FenceKind),
    exec (.arrayStep n op) s = .next s.start ∧ exec (.vectorOp n v) s = .next s.start ∧ exec (.fence n k) s = .next s.start)

/-- R168, R228, R229 and R232 for WEIGHT_PLANE_LOAD, PLANE_SWAP and ACCUMULATOR_DRAIN. How a dual plane lies in tile memory is the model's choice (`cellBits`, log entry 113). -/
def Obligations.WeightPlanesAndDrains : Prop :=
  ∀ (n : Fin 16) (s : State), s.start.issues n = true → s.unwatched n = true →
    let x := s.scull n
    (∀ (f : NumFmt) (dual : Bool) (off line : Nat) (ecc : Ecc), (x.open_.any fun o => o.uses (1 - x.active) || o.stores) = false →
      let w := cellBits f dual
      exec (.weightPlaneLoad n f dual off ecc line) s = .next ((s.start.tileEcc n off line ecc).loadPlane n off w) ∧
      (x.active ≤ 1 → ecc = .clean → ∃ t : State, exec (.weightPlaneLoad n f dual off ecc line) s = .next t ∧ t = { s.start with scl := t.scl } ∧
        (t.scull n).active = x.active ∧ (t.scull n).acc = x.acc ∧ (t.scull n).vreg = x.vreg ∧
        (∀ i, i < 65536 → Tbl.get 0 (t.scull n).planes ((1 - x.active) * 65536 + i) = s.weightAt n off w i) ∧
        (∀ i, i < 65536 → NatSet.has (t.scull n).planePoison ((1 - x.active) * 65536 + i) = s.poisoned (tileAt n (off + i * w / 8))) ∧
        (∀ i, i < 65536 → Tbl.get 0 (t.scull n).planes (x.active * 65536 + i) = Tbl.get 0 x.planes (x.active * 65536 + i)))) ∧
    exec (.planeSwap n) s = .next ((s.start.setScull n { x with active := 1 - x.active }).issuedOp n) ∧
    (∀ e r : Fin 32, (x.open_.any fun o => o.into e.val || o.touches r.val) = false → ∃ t : State, exec (.accumulatorDrain n e r) s = .next t ∧
      t = { s.start with scl := t.scl, flds := t.flds, tasks := t.tasks } ∧ (t.scull n).acc = x.acc ∧
      (∀ c, c < 512 → (t.scull n).lane r c = Tbl.get 0 x.acc (e.val * 512 + c)) ∧
      (∀ (q c : Nat), q ≠ r.val → c < 512 → (t.scull n).lane q c = x.lane q c))

/-- R230, R279 to R281 and R289 for CATCH_CHECKER_CLOSE. R277 and R289 for CATCH_WINDOW_END. -/
def Obligations.CheckersConfirmAndTheGovernorRaises : Prop :=
  (
  ∀ (n : Fin 16) (late : Nat) (op : PendOp) (later : List PendOp) (s : State), (s.scull n).open_ = op :: later →
    let counted := (s.start.bump Fld.CATCH_ERR_CNT_CNT n 1).addTenths n (replayTenths (min late 3) (op.dependants later))
    (late = 0 → exec (.catchCheckerClose n late) s = .next ((s.start.confirm n).windowStep n 0)) ∧
    (1 ≤ late → late ≤ 3 → exec (.catchCheckerClose n late) s = .next ((counted.confirm n).windowStep n 1)) ∧
    (4 ≤ late → exec (.catchCheckerClose n late) s = .next ((counted.windowStep n 1).escalate n)) ∧
    op.dependants later ≤ 3 ∧
    (∀ (a : ArrayOp) (p : Nat), op = .array a p → late = 0 → ∃ t : State, exec (.catchCheckerClose n late) s = .next t ∧
      (t.scull n).open_ = later ∧ t.mem = s.mem ∧ (t.scull n).vreg = (s.scull n).vreg ∧
      (∀ c, c < 512 → Tbl.get 0 (t.scull n).acc (a.entry.val * 512 + c) =
        (columnStep a ((List.range 128).map fun row => Tbl.get 0 (s.scull n).planes (p * 65536 + row * 512 + c))
          (Tbl.get 0 (s.scull n).acc (a.entry.val * 512 + c))).1))) ∧
  (
  ∀ (n : Fin 16) (s : State),
    let x := s.scull n
    let len := 2 ^ s.get Fld.CATCH_GOV_CFG_WINDOW_LOG2 0
    let q := if x.windowErrs * 100000 ≤ len then x.quiet + 1 else 0
    let a := s.get Fld.CATCH_STATE_A n
    let mv := dataMv (s.get Fld.CATCH_STATE_VSO_MV n) (a + 1)
    len ≤ x.windowSteps →
    (16 ≤ q → a < s.get Fld.CATCH_CTRL_AGGR_MAX n → s.flag Fld.CATCH_CTRL_ESC_LOCK n = false → x.monitorOk = true →
      exec (.catchWindowEnd n) s = .next ((((s.start.put Fld.CATCH_STATE_A n (a + 1)).put Fld.CATCH_STATE_DATA_MV n mv).moveRail (18 + n) mv).setScull n
        { x with windowSteps := 0, windowErrs := 0, quiet := 0 })) ∧
    (q < 16 ∨ s.get Fld.CATCH_CTRL_AGGR_MAX n ≤ a ∨ s.flag Fld.CATCH_CTRL_ESC_LOCK n = true ∨ x.monitorOk = false →
      exec (.catchWindowEnd n) s = .next (s.start.setScull n { x with windowSteps := 0, windowErrs := 0, quiet := if 16 ≤ q then 0 else q })))

/-- R241, R246 to R248, R251 to R253, R270 and R285, for TASK_RUNNABLE and TASK_DISPATCH. What stands in a save area is free (log entry 6). -/
def Obligations.TasksBecomeReadyAndRun : Prop :=
  (∀ (n : Fin 16) (id trig : Nat) (t : Task) (s : State), s.task (taskKey n id) = some t → t.st = .waiting ∨ t.st = .done ∨ t.st = .failed → t.held = false → id < 65536 →
    (t.skipped t.runs = [] → 64 ≤ t.lane → s.inputsReady t [] = true → (Tbl.get [] s.ready n).length < 16 →
      ∃ u : State, exec (.taskRunnable n id trig) s = .next u ∧ u = { s.start with flds := u.flds, tasks := u.tasks, ready := u.ready } ∧
        u.task (taskKey n id) = some { t.again with st := .ready, restarts := 0, trigger := trig, entry := 0 } ∧
        Tbl.get [] u.ready n = Tbl.get [] s.ready n ++ [id] ∧ (∀ k, k ≠ taskKey n id → u.task k = s.task k)) ∧
    (t.skipped t.runs ≠ [] → s.inputsReady t (t.skipped t.runs) = true → exec (.taskRunnable n id trig) s = .next (s.start.passOver (taskKey n id) t))) ∧
  (∀ (n : Fin 16) (k : Nat) (t : Task) (s : State), s.sclOn n = true → s.seqBusy n = false → s.firstReady n = some (k, t) → s.burstsInFlight k = false →
    (s.scull n).owner = some k ∨ (s.scull n).open_ = [] →
    let x := s.scull n
    exec (.taskDispatch n) s = .next (((((s.start.unready k).switchIn n k).admitHeld n).showScull n).issuedOp n) ∧
    (∀ v : State, v.task k = some t →
      let w := if (v.scull n).owner ≠ some k then v.keepValues n else v
      let go := fun (u : State) => u.setTask k { t with st := .running, kept := none, saved := none }
      (t.saved = none → (v.scull n).owner = some k → v.switchIn n k = go v) ∧
      (∀ c, t.saved = none → (v.scull n).owner ≠ some k → t.kept = some c → v.switchIn n k = go (w.setValues n k c)) ∧
      (t.saved = none → (v.scull n).owner ≠ some k → t.kept = none → v.switchIn n k = go (w.setScull n { w.scull n with owner := some k })) ∧
      (∀ b st, t.saved = some b → w.saveError n t = some st → v.switchIn n k = w.attemptEnd k st) ∧
      (∀ b, t.saved = some b → w.saveError n t = none → w.saveIntact t b = true → v.switchIn n k = go (w.setValues n k (t.kept.getD {}))) ∧
      (∀ b, t.saved = some b → w.saveError n t = none → w.saveIntact t b = false →
        v.switchIn n k = go (({ w with free := w.free + 163841 }).setValues n k (freeValues w.free)))) ∧
    (t.saved = none → Tbl.get [] s.heldReady n = [] → x.stepLeft = none → (∀ c, t.kept = some c → c.tile = []) →
      let mine : Scull := if x.owner = some k then x else match t.kept with
        | some c => { x with planes := c.planes, active := c.active, acc := c.acc, vreg := c.vreg, planePoison := c.planePoison, accPoison := c.accPoison, vregPoison := c.vregPoison, owner := some k }
        | none => { x with owner := some k }
      ∃ u : State, exec (.taskDispatch n) s = .next u ∧ u = { s.start with flds := u.flds, tasks := u.tasks, ready := u.ready, scl := u.scl, heldReady := u.heldReady } ∧
        u.task k = some { t with st := .running, kept := none, saved := none } ∧ u.scull n = mine ∧ (∀ m, m ≠ n.val → u.scull m = s.scull m) ∧
        (∀ o v, x.owner = some o → o ≠ k → s.task o = some v → v.kept = none → v.st ≠ .switchedOut →
          u.task o = some { v with kept := some { planes := x.planes, active := x.active, acc := x.acc, vreg := x.vreg, planePoison := x.planePoison, accPoison := x.accPoison, vregPoison := x.vregPoison } }) ∧
        (∀ j, j ≠ k → x.owner ≠ some j → u.task j = s.task j) ∧
        Tbl.get [] u.ready n = (Tbl.get [] s.ready n).filter (· ≠ k % 65536)))

/-- R168, R209, R244 to R246, R249, R254, R270 and R285 for TASK_COMMIT, TASK_WATCHDOG_EXPIRY and SAVE_AREA_WRITTEN. -/
def Obligations.TasksCommitOrEnd : Prop :=
  (∀ (n : Fin 16) (given : List Nat) (k : Nat) (t : Task) (s : State), s.start.issues n = true → s.running n = some (k, t) →
    let clear := (s.scull n).open_ = [] ∧ s.outstanding (s.taskTag n t) = false
    ((s.transfers k).2 = true → exec (.taskCommit n given) s = .next (s.start.switchOut k)) ∧
    ((s.transfers k).2 = false → (s.transfers k).1 = true ∨ s.outRoom t given = false →
      exec (.taskCommit n given) s = .next ((s.start.setTask k { t with st := .blocked }).showScull n)) ∧
    (s.transfers k = (false, false) → s.outRoom t given = true →
      (¬ clear → exec (.taskCommit n given) s = .next s.start) ∧
      (clear → t.poisoned = true → exec (.taskCommit n given) s = .next ((s.start.bump Fld.MEM_POISON_CNT_CNT 0 1).attemptEnd k stPOISONED)) ∧
      (clear → t.poisoned = false →
        exec (.taskCommit n given) s = .next (((s.start.issuedOp n).commit k t (s.commitWrites t given)).flushHeld t.lane) ∧
        (∀ (r b : Nat), t.outs = [(r, b, false)] → t.ins = [] → t.lane = 0xFF → (s.lane 0xFF).held = none → s.ringConsumer r ≠ 0x130 → s.ringConsumer r ≠ 0x131 → r % 64 = 0 →
          s.dirLine (lineOf (r + 0x20)) = {} → s.answers n (r + 0x20) = true → k / 65536 = n.val →
          ∃ u : State, exec (.taskCommit n given) s = .next u ∧ u.ringPub r = (s.ringPub r + b) % 2 ^ 64)))) ∧
  (∀ (n : Fin 16) (given : List Nat) (k : Nat) (t : Task) (s : State), s.sclGo n = true → s.running n = none → s.taskIn n .committing = some (k, t) →
    exec (.taskCommit n given) s = .next ((s.start.commit k t (t.commit.getD ⟨[], []⟩)).flushHeld t.lane)) ∧
  (∀ (n : Fin 16) (k : Nat) (t : Task) (s : State), s.running n = some (k, t) → 2 * t.envelope < t.steps →
    exec (.taskWatchdogExpiry n) s = .next ((s.start.bump Fld.SCL_WDOG_CNT_CNT n 1).attemptEnd k stTIMEOUT)) ∧
  (∀ (n : Fin 16) (id st : Nat) (t : Task) (s : State), s.task (taskKey n id) = some t → t.st = .switchedOut → t.saving = true →
    ¬ ((s.scull n).owner = some (taskKey n id) ∧ (s.scull n).open_ ≠ []) →
    let kept := if t.kept.isSome then t.kept else some (s.values n t)
    let u := (s.start.writeSaveArea t).setTask (taskKey n id) { t with saving := false, resumed := false, saved := some s.free, kept := kept }
    (st ≠ stOK → exec (.saveAreaWritten n id st) s = .next (s.start.taskFail (taskKey n id) t st)) ∧
    (st = stOK → exec (.saveAreaWritten n id st) s = .next (if t.resumed then u.makeReady (taskKey n id) else u)))

/-- R274. Engines 64 and 65 are SYS_0 and SYS_1. The write clears an error mark of the register itself, as every write that covers it (R633); a hidden one is counted and recorded by R591 (log entry 118). -/
def Obligations.SlideEnginesObeyTheirOwner : Prop :=
  (∀ (src : RegSrc) (e : Fin 72) (c : Nat) (s : State), (∀ n, src ≠ .task n) → s.start.reaches src (0x0A0008 + e.val * 0x80) = true →
    let p := (s.start.regWho src).part
    let u := s.start.heal (0x0A0008 + e.val * 0x80)
    (e = 64 ∨ e = 65 ∨ s.engineOwner e ≠ some p →
      exec (.sldStart src e c) s = .next (u.regAnswer stDENIED 0) ∧ exec (.sldAbort src e) s = .next (u.regAnswer stDENIED 0)) ∧
    (e ≠ 64 → e ≠ 65 → s.engineOwner e = some p → (s.slide e).st = 1 ∨ (s.slide e).st = 2 ∨ (s.slide e).st = 3 →
      exec (.sldStart src e c) s = .next (u.regAnswer stBUSY 0))) ∧
  (∀ (src : RegSrc) (e : Fin 72) (c p : Nat) (s : State), s.start.regGate src true (0x0A0008 + e.val * 0x80) 4 = (none, s.start) → (s.start.regWho src).view = some p →
    s.start.regOwned p ⟨"SLD_CTRL", 0x0A0008, 0x80, 72, 1, false, [Fld.SLD_CTRL_CTX, Fld.SLD_CTRL_ABORT, Fld.SLD_CTRL_START]⟩ e = false →
    exec (.sldStart src e c) s = .next ((s.start.hiddenWrite p (0x0A0008 + e.val * 0x80)).regAnswer stDENIED 0) ∧
    exec (.sldAbort src e) s = .next ((s.start.hiddenWrite p (0x0A0008 + e.val * 0x80)).regAnswer stDENIED 0))

/-- R179, R202, R254, R257 to R263, R273 and R274 for SLD_START, SLD_ABORT, SLIDE_BURST_ISSUE and SLIDE_CREDIT_ARRIVES. A Scull's engine has no watchpoint set here. -/
def Obligations.SlideEnginesStartAbortAndIssue : Prop :=
  (∀ (src : RegSrc) (e : Fin 72) (c : Nat) (s : State), s.start.reaches src (0x0A0008 + e.val * 0x80) = true →
    let p := (s.start.regWho src).part
    let u := s.start.heal (0x0A0008 + e.val * 0x80)
    let idle := (s.slide e).st = 0 ∨ (s.slide e).st = 4 ∨ (s.slide e).st = 5
    ((∀ n, src ≠ .task n) → s.slideAllowed e p = true → c < 256 → s.ctxUsable p c = true → idle →
      exec (.sldStart src e c) s = .next (((u.put Fld.SLD_CTRL_CTX e c).slideStart e c p none).regAnswer stOK 0)) ∧
    (∀ (n : Fin 16) (k : Nat) (t : Task), src = .task n → s.running n = some (k, t) → s.ctxUsable p t.ctx = true → idle →
      exec (.sldStart src e c) s = .next (((u.put Fld.SLD_CTRL_CTX e t.ctx).slideStart e t.ctx p (some k)).regAnswer stOK 0)) ∧
    ((∀ n, src ≠ .task n) → s.slideAllowed e p = true → (s.slide e).st = 1 ∨ (s.slide e).st = 2 ∨ (s.slide e).st = 3 →
      let kept := if (s.ctxsOf p).contains 0 then u.put Fld.SLD_CTRL_CTX e 0 else u
      exec (.sldAbort src e) s = .next ((kept.slideError e stABORTED).regAnswer stOK 0))) ∧
  (∀ (e : Fin 72) (s : State), s.unitDown (engineUnit e) = false → (64 ≤ e.val ∨ s.unwatched (e.val / 4) = true) →
    let x := s.slide e
    let n := x.burstLen 64 x.issued 0
    let srcs := (List.range n).map fun j => x.addr false (x.issued + j)
    let va := srcs.map fun o => o.getD 0
    let pa := va.map fun a => (s.engineHit e x.ctx a .read).getD 0
    x.st = 1 → x.issued < x.total → x.bursts.length < 8 →
    (s.credit x n = false → exec (.slideBurstIssue e) s = .next (s.start.putSlide e { x with st := 2 })) ∧
    (∀ d m, s.credit x n = true → x.addr true x.issued = some d → srcs.all Option.isSome = true → s.firstMiss e x.ctx .read va = some m →
      exec (.slideBurstIssue e) s = .next (s.start.noteMiss (engineXlu e) x.ctx m .read (.slide e) 0)) ∧
    (∀ d dp, s.credit x n = true → x.addr true x.issued = some d → srcs.all Option.isSome = true →
      s.firstMiss e x.ctx .read va = none → s.engineHit e x.ctx d .write = some dp →
      exec (.slideBurstIssue e) s = .next ((pa.map fun a => a / 64 * 64).dedup.foldl (fun s l => s.emit (.readOnce (.slide e) (s.engineTag e) l))
        (s.start.putSlide e { x with bursts := x.bursts ++ [{ off := x.issued, len := n, dst := dp, srcs := pa, got := [], sent := true, done := false }], issued := x.issued + n })))) ∧
  (∀ (e : Fin 72) (s : State), (s.slide e).st = 2 → s.credit (s.slide e) ((s.slide e).burstLen 64 (s.slide e).issued 0) = true → s.unitDown (engineUnit e) = false →
    exec (.slideCreditArrives e) s = .next (s.start.putSlide e { s.slide e with st := 1 }))

/-- R303, with R321's record, and R302 for the registers that share its group: CATCH_BAND_WRITE, CATCH_REUSE_CFG_WRITE and CATCH_AGGR_MAX_WRITE. BAND_FLOOR and BAND_CEIL are bytes 0x84 and 0x86 of the lane's descriptor. -/
def Obligations.BandsAreKeptWithinTheirLimits : Prop :=
  (∀ (src : RegSrc) (l : Fin 64) (v : Word) (s : State), s.start.reaches src (0x0C1004 + l.val * 0x40) = true →
    let u := s.start.heal (0x0C1004 + l.val * 0x40)
    let lo := bits v.toNat 15 0
    let hi := bits v.toNat 31 16
    (s.laneKind l = 1 → lo ≤ hi → s.laneField l 0x84 2 ≤ lo → hi ≤ s.laneField l 0x86 2 →
      exec (.catchBandWrite src l v) s = .next ((((u.put Fld.CATCH_BAND_T_MIN l lo).put Fld.CATCH_BAND_T_MAX l hi).markAll l).regAnswer stOK 0)) ∧
    (s.laneKind l ≠ 1 ∨ hi < lo ∨ lo < s.laneField l 0x84 2 ∨ s.laneField l 0x86 2 < hi →
      exec (.catchBandWrite src l v) s = .next ((u.record { cls := 0, status := stDENIED, part := s.lanePart l, block := 0x0C, infoKind := 3, info := 0x0C1004 + l.val * 0x40, lane := some l.val }).regAnswer stOK 0))) ∧
  (∀ (src : RegSrc) (l : Fin 64) (v : Word) (s : State), s.start.reaches src (0x0C1000 + l.val * 0x40) = true →
    let u := s.start.heal (0x0C1000 + l.val * 0x40)
    let m := (u.put Fld.CATCH_REUSE_CFG_MODE l v.toNat).markAll l
    let rec_ : ErrRec := { cls := 0, status := stDENIED, part := s.lanePart l, block := 0x0C, infoKind := 3, info := 0x0C1000 + l.val * 0x40, lane := some l.val }
    (s.laneKind l = 1 → bits v.toNat 15 8 ≠ 0 →
      exec (.catchReuseCfgWrite src l v) s = .next ((m.put Fld.CATCH_REUSE_CFG_AGE_MAX l (bits v.toNat 15 8)).regAnswer stOK 0)) ∧
    (s.laneKind l = 1 → bits v.toNat 15 8 = 0 → exec (.catchReuseCfgWrite src l v) s = .next ((m.record rec_).regAnswer stOK 0)) ∧
    (s.laneKind l ≠ 1 → exec (.catchReuseCfgWrite src l v) s = .next ((u.record rec_).regAnswer stOK 0))) ∧
  (∀ (src : RegSrc) (n : Fin 16) (v : Word) (s : State), s.start.reaches src (0x0C0100 + n.val * 0x20) = true →
    exec (.catchAggrMaxWrite src n v) s = .next (([Fld.CATCH_CTRL_ESC_LOCK, Fld.CATCH_CTRL_AGGR_MAX].foldl (State.writeField n v.toNat)
      (s.start.heal (0x0C0100 + n.val * 0x20))).regAnswer stOK 0))

/-- R318, for the four actions. After the write the mailboxes take what waits for a free Cox (`State.mbAll`). -/
def Obligations.PowerRequestsWaitTheirTurn : Prop :=
  ∀ (src : RegSrc) (d : BitVec 8) (i : Instr) (s : State), i ∈ [Instr.pwrReqAuto src d, Instr.pwrReqOn src d, Instr.pwrReqOff src d, Instr.pwrReqForceOff src d] →
    s.start.reaches src 0x020010 = true →
    let u := s.start.heal 0x020010
    (s.get Fld.PWR_REQ_STATUS_PENDING 0 = 1 →
      exec i s = .next (((u.put Fld.PWR_REQ_STATUS_STATUS 0 stBUSY).put Fld.PWR_REQ_STATUS_DOMAIN 0 d.toNat).mbAll.regAnswer stOK 0)) ∧
    (s.get Fld.PWR_REQ_STATUS_PENDING 0 ≠ 1 → 71 < d.toNat →
      exec i s = .next ((((u.put Fld.PWR_REQ_STATUS_PENDING 0 0).put Fld.PWR_REQ_STATUS_STATUS 0 stDENIED).put Fld.PWR_REQ_STATUS_DOMAIN 0 d.toNat).mbAll.regAnswer stOK 0))

/-- R310, R311 and R567 for PWR_REQ_ON, PWR_REQ_AUTO, PWR_REQ_OFF and PWR_REQ_FORCE_OFF. R308, R309, R311, R315 and R570 for POWER_POLICY_OFF, DOMAIN_WAKE_DONE and WAKE_TIMEOUT. -/
def Obligations.DomainsSwitchByRequestAndByPolicy : Prop :=
  (
  ∀ (src : RegSrc) (d : BitVec 8) (s : State), s.start.reaches src 0x020010 = true → s.get Fld.PWR_REQ_STATUS_PENDING 0 ≠ 1 →
    let u := s.start.heal 0x020010
    let n := d.toNat
    let done := fun (x : State) (st : Nat) => (x.reqDone n st).mbAll.regAnswer stOK 0
    let force := fun (act : QAct) (q : State) => (u.reqPending n).askQuiesce (domainUnit n) act = some q
    let free := u.pin n false
    (u.domBarred n = true → exec (.pwrReqOn src d) s = .next (done u stDENIED) ∧ exec (.pwrReqAuto src d) s = .next (done u stDENIED) ∧
      exec (.pwrReqOff src d) s = .next (done u stDENIED) ∧ exec (.pwrReqForceOff src d) s = .next (done u stDENIED)) ∧
    (u.domBarred n = false → u.domForeign n = true → exec (.pwrReqOn src d) s = .next (done u stDENIED) ∧ exec (.pwrReqOff src d) s = .next (done u stDENIED)) ∧
    (u.domBarred n = false →
      (u.domForeign n = false → u.quiescing (domainUnit n) = true → exec (.pwrReqOn src d) s = .next (done u stBUSY)) ∧
      (u.domForeign n = false → u.quiescing (domainUnit n) = false → (u.pin n true).domOn n = true → exec (.pwrReqOn src d) s = .next (done (u.pin n true) stOK)) ∧
      (u.domForeign n = false → u.quiescing (domainUnit n) = false → (u.pin n true).domOn n = false →
        exec (.pwrReqOn src d) s = .next (((({ (u.pin n true) with pwr := { (u.pin n true).pwr with explicit := some n } }).reqPending n).wake n).mbAll.regAnswer stOK 0)) ∧
      exec (.pwrReqAuto src d) s = .next (done (if free.domOn n ∨ free.waking n ∨ free.domIdle n then free else free.wake n) stOK) ∧
      (u.domForeign n = false → u.domBusy n = true → exec (.pwrReqOff src d) s = .next (done u stBUSY)) ∧
      (u.domForeign n = false → u.domBusy n = false → u.domOn n = false → u.waking n = false → exec (.pwrReqOff src d) s = .next (done (u.pin n true) stOK)) ∧
      (u.domForeign n = false → u.domBusy n = false → u.domOn n = true → plainDomain n = true →
        exec (.pwrReqOff src d) s = .next (done ((u.domainOff n).pin n true) stOK) ∧ exec (.pwrReqForceOff src d) s = .next (done ((u.domainOff n).pin n true) stOK)) ∧
      (∀ q, u.domForeign n = false → u.domBusy n = false → u.domOn n = true → plainDomain n = false → force .off q →
        exec (.pwrReqOff src d) s = .next (q.mbAll.regAnswer stOK 0)) ∧
      (∀ q, u.domOn n = true → force .forceOff q → 16 ≤ n → n < 48 → exec (.pwrReqForceOff src d) s = .next (q.mbAll.regAnswer stOK 0)))) ∧
  (
  (∀ (d : Fin 72) (s : State), s.err.coxHalted = false →
    (s.domOn d = true → s.pinned d = false → s.domIdle d = true → s.domFitted d = true →
      (plainDomain d = true → exec (.powerPolicyOff d) s = .next (s.start.domainOff d)) ∧
      (∀ q, plainDomain d = false → s.start.askQuiesce (domainUnit d) .autoOff = some q → exec (.powerPolicyOff d) s = .next q)) ∧
    (s.pinned d = true → exec (.powerPolicyOff d) s = .next s.start)) ∧
  (∀ (d : Fin 72) (s : State), s.waking d = true → exec (.domainWakeDone d) s = .next ((s.start.domainCame d).mbAll)) ∧
  (∀ (d : Fin 72) (s : State), s.waking d = true → s.err.coxHalted = false →
    let u := domainUnit d
    let off : State := { s.start with pwr := { s.pwr with waking := Tbl.set none s.pwr.waking d none, returning := Tbl.set none s.pwr.returning d none } }
    let shown := if s.pwr.explicit = some d.val then
        (({ off with pwr := { off.pwr with explicit := none } }).put Fld.PWR_REQ_STATUS_PENDING 0 0).put Fld.PWR_REQ_STATUS_STATUS 0 stDOWN
      else off
    let told := shown.record { cls := 1, status := stDOWN, unit := u, block := 0x02 }
    let counted := if u = 0xFF then told else told.silentUnit u
    exec (.wakeTimeout d) s = .next (((counted.wakeLost d).afterWakeFail d).mbAll)))

/-- R95, R287 to R290, R313 and R618 for VME_UPDATE and VSO_GOVERNOR_TICK. The derived voltage is free within its range (log entry 6), and so is the energy counted at the tick (log entry 109). -/
def Obligations.GovernorsSetTheirVoltages : Prop :=
  (∀ (n : Fin 16) (leak temp : Nat) (s : State), s.err.coxHalted = false →
    (∃ t : State, exec (.vmeUpdate n leak temp true) s = .next t ∧ t = { s.start with flds := t.flds, scl := t.scl } ∧
      450 ≤ t.get Fld.CATCH_VME_VME_MV n ∧ t.get Fld.CATCH_VME_VME_MV n ≤ 600 ∧ (t.scull n) = { s.scull n with monitorOk := true }) ∧
    (∃ t : State, exec (.vmeUpdate n leak temp false) s = .next t ∧ t.get Fld.CATCH_STATE_A n = 0 ∧ (t.scull n).monitorOk = false ∧
      t.get Fld.CATCH_VME_VME_MV n = 600 ∧
      ((s.scull n).monitorOk = false → t = { s.start with flds := t.flds, scl := t.scl, pwr := { s.pwr with rails := t.pwr.rails } }))) ∧
  (∀ (n : Fin 16) (leak temp : Nat) (ok : Bool) (s : State), s.err.coxHalted = true →
    exec .vsoGovernorTick s = .next s.start ∧ exec (.vmeUpdate n leak temp ok) s = .next s.start) ∧
  (∀ s : State, s.err.coxHalted = false → ∃ t : State, exec .vsoGovernorTick s = .next t ∧
    t = { s.start with flds := t.flds, scl := t.scl, lanes := t.lanes, pwr := { s.pwr with rails := t.pwr.rails }, free := s.free + 1 } ∧
    (∀ n : Fin 16, s.domOn n = true → s.mod.capped = false → s.get Fld.CATCH_VME_VME_MV n ≤ 600 →
      s.get Fld.CATCH_VME_VME_MV n ≤ t.get Fld.CATCH_STATE_VSO_MV n ∧ t.get Fld.CATCH_STATE_VSO_MV n ≤ 850 ∧ t.get Fld.CATCH_STATE_VSO_MV n % 5 = 0 ∧
      t.get Fld.CATCH_STATE_A n ≤ s.get Fld.CATCH_CTRL_AGGR_MAX n ∧ (s.flag Fld.CATCH_CTRL_ESC_LOCK n = true → t.get Fld.CATCH_STATE_A n = 0))) ∧
  (∀ (r : Rail) (t d : Nat), r.since ≤ t → r.now (t + d) ≤ r.now t + d * 10 / 1000 + 1 ∧ r.now t ≤ r.now (t + d) + d * 10 / 1000 + 1)

/-- R321, R322, R398 and R475 for LANE_LEVEL_WRITE, LANE_REPORT_MASK_WRITE and LANE_TIMING_WRITE. The levels are FP32 patterns; entries already in the ring keep theirs (R322). -/
def Obligations.LaneLevelsMustBeOrdered : Prop :=
  (∀ (src : RegSrc) (l : Fin 64) (w : Fin 3) (v : Word) (s : State), s.start.reaches src (0x10000C + w.val * 4 + l.val * 0x400) = true →
    let u := s.start.heal (0x10000C + w.val * 4 + l.val * 0x400)
    let old := fun (k : Nat) => [s.get Fld.LANE_LEVEL_NOV_LEVEL l, s.get Fld.LANE_LEVEL_ALM_LEVEL l, s.get Fld.LANE_LEVEL_CLR_LEVEL l].getD k 0
    let new := fun (k : Nat) => if k = w.val then v.toNat else old k
    let ordered := fp32Lt (new 2) (new 0) && fp32Le (new 0) (new 1)
    (ordered = false → exec (.laneLevelWrite src l w v) s = .next ((u.record { cls := 0, status := stDENIED, part := s.lanePart l, block := 0x10, infoKind := 3, info := 0x10000C + w.val * 4 + l.val * 0x400, lane := some l.val }).regAnswer stOK 0)) ∧
    (ordered = true → v.toNat = old w → exec (.laneLevelWrite src l w v) s = .next (u.regAnswer stOK 0)) ∧
    (ordered = true → v.toNat ≠ old w → ∃ t : State, exec (.laneLevelWrite src l w v) s = .next t ∧
      t = { u with flds := t.flds, lrn := t.lrn, out := [.regAnswer stOK 0] } ∧
      (∃ (o : OldLevels) (os : List OldLevels), (t.lrnLane l).older = o :: os ∧ o.upTo = (s.lane l).lastDev ∧ o.reset = true) ∧
      t.get Fld.LANE_LEVEL_NOV_LEVEL l = new 0 % 2 ^ 32 ∧ t.get Fld.LANE_LEVEL_ALM_LEVEL l = new 1 % 2 ^ 32 ∧ t.get Fld.LANE_LEVEL_CLR_LEVEL l = new 2 % 2 ^ 32)) ∧
  (∀ (src : RegSrc) (l : Fin 64) (v : Word) (s : State), s.start.reaches src (0x100008 + l.val * 0x400) = true →
    let u := s.start.heal (0x100008 + l.val * 0x400)
    let m := bits v.toNat 5 0
    (Nat.land m (s.laneField l 0x10 1) = m → exec (.laneReportMaskWrite src l v) s = .next ((u.put Fld.LANE_REPORT_MASK_MASK l m).regAnswer stOK 0)) ∧
    (Nat.land m (s.laneField l 0x10 1) ≠ m → exec (.laneReportMaskWrite src l v) s = .next ((u.record { cls := 0, status := stDENIED, part := s.lanePart l, block := 0x10, infoKind := 3, info := 0x100008 + l.val * 0x400, lane := some l.val }).regAnswer stOK 0))) ∧
  (∀ (src : RegSrc) (l : Fin 64) (v : Word) (s : State), s.start.reaches src (0x100018 + l.val * 0x400) = true →
    let t := bits v.toNat 31 16
    let h := (((s.start.heal (0x100018 + l.val * 0x400)).keepLevels l false).put Fld.LANE_TIMING_HOLD_MS l (bits v.toNat 15 0))
    (t = 0 ∨ 60 ≤ t → exec (.laneTimingWrite src l v) s = .next ((h.put Fld.LANE_TIMING_TEACH_S l t).regAnswer stOK 0)) ∧
    (1 ≤ t → t < 60 → exec (.laneTimingWrite src l v) s = .next ((h.record { cls := 0, status := stDENIED, part := s.lanePart l, block := 0x10, infoKind := 3, info := 0x100018 + l.val * 0x400, lane := some l.val }).regAnswer stOK 0)))

/-- R390, R391 and R427 for LRN_MOD_TEACH, LRN_MOD_MARK, LRN_MOD_CANCEL, MARK_EXPIRY, TEACH_WINDOW_EXPIRY, POP_FREEZE_WRITE and BH_CKPT_CMD. -/
def Obligations.ModulatorsFollowTeachMarkAndCancel : Prop :=
  (∀ (src : RegSrc) (l : Fin 64) (s : State), s.start.reaches src (0x12040C + l.val * 0x20) = true → s.laneKind l ≠ 0 →
    let u := s.start.heal (0x12040C + l.val * 0x20)
    let secs := if s.get Fld.LANE_TIMING_TEACH_S l = 0 then 600 else s.get Fld.LANE_TIMING_TEACH_S l
    exec (.lrnModTeach src l) s = .next ((((({ u with pnl := { s.pnl with relearn := NatSet.del s.pnl.relearn l } }).setLrn l
      { s.lrnLane l with teachEnd := s.dev + secs * 1000000000 }).setMod l).emitHealth l 1 1 secs).regAnswer stOK 0) ∧
    exec (.lrnModMark src l) s = .next ((((u.setLrn l { s.lrnLane l with markEnd := s.dev + 60000000000 }).setMod l).emitHealth l 2 1 60).regAnswer stOK 0) ∧
    exec (.lrnModCancel src l) s = .next ((((u.setLrn l { s.lrnLane l with markEnd := 0, teachEnd := 0 }).setMod l).emitHealth l 3 1 0).regAnswer stOK 0)) ∧
  (∀ (l : Fin 64) (s : State), (s.lrnLane l).markEnd ≠ 0 → ∃ t : State, exec (.markExpiry l) s = .next t ∧ t = { s.start with flds := t.flds, lrn := t.lrn } ∧
    (t.lrnLane l).markEnd = 0 ∧ (t.lrnLane l).teachEnd = (s.lrnLane l).teachEnd ∧ t.get Fld.LRN_MOD_M l = (if (s.lrnLane l).teachEnd ≠ 0 then 1 else 0)) ∧
  (∀ (l : Fin 64) (s : State), (s.lrnLane l).teachEnd ≠ 0 → ∃ t : State, exec (.teachWindowExpiry l) s = .next t ∧ t = { s.start with flds := t.flds, lrn := t.lrn } ∧
    (t.lrnLane l).teachEnd = 0 ∧ (t.lrnLane l).markEnd = (s.lrnLane l).markEnd ∧ t.get Fld.LRN_MOD_M l = (if (s.lrnLane l).markEnd ≠ 0 then 2 else 0)) ∧
  (∀ (src : RegSrc) (v : Word) (p : Pop) (s : State), s.start.reaches src 0x12010C = true →
    s.pop (s.get Fld.LRN_POP_SEL_ENGINE 0) (s.get Fld.LRN_POP_SEL_POP 0) = some p →
    exec (.popFreezeWrite src v) s = .next ((((s.start.heal 0x12010C).put Fld.LRN_POP_CTRL_FREEZE 0 (bits v.toNat 0 0)).setPop (s.get Fld.LRN_POP_SEL_ENGINE 0) (s.get Fld.LRN_POP_SEL_POP 0) (some { p with freeze := bit v.toNat 0 })).regAnswer stOK 0)) ∧
  (∀ (src : RegSrc) (n : Fin 128) (p : Pop) (s : State), s.start.reaches src 0x140004 = true → s.keptPop n = some p →
    let f := (s.start.heal 0x140004).forgetReg
    (p.dirty = false → exec (.bhCkptCmd src n) s = .next ((f.bhAnswer n stOK 1 0).regAnswer stOK 0)) ∧
    (∀ q : State, p.dirty = true → s.suspended n = false → s.learnOff = false → f.wearOk (n.val / 64) p = true →
      (f.bhAnswer n stOK 0 1).askSnap (n.val / 64) { pop := n.val % 64, readout := false, byReg := true } = some q →
      exec (.bhCkptCmd src n) s = .next (q.mbAll.regAnswer stOK 0)))

/-- R296, R298, R304, R314, R326 to R330, R341 and R501 for RTP_PACKET, RTCP_SENDER_REPORT, MEMBERSHIP_QUERY, FRAME_DECODED, DELTA_COMPARE_DONE, ENERGY_GOVERNOR_CHOOSE, DELTA_MAP_TIMEOUT and CAPTURE_TIMEOUT. -/
def Obligations.CamerasDeliverFrames : Prop :=
  (∀ (d : Fin 3) (p : Fin 2) (k : RtpPacket) (l q : Nat) (s : State), s.portLink d p = true → s.cameraOf d p k false = some l → k.payloadType = s.laneField l 0x62 1 → k.unsupported = false →
    (s.lane l).ssrc = k.ssrc.toNat → (s.lane l).rtpSeq = some q → k.seq.toNat = (q + 1) % 65536 →
    exec (.rtpPacket d p k) s = .next ((s.start.setLane l { s.lane l with rtpSeq := some k.seq.toNat }).put Fld.LANE_SRC_INFO_INFO l k.ssrc.toNat)) ∧
  (∀ (d : Fin 3) (p : Fin 2) (k : RtpPacket) (sec : Nat) (frac : BitVec 32) (s : State), s.portLink d p = true → k.unsupported = true →
    exec (.rtpPacket d p k) s = .next (s.start.bump Fld.NET_DROP_CNT_CNT 0 1) ∧ exec (.rtcpSenderReport d p k sec frac) s = .next (s.start.bump Fld.NET_DROP_CNT_CNT 0 1)) ∧
  (∀ (d : Fin 3) (p : Fin 2) (k : RtpPacket) (sec l : Nat) (frac : BitVec 32) (s : State), s.portLink d p = true → s.cameraOf d p k true = some l → k.unsupported = false →
    exec (.rtcpSenderReport d p k sec frac) s = .next (s.start.setLane l { s.lane l with srs := (⟨sec % 2 ^ 32, frac.toNat, k.rtpTs.toNat, s.dev⟩ : SrMap) :: ((s.lane l).srs.filter (fun (m : SrMap) => decide (s.dev ≤ m.at_ + 60000000000))) })) ∧
  (∀ (d : Fin 3) (p : Fin 2) (fam : Nat) (g : List Byte) (s : State), s.portLink d p = true → ∃ t : State, exec (.membershipQuery d p fam g) s = .next t ∧
    t = { s.start with out := (s.ptp.joins.filter (fun (j : Nat × Nat × Nat × List Byte × List Byte) => j.1 = d.val && j.2.1 = p.val && j.2.2.1 = fam && (allZero g || j.2.2.2.1 = g))).map (fun j => Out.membership d p fam j.2.2.2.1 j.2.2.2.2) }) ∧
  (∀ (l : Fin 64) (ts : BitVec 32) (arr : Nat) (bs : List Byte) (fab : FabEv) (s : State),
    let u := s.start.fabric fab
    u.laneKind l = 1 → u.decOn l = true → (u.lane l).capture = none → u.laneAdmitted l = true →
    (fab.header ≠ 2 →
      exec (.frameDecoded l .entry ts arr bs fab) s = .next ((u.laneArrival l).frameIn l ts.toNat arr bs) ∧
      exec (.frameDecoded l .inter ts arr bs fab) s = .next (if (u.lane l).waitIdr then (u.laneArrival l).frameLost l false else (u.laneArrival l).frameIn l ts.toNat arr bs) ∧
      exec (.frameDecoded l .rejected ts arr bs fab) s = .next ((u.laneArrival l).frameLost l true) ∧
      exec (.frameDecoded l .mismatch ts arr bs fab) s = .next ((u.laneArrival l).frameMismatch l)) ∧
    (fab.header = 2 → ∀ k, exec (.frameDecoded l k ts arr bs fab) s = .next ((u.laneArrival l).frameLost l false))) ∧
  (∀ (l : Fin 64) (e : Entry) (s : State), s.oldestInDelta l = some e → s.deOn l = true →
    (∀ e' : Entry, e.stage = 1 → (s.start.compareFrame l e).oldestInDelta l = some e' → exec (.deltaCompareDone l) s =
      .next (if e'.band.2.2 = 1 then ((s.start.compareFrame l e).formMap l e').flushHeld l else s.start.compareFrame l e)) ∧
    (e.stage = 2 → s.err.coxHalted = false → exec (.energyGovernorChoose l) s = .next ((s.start.formMap l e).flushHeld l)) ∧
    exec (.deltaMapTimeout l) s = .next (((s.start.setLane l { s.lane l with entries := ((s.lane l).entries.filter (fun (y : Entry) => y.seq ≠ e.seq)) }).entryLost l 1).flushHeld l)) ∧
  (∀ (l : Fin 64) (c : Nat × Nat × Nat) (s : State), (s.lane l).capture = some c →
    exec (.captureTimeout l) s = .next (((s.start.setLane l { s.lane l with capture := none }).mbEnd c.1 stDOWN []).mbAll))

/-- R327, R335 and R338 to R341 for PTP_SYNC, PTP_FOLLOW_UP, PTP_DELAY_RESP, PTP_ANNOUNCE, PTP_HOLDOVER_ENTRY, GPTP_SYNC_TIMER and GPTP_PDELAY_REQ. The slew within its bound is free (log entry 6). -/
def Obligations.DeviceTimeFollowsItsMaster : Prop :=
  (∀ (dom origin : Nat) (seq : BitVec 16) (s : State), s.ptpTakes dom = true →
    exec (.ptpSync dom seq true origin) s = .next { s.start with ptp := { s.ptp with twoStep := some (seq.toNat, s.dev) } } ∧
    (s.ptp.everLocked = true → ∃ t : State, exec (.ptpSync dom seq false origin) s = .next t ∧ t.dev = s.dev ∧ t.ptp.lastSync = some s.now ∧ t.ptp.slew ≤ 1000000 ∧
      t.get Fld.NET_PTP_OFFSET_NS 0 = satOffset ((origin : Int) + s.ptp.delay - s.dev) ∧
      t.get Fld.NET_PTP_STATUS_SYNC 0 = b2n (decide (((origin : Int) + s.ptp.delay - s.dev).natAbs ≤ 1000)))) ∧
  (∀ (seq : BitVec 16) (origin at_ : Nat) (s : State), s.ptp.twoStep = some (seq.toNat, at_) → s.ptpTakes (s.get Fld.NET_PTP_STATUS_DOMAIN 0) = true →
    exec (.ptpFollowUp seq origin) s = .next (({ s.start with ptp := { s.ptp with twoStep := none } }).syncWith origin at_)) ∧
  (∀ (sent received : Nat) (s : State), s.ptp.everLocked = true → s.ptpTakes (s.get Fld.NET_PTP_STATUS_DOMAIN 0) = true →
    exec (.ptpDelayResp sent received) s = .next { s.start with ptp := { s.ptp with delay := ((s.ptp.t21 + ((received : Int) - sent)).fdiv 2).toNat } }) ∧
  (∀ (dom : Nat) (rank : List Nat) (valid : Bool) (utc : BitVec 16) (s : State), s.ptpTakes dom = true → s.ptp.master = none →
    let shown := ({ s.start with ptp := { s.ptp with master := some rank } }).put Fld.NET_PTP_STATUS_CLOCK_CLASS 0 (rank.getD 1 0)
    exec (.ptpAnnounce dom rank valid utc) s = .next (if valid then shown.put Fld.NET_UTC_OFFSET_S 0 utc.toNat else shown)) ∧
  (∀ s : State, s.get Fld.NET_PTP_STATUS_STATE 0 = 1 → s.alive = true →
    exec .ptpHoldoverEntry s = .next ((((s.start.put Fld.NET_PTP_STATUS_STATE 0 2).bump Fld.NET_PTP_HOLD_CNT_CNT 0 1).record (recC 0x19 stTIMEOUT)).noteFlags)) ∧
  (∀ (d : Fin 3) (g : Fin 4) (f : List Byte) (s : State), s.segRuns d g = true → s.gmWorks d = true →
    let n := Tbl.get 0 s.ptp.gseq (d.val * 4 + g.val)
    exec (.gptpSyncTimer d g) s = .next (({ s.start with ptp := { s.ptp with gseq := Tbl.set 0 s.ptp.gseq (d.val * 4 + g.val) ((n + 1) % 65536) } }).emit
      (.segFrame d g 1 (beBytes 2 n ++ gptpTime s.dev))) ∧
    exec (.gptpPdelayReq d g f) s = .next (s.start.emit (.segFrame d g 2 (gptpTime s.dev ++ f))))

/-- R332 to R336, R356 and R357 for SENSOR_ANNOUNCE, SENSOR_STATUS, SENSOR_SAMPLES, CONFIG_RESEND, TDM_BLOCK_COMPLETE, TDM_SDIN_SILENT and T1S_SEGMENT_FAULT. What a frame does to the segment's nodes and the lane's serial is `State.sensorFrame`. -/
def Obligations.SensorNodesAreServed : Prop :=
  (∀ (d : Fin 3) (g : Fin 4) (mac : BitVec 48) (f : List Byte) (l : Nat) (u : State) (s : State),
    (s.start.sensorFrame d g 1 f = (some l, u) → exec (.sensorAnnounce d g mac f) s = .next (u.sendConfig l (leAt f 4 8) mac.toNat)) ∧
    (s.start.sensorFrame d g 4 f = (some l, u) → exec (.sensorSamples d g f) s = .next (u.samplesIn l f)) ∧
    (s.start.sensorFrame d g 3 f = (some l, u) →
      let x := u.lane l
      let shown := (u.setLane l { x with node := { x.node with asSync := leAt f 17 1 ≠ 0, error := leAt f 18 2 } }).put Fld.LANE_SRC_INFO_INFO l (leAt f 18 2 + leAt f 16 1 * 65536)
      exec (.sensorStatus d g f) s = .next (if leAt f 18 2 = x.node.error then shown
        else shown.record { cls := 0, status := stABORTED, part := u.lanePart l, block := 0x10, infoKind := 9, info := leAt f 4 8, lane := some l }))) ∧
  (∀ s : State, exec .configResend s = .next ((List.range 64).foldl (fun s l =>
    if s.laneKind l = 2 ∧ s.laneAdmitted l ∧ (s.lane l).node.count ≠ 0 ∧ s.fldOn (s.laneField l 4 1) then s.sendConfig l (s.lane l).node.serial (s.lane l).node.mac else s) s.start)) ∧
  (∀ (d : Fin 3) (p : Fin 2) (t0 l : Nat) (xs : List Nat) (s : State), s.fldOn d = true → s.tdmLane d p = some l →
    let tdmIn := fun (u : State) =>
      let x := u.lane l
      let b := u.laneBlock l
      let axes := u.laneField l 0x111 1
      let v := u.setLane l { x with node := { x.node with next := some ((x.node.next.getD 0 + b) % 2 ^ 32) } }
      let ys := (List.range (b * axes)).map fun k => v.slotSample l (k % max 1 axes) (xs.getD k 0)
      ({ v with free := v.free + 1 }).laneIn l { dev := t0, tflags := v.timeFlags, srcFlags := 0, rtpTs := x.node.next.getD 0, arrival := v.dev, bytes := planar axes b ys }
    (s.laneState l = 5 → (s.lane l).waiting = false ∨ (s.lane l).writes = false → exec (.tdmBlockComplete d p t0 xs) s = .next s.start) ∧
    (s.laneState l = 5 → (s.lane l).waiting = true → (s.lane l).writes = true →
      exec (.tdmBlockComplete d p t0 xs) s = .next (tdmIn ((s.start.leaveAbsent l 3).laneArrival l))) ∧
    (s.laneState l ≠ 5 → exec (.tdmBlockComplete d p t0 xs) s = .next (tdmIn (s.start.laneArrival l)))) ∧
  (∀ (d : Fin 3) (p : Fin 2) (l : Nat) (s : State), s.tdmLane d p = some l → s.laneState l = 3 → exec (.tdmSdinSilent d p) s = .next (s.start.putLaneState l 4)) ∧
  (∀ (d : Fin 3) (g : Fin 4) (s : State), s.segRuns d g = true → NatSet.has s.ptp.segFault (d.val * 4 + g.val) = false →
    exec (.t1sSegmentFault d g) s = .next (((s.segLanes d g).foldl State.goSilent { s.start with ptp := { s.ptp with segFault := NatSet.add s.ptp.segFault (d.val * 4 + g.val) } }).record
      { cls := 1, status := stDOWN, unit := 0x3C + 3 * d.val, block := 0x19 }))

/-- R324, R347 to R353, R574 and R575 for LANE_SILENT_TIMEOUT, FRAME_INTERVAL_LOSS, GAP_INTERVAL_END, STACK_THERMAL_HALVING, SHED_EVALUATE, FRAME_DEADLINE and FRAME_LATE_LIMIT. -/
def Obligations.GuaranteesAreKeptAndCounted : Prop :=
  (∀ (l : Fin 64) (s : State),
    (s.laneState l = 3 → exec (.laneSilentTimeout l) s = .next (s.start.putLaneState l 4)) ∧
    (s.laneState l = 3 ∨ s.laneState l = 4 → (s.lane l).heard = true ∨ s.laneKind l ≠ 1 → exec (.frameIntervalLoss l) s = .next ((s.start.setLane l { s.lane l with lossRun := (s.lane l).lossRun + 1 }).laneLose l 1 1)) ∧
    (s.laneAdmitted l = true →
      let x := s.lane l
      let upTo := x.gapStart + s.laneGap l
      let moved := s.start.setLane l { x with gapStart := upTo }
      exec (.gapIntervalEnd l) s = .next (if s.laneState l = 5 ∨ (x.gapShed + x.gapLost = 0 ∧ x.gapCause = 0) then moved
        else (moved.emitGap l x.gapStart upTo).setLrn l { moved.lrnLane l with gapSince := true }))) ∧
  (∀ (n : Fin 4) (hot : Bool) (s : State), ∃ t : State, exec (.stackThermalHalving n hot) s = .next t ∧ t = { s.start with flds := t.flds, shed := t.shed } ∧
    (t.shedSt n).halved = hot ∧ (t.shedSt n).hist = (s.shedSt n).hist ∧ t.get Fld.LANE_STACK_STEPS_HALVED n = b2n hot) ∧
  (∀ s : State, s.alive = true → s.err.coxHalted = false → exec .shedEvaluate s = .next ((List.range 4).foldl State.shedStack s.start)) ∧
  (∀ (l : Fin 64) (q : BitVec 32) (e : Entry) (s : State), s.err.coxHalted = false → s.entry l q.toNat = some e →
    (s.seqUsed l q.toNat = true → e.late = false → e.ended = false → s.frameLimit l e 1 ≤ s.dev →
      let marked := (s.start.onEntry l q.toNat fun e => { e with late := true }).bump Fld.ERR_LANE_LATE_CNT_CNT l 1
      exec (.frameDeadline l q) s = .next (if NatSet.has s.err.lateRun l then marked
        else ({ marked with err := { marked.err with lateRun := NatSet.add s.err.lateRun l } }).record { cls := 1, status := stTIMEOUT, part := s.lanePart l, block := 0x1B, lane := some l.val })) ∧
    (let keep := e.left.filter fun k => match s.task k with
      | some t => decide (t.st = .committing) && t.entry = e.seq
      | none => false
    e.ended = false → ¬ (e.stage = 3 ∧ keep = e.left) → s.frameLimit l e (s.get Fld.ERR_WD_CFG_LATE_MULT 0) ≤ s.dev →
      let ended := ((((s.start.onEntry l q.toNat fun e => { e with ended := true }).entryLost l 5).bump Fld.ERR_LANE_END_CNT_CNT l 1).restartHolds l)
      exec (.frameLateLimit l q) s = .next ((((e.left.foldl (State.endForEntry e) ended).onEntry l q.toNat fun e => { e with left := e.left.filter keep.contains }).retireEntries l).flushHeld l))) ∧
  (∀ (l : Fin 64) (q : BitVec 32) (s : State), s.err.coxHalted = false → s.seqUsed l q.toNat = true → s.entry l q.toNat = none →
    exec (.frameDeadline l q) s = .next { s.start with err := { s.err with lateRun := NatSet.del s.err.lateRun l } })

/-- R169, R364, R372, R374, R388, R406, R414 and R570 for LE_EVENT, DELAY_WHEEL_RELEASE, EVALUATION_SWEEP and EVENT_RING_TIMEOUT. That a discarded event marks the gap is DEDUCED (log entry 50), and that an event with flag 1 moves the engine time too (log entry 91). -/
def Obligations.LearningEnginesTakeTheirWork : Prop :=
  (∀ (l : Fin 64) (sp : Option Nat) (sram : SramErr) (s : State), s.domOn (50 + (s.lrnLane l).engine) = true →
    let u := s.start.meetSram (s.lrnLane l).engine sram
    let x := u.lrnLane l
    let con := u.ringCon x.ring
    let a := u.ringBaseOf x.ring + con % max 1 (u.ringSizeOf x.ring)
    let flags := u.coherentNat (a + 15) 1
    let read := u.service (0x30 + x.engine) (u.lanePart l) false a 16
    let taken := (read.2.putCon x.ring (con + 16)).bump Fld.LRN_EV_CNT_CNT l 1
    exec (.leEvent l sp sram) s = .next (u.leEvent l sp) ∧
    (x.ring ≠ 0 → con < u.ringPub x.ring →
      (read.1 = false → exec (.leEvent l sp sram) s = .next taken) ∧
      (read.1 = true → (u.poisoned a || u.poisoned (a + 8)) = true → exec (.leEvent l sp sram) s = .next ((taken.setLane l { taken.lane l with gapCause := addCause (taken.lane l).gapCause 6 }).bump
        Fld.MEM_POISON_CNT_CNT 0 1)) ∧
      (read.1 = true → (u.poisoned a || u.poisoned (a + 8)) = false → bit flags 1 = true → bit flags 0 = false → exec (.leEvent l sp sram) s =
        .next (taken.moveTime x.engine (taken.laneModel l) (u.coherentNat a 8))))) ∧
  (∀ (h : Fin 2) (sp : Option Nat) (sram : SramErr) (s : State), s.domOn (50 + h.val) = true →
    (∀ d : Deliv, s.nextDue h = some d →
      let u := s.start.meetSram h sram
      exec (.delayWheelRelease h sp sram) s = .next (State.runDeliv h sp delivFuel [d] (u.setLe h { u.leng h with wheel := (u.leng h).wheel.erase d }))) ∧
    (s.nextDue h = none → exec (.delayWheelRelease h sp sram) s = .next s.start)) ∧
  (∀ (h : Fin 2) (n : Fin 64) (sp : Option Nat) (sram : SramErr) (p : Pop) (s : State), s.domOn (50 + h.val) = true → s.pop h n = some p →
    let due := p.evalAt + p.f 0x3E 2 * p.tick
    let moved := s.start.setPop h n (some { p with evalAt := due })
    (s.popTime h p < due → exec (.evaluationSweep h n sp sram) s = .next s.start) ∧
    (due ≤ s.popTime h p → moved.learnOff = true → exec (.evaluationSweep h n sp sram) s = .next moved) ∧
    (due ≤ s.popTime h p → moved.learnOff = false → moved.sweepDeferred h n = true → exec (.evaluationSweep h n sp sram) s = .next (moved.defer h 64 (.sweep n))) ∧
    (due ≤ s.popTime h p → moved.learnOff = false → moved.sweepDeferred h n = false → exec (.evaluationSweep h n sp sram) s = .next ((moved.meetSram h sram).sweep h n sp))) ∧
  (∀ (h : Fin 2) (s : State),
    s.meetSram h .clean = s ∧ s.meetSram h .corrected = s.bump Fld.MEM_CE_CNT_CNT 0 1 ∧
    (∀ (j : Nat) (n : Neuron), s.neuron h j = some n → n.poisoned = false →
      s.meetSram h (.neuron j) = (s.setNeuron h j { n with poisoned := true }).ueFree (0x30 + h.val) 4)) ∧
  (∀ (l : Fin 64) (s : State), (s.lrnLane l).ring ≠ 0 → s.ringCon (s.lrnLane l).ring < s.ringPub (s.lrnLane l).ring → s.err.coxHalted = false →
    s.domOn (50 + (s.lrnLane l).engine) = true →
    exec (.eventRingTimeout l) s = .next (((s.start.record { cls := 1, status := stTIMEOUT, unit := 0x30 + (s.lrnLane l).engine, block := 0x12, lane := some l.val }).silentUnit
      (0x30 + (s.lrnLane l).engine)).mbAll))

/-- R416, R424, R426 to R428, R433, R436 to R438 and Table 10.4 for CHECKPOINT_DUE, DEFERRED_CHECKPOINT_START, SNAPSHOT_COPY_DONE, SLOT_WRITE_DONE and READBACK_DONE. -/
def Obligations.CheckpointsCommitStepByStep : Prop :=
  (∀ (n : Fin 128) (p : Pop) (s : State), s.keptPop n = some p →
    (p.dirty = false → exec (.checkpointDue n) s = .next s.start) ∧
    (p.dirty = true → s.suspended n = false → s.learnOff = false →
      (s.err.coxHalted = true → exec (.checkpointDue n) s = .next (s.start.putOff n false false)) ∧
      (s.err.coxHalted = false → s.wearOk (n.val / 64) p = false → exec (.checkpointDue n) s = .next (s.start.putOff n false true)) ∧
      (s.err.coxHalted = false → s.wearOk (n.val / 64) p = true → exec (.checkpointDue n) s = .next ((s.start.startCheckpoint n false).mbAll))) ∧
    (∀ r : SnapReq, ((s.bnk (n.val / 64)).deferred.find? fun (r : SnapReq) => r.pop = n.val % 64) = some r → s.err.coxHalted = false → s.learnOff = false → s.wearOk (n.val / 64) p = true →
      let u := s.start.setBank (n.val / 64) { s.bnk (n.val / 64) with deferred := ((s.bnk (n.val / 64)).deferred.filter (fun (r : SnapReq) => r.pop ≠ n.val % 64)) }
      exec (.deferredCheckpointStart n) s = .next (if p.dirty = true ∧ u.suspended n = false then (u.startCheckpoint n r.byReg).mbAll else u.regDone r.byReg))) ∧
  (∀ (h : Fin 2) (r : SnapReq) (s : State), (s.bnk h).cur = some r →
    let img := finishImage r.image (match (s.leng h).pause with
      | some q => sumN (q.skipped.map (·.2))
      | none => 0)
    let u := s.start.setBank h { s.bnk h with cur := none }
    let part := match u.pop h r.pop with
      | some p => p.part
      | none => 0
    let back := (u.endPause h).bhState h r.pop 0
    exec (.snapshotCopyDone h true) s = .next ((State.nextSnap 9 h ((((back.freeBlocks h r.blocks).setDirty h r.pop).record
      { cls := 1, status := stECC, unit := 0x34 + h, part := part, block := 0x14 }).endReq r stECC [])).mbAll) ∧
    (r.readout = true →
      let st := u.memCheck (r.fn.getD part) true r.dest img.length
      (st = stOK → exec (.snapshotCopyDone h false) s = .next ((State.nextSnap 9 h ((((u.writeBytes r.dest img).endPause h).bhState h r.pop 0).endReq r stOK
        (leBytes 8 img.length ++ leBytes 8 r.t))).mbAll)) ∧
      (st ≠ stOK → exec (.snapshotCopyDone h false) s = .next ((State.nextSnap 9 h (back.endReq r st [])).mbAll))) ∧
    (r.readout = false →
      let v := (u.endPause h).bhState h r.pop 2
      exec (.snapshotCopyDone h false) s = .next ((State.nextSnap 9 h (v.setBank h { v.bnk h with writing := (v.bnk h).writing ++
        [({ pop := r.pop, blocks := r.blocks, image := img, t := r.t, attempt := 0, verifying := false, fn := r.fn, byReg := r.byReg } : SlotWrite)] })).mbAll))) ∧
  (∀ (b : Fin 2) (w : SlotWrite) (ws : List SlotWrite) (s : State), (s.bnk b).writing = w :: ws → (s.bnk b).stopped = false →
    (w.verifying = false →
      let u := (w.blocks.zip (List.range w.blocks.length)).foldl (fun (s : State) ki => s.bhWrite (blockOff b ki.1) (((slotBytes w).drop (ki.2 * 65536)).take 65536)) s.start
      exec (.slotWriteDone b []) s = .next ((u.setBank b { u.bnk b with writing := ({ w with verifying := true } : SlotWrite) :: ws, writes := (w.blocks.foldl (fun t k => Tbl.set 0 t k (Tbl.get 0 t k + 1)) (u.bnk b).writes), recent := (u.bnk b).recent ++ [(s.now, w.blocks.length)] }).mbAll)) ∧
    (w.verifying = true →
      let u := fun (c e : Nat) => ((s.start.bump Fld.BH_CE_CNT_CNT b c).bump Fld.BH_UE_CNT_CNT b e)
      let v := fun (c e : Nat) => (u c e).setBank b { (u c e).bnk b with writing := ws }
      (∀ (c k : Nat) (ks : List Nat), exec (.readbackDone b c (k :: ks)) s = .next (((v c (ks.length + 1)).slotFailed b w (k :: ks)).mbAll)) ∧
      (∀ (c : Nat) (p : Pop), (v c 0).pop b w.pop = some p →
        let n := 64 * b.val + w.pop
        let seq := ((v c 0).bnk b).seq
        let logged := (v c 0).logRecord b 1 w.pop p.part (w.blocks.headD 0) p.sig w.t w.image.length
        let old := match Tbl.get none (logged.bnk b).committed n with
          | some o => o.1
          | none => []
        let done := logged.setBank b { logged.bnk b with committed := Tbl.set none (logged.bnk b).committed n (some (w.blocks, seq)) }
        let shown := ((done.freeBlocks b old).put Fld.BH_POP_LAST_T_PAUSE n w.t).bhState b w.pop 0
        let counted := if w.powerFail = true then shown.bump Fld.BH_PF_CNT_CNT b 1 else shown
        exec (.readbackDone b c []) s = .next (((counted.mbEndFor w.fn stOK (leBytes 8 w.t)).regDone w.byReg).mbAll))))

/-- R391, R400, R494 to R498, R537 and R576 for NOP, HEARTBEAT, LANE_MOD_TEACH, LANE_MOD_MARK, LANE_MOD_CANCEL and LANE_ACK. The doorbell is part of the command (log entry 51). -/
def Obligations.MailboxCommandsRunInSequence : Prop :=
  ∀ (f : Fin 8) (q : BitVec 32) (irq : Bool) (s : State), s.mbReady f = true →
    let ring := (s.start.mbRing f).mbAdvance f
    let go := fun (op : Nat) (a : List Byte) => ring.mbBegin f q.toNat op irq (mbArgs a)
    (q.toNat = s.get Fld.HOST_MB_NEXT_SEQ_SEQ f →
      exec (.nop f q irq) s = .next (((go 0x01 []).mbEnd f stOK []).mbAll) ∧
      (∀ v : BitVec 32,
        let u := (go 0x0A (leBytes 4 v.toNat)).put Fld.HOST_HB_LAST_VALUE f v.toNat
        let kept := { u with err := { u.err with hbAt := Tbl.set none u.err.hbAt f (some u.now), hbLate := NatSet.del u.err.hbLate f } }
        exec (.heartbeat f q irq v) s = .next (((if NatSet.has s.err.hbLate f then kept.record { cls := 0, status := stOK, part := f, block := 0x17 } else kept).mbEnd f stOK
          (leBytes 4 v.toNat)).mbAll)) ∧
      (∀ l : BitVec 8, s.laneOf f l.toNat = true →
        let n := leBytes 4 (s.get Fld.RPT_NEXT_SEQ_SEQ l.toNat)
        let at_ := fun (k : Nat) => go 0x07 (leBytes 1 l.toNat ++ leBytes 1 k)
        exec (.laneModTeach f q irq l) s = .next ((((at_ 1).teach l.toNat 2).mbEnd f stOK n).mbAll) ∧
        exec (.laneModMark f q irq l) s = .next ((((at_ 2).mark l.toNat 2).mbEnd f stOK n).mbAll) ∧
        exec (.laneModCancel f q irq l) s = .next ((((at_ 3).cancelMod l.toNat 2).mbEnd f stOK n).mbAll) ∧
        exec (.laneAck f q irq l) s = .next (((((go 0x08 (leBytes 1 l.toNat)).ackLane l.toNat 2).silence).mbEnd f stOK
          (if s.get Fld.LRN_NOV_STATE_STATE l.toNat = 2 then n else leBytes 4 0xFFFFFFFF)).mbAll)) ∧
      (∀ l : BitVec 8, s.laneOf f l.toNat = false → exec (.laneAck f q irq l) s = .next (((go 0x08 (leBytes 1 l.toNat)).mbEnd f stDENIED []).mbAll))) ∧
    (q.toNat ≠ s.get Fld.HOST_MB_NEXT_SEQ_SEQ f →
      let old := (Tbl.get [] s.host.done f).find? fun (c : Completion) => c.seq = q.toNat
      (∀ c : Completion, seqBefore (s.get Fld.HOST_MB_NEXT_SEQ_SEQ f) q.toNat = true → old = some c →
        exec (.nop f q irq) s = .next (((ring.bump Fld.HOST_MB_DUP_CNT_CNT f 1).mbWrite f c.seq c.op stDUPLICATE c.status c.result c.time irq).mbAll)) ∧
      (seqBefore (s.get Fld.HOST_MB_NEXT_SEQ_SEQ f) q.toNat = false ∨ old = none →
        exec (.nop f q irq) s = .next ((ring.mbWrite f q.toNat 1 stDENIED stDENIED [] s.dev irq).mbAll)))

/-- R427, R435 to R437, R453, R460, R465, R499 to R501 for LOAD_MODEL, REPLACE_MODEL, UNLOAD_MODEL, READOUT, CHECKPOINT, CAPTURE_FRAME, FLASH_ERASE, FLASH_WRITE and FLASH_READ. -/
def Obligations.MailboxCommandsReachTheirBlocks : Prop :=
  ∀ (f : Fin 8) (q : BitVec 32) (irq : Bool) (s : State), s.mbReady f = true → q.toNat = s.get Fld.HOST_MB_NEXT_SEQ_SEQ f →
    let go := fun (op : Nat) (a : List Byte) => ((s.start.mbRing f).mbAdvance f).mbBegin f q.toNat op irq (mbArgs a)
    (∀ a : List Byte, allZero (slice (mbArgs a) 12 4) = true → allZero ((mbArgs a).drop 24) = true → leAt (mbArgs a) 8 4 ≠ 0 →
      ∀ u : State, (u = go 0x02 a → u.memCheck f false (leAt (mbArgs a) 0 8) (leAt (mbArgs a) 8 4) = stOK → leAt (mbArgs a) 16 8 = 0 →
          exec (.loadModel f q irq a) s = .next (((u.askAdmit { kind := 1, part := f, id := 0, image := u.readBytes (leAt (mbArgs a) 0 8) (leAt (mbArgs a) 8 4), fn := some f, short := 0 }).getD
            (u.mbEnd f stBUSY [])).mbAll)) ∧
        (u = go 0x03 a → u.memCheck f false (leAt (mbArgs a) 0 8) (leAt (mbArgs a) 8 4) = stOK → leAt (mbArgs a) 16 8 = 0 →
          exec (.replaceModel f q irq a) s = .next (((u.askAdmit { kind := 2, part := f, id := 0, image := u.readBytes (leAt (mbArgs a) 0 8) (leAt (mbArgs a) 8 4), fn := some f, short := 0 }).getD
            (u.mbEnd f stBUSY [])).mbAll))) ∧
    (∀ id : BitVec 32,
      let u := go 0x04 (leBytes 4 id.toNat)
      exec (.unloadModel f q irq id) s = .next (((u.askAdmit { kind := 3, part := f, id := id.toNat, image := [], fn := some f, short := 0 }).getD (u.mbEnd f stBUSY [])).mbAll)) ∧
    (∀ a : List Byte, allZero (slice (mbArgs a) 2 6) = true → allZero ((mbArgs a).drop 24) = true → leAt (mbArgs a) 0 1 < 2 →
      ∀ p : Pop,
      let u := go 0x05 a
      let h := leAt (mbArgs a) 0 1
      let n := leAt (mbArgs a) 1 1
      u.pop h n = some p → p.part = f.val → modeReads p.mode = true →
      let need := (u.snapshot h n p true false).length
      (leAt (mbArgs a) 16 8 < need → exec (.readout f q irq a) s = .next ((u.mbEnd f stREFUSED (leBytes 8 need)).mbAll)) ∧
      (need ≤ leAt (mbArgs a) 16 8 → u.memCheck f true (leAt (mbArgs a) 8 8) need = stOK →
        exec (.readout f q irq a) s = .next ((((u.wake (54 + h)).askSnap h { pop := n, readout := true, dest := leAt (mbArgs a) 8 8, len := leAt (mbArgs a) 16 8, fn := some f.val }).getD
          ((u.wake (54 + h)).mbEnd f stBUSY [])).mbAll))) ∧
    (∀ (h n : BitVec 8) (p : Pop),
      let u := go 0x06 (leBytes 1 h.toNat ++ leBytes 1 n.toNat)
      h.toNat < 2 → u.pop h.toNat n.toNat = some p → p.part = f.val → modeKeeps p.mode = true →
      (p.dirty = false → exec (.checkpoint f q irq h n) s = .next ((u.mbEnd f stOK (leBytes 8 (u.get Fld.BH_POP_LAST_T_PAUSE (64 * h.toNat + n.toNat)))).mbAll)) ∧
      (p.dirty = true → u.wearOk h.toNat p = true → u.learnOff = false → u.get Fld.BH_POP_STATUS_SUSPENDED (64 * h.toNat + n.toNat) ≠ 1 →
        exec (.checkpoint f q irq h n) s = .next (((u.askSnap h.toNat { pop := n.toNat, readout := false, fn := some f.val }).getD (u.mbEnd f stBUSY [])).mbAll))) ∧
    (∀ a : List Byte, allZero (slice (mbArgs a) 1 7) = true → allZero ((mbArgs a).drop 24) = true →
      let u := go 0x09 a
      let l := leAt (mbArgs a) 0 1
      let need := u.laneField l 0x66 2 * u.laneField l 0x68 2 * 3 / 2
      u.laneOf f l = true → u.laneKind l = 1 → need ≤ leAt (mbArgs a) 16 8 → u.memCheck f true (leAt (mbArgs a) 8 8) need = stOK → u.spareSlots (u.laneField l 4 1) ≠ 0 →
      (u.lane l).capture = none →
      exec (.captureFrame f q irq a) s = .next (((u.wake (62 + 3 * u.laneField l 4 1)).setLane l
        { u.lane l with capture := some (f.val, leAt (mbArgs a) 8 8, s.now) }).mbAll)) ∧
    (∀ a : List Byte, allZero (slice (mbArgs a) 1 3) = true → allZero ((mbArgs a).drop 12) = true →
      let u := go 0x10 a
      let b := slotBase (leAt (mbArgs a) 0 1) + leAt (mbArgs a) 4 4
      let c := u.flashCheck f (leAt (mbArgs a) 0 1) (leAt (mbArgs a) 4 4) (leAt (mbArgs a) 8 4) 65536
      (c ≠ stOK → exec (.flashErase f q irq a) s = .next ((u.mbEnd f c []).mbAll)) ∧
      (c = stOK → ∃ v : State, exec (.flashErase f q irq a) s = .next ((v.mbEnd f stOK []).mbAll) ∧ v = { u with boot := { u.boot with flash := v.boot.flash, flashWritten := v.boot.flashWritten } } ∧
        ∀ k : Nat, (b ≤ k ∧ k < b + leAt (mbArgs a) 8 4 → v.flashByte k = 0xFF) ∧ (¬ (b ≤ k ∧ k < b + leAt (mbArgs a) 8 4) → v.flashByte k = u.flashByte k))) ∧
    (∀ a : List Byte, allZero (slice (mbArgs a) 1 3) = true → allZero (slice (mbArgs a) 12 4) = true → allZero ((mbArgs a).drop 24) = true →
      let off := leAt (mbArgs a) 4 4
      let len := leAt (mbArgs a) 8 4
      let m := leAt (mbArgs a) 16 8
      let b := slotBase (leAt (mbArgs a) 0 1) + off
      len ≠ 0 →
      (∀ u : State, u = go 0x11 a → len ≤ 0x100000 → u.flashCheck f (leAt (mbArgs a) 0 1) off len 256 = stOK → u.memCheck f false m len = stOK →
        ((List.range (len / 256)).any fun i => NatSet.has u.boot.flashWritten (b / 256 + i)) = false →
        exec (.flashWrite f q irq a false) s = .next (((u.flashPut b (u.readBytes m len)).mbEnd f stOK (leBytes 4 (crc32 (u.readBytes m len)))).mbAll)) ∧
      (∀ u : State, u = go 0x12 a → u.flashCheck f (leAt (mbArgs a) 0 1) off len 1 = stOK → u.memCheck f true m len = stOK →
        exec (.flashRead f q irq a) s = .next (((u.writeBytes m (u.flashBytes b len)).mbEnd f stOK (leBytes 4 (crc32 (u.flashBytes b len)))).mbAll)))

/-- R15, R16, R477 to R479, R493, R494, R497, R519 and R557 for HOST_MB_TAIL_WRITE, HOST_MB_CFG_WRITE, HOST_MB_CQ_HEAD_WRITE, RPT_RING_CONS_WRITE, RPT_RING_BASE_WRITE and ERR_CONS_WRITE. -/
def Obligations.HostRegistersDriveTheirRings : Prop :=
  (∀ (src : RegSrc) (f : Fin 8) (v : Word) (bs : List HostByte) (s : State),
    let off := 0x170014 + f.val * 0x40
    let u := s.start.hostBytes f bs
    u.reaches src off = true → exec (.hostMbTailWrite src f v bs) s = .next (((u.heal off).put Fld.HOST_MB_TAIL_TAIL f v.toNat).mbAll.regAnswer stOK 0)) ∧
  (∀ (src : RegSrc) (f : Fin 8) (v : Word) (s : State),
    let off := 0x17001C + f.val * 0x40
    s.start.reaches src off = true → exec (.hostMbCqHeadWrite src f v) s = .next (((s.start.heal off).put Fld.HOST_MB_CQ_HEAD_CQ_HEAD f v.toNat).mbAll.regAnswer stOK 0)) ∧
  (∀ (src : RegSrc) (f : Fin 8) (v : Word) (s : State),
    let off := 0x170010 + f.val * 0x40
    s.start.reaches src off = true → ∃ t : State, exec (.hostMbCfgWrite src f v) s = .next (t.mbAll.regAnswer stOK 0) ∧ t = { s.start.heal off with flds := t.flds } ∧
      t.get Fld.HOST_MB_CFG_ENABLE f = bits v.toNat 8 8 ∧ t.get Fld.HOST_MB_CFG_LOG2_CQ f = (if 6 ≤ bits v.toNat 7 4 ∧ bits v.toNat 7 4 ≤ 12 then bits v.toNat 7 4 else s.get Fld.HOST_MB_CFG_LOG2_CQ f) ∧
      t.get Fld.HOST_MB_CFG_LOG2_CMD f = (if 6 ≤ bits v.toNat 3 0 ∧ bits v.toNat 3 0 ≤ 12 then bits v.toNat 3 0 else s.get Fld.HOST_MB_CFG_LOG2_CMD f) ∧
      t.get Fld.HOST_MB_CFG_FAULT f = (if s.flag Fld.HOST_MB_CFG_ENABLE f = false ∧ bits v.toNat 8 8 = 1 then 0 else s.get Fld.HOST_MB_CFG_FAULT f)) ∧
  (∀ (src : RegSrc) (p : Fin 8) (v : Word) (s : State),
    let off := 0x16000C + p.val * 0x40
    let cons := s.get Fld.RPT_RING_CONS_CONS p
    let room := (s.get Fld.RPT_RING_PROD_PROD p + 2 ^ 32 - cons) % 2 ^ 32
    s.start.reaches src off = true →
      ((v.toNat + 2 ^ 32 - cons) % 2 ^ 32 ≤ room → exec (.rptRingConsWrite src p v) s = .next ((((s.start.heal off).put Fld.RPT_RING_CONS_CONS p v.toNat).drainAll p).regAnswer stOK 0)) ∧
      (room < (v.toNat + 2 ^ 32 - cons) % 2 ^ 32 → exec (.rptRingConsWrite src p v) s = .next (((s.start.heal off).record
        { cls := 0, status := stDENIED, part := p, block := 0x16, infoKind := 3, info := off }).regAnswer stOK 0))) ∧
  (∀ (src : RegSrc) (r : Fin 9) (v : Word) (s : State),
    let off := 0x1B0004 + r.val * 0x40
    let cons := s.get Fld.ERR_CONS_CONS r
    let room := (s.get Fld.ERR_PROD_PROD r + 65536 - cons) % 65536
    s.start.reaches src off = true →
      ((v.toNat % 65536 + 65536 - cons) % 65536 ≤ room → exec (.errConsWrite src r v) s = .next (((s.start.heal off).put Fld.ERR_CONS_CONS r v.toNat).regAnswer stOK 0)) ∧
      (room < (v.toNat % 65536 + 65536 - cons) % 65536 → exec (.errConsWrite src r v) s = .next ((s.start.heal off).regAnswer stOK 0))) ∧
  (∀ (src : RegSrc) (p : Fin 8) (v : BitVec 64) (s : State),
    let off := 0x160000 + p.val * 0x40
    let low := s.start.busWrite src off 4 (v.toNat % 2 ^ 32)
    s.start.reaches src off = true → low.reaches src (off + 4) = true → (low.hold (low.regWho src).key).word = some (off, v.toNat % 2 ^ 32) →
      exec (.rptRingBaseWrite src p v) s = .next (((((low.heal off).setHold (low.regWho src).key { low.hold (low.regWho src).key with word := none }).put
        Fld.RPT_RING_BASE_BASE p (v.toNat / 64)).drainAll p).regAnswer stOK 0))

/-- R561, R564, R566, R568, R570, R576 and R579 for ERR_UNIT_RESET, ERR_UNIT_UPDATE, PARTITION_RESTART, QUIESCE_DRAIN_DONE, DRAIN_TIMEOUT, HEARTBEAT_EXPIRY and PARTITION_AUTO_RESTART. -/
def Obligations.RecoveryCommandsActOnTheirUnit : Prop :=
  (∀ (src : RegSrc) (n : BitVec 8) (s : State), s.start.reaches src 0x1B0240 = true →
    let u := s.start.heal 0x1B0240
    let asked := (u.put Fld.ERR_UNIT_STATUS_PENDING 0 1).unitDone n.toNat stOK
    ((n.toNat = 0x45 ∨ s.unitFitted n.toNat = false ∨ s.isRetired n.toNat = true) → exec (.errUnitReset src n) s = .next ((u.unitDone n.toNat stDENIED).regAnswer stOK 0)) ∧
    (n.toNat ≠ 0x45 → s.unitFitted n.toNat = true → s.isRetired n.toNat = false →
      (s.quiescing n.toNat = true ∨ (s.err.cur.isSome = true ∧ 8 ≤ s.err.queue.length) → exec (.errUnitReset src n) s = .next ((u.unitDone n.toNat stBUSY).regAnswer stOK 0)) ∧
      (s.quiescing n.toNat = false → (s.err.cur = none ∨ s.err.queue.length < 8) → exec (.errUnitReset src n) s = .next (((State.nextQuiesce 10
        ({ asked with err := { asked.err with queue := asked.err.queue ++ [(n.toNat, QAct.reset)] } }).showQuiesce).mbAll).regAnswer stOK 0))) ∧
    (n.toNat ≠ 0x45 → exec (.errUnitUpdate src n) s = .next ((u.unitDone n.toNat stDENIED).regAnswer stOK 0)) ∧
    (n.toNat = 0x45 → s.quiescing 0x45 = false → s.err.cur = none → exec (.errUnitUpdate src n) s = .next (((State.nextQuiesce 10
        ({ asked with err := { asked.err with queue := asked.err.queue ++ [(0x45, QAct.update)] } }).showQuiesce).mbAll).regAnswer stOK 0))) ∧
  (∀ (src : RegSrc) (p : Fin 8) (s : State), s.start.reaches src (0x1B0014 + p.val * 0x40) = true →
    let u := s.start.heal (0x1B0014 + p.val * 0x40)
    exec (.partitionRestart src p) s = .next ((u.restartPart p).mbAll.regAnswer stOK 0) ∧ (s.partRunning p = true → u.restartPart p = u)) ∧
  (∀ (p : Fin 8) (s : State),
    (s.get Fld.ERR_PART_CFG_AUTO_S p ≠ 0 → NatSet.has s.err.noAuto p = false → s.err.coxHalted = false → exec (.partitionAutoRestart p) s = .next ((s.start.restartPart p).mbAll)) ∧
    (s.get Fld.ERR_PART_CFG_HB_MS p ≠ 0 → NatSet.has s.err.hbLate p = false → s.err.coxHalted = false → s.alive = true →
      let late := ({ s.start with err := { s.err with hbLate := NatSet.add s.err.hbLate p } }).record { cls := 1, status := stTIMEOUT, part := p, block := 0x1B }
      exec (.heartbeatExpiry p) s = .next (if late.get Fld.ERR_PART_CFG_HB_ACTION p = 2 ∧ late.partRunning p = true then late.partFatal p stTIMEOUT else late))) ∧
  (∀ (u : Nat) (a : QAct) (s : State), s.err.cur = some (u, a) → s.err.coxHalted = false → Tbl.get none s.pwr.returning (unitDomain u) = none →
    exec .drainTimeout s = .next ((s.start.silentUnit u).mbAll) ∧
    (s.hasDrained u a = false → exec .quiesceDrainDone s = .next s.start.mbAll) ∧
    (s.hasDrained u a = true → a = .reset → exec .quiesceDrainDone s = .next ((State.nextQuiesce 10 (((s.start.drainUnit u true).bumpEpoch u).cycle u (s.epoch u))).mbAll)) ∧
    (s.hasDrained u a = true → a = .autoOff → exec .quiesceDrainDone s = .next ((State.nextQuiesce 10 ((((s.start.drainUnit u true).bumpEpoch u).domainOff (unitDomain u)).endQuiesce stOK)).mbAll)))

/-- R481 to R485 and R520 for COLLECTOR_FLUSH, COLLECTOR_ACK, DATAGRAM_RESEND, NEXT_HOP_RESOLVE and COLLECTOR_DOWN. Where an abandoned datagram's markers go is DEDUCED (log entry 52). -/
def Obligations.CollectorsSendAndResend : Prop :=
  ∀ (i : Fin 4) (c : Collector) (s : State), s.col i = some c →
    (c.fill ≠ [] → s.get Fld.RPT_COL_STATUS_RESOLVED i ≠ 0 → s.colFull i c = false →
      let kept : Dgram := { dseq := c.dseq, recs := c.fill.take 22, sentAt := s.now, resends := 0 }
      exec (.collectorFlush i) s = .next (((s.start.setCol i { c with fill := c.fill.drop 22, firstAt := s.now, dseq := (c.dseq + 1) % 2 ^ 32, unacked := (if s.flag Fld.RPT_COL_CFG_ACK_MODE i = true then c.unacked ++ [kept] else c.unacked) }).bump
        Fld.RPT_COL_DGRAM_CNT_CNT i 1).emit (.datagram i (s.colPort c) (s.dgramBytes i c.dseq 0 (c.fill.take 22))))) ∧
    (s.colFull i c = true → exec (.collectorFlush i) s = .next s.start) ∧
    (∀ q : BitVec 32, s.flag Fld.RPT_COL_CFG_ACK_MODE i = true →
      ((c.unacked.any fun (x : Dgram) => x.dseq = q.toNat) = true → exec (.collectorAck i q true) s = .next ((s.start.setCol i
        { c with unacked := (c.unacked.filter (fun (x : Dgram) => x.dseq ≠ q.toNat)), acked := NatSet.add c.acked q.toNat }).colResume i)) ∧
      ((c.unacked.any fun (x : Dgram) => x.dseq = q.toNat) = false → NatSet.has c.acked q.toNat = true →
        exec (.collectorAck i q true) s = .next (s.start.bump Fld.RPT_COL_DUP_CNT_CNT i 1))) ∧
    (∀ (q : BitVec 32) (d : Dgram), (c.unacked.find? fun (x : Dgram) => x.dseq = q.toNat) = some d →
      (d.resends < 5 →
        let again : Dgram := { d with sentAt := s.now, resends := d.resends + 1 }
        exec (.datagramResend i q) s = .next (((s.start.setCol i { c with unacked := (c.unacked.map (fun (x : Dgram) => if x.dseq = d.dseq then again else x)) }).bump
          Fld.RPT_COL_RETX_CNT_CNT i 1).emit (.datagram i (s.colPort c) (s.dgramBytes i d.dseq 1 d.recs)))) ∧
      (5 ≤ d.resends → exec (.datagramResend i q) s = .next (((s.start.setCol i { c with unacked := (c.unacked.filter (fun (x : Dgram) => x.dseq ≠ d.dseq)), fill := s.withAbandoned c.fill d.recs, firstAt := (if c.fill = [] then s.now else c.firstAt) }).bump
        Fld.RPT_COL_LOST_CNT_CNT i (d.recs.filter (fun (x : Report) => !x.isMarker)).length).colResume i))) ∧
    ((s.colPort c).any (fun (p : Nat × Nat) => s.portLink p.1 p.2) = true →
      exec (.nextHopResolve i true) s = .next (((s.start.put Fld.RPT_COL_STATUS_RESOLVED i 1).put Fld.RPT_COL_STATUS_DOWN i 0).colResume i)) ∧
    (∀ found : Bool, found = false ∨ (s.colPort c).any (fun (p : Nat × Nat) => s.portLink p.1 p.2) = false → s.get Fld.RPT_COL_STATUS_RESOLVED i = 1 → exec (.nextHopResolve i found) s = .next ((s.start.put Fld.RPT_COL_STATUS_RESOLVED i 0).setCol i { c with unresolvedAt := s.now })) ∧
    (s.get Fld.RPT_COL_STATUS_RESOLVED i ≠ 1 → s.flag Fld.RPT_COL_STATUS_DOWN i = false → exec (.collectorDown i) s =
      .next ((c.fill.foldl (fun (s : State) r => s.colDrop i r) ((s.start.setCol i { c with fill := [] }).put Fld.RPT_COL_STATUS_DOWN i 1)).record (recX 0x16 stDOWN)))

/-- R30, R479, R491, R492 and R645 for FUNCTION_LEVEL_RESET, PCIE_LINK_DOWN, PCIE_LINK_UP and INTERRUPT_INTERVAL_EXPIRY. -/
def Obligations.HostLinksComeAndGo : Prop :=
  (∀ (f : Fin 8) (s : State), f = 0 ∨ (Tbl.get none s.boot.parts f).isSome = true → ∃ t : State, exec (.functionLevelReset f) s = .next t ∧ t = { s.start with flds := t.flds, host := t.host } ∧
    t.host = { s.host with cqCount := t.host.cqCount } ∧ Tbl.get 0 t.host.cqCount f.val = 0 ∧
    (∀ r ∈ [Fld.RPT_RING_BASE_BASE, Fld.RPT_RING_PROD_PROD, Fld.RPT_RING_CONS_CONS, Fld.HOST_MB_BASE_BASE, Fld.HOST_MB_CQ_BASE_BASE, Fld.HOST_MB_CFG_ENABLE, Fld.HOST_MB_TAIL_TAIL,
      Fld.HOST_MB_HEAD_HEAD, Fld.HOST_MB_CQ_HEAD_CQ_HEAD], t.get r f = 0) ∧
    t.get Fld.HOST_MB_NEXT_SEQ_SEQ f = s.get Fld.HOST_MB_NEXT_SEQ_SEQ f ∧ t.get Fld.HOST_MB_DUP_CNT_CNT f = s.get Fld.HOST_MB_DUP_CNT_CNT f) ∧
  (∀ s : State, ∃ t : State, exec .pcieLinkDown s = .next t ∧ t = { s.start with flds := t.flds } ∧ t.get Fld.HOST_LINK_STATUS_UP 0 = 0 ∧
    t.get Fld.HOST_LINK_STATUS_SPEED 0 = 0 ∧ t.get Fld.HOST_LINK_STATUS_WIDTH 0 = 0) ∧
  (∀ (k : Fin 5) (w : BitVec 4) (s : State), s.domOn 70 = true → s.mod.perst = false → s.boot.phase ≠ .powerFail → ∃ t : State,
    exec (.pcieLinkUp k w) s = .next ((((List.range 8).foldl State.drainAll t).fireDue).mbAll) ∧ t = { s.start with flds := t.flds } ∧
    t.get Fld.HOST_LINK_STATUS_UP 0 = 1 ∧ t.get Fld.HOST_LINK_STATUS_SPEED 0 = k.val ∧ t.get Fld.HOST_LINK_STATUS_WIDTH 0 = w.toNat) ∧
  (∀ (f v : Fin 8) (s : State),
    let u := { s.start with host := { s.host with irqAt := Tbl.set none s.host.irqAt (f.val * 8 + v.val) none } }
    let held : Bool := v.val = 2 && (s.get Fld.XLU_FQ_HEAD_HEAD f ≠ s.get Fld.XLU_FQ_TAIL_TAIL f || s.flag Fld.XLU_FQ_STATUS_FAULTQ_FULL f)
    exec (.interruptIntervalExpiry f v) s = .next (if NatSet.has s.host.irqDue (f.val * 8 + v.val) = true ∨ held = true then u.msix f v else u))

/-- R503 to R508, R511, R517 and R654 for FLIT_RECEIVE, REPLAY_TIMEOUT, RETRAIN_DONE, IDLE_FLIT_TIMER and LINK_TRAIN_ATTEMPT. -/
def Obligations.LinkPortsKeepTheirFlits : Prop :=
  ∀ (d : Fin 3) (s : State), s.linkOn d = true →
    (s.portUp d = true →
      (∃ t : State, exec (.idleFlitTimer d) s = .next t ∧ t = { s.start with jl := t.jl, out := t.out } ∧ t.jl = { s.jl with ports := t.jl.ports } ∧
        t.jlPort d = { s.jlPort d with freedReq := 0, freedRsp := 0 } ∧
        t.out = [.flit d (flitBytes 0 (s.jlPort d).lastAccepted 2 (s.jlPort d).freedReq (s.jlPort d).freedRsp (s.get Fld.GLB_PKG_ID_PKG_ID 0) [])]) ∧
      exec (.replayTimeout d) s = .next (s.start.resend d) ∧
      (∀ bs : List Byte, exec (.flitReceive d bs) s = .next ((((s.start.flitIn d bs).monitorGo).portGo d).settle) ∧
        (bs.length ≠ 128 → (s.jlPort d).badRun < 15 → (s.jlPort d).nakSent = true → ∃ t : State, s.start.flitIn d bs = t ∧ t = { s.start with flds := t.flds, jl := t.jl } ∧
          t.jlPort d = { s.jlPort d with badRun := (s.jlPort d).badRun + 1 }))) ∧
    (s.get Fld.JL_STATUS_STATE d = 1 → (s.jlPort d).trying = true →
      let n := (s.jlPort d).replay.length
      exec (.retrainDone d true) s = .next ((((s.start.setPort d { s.jlPort d with replay := ((List.range n).zip ((s.jlPort d).replay.map (·.2))), nextSeq := n, trying := false }).put
        Fld.JL_STATUS_STATE d 2).resend d).portGo d) ∧
      (let fails := s.now :: ((s.jlPort d).retrains.filter (fun (t : Nat) => decide (s.now < t + 1000000000)))
       let u := s.start.setPort d { s.jlPort d with retrains := fails }
       exec (.retrainDone d false) s = .next (if 3 ≤ fails.length then u.portDown d else u.bump Fld.JL_RETRAIN_CNT_CNT d 1))) ∧
    (s.portUp d = false → (s.jlPort d).trying = false →
      let plug := fun (cable : Bool) => { s.start with mod := { s.mod with cables := (if cable then NatSet.add s.mod.cables d else NatSet.del s.mod.cables d) } }
      (∀ (cable ok : Bool) (q : BitVec 4), cable = false ∨ ok = false → exec (.linkTrainAttempt d cable ok q) s = .next ((plug cable).portDown d)) ∧
      (∀ q : BitVec 4,
        let shown := ((plug true).put Fld.JL_STATUS_PARTNER d q.toNat).put Fld.JL_STATUS_PARTNER_VALID d 1
        let down := (shown.setPort d {}).put Fld.JL_STATUS_STATE d 0
        (q.toNat ≠ s.get Fld.GLB_PKG_ID_PKG_ID 0 → exec (.linkTrainAttempt d true true q) s = .next (((shown.setPort d { waiting := (s.jlPort d).waiting }).put Fld.JL_STATUS_STATE d 2).portGo d)) ∧
        (q.toNat = s.get Fld.GLB_PKG_ID_PKG_ID 0 → exec (.linkTrainAttempt d true true q) s =
          .next (if s.flag Fld.JL_STATUS_PARTNER_VALID d = true ∧ s.get Fld.JL_STATUS_PARTNER d = q.toNat then down
            else down.record { cls := 0, status := stCONFLICT, unit := 0x3A + 3 * d.val, block := 0x18 }))))

/-- R509 to R516 and R583 for JL_READ_ONCE, JL_WRITE_LINE, JL_ATOMIC, JL_EPOCH, JL_ACK, JL_DATA, DUP_WINDOW_EXPIRY and TAG_HOLD_EXPIRY. That the rows deliver messages without their flit is a DESIGN CHOICE (log entry 53). -/
def Obligations.LinkMessagesAreServedOnce : Prop :=
  (∀ (d : Fin 3) (m : LinkMsg) (e : Ecc) (s : State), s.linkOn d = true →
    exec (.jlReadOnce d m e) s = .next ((s.start.jlMessage d (jlOf 1 false m) e).settle) ∧ exec (.jlWriteLine d m e) s = .next ((s.start.jlMessage d (jlOf 2 false m) e).settle) ∧
    exec (.jlAtomic d m e) s = .next ((s.start.jlMessage d (jlOf 3 false m) e).settle) ∧ exec (.jlEpoch d m) s = .next (s.start.jlMessage d (jlOf 4 false m) .clean) ∧
    exec (.jlAck d m) s = .next ((s.start.jlMessage d (jlOf 0x81 true m) .clean).monitorGo.settle) ∧ exec (.jlData d m) s = .next ((s.start.jlMessage d (jlOf 0x82 true m) .clean).monitorGo.settle)) ∧
  (∀ (d : Fin 3) (m : LinkMsg) (s : State), s.linkOn d = true → m.srcPkg.toNat = s.get Fld.GLB_PKG_ID_PKG_ID 0 →
    (∀ t ∈ s.jl.tags, t.unit = m.srcUnit.toNat → t.tag = m.tag.toNat % 4096 → t.answered = true) → s.dbg.held = none → s.coh.waitRel = [] → (jlOf 0x81 true m).hops ≠ 15 →
    ∃ t : State, exec (.jlAck d m) s = .next t ∧ t = { s.start with flds := t.flds, jl := t.jl } ∧ t.jl = { s.jl with ports := t.jl.ports } ∧
      t.get Fld.JL_STRAY_CNT_CNT 0 = (if s.get Fld.JL_STRAY_CNT_CNT 0 + 1 < 2 ^ 32 then s.get Fld.JL_STRAY_CNT_CNT 0 + 1 else 2 ^ 32 - 1)) ∧
  (∀ (p : BitVec 4) (u : BitVec 8) (g : BitVec 12) (s : State), ∃ t : State, exec (.dupWindowExpiry p u g) s = .next t ∧ t = { s.start with jl := { s.jl with dup := t.jl.dup } } ∧
    ∀ x : DupEntry, x ∈ t.jl.dup ↔ x ∈ s.jl.dup ∧ ¬ (x.pkg = p.toNat ∧ x.unit = u.toNat ∧ x.tag = g.toNat)) ∧
  (∀ (u : BitVec 8) (g : BitVec 12) (s : State), ∃ t : State, exec (.tagHoldExpiry u g) s = .next (t.releaseHeld u.toNat) ∧ t = { s.start with jl := { s.jl with tags := t.jl.tags } } ∧
    ∀ x : TagUse, x ∈ t.jl.tags ↔ x ∈ s.jl.tags ∧ ¬ (x.unit = u.toNat ∧ x.tag = g.toNat ∧ x.hold = true ∧ x.answered = true))

/-- R43, R526 to R529, R533, R534, R536 to R539, R542, R546 to R548 for the rows KEY_PRESS to SINK_RETRY, PNL_SEL_WRITE, BUZZER_SILENCE and BUZZER_TEST. -/
def Obligations.PanelKeysAct : Prop :=
  (∀ (n : Fin 24) (s : State), s.panelUp = true → s.pinFunc n = 1 → s.key n = none →
    let k : KeyHeld := { act := s.pinArg n, target := s.selected, at_ := s.now, spent := decide (s.pinArg n = 1) }
    let u := s.start.setKey n (some k)
    (s.pnl.held ≠ [] → ∃ t : State, exec (.keyPress n) s = .next t ∧ t = { u with pnl := { u.pnl with chord := true, held := t.pnl.held } } ∧
      ∀ (j : Nat) (h : KeyHeld), (j, some h) ∈ t.pnl.held → h.spent = true) ∧
    (s.pnl.held = [] → (∀ l : Nat, s.pinArg n = 1 → s.selected = some l → exec (.keyPress n) s = .next (((u.mark l 0).acted).tone)) ∧
      (s.pinArg n ≠ 1 → exec (.keyPress n) s = .next u))) ∧
  (∀ (n : Fin 24) (k : KeyHeld) (s : State), s.key n = some k →
    let u := (s.start.setKey n none).setFault n false
    let v := if k.spent = true then u else u.shortAct k.act k.target
    exec (.keyRelease n) s = .next (if v.pnl.held = [] then { v with pnl := { v.pnl with chord := false } } else v) ∧
    (k.spent = false → exec (.keyLongPress n) s = .next ((s.start.setKey n (some { k with spent := true })).longAct k.act k.target)) ∧
    (k.spent = true → exec (.keyLongPress n) s = .next s.start) ∧
    (s.pinFault n = false → exec (.keyStuck n) s = .next (((s.start.setKey n (some { k with spent := true })).setFault n true).record (recC 0x1A stBUSY))) ∧
    (s.pinFault n = true → exec (.keyStuck n) s = .next s.start)) ∧
  (∀ (n c : Nat) (cs : List Nat) (s : State), s.panelUp = true → s.sliderPin 0 = some n → s.sliderPin 1 = none → s.sliderPin 2 = none → s.sliderPin 3 = none → s.pinFault n = false → s.touched n c = true →
    s.pnl.touching = false →
    let u := { s.start with pnl := { s.pnl with count := Tbl.set 0 s.pnl.count n c } }
    let v := { u with pnl := { u.pnl with touchRun := s.pnl.touchRun + 1, freeRun := 0, touching := decide (1 ≤ s.pnl.touchRun), finger := u.underFinger [(n, 0, c)] } }
    exec (.sliderSweep (c :: cs) []) s = .next (if s.pnl.touchRun = 0 then v.track n c else v)) ∧
  (∀ (n : Fin 24) (c : Nat) (cs : List Nat) (s : State), s.panelUp = true → s.capPlug n = true → (∀ k : Nat, s.sliderPin k = none) → s.pnl.touching = false →
    let u := { s.start with pnl := { s.pnl with count := Tbl.set 0 s.pnl.count n.val c } }
    let w := if s.pinFault n = true ∧ s.countOk n c = true then u.setFault n false else u
    let v := if w.plugReads n c = true then w else w.track n c
    exec (.sliderSweep cs [(n, c)]) s = .next { v with pnl := { v.pnl with touchRun := 0, freeRun := v.pnl.freeRun + 1 } }) ∧
  (∀ (n : Fin 24) (cs : List Nat) (ps : List (Fin 24 × Nat)) (s : State), s.panelUp = false →
    exec (.keyPress n) s = .next s.start ∧ exec (.sliderSweep cs ps) s = .next s.start ∧ exec (.sensorUnplug n) s = .next s.start ∧ exec (.sensorReplug n) s = .next s.start) ∧
  (∀ s : State, exec .selectionDisplayEnd s = .next { s.start with pnl := { s.pnl with showUntil := 0 } }) ∧
  (∀ (n : Fin 24) (s : State), s.plugPinOk n = true →
    (bit (s.get Fld.PNL_PLUGGED_PLUGGED 0) n = true → s.laneAdmitted (s.pinArg n) = true →
      (s.laneState (s.pinArg n) ≠ 5 → exec (.sensorUnplug n) s = .next ((s.start.plugChange n false).makeAbsent (s.pinArg n))) ∧
      (s.laneState (s.pinArg n) = 5 → exec (.sensorUnplug n) s = .next ((s.start.plugChange n false).setLane (s.pinArg n) { s.lane (s.pinArg n) with waiting := false }))) ∧
    (bit (s.get Fld.PNL_PLUGGED_PLUGGED 0) n = false → s.laneState (s.pinArg n) = 5 →
      exec (.sensorReplug n) s = .next ((s.start.plugChange n true).setLane (s.pinArg n) { s.lane (s.pinArg n) with waiting := true, waitAt := s.dev }))) ∧
  (∀ (l : Fin 64) (s : State), s.laneState l = 5 → (s.lane l).waiting = true → exec (.replugWaitTimeout l) s = .next (s.start.leaveAbsent l 4)) ∧
  (∀ (n : Fin 24) (s : State), s.panelUp = true →
    (s.pinFunc n = 2 ∨ (s.pinFunc n = 3 ∧ bit (s.pinArg2 n) 0 = true) → s.pinFault n = false → exec (.electrodeFault n) s = .next ((s.start.setFault n true).record (recC 0x1A stDOWN))) ∧
    (s.pinFunc n = 4 ∨ s.pinFunc n = 5 → s.pinFault n = false → exec (.sinkOvercurrent n) s = .next ((s.start.setFault n true).record (recC 0x1A stDOWN))) ∧
    (s.pinFunc n = 4 ∨ s.pinFunc n = 5 → exec (.sinkRetry n false) s = .next (s.start.setFault n false) ∧ exec (.sinkRetry n true) s = .next s.start)) ∧
  (∀ (src : RegSrc) (v : Word) (s : State), s.start.reaches src 0x1A010C = true →
    let u := s.start.heal 0x1A010C
    (u.listed.contains (v.toNat % 64) = true → exec (.pnlSelWrite src v) s = .next ((u.select (v.toNat % 64)).regAnswer stOK 0)) ∧
    (u.listed.contains (v.toNat % 64) = false → exec (.pnlSelWrite src v) s = .next ((u.record { cls := 0, status := stDENIED, block := 0x1A, infoKind := 3, info := 0x1A010C }).regAnswer stOK 0))) ∧
  (∀ (src : RegSrc) (s : State), s.start.reaches src 0x1A0114 = true →
    let u := s.start.heal 0x1A0114
    exec (.buzzerSilence src) s = .next (({ u with pnl := { u.pnl with alarm := false } }).regAnswer stOK 0) ∧
    exec (.buzzerTest src) s = .next (({ u with pnl := { u.pnl with testUntil := s.now + 1000000000 } }).regAnswer stOK 0))

/-- R41 to R45, R68, R71, R82, R84, R85, R433, R434, R598, R641, R642 and R663 for START_UP, FLASH_READ_TIMEOUT, TRAINING_COMPLETE, PWRFAIL, POWERFAIL_CONTROLLERS_STOP and RESTART_AFTER_PWRFAIL. -/
def Obligations.StartUpFollowsItsSteps : Prop :=
  (∀ (e : StartEnv) (s : State), s.boot.phase = .reset →
    let v := if e.powerOn = true then s.start.powerOnReset else s.start
    let u := (({ v with boot := { v.boot with env := some e } }).showLifecycle).console 1 0
    (s.burned 1 = true → ∃ t : State, exec (.startUp e) s = .next t ∧ t.bh = [] ∧ t.boot = { u.boot with phase := .stopped } ∧ t.mem = u.mem ∧ t.flds = u.flds ∧ t.get Fld.SEC_LIFECYCLE_STATE 0 = 3) ∧
    (s.burned 1 = false → u.otpOk = false → exec (.startUp e) s = .next (u.enterBare 0x13 e)) ∧
    (s.burned 1 = false → u.otpOk = true →
      (e.forceFactory = true ∨ e.teachAck = true → exec (.startUp e) s = .next (u.facLayer.enterBare 0x12 e)) ∧
      (e.forceFactory = false → e.teachAck = false → exec (.startUp e) s = .next ((u.facLayer.put Fld.BOOT_STATUS_STATE 0 0).readSlots e)))) ∧
  (∀ (e : StartEnv) (s : State), s.boot.phase ≠ .reset → exec (.startUp e) s = .next s.start) ∧
  (∀ (k : Fin 2) (e : StartEnv) (s : State), s.boot.phase = .readingSlot k.val → s.boot.env = some e → exec (.flashReadTimeout k) s = .next ((s.start.putCode k 0x0A).readSlots e)) ∧
  (∀ (c : Nat) (e : StartEnv) (s : State), ∃ t : State, s.enterBare c e = t ∧ t.boot.phase = .bare ∧ t.boot.ioaLost = (s.boot.ioaLost || e.ioaFails)) ∧
  (∀ (up : BitVec 4) (die cables : BitVec 3) (bch : List BchRead) (ms : Nat) (s : State),
    (s.boot.phase ≠ .training → s.boot.phase ≠ .bare → exec (.trainingComplete up die cables bch ms) s = .next s.start) ∧
    (s.boot.phase = .bare → exec (.trainingComplete up die cables bch ms) s = .next (s.start.bareTrained up.toNat die.toNat)) ∧
    (s.boot.phase = .training → exec (.trainingComplete up die cables bch ms) s = .next (s.start.startAll up.toNat die.toNat cables.toNat bch ms) ∧
      (s.start.startAll up.toNat die.toNat cables.toNat bch ms).boot.phase = .running) ∧
    (s.showPresent up.toNat die.toNat).get Fld.GLB_PRESENT_STACK_UP 0 = Nat.land up.toNat (s.get Fld.GLB_VARIANT_STACK_FIT 0) % 2 ^ 4 ∧
    (s.showPresent up.toNat die.toNat).get Fld.GLB_PRESENT_IOD_UP 0 = Nat.land die.toNat (s.get Fld.GLB_VARIANT_IOD_FIT 0) % 2 ^ 3) ∧
  (∀ s : State, s.boot.phase ≠ .powerFail → exec .pwrfail s = .next s.start.powerFail ∧ exec .powerfailControllersStop s = .next s.start) ∧
  (∀ s : State, s.boot.phase = .powerFail → exec .pwrfail s = .next s.start ∧
    (∃ t : State, exec .powerfailControllersStop s = .next t ∧ t = { s.start with flds := t.flds, bank := t.bank, mod := { s.mod with stopped := true } } ∧
      ∀ b : Fin 2, (t.bnk b).writing = [] ∧ (t.bnk b).cur = none ∧ (t.bnk b).committed = (s.bnk b).committed) ∧
    (∀ (ms : Nat) (cool : Bool), 50 ≤ ms → s.mod.tripped = false ∨ cool = true → exec (.restartAfterPwrfail ms true true cool) s = .next s.start.powerOnReset) ∧
    (∀ (ms : Nat) (r h c : Bool), ms < 50 ∨ r = false ∨ h = false → exec (.restartAfterPwrfail ms r h c) s = .next s.start))

/-- R573, R580, R581, R611, R618, R642 to R645 and Crossing 7 of chapter 14 for RESET_N, DEVICE_FATAL, COX_WATCHDOG_EXPIRY, FATAL_HOLD_EXPIRY and PERST_N. -/
def Obligations.ResetsKeepWhatTheyMust : Prop :=
  (∀ (ns : Nat) (taken : Bool) (s : State),
    (s.boot.phase ≠ .powerFail → 10000 ≤ ns ∨ (1000 ≤ ns ∧ taken = true) → ∃ t : State, exec (.resetN ns taken) s = .next t ∧ t.boot.phase = .reset ∧ t.mem = [] ∧ t.tasks = [] ∧
      t.boot.otp = s.boot.otp ∧ t.boot.lcFuses = s.boot.lcFuses ∧ t.boot.fieldRevoke = s.boot.fieldRevoke ∧ t.boot.flash = s.boot.flash ∧ t.bh = s.bh ∧ t.now = s.now ∧ t.pending = s.pending ∧
      (∀ f ∈ [Fld.ERR_FATAL_CAUSE_CAUSE, Fld.SEC_DBG_FAIL_CNT_CNT, Fld.SEC_SESSION_CNT_CNT], t.get f 0 = s.get f 0 % 2 ^ f.width)) ∧
    (s.boot.phase = .powerFail ∨ ns < 1000 ∨ (ns < 10000 ∧ taken = false) → exec (.resetN ns taken) s = .next s.start)) ∧
  (∀ (c : FatalCause) (s : State),
    (s.boot.phase = .fatalHeld → exec (.deviceFatal c) s = .next s.start) ∧
    (s.boot.phase = .powerFail → ∃ t : State, exec (.deviceFatal c) s = .next t ∧ t.boot = s.boot ∧ t.bh = s.bh ∧ t.mem = s.mem ∧ t.mod.stopped = true ∧
      t.get Fld.ERR_FATAL_CAUSE_CAUSE 0 = FatalCause.code c ∧ ∀ b : Fin 2, (t.bnk b).writing = [] ∧ (t.bnk b).cur = none ∧ (t.bnk b).committed = (s.bnk b).committed) ∧
    (s.boot.phase ≠ .fatalHeld → s.boot.phase ≠ .powerFail → ∃ t : State, exec (.deviceFatal c) s = .next t ∧ t.boot.phase = .fatalHeld ∧ t.get Fld.ERR_FATAL_CAUSE_CAUSE 0 = FatalCause.code c ∧
      t.get Fld.ERR_FATAL_CAUSE_VALID 0 = 1 ∧ t.err.fatalReport = some (FatalCause.code c) ∧
      (t.err.fatalGo = true ↔ s.get Fld.ERR_FATAL_HOLD_MS 0 ≠ 0 ∧ (s.err.fatalTimes.filter (fun (x : Nat) => decide (s.now < x + 600000000000))).length < 2) ∧
      t.boot.lcFuses = s.boot.lcFuses ∧ t.bh = s.bh ∧ t.mem = [])) ∧
  (∀ s : State, (s.err.coxHalted = true → exec .coxWatchdogExpiry s = .next s.start) ∧
    (s.err.coxHalted = false → exec .coxWatchdogExpiry s = exec (.deviceFatal .coxWatchdog) s)) ∧
  (∀ s : State, (s.boot.phase ≠ .fatalHeld ∨ s.err.fatalGo = false → exec .fatalHoldExpiry s = .next s.start) ∧
    (s.boot.phase = .fatalHeld → s.err.fatalGo = true → exec .fatalHoldExpiry s = .next (({ s.start with err := { s.err with fatalRestarts := s.now :: (s.err.fatalRestarts.filter (fun (t : Nat) => decide (s.now < t + 600000000000))) } }).deviceReset))) ∧
  (∀ s : State, s.boot.phase ≠ .powerFail →
    (s.mod.perst = false →
      let low := { s.start with mod := { s.mod with perst := true } }
      (s.quiescing 0x43 = true → exec (.perstN true) s = .next low) ∧
      (s.quiescing 0x43 = false → exec (.perstN true) s = .next (State.nextQuiesce 10 ({ low with err := { s.err with queue := s.err.queue ++ [(0x43, QAct.reset)] } }).showQuiesce))) ∧
    (s.mod.perst = true → exec (.perstN false) s = .next { s.start with mod := { s.mod with perst := false } }))

/-- R356, R639, R653, R657, R661, R663, R665 and R666 for NODE_POWER_OVERCURRENT, NODE_POWER_RETRY, SUPPLY_SHORT, REFERENCE_ACCEL_FAULT, REFERENCE_ACCEL_RETRY, TRANSCEIVER_INSERT, TRANSCEIVER_REMOVE, THERMAL_CAP and THERMAL_TRIP. -/
def Obligations.ModuleEventsAreRecordedOnce : Prop :=
  (∀ (d : Fin 3) (g : Fin 4) (s : State),
    let k := d.val * 4 + g.val
    let r : ErrRec := { cls := 1, status := stDOWN, unit := 0x3C + 3 * d.val, block := 0x19 }
    (s.fldOn d = true → NatSet.has s.mod.segOff k = false →
      let off := ({ s.start with mod := { s.mod with segOff := NatSet.add s.mod.segOff k } }).nodePower k false
      exec (.nodePowerOvercurrent d g) s = .next (((off.segLanes d g).foldl State.goSilent off).record r)) ∧
    (NatSet.has s.mod.segOff k = true → exec (.nodePowerRetry d g true) s = .next (s.start.record r) ∧
      (s.fldOn d = true → exec (.nodePowerRetry d g false) s = .next (({ s.start with mod := { s.mod with segOff := NatSet.del s.mod.segOff k } }).nodePower k true)))) ∧
  (∀ s : State, exec (.supplyShort 0) s = .next ((s.start.emit (.pin 5 0)).record { cls := 0, status := stDOWN, block := 0x1A })) ∧
  (∀ (n : Fin 7) (l : Nat) (s : State), n ≠ 0 → s.tdmLane ((n.val - 1) / 2) ((n.val - 1) % 2) = some l →
    exec (.supplyShort n) s = .next (((s.start.emit (.pin 5 n.val)).goSilent l).record { cls := 1, status := stDOWN, unit := 0x3C + 3 * ((n.val - 1) / 2), block := 0x19 })) ∧
  (∀ s : State,
    (s.mod.refBypass = false → exec .referenceAccelFault s = .next (({ s.start with mod := { s.mod with refBypass := true } }).record { cls := 0, status := stDOWN, block := 0x10 })) ∧
    (s.mod.refBypass = true → ∃ t : State, exec (.referenceAccelRetry true) s = .next t ∧ t = { s.start with lanes := t.lanes, mod := { s.mod with refBypass := false } } ∧
      ∀ l : Fin 64, t.lane l = (if s.laneAdmitted l = true then { s.lane l with coefAt := s.dev } else s.lane l))) ∧
  (∀ (d : Fin 3) (p : Fin 2) (s : State),
    let k := d.val * 2 + p.val
    let here := NatSet.del s.mod.sfpGone k
    exec (.transceiverInsert d p true) s = .next (({ s.start with mod := { s.mod with sfpGone := here, sfpLow := NatSet.add s.mod.sfpLow k } }).record
      { cls := 0, status := stDENIED, unit := 0x3A + 3 * d.val, block := 0x19 }) ∧
    exec (.transceiverInsert d p false) s = .next { s.start with mod := { s.mod with sfpGone := here, sfpLow := NatSet.del s.mod.sfpLow k } } ∧
    exec (.transceiverRemove d p) s = .next { s.start with mod := { s.mod with sfpGone := NatSet.add s.mod.sfpGone k, sfpLow := NatSet.del s.mod.sfpLow k } }) ∧
  (∀ (hot : Bool) (s : State), exec (.thermalCap hot) s = .next { s.start with mod := { s.mod with capped := hot } }) ∧
  (∀ s : State,
    let u := { s.start with mod := { s.mod with tripReport := true, tripped := true } }
    exec .thermalTrip s = .next (if s.boot.phase = .powerFail then u.console 5 0 else u.powerFail.console 5 0))

/-- R605 to R607, R619, R620, R622 and Tables 15.5 to 15.9 for STATUS, TELEMETRY, REG_READ, REG_WRITE, BP_SET, BP_CLR, WP_SET, WP_CLR, LANE_BP, MEM_READ, MEM_WRITE and DBG_RSP_CAPTURE. That a second waiting frame is held is DEDUCED (log entry 55). -/
def Obligations.TheMonitorAnswersItsCommands : Prop :=
  (∀ (g : BitVec 16) (s : State), s.monitorOn = true → s.dbg.waiting = none →
    let n := g.toNat
    (∃ r : List Byte, exec (.status g true) s = .next (s.start.respond 0x00 stOK n r) ∧ r.take 2 = leBytes 1 s.lifecycle ++ leBytes 1 s.dbgLevel) ∧
    (s.lifecycle ≠ 3 → 1 ≤ s.dbgLevel →
      (∀ (p : BitVec 8) (m : List Nat), exec (.telemetry g p m true) s = .next (if p.toNat ≤ 3 then s.start.respond 0x10 stOK n ((s.start.telemetry p.toNat m).flatMap (leBytes 4 ·))
        else s.start.respond 0x10 stDENIED n [])) ∧
      (∀ off : BitVec 32,
        let r := s.start.viewRead .tap off.toNat 4 false
        exec (.regRead g off true) s = .next (r.2.2.respond 0x11 r.1 n (leBytes 4 r.2.1)))) ∧
    (s.lifecycle ≠ 3 → 2 ≤ s.dbgLevel →
      (∀ (off : BitVec 32) (v : Word), exec (.regWrite g off v true) s = .next ((s.start.viewWrite .tap off.toNat 4 v.toNat).2.respond 0x12 (s.start.viewWrite .tap off.toNat 4 v.toNat).1 n [])) ∧
      (∀ (u k c : BitVec 8) (a : BitVec 64),
        (u.toNat ≤ 15 ∧ k.toNat ≤ 7 → exec (.bpSet g u k c a true) s = .next ((s.start.setBp (u.toNat * 8 + k.toNat) (some { ctx := c.toNat, addr := a.toNat })).respond 0x30 stOK n []) ∧
          exec (.bpClr g u k true) s = .next ((s.start.setBp (u.toNat * 8 + k.toNat) none).respond 0x31 stOK n [])) ∧
        (15 < u.toNat ∨ 7 < k.toNat → exec (.bpSet g u k c a true) s = .next (s.start.respond 0x30 stDENIED n []) ∧ exec (.bpClr g u k true) s = .next (s.start.respond 0x31 stDENIED n []))) ∧
      (∀ (u k c x : BitVec 8) (a : BitVec 64),
        (u.toNat ≤ 15 ∧ k.toNat ≤ 3 ∧ bits x.toNat 3 0 ≤ 12 ∧ bits x.toNat 5 4 ≠ 0 ∧ bits x.toNat 7 6 = 0 ∧ a.toNat % 2 ^ bits x.toNat 3 0 = 0 →
          exec (.wpSet g u k c x a true) s = .next ((s.start.setWp (u.toNat * 4 + k.toNat)
            (some { ctx := c.toNat, addr := a.toNat, log2 := bits x.toNat 3 0, dir := bits x.toNat 5 4 })).respond 0x32 stOK n [])) ∧
        (a.toNat % 2 ^ bits x.toNat 3 0 ≠ 0 → exec (.wpSet g u k c x a true) s = .next (s.start.respond 0x32 stDENIED n [])) ∧
        (u.toNat ≤ 15 ∧ k.toNat ≤ 3 → exec (.wpClr g u k true) s = .next ((s.start.setWp (u.toNat * 4 + k.toNat) none).respond 0x33 stOK n []))) ∧
      (∀ (l : BitVec 8) (k : BitVec 16), l.toNat ≤ 63 → bits k.toNat 15 9 = 0 →
        exec (.laneBp g l k true) s = .next (({ s.start with dbg := { s.dbg with laneBp := Tbl.set 0 s.dbg.laneBp l.toNat k.toNat } }).respond 0x34 stOK n [])) ∧
      (∀ (a : BitVec 64) (len : BitVec 8) (e : Ecc) (bs : List Byte),
        (dbgShape a.toNat len.toNat = true →
          exec (.memRead g a len e true) s = .next (s.start.dbgAccess ⟨0x40, n, a.toNat, len.toNat⟩ .readOnce ⟨0, [], 0⟩ e) ∧
          exec (.memWrite g a len bs true) s = .next (s.start.dbgAccess ⟨0x41, n, a.toNat, len.toNat⟩ .writeLine (dbgStore a.toNat len.toNat bs) .clean)) ∧
        (dbgShape a.toNat len.toNat = false → exec (.memRead g a len e true) s = .next (s.start.respond 0x40 stDENIED n []) ∧
          exec (.memWrite g a len bs true) s = .next (s.start.respond 0x41 stDENIED n [])))) ∧
    (s.lifecycle ≠ 3 → s.dbgLevel < 2 → ∀ (off : BitVec 32) (v : Word) (z : Bool), exec (.regWrite g off v z) s = .next (s.start.respond 0x12 stDENIED n []))) ∧
  (∀ (w : DbgWait) (d : Store) (st : Nat) (s : State), s.dbg.waiting = some w →
    let u := { s with dbg := { s.dbg with waiting := none } }
    (w.op = 0x40 → s.dataTo (.unit 0x46) w.addr d .none = u.respond 0x40 (if d.poison = 0 then stOK else stPOISONED) w.tag ((d.bytes.drop (w.addr % 64)).take w.len)) ∧
    s.ackTo (.unit 0x46) w.addr st = u.respond w.op st w.tag []) ∧
  (∀ (g : BitVec 16) (off : BitVec 32) (z : Bool) (w : DbgWait) (s : State), s.monitorOn = true → s.dbg.waiting = some w →
    (s.dbg.held = none → exec (.regRead g off z) s = .next { s.start with dbg := { s.dbg with held := some (.regRead g off z) } }) ∧
    (∀ i : Instr, s.dbg.held = some i → exec (.regRead g off z) s = .next { s.start with dbg := { s.dbg with overrun := true } })) ∧
  (∀ s : State,
    (s.dbg.rsp = [] → exec .dbgRspCapture s = .next (s.start.emit (.tapFrame (List.replicate 32 0)))) ∧
    (∀ (f : List Byte) (fs : List (List Byte)), s.dbg.rsp = f :: fs → ∃ t : State, exec .dbgRspCapture s = .next t ∧ t = { s.start with dbg := { s.dbg with rsp := fs }, out := t.out } ∧
      t.out = [.tapFrame (f.set 4 (f.getD 4 0 + BitVec.ofNat 8 (2 * b2n (!fs.isEmpty))))]))

/-- R606, R608 to R613 and R625 for UNLOCK_PW, CHALLENGE, UNLOCK_RSP, LOCKOUT_EXPIRY, NONCE_LAPSE, END and SESSION_TIMEOUT. The nonce is a free value (log entry 6), and the hash functions are log entry 8. -/
def Obligations.UnlockingOpensOneSession : Prop :=
  (∀ (g : BitVec 16) (a : List Byte) (s : State), s.monitorOn = true → s.dbg.waiting = none → s.lifecycle ≠ 3 →
    let n := g.toNat
    let x := (a ++ List.replicate 16 0).take 16
    let fail := s.start.unlockFail.2.2.respond
    (s.credOk = false → exec (.unlockPw g a true) s = .next (s.start.respond 0x01 stDENIED n []) ∧ exec (.challenge g a true) s = .next (s.start.respond 0x02 stDENIED n []) ∧
      exec (.unlockRsp g a true) s = .next (s.start.respond 0x03 stDENIED n [])) ∧
    (s.credOk = true → s.lockedOut = true → exec (.unlockPw g a true) s = .next (s.start.respond 0x01 stBUSY n s.failResult) ∧
      exec (.challenge g a true) s = .next (s.start.respond 0x02 stBUSY n s.failResult) ∧ exec (.unlockRsp g a true) s = .next (s.start.respond 0x03 stBUSY n s.failResult)) ∧
    (s.credOk = true → s.lockedOut = false →
      (sha256 (s.otpBytes 0x188 16 ++ x) = s.otpBytes 0x198 32 → exec (.unlockPw g a true) s = .next ((s.start.unlocked 1).respond 0x01 stOK n [])) ∧
      (sha256 (s.otpBytes 0x188 16 ++ x) ≠ s.otpBytes 0x198 32 → exec (.unlockPw g a true) s = .next (fail 0x01 stDENIED n s.start.unlockFail.2.1)) ∧
      (leAt a 0 1 = 2 → ∃ k : Nat, exec (.challenge g a true) s = .next (({ s.start with free := s.free + 1, dbg := { s.dbg with nonce := some (k, s.now) } }).respond 0x02 stOK n
        (leBytes 16 k ++ leBytes 8 s.serial))) ∧
      (∀ k : Nat, s.liveNonce = some k → x = s.expected k → exec (.unlockRsp g a true) s =
        .next ((({ s.start with dbg := { s.dbg with nonce := none } }).unlocked 2).respond 0x03 stOK n [])) ∧
      (s.liveNonce = none →
        let u := { s.start with dbg := { s.dbg with nonce := none } }
        exec (.unlockRsp g a true) s = .next (u.unlockFail.2.2.respond 0x03 stDENIED n u.unlockFail.2.1)))) ∧
  (∀ s : State,
    let t := s.unlockFail.2.2
    let c := min (s.get Fld.SEC_DBG_STATUS_FAILS 0 + 1) (2 ^ Fld.SEC_DBG_STATUS_FAILS.width - 1)
    t.get Fld.SEC_DBG_STATUS_FAILS 0 = c ∧ (5 ≤ c → t.dbg.lockoutUntil = some (s.now + s.dbg.lockoutLen * 1000000000) ∧ t.dbg.lockoutLen = min 614400 (2 * s.dbg.lockoutLen)) ∧
      (c < 5 → t.dbg.lockoutUntil = s.dbg.lockoutUntil)) ∧
  (∀ (s : State) (k : Fin 4), s.lifecycle = 1 → (s.unlocked k).dbg.sessionAt = some s.now ∧ (s.unlocked k).dbg.lockoutUntil = none ∧
    (s.unlocked k).get Fld.DBG_SESSION_LEVEL 0 = k.val ∧ (s.unlocked k).get Fld.SEC_DBG_STATUS_FAILS 0 = 0) ∧
  (∀ s : State, exec .lockoutExpiry s = .next { s.start with dbg := { s.dbg with lockoutUntil := none } } ∧ exec .nonceLapse s = .next { s.start with dbg := { s.dbg with nonce := none } } ∧
    exec .sessionTimeout s = .next s.start.endSession ∧
    (s.dbg.sessionAt.isSome = true → s.closeSession.dbg.sessionAt = none ∧ s.closeSession.get Fld.DBG_SESSION_LEVEL 0 = 0 ∧ s.closeSession.err.coxHalted = false) ∧
    (∀ g : BitVec 16, s.monitorOn = true → s.dbg.waiting = none → s.lifecycle ≠ 3 → 1 ≤ s.dbgLevel →
      exec (.endSession g true) s = .next (s.start.endSession.respond 0x04 stOK g.toNat [])))

/-- R596, R597, R614, R617, R618, R623 and R624 for HALT, HALT_TAKES_EFFECT, RESUME, STEP, STATE_READ, RETIRE and LOCK. The state words of STATE_READ and the OP byte of LOCK's response are free values (log entry 6). -/
def Obligations.HaltedUnitsStandStill : Prop :=
  (∀ (g : BitVec 16) (s : State), s.monitorOn = true → s.dbg.waiting = none → s.lifecycle ≠ 3 → 2 ≤ s.dbgLevel →
    let n := g.toNat
    (∀ u : BitVec 8,
      (s.haltable u.toNat = false → exec (.halt g u true) s = .next (s.start.respond 0x20 stDENIED n []) ∧ exec (.resume g u true) s = .next (s.start.respond 0x21 stDENIED n [])) ∧
      (u.toNat < 16 → s.unitFitted u.toNat = true →
        exec (.halt g u true) s = .next ((s.start.askHalt u.toNat (1, 0, 0)).respond 0x20 stOK n []) ∧ exec (.resume g u true) s = .next ((s.start.resumeScull u.toNat).respond 0x21 stOK n []) ∧
        (∀ c : BitVec 16, (s.scull u.toNat).halted = true → c.toNat ≠ 0 → exec (.step g u c true) s = .next (((s.start.resumeScull u.toNat).setScull u.toNat
          { (s.start.resumeScull u.toNat).scull u.toNat with stepLeft := some c.toNat }).respond 0x22 stOK n [])) ∧
        (∀ c : BitVec 16, (s.scull u.toNat).halted = false ∨ c.toNat = 0 → exec (.step g u c true) s = .next (s.start.respond 0x22 stDENIED n [])) ∧
        (∀ p : BitVec 8, ((s.scull u.toNat).halted = true → ∃ r : List Byte, r.length = 24 ∧ exec (.stateRead g u p true) s = .next (({ s.start with free := s.free + 1 }).respond 0x23 stOK n r)) ∧
          ((s.scull u.toNat).halted = false → exec (.stateRead g u p true) s = .next (s.start.respond 0x23 stDENIED n []))))) ∧
    exec (.halt g 0x45 true) s = .next (s.start.haltCox.respond 0x20 stOK n []) ∧ s.start.haltCox.err.coxHalted = true ∧
    (s.err.coxHalted = true → exec (.resume g 0x45 true) s = .next (s.start.resumeCox.coxBack.respond 0x21 stOK n [])) ∧
    (∀ k : BitVec 64, k.toNat ≠ s.serial → exec (.retire g k false true) s = .next (s.start.respond 0x51 stDENIED n [])) ∧
    (∀ k : BitVec 64, k.toNat = s.serial → s.lifecycle = 2 →
      let u := (s.start.abortPops 0 fun _ => true).abortPops 1 fun _ => true
      exec (.retire g k false true) s = .next ((({ u with boot := { u.boot with lcFuses := Nat.lor u.boot.lcFuses 2 } }).eraseBanks.deviceReset).emit (.pin 1 0)) ∧
      exec (.retire g k true true) s = .next ((u.record (recC 0x1D stABORTED)).respond 0x51 stABORTED n []))) ∧
  (∀ (g : BitVec 16) (s : State), s.monitorOn = true → s.dbg.waiting = none → s.lockable = true → ∃ op : Nat,
    let u := { s.start with free := s.free + 1 }
    exec (.lock g false true) s = .next ((({ u with boot := { u.boot with lcFuses := Nat.lor s.boot.lcFuses 1 } }).showLifecycle).respond op stOK g.toNat []) ∧
    exec (.lock g true true) s = .next ((u.record (recC 0x1D stABORTED)).respond op stABORTED g.toNat [])) ∧
  (∀ (n : Fin 16) (why slot lane : Nat) (s : State), (s.scull n).haltPending = some (why, slot, lane) → s.haltReady n = true →
    ∃ t : State, exec (.haltTakesEffect n) s = .next t ∧ t = { s.start with scl := t.scl, mod := t.mod, flds := t.flds } ∧ (t.scull n).halted = true ∧ (t.scull n).haltPending = none ∧
      t.get Fld.DBG_REASON_REASON n = why % 8 ∧ bit (t.get Fld.DBG_HALTED_SCULLS 0) n = true)

/-- R595: the lifecycle area of Table 15.2 and the state that comes from it. States are numbered 0 FACTORY, 1 FIELD_LOCKED, 2 FIELD_SESSION, 3 RETIRED (R594). -/
def Obligations.FusesAreNeverCleared : Prop :=
  (∀ s : State, (s.burned 1 = true → s.lifecycle = 3) ∧ (s.burned 1 = false → s.burned 0 = true → s.lifecycle = 1 ∨ s.lifecycle = 2) ∧
    (s.burned 1 = false → s.burned 0 = false → s.lifecycle = 0)) ∧
  (∀ s t : State, step s = .next t → (∀ n : Nat, (s.burned n = true → t.burned n = true) ∧ (s.revokeBurned n = true → t.revokeBurned n = true)) ∧
    (s.fusesOk = true → t.fusesOk = true))

/-- The form in which memory is kept, so that equal memories are equal data (log entry 3). -/
def Obligations.MemoryStaysCanonical : Prop :=
  ∀ s t : State, Memory.wf s.mem = true → step s = .next t → Memory.wf t.mem = true

/-- R71: the factory record is written in the factory alone. The spec stops the unit for no command: what it turns away it answers, counts or ignores. The queue and the timer are the model's own (log entry 7). -/
def Obligations.StepsServeTheQueueInOrderAndKeepTheFactoryRecord : Prop :=
  (∀ (c : Instr) (s : State), ∃ t : State, exec c s = .next t ∧ t.pending = s.pending ∧ t.boot.otp = s.boot.otp ∧ t.now = s.now) ∧
  (∀ s : State, ∃ t : State, step s = .next t ∧ t.pending = s.pending.tail ∧ t.boot.otp = s.boot.otp ∧ t.now = (if s.pending = [] then s.now + 1 else s.now))

/-- The values a unit's one-time memories hold at reset are log entry 2. -/
def Obligations.ResetMeetsTheInvariants : Prop :=
  State.reset.mem = [] ∧ Memory.wf State.reset.mem = true ∧ State.reset.pending = [] ∧ State.reset.fusesOk = true ∧
  (∀ n : Nat, State.reset.burned n = false ∧ State.reset.revokeBurned n = false) ∧ State.reset.lifecycle = 0 ∧ State.reset.boot.phase = .reset
end

