-- ==== Sys2Proof/Laws/Bytes.lean ====
section
/-!
SUPPORT. Little-endian byte strings, and how large the results of the hash functions and the CRC are.
-/
set_option Elab.async false

namespace Sys2Proof.Machine

/-- A round keeps each register of the compression at four words. -/
theorem ShaRegs.round_lengths (r : ShaRegs) (kw : Nat) (h : r.top.length = 4 ∧ r.low.length = 4) :
    (r.round kw).top.length = 4 ∧ (r.round kw).low.length = 4 := by
  simp [ShaRegs.round, h.1, h.2]

theorem foldl_round_lengths (l : List Nat) (r : ShaRegs) (h : r.top.length = 4 ∧ r.low.length = 4) :
    (l.foldl ShaRegs.round r).top.length = 4 ∧ (l.foldl ShaRegs.round r).low.length = 4 := by
  induction l generalizing r with
  | nil => exact h
  | cons a t ih => exact ih _ (r.round_lengths a h)

/-- A block leaves the hash value at eight words. -/
theorem shaAbsorb_length (h : List Nat) (blk : List Byte) (e : h.length = 8) : (shaAbsorb h blk).length = 8 := by
  have r := foldl_round_lengths (List.zipWith (· + ·) (rootFractions 3 312) (shaSchedule blk 64)) ⟨h.take 4, h.drop 4⟩ (by simp [e])
  simp [shaAbsorb, r.1, r.2, e]

theorem foldl_shaAbsorb_length (f : Nat → List Byte) (l : List Nat) (h : List Nat) (e : h.length = 8) :
    (l.foldl (fun h i => shaAbsorb h (f i)) h).length = 8 := by
  induction l generalizing h with
  | nil => exact e
  | cons a t ih => exact ih _ (shaAbsorb_length h _ e)

theorem leBytes_length (n v : Nat) : (leBytes n v).length = n := by
  induction n generalizing v with
  | zero => rfl
  | succ n ih => simp [leBytes, ih]

theorem leNat_leBytes (n v : Nat) : leNat (leBytes n v) = v % 256 ^ n := by
  induction n generalizing v with
  | zero => simp [leBytes, leNat, Nat.mod_one]
  | succ n ih =>
    have e : v % 256 ^ (n + 1) = v % 256 + 256 * (v / 256 % 256 ^ n) := by rw [Nat.pow_succ', Nat.mod_mul]
    rw [leBytes, leNat, ih, BitVec.toNat_ofNat, e]

theorem beBytes_length (n v : Nat) : (beBytes n v).length = n := by simp [beBytes, leBytes_length]

/-- A SHA-256 hash is 32 bytes. -/
theorem sha256_length (m : List Byte) : (sha256 m).length = 32 := by
  have e : (rootFractions 2 20).length = 8 := by rw [rootFractions, List.length_map]; decide
  simp [sha256, List.length_flatMap, beBytes_length, foldl_shaAbsorb_length _ _ _ e]

/-- An HMAC is 32 bytes. -/
theorem hmacSha256_length (key m : List Byte) : (hmacSha256 key m).length = 32 := by
  simp [hmacSha256, sha256_length]

theorem crcBit_lt {c : Nat} (h : c < 2 ^ 32) : crcBit c < 2 ^ 32 := by
  unfold crcBit
  split
  · exact Nat.xor_lt_two_pow (by omega) (by decide)
  · omega

theorem crcByte_lt {c : Nat} (b : Byte) (h : c < 2 ^ 32) : crcByte c b < 2 ^ 32 := by
  have x : c ^^^ b.toNat < 2 ^ 32 := Nat.xor_lt_two_pow h (Nat.lt_trans b.isLt (by decide))
  exact crcBit_lt (crcBit_lt (crcBit_lt (crcBit_lt (crcBit_lt (crcBit_lt (crcBit_lt (crcBit_lt x)))))))

/-- A CRC-32 fits 32 bits. -/
theorem crc32_lt (bs : List Byte) : crc32 bs < 2 ^ 32 := by
  have go : ∀ (l : List Byte) (c : Nat), c < 2 ^ 32 → l.foldl crcByte c < 2 ^ 32 := fun l => by
    induction l with
    | nil => exact fun _ h => h
    | cons b t ih => exact fun c h => ih _ (crcByte_lt b h)
  exact Nat.xor_lt_two_pow (go bs _ (by decide)) (by decide)

end Sys2Proof.Machine
end

