-- ==== Sys2Proof/Laws/Dispatch.lean ====
section
/-!
SUPPORT. One equation per command: what the dispatch calls for it.
-/
set_option Elab.async false

namespace Sys2Proof.Machine

variable (s : State)

theorem exec_reg64LowWrite src off v : exec (.reg64LowWrite src off v) s = execReg64LowWrite src off v s := rfl
theorem exec_reg64HighWrite src off v : exec (.reg64HighWrite src off v) s = execReg64HighWrite src off v s := rfl
theorem exec_reg64LowRead src off : exec (.reg64LowRead src off) s = execReg64LowRead src off s := rfl
theorem exec_reg64HighRead src off : exec (.reg64HighRead src off) s = execReg64HighRead src off s := rfl
theorem exec_registerWrite src off size v : exec (.registerWrite src off size v) s = execRegisterWrite src off size v s := rfl
theorem exec_startUp env : exec (.startUp env) s = execStartUp env s := rfl
theorem exec_flashReadTimeout slot : exec (.flashReadTimeout slot) s = execFlashReadTimeout slot s := rfl
theorem exec_trainingComplete stackUp dieUp cables bch ms : exec (.trainingComplete stackUp dieUp cables bch ms) s = execTrainingComplete stackUp dieUp cables bch ms s := rfl
theorem exec_replicaRateRefresh west east : exec (.replicaRateRefresh west east) s = execReplicaRateRefresh west east s := rfl
theorem exec_requestTimeout w addr : exec (.requestTimeout w addr) s = execRequestTimeout w addr s := rfl
theorem exec_channelStall ch unit : exec (.channelStall ch unit) s = execChannelStall ch unit s := rfl
theorem exec_fence scull kind : exec (.fence scull kind) s = execFence scull kind s := rfl
theorem exec_readShared tag agent addr ticket ecc fab : exec (.readShared tag agent addr ticket ecc fab) s = execReadShared tag agent addr ticket ecc fab s := rfl
theorem exec_readOwn tag agent addr store ticket ecc fab : exec (.readOwn tag agent addr store ticket ecc fab) s = execReadOwn tag agent addr store ticket ecc fab s := rfl
theorem exec_upgrade tag agent addr store ticket ecc fab : exec (.upgrade tag agent addr store ticket ecc fab) s = execUpgrade tag agent addr store ticket ecc fab s := rfl
theorem exec_readOnce tag src addr ticket ecc fab : exec (.readOnce tag src addr ticket ecc fab) s = execReadOnce tag src addr ticket ecc fab s := rfl
theorem exec_writeLine tag src addr store ticket ecc fab : exec (.writeLine tag src addr store ticket ecc fab) s = execWriteLine tag src addr store ticket ecc fab s := rfl
theorem exec_atomicFetchAdd tag src addr args ticket : exec (.atomicFetchAdd tag src addr args ticket) s = execAtomicFetchAdd tag src addr args ticket s := rfl
theorem exec_atomicSwap tag src addr args ticket : exec (.atomicSwap tag src addr args ticket) s = execAtomicSwap tag src addr args ticket s := rfl
theorem exec_atomicCompareSwap tag src addr args ticket : exec (.atomicCompareSwap tag src addr args ticket) s = execAtomicCompareSwap tag src addr args ticket s := rfl
theorem exec_atomicMinS tag src addr args ticket : exec (.atomicMinS tag src addr args ticket) s = execAtomicMinS tag src addr args ticket s := rfl
theorem exec_atomicMaxS tag src addr args ticket : exec (.atomicMaxS tag src addr args ticket) s = execAtomicMaxS tag src addr args ticket s := rfl
theorem exec_atomicMinU tag src addr args ticket : exec (.atomicMinU tag src addr args ticket) s = execAtomicMinU tag src addr args ticket s := rfl
theorem exec_atomicMaxU tag src addr args ticket : exec (.atomicMaxU tag src addr args ticket) s = execAtomicMaxU tag src addr args ticket s := rfl
theorem exec_lockAcquire tag op : exec (.lockAcquire tag op) s = execLockAcquire tag op s := rfl
theorem exec_lockTryAcquire tag op : exec (.lockTryAcquire tag op) s = execLockTryAcquire tag op s := rfl
theorem exec_lockRelease tag op : exec (.lockRelease tag op) s = execLockRelease tag op s := rfl
theorem exec_lockInspect tag op : exec (.lockInspect tag op) s = execLockInspect tag op s := rfl
theorem exec_snoopShare agent addr after evicting ecc fab : exec (.snoopShare agent addr after evicting ecc fab) s = execSnoopShare agent addr after evicting ecc fab s := rfl
theorem exec_snoopInv agent addr after evicting ecc fab : exec (.snoopInv agent addr after evicting ecc fab) s = execSnoopInv agent addr after evicting ecc fab s := rfl
theorem exec_snoopMiss agent addr fab : exec (.snoopMiss agent addr fab) s = execSnoopMiss agent addr fab s := rfl
theorem exec_evictNotice tag agent addr ue fab : exec (.evictNotice tag agent addr ue fab) s = execEvictNotice tag agent addr ue fab s := rfl
theorem exec_writeBack tag agent addr data ue fab : exec (.writeBack tag agent addr data ue fab) s = execWriteBack tag agent addr data ue fab s := rfl
theorem exec_data dst addr data grant epoch fab : exec (.data dst addr data grant epoch fab) s = execData dst addr data grant epoch fab s := rfl
theorem exec_ack dst addr status epoch fab : exec (.ack dst addr status epoch fab) s = execAck dst addr status epoch fab s := rfl
theorem exec_retry src addr ticket fab : exec (.retry src addr ticket fab) s = execRetry src addr ticket fab s := rfl
theorem exec_retryReissue src addr : exec (.retryReissue src addr) s = execRetryReissue src addr s := rfl
theorem exec_ticketReservationExpiry addr : exec (.ticketReservationExpiry addr) s = execTicketReservationExpiry addr s := rfl
theorem exec_lockGrant tag lock status fab : exec (.lockGrant tag lock status fab) s = execLockGrant tag lock status fab s := rfl
theorem exec_lockWaitTimeout tag lock : exec (.lockWaitTimeout tag lock) s = execLockWaitTimeout tag lock s := rfl
theorem exec_epochBroadcast unit epoch latNs fab : exec (.epochBroadcast unit epoch latNs fab) s = execEpochBroadcast unit epoch latNs fab s := rfl
theorem exec_contextFaultNotice ctx fab : exec (.contextFaultNotice ctx fab) s = execContextFaultNotice ctx fab s := rfl
theorem exec_patrolScrub addr ecc : exec (.patrolScrub addr ecc) s = execPatrolScrub addr ecc s := rfl
theorem exec_tlbMiss xlu ctx va kind w : exec (.tlbMiss xlu ctx va kind w) s = execTlbMiss xlu ctx va kind w s := rfl
theorem exec_walkComplete ctx va readErr ecc : exec (.walkComplete ctx va readErr ecc) s = execWalkComplete ctx va readErr ecc s := rfl
theorem exec_saveAreaWritten scull task status : exec (.saveAreaWritten scull task status) s = execSaveAreaWritten scull task status s := rfl
theorem exec_xluFqHeadWrite src part v : exec (.xluFqHeadWrite src part v) s = execXluFqHeadWrite src part v s := rfl
theorem exec_fqResumeRetry src part id : exec (.fqResumeRetry src part id) s = execFqResumeRetry src part id s := rfl
theorem exec_fqResumeAbort src part id : exec (.fqResumeAbort src part id) s = execFqResumeAbort src part id s := rfl
theorem exec_faultHoldTimeout ctx : exec (.faultHoldTimeout ctx) s = execFaultHoldTimeout ctx s := rfl
theorem exec_ctxRelease src ctx : exec (.ctxRelease src ctx) s = execCtxRelease src ctx s := rfl
theorem exec_xluCtxCfgWrite src ctx v : exec (.xluCtxCfgWrite src ctx v) s = execXluCtxCfgWrite src ctx v s := rfl
theorem exec_invContext src part ctx : exec (.invContext src part ctx) s = execInvContext src part ctx s := rfl
theorem exec_invRange src part ctx : exec (.invRange src part ctx) s = execInvRange src part ctx s := rfl
theorem exec_invPartition src part : exec (.invPartition src part) s = execInvPartition src part s := rfl
theorem exec_invStage2 src part : exec (.invStage2 src part) s = execInvStage2 src part s := rfl
theorem exec_invalidateComplete part : exec (.invalidateComplete part) s = execInvalidateComplete part s := rfl
theorem exec_missTimeout xlu ctx va : exec (.missTimeout xlu ctx va) s = execMissTimeout xlu ctx va s := rfl
theorem exec_arrayStep scull step : exec (.arrayStep scull step) s = execArrayStep scull step s := rfl
theorem exec_weightPlaneLoad scull fmt dual tileOff ecc line : exec (.weightPlaneLoad scull fmt dual tileOff ecc line) s = execWeightPlaneLoad scull fmt dual tileOff ecc line s := rfl
theorem exec_planeSwap scull : exec (.planeSwap scull) s = execPlaneSwap scull s := rfl
theorem exec_accumulatorDrain scull entry reg : exec (.accumulatorDrain scull entry reg) s = execAccumulatorDrain scull entry reg s := rfl
theorem exec_vectorOp scull op : exec (.vectorOp scull op) s = execVectorOp scull op s := rfl
theorem exec_catchCheckerClose scull late : exec (.catchCheckerClose scull late) s = execCatchCheckerClose scull late s := rfl
theorem exec_catchWindowEnd scull : exec (.catchWindowEnd scull) s = execCatchWindowEnd scull s := rfl
theorem exec_taskRunnable scull task trigger : exec (.taskRunnable scull task trigger) s = execTaskRunnable scull task trigger s := rfl
theorem exec_taskDispatch scull : exec (.taskDispatch scull) s = execTaskDispatch scull s := rfl
theorem exec_taskCommit scull given : exec (.taskCommit scull given) s = execTaskCommit scull given s := rfl
theorem exec_taskWatchdogExpiry scull : exec (.taskWatchdogExpiry scull) s = execTaskWatchdogExpiry scull s := rfl
theorem exec_sldStart src eng ctx : exec (.sldStart src eng ctx) s = execSldStart src eng ctx s := rfl
theorem exec_sldAbort src eng : exec (.sldAbort src eng) s = execSldAbort src eng s := rfl
theorem exec_slideBurstIssue eng : exec (.slideBurstIssue eng) s = execSlideBurstIssue eng s := rfl
theorem exec_slideCreditArrives eng : exec (.slideCreditArrives eng) s = execSlideCreditArrives eng s := rfl
theorem exec_vmeUpdate scull leakage temp ok : exec (.vmeUpdate scull leakage temp ok) s = execVmeUpdate scull leakage temp ok s := rfl
theorem exec_vsoGovernorTick : exec (.vsoGovernorTick) s = execVsoGovernorTick s := rfl
theorem exec_frameDecoded lane kind rtpTs arrival bytes fab : exec (.frameDecoded lane kind rtpTs arrival bytes fab) s = execFrameDecoded lane kind rtpTs arrival bytes fab s := rfl
theorem exec_deltaCompareDone lane : exec (.deltaCompareDone lane) s = execDeltaCompareDone lane s := rfl
theorem exec_energyGovernorChoose lane : exec (.energyGovernorChoose lane) s = execEnergyGovernorChoose lane s := rfl
theorem exec_deltaMapTimeout lane : exec (.deltaMapTimeout lane) s = execDeltaMapTimeout lane s := rfl
theorem exec_catchBandWrite src lane v : exec (.catchBandWrite src lane v) s = execCatchBandWrite src lane v s := rfl
theorem exec_catchReuseCfgWrite src lane v : exec (.catchReuseCfgWrite src lane v) s = execCatchReuseCfgWrite src lane v s := rfl
theorem exec_catchAggrMaxWrite src scull v : exec (.catchAggrMaxWrite src scull v) s = execCatchAggrMaxWrite src scull v s := rfl
theorem exec_powerPolicyOff dom : exec (.powerPolicyOff dom) s = execPowerPolicyOff dom s := rfl
theorem exec_domainWakeDone dom : exec (.domainWakeDone dom) s = execDomainWakeDone dom s := rfl
theorem exec_wakeTimeout dom : exec (.wakeTimeout dom) s = execWakeTimeout dom s := rfl
theorem exec_pwrReqAuto src dom : exec (.pwrReqAuto src dom) s = execPwrReqAuto src dom s := rfl
theorem exec_pwrReqOn src dom : exec (.pwrReqOn src dom) s = execPwrReqOn src dom s := rfl
theorem exec_pwrReqOff src dom : exec (.pwrReqOff src dom) s = execPwrReqOff src dom s := rfl
theorem exec_pwrReqForceOff src dom : exec (.pwrReqForceOff src dom) s = execPwrReqForceOff src dom s := rfl
theorem exec_rtpPacket die port pkt : exec (.rtpPacket die port pkt) s = execRtpPacket die port pkt s := rfl
theorem exec_rtcpSenderReport die port pkt sec frac : exec (.rtcpSenderReport die port pkt sec frac) s = execRtcpSenderReport die port pkt sec frac s := rfl
theorem exec_membershipQuery die port family group : exec (.membershipQuery die port family group) s = execMembershipQuery die port family group s := rfl
theorem exec_ptpSync domain seq twoStep origin : exec (.ptpSync domain seq twoStep origin) s = execPtpSync domain seq twoStep origin s := rfl
theorem exec_ptpFollowUp seq origin : exec (.ptpFollowUp seq origin) s = execPtpFollowUp seq origin s := rfl
theorem exec_ptpDelayResp sent received : exec (.ptpDelayResp sent received) s = execPtpDelayResp sent received s := rfl
theorem exec_ptpAnnounce domain rank utcValid utc : exec (.ptpAnnounce domain rank utcValid utc) s = execPtpAnnounce domain rank utcValid utc s := rfl
theorem exec_ptpHoldoverEntry : exec (.ptpHoldoverEntry) s = execPtpHoldoverEntry s := rfl
theorem exec_gptpSyncTimer die seg : exec (.gptpSyncTimer die seg) s = execGptpSyncTimer die seg s := rfl
theorem exec_gptpPdelayReq die seg frame : exec (.gptpPdelayReq die seg frame) s = execGptpPdelayReq die seg frame s := rfl
theorem exec_sensorAnnounce die seg mac frame : exec (.sensorAnnounce die seg mac frame) s = execSensorAnnounce die seg mac frame s := rfl
theorem exec_sensorStatus die seg frame : exec (.sensorStatus die seg frame) s = execSensorStatus die seg frame s := rfl
theorem exec_sensorSamples die seg frame : exec (.sensorSamples die seg frame) s = execSensorSamples die seg frame s := rfl
theorem exec_configResend : exec (.configResend) s = execConfigResend s := rfl
theorem exec_tdmBlockComplete die port t0 samples : exec (.tdmBlockComplete die port t0 samples) s = execTdmBlockComplete die port t0 samples s := rfl
theorem exec_tdmSdinSilent die port : exec (.tdmSdinSilent die port) s = execTdmSdinSilent die port s := rfl
theorem exec_t1sSegmentFault die seg : exec (.t1sSegmentFault die seg) s = execT1sSegmentFault die seg s := rfl
theorem exec_laneSilentTimeout lane : exec (.laneSilentTimeout lane) s = execLaneSilentTimeout lane s := rfl
theorem exec_frameIntervalLoss lane : exec (.frameIntervalLoss lane) s = execFrameIntervalLoss lane s := rfl
theorem exec_gapIntervalEnd lane : exec (.gapIntervalEnd lane) s = execGapIntervalEnd lane s := rfl
theorem exec_stackThermalHalving site hot : exec (.stackThermalHalving site hot) s = execStackThermalHalving site hot s := rfl
theorem exec_shedEvaluate : exec (.shedEvaluate) s = execShedEvaluate s := rfl
theorem exec_laneReportMaskWrite src lane v : exec (.laneReportMaskWrite src lane v) s = execLaneReportMaskWrite src lane v s := rfl
theorem exec_laneLevelWrite src lane which v : exec (.laneLevelWrite src lane which v) s = execLaneLevelWrite src lane which v s := rfl
theorem exec_laneTimingWrite src lane v : exec (.laneTimingWrite src lane v) s = execLaneTimingWrite src lane v s := rfl
theorem exec_leEvent lane spillErr sram : exec (.leEvent lane spillErr sram) s = execLeEvent lane spillErr sram s := rfl
theorem exec_delayWheelRelease eng spillErr sram : exec (.delayWheelRelease eng spillErr sram) s = execDelayWheelRelease eng spillErr sram s := rfl
theorem exec_evaluationSweep eng pop spillErr sram : exec (.evaluationSweep eng pop spillErr sram) s = execEvaluationSweep eng pop spillErr sram s := rfl
theorem exec_lrnModTeach src lane : exec (.lrnModTeach src lane) s = execLrnModTeach src lane s := rfl
theorem exec_lrnModMark src lane : exec (.lrnModMark src lane) s = execLrnModMark src lane s := rfl
theorem exec_lrnModCancel src lane : exec (.lrnModCancel src lane) s = execLrnModCancel src lane s := rfl
theorem exec_markExpiry lane : exec (.markExpiry lane) s = execMarkExpiry lane s := rfl
theorem exec_teachWindowExpiry lane : exec (.teachWindowExpiry lane) s = execTeachWindowExpiry lane s := rfl
theorem exec_popFreezeWrite src v : exec (.popFreezeWrite src v) s = execPopFreezeWrite src v s := rfl
theorem exec_eventRingTimeout lane : exec (.eventRingTimeout lane) s = execEventRingTimeout lane s := rfl
theorem exec_checkpointDue n : exec (.checkpointDue n) s = execCheckpointDue n s := rfl
theorem exec_bhCkptCmd src n : exec (.bhCkptCmd src n) s = execBhCkptCmd src n s := rfl
theorem exec_deferredCheckpointStart n : exec (.deferredCheckpointStart n) s = execDeferredCheckpointStart n s := rfl
theorem exec_snapshotCopyDone eng ecc : exec (.snapshotCopyDone eng ecc) s = execSnapshotCopyDone eng ecc s := rfl
theorem exec_slotWriteDone bank failed : exec (.slotWriteDone bank failed) s = execSlotWriteDone bank failed s := rfl
theorem exec_readbackDone bank corrected failed : exec (.readbackDone bank corrected failed) s = execReadbackDone bank corrected failed s := rfl
theorem exec_pwrfail : exec (.pwrfail) s = execPwrfail s := rfl
theorem exec_powerfailControllersStop : exec (.powerfailControllersStop) s = execPowerfailControllersStop s := rfl
theorem exec_restartAfterPwrfail offMs inRange shutdownHigh cool : exec (.restartAfterPwrfail offMs inRange shutdownHigh cool) s = execRestartAfterPwrfail offMs inRange shutdownHigh cool s := rfl
theorem exec_nop fn seq irq : exec (.nop fn seq irq) s = execNop fn seq irq s := rfl
theorem exec_loadModel fn seq irq arg : exec (.loadModel fn seq irq arg) s = execLoadModel fn seq irq arg s := rfl
theorem exec_replaceModel fn seq irq arg : exec (.replaceModel fn seq irq arg) s = execReplaceModel fn seq irq arg s := rfl
theorem exec_unloadModel fn seq irq id : exec (.unloadModel fn seq irq id) s = execUnloadModel fn seq irq id s := rfl
theorem exec_readout fn seq irq arg : exec (.readout fn seq irq arg) s = execReadout fn seq irq arg s := rfl
theorem exec_checkpoint fn seq irq eng pop : exec (.checkpoint fn seq irq eng pop) s = execCheckpoint fn seq irq eng pop s := rfl
theorem exec_laneModTeach fn seq irq lane : exec (.laneModTeach fn seq irq lane) s = execLaneModTeach fn seq irq lane s := rfl
theorem exec_laneModMark fn seq irq lane : exec (.laneModMark fn seq irq lane) s = execLaneModMark fn seq irq lane s := rfl
theorem exec_laneModCancel fn seq irq lane : exec (.laneModCancel fn seq irq lane) s = execLaneModCancel fn seq irq lane s := rfl
theorem exec_laneAck fn seq irq lane : exec (.laneAck fn seq irq lane) s = execLaneAck fn seq irq lane s := rfl
theorem exec_captureFrame fn seq irq arg : exec (.captureFrame fn seq irq arg) s = execCaptureFrame fn seq irq arg s := rfl
theorem exec_captureTimeout lane : exec (.captureTimeout lane) s = execCaptureTimeout lane s := rfl
theorem exec_heartbeat fn seq irq value : exec (.heartbeat fn seq irq value) s = execHeartbeat fn seq irq value s := rfl
theorem exec_flashErase fn seq irq arg : exec (.flashErase fn seq irq arg) s = execFlashErase fn seq irq arg s := rfl
theorem exec_flashWrite fn seq irq arg bad : exec (.flashWrite fn seq irq arg bad) s = execFlashWrite fn seq irq arg bad s := rfl
theorem exec_flashRead fn seq irq arg : exec (.flashRead fn seq irq arg) s = execFlashRead fn seq irq arg s := rfl
theorem exec_hostMbTailWrite src fn v host : exec (.hostMbTailWrite src fn v host) s = execHostMbTailWrite src fn v host s := rfl
theorem exec_hostMbCfgWrite src fn v : exec (.hostMbCfgWrite src fn v) s = execHostMbCfgWrite src fn v s := rfl
theorem exec_rptRingConsWrite src part v : exec (.rptRingConsWrite src part v) s = execRptRingConsWrite src part v s := rfl
theorem exec_rptRingBaseWrite src part v : exec (.rptRingBaseWrite src part v) s = execRptRingBaseWrite src part v s := rfl
theorem exec_collectorFlush col : exec (.collectorFlush col) s = execCollectorFlush col s := rfl
theorem exec_collectorAck col dseq known : exec (.collectorAck col dseq known) s = execCollectorAck col dseq known s := rfl
theorem exec_datagramResend col dseq : exec (.datagramResend col dseq) s = execDatagramResend col dseq s := rfl
theorem exec_nextHopResolve col found : exec (.nextHopResolve col found) s = execNextHopResolve col found s := rfl
theorem exec_collectorDown col : exec (.collectorDown col) s = execCollectorDown col s := rfl
theorem exec_functionLevelReset fn : exec (.functionLevelReset fn) s = execFunctionLevelReset fn s := rfl
theorem exec_flitReceive die bytes : exec (.flitReceive die bytes) s = execFlitReceive die bytes s := rfl
theorem exec_replayTimeout die : exec (.replayTimeout die) s = execReplayTimeout die s := rfl
theorem exec_retrainDone die ok : exec (.retrainDone die ok) s = execRetrainDone die ok s := rfl
theorem exec_idleFlitTimer die : exec (.idleFlitTimer die) s = execIdleFlitTimer die s := rfl
theorem exec_linkTrainAttempt die cable ok partner : exec (.linkTrainAttempt die cable ok partner) s = execLinkTrainAttempt die cable ok partner s := rfl
theorem exec_jlReadOnce die msg ecc : exec (.jlReadOnce die msg ecc) s = execJlReadOnce die msg ecc s := rfl
theorem exec_jlWriteLine die msg ecc : exec (.jlWriteLine die msg ecc) s = execJlWriteLine die msg ecc s := rfl
theorem exec_jlAtomic die msg ecc : exec (.jlAtomic die msg ecc) s = execJlAtomic die msg ecc s := rfl
theorem exec_jlEpoch die msg : exec (.jlEpoch die msg) s = execJlEpoch die msg s := rfl
theorem exec_jlAck die msg : exec (.jlAck die msg) s = execJlAck die msg s := rfl
theorem exec_jlData die msg : exec (.jlData die msg) s = execJlData die msg s := rfl
theorem exec_dupWindowExpiry pkg unit tag : exec (.dupWindowExpiry pkg unit tag) s = execDupWindowExpiry pkg unit tag s := rfl
theorem exec_tagHoldExpiry unit tag : exec (.tagHoldExpiry unit tag) s = execTagHoldExpiry unit tag s := rfl
theorem exec_keyPress pin : exec (.keyPress pin) s = execKeyPress pin s := rfl
theorem exec_keyRelease pin : exec (.keyRelease pin) s = execKeyRelease pin s := rfl
theorem exec_keyLongPress pin : exec (.keyLongPress pin) s = execKeyLongPress pin s := rfl
theorem exec_keyStuck pin : exec (.keyStuck pin) s = execKeyStuck pin s := rfl
theorem exec_sliderSweep counts plugs : exec (.sliderSweep counts plugs) s = execSliderSweep counts plugs s := rfl
theorem exec_selectionDisplayEnd : exec (.selectionDisplayEnd) s = execSelectionDisplayEnd s := rfl
theorem exec_pnlSelWrite src v : exec (.pnlSelWrite src v) s = execPnlSelWrite src v s := rfl
theorem exec_buzzerSilence src : exec (.buzzerSilence src) s = execBuzzerSilence src s := rfl
theorem exec_buzzerTest src : exec (.buzzerTest src) s = execBuzzerTest src s := rfl
theorem exec_sensorUnplug pin : exec (.sensorUnplug pin) s = execSensorUnplug pin s := rfl
theorem exec_sensorReplug pin : exec (.sensorReplug pin) s = execSensorReplug pin s := rfl
theorem exec_replugWaitTimeout lane : exec (.replugWaitTimeout lane) s = execReplugWaitTimeout lane s := rfl
theorem exec_electrodeFault pin : exec (.electrodeFault pin) s = execElectrodeFault pin s := rfl
theorem exec_sinkOvercurrent pin : exec (.sinkOvercurrent pin) s = execSinkOvercurrent pin s := rfl
theorem exec_sinkRetry pin still : exec (.sinkRetry pin still) s = execSinkRetry pin still s := rfl
theorem exec_errConsWrite src ring v : exec (.errConsWrite src ring v) s = execErrConsWrite src ring v s := rfl
theorem exec_quiesceDrainDone : exec (.quiesceDrainDone) s = execQuiesceDrainDone s := rfl
theorem exec_drainTimeout : exec (.drainTimeout) s = execDrainTimeout s := rfl
theorem exec_errUnitReset src unit : exec (.errUnitReset src unit) s = execErrUnitReset src unit s := rfl
theorem exec_errUnitUpdate src unit : exec (.errUnitUpdate src unit) s = execErrUnitUpdate src unit s := rfl
theorem exec_frameDeadline lane seq : exec (.frameDeadline lane seq) s = execFrameDeadline lane seq s := rfl
theorem exec_frameLateLimit lane seq : exec (.frameLateLimit lane seq) s = execFrameLateLimit lane seq s := rfl
theorem exec_coxWatchdogExpiry : exec (.coxWatchdogExpiry) s = execCoxWatchdogExpiry s := rfl
theorem exec_heartbeatExpiry part : exec (.heartbeatExpiry part) s = execHeartbeatExpiry part s := rfl
theorem exec_partitionRestart src part : exec (.partitionRestart src part) s = execPartitionRestart src part s := rfl
theorem exec_partitionAutoRestart part : exec (.partitionAutoRestart part) s = execPartitionAutoRestart part s := rfl
theorem exec_deviceFatal cause : exec (.deviceFatal cause) s = execDeviceFatal cause s := rfl
theorem exec_fatalHoldExpiry : exec (.fatalHoldExpiry) s = execFatalHoldExpiry s := rfl
theorem exec_dbgRspCapture : exec (.dbgRspCapture) s = execDbgRspCapture s := rfl
theorem exec_status tag zero : exec (.status tag zero) s = execStatus tag zero s := rfl
theorem exec_unlockPw tag arg zero : exec (.unlockPw tag arg zero) s = execUnlockPw tag arg zero s := rfl
theorem exec_challenge tag arg zero : exec (.challenge tag arg zero) s = execChallenge tag arg zero s := rfl
theorem exec_unlockRsp tag arg zero : exec (.unlockRsp tag arg zero) s = execUnlockRsp tag arg zero s := rfl
theorem exec_lockoutExpiry : exec (.lockoutExpiry) s = execLockoutExpiry s := rfl
theorem exec_nonceLapse : exec (.nonceLapse) s = execNonceLapse s := rfl
theorem exec_endSession tag zero : exec (.endSession tag zero) s = execEndSession tag zero s := rfl
theorem exec_sessionTimeout : exec (.sessionTimeout) s = execSessionTimeout s := rfl
theorem exec_telemetry tag page meas zero : exec (.telemetry tag page meas zero) s = execTelemetry tag page meas zero s := rfl
theorem exec_regRead tag off zero : exec (.regRead tag off zero) s = execRegRead tag off zero s := rfl
theorem exec_regWrite tag off v zero : exec (.regWrite tag off v zero) s = execRegWrite tag off v zero s := rfl
theorem exec_halt tag unit zero : exec (.halt tag unit zero) s = execHalt tag unit zero s := rfl
theorem exec_haltTakesEffect scull : exec (.haltTakesEffect scull) s = execHaltTakesEffect scull s := rfl
theorem exec_resume tag unit zero : exec (.resume tag unit zero) s = execResume tag unit zero s := rfl
theorem exec_step tag unit count zero : exec (.step tag unit count zero) s = execStep tag unit count zero s := rfl
theorem exec_stateRead tag unit page zero : exec (.stateRead tag unit page zero) s = execStateRead tag unit page zero s := rfl
theorem exec_bpSet tag scull slot ctx addr zero : exec (.bpSet tag scull slot ctx addr zero) s = execBpSet tag scull slot ctx addr zero s := rfl
theorem exec_bpClr tag scull slot zero : exec (.bpClr tag scull slot zero) s = execBpClr tag scull slot zero s := rfl
theorem exec_wpSet tag scull slot ctx spec addr zero : exec (.wpSet tag scull slot ctx spec addr zero) s = execWpSet tag scull slot ctx spec addr zero s := rfl
theorem exec_wpClr tag scull slot zero : exec (.wpClr tag scull slot zero) s = execWpClr tag scull slot zero s := rfl
theorem exec_laneBp tag lane kinds zero : exec (.laneBp tag lane kinds zero) s = execLaneBp tag lane kinds zero s := rfl
theorem exec_memRead tag addr len ecc zero : exec (.memRead tag addr len ecc zero) s = execMemRead tag addr len ecc zero s := rfl
theorem exec_memWrite tag addr len bytes zero : exec (.memWrite tag addr len bytes zero) s = execMemWrite tag addr len bytes zero s := rfl
theorem exec_retire tag serial burnFails zero : exec (.retire tag serial burnFails zero) s = execRetire tag serial burnFails zero s := rfl
theorem exec_lock tag burnFails zero : exec (.lock tag burnFails zero) s = execLock tag burnFails zero s := rfl
theorem exec_resetN lowNs taken : exec (.resetN lowNs taken) s = execResetN lowNs taken s := rfl
theorem exec_perstN low : exec (.perstN low) s = execPerstN low s := rfl
theorem exec_nodePowerOvercurrent die seg : exec (.nodePowerOvercurrent die seg) s = execNodePowerOvercurrent die seg s := rfl
theorem exec_nodePowerRetry die seg still : exec (.nodePowerRetry die seg still) s = execNodePowerRetry die seg still s := rfl
theorem exec_thermalCap hot : exec (.thermalCap hot) s = execThermalCap hot s := rfl
theorem exec_thermalTrip : exec (.thermalTrip) s = execThermalTrip s := rfl
theorem exec_referenceAccelFault : exec (.referenceAccelFault) s = execReferenceAccelFault s := rfl
theorem exec_referenceAccelRetry recovered : exec (.referenceAccelRetry recovered) s = execReferenceAccelRetry recovered s := rfl
theorem exec_transceiverInsert die port highPower : exec (.transceiverInsert die port highPower) s = execTransceiverInsert die port highPower s := rfl
theorem exec_transceiverRemove die port : exec (.transceiverRemove die port) s = execTransceiverRemove die port s := rfl
theorem exec_supplyShort supply : exec (.supplyShort supply) s = execSupplyShort supply s := rfl
theorem exec_pcieLinkDown : exec (.pcieLinkDown) s = execPcieLinkDown s := rfl
theorem exec_pcieLinkUp speed width : exec (.pcieLinkUp speed width) s = execPcieLinkUp speed width s := rfl
theorem exec_hostMbCqHeadWrite src fn v : exec (.hostMbCqHeadWrite src fn v) s = execHostMbCqHeadWrite src fn v s := rfl
theorem exec_interruptIntervalExpiry fn vec : exec (.interruptIntervalExpiry fn vec) s = execInterruptIntervalExpiry fn vec s := rfl
theorem exec_registerRead src off size ue : exec (.registerRead src off size ue) s = execRegisterRead src off size ue s := rfl

end Sys2Proof.Machine
end

