-- ==== Sys2Proof/Laws/Tables.lean ====
section
/-!
SUPPORT. Sparse tables: reading after writing, and that every operation keeps the canonical form.
-/
set_option Elab.async false

namespace Sys2Proof

variable {α : Type}

@[simp] theorem Tbl.get_nil (d : α) (k : Nat) : Tbl.get d [] k = d := rfl

theorem Tbl.get_erase_same (d : α) (t : Tbl α) (k : Nat) : Tbl.get d (Tbl.erase t k) k = d := by
  induction t with
  | nil => rfl
  | cons a t ih =>
    obtain ⟨j, v⟩ := a
    by_cases h : j = k <;> simp [Tbl.erase, Tbl.get, h, ih]

theorem Tbl.get_erase_ne (d : α) (t : Tbl α) {j k : Nat} (h : j ≠ k) : Tbl.get d (Tbl.erase t k) j = Tbl.get d t j := by
  induction t with
  | nil => rfl
  | cons a t ih =>
    obtain ⟨i, v⟩ := a
    by_cases hk : i = k
    · subst hk
      simp [Tbl.erase, Tbl.get, ih, Ne.symm h]
    · by_cases hj : i = j
      · subst hj
        simp [Tbl.erase, Tbl.get, hk]
      · simp [Tbl.erase, Tbl.get, hk, hj, ih]

theorem Tbl.get_insert_same (d : α) (t : Tbl α) (k : Nat) (v : α) :
    Tbl.get d (Tbl.insert (Tbl.erase t k) k v) k = v := by
  induction t with
  | nil => simp [Tbl.erase, Tbl.insert, Tbl.get]
  | cons a t ih =>
    obtain ⟨i, w⟩ := a
    by_cases hk : i = k
    · subst hk
      simpa [Tbl.erase] using ih
    · simp only [Tbl.erase, hk, if_false, Tbl.insert]
      split
      · simp [Tbl.get]
      · simp [Tbl.get, hk, ih]

theorem Tbl.get_insert_ne (d : α) (t : Tbl α) {j k : Nat} (v : α) (h : j ≠ k) :
    Tbl.get d (Tbl.insert t k v) j = Tbl.get d t j := by
  induction t with
  | nil => simp [Tbl.insert, Tbl.get, Ne.symm h]
  | cons a t ih =>
    obtain ⟨i, w⟩ := a
    simp only [Tbl.insert]
    split
    · simp [Tbl.get, Ne.symm h]
    · simp [Tbl.get, ih]

theorem Tbl.erase_keys (t : Tbl α) (k : Nat) : ∀ p ∈ Tbl.erase t k, p.1 ≠ k := by
  induction t with
  | nil => intro p hp; cases hp
  | cons a t ih =>
    obtain ⟨i, w⟩ := a
    intro p hp
    simp only [Tbl.erase] at hp
    split at hp
    · exact ih p hp
    · rename_i h
      cases List.mem_cons.1 hp with
      | inl e => rw [e]; exact h
      | inr m => exact ih p m

variable [DecidableEq α]

/-- A read after a write to the same key gives the value written. -/
@[simp] theorem Tbl.get_set_same (d : α) (t : Tbl α) (k : Nat) (v : α) : Tbl.get d (Tbl.set d t k v) k = v := by
  unfold Tbl.set
  split
  · rename_i h
    rw [h, Tbl.get_erase_same]
  · exact Tbl.get_insert_same d t k v

/-- A write leaves every other key alone. -/
theorem Tbl.get_set_ne (d : α) (t : Tbl α) {j k : Nat} (v : α) (h : j ≠ k) : Tbl.get d (Tbl.set d t k v) j = Tbl.get d t j := by
  unfold Tbl.set
  split
  · exact Tbl.get_erase_ne d t h
  · rw [Tbl.get_insert_ne d _ v h, Tbl.get_erase_ne d t h]

/-- What a key reads after a write. -/
theorem Tbl.get_set (d : α) (t : Tbl α) (j k : Nat) (v : α) : Tbl.get d (Tbl.set d t k v) j = if j = k then v else Tbl.get d t j := by
  split
  · rename_i h
    rw [h, Tbl.get_set_same]
  · rename_i h
    exact Tbl.get_set_ne d t v h

/-- A larger bound below. -/
theorem Tbl.okAbove_mono (d : α) (t : Tbl α) (b : Nat) (b' : Option Nat) (hb : ∀ c, b' = some c → c ≤ b)
    (h : Tbl.okAbove d (some b) t = true) : Tbl.okAbove d b' t = true := by
  cases t with
  | nil => rfl
  | cons a t =>
    obtain ⟨k, v⟩ := a
    simp only [Tbl.okAbove, Bool.and_eq_true, decide_eq_true_eq] at h ⊢
    refine ⟨⟨?_, h.1.2⟩, h.2⟩
    cases b' with
    | none => rfl
    | some c =>
      have := hb c rfl
      simp only [decide_eq_true_eq]
      omega

theorem Tbl.okAbove_erase (d : α) (t : Tbl α) (k : Nat) : ∀ b, Tbl.okAbove d b t = true → Tbl.okAbove d b (Tbl.erase t k) = true := by
  induction t with
  | nil => intro b h; exact h
  | cons a t ih =>
    obtain ⟨i, v⟩ := a
    intro b h
    simp only [Tbl.okAbove, Bool.and_eq_true] at h
    simp only [Tbl.erase]
    split
    · refine ih b (Tbl.okAbove_mono d t i b ?_ h.2)
      intro c hc
      subst hc
      have := h.1.1
      simp only [decide_eq_true_eq] at this
      omega
    · simp only [Tbl.okAbove, Bool.and_eq_true]
      exact ⟨h.1, ih _ h.2⟩

theorem Tbl.okAbove_insert (d : α) (t : Tbl α) (k : Nat) (v : α) (hv : v ≠ d) :
    ∀ b, (∀ c, b = some c → c < k) → (∀ p ∈ t, p.1 ≠ k) → Tbl.okAbove d b t = true →
      Tbl.okAbove d b (Tbl.insert t k v) = true := by
  induction t with
  | nil =>
    intro b hb _ _
    cases b with
    | none => simp [Tbl.insert, Tbl.okAbove, hv]
    | some c => simp [Tbl.insert, Tbl.okAbove, hv, hb c rfl]
  | cons a t ih =>
    obtain ⟨i, w⟩ := a
    intro b hb hk h
    simp only [Tbl.okAbove, Bool.and_eq_true] at h
    have hi : i ≠ k := hk (i, w) (by simp)
    simp only [Tbl.insert]
    split
    · rename_i hlt
      simp only [Tbl.okAbove, Bool.and_eq_true, decide_eq_true_eq]
      refine ⟨⟨?_, hv⟩, ⟨⟨hlt, ?_⟩, h.2⟩⟩
      · cases b with
        | none => rfl
        | some c => simpa using hb c rfl
      · simpa using h.1.2
    · simp only [Tbl.okAbove, Bool.and_eq_true]
      refine ⟨h.1, ih (some i) ?_ (fun p hp => hk p (by simp [hp])) h.2⟩
      intro c hc
      cases hc
      omega

/-- A write keeps the canonical form. -/
theorem Tbl.set_wf (d : α) (t : Tbl α) (k : Nat) (v : α) (h : Tbl.wf d t = true) : Tbl.wf d (Tbl.set d t k v) = true := by
  unfold Tbl.set Tbl.wf at *
  split
  · exact Tbl.okAbove_erase d t k none h
  · rename_i hv
    exact Tbl.okAbove_insert d _ k v hv none (by intro c hc; cases hc) (Tbl.erase_keys t k) (Tbl.okAbove_erase d t k none h)

/-- Dropping entries keeps the canonical form. -/
theorem Tbl.filter_okAbove (d : α) (p : Nat × α → Bool) (t : Tbl α) : ∀ b, Tbl.okAbove d b t = true → Tbl.okAbove d b (t.filter p) = true := by
  induction t with
  | nil => intro b h; exact h
  | cons a t ih =>
    obtain ⟨i, v⟩ := a
    intro b h
    simp only [Tbl.okAbove, Bool.and_eq_true] at h
    by_cases hp : p (i, v) = true
    · rw [List.filter_cons_of_pos hp]
      simp only [Tbl.okAbove, Bool.and_eq_true]
      exact ⟨h.1, ih _ h.2⟩
    · rw [List.filter_cons_of_neg hp]
      refine ih b (Tbl.okAbove_mono d t i b ?_ h.2)
      intro c hc
      subst hc
      have := h.1.1
      simp only [decide_eq_true_eq] at this
      omega

theorem Tbl.filter_wf (d : α) (p : Nat × α → Bool) (t : Tbl α) (h : Tbl.wf d t = true) : Tbl.wf d (t.filter p) = true :=
  Tbl.filter_okAbove d p t none h

/-- Membership in a set after an addition and a removal. -/
theorem NatSet.has_add (t : NatSet) (j k : Nat) : NatSet.has (NatSet.add t k) j = (decide (j = k) || NatSet.has t j) := by
  simp only [NatSet.has, NatSet.add, Tbl.get_set]
  by_cases h : j = k <;> simp [h]

theorem NatSet.has_del (t : NatSet) (j k : Nat) : NatSet.has (NatSet.del t k) j = (!decide (j = k) && NatSet.has t j) := by
  simp only [NatSet.has, NatSet.del, Tbl.get_set]
  by_cases h : j = k <;> simp [h]

@[simp] theorem NatSet.has_add_same (t : NatSet) (k : Nat) : NatSet.has (NatSet.add t k) k = true := by simp [NatSet.has_add]

@[simp] theorem NatSet.has_del_same (t : NatSet) (k : Nat) : NatSet.has (NatSet.del t k) k = false := by simp [NatSet.has_del]

end Sys2Proof
end

