-- ==== Sys2Proof/Laws/State.lean ====
section
/-!
SUPPORT. What each named update changes: one lemma per field, and what a register field reads after an update.
-/
set_option Elab.async false

namespace Sys2Proof.Machine

variable (s : State)

/-! ### start -/

@[simp] theorem State.start_flds : (s.start).flds = s.flds := rfl
@[simp] theorem State.start_holds : (s.start).holds = s.holds := rfl
@[simp] theorem State.start_mem : (s.start).mem = s.mem := rfl
@[simp] theorem State.start_poison : (s.start).poison = s.poison := rfl
@[simp] theorem State.start_bh : (s.start).bh = s.bh := rfl
@[simp] theorem State.start_boot : (s.start).boot = s.boot := rfl
@[simp] theorem State.start_coh : (s.start).coh = s.coh := rfl
@[simp] theorem State.start_locks : (s.start).locks = s.locks := rfl
@[simp] theorem State.start_xlu : (s.start).xlu = s.xlu := rfl
@[simp] theorem State.start_scl : (s.start).scl = s.scl := rfl
@[simp] theorem State.start_tasks : (s.start).tasks = s.tasks := rfl
@[simp] theorem State.start_ready : (s.start).ready = s.ready := rfl
@[simp] theorem State.start_heldReady : (s.start).heldReady = s.heldReady := rfl
@[simp] theorem State.start_sld : (s.start).sld = s.sld := rfl
@[simp] theorem State.start_err : (s.start).err = s.err := rfl
@[simp] theorem State.start_rpt : (s.start).rpt = s.rpt := rfl
@[simp] theorem State.start_host : (s.start).host = s.host := rfl
@[simp] theorem State.start_jl : (s.start).jl = s.jl := rfl
@[simp] theorem State.start_dbg : (s.start).dbg = s.dbg := rfl
@[simp] theorem State.start_reuse : (s.start).reuse = s.reuse := rfl
@[simp] theorem State.start_pwr : (s.start).pwr = s.pwr := rfl
@[simp] theorem State.start_lanes : (s.start).lanes = s.lanes := rfl
@[simp] theorem State.start_ptp : (s.start).ptp = s.ptp := rfl
@[simp] theorem State.start_shed : (s.start).shed = s.shed := rfl
@[simp] theorem State.start_le : (s.start).le = s.le := rfl
@[simp] theorem State.start_lrn : (s.start).lrn = s.lrn := rfl
@[simp] theorem State.start_bank : (s.start).bank = s.bank := rfl
@[simp] theorem State.start_mdl : (s.start).mdl = s.mdl := rfl
@[simp] theorem State.start_pnl : (s.start).pnl = s.pnl := rfl
@[simp] theorem State.start_mod : (s.start).mod = s.mod := rfl
@[simp] theorem State.start_regUe : (s.start).regUe = s.regUe := rfl
@[simp] theorem State.start_out : (s.start).out = [] := rfl
@[simp] theorem State.start_now : (s.start).now = s.now := rfl
@[simp] theorem State.start_dev : (s.start).dev = s.dev := rfl
@[simp] theorem State.start_free : (s.start).free = s.free := rfl
@[simp] theorem State.start_pending : (s.start).pending = s.pending := rfl
@[simp] theorem State.get_start (g : RegField) (j : Nat) : (s.start).get g j = s.get g j := rfl

/-! ### emit -/

@[simp] theorem State.emit_flds (o : Out) : (s.emit o).flds = s.flds := rfl
@[simp] theorem State.emit_holds (o : Out) : (s.emit o).holds = s.holds := rfl
@[simp] theorem State.emit_mem (o : Out) : (s.emit o).mem = s.mem := rfl
@[simp] theorem State.emit_poison (o : Out) : (s.emit o).poison = s.poison := rfl
@[simp] theorem State.emit_bh (o : Out) : (s.emit o).bh = s.bh := rfl
@[simp] theorem State.emit_boot (o : Out) : (s.emit o).boot = s.boot := rfl
@[simp] theorem State.emit_coh (o : Out) : (s.emit o).coh = s.coh := rfl
@[simp] theorem State.emit_locks (o : Out) : (s.emit o).locks = s.locks := rfl
@[simp] theorem State.emit_xlu (o : Out) : (s.emit o).xlu = s.xlu := rfl
@[simp] theorem State.emit_scl (o : Out) : (s.emit o).scl = s.scl := rfl
@[simp] theorem State.emit_tasks (o : Out) : (s.emit o).tasks = s.tasks := rfl
@[simp] theorem State.emit_ready (o : Out) : (s.emit o).ready = s.ready := rfl
@[simp] theorem State.emit_heldReady (o : Out) : (s.emit o).heldReady = s.heldReady := rfl
@[simp] theorem State.emit_sld (o : Out) : (s.emit o).sld = s.sld := rfl
@[simp] theorem State.emit_err (o : Out) : (s.emit o).err = s.err := rfl
@[simp] theorem State.emit_rpt (o : Out) : (s.emit o).rpt = s.rpt := rfl
@[simp] theorem State.emit_host (o : Out) : (s.emit o).host = s.host := rfl
@[simp] theorem State.emit_jl (o : Out) : (s.emit o).jl = s.jl := rfl
@[simp] theorem State.emit_dbg (o : Out) : (s.emit o).dbg = s.dbg := rfl
@[simp] theorem State.emit_reuse (o : Out) : (s.emit o).reuse = s.reuse := rfl
@[simp] theorem State.emit_pwr (o : Out) : (s.emit o).pwr = s.pwr := rfl
@[simp] theorem State.emit_lanes (o : Out) : (s.emit o).lanes = s.lanes := rfl
@[simp] theorem State.emit_ptp (o : Out) : (s.emit o).ptp = s.ptp := rfl
@[simp] theorem State.emit_shed (o : Out) : (s.emit o).shed = s.shed := rfl
@[simp] theorem State.emit_le (o : Out) : (s.emit o).le = s.le := rfl
@[simp] theorem State.emit_lrn (o : Out) : (s.emit o).lrn = s.lrn := rfl
@[simp] theorem State.emit_bank (o : Out) : (s.emit o).bank = s.bank := rfl
@[simp] theorem State.emit_mdl (o : Out) : (s.emit o).mdl = s.mdl := rfl
@[simp] theorem State.emit_pnl (o : Out) : (s.emit o).pnl = s.pnl := rfl
@[simp] theorem State.emit_mod (o : Out) : (s.emit o).mod = s.mod := rfl
@[simp] theorem State.emit_regUe (o : Out) : (s.emit o).regUe = s.regUe := rfl
@[simp] theorem State.emit_out (o : Out) : (s.emit o).out = s.out ++ [o] := rfl
@[simp] theorem State.emit_now (o : Out) : (s.emit o).now = s.now := rfl
@[simp] theorem State.emit_dev (o : Out) : (s.emit o).dev = s.dev := rfl
@[simp] theorem State.emit_free (o : Out) : (s.emit o).free = s.free := rfl
@[simp] theorem State.emit_pending (o : Out) : (s.emit o).pending = s.pending := rfl
@[simp] theorem State.get_emit (o : Out) (g : RegField) (j : Nat) : (s.emit o).get g j = s.get g j := rfl

/-! ### put -/

@[simp] theorem State.put_flds (f : RegField) (i v : Nat) : (s.put f i v).flds = Tbl.set f.reset s.flds (f.key i) (v % 2 ^ f.width) := rfl
@[simp] theorem State.put_holds (f : RegField) (i v : Nat) : (s.put f i v).holds = s.holds := rfl
@[simp] theorem State.put_mem (f : RegField) (i v : Nat) : (s.put f i v).mem = s.mem := rfl
@[simp] theorem State.put_poison (f : RegField) (i v : Nat) : (s.put f i v).poison = s.poison := rfl
@[simp] theorem State.put_bh (f : RegField) (i v : Nat) : (s.put f i v).bh = s.bh := rfl
@[simp] theorem State.put_boot (f : RegField) (i v : Nat) : (s.put f i v).boot = s.boot := rfl
@[simp] theorem State.put_coh (f : RegField) (i v : Nat) : (s.put f i v).coh = s.coh := rfl
@[simp] theorem State.put_locks (f : RegField) (i v : Nat) : (s.put f i v).locks = s.locks := rfl
@[simp] theorem State.put_xlu (f : RegField) (i v : Nat) : (s.put f i v).xlu = s.xlu := rfl
@[simp] theorem State.put_scl (f : RegField) (i v : Nat) : (s.put f i v).scl = s.scl := rfl
@[simp] theorem State.put_tasks (f : RegField) (i v : Nat) : (s.put f i v).tasks = s.tasks := rfl
@[simp] theorem State.put_ready (f : RegField) (i v : Nat) : (s.put f i v).ready = s.ready := rfl
@[simp] theorem State.put_heldReady (f : RegField) (i v : Nat) : (s.put f i v).heldReady = s.heldReady := rfl
@[simp] theorem State.put_sld (f : RegField) (i v : Nat) : (s.put f i v).sld = s.sld := rfl
@[simp] theorem State.put_err (f : RegField) (i v : Nat) : (s.put f i v).err = s.err := rfl
@[simp] theorem State.put_rpt (f : RegField) (i v : Nat) : (s.put f i v).rpt = s.rpt := rfl
@[simp] theorem State.put_host (f : RegField) (i v : Nat) : (s.put f i v).host = s.host := rfl
@[simp] theorem State.put_jl (f : RegField) (i v : Nat) : (s.put f i v).jl = s.jl := rfl
@[simp] theorem State.put_dbg (f : RegField) (i v : Nat) : (s.put f i v).dbg = s.dbg := rfl
@[simp] theorem State.put_reuse (f : RegField) (i v : Nat) : (s.put f i v).reuse = s.reuse := rfl
@[simp] theorem State.put_pwr (f : RegField) (i v : Nat) : (s.put f i v).pwr = s.pwr := rfl
@[simp] theorem State.put_lanes (f : RegField) (i v : Nat) : (s.put f i v).lanes = s.lanes := rfl
@[simp] theorem State.put_ptp (f : RegField) (i v : Nat) : (s.put f i v).ptp = s.ptp := rfl
@[simp] theorem State.put_shed (f : RegField) (i v : Nat) : (s.put f i v).shed = s.shed := rfl
@[simp] theorem State.put_le (f : RegField) (i v : Nat) : (s.put f i v).le = s.le := rfl
@[simp] theorem State.put_lrn (f : RegField) (i v : Nat) : (s.put f i v).lrn = s.lrn := rfl
@[simp] theorem State.put_bank (f : RegField) (i v : Nat) : (s.put f i v).bank = s.bank := rfl
@[simp] theorem State.put_mdl (f : RegField) (i v : Nat) : (s.put f i v).mdl = s.mdl := rfl
@[simp] theorem State.put_pnl (f : RegField) (i v : Nat) : (s.put f i v).pnl = s.pnl := rfl
@[simp] theorem State.put_mod (f : RegField) (i v : Nat) : (s.put f i v).mod = s.mod := rfl
@[simp] theorem State.put_regUe (f : RegField) (i v : Nat) : (s.put f i v).regUe = s.regUe := rfl
@[simp] theorem State.put_out (f : RegField) (i v : Nat) : (s.put f i v).out = s.out := rfl
@[simp] theorem State.put_now (f : RegField) (i v : Nat) : (s.put f i v).now = s.now := rfl
@[simp] theorem State.put_dev (f : RegField) (i v : Nat) : (s.put f i v).dev = s.dev := rfl
@[simp] theorem State.put_free (f : RegField) (i v : Nat) : (s.put f i v).free = s.free := rfl
@[simp] theorem State.put_pending (f : RegField) (i v : Nat) : (s.put f i v).pending = s.pending := rfl

/-! ### bump -/

@[simp] theorem State.bump_holds (f : RegField) (i n : Nat) : (s.bump f i n).holds = s.holds := rfl
@[simp] theorem State.bump_mem (f : RegField) (i n : Nat) : (s.bump f i n).mem = s.mem := rfl
@[simp] theorem State.bump_poison (f : RegField) (i n : Nat) : (s.bump f i n).poison = s.poison := rfl
@[simp] theorem State.bump_bh (f : RegField) (i n : Nat) : (s.bump f i n).bh = s.bh := rfl
@[simp] theorem State.bump_boot (f : RegField) (i n : Nat) : (s.bump f i n).boot = s.boot := rfl
@[simp] theorem State.bump_coh (f : RegField) (i n : Nat) : (s.bump f i n).coh = s.coh := rfl
@[simp] theorem State.bump_locks (f : RegField) (i n : Nat) : (s.bump f i n).locks = s.locks := rfl
@[simp] theorem State.bump_xlu (f : RegField) (i n : Nat) : (s.bump f i n).xlu = s.xlu := rfl
@[simp] theorem State.bump_scl (f : RegField) (i n : Nat) : (s.bump f i n).scl = s.scl := rfl
@[simp] theorem State.bump_tasks (f : RegField) (i n : Nat) : (s.bump f i n).tasks = s.tasks := rfl
@[simp] theorem State.bump_ready (f : RegField) (i n : Nat) : (s.bump f i n).ready = s.ready := rfl
@[simp] theorem State.bump_heldReady (f : RegField) (i n : Nat) : (s.bump f i n).heldReady = s.heldReady := rfl
@[simp] theorem State.bump_sld (f : RegField) (i n : Nat) : (s.bump f i n).sld = s.sld := rfl
@[simp] theorem State.bump_err (f : RegField) (i n : Nat) : (s.bump f i n).err = s.err := rfl
@[simp] theorem State.bump_rpt (f : RegField) (i n : Nat) : (s.bump f i n).rpt = s.rpt := rfl
@[simp] theorem State.bump_host (f : RegField) (i n : Nat) : (s.bump f i n).host = s.host := rfl
@[simp] theorem State.bump_jl (f : RegField) (i n : Nat) : (s.bump f i n).jl = s.jl := rfl
@[simp] theorem State.bump_dbg (f : RegField) (i n : Nat) : (s.bump f i n).dbg = s.dbg := rfl
@[simp] theorem State.bump_reuse (f : RegField) (i n : Nat) : (s.bump f i n).reuse = s.reuse := rfl
@[simp] theorem State.bump_pwr (f : RegField) (i n : Nat) : (s.bump f i n).pwr = s.pwr := rfl
@[simp] theorem State.bump_lanes (f : RegField) (i n : Nat) : (s.bump f i n).lanes = s.lanes := rfl
@[simp] theorem State.bump_ptp (f : RegField) (i n : Nat) : (s.bump f i n).ptp = s.ptp := rfl
@[simp] theorem State.bump_shed (f : RegField) (i n : Nat) : (s.bump f i n).shed = s.shed := rfl
@[simp] theorem State.bump_le (f : RegField) (i n : Nat) : (s.bump f i n).le = s.le := rfl
@[simp] theorem State.bump_lrn (f : RegField) (i n : Nat) : (s.bump f i n).lrn = s.lrn := rfl
@[simp] theorem State.bump_bank (f : RegField) (i n : Nat) : (s.bump f i n).bank = s.bank := rfl
@[simp] theorem State.bump_mdl (f : RegField) (i n : Nat) : (s.bump f i n).mdl = s.mdl := rfl
@[simp] theorem State.bump_pnl (f : RegField) (i n : Nat) : (s.bump f i n).pnl = s.pnl := rfl
@[simp] theorem State.bump_mod (f : RegField) (i n : Nat) : (s.bump f i n).mod = s.mod := rfl
@[simp] theorem State.bump_regUe (f : RegField) (i n : Nat) : (s.bump f i n).regUe = s.regUe := rfl
@[simp] theorem State.bump_out (f : RegField) (i n : Nat) : (s.bump f i n).out = s.out := rfl
@[simp] theorem State.bump_now (f : RegField) (i n : Nat) : (s.bump f i n).now = s.now := rfl
@[simp] theorem State.bump_dev (f : RegField) (i n : Nat) : (s.bump f i n).dev = s.dev := rfl
@[simp] theorem State.bump_free (f : RegField) (i n : Nat) : (s.bump f i n).free = s.free := rfl
@[simp] theorem State.bump_pending (f : RegField) (i n : Nat) : (s.bump f i n).pending = s.pending := rfl

/-! ### raise -/

@[simp] theorem State.raise_holds (f : RegField) (i v : Nat) : (s.raise f i v).holds = s.holds := rfl
@[simp] theorem State.raise_mem (f : RegField) (i v : Nat) : (s.raise f i v).mem = s.mem := rfl
@[simp] theorem State.raise_poison (f : RegField) (i v : Nat) : (s.raise f i v).poison = s.poison := rfl
@[simp] theorem State.raise_bh (f : RegField) (i v : Nat) : (s.raise f i v).bh = s.bh := rfl
@[simp] theorem State.raise_boot (f : RegField) (i v : Nat) : (s.raise f i v).boot = s.boot := rfl
@[simp] theorem State.raise_coh (f : RegField) (i v : Nat) : (s.raise f i v).coh = s.coh := rfl
@[simp] theorem State.raise_locks (f : RegField) (i v : Nat) : (s.raise f i v).locks = s.locks := rfl
@[simp] theorem State.raise_xlu (f : RegField) (i v : Nat) : (s.raise f i v).xlu = s.xlu := rfl
@[simp] theorem State.raise_scl (f : RegField) (i v : Nat) : (s.raise f i v).scl = s.scl := rfl
@[simp] theorem State.raise_tasks (f : RegField) (i v : Nat) : (s.raise f i v).tasks = s.tasks := rfl
@[simp] theorem State.raise_ready (f : RegField) (i v : Nat) : (s.raise f i v).ready = s.ready := rfl
@[simp] theorem State.raise_heldReady (f : RegField) (i v : Nat) : (s.raise f i v).heldReady = s.heldReady := rfl
@[simp] theorem State.raise_sld (f : RegField) (i v : Nat) : (s.raise f i v).sld = s.sld := rfl
@[simp] theorem State.raise_err (f : RegField) (i v : Nat) : (s.raise f i v).err = s.err := rfl
@[simp] theorem State.raise_rpt (f : RegField) (i v : Nat) : (s.raise f i v).rpt = s.rpt := rfl
@[simp] theorem State.raise_host (f : RegField) (i v : Nat) : (s.raise f i v).host = s.host := rfl
@[simp] theorem State.raise_jl (f : RegField) (i v : Nat) : (s.raise f i v).jl = s.jl := rfl
@[simp] theorem State.raise_dbg (f : RegField) (i v : Nat) : (s.raise f i v).dbg = s.dbg := rfl
@[simp] theorem State.raise_reuse (f : RegField) (i v : Nat) : (s.raise f i v).reuse = s.reuse := rfl
@[simp] theorem State.raise_pwr (f : RegField) (i v : Nat) : (s.raise f i v).pwr = s.pwr := rfl
@[simp] theorem State.raise_lanes (f : RegField) (i v : Nat) : (s.raise f i v).lanes = s.lanes := rfl
@[simp] theorem State.raise_ptp (f : RegField) (i v : Nat) : (s.raise f i v).ptp = s.ptp := rfl
@[simp] theorem State.raise_shed (f : RegField) (i v : Nat) : (s.raise f i v).shed = s.shed := rfl
@[simp] theorem State.raise_le (f : RegField) (i v : Nat) : (s.raise f i v).le = s.le := rfl
@[simp] theorem State.raise_lrn (f : RegField) (i v : Nat) : (s.raise f i v).lrn = s.lrn := rfl
@[simp] theorem State.raise_bank (f : RegField) (i v : Nat) : (s.raise f i v).bank = s.bank := rfl
@[simp] theorem State.raise_mdl (f : RegField) (i v : Nat) : (s.raise f i v).mdl = s.mdl := rfl
@[simp] theorem State.raise_pnl (f : RegField) (i v : Nat) : (s.raise f i v).pnl = s.pnl := rfl
@[simp] theorem State.raise_mod (f : RegField) (i v : Nat) : (s.raise f i v).mod = s.mod := rfl
@[simp] theorem State.raise_regUe (f : RegField) (i v : Nat) : (s.raise f i v).regUe = s.regUe := rfl
@[simp] theorem State.raise_out (f : RegField) (i v : Nat) : (s.raise f i v).out = s.out := rfl
@[simp] theorem State.raise_now (f : RegField) (i v : Nat) : (s.raise f i v).now = s.now := rfl
@[simp] theorem State.raise_dev (f : RegField) (i v : Nat) : (s.raise f i v).dev = s.dev := rfl
@[simp] theorem State.raise_free (f : RegField) (i v : Nat) : (s.raise f i v).free = s.free := rfl
@[simp] theorem State.raise_pending (f : RegField) (i v : Nat) : (s.raise f i v).pending = s.pending := rfl

/-! ### wrByte -/

@[simp] theorem State.wrByte_flds (a : Nat) (v : Byte) : (s.wrByte a v).flds = s.flds := rfl
@[simp] theorem State.wrByte_holds (a : Nat) (v : Byte) : (s.wrByte a v).holds = s.holds := rfl
@[simp] theorem State.wrByte_mem (a : Nat) (v : Byte) : (s.wrByte a v).mem = Tbl.set 0 s.mem (localOff a) v := rfl
@[simp] theorem State.wrByte_poison (a : Nat) (v : Byte) : (s.wrByte a v).poison = s.poison := rfl
@[simp] theorem State.wrByte_bh (a : Nat) (v : Byte) : (s.wrByte a v).bh = s.bh := rfl
@[simp] theorem State.wrByte_boot (a : Nat) (v : Byte) : (s.wrByte a v).boot = s.boot := rfl
@[simp] theorem State.wrByte_coh (a : Nat) (v : Byte) : (s.wrByte a v).coh = s.coh := rfl
@[simp] theorem State.wrByte_locks (a : Nat) (v : Byte) : (s.wrByte a v).locks = s.locks := rfl
@[simp] theorem State.wrByte_xlu (a : Nat) (v : Byte) : (s.wrByte a v).xlu = s.xlu := rfl
@[simp] theorem State.wrByte_scl (a : Nat) (v : Byte) : (s.wrByte a v).scl = s.scl := rfl
@[simp] theorem State.wrByte_tasks (a : Nat) (v : Byte) : (s.wrByte a v).tasks = s.tasks := rfl
@[simp] theorem State.wrByte_ready (a : Nat) (v : Byte) : (s.wrByte a v).ready = s.ready := rfl
@[simp] theorem State.wrByte_heldReady (a : Nat) (v : Byte) : (s.wrByte a v).heldReady = s.heldReady := rfl
@[simp] theorem State.wrByte_sld (a : Nat) (v : Byte) : (s.wrByte a v).sld = s.sld := rfl
@[simp] theorem State.wrByte_err (a : Nat) (v : Byte) : (s.wrByte a v).err = s.err := rfl
@[simp] theorem State.wrByte_rpt (a : Nat) (v : Byte) : (s.wrByte a v).rpt = s.rpt := rfl
@[simp] theorem State.wrByte_host (a : Nat) (v : Byte) : (s.wrByte a v).host = s.host := rfl
@[simp] theorem State.wrByte_jl (a : Nat) (v : Byte) : (s.wrByte a v).jl = s.jl := rfl
@[simp] theorem State.wrByte_dbg (a : Nat) (v : Byte) : (s.wrByte a v).dbg = s.dbg := rfl
@[simp] theorem State.wrByte_reuse (a : Nat) (v : Byte) : (s.wrByte a v).reuse = s.reuse := rfl
@[simp] theorem State.wrByte_pwr (a : Nat) (v : Byte) : (s.wrByte a v).pwr = s.pwr := rfl
@[simp] theorem State.wrByte_lanes (a : Nat) (v : Byte) : (s.wrByte a v).lanes = s.lanes := rfl
@[simp] theorem State.wrByte_ptp (a : Nat) (v : Byte) : (s.wrByte a v).ptp = s.ptp := rfl
@[simp] theorem State.wrByte_shed (a : Nat) (v : Byte) : (s.wrByte a v).shed = s.shed := rfl
@[simp] theorem State.wrByte_le (a : Nat) (v : Byte) : (s.wrByte a v).le = s.le := rfl
@[simp] theorem State.wrByte_lrn (a : Nat) (v : Byte) : (s.wrByte a v).lrn = s.lrn := rfl
@[simp] theorem State.wrByte_bank (a : Nat) (v : Byte) : (s.wrByte a v).bank = s.bank := rfl
@[simp] theorem State.wrByte_mdl (a : Nat) (v : Byte) : (s.wrByte a v).mdl = s.mdl := rfl
@[simp] theorem State.wrByte_pnl (a : Nat) (v : Byte) : (s.wrByte a v).pnl = s.pnl := rfl
@[simp] theorem State.wrByte_mod (a : Nat) (v : Byte) : (s.wrByte a v).mod = s.mod := rfl
@[simp] theorem State.wrByte_regUe (a : Nat) (v : Byte) : (s.wrByte a v).regUe = s.regUe := rfl
@[simp] theorem State.wrByte_out (a : Nat) (v : Byte) : (s.wrByte a v).out = s.out := rfl
@[simp] theorem State.wrByte_now (a : Nat) (v : Byte) : (s.wrByte a v).now = s.now := rfl
@[simp] theorem State.wrByte_dev (a : Nat) (v : Byte) : (s.wrByte a v).dev = s.dev := rfl
@[simp] theorem State.wrByte_free (a : Nat) (v : Byte) : (s.wrByte a v).free = s.free := rfl
@[simp] theorem State.wrByte_pending (a : Nat) (v : Byte) : (s.wrByte a v).pending = s.pending := rfl
@[simp] theorem State.get_wrByte (a : Nat) (v : Byte) (g : RegField) (j : Nat) : (s.wrByte a v).get g j = s.get g j := rfl

/-! ### setPoison -/

@[simp] theorem State.setPoison_flds (a : Nat) : (s.setPoison a).flds = s.flds := rfl
@[simp] theorem State.setPoison_holds (a : Nat) : (s.setPoison a).holds = s.holds := rfl
@[simp] theorem State.setPoison_mem (a : Nat) : (s.setPoison a).mem = s.mem := rfl
@[simp] theorem State.setPoison_poison (a : Nat) : (s.setPoison a).poison = NatSet.add s.poison (wordKey a) := rfl
@[simp] theorem State.setPoison_bh (a : Nat) : (s.setPoison a).bh = s.bh := rfl
@[simp] theorem State.setPoison_boot (a : Nat) : (s.setPoison a).boot = s.boot := rfl
@[simp] theorem State.setPoison_coh (a : Nat) : (s.setPoison a).coh = s.coh := rfl
@[simp] theorem State.setPoison_locks (a : Nat) : (s.setPoison a).locks = s.locks := rfl
@[simp] theorem State.setPoison_xlu (a : Nat) : (s.setPoison a).xlu = s.xlu := rfl
@[simp] theorem State.setPoison_scl (a : Nat) : (s.setPoison a).scl = s.scl := rfl
@[simp] theorem State.setPoison_tasks (a : Nat) : (s.setPoison a).tasks = s.tasks := rfl
@[simp] theorem State.setPoison_ready (a : Nat) : (s.setPoison a).ready = s.ready := rfl
@[simp] theorem State.setPoison_heldReady (a : Nat) : (s.setPoison a).heldReady = s.heldReady := rfl
@[simp] theorem State.setPoison_sld (a : Nat) : (s.setPoison a).sld = s.sld := rfl
@[simp] theorem State.setPoison_err (a : Nat) : (s.setPoison a).err = s.err := rfl
@[simp] theorem State.setPoison_rpt (a : Nat) : (s.setPoison a).rpt = s.rpt := rfl
@[simp] theorem State.setPoison_host (a : Nat) : (s.setPoison a).host = s.host := rfl
@[simp] theorem State.setPoison_jl (a : Nat) : (s.setPoison a).jl = s.jl := rfl
@[simp] theorem State.setPoison_dbg (a : Nat) : (s.setPoison a).dbg = s.dbg := rfl
@[simp] theorem State.setPoison_reuse (a : Nat) : (s.setPoison a).reuse = s.reuse := rfl
@[simp] theorem State.setPoison_pwr (a : Nat) : (s.setPoison a).pwr = s.pwr := rfl
@[simp] theorem State.setPoison_lanes (a : Nat) : (s.setPoison a).lanes = s.lanes := rfl
@[simp] theorem State.setPoison_ptp (a : Nat) : (s.setPoison a).ptp = s.ptp := rfl
@[simp] theorem State.setPoison_shed (a : Nat) : (s.setPoison a).shed = s.shed := rfl
@[simp] theorem State.setPoison_le (a : Nat) : (s.setPoison a).le = s.le := rfl
@[simp] theorem State.setPoison_lrn (a : Nat) : (s.setPoison a).lrn = s.lrn := rfl
@[simp] theorem State.setPoison_bank (a : Nat) : (s.setPoison a).bank = s.bank := rfl
@[simp] theorem State.setPoison_mdl (a : Nat) : (s.setPoison a).mdl = s.mdl := rfl
@[simp] theorem State.setPoison_pnl (a : Nat) : (s.setPoison a).pnl = s.pnl := rfl
@[simp] theorem State.setPoison_mod (a : Nat) : (s.setPoison a).mod = s.mod := rfl
@[simp] theorem State.setPoison_regUe (a : Nat) : (s.setPoison a).regUe = s.regUe := rfl
@[simp] theorem State.setPoison_out (a : Nat) : (s.setPoison a).out = s.out := rfl
@[simp] theorem State.setPoison_now (a : Nat) : (s.setPoison a).now = s.now := rfl
@[simp] theorem State.setPoison_dev (a : Nat) : (s.setPoison a).dev = s.dev := rfl
@[simp] theorem State.setPoison_free (a : Nat) : (s.setPoison a).free = s.free := rfl
@[simp] theorem State.setPoison_pending (a : Nat) : (s.setPoison a).pending = s.pending := rfl
@[simp] theorem State.get_setPoison (a : Nat) (g : RegField) (j : Nat) : (s.setPoison a).get g j = s.get g j := rfl

/-! ### clrPoison -/

@[simp] theorem State.clrPoison_flds (a : Nat) : (s.clrPoison a).flds = s.flds := rfl
@[simp] theorem State.clrPoison_holds (a : Nat) : (s.clrPoison a).holds = s.holds := rfl
@[simp] theorem State.clrPoison_mem (a : Nat) : (s.clrPoison a).mem = s.mem := rfl
@[simp] theorem State.clrPoison_poison (a : Nat) : (s.clrPoison a).poison = NatSet.del s.poison (wordKey a) := rfl
@[simp] theorem State.clrPoison_bh (a : Nat) : (s.clrPoison a).bh = s.bh := rfl
@[simp] theorem State.clrPoison_boot (a : Nat) : (s.clrPoison a).boot = s.boot := rfl
@[simp] theorem State.clrPoison_coh (a : Nat) : (s.clrPoison a).coh = s.coh := rfl
@[simp] theorem State.clrPoison_locks (a : Nat) : (s.clrPoison a).locks = s.locks := rfl
@[simp] theorem State.clrPoison_xlu (a : Nat) : (s.clrPoison a).xlu = s.xlu := rfl
@[simp] theorem State.clrPoison_scl (a : Nat) : (s.clrPoison a).scl = s.scl := rfl
@[simp] theorem State.clrPoison_tasks (a : Nat) : (s.clrPoison a).tasks = s.tasks := rfl
@[simp] theorem State.clrPoison_ready (a : Nat) : (s.clrPoison a).ready = s.ready := rfl
@[simp] theorem State.clrPoison_heldReady (a : Nat) : (s.clrPoison a).heldReady = s.heldReady := rfl
@[simp] theorem State.clrPoison_sld (a : Nat) : (s.clrPoison a).sld = s.sld := rfl
@[simp] theorem State.clrPoison_err (a : Nat) : (s.clrPoison a).err = s.err := rfl
@[simp] theorem State.clrPoison_rpt (a : Nat) : (s.clrPoison a).rpt = s.rpt := rfl
@[simp] theorem State.clrPoison_host (a : Nat) : (s.clrPoison a).host = s.host := rfl
@[simp] theorem State.clrPoison_jl (a : Nat) : (s.clrPoison a).jl = s.jl := rfl
@[simp] theorem State.clrPoison_dbg (a : Nat) : (s.clrPoison a).dbg = s.dbg := rfl
@[simp] theorem State.clrPoison_reuse (a : Nat) : (s.clrPoison a).reuse = s.reuse := rfl
@[simp] theorem State.clrPoison_pwr (a : Nat) : (s.clrPoison a).pwr = s.pwr := rfl
@[simp] theorem State.clrPoison_lanes (a : Nat) : (s.clrPoison a).lanes = s.lanes := rfl
@[simp] theorem State.clrPoison_ptp (a : Nat) : (s.clrPoison a).ptp = s.ptp := rfl
@[simp] theorem State.clrPoison_shed (a : Nat) : (s.clrPoison a).shed = s.shed := rfl
@[simp] theorem State.clrPoison_le (a : Nat) : (s.clrPoison a).le = s.le := rfl
@[simp] theorem State.clrPoison_lrn (a : Nat) : (s.clrPoison a).lrn = s.lrn := rfl
@[simp] theorem State.clrPoison_bank (a : Nat) : (s.clrPoison a).bank = s.bank := rfl
@[simp] theorem State.clrPoison_mdl (a : Nat) : (s.clrPoison a).mdl = s.mdl := rfl
@[simp] theorem State.clrPoison_pnl (a : Nat) : (s.clrPoison a).pnl = s.pnl := rfl
@[simp] theorem State.clrPoison_mod (a : Nat) : (s.clrPoison a).mod = s.mod := rfl
@[simp] theorem State.clrPoison_regUe (a : Nat) : (s.clrPoison a).regUe = s.regUe := rfl
@[simp] theorem State.clrPoison_out (a : Nat) : (s.clrPoison a).out = s.out := rfl
@[simp] theorem State.clrPoison_now (a : Nat) : (s.clrPoison a).now = s.now := rfl
@[simp] theorem State.clrPoison_dev (a : Nat) : (s.clrPoison a).dev = s.dev := rfl
@[simp] theorem State.clrPoison_free (a : Nat) : (s.clrPoison a).free = s.free := rfl
@[simp] theorem State.clrPoison_pending (a : Nat) : (s.clrPoison a).pending = s.pending := rfl
@[simp] theorem State.get_clrPoison (a : Nat) (g : RegField) (j : Nat) : (s.clrPoison a).get g j = s.get g j := rfl

/-! ### setDir -/

@[simp] theorem State.setDir_flds (l : Nat) (d : DirLine) : (s.setDir l d).flds = s.flds := rfl
@[simp] theorem State.setDir_holds (l : Nat) (d : DirLine) : (s.setDir l d).holds = s.holds := rfl
@[simp] theorem State.setDir_mem (l : Nat) (d : DirLine) : (s.setDir l d).mem = s.mem := rfl
@[simp] theorem State.setDir_poison (l : Nat) (d : DirLine) : (s.setDir l d).poison = s.poison := rfl
@[simp] theorem State.setDir_bh (l : Nat) (d : DirLine) : (s.setDir l d).bh = s.bh := rfl
@[simp] theorem State.setDir_boot (l : Nat) (d : DirLine) : (s.setDir l d).boot = s.boot := rfl
@[simp] theorem State.setDir_locks (l : Nat) (d : DirLine) : (s.setDir l d).locks = s.locks := rfl
@[simp] theorem State.setDir_xlu (l : Nat) (d : DirLine) : (s.setDir l d).xlu = s.xlu := rfl
@[simp] theorem State.setDir_scl (l : Nat) (d : DirLine) : (s.setDir l d).scl = s.scl := rfl
@[simp] theorem State.setDir_tasks (l : Nat) (d : DirLine) : (s.setDir l d).tasks = s.tasks := rfl
@[simp] theorem State.setDir_ready (l : Nat) (d : DirLine) : (s.setDir l d).ready = s.ready := rfl
@[simp] theorem State.setDir_heldReady (l : Nat) (d : DirLine) : (s.setDir l d).heldReady = s.heldReady := rfl
@[simp] theorem State.setDir_sld (l : Nat) (d : DirLine) : (s.setDir l d).sld = s.sld := rfl
@[simp] theorem State.setDir_err (l : Nat) (d : DirLine) : (s.setDir l d).err = s.err := rfl
@[simp] theorem State.setDir_rpt (l : Nat) (d : DirLine) : (s.setDir l d).rpt = s.rpt := rfl
@[simp] theorem State.setDir_host (l : Nat) (d : DirLine) : (s.setDir l d).host = s.host := rfl
@[simp] theorem State.setDir_jl (l : Nat) (d : DirLine) : (s.setDir l d).jl = s.jl := rfl
@[simp] theorem State.setDir_dbg (l : Nat) (d : DirLine) : (s.setDir l d).dbg = s.dbg := rfl
@[simp] theorem State.setDir_reuse (l : Nat) (d : DirLine) : (s.setDir l d).reuse = s.reuse := rfl
@[simp] theorem State.setDir_pwr (l : Nat) (d : DirLine) : (s.setDir l d).pwr = s.pwr := rfl
@[simp] theorem State.setDir_lanes (l : Nat) (d : DirLine) : (s.setDir l d).lanes = s.lanes := rfl
@[simp] theorem State.setDir_ptp (l : Nat) (d : DirLine) : (s.setDir l d).ptp = s.ptp := rfl
@[simp] theorem State.setDir_shed (l : Nat) (d : DirLine) : (s.setDir l d).shed = s.shed := rfl
@[simp] theorem State.setDir_le (l : Nat) (d : DirLine) : (s.setDir l d).le = s.le := rfl
@[simp] theorem State.setDir_lrn (l : Nat) (d : DirLine) : (s.setDir l d).lrn = s.lrn := rfl
@[simp] theorem State.setDir_bank (l : Nat) (d : DirLine) : (s.setDir l d).bank = s.bank := rfl
@[simp] theorem State.setDir_mdl (l : Nat) (d : DirLine) : (s.setDir l d).mdl = s.mdl := rfl
@[simp] theorem State.setDir_pnl (l : Nat) (d : DirLine) : (s.setDir l d).pnl = s.pnl := rfl
@[simp] theorem State.setDir_mod (l : Nat) (d : DirLine) : (s.setDir l d).mod = s.mod := rfl
@[simp] theorem State.setDir_regUe (l : Nat) (d : DirLine) : (s.setDir l d).regUe = s.regUe := rfl
@[simp] theorem State.setDir_out (l : Nat) (d : DirLine) : (s.setDir l d).out = s.out := rfl
@[simp] theorem State.setDir_now (l : Nat) (d : DirLine) : (s.setDir l d).now = s.now := rfl
@[simp] theorem State.setDir_dev (l : Nat) (d : DirLine) : (s.setDir l d).dev = s.dev := rfl
@[simp] theorem State.setDir_free (l : Nat) (d : DirLine) : (s.setDir l d).free = s.free := rfl
@[simp] theorem State.setDir_pending (l : Nat) (d : DirLine) : (s.setDir l d).pending = s.pending := rfl
@[simp] theorem State.get_setDir (l : Nat) (d : DirLine) (g : RegField) (j : Nat) : (s.setDir l d).get g j = s.get g j := rfl

/-! ### setBusy -/

@[simp] theorem State.setBusy_flds (l : Nat) (b : Option Busy) : (s.setBusy l b).flds = s.flds := rfl
@[simp] theorem State.setBusy_holds (l : Nat) (b : Option Busy) : (s.setBusy l b).holds = s.holds := rfl
@[simp] theorem State.setBusy_mem (l : Nat) (b : Option Busy) : (s.setBusy l b).mem = s.mem := rfl
@[simp] theorem State.setBusy_poison (l : Nat) (b : Option Busy) : (s.setBusy l b).poison = s.poison := rfl
@[simp] theorem State.setBusy_bh (l : Nat) (b : Option Busy) : (s.setBusy l b).bh = s.bh := rfl
@[simp] theorem State.setBusy_boot (l : Nat) (b : Option Busy) : (s.setBusy l b).boot = s.boot := rfl
@[simp] theorem State.setBusy_locks (l : Nat) (b : Option Busy) : (s.setBusy l b).locks = s.locks := rfl
@[simp] theorem State.setBusy_xlu (l : Nat) (b : Option Busy) : (s.setBusy l b).xlu = s.xlu := rfl
@[simp] theorem State.setBusy_scl (l : Nat) (b : Option Busy) : (s.setBusy l b).scl = s.scl := rfl
@[simp] theorem State.setBusy_tasks (l : Nat) (b : Option Busy) : (s.setBusy l b).tasks = s.tasks := rfl
@[simp] theorem State.setBusy_ready (l : Nat) (b : Option Busy) : (s.setBusy l b).ready = s.ready := rfl
@[simp] theorem State.setBusy_heldReady (l : Nat) (b : Option Busy) : (s.setBusy l b).heldReady = s.heldReady := rfl
@[simp] theorem State.setBusy_sld (l : Nat) (b : Option Busy) : (s.setBusy l b).sld = s.sld := rfl
@[simp] theorem State.setBusy_err (l : Nat) (b : Option Busy) : (s.setBusy l b).err = s.err := rfl
@[simp] theorem State.setBusy_rpt (l : Nat) (b : Option Busy) : (s.setBusy l b).rpt = s.rpt := rfl
@[simp] theorem State.setBusy_host (l : Nat) (b : Option Busy) : (s.setBusy l b).host = s.host := rfl
@[simp] theorem State.setBusy_jl (l : Nat) (b : Option Busy) : (s.setBusy l b).jl = s.jl := rfl
@[simp] theorem State.setBusy_dbg (l : Nat) (b : Option Busy) : (s.setBusy l b).dbg = s.dbg := rfl
@[simp] theorem State.setBusy_reuse (l : Nat) (b : Option Busy) : (s.setBusy l b).reuse = s.reuse := rfl
@[simp] theorem State.setBusy_pwr (l : Nat) (b : Option Busy) : (s.setBusy l b).pwr = s.pwr := rfl
@[simp] theorem State.setBusy_lanes (l : Nat) (b : Option Busy) : (s.setBusy l b).lanes = s.lanes := rfl
@[simp] theorem State.setBusy_ptp (l : Nat) (b : Option Busy) : (s.setBusy l b).ptp = s.ptp := rfl
@[simp] theorem State.setBusy_shed (l : Nat) (b : Option Busy) : (s.setBusy l b).shed = s.shed := rfl
@[simp] theorem State.setBusy_le (l : Nat) (b : Option Busy) : (s.setBusy l b).le = s.le := rfl
@[simp] theorem State.setBusy_lrn (l : Nat) (b : Option Busy) : (s.setBusy l b).lrn = s.lrn := rfl
@[simp] theorem State.setBusy_bank (l : Nat) (b : Option Busy) : (s.setBusy l b).bank = s.bank := rfl
@[simp] theorem State.setBusy_mdl (l : Nat) (b : Option Busy) : (s.setBusy l b).mdl = s.mdl := rfl
@[simp] theorem State.setBusy_pnl (l : Nat) (b : Option Busy) : (s.setBusy l b).pnl = s.pnl := rfl
@[simp] theorem State.setBusy_mod (l : Nat) (b : Option Busy) : (s.setBusy l b).mod = s.mod := rfl
@[simp] theorem State.setBusy_regUe (l : Nat) (b : Option Busy) : (s.setBusy l b).regUe = s.regUe := rfl
@[simp] theorem State.setBusy_out (l : Nat) (b : Option Busy) : (s.setBusy l b).out = s.out := rfl
@[simp] theorem State.setBusy_now (l : Nat) (b : Option Busy) : (s.setBusy l b).now = s.now := rfl
@[simp] theorem State.setBusy_dev (l : Nat) (b : Option Busy) : (s.setBusy l b).dev = s.dev := rfl
@[simp] theorem State.setBusy_free (l : Nat) (b : Option Busy) : (s.setBusy l b).free = s.free := rfl
@[simp] theorem State.setBusy_pending (l : Nat) (b : Option Busy) : (s.setBusy l b).pending = s.pending := rfl
@[simp] theorem State.get_setBusy (l : Nat) (b : Option Busy) (g : RegField) (j : Nat) : (s.setBusy l b).get g j = s.get g j := rfl

/-! ### setCopy -/

@[simp] theorem State.setCopy_flds (a l : Nat) (c : Option CacheLine) : (s.setCopy a l c).flds = s.flds := rfl
@[simp] theorem State.setCopy_holds (a l : Nat) (c : Option CacheLine) : (s.setCopy a l c).holds = s.holds := rfl
@[simp] theorem State.setCopy_mem (a l : Nat) (c : Option CacheLine) : (s.setCopy a l c).mem = s.mem := rfl
@[simp] theorem State.setCopy_poison (a l : Nat) (c : Option CacheLine) : (s.setCopy a l c).poison = s.poison := rfl
@[simp] theorem State.setCopy_bh (a l : Nat) (c : Option CacheLine) : (s.setCopy a l c).bh = s.bh := rfl
@[simp] theorem State.setCopy_boot (a l : Nat) (c : Option CacheLine) : (s.setCopy a l c).boot = s.boot := rfl
@[simp] theorem State.setCopy_locks (a l : Nat) (c : Option CacheLine) : (s.setCopy a l c).locks = s.locks := rfl
@[simp] theorem State.setCopy_xlu (a l : Nat) (c : Option CacheLine) : (s.setCopy a l c).xlu = s.xlu := rfl
@[simp] theorem State.setCopy_scl (a l : Nat) (c : Option CacheLine) : (s.setCopy a l c).scl = s.scl := rfl
@[simp] theorem State.setCopy_tasks (a l : Nat) (c : Option CacheLine) : (s.setCopy a l c).tasks = s.tasks := rfl
@[simp] theorem State.setCopy_ready (a l : Nat) (c : Option CacheLine) : (s.setCopy a l c).ready = s.ready := rfl
@[simp] theorem State.setCopy_heldReady (a l : Nat) (c : Option CacheLine) : (s.setCopy a l c).heldReady = s.heldReady := rfl
@[simp] theorem State.setCopy_sld (a l : Nat) (c : Option CacheLine) : (s.setCopy a l c).sld = s.sld := rfl
@[simp] theorem State.setCopy_err (a l : Nat) (c : Option CacheLine) : (s.setCopy a l c).err = s.err := rfl
@[simp] theorem State.setCopy_rpt (a l : Nat) (c : Option CacheLine) : (s.setCopy a l c).rpt = s.rpt := rfl
@[simp] theorem State.setCopy_host (a l : Nat) (c : Option CacheLine) : (s.setCopy a l c).host = s.host := rfl
@[simp] theorem State.setCopy_jl (a l : Nat) (c : Option CacheLine) : (s.setCopy a l c).jl = s.jl := rfl
@[simp] theorem State.setCopy_dbg (a l : Nat) (c : Option CacheLine) : (s.setCopy a l c).dbg = s.dbg := rfl
@[simp] theorem State.setCopy_reuse (a l : Nat) (c : Option CacheLine) : (s.setCopy a l c).reuse = s.reuse := rfl
@[simp] theorem State.setCopy_pwr (a l : Nat) (c : Option CacheLine) : (s.setCopy a l c).pwr = s.pwr := rfl
@[simp] theorem State.setCopy_lanes (a l : Nat) (c : Option CacheLine) : (s.setCopy a l c).lanes = s.lanes := rfl
@[simp] theorem State.setCopy_ptp (a l : Nat) (c : Option CacheLine) : (s.setCopy a l c).ptp = s.ptp := rfl
@[simp] theorem State.setCopy_shed (a l : Nat) (c : Option CacheLine) : (s.setCopy a l c).shed = s.shed := rfl
@[simp] theorem State.setCopy_le (a l : Nat) (c : Option CacheLine) : (s.setCopy a l c).le = s.le := rfl
@[simp] theorem State.setCopy_lrn (a l : Nat) (c : Option CacheLine) : (s.setCopy a l c).lrn = s.lrn := rfl
@[simp] theorem State.setCopy_bank (a l : Nat) (c : Option CacheLine) : (s.setCopy a l c).bank = s.bank := rfl
@[simp] theorem State.setCopy_mdl (a l : Nat) (c : Option CacheLine) : (s.setCopy a l c).mdl = s.mdl := rfl
@[simp] theorem State.setCopy_pnl (a l : Nat) (c : Option CacheLine) : (s.setCopy a l c).pnl = s.pnl := rfl
@[simp] theorem State.setCopy_mod (a l : Nat) (c : Option CacheLine) : (s.setCopy a l c).mod = s.mod := rfl
@[simp] theorem State.setCopy_regUe (a l : Nat) (c : Option CacheLine) : (s.setCopy a l c).regUe = s.regUe := rfl
@[simp] theorem State.setCopy_out (a l : Nat) (c : Option CacheLine) : (s.setCopy a l c).out = s.out := rfl
@[simp] theorem State.setCopy_now (a l : Nat) (c : Option CacheLine) : (s.setCopy a l c).now = s.now := rfl
@[simp] theorem State.setCopy_dev (a l : Nat) (c : Option CacheLine) : (s.setCopy a l c).dev = s.dev := rfl
@[simp] theorem State.setCopy_free (a l : Nat) (c : Option CacheLine) : (s.setCopy a l c).free = s.free := rfl
@[simp] theorem State.setCopy_pending (a l : Nat) (c : Option CacheLine) : (s.setCopy a l c).pending = s.pending := rfl
@[simp] theorem State.get_setCopy (a l : Nat) (c : Option CacheLine) (g : RegField) (j : Nat) : (s.setCopy a l c).get g j = s.get g j := rfl

/-! ### setLock -/

@[simp] theorem State.setLock_flds (i : Nat) (l : Lock) : (s.setLock i l).flds = s.flds := rfl
@[simp] theorem State.setLock_holds (i : Nat) (l : Lock) : (s.setLock i l).holds = s.holds := rfl
@[simp] theorem State.setLock_mem (i : Nat) (l : Lock) : (s.setLock i l).mem = s.mem := rfl
@[simp] theorem State.setLock_poison (i : Nat) (l : Lock) : (s.setLock i l).poison = s.poison := rfl
@[simp] theorem State.setLock_bh (i : Nat) (l : Lock) : (s.setLock i l).bh = s.bh := rfl
@[simp] theorem State.setLock_boot (i : Nat) (l : Lock) : (s.setLock i l).boot = s.boot := rfl
@[simp] theorem State.setLock_coh (i : Nat) (l : Lock) : (s.setLock i l).coh = s.coh := rfl
@[simp] theorem State.setLock_locks (i : Nat) (l : Lock) : (s.setLock i l).locks = Tbl.set {} s.locks i l := rfl
@[simp] theorem State.setLock_xlu (i : Nat) (l : Lock) : (s.setLock i l).xlu = s.xlu := rfl
@[simp] theorem State.setLock_scl (i : Nat) (l : Lock) : (s.setLock i l).scl = s.scl := rfl
@[simp] theorem State.setLock_tasks (i : Nat) (l : Lock) : (s.setLock i l).tasks = s.tasks := rfl
@[simp] theorem State.setLock_ready (i : Nat) (l : Lock) : (s.setLock i l).ready = s.ready := rfl
@[simp] theorem State.setLock_heldReady (i : Nat) (l : Lock) : (s.setLock i l).heldReady = s.heldReady := rfl
@[simp] theorem State.setLock_sld (i : Nat) (l : Lock) : (s.setLock i l).sld = s.sld := rfl
@[simp] theorem State.setLock_err (i : Nat) (l : Lock) : (s.setLock i l).err = s.err := rfl
@[simp] theorem State.setLock_rpt (i : Nat) (l : Lock) : (s.setLock i l).rpt = s.rpt := rfl
@[simp] theorem State.setLock_host (i : Nat) (l : Lock) : (s.setLock i l).host = s.host := rfl
@[simp] theorem State.setLock_jl (i : Nat) (l : Lock) : (s.setLock i l).jl = s.jl := rfl
@[simp] theorem State.setLock_dbg (i : Nat) (l : Lock) : (s.setLock i l).dbg = s.dbg := rfl
@[simp] theorem State.setLock_reuse (i : Nat) (l : Lock) : (s.setLock i l).reuse = s.reuse := rfl
@[simp] theorem State.setLock_pwr (i : Nat) (l : Lock) : (s.setLock i l).pwr = s.pwr := rfl
@[simp] theorem State.setLock_lanes (i : Nat) (l : Lock) : (s.setLock i l).lanes = s.lanes := rfl
@[simp] theorem State.setLock_ptp (i : Nat) (l : Lock) : (s.setLock i l).ptp = s.ptp := rfl
@[simp] theorem State.setLock_shed (i : Nat) (l : Lock) : (s.setLock i l).shed = s.shed := rfl
@[simp] theorem State.setLock_le (i : Nat) (l : Lock) : (s.setLock i l).le = s.le := rfl
@[simp] theorem State.setLock_lrn (i : Nat) (l : Lock) : (s.setLock i l).lrn = s.lrn := rfl
@[simp] theorem State.setLock_bank (i : Nat) (l : Lock) : (s.setLock i l).bank = s.bank := rfl
@[simp] theorem State.setLock_mdl (i : Nat) (l : Lock) : (s.setLock i l).mdl = s.mdl := rfl
@[simp] theorem State.setLock_pnl (i : Nat) (l : Lock) : (s.setLock i l).pnl = s.pnl := rfl
@[simp] theorem State.setLock_mod (i : Nat) (l : Lock) : (s.setLock i l).mod = s.mod := rfl
@[simp] theorem State.setLock_regUe (i : Nat) (l : Lock) : (s.setLock i l).regUe = s.regUe := rfl
@[simp] theorem State.setLock_out (i : Nat) (l : Lock) : (s.setLock i l).out = s.out := rfl
@[simp] theorem State.setLock_now (i : Nat) (l : Lock) : (s.setLock i l).now = s.now := rfl
@[simp] theorem State.setLock_dev (i : Nat) (l : Lock) : (s.setLock i l).dev = s.dev := rfl
@[simp] theorem State.setLock_free (i : Nat) (l : Lock) : (s.setLock i l).free = s.free := rfl
@[simp] theorem State.setLock_pending (i : Nat) (l : Lock) : (s.setLock i l).pending = s.pending := rfl
@[simp] theorem State.get_setLock (i : Nat) (l : Lock) (g : RegField) (j : Nat) : (s.setLock i l).get g j = s.get g j := rfl

/-! ### setScull -/

@[simp] theorem State.setScull_flds (n : Nat) (x : Scull) : (s.setScull n x).flds = s.flds := rfl
@[simp] theorem State.setScull_holds (n : Nat) (x : Scull) : (s.setScull n x).holds = s.holds := rfl
@[simp] theorem State.setScull_mem (n : Nat) (x : Scull) : (s.setScull n x).mem = s.mem := rfl
@[simp] theorem State.setScull_poison (n : Nat) (x : Scull) : (s.setScull n x).poison = s.poison := rfl
@[simp] theorem State.setScull_bh (n : Nat) (x : Scull) : (s.setScull n x).bh = s.bh := rfl
@[simp] theorem State.setScull_boot (n : Nat) (x : Scull) : (s.setScull n x).boot = s.boot := rfl
@[simp] theorem State.setScull_coh (n : Nat) (x : Scull) : (s.setScull n x).coh = s.coh := rfl
@[simp] theorem State.setScull_locks (n : Nat) (x : Scull) : (s.setScull n x).locks = s.locks := rfl
@[simp] theorem State.setScull_xlu (n : Nat) (x : Scull) : (s.setScull n x).xlu = s.xlu := rfl
@[simp] theorem State.setScull_scl (n : Nat) (x : Scull) : (s.setScull n x).scl = Tbl.set {} s.scl n x := rfl
@[simp] theorem State.setScull_tasks (n : Nat) (x : Scull) : (s.setScull n x).tasks = s.tasks := rfl
@[simp] theorem State.setScull_ready (n : Nat) (x : Scull) : (s.setScull n x).ready = s.ready := rfl
@[simp] theorem State.setScull_heldReady (n : Nat) (x : Scull) : (s.setScull n x).heldReady = s.heldReady := rfl
@[simp] theorem State.setScull_sld (n : Nat) (x : Scull) : (s.setScull n x).sld = s.sld := rfl
@[simp] theorem State.setScull_err (n : Nat) (x : Scull) : (s.setScull n x).err = s.err := rfl
@[simp] theorem State.setScull_rpt (n : Nat) (x : Scull) : (s.setScull n x).rpt = s.rpt := rfl
@[simp] theorem State.setScull_host (n : Nat) (x : Scull) : (s.setScull n x).host = s.host := rfl
@[simp] theorem State.setScull_jl (n : Nat) (x : Scull) : (s.setScull n x).jl = s.jl := rfl
@[simp] theorem State.setScull_dbg (n : Nat) (x : Scull) : (s.setScull n x).dbg = s.dbg := rfl
@[simp] theorem State.setScull_reuse (n : Nat) (x : Scull) : (s.setScull n x).reuse = s.reuse := rfl
@[simp] theorem State.setScull_pwr (n : Nat) (x : Scull) : (s.setScull n x).pwr = s.pwr := rfl
@[simp] theorem State.setScull_lanes (n : Nat) (x : Scull) : (s.setScull n x).lanes = s.lanes := rfl
@[simp] theorem State.setScull_ptp (n : Nat) (x : Scull) : (s.setScull n x).ptp = s.ptp := rfl
@[simp] theorem State.setScull_shed (n : Nat) (x : Scull) : (s.setScull n x).shed = s.shed := rfl
@[simp] theorem State.setScull_le (n : Nat) (x : Scull) : (s.setScull n x).le = s.le := rfl
@[simp] theorem State.setScull_lrn (n : Nat) (x : Scull) : (s.setScull n x).lrn = s.lrn := rfl
@[simp] theorem State.setScull_bank (n : Nat) (x : Scull) : (s.setScull n x).bank = s.bank := rfl
@[simp] theorem State.setScull_mdl (n : Nat) (x : Scull) : (s.setScull n x).mdl = s.mdl := rfl
@[simp] theorem State.setScull_pnl (n : Nat) (x : Scull) : (s.setScull n x).pnl = s.pnl := rfl
@[simp] theorem State.setScull_mod (n : Nat) (x : Scull) : (s.setScull n x).mod = s.mod := rfl
@[simp] theorem State.setScull_regUe (n : Nat) (x : Scull) : (s.setScull n x).regUe = s.regUe := rfl
@[simp] theorem State.setScull_out (n : Nat) (x : Scull) : (s.setScull n x).out = s.out := rfl
@[simp] theorem State.setScull_now (n : Nat) (x : Scull) : (s.setScull n x).now = s.now := rfl
@[simp] theorem State.setScull_dev (n : Nat) (x : Scull) : (s.setScull n x).dev = s.dev := rfl
@[simp] theorem State.setScull_free (n : Nat) (x : Scull) : (s.setScull n x).free = s.free := rfl
@[simp] theorem State.setScull_pending (n : Nat) (x : Scull) : (s.setScull n x).pending = s.pending := rfl
@[simp] theorem State.get_setScull (n : Nat) (x : Scull) (g : RegField) (j : Nat) : (s.setScull n x).get g j = s.get g j := rfl

/-! ### setTask -/

@[simp] theorem State.setTask_flds (k : Nat) (t : Task) : (s.setTask k t).flds = s.flds := rfl
@[simp] theorem State.setTask_holds (k : Nat) (t : Task) : (s.setTask k t).holds = s.holds := rfl
@[simp] theorem State.setTask_mem (k : Nat) (t : Task) : (s.setTask k t).mem = s.mem := rfl
@[simp] theorem State.setTask_poison (k : Nat) (t : Task) : (s.setTask k t).poison = s.poison := rfl
@[simp] theorem State.setTask_bh (k : Nat) (t : Task) : (s.setTask k t).bh = s.bh := rfl
@[simp] theorem State.setTask_boot (k : Nat) (t : Task) : (s.setTask k t).boot = s.boot := rfl
@[simp] theorem State.setTask_coh (k : Nat) (t : Task) : (s.setTask k t).coh = s.coh := rfl
@[simp] theorem State.setTask_locks (k : Nat) (t : Task) : (s.setTask k t).locks = s.locks := rfl
@[simp] theorem State.setTask_xlu (k : Nat) (t : Task) : (s.setTask k t).xlu = s.xlu := rfl
@[simp] theorem State.setTask_scl (k : Nat) (t : Task) : (s.setTask k t).scl = s.scl := rfl
@[simp] theorem State.setTask_tasks (k : Nat) (t : Task) : (s.setTask k t).tasks = Tbl.set none s.tasks k (some t) := rfl
@[simp] theorem State.setTask_ready (k : Nat) (t : Task) : (s.setTask k t).ready = s.ready := rfl
@[simp] theorem State.setTask_heldReady (k : Nat) (t : Task) : (s.setTask k t).heldReady = s.heldReady := rfl
@[simp] theorem State.setTask_sld (k : Nat) (t : Task) : (s.setTask k t).sld = s.sld := rfl
@[simp] theorem State.setTask_err (k : Nat) (t : Task) : (s.setTask k t).err = s.err := rfl
@[simp] theorem State.setTask_rpt (k : Nat) (t : Task) : (s.setTask k t).rpt = s.rpt := rfl
@[simp] theorem State.setTask_host (k : Nat) (t : Task) : (s.setTask k t).host = s.host := rfl
@[simp] theorem State.setTask_jl (k : Nat) (t : Task) : (s.setTask k t).jl = s.jl := rfl
@[simp] theorem State.setTask_dbg (k : Nat) (t : Task) : (s.setTask k t).dbg = s.dbg := rfl
@[simp] theorem State.setTask_reuse (k : Nat) (t : Task) : (s.setTask k t).reuse = s.reuse := rfl
@[simp] theorem State.setTask_pwr (k : Nat) (t : Task) : (s.setTask k t).pwr = s.pwr := rfl
@[simp] theorem State.setTask_lanes (k : Nat) (t : Task) : (s.setTask k t).lanes = s.lanes := rfl
@[simp] theorem State.setTask_ptp (k : Nat) (t : Task) : (s.setTask k t).ptp = s.ptp := rfl
@[simp] theorem State.setTask_shed (k : Nat) (t : Task) : (s.setTask k t).shed = s.shed := rfl
@[simp] theorem State.setTask_le (k : Nat) (t : Task) : (s.setTask k t).le = s.le := rfl
@[simp] theorem State.setTask_lrn (k : Nat) (t : Task) : (s.setTask k t).lrn = s.lrn := rfl
@[simp] theorem State.setTask_bank (k : Nat) (t : Task) : (s.setTask k t).bank = s.bank := rfl
@[simp] theorem State.setTask_mdl (k : Nat) (t : Task) : (s.setTask k t).mdl = s.mdl := rfl
@[simp] theorem State.setTask_pnl (k : Nat) (t : Task) : (s.setTask k t).pnl = s.pnl := rfl
@[simp] theorem State.setTask_mod (k : Nat) (t : Task) : (s.setTask k t).mod = s.mod := rfl
@[simp] theorem State.setTask_regUe (k : Nat) (t : Task) : (s.setTask k t).regUe = s.regUe := rfl
@[simp] theorem State.setTask_out (k : Nat) (t : Task) : (s.setTask k t).out = s.out := rfl
@[simp] theorem State.setTask_now (k : Nat) (t : Task) : (s.setTask k t).now = s.now := rfl
@[simp] theorem State.setTask_dev (k : Nat) (t : Task) : (s.setTask k t).dev = s.dev := rfl
@[simp] theorem State.setTask_free (k : Nat) (t : Task) : (s.setTask k t).free = s.free := rfl
@[simp] theorem State.setTask_pending (k : Nat) (t : Task) : (s.setTask k t).pending = s.pending := rfl
@[simp] theorem State.get_setTask (k : Nat) (t : Task) (g : RegField) (j : Nat) : (s.setTask k t).get g j = s.get g j := rfl

/-! ### setLane -/

@[simp] theorem State.setLane_flds (l : Nat) (x : LaneSt) : (s.setLane l x).flds = s.flds := rfl
@[simp] theorem State.setLane_holds (l : Nat) (x : LaneSt) : (s.setLane l x).holds = s.holds := rfl
@[simp] theorem State.setLane_mem (l : Nat) (x : LaneSt) : (s.setLane l x).mem = s.mem := rfl
@[simp] theorem State.setLane_poison (l : Nat) (x : LaneSt) : (s.setLane l x).poison = s.poison := rfl
@[simp] theorem State.setLane_bh (l : Nat) (x : LaneSt) : (s.setLane l x).bh = s.bh := rfl
@[simp] theorem State.setLane_boot (l : Nat) (x : LaneSt) : (s.setLane l x).boot = s.boot := rfl
@[simp] theorem State.setLane_coh (l : Nat) (x : LaneSt) : (s.setLane l x).coh = s.coh := rfl
@[simp] theorem State.setLane_locks (l : Nat) (x : LaneSt) : (s.setLane l x).locks = s.locks := rfl
@[simp] theorem State.setLane_xlu (l : Nat) (x : LaneSt) : (s.setLane l x).xlu = s.xlu := rfl
@[simp] theorem State.setLane_scl (l : Nat) (x : LaneSt) : (s.setLane l x).scl = s.scl := rfl
@[simp] theorem State.setLane_tasks (l : Nat) (x : LaneSt) : (s.setLane l x).tasks = s.tasks := rfl
@[simp] theorem State.setLane_ready (l : Nat) (x : LaneSt) : (s.setLane l x).ready = s.ready := rfl
@[simp] theorem State.setLane_heldReady (l : Nat) (x : LaneSt) : (s.setLane l x).heldReady = s.heldReady := rfl
@[simp] theorem State.setLane_sld (l : Nat) (x : LaneSt) : (s.setLane l x).sld = s.sld := rfl
@[simp] theorem State.setLane_err (l : Nat) (x : LaneSt) : (s.setLane l x).err = s.err := rfl
@[simp] theorem State.setLane_rpt (l : Nat) (x : LaneSt) : (s.setLane l x).rpt = s.rpt := rfl
@[simp] theorem State.setLane_host (l : Nat) (x : LaneSt) : (s.setLane l x).host = s.host := rfl
@[simp] theorem State.setLane_jl (l : Nat) (x : LaneSt) : (s.setLane l x).jl = s.jl := rfl
@[simp] theorem State.setLane_dbg (l : Nat) (x : LaneSt) : (s.setLane l x).dbg = s.dbg := rfl
@[simp] theorem State.setLane_reuse (l : Nat) (x : LaneSt) : (s.setLane l x).reuse = s.reuse := rfl
@[simp] theorem State.setLane_pwr (l : Nat) (x : LaneSt) : (s.setLane l x).pwr = s.pwr := rfl
@[simp] theorem State.setLane_lanes (l : Nat) (x : LaneSt) : (s.setLane l x).lanes = Tbl.set {} s.lanes l x := rfl
@[simp] theorem State.setLane_ptp (l : Nat) (x : LaneSt) : (s.setLane l x).ptp = s.ptp := rfl
@[simp] theorem State.setLane_shed (l : Nat) (x : LaneSt) : (s.setLane l x).shed = s.shed := rfl
@[simp] theorem State.setLane_le (l : Nat) (x : LaneSt) : (s.setLane l x).le = s.le := rfl
@[simp] theorem State.setLane_lrn (l : Nat) (x : LaneSt) : (s.setLane l x).lrn = s.lrn := rfl
@[simp] theorem State.setLane_bank (l : Nat) (x : LaneSt) : (s.setLane l x).bank = s.bank := rfl
@[simp] theorem State.setLane_mdl (l : Nat) (x : LaneSt) : (s.setLane l x).mdl = s.mdl := rfl
@[simp] theorem State.setLane_pnl (l : Nat) (x : LaneSt) : (s.setLane l x).pnl = s.pnl := rfl
@[simp] theorem State.setLane_mod (l : Nat) (x : LaneSt) : (s.setLane l x).mod = s.mod := rfl
@[simp] theorem State.setLane_regUe (l : Nat) (x : LaneSt) : (s.setLane l x).regUe = s.regUe := rfl
@[simp] theorem State.setLane_out (l : Nat) (x : LaneSt) : (s.setLane l x).out = s.out := rfl
@[simp] theorem State.setLane_now (l : Nat) (x : LaneSt) : (s.setLane l x).now = s.now := rfl
@[simp] theorem State.setLane_dev (l : Nat) (x : LaneSt) : (s.setLane l x).dev = s.dev := rfl
@[simp] theorem State.setLane_free (l : Nat) (x : LaneSt) : (s.setLane l x).free = s.free := rfl
@[simp] theorem State.setLane_pending (l : Nat) (x : LaneSt) : (s.setLane l x).pending = s.pending := rfl
@[simp] theorem State.get_setLane (l : Nat) (x : LaneSt) (g : RegField) (j : Nat) : (s.setLane l x).get g j = s.get g j := rfl

/-! ### setLe -/

@[simp] theorem State.setLe_flds (h : Nat) (x : LeSt) : (s.setLe h x).flds = s.flds := rfl
@[simp] theorem State.setLe_holds (h : Nat) (x : LeSt) : (s.setLe h x).holds = s.holds := rfl
@[simp] theorem State.setLe_mem (h : Nat) (x : LeSt) : (s.setLe h x).mem = s.mem := rfl
@[simp] theorem State.setLe_poison (h : Nat) (x : LeSt) : (s.setLe h x).poison = s.poison := rfl
@[simp] theorem State.setLe_bh (h : Nat) (x : LeSt) : (s.setLe h x).bh = s.bh := rfl
@[simp] theorem State.setLe_boot (h : Nat) (x : LeSt) : (s.setLe h x).boot = s.boot := rfl
@[simp] theorem State.setLe_coh (h : Nat) (x : LeSt) : (s.setLe h x).coh = s.coh := rfl
@[simp] theorem State.setLe_locks (h : Nat) (x : LeSt) : (s.setLe h x).locks = s.locks := rfl
@[simp] theorem State.setLe_xlu (h : Nat) (x : LeSt) : (s.setLe h x).xlu = s.xlu := rfl
@[simp] theorem State.setLe_scl (h : Nat) (x : LeSt) : (s.setLe h x).scl = s.scl := rfl
@[simp] theorem State.setLe_tasks (h : Nat) (x : LeSt) : (s.setLe h x).tasks = s.tasks := rfl
@[simp] theorem State.setLe_ready (h : Nat) (x : LeSt) : (s.setLe h x).ready = s.ready := rfl
@[simp] theorem State.setLe_heldReady (h : Nat) (x : LeSt) : (s.setLe h x).heldReady = s.heldReady := rfl
@[simp] theorem State.setLe_sld (h : Nat) (x : LeSt) : (s.setLe h x).sld = s.sld := rfl
@[simp] theorem State.setLe_err (h : Nat) (x : LeSt) : (s.setLe h x).err = s.err := rfl
@[simp] theorem State.setLe_rpt (h : Nat) (x : LeSt) : (s.setLe h x).rpt = s.rpt := rfl
@[simp] theorem State.setLe_host (h : Nat) (x : LeSt) : (s.setLe h x).host = s.host := rfl
@[simp] theorem State.setLe_jl (h : Nat) (x : LeSt) : (s.setLe h x).jl = s.jl := rfl
@[simp] theorem State.setLe_dbg (h : Nat) (x : LeSt) : (s.setLe h x).dbg = s.dbg := rfl
@[simp] theorem State.setLe_reuse (h : Nat) (x : LeSt) : (s.setLe h x).reuse = s.reuse := rfl
@[simp] theorem State.setLe_pwr (h : Nat) (x : LeSt) : (s.setLe h x).pwr = s.pwr := rfl
@[simp] theorem State.setLe_lanes (h : Nat) (x : LeSt) : (s.setLe h x).lanes = s.lanes := rfl
@[simp] theorem State.setLe_ptp (h : Nat) (x : LeSt) : (s.setLe h x).ptp = s.ptp := rfl
@[simp] theorem State.setLe_shed (h : Nat) (x : LeSt) : (s.setLe h x).shed = s.shed := rfl
@[simp] theorem State.setLe_le (h : Nat) (x : LeSt) : (s.setLe h x).le = Tbl.set {} s.le h x := rfl
@[simp] theorem State.setLe_lrn (h : Nat) (x : LeSt) : (s.setLe h x).lrn = s.lrn := rfl
@[simp] theorem State.setLe_bank (h : Nat) (x : LeSt) : (s.setLe h x).bank = s.bank := rfl
@[simp] theorem State.setLe_mdl (h : Nat) (x : LeSt) : (s.setLe h x).mdl = s.mdl := rfl
@[simp] theorem State.setLe_pnl (h : Nat) (x : LeSt) : (s.setLe h x).pnl = s.pnl := rfl
@[simp] theorem State.setLe_mod (h : Nat) (x : LeSt) : (s.setLe h x).mod = s.mod := rfl
@[simp] theorem State.setLe_regUe (h : Nat) (x : LeSt) : (s.setLe h x).regUe = s.regUe := rfl
@[simp] theorem State.setLe_out (h : Nat) (x : LeSt) : (s.setLe h x).out = s.out := rfl
@[simp] theorem State.setLe_now (h : Nat) (x : LeSt) : (s.setLe h x).now = s.now := rfl
@[simp] theorem State.setLe_dev (h : Nat) (x : LeSt) : (s.setLe h x).dev = s.dev := rfl
@[simp] theorem State.setLe_free (h : Nat) (x : LeSt) : (s.setLe h x).free = s.free := rfl
@[simp] theorem State.setLe_pending (h : Nat) (x : LeSt) : (s.setLe h x).pending = s.pending := rfl
@[simp] theorem State.get_setLe (h : Nat) (x : LeSt) (g : RegField) (j : Nat) : (s.setLe h x).get g j = s.get g j := rfl

/-! ### setLrn -/

@[simp] theorem State.setLrn_flds (l : Nat) (x : LrnLane) : (s.setLrn l x).flds = s.flds := rfl
@[simp] theorem State.setLrn_holds (l : Nat) (x : LrnLane) : (s.setLrn l x).holds = s.holds := rfl
@[simp] theorem State.setLrn_mem (l : Nat) (x : LrnLane) : (s.setLrn l x).mem = s.mem := rfl
@[simp] theorem State.setLrn_poison (l : Nat) (x : LrnLane) : (s.setLrn l x).poison = s.poison := rfl
@[simp] theorem State.setLrn_bh (l : Nat) (x : LrnLane) : (s.setLrn l x).bh = s.bh := rfl
@[simp] theorem State.setLrn_boot (l : Nat) (x : LrnLane) : (s.setLrn l x).boot = s.boot := rfl
@[simp] theorem State.setLrn_coh (l : Nat) (x : LrnLane) : (s.setLrn l x).coh = s.coh := rfl
@[simp] theorem State.setLrn_locks (l : Nat) (x : LrnLane) : (s.setLrn l x).locks = s.locks := rfl
@[simp] theorem State.setLrn_xlu (l : Nat) (x : LrnLane) : (s.setLrn l x).xlu = s.xlu := rfl
@[simp] theorem State.setLrn_scl (l : Nat) (x : LrnLane) : (s.setLrn l x).scl = s.scl := rfl
@[simp] theorem State.setLrn_tasks (l : Nat) (x : LrnLane) : (s.setLrn l x).tasks = s.tasks := rfl
@[simp] theorem State.setLrn_ready (l : Nat) (x : LrnLane) : (s.setLrn l x).ready = s.ready := rfl
@[simp] theorem State.setLrn_heldReady (l : Nat) (x : LrnLane) : (s.setLrn l x).heldReady = s.heldReady := rfl
@[simp] theorem State.setLrn_sld (l : Nat) (x : LrnLane) : (s.setLrn l x).sld = s.sld := rfl
@[simp] theorem State.setLrn_err (l : Nat) (x : LrnLane) : (s.setLrn l x).err = s.err := rfl
@[simp] theorem State.setLrn_rpt (l : Nat) (x : LrnLane) : (s.setLrn l x).rpt = s.rpt := rfl
@[simp] theorem State.setLrn_host (l : Nat) (x : LrnLane) : (s.setLrn l x).host = s.host := rfl
@[simp] theorem State.setLrn_jl (l : Nat) (x : LrnLane) : (s.setLrn l x).jl = s.jl := rfl
@[simp] theorem State.setLrn_dbg (l : Nat) (x : LrnLane) : (s.setLrn l x).dbg = s.dbg := rfl
@[simp] theorem State.setLrn_reuse (l : Nat) (x : LrnLane) : (s.setLrn l x).reuse = s.reuse := rfl
@[simp] theorem State.setLrn_pwr (l : Nat) (x : LrnLane) : (s.setLrn l x).pwr = s.pwr := rfl
@[simp] theorem State.setLrn_lanes (l : Nat) (x : LrnLane) : (s.setLrn l x).lanes = s.lanes := rfl
@[simp] theorem State.setLrn_ptp (l : Nat) (x : LrnLane) : (s.setLrn l x).ptp = s.ptp := rfl
@[simp] theorem State.setLrn_shed (l : Nat) (x : LrnLane) : (s.setLrn l x).shed = s.shed := rfl
@[simp] theorem State.setLrn_le (l : Nat) (x : LrnLane) : (s.setLrn l x).le = s.le := rfl
@[simp] theorem State.setLrn_lrn (l : Nat) (x : LrnLane) : (s.setLrn l x).lrn = Tbl.set {} s.lrn l x := rfl
@[simp] theorem State.setLrn_bank (l : Nat) (x : LrnLane) : (s.setLrn l x).bank = s.bank := rfl
@[simp] theorem State.setLrn_mdl (l : Nat) (x : LrnLane) : (s.setLrn l x).mdl = s.mdl := rfl
@[simp] theorem State.setLrn_pnl (l : Nat) (x : LrnLane) : (s.setLrn l x).pnl = s.pnl := rfl
@[simp] theorem State.setLrn_mod (l : Nat) (x : LrnLane) : (s.setLrn l x).mod = s.mod := rfl
@[simp] theorem State.setLrn_regUe (l : Nat) (x : LrnLane) : (s.setLrn l x).regUe = s.regUe := rfl
@[simp] theorem State.setLrn_out (l : Nat) (x : LrnLane) : (s.setLrn l x).out = s.out := rfl
@[simp] theorem State.setLrn_now (l : Nat) (x : LrnLane) : (s.setLrn l x).now = s.now := rfl
@[simp] theorem State.setLrn_dev (l : Nat) (x : LrnLane) : (s.setLrn l x).dev = s.dev := rfl
@[simp] theorem State.setLrn_free (l : Nat) (x : LrnLane) : (s.setLrn l x).free = s.free := rfl
@[simp] theorem State.setLrn_pending (l : Nat) (x : LrnLane) : (s.setLrn l x).pending = s.pending := rfl
@[simp] theorem State.get_setLrn (l : Nat) (x : LrnLane) (g : RegField) (j : Nat) : (s.setLrn l x).get g j = s.get g j := rfl

/-! ### setPort -/

@[simp] theorem State.setPort_flds (d : Nat) (p : JlPort) : (s.setPort d p).flds = s.flds := rfl
@[simp] theorem State.setPort_holds (d : Nat) (p : JlPort) : (s.setPort d p).holds = s.holds := rfl
@[simp] theorem State.setPort_mem (d : Nat) (p : JlPort) : (s.setPort d p).mem = s.mem := rfl
@[simp] theorem State.setPort_poison (d : Nat) (p : JlPort) : (s.setPort d p).poison = s.poison := rfl
@[simp] theorem State.setPort_bh (d : Nat) (p : JlPort) : (s.setPort d p).bh = s.bh := rfl
@[simp] theorem State.setPort_boot (d : Nat) (p : JlPort) : (s.setPort d p).boot = s.boot := rfl
@[simp] theorem State.setPort_coh (d : Nat) (p : JlPort) : (s.setPort d p).coh = s.coh := rfl
@[simp] theorem State.setPort_locks (d : Nat) (p : JlPort) : (s.setPort d p).locks = s.locks := rfl
@[simp] theorem State.setPort_xlu (d : Nat) (p : JlPort) : (s.setPort d p).xlu = s.xlu := rfl
@[simp] theorem State.setPort_scl (d : Nat) (p : JlPort) : (s.setPort d p).scl = s.scl := rfl
@[simp] theorem State.setPort_tasks (d : Nat) (p : JlPort) : (s.setPort d p).tasks = s.tasks := rfl
@[simp] theorem State.setPort_ready (d : Nat) (p : JlPort) : (s.setPort d p).ready = s.ready := rfl
@[simp] theorem State.setPort_heldReady (d : Nat) (p : JlPort) : (s.setPort d p).heldReady = s.heldReady := rfl
@[simp] theorem State.setPort_sld (d : Nat) (p : JlPort) : (s.setPort d p).sld = s.sld := rfl
@[simp] theorem State.setPort_err (d : Nat) (p : JlPort) : (s.setPort d p).err = s.err := rfl
@[simp] theorem State.setPort_rpt (d : Nat) (p : JlPort) : (s.setPort d p).rpt = s.rpt := rfl
@[simp] theorem State.setPort_host (d : Nat) (p : JlPort) : (s.setPort d p).host = s.host := rfl
@[simp] theorem State.setPort_dbg (d : Nat) (p : JlPort) : (s.setPort d p).dbg = s.dbg := rfl
@[simp] theorem State.setPort_reuse (d : Nat) (p : JlPort) : (s.setPort d p).reuse = s.reuse := rfl
@[simp] theorem State.setPort_pwr (d : Nat) (p : JlPort) : (s.setPort d p).pwr = s.pwr := rfl
@[simp] theorem State.setPort_lanes (d : Nat) (p : JlPort) : (s.setPort d p).lanes = s.lanes := rfl
@[simp] theorem State.setPort_ptp (d : Nat) (p : JlPort) : (s.setPort d p).ptp = s.ptp := rfl
@[simp] theorem State.setPort_shed (d : Nat) (p : JlPort) : (s.setPort d p).shed = s.shed := rfl
@[simp] theorem State.setPort_le (d : Nat) (p : JlPort) : (s.setPort d p).le = s.le := rfl
@[simp] theorem State.setPort_lrn (d : Nat) (p : JlPort) : (s.setPort d p).lrn = s.lrn := rfl
@[simp] theorem State.setPort_bank (d : Nat) (p : JlPort) : (s.setPort d p).bank = s.bank := rfl
@[simp] theorem State.setPort_mdl (d : Nat) (p : JlPort) : (s.setPort d p).mdl = s.mdl := rfl
@[simp] theorem State.setPort_pnl (d : Nat) (p : JlPort) : (s.setPort d p).pnl = s.pnl := rfl
@[simp] theorem State.setPort_mod (d : Nat) (p : JlPort) : (s.setPort d p).mod = s.mod := rfl
@[simp] theorem State.setPort_regUe (d : Nat) (p : JlPort) : (s.setPort d p).regUe = s.regUe := rfl
@[simp] theorem State.setPort_out (d : Nat) (p : JlPort) : (s.setPort d p).out = s.out := rfl
@[simp] theorem State.setPort_now (d : Nat) (p : JlPort) : (s.setPort d p).now = s.now := rfl
@[simp] theorem State.setPort_dev (d : Nat) (p : JlPort) : (s.setPort d p).dev = s.dev := rfl
@[simp] theorem State.setPort_free (d : Nat) (p : JlPort) : (s.setPort d p).free = s.free := rfl
@[simp] theorem State.setPort_pending (d : Nat) (p : JlPort) : (s.setPort d p).pending = s.pending := rfl
@[simp] theorem State.get_setPort (d : Nat) (p : JlPort) (g : RegField) (j : Nat) : (s.setPort d p).get g j = s.get g j := rfl

/-! ### setHold -/

@[simp] theorem State.setHold_flds (k : Nat) (h : Hold) : (s.setHold k h).flds = s.flds := rfl
@[simp] theorem State.setHold_holds (k : Nat) (h : Hold) : (s.setHold k h).holds = Tbl.set {} s.holds k h := rfl
@[simp] theorem State.setHold_mem (k : Nat) (h : Hold) : (s.setHold k h).mem = s.mem := rfl
@[simp] theorem State.setHold_poison (k : Nat) (h : Hold) : (s.setHold k h).poison = s.poison := rfl
@[simp] theorem State.setHold_bh (k : Nat) (h : Hold) : (s.setHold k h).bh = s.bh := rfl
@[simp] theorem State.setHold_boot (k : Nat) (h : Hold) : (s.setHold k h).boot = s.boot := rfl
@[simp] theorem State.setHold_coh (k : Nat) (h : Hold) : (s.setHold k h).coh = s.coh := rfl
@[simp] theorem State.setHold_locks (k : Nat) (h : Hold) : (s.setHold k h).locks = s.locks := rfl
@[simp] theorem State.setHold_xlu (k : Nat) (h : Hold) : (s.setHold k h).xlu = s.xlu := rfl
@[simp] theorem State.setHold_scl (k : Nat) (h : Hold) : (s.setHold k h).scl = s.scl := rfl
@[simp] theorem State.setHold_tasks (k : Nat) (h : Hold) : (s.setHold k h).tasks = s.tasks := rfl
@[simp] theorem State.setHold_ready (k : Nat) (h : Hold) : (s.setHold k h).ready = s.ready := rfl
@[simp] theorem State.setHold_heldReady (k : Nat) (h : Hold) : (s.setHold k h).heldReady = s.heldReady := rfl
@[simp] theorem State.setHold_sld (k : Nat) (h : Hold) : (s.setHold k h).sld = s.sld := rfl
@[simp] theorem State.setHold_err (k : Nat) (h : Hold) : (s.setHold k h).err = s.err := rfl
@[simp] theorem State.setHold_rpt (k : Nat) (h : Hold) : (s.setHold k h).rpt = s.rpt := rfl
@[simp] theorem State.setHold_host (k : Nat) (h : Hold) : (s.setHold k h).host = s.host := rfl
@[simp] theorem State.setHold_jl (k : Nat) (h : Hold) : (s.setHold k h).jl = s.jl := rfl
@[simp] theorem State.setHold_dbg (k : Nat) (h : Hold) : (s.setHold k h).dbg = s.dbg := rfl
@[simp] theorem State.setHold_reuse (k : Nat) (h : Hold) : (s.setHold k h).reuse = s.reuse := rfl
@[simp] theorem State.setHold_pwr (k : Nat) (h : Hold) : (s.setHold k h).pwr = s.pwr := rfl
@[simp] theorem State.setHold_lanes (k : Nat) (h : Hold) : (s.setHold k h).lanes = s.lanes := rfl
@[simp] theorem State.setHold_ptp (k : Nat) (h : Hold) : (s.setHold k h).ptp = s.ptp := rfl
@[simp] theorem State.setHold_shed (k : Nat) (h : Hold) : (s.setHold k h).shed = s.shed := rfl
@[simp] theorem State.setHold_le (k : Nat) (h : Hold) : (s.setHold k h).le = s.le := rfl
@[simp] theorem State.setHold_lrn (k : Nat) (h : Hold) : (s.setHold k h).lrn = s.lrn := rfl
@[simp] theorem State.setHold_bank (k : Nat) (h : Hold) : (s.setHold k h).bank = s.bank := rfl
@[simp] theorem State.setHold_mdl (k : Nat) (h : Hold) : (s.setHold k h).mdl = s.mdl := rfl
@[simp] theorem State.setHold_pnl (k : Nat) (h : Hold) : (s.setHold k h).pnl = s.pnl := rfl
@[simp] theorem State.setHold_mod (k : Nat) (h : Hold) : (s.setHold k h).mod = s.mod := rfl
@[simp] theorem State.setHold_regUe (k : Nat) (h : Hold) : (s.setHold k h).regUe = s.regUe := rfl
@[simp] theorem State.setHold_out (k : Nat) (h : Hold) : (s.setHold k h).out = s.out := rfl
@[simp] theorem State.setHold_now (k : Nat) (h : Hold) : (s.setHold k h).now = s.now := rfl
@[simp] theorem State.setHold_dev (k : Nat) (h : Hold) : (s.setHold k h).dev = s.dev := rfl
@[simp] theorem State.setHold_free (k : Nat) (h : Hold) : (s.setHold k h).free = s.free := rfl
@[simp] theorem State.setHold_pending (k : Nat) (h : Hold) : (s.setHold k h).pending = s.pending := rfl
@[simp] theorem State.get_setHold (k : Nat) (h : Hold) (g : RegField) (j : Nat) : (s.setHold k h).get g j = s.get g j := rfl

/-! ### Register fields -/


/-- A field reads what was put into it, cut to its width. -/
@[simp] theorem State.get_put_same (f : RegField) (i v : Nat) : (s.put f i v).get f i = v % 2 ^ f.width := by
  simp [State.get, State.put]

/-- Putting a value into one field leaves a field with another place alone. -/
theorem State.get_put_ne (f g : RegField) (i j v : Nat) (h : g.key j ≠ f.key i) : (s.put f i v).get g j = s.get g j := by
  simp only [State.get, State.put]
  unfold Tbl.set
  split
  · exact Tbl.get_erase_ne g.reset s.flds h
  · rw [Tbl.get_insert_ne g.reset _ _ h, Tbl.get_erase_ne g.reset s.flds h]

/-- A counter that rises by `n` stops at its maximum. -/
theorem State.get_bump_same (f : RegField) (i n : Nat) (_h : 0 < f.width) :
    (s.bump f i n).get f i = satAdd f.width (s.get f i) n := by
  simp only [State.bump, State.get_put_same, satAdd]
  have : 0 < 2 ^ f.width := Nat.two_pow_pos _
  exact Nat.mod_eq_of_lt (by omega)

theorem State.get_bump_ne (f g : RegField) (i j n : Nat) (h : g.key j ≠ f.key i) : (s.bump f i n).get g j = s.get g j :=
  s.get_put_ne f g i j _ h

/-! ### Tables of units -/

@[simp] theorem State.scull_setScull (n : Nat) (x : Scull) : (s.setScull n x).scull n = x := by simp [State.scull, State.setScull]

@[simp] theorem State.lane_setLane (l : Nat) (x : LaneSt) : (s.setLane l x).lane l = x := by simp [State.lane, State.setLane]

@[simp] theorem State.lock_setLock (i : Nat) (x : Lock) : (s.setLock i x).lock i = x := by simp [State.lock, State.setLock]

@[simp] theorem State.task_setTask (k : Nat) (t : Task) : (s.setTask k t).task k = some t := by simp [State.task, State.setTask]

@[simp] theorem State.leng_setLe (h : Nat) (x : LeSt) : (s.setLe h x).leng h = x := by simp [State.leng, State.setLe]

@[simp] theorem State.lrnLane_setLrn (l : Nat) (x : LrnLane) : (s.setLrn l x).lrnLane l = x := by simp [State.lrnLane, State.setLrn]

@[simp] theorem State.hold_setHold (k : Nat) (h : Hold) : (s.setHold k h).hold k = h := by simp [State.hold, State.setHold]

@[simp] theorem State.jlPort_setPort (d : Nat) (p : JlPort) : (s.setPort d p).jlPort d = p := by simp [State.jlPort, State.setPort]

/-! ### Memory -/

/-- A byte reads what was written to it. -/
@[simp] theorem State.rdByte_wrByte_same (a : Nat) (v : Byte) : (s.wrByte a v).rdByte a = v := by simp [State.rdByte]

/-- A write leaves every other byte alone. -/
theorem State.rdByte_wrByte_ne (a b : Nat) (v : Byte) (h : localOff b ≠ localOff a) : (s.wrByte a v).rdByte b = s.rdByte b := by
  simp only [State.rdByte, State.wrByte_mem]
  exact Tbl.get_set_ne 0 s.mem v h

end Sys2Proof.Machine
end

