-- ==== Sys2Proof/Laws/Registers.lean ====
section
/-!
SUPPORT. Register accesses: where the index finds a register, block by block, and what a write that reaches its register does.
-/
set_option Elab.async false

namespace Sys2Proof.Machine

/-! ### The index, block by block -/

/-- Where a register's place ends. -/
def RegRow.span (r : RegRow) : Nat := r.base + r.stride * (r.count - 1) + 4 * r.words

/-- Whether every register of a list lies from `lo` to before `hi`. -/
def rowsIn (l : List RegRow) (lo hi : Nat) : Bool := l.all fun r => decide (lo ≤ r.base) && decide (r.span ≤ hi)

/-- What the registers of a list say of an offset. -/
def findIn (l : List RegRow) (off : Nat) : Option (RegRow × Nat × Nat) := l.findSome? fun r => (r.at_ off).map fun p => (r, p.1, p.2)

theorem RegRow.at_none (r : RegRow) (off : Nat) (h : off < r.base ∨ r.span ≤ off) : r.at_ off = none := by
  unfold RegRow.at_
  split
  · rfl
  · rename_i hlt
    unfold RegRow.span at h
    have h := h.resolve_left hlt
    by_cases hs : r.stride = 0
    · simp only [hs, if_true, Nat.zero_mul, Nat.add_zero] at h ⊢
      split
      · rename_i hc
        omega
      · rfl
    · simp only [hs, if_false]
      split
      · rename_i hc
        exfalso
        obtain ⟨h1, h2, h3⟩ := hc
        have hd := Nat.div_add_mod (off - r.base) r.stride
        have hm : r.stride * ((off - r.base) / r.stride) ≤ r.stride * (r.count - 1) := Nat.mul_le_mul_left _ (by omega)
        omega
      · rfl

theorem findIn_none (l : List RegRow) (lo hi off : Nat) (h : rowsIn l lo hi = true) (ho : off < lo ∨ hi ≤ off) : findIn l off = none := by
  unfold findIn
  rw [List.findSome?_eq_none_iff]
  intro r hr
  have := List.all_eq_true.1 h r hr
  simp only [Bool.and_eq_true, decide_eq_true_eq] at this
  rw [r.at_none off (by omega)]
  rfl

theorem findIn_append (a b : List RegRow) (off : Nat) : findIn (a ++ b) off = (findIn a off).or (findIn b off) := by
  simp [findIn, List.findSome?_append]

/-- The blocks, with the offsets between which they lie (Table 1.8). -/
def blockList : List ((Nat × Nat) × List RegRow) := [
  ((0x000000, 0x010000), regsGLB), ((0x010000, 0x020000), regsBOOT), ((0x030000, 0x040000), regsFAB), ((0x040000, 0x050000), regsMEM), ((0x050000, 0x060000), regsLOCK), ((0x060000, 0x070000), regsXLU), ((0x080000, 0x090000), regsSCL), ((0x0A0000, 0x0B0000), regsSLD),
  ((0x0C0000, 0x0D0000), regsCATCH), ((0x020000, 0x030000), regsPWR), ((0x100000, 0x120000), regsLANE), ((0x190000, 0x1A0000), regsNET), ((0x120000, 0x130000), regsLRN), ((0x140000, 0x150000), regsBH), ((0x150000, 0x160000), regsMDL), ((0x160000, 0x170000), regsRPT),
  ((0x170000, 0x180000), regsHOST), ((0x180000, 0x190000), regsJL), ((0x1A0000, 0x1B0000), regsPNL), ((0x1B0000, 0x1C0000), regsERR), ((0x1C0000, 0x1D0000), regsDBG), ((0x1D0000, 0x1E0000), regsSEC)]

theorem blocks_in : (blockList.all fun b => rowsIn b.2 b.1.1 b.1.2) = true := by decide +kernel

theorem blocks_apart : (blockList.Pairwise fun a b => a.1.2 ≤ b.1.1 ∨ b.1.2 ≤ a.1.1) := by decide +kernel

theorem findReg_blocks (off : Nat) : findReg off = blockList.foldr (fun b r => (findIn b.2 off).or r) none := by
  have e : findReg off = findIn regTable off := by unfold findReg findIn; rfl
  rw [e]
  unfold regTable
  repeat rw [findIn_append]
  unfold blockList
  simp only [List.foldr, Option.or_none, Option.or_assoc]

/-- An offset of a block is looked up among that block's registers. -/
theorem findReg_block (b : (Nat × Nat) × List RegRow) (off : Nat) (hb : b ∈ blockList) (hl : b.1.1 ≤ off) (hh : off < b.1.2) :
    findReg off = findIn b.2 off := by
  rw [findReg_blocks]
  have none_of : ∀ x ∈ blockList, (off < x.1.1 ∨ x.1.2 ≤ off) → findIn x.2 off = none := fun x hx ho =>
    findIn_none x.2 _ _ off (List.all_eq_true.1 blocks_in x hx) ho
  have key : ∀ bs : List ((Nat × Nat) × List RegRow), (∀ x ∈ bs, x ∈ blockList) → (bs.Pairwise fun a b => a.1.2 ≤ b.1.1 ∨ b.1.2 ≤ a.1.1) →
      b ∈ bs → bs.foldr (fun b r => (findIn b.2 off).or r) none = findIn b.2 off := by
    intro bs
    induction bs with
    | nil => intro _ _ h; cases h
    | cons x bs ih =>
      intro hs hp hm
      rw [List.foldr_cons]
      have hp' := List.pairwise_cons.1 hp
      rcases List.mem_cons.1 hm with h | h
      · subst h
        have rest : ∀ ys : List ((Nat × Nat) × List RegRow), (∀ y ∈ ys, findIn y.2 off = none) →
            ys.foldr (fun b r => (findIn b.2 off).or r) none = none := by
          intro ys
          induction ys with
          | nil => intro _; rfl
          | cons y ys ih2 =>
            intro h
            rw [List.foldr_cons, h y (by simp), ih2 fun z hz => h z (by simp [hz])]
            rfl
        rw [rest bs fun y hy => none_of y (hs y (by simp [hy])) (by have := hp'.1 y hy; omega), Option.or_none]
      · have := hp'.1 b h
        rw [none_of x (hs x (by simp)) (by omega), Option.none_or]
        exact ih (fun y hy => hs y (by simp [hy])) hp'.2 h
  exact key blockList (fun _ h => h) blocks_apart hb

/-! ### Writes that reach their register -/

/-- A write that reaches a 32-bit register commits its value and is answered with what the commit says. -/
theorem State.busWrite_reaches (s : State) (src : RegSrc) (off v : Nat) (r : RegRow) (i : Nat) (h : s.reaches src off)
    (hf : findReg off = some (r, i, 0)) (hw : r.words = 1) (ho : r.offset i = off) :
    s.busWrite src off 4 v = (((s.heal off).commitReg src (s.regWho src) r i (v % 2 ^ 32)).2.regAnswer
      ((s.heal off).commitReg src (s.regWho src) r i (v % 2 ^ 32)).1 0) := by
  simp only [State.reaches, hf, Bool.and_eq_true, decide_eq_true_eq, Bool.not_eq_true'] at h
  obtain ⟨⟨hg, hd⟩, hs⟩ := h
  simp [State.busWrite, State.viewWrite, hg, hd, hf, hs, State.regWrite, hw, State.heal, ho]

end Sys2Proof.Machine
end

