-- ==== Sys2Proof/Laws/Index.lean ====
section
/-!
SUPPORT. The registers whose writes have a command of their own: each is found at its offset, whatever its index.
-/
set_option Elab.async false

namespace Sys2Proof.Machine

theorem find_XLU_FQ_HEAD (i : Fin 8) : findReg (0x060108 + i.val * 0x80) = some (⟨"XLU_FQ_HEAD", 0x060108, 0x80, 8, 1, false, [Fld.XLU_FQ_HEAD_HEAD]⟩, i.val, 0) := by
  have hi := i.isLt
  rw [findReg_block ((0x060000, 0x070000), regsXLU) _ (by simp [blockList]) (by simp only; omega) (by simp only; omega)]
  revert i
  decide +kernel

theorem find_XLU_FQ_RESUME (i : Fin 8) : findReg (0x060118 + i.val * 0x80) = some (⟨"XLU_FQ_RESUME", 0x060118, 0x80, 8, 1, false, [Fld.XLU_FQ_RESUME_ACTION, Fld.XLU_FQ_RESUME_FAULT_ID]⟩, i.val, 0) := by
  have hi := i.isLt
  rw [findReg_block ((0x060000, 0x070000), regsXLU) _ (by simp [blockList]) (by simp only; omega) (by simp only; omega)]
  revert i
  decide +kernel

theorem find_XLU_CTX_STATE (i : Fin 256) : findReg (0x06100C + i.val * 0x10) = some (⟨"XLU_CTX_STATE", 0x06100C, 0x10, 256, 1, false, [Fld.XLU_CTX_STATE_RELEASE, Fld.XLU_CTX_STATE_FAULTS, Fld.XLU_CTX_STATE_STATE]⟩, i.val, 0) := by
  have hi := i.isLt
  rw [findReg_block ((0x060000, 0x070000), regsXLU) _ (by simp [blockList]) (by simp only; omega) (by simp only; omega)]
  revert i
  decide +kernel

theorem find_XLU_CTX_CFG (i : Fin 256) : findReg (0x061000 + i.val * 0x10) = some (⟨"XLU_CTX_CFG", 0x061000, 0x10, 256, 1, false, [Fld.XLU_CTX_CFG_PART, Fld.XLU_CTX_CFG_COUNT, Fld.XLU_CTX_CFG_FORMAT]⟩, i.val, 0) := by
  have hi := i.isLt
  rw [findReg_block ((0x060000, 0x070000), regsXLU) _ (by simp [blockList]) (by simp only; omega) (by simp only; omega)]
  revert i
  decide +kernel

theorem find_XLU_INV_CMD (i : Fin 8) : findReg (0x060130 + i.val * 0x80) = some (⟨"XLU_INV_CMD", 0x060130, 0x80, 8, 1, false, [Fld.XLU_INV_CMD_CONTEXT, Fld.XLU_INV_CMD_KIND]⟩, i.val, 0) := by
  have hi := i.isLt
  rw [findReg_block ((0x060000, 0x070000), regsXLU) _ (by simp [blockList]) (by simp only; omega) (by simp only; omega)]
  revert i
  decide +kernel

theorem find_SLD_CTRL (i : Fin 72) : findReg (0x0A0008 + i.val * 0x80) = some (⟨"SLD_CTRL", 0x0A0008, 0x80, 72, 1, false, [Fld.SLD_CTRL_CTX, Fld.SLD_CTRL_ABORT, Fld.SLD_CTRL_START]⟩, i.val, 0) := by
  have hi := i.isLt
  rw [findReg_block ((0x0A0000, 0x0B0000), regsSLD) _ (by simp [blockList]) (by simp only; omega) (by simp only; omega)]
  revert i
  decide +kernel

theorem find_CATCH_BAND (i : Fin 64) : findReg (0x0C1004 + i.val * 0x40) = some (⟨"CATCH_BAND", 0x0C1004, 0x40, 64, 1, false, [Fld.CATCH_BAND_T_MAX, Fld.CATCH_BAND_T_MIN]⟩, i.val, 0) := by
  have hi := i.isLt
  rw [findReg_block ((0x0C0000, 0x0D0000), regsCATCH) _ (by simp [blockList]) (by simp only; omega) (by simp only; omega)]
  revert i
  decide +kernel

theorem find_CATCH_REUSE_CFG (i : Fin 64) : findReg (0x0C1000 + i.val * 0x40) = some (⟨"CATCH_REUSE_CFG", 0x0C1000, 0x40, 64, 1, false, [Fld.CATCH_REUSE_CFG_AGE_MAX, Fld.CATCH_REUSE_CFG_MODE]⟩, i.val, 0) := by
  have hi := i.isLt
  rw [findReg_block ((0x0C0000, 0x0D0000), regsCATCH) _ (by simp [blockList]) (by simp only; omega) (by simp only; omega)]
  revert i
  decide +kernel

theorem find_CATCH_CTRL (i : Fin 16) : findReg (0x0C0100 + i.val * 0x20) = some (⟨"CATCH_CTRL", 0x0C0100, 0x20, 16, 1, true, [Fld.CATCH_CTRL_ESC_LOCK, Fld.CATCH_CTRL_AGGR_MAX]⟩, i.val, 0) := by
  have hi := i.isLt
  rw [findReg_block ((0x0C0000, 0x0D0000), regsCATCH) _ (by simp [blockList]) (by simp only; omega) (by simp only; omega)]
  revert i
  decide +kernel

theorem find_PWR_REQ : findReg 0x020010 = some (⟨"PWR_REQ", 0x020010, 0x0, 1, 1, true, [Fld.PWR_REQ_ACTION, Fld.PWR_REQ_DOMAIN]⟩, 0, 0) := by
  rw [findReg_block ((0x020000, 0x030000), regsPWR) _ (by simp [blockList]) (by decide) (by decide)]
  decide +kernel

theorem find_LANE_REPORT_MASK (i : Fin 64) : findReg (0x100008 + i.val * 0x400) = some (⟨"LANE_REPORT_MASK", 0x100008, 0x400, 64, 1, false, [Fld.LANE_REPORT_MASK_MASK]⟩, i.val, 0) := by
  have hi := i.isLt
  rw [findReg_block ((0x100000, 0x120000), regsLANE) _ (by simp [blockList]) (by simp only; omega) (by simp only; omega)]
  revert i
  decide +kernel

theorem find_LANE_LEVEL_NOV (i : Fin 64) : findReg (0x10000C + i.val * 0x400) = some (⟨"LANE_LEVEL_NOV", 0x10000C, 0x400, 64, 1, false, [Fld.LANE_LEVEL_NOV_LEVEL]⟩, i.val, 0) := by
  have hi := i.isLt
  rw [findReg_block ((0x100000, 0x120000), regsLANE) _ (by simp [blockList]) (by simp only; omega) (by simp only; omega)]
  revert i
  decide +kernel

theorem find_LANE_LEVEL_ALM (i : Fin 64) : findReg (0x100010 + i.val * 0x400) = some (⟨"LANE_LEVEL_ALM", 0x100010, 0x400, 64, 1, false, [Fld.LANE_LEVEL_ALM_LEVEL]⟩, i.val, 0) := by
  have hi := i.isLt
  rw [findReg_block ((0x100000, 0x120000), regsLANE) _ (by simp [blockList]) (by simp only; omega) (by simp only; omega)]
  revert i
  decide +kernel

theorem find_LANE_LEVEL_CLR (i : Fin 64) : findReg (0x100014 + i.val * 0x400) = some (⟨"LANE_LEVEL_CLR", 0x100014, 0x400, 64, 1, false, [Fld.LANE_LEVEL_CLR_LEVEL]⟩, i.val, 0) := by
  have hi := i.isLt
  rw [findReg_block ((0x100000, 0x120000), regsLANE) _ (by simp [blockList]) (by simp only; omega) (by simp only; omega)]
  revert i
  decide +kernel

theorem find_LANE_TIMING (i : Fin 64) : findReg (0x100018 + i.val * 0x400) = some (⟨"LANE_TIMING", 0x100018, 0x400, 64, 1, false, [Fld.LANE_TIMING_TEACH_S, Fld.LANE_TIMING_HOLD_MS]⟩, i.val, 0) := by
  have hi := i.isLt
  rw [findReg_block ((0x100000, 0x120000), regsLANE) _ (by simp [blockList]) (by simp only; omega) (by simp only; omega)]
  revert i
  decide +kernel

theorem find_LRN_MOD_CMD (i : Fin 64) : findReg (0x12040C + i.val * 0x20) = some (⟨"LRN_MOD_CMD", 0x12040C, 0x20, 64, 1, false, [Fld.LRN_MOD_CMD_CMD]⟩, i.val, 0) := by
  have hi := i.isLt
  rw [findReg_block ((0x120000, 0x130000), regsLRN) _ (by simp [blockList]) (by simp only; omega) (by simp only; omega)]
  revert i
  decide +kernel

theorem find_LRN_POP_CTRL : findReg 0x12010C = some (⟨"LRN_POP_CTRL", 0x12010C, 0x0, 1, 1, true, [Fld.LRN_POP_CTRL_LANE_FROZEN, Fld.LRN_POP_CTRL_FREEZE]⟩, 0, 0) := by
  rw [findReg_block ((0x120000, 0x130000), regsLRN) _ (by simp [blockList]) (by decide) (by decide)]
  decide +kernel

theorem find_BH_CMD : findReg 0x140004 = some (⟨"BH_CMD", 0x140004, 0x0, 1, 1, true, [Fld.BH_CMD_ACTION, Fld.BH_CMD_POP]⟩, 0, 0) := by
  rw [findReg_block ((0x140000, 0x150000), regsBH) _ (by simp [blockList]) (by decide) (by decide)]
  decide +kernel

theorem find_HOST_MB_TAIL (i : Fin 8) : findReg (0x170014 + i.val * 0x40) = some (⟨"HOST_MB_TAIL", 0x170014, 0x40, 8, 1, false, [Fld.HOST_MB_TAIL_TAIL]⟩, i.val, 0) := by
  have hi := i.isLt
  rw [findReg_block ((0x170000, 0x180000), regsHOST) _ (by simp [blockList]) (by simp only; omega) (by simp only; omega)]
  revert i
  decide +kernel

theorem find_HOST_MB_CFG (i : Fin 8) : findReg (0x170010 + i.val * 0x40) = some (⟨"HOST_MB_CFG", 0x170010, 0x40, 8, 1, false, [Fld.HOST_MB_CFG_FAULT, Fld.HOST_MB_CFG_ENABLE, Fld.HOST_MB_CFG_LOG2_CQ, Fld.HOST_MB_CFG_LOG2_CMD]⟩, i.val, 0) := by
  have hi := i.isLt
  rw [findReg_block ((0x170000, 0x180000), regsHOST) _ (by simp [blockList]) (by simp only; omega) (by simp only; omega)]
  revert i
  decide +kernel

theorem find_HOST_MB_CQ_HEAD (i : Fin 8) : findReg (0x17001C + i.val * 0x40) = some (⟨"HOST_MB_CQ_HEAD", 0x17001C, 0x40, 8, 1, false, [Fld.HOST_MB_CQ_HEAD_CQ_HEAD]⟩, i.val, 0) := by
  have hi := i.isLt
  rw [findReg_block ((0x170000, 0x180000), regsHOST) _ (by simp [blockList]) (by simp only; omega) (by simp only; omega)]
  revert i
  decide +kernel

theorem find_RPT_RING_CONS (i : Fin 8) : findReg (0x16000C + i.val * 0x40) = some (⟨"RPT_RING_CONS", 0x16000C, 0x40, 8, 1, false, [Fld.RPT_RING_CONS_CONS]⟩, i.val, 0) := by
  have hi := i.isLt
  rw [findReg_block ((0x160000, 0x170000), regsRPT) _ (by simp [blockList]) (by simp only; omega) (by simp only; omega)]
  revert i
  decide +kernel

theorem find_RPT_RING_BASE (i : Fin 8) : findReg (0x160000 + i.val * 0x40) = some (⟨"RPT_RING_BASE", 0x160000, 0x40, 8, 2, false, [Fld.RPT_RING_BASE_BASE]⟩, i.val, 0) := by
  have hi := i.isLt
  rw [findReg_block ((0x160000, 0x170000), regsRPT) _ (by simp [blockList]) (by simp only; omega) (by simp only; omega)]
  revert i
  decide +kernel

theorem find_PNL_SEL : findReg 0x1A010C = some (⟨"PNL_SEL", 0x1A010C, 0x0, 1, 1, true, [Fld.PNL_SEL_NONE, Fld.PNL_SEL_LANE]⟩, 0, 0) := by
  rw [findReg_block ((0x1A0000, 0x1B0000), regsPNL) _ (by simp [blockList]) (by decide) (by decide)]
  decide +kernel

theorem find_PNL_BUZZ_CTRL : findReg 0x1A0114 = some (⟨"PNL_BUZZ_CTRL", 0x1A0114, 0x0, 1, 1, true, [Fld.PNL_BUZZ_CTRL_TEST, Fld.PNL_BUZZ_CTRL_SILENCE]⟩, 0, 0) := by
  rw [findReg_block ((0x1A0000, 0x1B0000), regsPNL) _ (by simp [blockList]) (by decide) (by decide)]
  decide +kernel

theorem find_ERR_CONS (i : Fin 9) : findReg (0x1B0004 + i.val * 0x40) = some (⟨"ERR_CONS", 0x1B0004, 0x40, 9, 1, false, [Fld.ERR_CONS_CONS]⟩, i.val, 0) := by
  have hi := i.isLt
  rw [findReg_block ((0x1B0000, 0x1C0000), regsERR) _ (by simp [blockList]) (by simp only; omega) (by simp only; omega)]
  revert i
  decide +kernel

theorem find_ERR_UNIT_CMD : findReg 0x1B0240 = some (⟨"ERR_UNIT_CMD", 0x1B0240, 0x0, 1, 1, true, [Fld.ERR_UNIT_CMD_ACTION, Fld.ERR_UNIT_CMD_UNIT]⟩, 0, 0) := by
  rw [findReg_block ((0x1B0000, 0x1C0000), regsERR) _ (by simp [blockList]) (by decide) (by decide)]
  decide +kernel

theorem find_ERR_PART_CTRL (i : Fin 8) : findReg (0x1B0014 + i.val * 0x40) = some (⟨"ERR_PART_CTRL", 0x1B0014, 0x40, 8, 1, true, [Fld.ERR_PART_CTRL_RESTART]⟩, i.val, 0) := by
  have hi := i.isLt
  rw [findReg_block ((0x1B0000, 0x1C0000), regsERR) _ (by simp [blockList]) (by simp only; omega) (by simp only; omega)]
  revert i
  decide +kernel

end Sys2Proof.Machine
end

