-- ==== Sys2Proof/Laws/Keeps.lean ====
section
/-!
SUPPORT. What every command of the block keeps, whatever it does: the queue, the time, the factory record, the burned fuses and the form of
memory. `Keeps s t` says that `t` stands so to `s`; the files beside this one say it of every operation.
-/
set_option Elab.async false

namespace Sys2Proof.Machine

/-- From `s` to `t` the queue, the time and the factory record are unchanged, no fuse is cleared, and memory keeps its form. -/
structure Keeps (s t : State) : Prop where
  pending : t.pending = s.pending
  now : t.now = s.now
  otp : t.boot.otp = s.boot.otp
  lc : ∀ n : Nat, bit s.boot.lcFuses n = true → bit t.boot.lcFuses n = true
  rev : ∀ n : Nat, bit s.boot.fieldRevoke n = true → bit t.boot.fieldRevoke n = true
  ok : s.fusesOk = true → t.fusesOk = true
  mem : Memory.wf s.mem = true → Memory.wf t.mem = true

/-- The same of the state that a command answers. -/
structure KeepsE (s : State) (o : Effect) : Prop where
  out : ∀ t : State, o = .next t → Keeps s t

/-- The same of an operation that may answer no state. -/
structure KeepsO (s : State) (o : Option State) : Prop where
  out : ∀ t : State, o = some t → Keeps s t

variable {s0 s t : State} {α β : Type}

theorem Keeps.refl (s : State) : Keeps s s := ⟨rfl, rfl, rfl, fun _ h => h, fun _ h => h, fun h => h, fun h => h⟩

/-- An update of nothing that `Keeps` speaks of. -/
theorem Keeps.same (h : Keeps s0 s) (e1 : t.pending = s.pending) (e2 : t.now = s.now) (e3 : t.boot.otp = s.boot.otp) (e4 : t.boot.lcFuses = s.boot.lcFuses)
    (e5 : t.boot.fieldRevoke = s.boot.fieldRevoke) (e6 : t.mem = s.mem) : Keeps s0 t := by
  refine ⟨e1.trans h.pending, e2.trans h.now, e3.trans h.otp, ?_, ?_, ?_, ?_⟩
  · rw [e4]; exact h.lc
  · rw [e5]; exact h.rev
  · unfold State.fusesOk at *; rw [e4, e5]; exact h.ok
  · rw [e6]; exact h.mem

/-- `Keeps.same` for a state written out field by field. -/
theorem Keeps.mk_ {a1 a2 a3 a4 a5 a6 a7 a8 a9 a10 a11 a12 a13 a14 a15 a16 a17 a18 a19 a20 a21 a22 a23 a24 a25 a26 a27 a28 a29 a30 a31 a32 a33 a34 a35 a36} (h : Keeps s0 s)
    (e6 : a3 = s.mem) (e1 : a36 = s.pending) (e2 : a33 = s.now) (e3 : a6.otp = s.boot.otp) (e4 : a6.lcFuses = s.boot.lcFuses) (e5 : a6.fieldRevoke = s.boot.fieldRevoke) :
    Keeps s0 (State.mk a1 a2 a3 a4 a5 a6 a7 a8 a9 a10 a11 a12 a13 a14 a15 a16 a17 a18 a19 a20 a21 a22 a23 a24 a25 a26 a27 a28 a29 a30 a31 a32 a33 a34 a35 a36) :=
  h.same e1 e2 e3 e4 e5 e6

theorem Keeps.ite {c : Prop} [Decidable c] {a b : State} (ha : Keeps s0 a) (hb : Keeps s0 b) : Keeps s0 (if c then a else b) := by
  split
  · exact ha
  · exact hb

theorem Keeps.foldl {f : State → α → State} {l : List α} (h : Keeps s0 s) (hf : ∀ s a, Keeps s0 s → Keeps s0 (f s a)) : Keeps s0 (l.foldl f s) := by
  induction l generalizing s with
  | nil => exact h
  | cons a l ih => exact ih (hf s a h)

theorem Keeps.foldl1 {f : State × β → α → State × β} {l : List α} {p : State × β} (h : Keeps s0 p.1) (hf : ∀ p a, Keeps s0 p.1 → Keeps s0 (f p a).1) :
    Keeps s0 (l.foldl f p).1 := by
  induction l generalizing p with
  | nil => exact h
  | cons a l ih => exact ih (hf p a h)

theorem Keeps.foldl2 {f : β × State → α → β × State} {l : List α} {p : β × State} (h : Keeps s0 p.2) (hf : ∀ p a, Keeps s0 p.2 → Keeps s0 (f p a).2) :
    Keeps s0 (l.foldl f p).2 := by
  induction l generalizing p with
  | nil => exact h
  | cons a l ih => exact ih (hf p a h)

theorem Keeps.ite1 {c : Prop} [Decidable c] {a b : State × α} (ha : Keeps s0 a.1) (hb : Keeps s0 b.1) : Keeps s0 (if c then a else b).1 := by
  split
  · exact ha
  · exact hb

theorem Keeps.getD {o : Option State} {d : State} (h : KeepsO s0 o) (hd : Keeps s0 d) : Keeps s0 (o.getD d) := by
  cases o with
  | none => exact hd
  | some t => exact h.out t rfl

/-- The state a pair holds. -/
theorem Keeps.of_pair {p : α × State} {a : α} (e : p = (a, t)) (h : Keeps s0 p.2) : Keeps s0 t := by
  subst e
  exact h

theorem Keeps.of_triple {p : α × β × State} {a : α} {b : β} (e : p = (a, b, t)) (h : Keeps s0 p.2.2) : Keeps s0 t := by
  subst e
  exact h

theorem Keeps.ite2 {c : Prop} [Decidable c] {a b : α × State} (ha : Keeps s0 a.2) (hb : Keeps s0 b.2) : Keeps s0 (if c then a else b).2 := by
  split
  · exact ha
  · exact hb

theorem Keeps.ite22 {c : Prop} [Decidable c] {a b : α × β × State} (ha : Keeps s0 a.2.2) (hb : Keeps s0 b.2.2) : Keeps s0 (if c then a else b).2.2 := by
  split
  · exact ha
  · exact hb

theorem KeepsE.next {a : State} (h : Keeps s0 a) : KeepsE s0 (.next a) := by
  constructor
  intro t e
  cases e
  exact h

theorem KeepsE.ite {c : Prop} [Decidable c] {a b : Effect} (ha : KeepsE s0 a) (hb : KeepsE s0 b) : KeepsE s0 (if c then a else b) := by
  split
  · exact ha
  · exact hb

theorem KeepsO.some {a : State} (h : Keeps s0 a) : KeepsO s0 (some a) := by
  constructor
  intro t e
  cases e
  exact h

theorem KeepsO.none : KeepsO s0 none := by
  constructor
  intro t e
  cases e

theorem KeepsO.ite {c : Prop} [Decidable c] {a b : Option State} (ha : KeepsO s0 a) (hb : KeepsO s0 b) : KeepsO s0 (if c then a else b) := by
  split
  · exact ha
  · exact hb

/-! ### Memory: every operation keeps its form -/

/-- The memory after reset has it. -/
theorem reset_mem_wf : Memory.wf State.reset.mem = true := by decide

theorem Keeps.setMem (h : Keeps s0 s) (h6 : Memory.wf s.mem = true → Memory.wf t.mem = true) (e1 : t.pending = s.pending) (e2 : t.now = s.now) (e3 : t.boot = s.boot) :
    Keeps s0 t := by
  refine ⟨e1.trans h.pending, e2.trans h.now, ?_, ?_, ?_, ?_, fun w => h6 (h.mem w)⟩
  · rw [e3]; exact h.otp
  · rw [e3]; exact h.lc
  · rw [e3]; exact h.rev
  · unfold State.fusesOk at *; rw [e3]; exact h.ok

theorem State.wrByte_keeps (h : Keeps s0 s) : ∀ a v, Keeps s0 (s.wrByte a v) := fun a v =>
  h.setMem (fun w => Tbl.set_wf 0 s.mem (localOff a) v w) rfl rfl rfl

theorem State.wrBytes_keeps (h : Keeps s0 s) : ∀ a bs, Keeps s0 (s.wrBytes a bs) := by
  intro a bs
  induction bs generalizing s a with
  | nil => exact h
  | cons b bs ih => exact ih (State.wrByte_keeps h a b) (a + 1)

theorem State.wrMasked_keeps (h : Keeps s0 s) : ∀ a m bs, Keeps s0 (s.wrMasked a m bs) := by
  intro a m bs
  induction bs generalizing s a m with
  | nil => exact h
  | cons b bs ih => exact ih (Keeps.ite (State.wrByte_keeps h a b) h) (a + 1) (m / 2)

theorem State.losePocket_keeps (h : Keeps s0 s) : ∀ p, Keeps s0 (s.losePocket p) := fun _ =>
  h.setMem (fun w => Tbl.filter_wf 0 _ s.mem w) rfl rfl rfl

/-! ### Fuses -/

theorem bit_eq_testBit (x n : Nat) : bit x n = x.testBit n := by
  simp [bit, Nat.testBit_eq_decide_div_mod_eq]

theorem bit_lor (x y n : Nat) : bit (Nat.lor x y) n = (bit x n || bit y n) := by
  simp only [bit_eq_testBit]
  exact Nat.testBit_or x y n

/-- Burning a fuse that reads as unburned leaves the burned ones burned. -/
theorem bit_add_two_pow {x i : Nat} (hi : bit x i = false) (n : Nat) (hn : bit x n = true) : bit (x + 2 ^ i) n = true := by
  have hne : n ≠ i := fun e => by rw [e, hi] at hn; cases hn
  rcases Nat.lt_or_gt_of_ne hne with hlt | hgt
  · rw [bit_eq_testBit] at *
    rw [Nat.add_comm, Nat.testBit_two_pow_add_gt hlt]
    exact hn
  · obtain ⟨k, rfl⟩ : ∃ k, n = i + 1 + k := ⟨n - (i + 1), by omega⟩
    have e : (x + 2 ^ i) / 2 ^ (i + 1 + k) = x / 2 ^ (i + 1 + k) := by
      have hp : 0 < 2 ^ i := Nat.two_pow_pos i
      rw [Nat.pow_add, Nat.pow_succ, ← Nat.div_div_eq_div_mul, ← Nat.div_div_eq_div_mul, ← Nat.div_div_eq_div_mul, ← Nat.div_div_eq_div_mul, Nat.add_div_right _ hp]
      have hx : x / 2 ^ i % 2 = 0 := by simpa [bit] using hi
      rw [show (x / 2 ^ i + 1) / 2 = x / 2 ^ i / 2 by omega]
    simpa [bit, e] using hn

/-- A fuse of the root keys fits its field. -/
theorem add_two_pow_lt {x i : Nat} (hx : x < 16) (hi : i < 4) (hb : bit x i = false) : x + 2 ^ i < 16 := by
  have : ∀ x, x < 16 → ∀ i, i < 4 → bit x i = false → x + 2 ^ i < 16 := by decide
  exact this x hx i hi hb

theorem lor_lt_four {x y : Nat} (hx : x < 4) (hy : y < 4) : Nat.lor x y < 4 := Nat.or_lt_two_pow (n := 2) hx hy

/-- A fuse of the lifecycle burns. -/
theorem Keeps.burn (h : Keeps s0 s) {k : Nat} (hk : k < 4) : Keeps s0 { s with boot := { s.boot with lcFuses := Nat.lor s.boot.lcFuses k } } := by
  refine ⟨h.pending, h.now, h.otp, fun n e => ?_, h.rev, fun e => ?_, h.mem⟩
  · have := h.lc n e
    change bit (Nat.lor s.boot.lcFuses k) n = true
    rw [bit_lor, this, Bool.true_or]
  · have := h.ok e
    unfold State.fusesOk at *
    simp only [Bool.and_eq_true, decide_eq_true_eq] at *
    exact ⟨lor_lt_four this.1 hk, this.2⟩

/-- A root key's revocation fuse burns. -/
theorem Keeps.revoke (h : Keeps s0 s) {i : Nat} (hi : i < 4) (hb : bit s.boot.fieldRevoke i = false) :
    Keeps s0 { s with boot := { s.boot with fieldRevoke := s.boot.fieldRevoke + 2 ^ i } } := by
  refine ⟨h.pending, h.now, h.otp, h.lc, fun n e => bit_add_two_pow hb n (h.rev n e), fun e => ?_, h.mem⟩
  have := h.ok e
  unfold State.fusesOk at *
  simp only [Bool.and_eq_true, decide_eq_true_eq] at *
  exact ⟨this.1, add_two_pow_lt this.2 hi hb⟩

end Sys2Proof.Machine
end

