-- ==== Sys2Proof/Laws/KeepsOps.lean ====
section
/-!
SUPPORT. What every operation of Machine/Ops.lean keeps (see Laws/Keeps.lean).
-/
namespace Sys2Proof.Machine

set_option Elab.async false
set_option linter.unreachableTactic false
set_option linter.unusedTactic false

variable {s0 s t : State}

theorem State.start_keeps (h : Keeps s0 s) : Keeps s0 (State.start s) := by
  unfold State.start
  repeat' first
    | with_reducible assumption
    | (intro x; refine (fun (hx : Keeps s0 x) => ?_) ?_; clear_value x; rotate_left; unfold x)
    | intro x
    | (lift_lets; intro x; try (refine (fun (hx : Keeps s0 x) => ?_) ?_; clear_value x; rotate_left; unfold x))
    | with_reducible refine Keeps.mk_ ?_ rfl rfl rfl rfl rfl rfl

theorem State.emit_keeps (h : Keeps s0 s) : ∀ x1, Keeps s0 (State.emit s x1) := by
  unfold State.emit
  repeat' first
    | with_reducible assumption
    | (intro x; refine (fun (hx : Keeps s0 x) => ?_) ?_; clear_value x; rotate_left; unfold x)
    | intro x
    | (lift_lets; intro x; try (refine (fun (hx : Keeps s0 x) => ?_) ?_; clear_value x; rotate_left; unfold x))
    | with_reducible refine Keeps.mk_ ?_ rfl rfl rfl rfl rfl rfl

theorem State.console_keeps (h : Keeps s0 s) : ∀ x1 x2, Keeps s0 (State.console s x1 x2) := by
  unfold State.console
  repeat' first
    | with_reducible assumption
    | intro x
    | with_reducible apply Keeps.ite
    | with_reducible apply State.emit_keeps
    | with_reducible refine Keeps.mk_ ?_ rfl rfl rfl rfl rfl rfl
    | split

theorem State.put_keeps (h : Keeps s0 s) : ∀ x1 x2 x3, Keeps s0 (State.put s x1 x2 x3) := by
  unfold State.put
  repeat' first
    | with_reducible assumption
    | (intro x; refine (fun (hx : Keeps s0 x) => ?_) ?_; clear_value x; rotate_left; unfold x)
    | intro x
    | (lift_lets; intro x; try (refine (fun (hx : Keeps s0 x) => ?_) ?_; clear_value x; rotate_left; unfold x))
    | with_reducible refine Keeps.mk_ ?_ rfl rfl rfl rfl rfl rfl

theorem State.bump_keeps (h : Keeps s0 s) : ∀ x1 x2 x3, Keeps s0 (State.bump s x1 x2 x3) := by
  unfold State.bump
  repeat' first
    | with_reducible assumption
    | intro x
    | with_reducible apply State.put_keeps
    | with_reducible refine Keeps.mk_ ?_ rfl rfl rfl rfl rfl rfl

theorem State.raise_keeps (h : Keeps s0 s) : ∀ x1 x2 x3, Keeps s0 (State.raise s x1 x2 x3) := by
  unfold State.raise
  repeat' first
    | with_reducible assumption
    | intro x
    | with_reducible apply State.put_keeps
    | with_reducible refine Keeps.mk_ ?_ rfl rfl rfl rfl rfl rfl

theorem State.takeFree_keeps (h : Keeps s0 s) : Keeps s0 (State.takeFree s).2 := by
  unfold State.takeFree
  repeat' first
    | with_reducible assumption
    | (intro x; refine (fun (hx : Keeps s0 x) => ?_) ?_; clear_value x; rotate_left; unfold x)
    | intro x
    | (lift_lets; intro x; try (refine (fun (hx : Keeps s0 x) => ?_) ?_; clear_value x; rotate_left; unfold x))
    | with_reducible refine Keeps.mk_ ?_ rfl rfl rfl rfl rfl rfl

theorem State.wrNat_keeps (h : Keeps s0 s) : ∀ x1 x2 x3, Keeps s0 (State.wrNat s x1 x2 x3) := by
  unfold State.wrNat
  repeat' first
    | with_reducible assumption
    | intro x
    | with_reducible apply State.wrBytes_keeps
    | with_reducible refine Keeps.mk_ ?_ rfl rfl rfl rfl rfl rfl

theorem State.setPoison_keeps (h : Keeps s0 s) : ∀ x1, Keeps s0 (State.setPoison s x1) := by
  unfold State.setPoison
  repeat' first
    | with_reducible assumption
    | (intro x; refine (fun (hx : Keeps s0 x) => ?_) ?_; clear_value x; rotate_left; unfold x)
    | intro x
    | (lift_lets; intro x; try (refine (fun (hx : Keeps s0 x) => ?_) ?_; clear_value x; rotate_left; unfold x))
    | with_reducible refine Keeps.mk_ ?_ rfl rfl rfl rfl rfl rfl

theorem State.clrPoison_keeps (h : Keeps s0 s) : ∀ x1, Keeps s0 (State.clrPoison s x1) := by
  unfold State.clrPoison
  repeat' first
    | with_reducible assumption
    | (intro x; refine (fun (hx : Keeps s0 x) => ?_) ?_; clear_value x; rotate_left; unfold x)
    | intro x
    | (lift_lets; intro x; try (refine (fun (hx : Keeps s0 x) => ?_) ?_; clear_value x; rotate_left; unfold x))
    | with_reducible refine Keeps.mk_ ?_ rfl rfl rfl rfl rfl rfl

theorem State.markWord_keeps (h : Keeps s0 s) : ∀ x1 x2 x3 x4, Keeps s0 (State.markWord s x1 x2 x3 x4) := by
  unfold State.markWord
  repeat' first
    | with_reducible assumption
    | (intro x; refine (fun (hx : Keeps s0 x) => ?_) ?_; clear_value x; rotate_left; unfold x)
    | intro x
    | (lift_lets; intro x; try (refine (fun (hx : Keeps s0 x) => ?_) ?_; clear_value x; rotate_left; unfold x))
    | with_reducible apply Keeps.ite
    | with_reducible apply State.setPoison_keeps
    | with_reducible apply State.clrPoison_keeps
    | with_reducible refine Keeps.mk_ ?_ rfl rfl rfl rfl rfl rfl
    | split

theorem State.wrLine_keeps (h : Keeps s0 s) : ∀ x1 x2 x3 x4, Keeps s0 (State.wrLine s x1 x2 x3 x4) := by
  unfold State.wrLine
  repeat' first
    | with_reducible assumption
    | intro x
    | with_reducible apply State.markWord_keeps
    | with_reducible apply State.wrMasked_keeps
    | with_reducible refine Keeps.foldl ?_ ?_
    | with_reducible refine Keeps.mk_ ?_ rfl rfl rfl rfl rfl rfl

theorem State.msix_keeps (h : Keeps s0 s) : ∀ x1 x2, Keeps s0 (State.msix s x1 x2) := by
  unfold State.msix
  repeat' first
    | with_reducible assumption
    | (intro x; refine (fun (hx : Keeps s0 x) => ?_) ?_; clear_value x; rotate_left; unfold x)
    | intro x
    | (lift_lets; intro x; try (refine (fun (hx : Keeps s0 x) => ?_) ?_; clear_value x; rotate_left; unfold x))
    | with_reducible apply Keeps.ite
    | split
    | with_reducible refine Keeps.mk_ ?_ rfl rfl rfl rfl rfl rfl
    | split

theorem State.loseRec_keeps (h : Keeps s0 s) : ∀ x1, Keeps s0 (State.loseRec s x1) := by
  unfold State.loseRec
  repeat' first
    | with_reducible assumption
    | (intro x; refine (fun (hx : Keeps s0 x) => ?_) ?_; clear_value x; rotate_left; unfold x)
    | intro x
    | (lift_lets; intro x; try (refine (fun (hx : Keeps s0 x) => ?_) ?_; clear_value x; rotate_left; unfold x))
    | with_reducible apply State.bump_keeps
    | with_reducible refine Keeps.mk_ ?_ rfl rfl rfl rfl rfl rfl

theorem State.moveRing_keeps (h : Keeps s0 s) : ∀ x1, Keeps s0 (State.moveRing s x1) := by
  unfold State.moveRing
  repeat' first
    | with_reducible assumption
    | (intro x; refine (fun (hx : Keeps s0 x) => ?_) ?_; clear_value x; rotate_left; unfold x)
    | intro x
    | (lift_lets; intro x; try (refine (fun (hx : Keeps s0 x) => ?_) ?_; clear_value x; rotate_left; unfold x))
    | with_reducible apply State.loseRec_keeps
    | with_reducible refine Keeps.mk_ ?_ rfl rfl rfl rfl rfl rfl

theorem State.ringWrite_keeps (h : Keeps s0 s) : ∀ x1 x2, Keeps s0 (State.ringWrite s x1 x2) := by
  unfold State.ringWrite
  repeat' first
    | with_reducible assumption
    | (intro x; refine (fun (hx : Keeps s0 x) => ?_) ?_; clear_value x; rotate_left; unfold x)
    | intro x
    | (lift_lets; intro x; try (refine (fun (hx : Keeps s0 x) => ?_) ?_; clear_value x; rotate_left; unfold x))
    | with_reducible apply Keeps.ite
    | with_reducible apply State.loseRec_keeps
    | with_reducible apply State.moveRing_keeps
    | with_reducible apply State.put_keeps
    | with_reducible apply State.msix_keeps
    | with_reducible refine Keeps.mk_ ?_ rfl rfl rfl rfl rfl rfl
    | split

theorem State.setDir_keeps (h : Keeps s0 s) : ∀ x1 x2, Keeps s0 (State.setDir s x1 x2) := by
  unfold State.setDir
  repeat' first
    | with_reducible assumption
    | (intro x; refine (fun (hx : Keeps s0 x) => ?_) ?_; clear_value x; rotate_left; unfold x)
    | intro x
    | (lift_lets; intro x; try (refine (fun (hx : Keeps s0 x) => ?_) ?_; clear_value x; rotate_left; unfold x))
    | with_reducible refine Keeps.mk_ ?_ rfl rfl rfl rfl rfl rfl

theorem State.setGranted_keeps (h : Keeps s0 s) : ∀ x1 x2 x3, Keeps s0 (State.setGranted s x1 x2 x3) := by
  unfold State.setGranted
  repeat' first
    | with_reducible assumption
    | (intro x; refine (fun (hx : Keeps s0 x) => ?_) ?_; clear_value x; rotate_left; unfold x)
    | intro x
    | (lift_lets; intro x; try (refine (fun (hx : Keeps s0 x) => ?_) ?_; clear_value x; rotate_left; unfold x))
    | with_reducible apply Keeps.ite
    | with_reducible refine Keeps.mk_ ?_ rfl rfl rfl rfl rfl rfl
    | split

theorem State.setCopy_keeps (h : Keeps s0 s) : ∀ x1 x2 x3, Keeps s0 (State.setCopy s x1 x2 x3) := by
  unfold State.setCopy
  repeat' first
    | with_reducible assumption
    | (intro x; refine (fun (hx : Keeps s0 x) => ?_) ?_; clear_value x; rotate_left; unfold x)
    | intro x
    | (lift_lets; intro x; try (refine (fun (hx : Keeps s0 x) => ?_) ?_; clear_value x; rotate_left; unfold x))
    | with_reducible refine Keeps.mk_ ?_ rfl rfl rfl rfl rfl rfl

theorem State.setFlight_keeps (h : Keeps s0 s) : ∀ x1 x2 x3, Keeps s0 (State.setFlight s x1 x2 x3) := by
  unfold State.setFlight
  repeat' first
    | with_reducible assumption
    | (intro x; refine (fun (hx : Keeps s0 x) => ?_) ?_; clear_value x; rotate_left; unfold x)
    | intro x
    | (lift_lets; intro x; try (refine (fun (hx : Keeps s0 x) => ?_) ?_; clear_value x; rotate_left; unfold x))
    | with_reducible refine Keeps.mk_ ?_ rfl rfl rfl rfl rfl rfl

theorem State.setOver_keeps (h : Keeps s0 s) : ∀ x1 x2 x3, Keeps s0 (State.setOver s x1 x2 x3) := by
  unfold State.setOver
  repeat' first
    | with_reducible assumption
    | (intro x; refine (fun (hx : Keeps s0 x) => ?_) ?_; clear_value x; rotate_left; unfold x)
    | intro x
    | (lift_lets; intro x; try (refine (fun (hx : Keeps s0 x) => ?_) ?_; clear_value x; rotate_left; unfold x))
    | with_reducible refine Keeps.mk_ ?_ rfl rfl rfl rfl rfl rfl

theorem State.setPend_keeps (h : Keeps s0 s) : ∀ x1 x2 x3, Keeps s0 (State.setPend s x1 x2 x3) := by
  unfold State.setPend
  repeat' first
    | with_reducible assumption
    | (intro x; refine (fun (hx : Keeps s0 x) => ?_) ?_; clear_value x; rotate_left; unfold x)
    | intro x
    | (lift_lets; intro x; try (refine (fun (hx : Keeps s0 x) => ?_) ?_; clear_value x; rotate_left; unfold x))
    | with_reducible refine Keeps.mk_ ?_ rfl rfl rfl rfl rfl rfl

theorem State.leave_keeps (h : Keeps s0 s) : ∀ x1 x2, Keeps s0 (State.leave s x1 x2) := by
  unfold State.leave
  repeat' first
    | with_reducible assumption
    | (intro x; refine (fun (hx : Keeps s0 x) => ?_) ?_; clear_value x; rotate_left; unfold x)
    | intro x
    | (lift_lets; intro x; try (refine (fun (hx : Keeps s0 x) => ?_) ?_; clear_value x; rotate_left; unfold x))
    | with_reducible apply Keeps.ite
    | split
    | with_reducible apply State.setCopy_keeps
    | with_reducible apply State.setFlight_keeps
    | with_reducible refine Keeps.mk_ ?_ rfl rfl rfl rfl rfl rfl
    | split

theorem State.sink_keeps (h : Keeps s0 s) : ∀ x1 x2 x3 x4 x5, Keeps s0 (State.sink s x1 x2 x3 x4 x5) := by
  unfold State.sink
  repeat' first
    | with_reducible assumption
    | (intro x; refine (fun (hx : Keeps s0 x) => ?_) ?_; clear_value x; rotate_left; unfold x)
    | intro x
    | (lift_lets; intro x; try (refine (fun (hx : Keeps s0 x) => ?_) ?_; clear_value x; rotate_left; unfold x))
    | with_reducible apply State.wrLine_keeps
    | with_reducible refine Keeps.mk_ ?_ rfl rfl rfl rfl rfl rfl

theorem State.claim_keeps (h : Keeps s0 s) : ∀ x1 x2, Keeps s0 (State.claim s x1 x2) := by
  unfold State.claim
  repeat' first
    | with_reducible assumption
    | (intro x; refine (fun (hx : Keeps s0 x) => ?_) ?_; clear_value x; rotate_left; unfold x)
    | intro x
    | (lift_lets; intro x; try (refine (fun (hx : Keeps s0 x) => ?_) ?_; clear_value x; rotate_left; unfold x))
    | with_reducible apply Keeps.ite
    | split
    | with_reducible apply State.setOver_keeps
    | with_reducible apply State.wrLine_keeps
    | with_reducible apply State.setDir_keeps
    | with_reducible apply State.setCopy_keeps
    | with_reducible refine Keeps.foldl ?_ ?_
    | with_reducible refine Keeps.mk_ ?_ rfl rfl rfl rfl rfl rfl
    | split

theorem State.ownWrite_keeps (h : Keeps s0 s) : ∀ x1 x2 x3 x4, Keeps s0 (State.ownWrite s x1 x2 x3 x4) := by
  unfold State.ownWrite
  repeat' first
    | with_reducible assumption
    | (intro x; refine (fun (hx : Keeps s0 x) => ?_) ?_; clear_value x; rotate_left; unfold x)
    | intro x
    | (lift_lets; intro x; try (refine (fun (hx : Keeps s0 x) => ?_) ?_; clear_value x; rotate_left; unfold x))
    | split
    | with_reducible apply State.wrLine_keeps
    | with_reducible apply State.claim_keeps
    | with_reducible apply State.setCopy_keeps
    | with_reducible apply State.setFlight_keeps
    | with_reducible refine Keeps.foldl ?_ ?_
    | with_reducible refine Keeps.mk_ ?_ rfl rfl rfl rfl rfl rfl
    | split

theorem State.ownBytes_keeps (h : Keeps s0 s) : ∀ x1 x2, Keeps s0 (State.ownBytes s x1 x2) := by
  unfold State.ownBytes
  repeat' first
    | with_reducible assumption
    | (intro x; refine (fun (hx : Keeps s0 x) => ?_) ?_; clear_value x; rotate_left; unfold x)
    | intro x
    | (lift_lets; intro x; try (refine (fun (hx : Keeps s0 x) => ?_) ?_; clear_value x; rotate_left; unfold x))
    | with_reducible apply Keeps.ite
    | with_reducible apply State.ownWrite_keeps
    | with_reducible refine Keeps.foldl ?_ ?_
    | with_reducible refine Keeps.mk_ ?_ rfl rfl rfl rfl rfl rfl
    | split

theorem State.ownNat_keeps (h : Keeps s0 s) : ∀ x1 x2 x3, Keeps s0 (State.ownNat s x1 x2 x3) := by
  unfold State.ownNat
  repeat' first
    | with_reducible assumption
    | intro x
    | with_reducible apply State.ownBytes_keeps
    | with_reducible refine Keeps.mk_ ?_ rfl rfl rfl rfl rfl rfl

theorem State.showCtx_keeps (h : Keeps s0 s) : ∀ x1, Keeps s0 (State.showCtx s x1) := by
  unfold State.showCtx
  repeat' first
    | with_reducible assumption
    | (intro x; refine (fun (hx : Keeps s0 x) => ?_) ?_; clear_value x; rotate_left; unfold x)
    | intro x
    | (lift_lets; intro x; try (refine (fun (hx : Keeps s0 x) => ?_) ?_; clear_value x; rotate_left; unfold x))
    | with_reducible apply Keeps.ite
    | with_reducible apply State.put_keeps
    | with_reducible refine Keeps.mk_ ?_ rfl rfl rfl rfl rfl rfl
    | split

theorem State.showSlide_keeps (h : Keeps s0 s) : ∀ x1, Keeps s0 (State.showSlide s x1) := by
  unfold State.showSlide
  repeat' first
    | with_reducible assumption
    | (intro x; refine (fun (hx : Keeps s0 x) => ?_) ?_; clear_value x; rotate_left; unfold x)
    | intro x
    | (lift_lets; intro x; try (refine (fun (hx : Keeps s0 x) => ?_) ?_; clear_value x; rotate_left; unfold x))
    | with_reducible apply State.showCtx_keeps
    | with_reducible apply State.put_keeps
    | with_reducible refine Keeps.mk_ ?_ rfl rfl rfl rfl rfl rfl

theorem State.writeStatus_keeps (h : Keeps s0 s) : ∀ x1, Keeps s0 (State.writeStatus s x1) := by
  unfold State.writeStatus
  repeat' first
    | with_reducible assumption
    | (intro x; refine (fun (hx : Keeps s0 x) => ?_) ?_; clear_value x; rotate_left; unfold x)
    | intro x
    | (lift_lets; intro x; try (refine (fun (hx : Keeps s0 x) => ?_) ?_; clear_value x; rotate_left; unfold x))
    | with_reducible apply Keeps.ite
    | with_reducible apply State.showSlide_keeps
    | with_reducible apply State.ownBytes_keeps
    | with_reducible refine Keeps.getD ?_ ?_
    | with_reducible refine Keeps.mk_ ?_ rfl rfl rfl rfl rfl rfl
    | split

theorem State.putSlide_keeps (h : Keeps s0 s) : ∀ x1 x2, Keeps s0 (State.putSlide s x1 x2) := by
  unfold State.putSlide
  repeat' first
    | with_reducible assumption
    | (intro x; refine (fun (hx : Keeps s0 x) => ?_) ?_; clear_value x; rotate_left; unfold x)
    | intro x
    | (lift_lets; intro x; try (refine (fun (hx : Keeps s0 x) => ?_) ?_; clear_value x; rotate_left; unfold x))
    | with_reducible apply State.writeStatus_keeps
    | with_reducible refine Keeps.mk_ ?_ rfl rfl rfl rfl rfl rfl

theorem State.dropMissesOf_keeps (h : Keeps s0 s) : ∀ x1, Keeps s0 (State.dropMissesOf s x1) := by
  unfold State.dropMissesOf
  repeat' first
    | with_reducible assumption
    | (intro x; refine (fun (hx : Keeps s0 x) => ?_) ?_; clear_value x; rotate_left; unfold x)
    | intro x
    | (lift_lets; intro x; try (refine (fun (hx : Keeps s0 x) => ?_) ?_; clear_value x; rotate_left; unfold x))
    | with_reducible refine Keeps.mk_ ?_ rfl rfl rfl rfl rfl rfl

theorem State.endSlide_keeps (h : Keeps s0 s) : ∀ x1 x2, Keeps s0 (State.endSlide s x1 x2) := by
  unfold State.endSlide
  repeat' first
    | with_reducible assumption
    | intro x
    | with_reducible apply State.dropMissesOf_keeps
    | with_reducible apply State.putSlide_keeps
    | with_reducible refine Keeps.mk_ ?_ rfl rfl rfl rfl rfl rfl

theorem State.failSlides_keeps (h : Keeps s0 s) : ∀ x1 x2, Keeps s0 (State.failSlides s x1 x2) := by
  unfold State.failSlides
  repeat' first
    | with_reducible assumption
    | (intro x; refine (fun (hx : Keeps s0 x) => ?_) ?_; clear_value x; rotate_left; unfold x)
    | intro x
    | (lift_lets; intro x; try (refine (fun (hx : Keeps s0 x) => ?_) ?_; clear_value x; rotate_left; unfold x))
    | with_reducible apply Keeps.ite
    | with_reducible apply State.endSlide_keeps
    | with_reducible refine Keeps.foldl ?_ ?_
    | with_reducible refine Keeps.mk_ ?_ rfl rfl rfl rfl rfl rfl
    | split

theorem State.keepTasks_keeps (h : Keeps s0 s) : ∀ x1, Keeps s0 (State.keepTasks s x1) := by
  unfold State.keepTasks
  repeat' first
    | with_reducible assumption
    | (intro x; refine (fun (hx : Keeps s0 x) => ?_) ?_; clear_value x; rotate_left; unfold x)
    | intro x
    | (lift_lets; intro x; try (refine (fun (hx : Keeps s0 x) => ?_) ?_; clear_value x; rotate_left; unfold x))
    | split
    | with_reducible refine Keeps.mk_ ?_ rfl rfl rfl rfl rfl rfl
    | split

theorem State.relineTiles_keeps (h : Keeps s0 s) : Keeps s0 (State.relineTiles s) := by
  unfold State.relineTiles
  repeat' first
    | with_reducible assumption
    | (intro x; refine (fun (hx : Keeps s0 x) => ?_) ?_; clear_value x; rotate_left; unfold x)
    | intro x
    | (lift_lets; intro x; try (refine (fun (hx : Keeps s0 x) => ?_) ?_; clear_value x; rotate_left; unfold x))
    | with_reducible apply Keeps.ite
    | split
    | with_reducible refine Keeps.foldl ?_ ?_
    | with_reducible refine Keeps.mk_ ?_ rfl rfl rfl rfl rfl rfl
    | split

theorem State.showScull_keeps (h : Keeps s0 s) : ∀ x1, Keeps s0 (State.showScull s x1) := by
  unfold State.showScull
  repeat' first
    | with_reducible assumption
    | (intro x; refine (fun (hx : Keeps s0 x) => ?_) ?_; clear_value x; rotate_left; unfold x)
    | intro x
    | (lift_lets; intro x; try (refine (fun (hx : Keeps s0 x) => ?_) ?_; clear_value x; rotate_left; unfold x))
    | with_reducible apply Keeps.ite
    | split
    | with_reducible apply State.put_keeps
    | with_reducible refine Keeps.mk_ ?_ rfl rfl rfl rfl rfl rfl
    | split

theorem State.quarantineCtx_keeps (h : Keeps s0 s) : ∀ x1, Keeps s0 (State.quarantineCtx s x1) := by
  unfold State.quarantineCtx
  repeat' first
    | with_reducible assumption
    | (intro x; refine (fun (hx : Keeps s0 x) => ?_) ?_; clear_value x; rotate_left; unfold x)
    | intro x
    | (lift_lets; intro x; try (refine (fun (hx : Keeps s0 x) => ?_) ?_; clear_value x; rotate_left; unfold x))
    | with_reducible apply State.put_keeps
    | with_reducible refine Keeps.mk_ ?_ rfl rfl rfl rfl rfl rfl

theorem State.noteRepeat_keeps (h : Keeps s0 s) : ∀ x1, Keeps s0 (State.noteRepeat s x1) := by
  unfold State.noteRepeat
  repeat' first
    | with_reducible assumption
    | (intro x; refine (fun (hx : Keeps s0 x) => ?_) ?_; clear_value x; rotate_left; unfold x)
    | intro x
    | (lift_lets; intro x; try (refine (fun (hx : Keeps s0 x) => ?_) ?_; clear_value x; rotate_left; unfold x))
    | with_reducible apply Keeps.ite
    | split
    | with_reducible refine Keeps.mk_ ?_ rfl rfl rfl rfl rfl rfl
    | split

theorem State.showHeld_keeps (h : Keeps s0 s) : ∀ x1, Keeps s0 (State.showHeld s x1) := by
  unfold State.showHeld
  repeat' first
    | with_reducible assumption
    | intro x
    | with_reducible apply State.put_keeps
    | with_reducible refine Keeps.mk_ ?_ rfl rfl rfl rfl rfl rfl

theorem State.showFaults_keeps (h : Keeps s0 s) : ∀ x1, Keeps s0 (State.showFaults s x1) := by
  unfold State.showFaults
  repeat' first
    | with_reducible assumption
    | intro x
    | with_reducible apply State.put_keeps
    | with_reducible refine Keeps.mk_ ?_ rfl rfl rfl rfl rfl rfl

theorem State.partFatal_keeps (h : Keeps s0 s) : ∀ x1 x2, Keeps s0 (State.partFatal s x1 x2) := by
  unfold State.partFatal
  repeat' first
    | with_reducible assumption
    | (intro x; refine (fun (hx : Keeps s0 x) => ?_) ?_; clear_value x; rotate_left; unfold x)
    | intro x
    | (lift_lets; intro x; try (refine (fun (hx : Keeps s0 x) => ?_) ?_; clear_value x; rotate_left; unfold x))
    | with_reducible apply Keeps.ite
    | with_reducible apply State.ringWrite_keeps
    | with_reducible apply State.put_keeps
    | with_reducible apply State.relineTiles_keeps
    | with_reducible apply State.keepTasks_keeps
    | with_reducible apply State.failSlides_keeps
    | with_reducible apply State.quarantineCtx_keeps
    | with_reducible apply State.showFaults_keeps
    | with_reducible apply State.noteRepeat_keeps
    | with_reducible apply State.showHeld_keeps
    | with_reducible apply State.showScull_keeps
    | with_reducible refine Keeps.foldl ?_ ?_
    | with_reducible refine Keeps.mk_ ?_ rfl rfl rfl rfl rfl rfl
    | split

theorem State.stormCount_keeps (h : Keeps s0 s) : ∀ x1 x2, Keeps s0 (State.stormCount s x1 x2) := by
  unfold State.stormCount
  repeat' first
    | with_reducible assumption
    | (intro x; refine (fun (hx : Keeps s0 x) => ?_) ?_; clear_value x; rotate_left; unfold x)
    | intro x
    | (lift_lets; intro x; try (refine (fun (hx : Keeps s0 x) => ?_) ?_; clear_value x; rotate_left; unfold x))
    | with_reducible apply Keeps.ite
    | with_reducible apply State.partFatal_keeps
    | with_reducible refine Keeps.mk_ ?_ rfl rfl rfl rfl rfl rfl
    | split

theorem State.record_keeps (h : Keeps s0 s) : ∀ x1, Keeps s0 (State.record s x1) := by
  unfold State.record
  repeat' first
    | with_reducible assumption
    | (intro x; refine (fun (hx : Keeps s0 x) => ?_) ?_; clear_value x; rotate_left; unfold x)
    | intro x
    | (lift_lets; intro x; try (refine (fun (hx : Keeps s0 x) => ?_) ?_; clear_value x; rotate_left; unfold x))
    | with_reducible apply Keeps.ite
    | with_reducible apply State.ringWrite_keeps
    | with_reducible apply State.stormCount_keeps
    | with_reducible refine Keeps.mk_ ?_ rfl rfl rfl rfl rfl rfl
    | split

theorem State.putBit_keeps (h : Keeps s0 s) : ∀ x1 x2 x3, Keeps s0 (State.putBit s x1 x2 x3) := by
  unfold State.putBit
  repeat' first
    | with_reducible assumption
    | (intro x; refine (fun (hx : Keeps s0 x) => ?_) ?_; clear_value x; rotate_left; unfold x)
    | intro x
    | (lift_lets; intro x; try (refine (fun (hx : Keeps s0 x) => ?_) ?_; clear_value x; rotate_left; unfold x))
    | with_reducible apply Keeps.ite
    | with_reducible apply State.put_keeps
    | with_reducible refine Keeps.mk_ ?_ rfl rfl rfl rfl rfl rfl
    | split

theorem State.putBitAt_keeps (h : Keeps s0 s) : ∀ x1 x2 x3 x4, Keeps s0 (State.putBitAt s x1 x2 x3 x4) := by
  unfold State.putBitAt
  repeat' first
    | with_reducible assumption
    | (intro x; refine (fun (hx : Keeps s0 x) => ?_) ?_; clear_value x; rotate_left; unfold x)
    | intro x
    | (lift_lets; intro x; try (refine (fun (hx : Keeps s0 x) => ?_) ?_; clear_value x; rotate_left; unfold x))
    | with_reducible apply Keeps.ite
    | with_reducible apply State.put_keeps
    | with_reducible refine Keeps.mk_ ?_ rfl rfl rfl rfl rfl rfl
    | split

end Sys2Proof.Machine
end

