-- ==== Sys2Proof/Laws/KeepsOperands.lean ====
section
/-!
SUPPORT. What every operation of Machine/Operands.lean keeps (see Laws/Keeps.lean).
-/
namespace Sys2Proof.Machine

set_option Elab.async false
set_option linter.unreachableTactic false
set_option linter.unusedTactic false

variable {s0 s t : State}

theorem State.liningFail_keeps (h : Keeps s0 s) : ∀ x1 x2, Keeps s0 (State.liningFail s x1 x2) := by
  unfold State.liningFail
  repeat' first
    | with_reducible assumption
    | intro x
    | with_reducible apply State.record_keeps
    | with_reducible apply State.bump_keeps
    | with_reducible refine Keeps.mk_ ?_ rfl rfl rfl rfl rfl rfl
    | split

theorem State.service_keeps (h : Keeps s0 s) : ∀ x1 x2 x3 x4 x5, Keeps s0 (State.service s x1 x2 x3 x4 x5).2 := by
  unfold State.service
  repeat' first
    | with_reducible assumption
    | (intro x; refine (fun (hx : Keeps s0 x) => ?_) ?_; clear_value x; rotate_left; unfold x)
    | intro x
    | (lift_lets; intro x; try (refine (fun (hx : Keeps s0 x) => ?_) ?_; clear_value x; rotate_left; unfold x))
    | with_reducible apply Keeps.ite
    | with_reducible apply Keeps.ite2
    | with_reducible apply State.emit_keeps
    | with_reducible apply State.liningFail_keeps
    | with_reducible refine Keeps.mk_ ?_ rfl rfl rfl rfl rfl rfl
    | split

theorem State.serviceWrite_keeps (h : Keeps s0 s) : ∀ x1 x2 x3 x4, Keeps s0 (State.serviceWrite s x1 x2 x3 x4) := by
  unfold State.serviceWrite
  repeat' first
    | with_reducible assumption
    | (intro x; refine (fun (hx : Keeps s0 x) => ?_) ?_; clear_value x; rotate_left; unfold x)
    | intro x
    | (lift_lets; intro x; try (refine (fun (hx : Keeps s0 x) => ?_) ?_; clear_value x; rotate_left; unfold x))
    | with_reducible apply Keeps.ite
    | with_reducible apply State.service_keeps
    | with_reducible apply State.ownBytes_keeps
    | with_reducible refine Keeps.of_pair (by assumption) ?_
    | with_reducible refine Keeps.mk_ ?_ rfl rfl rfl rfl rfl rfl
    | split

theorem State.gate_keeps (h : Keeps s0 s) : ∀ x1 x2 x3, Keeps s0 (State.gate s x1 x2 x3).2 := by
  unfold State.gate
  repeat' first
    | with_reducible assumption
    | (intro x; refine (fun (hx : Keeps s0 x) => ?_) ?_; clear_value x; rotate_left; unfold x)
    | intro x
    | (lift_lets; intro x; try (refine (fun (hx : Keeps s0 x) => ?_) ?_; clear_value x; rotate_left; unfold x))
    | with_reducible apply Keeps.ite
    | with_reducible apply Keeps.ite2
    | split
    | with_reducible apply State.record_keeps
    | with_reducible apply State.bump_keeps
    | with_reducible apply State.liningFail_keeps
    | with_reducible refine Keeps.mk_ ?_ rfl rfl rfl rfl rfl rfl
    | split

end Sys2Proof.Machine
end

