-- ==== Sys2Proof/Laws/KeepsLinkOps.lean ====
section
/-!
SUPPORT. What every operation of Machine/LinkOps.lean keeps (see Laws/Keeps.lean).
-/
namespace Sys2Proof.Machine

set_option Elab.async false
set_option linter.unreachableTactic false
set_option linter.unusedTactic false

variable {s0 s t : State}

theorem State.setPort_keeps (h : Keeps s0 s) : ∀ x1 x2, Keeps s0 (State.setPort s x1 x2) := by
  unfold State.setPort
  repeat' first
    | with_reducible assumption
    | (intro x; refine (fun (hx : Keeps s0 x) => ?_) ?_; clear_value x; rotate_left; unfold x)
    | intro x
    | (lift_lets; intro x; try (refine (fun (hx : Keeps s0 x) => ?_) ?_; clear_value x; rotate_left; unfold x))
    | with_reducible refine Keeps.mk_ ?_ rfl rfl rfl rfl rfl rfl

theorem State.sendFlit_keeps (h : Keeps s0 s) : ∀ x1 x2 x3 x4, Keeps s0 (State.sendFlit s x1 x2 x3 x4) := by
  unfold State.sendFlit
  repeat' first
    | with_reducible assumption
    | (intro x; refine (fun (hx : Keeps s0 x) => ?_) ?_; clear_value x; rotate_left; unfold x)
    | intro x
    | (lift_lets; intro x; try (refine (fun (hx : Keeps s0 x) => ?_) ?_; clear_value x; rotate_left; unfold x))
    | with_reducible apply State.emit_keeps
    | with_reducible apply State.setPort_keeps
    | with_reducible refine Keeps.mk_ ?_ rfl rfl rfl rfl rfl rfl

theorem State.freePlace_keeps (h : Keeps s0 s) : ∀ x1 x2, Keeps s0 (State.freePlace s x1 x2) := by
  unfold State.freePlace
  repeat' first
    | with_reducible assumption
    | (intro x; refine (fun (hx : Keeps s0 x) => ?_) ?_; clear_value x; rotate_left; unfold x)
    | intro x
    | (lift_lets; intro x; try (refine (fun (hx : Keeps s0 x) => ?_) ?_; clear_value x; rotate_left; unfold x))
    | with_reducible apply Keeps.ite
    | with_reducible apply State.setPort_keeps
    | with_reducible refine Keeps.mk_ ?_ rfl rfl rfl rfl rfl rfl
    | split

theorem State.leftBuffer_keeps (h : Keeps s0 s) : ∀ x1, Keeps s0 (State.leftBuffer s x1) := by
  unfold State.leftBuffer
  repeat' first
    | with_reducible assumption
    | (intro x; refine (fun (hx : Keeps s0 x) => ?_) ?_; clear_value x; rotate_left; unfold x)
    | intro x
    | (lift_lets; intro x; try (refine (fun (hx : Keeps s0 x) => ?_) ?_; clear_value x; rotate_left; unfold x))
    | split
    | with_reducible apply State.freePlace_keeps
    | with_reducible refine Keeps.mk_ ?_ rfl rfl rfl rfl rfl rfl
    | split

theorem State.portFlit_keeps (h : Keeps s0 s) : ∀ x1 x2, Keeps s0 (State.portFlit s x1 x2) := by
  unfold State.portFlit
  repeat' first
    | with_reducible assumption
    | (intro x; refine (fun (hx : Keeps s0 x) => ?_) ?_; clear_value x; rotate_left; unfold x)
    | intro x
    | (lift_lets; intro x; try (refine (fun (hx : Keeps s0 x) => ?_) ?_; clear_value x; rotate_left; unfold x))
    | with_reducible apply Keeps.ite
    | with_reducible apply State.leftBuffer_keeps
    | with_reducible apply State.bump_keeps
    | with_reducible apply State.sendFlit_keeps
    | with_reducible apply State.setPort_keeps
    | with_reducible refine Keeps.mk_ ?_ rfl rfl rfl rfl rfl rfl
    | split

theorem State.portSend_keeps (h : Keeps s0 s) : ∀ x1 x2, Keeps s0 (State.portSend s x1 x2) := by
  unfold State.portSend
  repeat' first
    | with_reducible assumption
    | (intro x; refine (fun (hx : Keeps s0 x) => ?_) ?_; clear_value x; rotate_left; unfold x)
    | intro x
    | (lift_lets; intro x; try (refine (fun (hx : Keeps s0 x) => ?_) ?_; clear_value x; rotate_left; unfold x))
    | with_reducible apply Keeps.ite
    | with_reducible apply State.portFlit_keeps
    | with_reducible apply State.setPort_keeps
    | with_reducible refine Keeps.mk_ ?_ rfl rfl rfl rfl rfl rfl
    | split

theorem State.portDrain_keeps (h : Keeps s0 s) : ∀ x0 x1, Keeps s0 (State.portDrain x0 x1 s) := by
  intro x0
  induction x0 generalizing s with
  | zero =>
    intros
    rw [State.portDrain]
    exact h
  | succ n ih =>
    intro x1
    rw [State.portDrain]
    repeat' first
      | with_reducible assumption
      | (intro x; refine (fun (hx : Keeps s0 x) => ?_) ?_; clear_value x; rotate_left; unfold x)
      | intro x
      | (lift_lets; intro x; try (refine (fun (hx : Keeps s0 x) => ?_) ?_; clear_value x; rotate_left; unfold x))
      | with_reducible apply Keeps.ite
      | split
      | with_reducible apply State.portFlit_keeps
      | with_reducible apply State.setPort_keeps
      | with_reducible apply ih
      | with_reducible refine Keeps.mk_ ?_ rfl rfl rfl rfl rfl rfl
      | split

theorem State.jlIssue_keeps (h : Keeps s0 s) : ∀ x1 x2 x3, Keeps s0 (State.jlIssue s x1 x2 x3) := by
  unfold State.jlIssue
  repeat' first
    | with_reducible assumption
    | (intro x; refine (fun (hx : Keeps s0 x) => ?_) ?_; clear_value x; rotate_left; unfold x)
    | intro x
    | (lift_lets; intro x; try (refine (fun (hx : Keeps s0 x) => ?_) ?_; clear_value x; rotate_left; unfold x))
    | split
    | with_reducible apply State.portSend_keeps
    | with_reducible refine Keeps.mk_ ?_ rfl rfl rfl rfl rfl rfl
    | split

theorem State.releaseHeld_keeps (h : Keeps s0 s) : ∀ x1, Keeps s0 (State.releaseHeld s x1) := by
  unfold State.releaseHeld
  repeat' first
    | with_reducible assumption
    | (intro x; refine (fun (hx : Keeps s0 x) => ?_) ?_; clear_value x; rotate_left; unfold x)
    | intro x
    | (lift_lets; intro x; try (refine (fun (hx : Keeps s0 x) => ?_) ?_; clear_value x; rotate_left; unfold x))
    | with_reducible apply Keeps.ite
    | split
    | with_reducible apply State.emit_keeps
    | with_reducible apply State.jlIssue_keeps
    | with_reducible refine Keeps.foldl ?_ ?_
    | with_reducible refine Keeps.mk_ ?_ rfl rfl rfl rfl rfl rfl
    | split

theorem State.jlRequest_keeps (h : Keeps s0 s) : ∀ x1 x2 x3 x4 x5 x6 x7, Keeps s0 (State.jlRequest s x1 x2 x3 x4 x5 x6 x7) := by
  unfold State.jlRequest
  repeat' first
    | with_reducible assumption
    | (intro x; refine (fun (hx : Keeps s0 x) => ?_) ?_; clear_value x; rotate_left; unfold x)
    | intro x
    | (lift_lets; intro x; try (refine (fun (hx : Keeps s0 x) => ?_) ?_; clear_value x; rotate_left; unfold x))
    | with_reducible apply Keeps.ite
    | split
    | with_reducible apply State.emit_keeps
    | with_reducible apply State.jlIssue_keeps
    | with_reducible refine Keeps.mk_ ?_ rfl rfl rfl rfl rfl rfl
    | split

theorem State.portDown_keeps (h : Keeps s0 s) : ∀ x1, Keeps s0 (State.portDown s x1) := by
  unfold State.portDown
  repeat' first
    | with_reducible assumption
    | (intro x; refine (fun (hx : Keeps s0 x) => ?_) ?_; clear_value x; rotate_left; unfold x)
    | intro x
    | (lift_lets; intro x; try (refine (fun (hx : Keeps s0 x) => ?_) ?_; clear_value x; rotate_left; unfold x))
    | with_reducible apply Keeps.ite
    | with_reducible apply State.leftBuffer_keeps
    | with_reducible apply State.setPort_keeps
    | with_reducible apply State.record_keeps
    | with_reducible apply State.put_keeps
    | with_reducible refine Keeps.foldl ?_ ?_
    | with_reducible refine Keeps.mk_ ?_ rfl rfl rfl rfl rfl rfl
    | split

theorem State.jlSend_keeps (h : Keeps s0 s) : ∀ x1, Keeps s0 (State.jlSend s x1) := by
  unfold State.jlSend
  repeat' first
    | with_reducible assumption
    | (intro x; refine (fun (hx : Keeps s0 x) => ?_) ?_; clear_value x; rotate_left; unfold x)
    | intro x
    | (lift_lets; intro x; try (refine (fun (hx : Keeps s0 x) => ?_) ?_; clear_value x; rotate_left; unfold x))
    | with_reducible apply Keeps.ite
    | split
    | with_reducible apply State.portSend_keeps
    | with_reducible refine Keeps.mk_ ?_ rfl rfl rfl rfl rfl rfl
    | split

theorem State.dupNote_keeps (h : Keeps s0 s) : ∀ x1 x2 x3, Keeps s0 (State.dupNote s x1 x2 x3) := by
  unfold State.dupNote
  repeat' first
    | with_reducible assumption
    | (intro x; refine (fun (hx : Keeps s0 x) => ?_) ?_; clear_value x; rotate_left; unfold x)
    | intro x
    | (lift_lets; intro x; try (refine (fun (hx : Keeps s0 x) => ?_) ?_; clear_value x; rotate_left; unfold x))
    | with_reducible apply Keeps.ite
    | split
    | with_reducible refine Keeps.mk_ ?_ rfl rfl rfl rfl rfl rfl
    | split

theorem State.dupAnswer_keeps (h : Keeps s0 s) : ∀ x1 x2, Keeps s0 (State.dupAnswer s x1 x2) := by
  unfold State.dupAnswer
  repeat' first
    | with_reducible assumption
    | (intro x; refine (fun (hx : Keeps s0 x) => ?_) ?_; clear_value x; rotate_left; unfold x)
    | intro x
    | (lift_lets; intro x; try (refine (fun (hx : Keeps s0 x) => ?_) ?_; clear_value x; rotate_left; unfold x))
    | with_reducible apply Keeps.ite
    | with_reducible apply State.jlSend_keeps
    | with_reducible apply State.bump_keeps
    | with_reducible refine Keeps.mk_ ?_ rfl rfl rfl rfl rfl rfl
    | split

theorem State.jlEpochs_keeps (h : Keeps s0 s) : ∀ x1 x2, Keeps s0 (State.jlEpochs s x1 x2) := by
  unfold State.jlEpochs
  repeat' first
    | with_reducible assumption
    | (intro x; refine (fun (hx : Keeps s0 x) => ?_) ?_; clear_value x; rotate_left; unfold x)
    | intro x
    | (lift_lets; intro x; try (refine (fun (hx : Keeps s0 x) => ?_) ?_; clear_value x; rotate_left; unfold x))
    | split
    | with_reducible apply State.portSend_keeps
    | with_reducible refine Keeps.foldl ?_ ?_
    | with_reducible refine Keeps.mk_ ?_ rfl rfl rfl rfl rfl rfl
    | split

end Sys2Proof.Machine
end

