-- ==== Sys2Proof/Laws/KeepsCohOps.lean ====
section
/-!
SUPPORT. What every operation of Machine/CohOps.lean keeps (see Laws/Keeps.lean).
-/
namespace Sys2Proof.Machine

set_option Elab.async false
set_option linter.unreachableTactic false
set_option linter.unusedTactic false

variable {s0 s t : State}

theorem State.fabric_keeps (h : Keeps s0 s) : ∀ x1, Keeps s0 (State.fabric s x1) := by
  unfold State.fabric
  repeat' first
    | with_reducible assumption
    | (intro x; refine (fun (hx : Keeps s0 x) => ?_) ?_; clear_value x; rotate_left; unfold x)
    | intro x
    | (lift_lets; intro x; try (refine (fun (hx : Keeps s0 x) => ?_) ?_; clear_value x; rotate_left; unfold x))
    | with_reducible apply Keeps.ite
    | with_reducible apply State.bump_keeps
    | with_reducible apply State.record_keeps
    | with_reducible refine Keeps.mk_ ?_ rfl rfl rfl rfl rfl rfl
    | split

theorem State.carried_keeps (h : Keeps s0 s) {go : State → State} (hg : ∀ s, Keeps s0 s → Keeps s0 (go s)) : ∀ f, Keeps s0 (State.carried s f go) := by
  intro f
  unfold State.carried
  exact Keeps.ite (State.fabric_keeps h _) (hg _ (State.fabric_keeps h _))

theorem State.seamBytes_keeps (h : Keeps s0 s) : ∀ x1 x2 x3, Keeps s0 (State.seamBytes s x1 x2 x3) := by
  unfold State.seamBytes
  repeat' first
    | with_reducible assumption
    | intro x
    | with_reducible apply Keeps.ite
    | with_reducible apply State.bump_keeps
    | with_reducible refine Keeps.mk_ ?_ rfl rfl rfl rfl rfl rfl
    | split

theorem State.pairError_keeps (h : Keeps s0 s) : ∀ x1, Keeps s0 (State.pairError s x1) := by
  unfold State.pairError
  repeat' first
    | with_reducible assumption
    | (intro x; refine (fun (hx : Keeps s0 x) => ?_) ?_; clear_value x; rotate_left; unfold x)
    | intro x
    | (lift_lets; intro x; try (refine (fun (hx : Keeps s0 x) => ?_) ?_; clear_value x; rotate_left; unfold x))
    | with_reducible apply Keeps.ite
    | split
    | with_reducible apply State.record_keeps
    | with_reducible apply State.putBitAt_keeps
    | with_reducible refine Keeps.mk_ ?_ rfl rfl rfl rfl rfl rfl
    | split

theorem State.ueMet_keeps (h : Keeps s0 s) : ∀ x1 x2 x3 x4, Keeps s0 (State.ueMet s x1 x2 x3 x4) := by
  unfold State.ueMet
  repeat' first
    | with_reducible assumption
    | (intro x; refine (fun (hx : Keeps s0 x) => ?_) ?_; clear_value x; rotate_left; unfold x)
    | intro x
    | (lift_lets; intro x; try (refine (fun (hx : Keeps s0 x) => ?_) ?_; clear_value x; rotate_left; unfold x))
    | with_reducible apply State.put_keeps
    | with_reducible apply State.bump_keeps
    | with_reducible apply State.record_keeps
    | with_reducible refine Keeps.mk_ ?_ rfl rfl rfl rfl rfl rfl

theorem State.ueRecord_keeps (h : Keeps s0 s) : ∀ x1 x2 x3, Keeps s0 (State.ueRecord s x1 x2 x3) := by
  unfold State.ueRecord
  repeat' first
    | with_reducible assumption
    | intro x
    | with_reducible apply State.ueMet_keeps
    | with_reducible refine Keeps.mk_ ?_ rfl rfl rfl rfl rfl rfl

theorem State.ueFree_keeps (h : Keeps s0 s) : ∀ x1 x2, Keeps s0 (State.ueFree s x1 x2) := by
  unfold State.ueFree
  repeat' first
    | with_reducible assumption
    | (intro x; refine (fun (hx : Keeps s0 x) => ?_) ?_; clear_value x; rotate_left; unfold x)
    | intro x
    | (lift_lets; intro x; try (refine (fun (hx : Keeps s0 x) => ?_) ?_; clear_value x; rotate_left; unfold x))
    | with_reducible apply State.takeFree_keeps
    | with_reducible apply State.ueMet_keeps
    | with_reducible refine Keeps.of_pair (by assumption) ?_
    | with_reducible refine Keeps.mk_ ?_ rfl rfl rfl rfl rfl rfl

theorem State.poisonWords_keeps (h : Keeps s0 s) : ∀ x1 x2, Keeps s0 (State.poisonWords s x1 x2) := by
  unfold State.poisonWords
  repeat' first
    | with_reducible assumption
    | intro x
    | with_reducible apply Keeps.ite
    | with_reducible apply State.setPoison_keeps
    | with_reducible refine Keeps.foldl ?_ ?_
    | with_reducible refine Keeps.mk_ ?_ rfl rfl rfl rfl rfl rfl
    | split

theorem State.meetEcc_keeps (h : Keeps s0 s) : ∀ x1 x2, Keeps s0 (State.meetEcc s x1 x2) := by
  unfold State.meetEcc
  repeat' first
    | with_reducible assumption
    | (intro x; refine (fun (hx : Keeps s0 x) => ?_) ?_; clear_value x; rotate_left; unfold x)
    | intro x
    | (lift_lets; intro x; try (refine (fun (hx : Keeps s0 x) => ?_) ?_; clear_value x; rotate_left; unfold x))
    | with_reducible apply Keeps.ite
    | split
    | with_reducible apply State.bump_keeps
    | with_reducible apply State.pairError_keeps
    | with_reducible apply State.ueRecord_keeps
    | with_reducible apply State.poisonWords_keeps
    | with_reducible refine Keeps.mk_ ?_ rfl rfl rfl rfl rfl rfl
    | split

theorem State.setBusy_keeps (h : Keeps s0 s) : ∀ x1 x2, Keeps s0 (State.setBusy s x1 x2) := by
  unfold State.setBusy
  repeat' first
    | with_reducible assumption
    | (intro x; refine (fun (hx : Keeps s0 x) => ?_) ?_; clear_value x; rotate_left; unfold x)
    | intro x
    | (lift_lets; intro x; try (refine (fun (hx : Keeps s0 x) => ?_) ?_; clear_value x; rotate_left; unfold x))
    | with_reducible refine Keeps.mk_ ?_ rfl rfl rfl rfl rfl rfl

theorem State.directoryUe_keeps (h : Keeps s0 s) : ∀ x1 x2, Keeps s0 (State.directoryUe s x1 x2) := by
  unfold State.directoryUe
  repeat' first
    | with_reducible assumption
    | intro x
    | with_reducible apply State.setDir_keeps
    | with_reducible apply State.ueRecord_keeps
    | with_reducible apply State.poisonWords_keeps
    | with_reducible refine Keeps.mk_ ?_ rfl rfl rfl rfl rfl rfl

theorem State.answerAck_keeps (h : Keeps s0 s) : ∀ x1 x2, Keeps s0 (State.answerAck s x1 x2) := by
  unfold State.answerAck
  repeat' first
    | with_reducible assumption
    | (intro x; refine (fun (hx : Keeps s0 x) => ?_) ?_; clear_value x; rotate_left; unfold x)
    | intro x
    | (lift_lets; intro x; try (refine (fun (hx : Keeps s0 x) => ?_) ?_; clear_value x; rotate_left; unfold x))
    | split
    | with_reducible apply State.jlSend_keeps
    | with_reducible apply State.emit_keeps
    | with_reducible refine Keeps.mk_ ?_ rfl rfl rfl rfl rfl rfl
    | split

theorem State.answerData_keeps (h : Keeps s0 s) : ∀ x1 x2 x3 x4 x5, Keeps s0 (State.answerData s x1 x2 x3 x4 x5) := by
  unfold State.answerData
  repeat' first
    | with_reducible assumption
    | (intro x; refine (fun (hx : Keeps s0 x) => ?_) ?_; clear_value x; rotate_left; unfold x)
    | intro x
    | (lift_lets; intro x; try (refine (fun (hx : Keeps s0 x) => ?_) ?_; clear_value x; rotate_left; unfold x))
    | with_reducible apply Keeps.ite
    | split
    | with_reducible apply State.seamBytes_keeps
    | with_reducible apply State.jlSend_keeps
    | with_reducible apply State.emit_keeps
    | with_reducible refine Keeps.mk_ ?_ rfl rfl rfl rfl rfl rfl
    | split

theorem State.grantData_keeps (h : Keeps s0 s) : ∀ x1 x2, Keeps s0 (State.grantData s x1 x2) := by
  unfold State.grantData
  repeat' first
    | with_reducible assumption
    | (intro x; refine (fun (hx : Keeps s0 x) => ?_) ?_; clear_value x; rotate_left; unfold x)
    | intro x
    | (lift_lets; intro x; try (refine (fun (hx : Keeps s0 x) => ?_) ?_; clear_value x; rotate_left; unfold x))
    | with_reducible apply Keeps.ite
    | with_reducible apply State.answerData_keeps
    | with_reducible apply State.setGranted_keeps
    | with_reducible refine Keeps.mk_ ?_ rfl rfl rfl rfl rfl rfl
    | split

theorem State.once_keeps (h : Keeps s0 s) {go : State → State} (hg : ∀ s, Keeps s0 s → Keeps s0 (go s)) : ∀ r, Keeps s0 (State.once s r go) := by
  intro r
  unfold State.once
  split
  · split
    · exact State.dupAnswer_keeps h _ _
    · exact hg _ h
  · exact hg _ h

theorem State.noteOnce_keeps (h : Keeps s0 s) : ∀ x1 x2 x3, Keeps s0 (State.noteOnce s x1 x2 x3) := by
  unfold State.noteOnce
  repeat' first
    | with_reducible assumption
    | (intro x; refine (fun (hx : Keeps s0 x) => ?_) ?_; clear_value x; rotate_left; unfold x)
    | intro x
    | (lift_lets; intro x; try (refine (fun (hx : Keeps s0 x) => ?_) ?_; clear_value x; rotate_left; unfold x))
    | split
    | with_reducible apply State.dupNote_keeps
    | with_reducible refine Keeps.mk_ ?_ rfl rfl rfl rfl rfl rfl
    | split

theorem State.performAtomic_keeps (h : Keeps s0 s) : ∀ x1 x2, Keeps s0 (State.performAtomic s x1 x2) := by
  unfold State.performAtomic
  repeat' first
    | with_reducible assumption
    | (intro x; refine (fun (hx : Keeps s0 x) => ?_) ?_; clear_value x; rotate_left; unfold x)
    | intro x
    | (lift_lets; intro x; try (refine (fun (hx : Keeps s0 x) => ?_) ?_; clear_value x; rotate_left; unfold x))
    | with_reducible apply Keeps.ite
    | with_reducible apply State.answerData_keeps
    | with_reducible apply State.noteOnce_keeps
    | with_reducible apply State.wrNat_keeps
    | with_reducible refine Keeps.mk_ ?_ rfl rfl rfl rfl rfl rfl
    | split

theorem State.performWrite_keeps (h : Keeps s0 s) : ∀ x1, Keeps s0 (State.performWrite s x1) := by
  unfold State.performWrite
  repeat' first
    | with_reducible assumption
    | (intro x; refine (fun (hx : Keeps s0 x) => ?_) ?_; clear_value x; rotate_left; unfold x)
    | intro x
    | (lift_lets; intro x; try (refine (fun (hx : Keeps s0 x) => ?_) ?_; clear_value x; rotate_left; unfold x))
    | with_reducible apply Keeps.ite
    | with_reducible apply State.meetEcc_keeps
    | with_reducible apply State.answerAck_keeps
    | with_reducible apply State.noteOnce_keeps
    | with_reducible apply State.wrLine_keeps
    | with_reducible refine Keeps.mk_ ?_ rfl rfl rfl rfl rfl rfl
    | split

theorem State.finish_keeps (h : Keeps s0 s) : ∀ x1, Keeps s0 (State.finish s x1) := by
  unfold State.finish
  repeat' first
    | with_reducible assumption
    | (intro x; refine (fun (hx : Keeps s0 x) => ?_) ?_; clear_value x; rotate_left; unfold x)
    | intro x
    | (lift_lets; intro x; try (refine (fun (hx : Keeps s0 x) => ?_) ?_; clear_value x; rotate_left; unfold x))
    | with_reducible apply Keeps.ite
    | split
    | with_reducible apply State.meetEcc_keeps
    | with_reducible apply State.grantData_keeps
    | with_reducible apply State.setDir_keeps
    | with_reducible apply State.setGranted_keeps
    | with_reducible apply State.answerAck_keeps
    | with_reducible apply State.answerData_keeps
    | with_reducible apply State.once_keeps
    | with_reducible apply State.performWrite_keeps
    | with_reducible apply State.performAtomic_keeps
    | with_reducible refine Keeps.mk_ ?_ rfl rfl rfl rfl rfl rfl
    | split

theorem State.serve_keeps (h : Keeps s0 s) : ∀ x1 x2, Keeps s0 (State.serve s x1 x2) := by
  unfold State.serve
  repeat' first
    | with_reducible assumption
    | (intro x; refine (fun (hx : Keeps s0 x) => ?_) ?_; clear_value x; rotate_left; unfold x)
    | intro x
    | (lift_lets; intro x; try (refine (fun (hx : Keeps s0 x) => ?_) ?_; clear_value x; rotate_left; unfold x))
    | with_reducible apply Keeps.ite
    | split
    | with_reducible apply State.directoryUe_keeps
    | with_reducible apply State.raise_keeps
    | with_reducible apply State.setBusy_keeps
    | with_reducible apply State.leave_keeps
    | with_reducible apply State.emit_keeps
    | with_reducible refine Keeps.foldl ?_ ?_
    | with_reducible refine Keeps.mk_ ?_ rfl rfl rfl rfl rfl rfl
    | split

theorem State.reserve_keeps (h : Keeps s0 s) : ∀ x1 x2 x3, Keeps s0 (State.reserve s x1 x2 x3) := by
  unfold State.reserve
  repeat' first
    | with_reducible assumption
    | (intro x; refine (fun (hx : Keeps s0 x) => ?_) ?_; clear_value x; rotate_left; unfold x)
    | intro x
    | (lift_lets; intro x; try (refine (fun (hx : Keeps s0 x) => ?_) ?_; clear_value x; rotate_left; unfold x))
    | split
    | with_reducible refine Keeps.mk_ ?_ rfl rfl rfl rfl rfl rfl
    | split

theorem State.pump_keeps (h : Keeps s0 s) : ∀ x0 x1, Keeps s0 (State.pump x0 x1 s) := by
  intro x0
  induction x0 generalizing s with
  | zero =>
    intros
    rw [State.pump]
    exact h
  | succ n ih =>
    intro x1
    rw [State.pump]
    repeat' first
      | with_reducible assumption
      | (intro x; refine (fun (hx : Keeps s0 x) => ?_) ?_; clear_value x; rotate_left; unfold x)
      | intro x
      | (lift_lets; intro x; try (refine (fun (hx : Keeps s0 x) => ?_) ?_; clear_value x; rotate_left; unfold x))
      | with_reducible apply Keeps.ite
      | split
      | with_reducible apply State.finish_keeps
      | with_reducible apply State.reserve_keeps
      | with_reducible apply State.serve_keeps
      | with_reducible apply State.setBusy_keeps
      | with_reducible apply ih
      | with_reducible refine Keeps.mk_ ?_ rfl rfl rfl rfl rfl rfl
      | split

theorem State.answerRetry_keeps (h : Keeps s0 s) : ∀ x1 x2 x3, Keeps s0 (State.answerRetry s x1 x2 x3) := by
  unfold State.answerRetry
  repeat' first
    | with_reducible assumption
    | (intro x; refine (fun (hx : Keeps s0 x) => ?_) ?_; clear_value x; rotate_left; unfold x)
    | intro x
    | (lift_lets; intro x; try (refine (fun (hx : Keeps s0 x) => ?_) ?_; clear_value x; rotate_left; unfold x))
    | with_reducible apply State.emit_keeps
    | with_reducible apply State.bump_keeps
    | with_reducible refine Keeps.mk_ ?_ rfl rfl rfl rfl rfl rfl

theorem State.serveTicket_keeps (h : Keeps s0 s) : ∀ x1 x2 x3, Keeps s0 (State.serveTicket s x1 x2 x3) := by
  unfold State.serveTicket
  repeat' first
    | with_reducible assumption
    | (intro x; refine (fun (hx : Keeps s0 x) => ?_) ?_; clear_value x; rotate_left; unfold x)
    | intro x
    | (lift_lets; intro x; try (refine (fun (hx : Keeps s0 x) => ?_) ?_; clear_value x; rotate_left; unfold x))
    | split
    | with_reducible refine Keeps.mk_ ?_ rfl rfl rfl rfl rfl rfl
    | split

theorem State.arrive_keeps (h : Keeps s0 s) : ∀ x1 x2, Keeps s0 (State.arrive s x1 x2) := by
  unfold State.arrive
  repeat' first
    | with_reducible assumption
    | (intro x; refine (fun (hx : Keeps s0 x) => ?_) ?_; clear_value x; rotate_left; unfold x)
    | intro x
    | (lift_lets; intro x; try (refine (fun (hx : Keeps s0 x) => ?_) ?_; clear_value x; rotate_left; unfold x))
    | with_reducible apply Keeps.ite
    | split
    | with_reducible apply State.seamBytes_keeps
    | with_reducible apply State.serveTicket_keeps
    | with_reducible apply State.raise_keeps
    | with_reducible apply State.setBusy_keeps
    | with_reducible apply State.answerRetry_keeps
    | with_reducible apply State.pump_keeps
    | with_reducible apply State.serve_keeps
    | with_reducible refine Keeps.mk_ ?_ rfl rfl rfl rfl rfl rfl
    | split

theorem State.notePend_keeps (h : Keeps s0 s) : ∀ x1, Keeps s0 (State.notePend s x1) := by
  unfold State.notePend
  repeat' first
    | with_reducible assumption
    | (intro x; refine (fun (hx : Keeps s0 x) => ?_) ?_; clear_value x; rotate_left; unfold x)
    | intro x
    | (lift_lets; intro x; try (refine (fun (hx : Keeps s0 x) => ?_) ?_; clear_value x; rotate_left; unfold x))
    | split
    | with_reducible apply State.setPend_keeps
    | with_reducible refine Keeps.mk_ ?_ rfl rfl rfl rfl rfl rfl
    | split

theorem State.turnAway_keeps (h : Keeps s0 s) : ∀ x1 x2, Keeps s0 (State.turnAway s x1 x2) := by
  unfold State.turnAway
  repeat' first
    | with_reducible assumption
    | (intro x; refine (fun (hx : Keeps s0 x) => ?_) ?_; clear_value x; rotate_left; unfold x)
    | intro x
    | (lift_lets; intro x; try (refine (fun (hx : Keeps s0 x) => ?_) ?_; clear_value x; rotate_left; unfold x))
    | with_reducible apply Keeps.ite
    | with_reducible apply State.emit_keeps
    | with_reducible apply State.bump_keeps
    | with_reducible apply State.answerAck_keeps
    | with_reducible refine Keeps.mk_ ?_ rfl rfl rfl rfl rfl rfl
    | split

theorem State.uncachedAccess_keeps (h : Keeps s0 s) : ∀ x1, Keeps s0 (State.uncachedAccess s x1) := by
  unfold State.uncachedAccess
  repeat' first
    | with_reducible assumption
    | (intro x; refine (fun (hx : Keeps s0 x) => ?_) ?_; clear_value x; rotate_left; unfold x)
    | intro x
    | (lift_lets; intro x; try (refine (fun (hx : Keeps s0 x) => ?_) ?_; clear_value x; rotate_left; unfold x))
    | with_reducible apply Keeps.ite
    | split
    | with_reducible apply State.answerAck_keeps
    | with_reducible apply State.answerData_keeps
    | with_reducible apply State.seamBytes_keeps
    | with_reducible apply State.once_keeps
    | with_reducible apply State.performWrite_keeps
    | with_reducible apply State.meetEcc_keeps
    | with_reducible refine Keeps.mk_ ?_ rfl rfl rfl rfl rfl rfl
    | split

theorem State.letIn_keeps (h : Keeps s0 s) : ∀ x1 x2, Keeps s0 (State.letIn s x1 x2) := by
  unfold State.letIn
  repeat' first
    | with_reducible assumption
    | (intro x; refine (fun (hx : Keeps s0 x) => ?_) ?_; clear_value x; rotate_left; unfold x)
    | intro x
    | (lift_lets; intro x; try (refine (fun (hx : Keeps s0 x) => ?_) ?_; clear_value x; rotate_left; unfold x))
    | with_reducible apply Keeps.ite
    | with_reducible apply State.notePend_keeps
    | with_reducible apply State.arrive_keeps
    | with_reducible apply State.uncachedAccess_keeps
    | with_reducible refine Keeps.mk_ ?_ rfl rfl rfl rfl rfl rfl
    | split

theorem State.sendRemote_keeps (h : Keeps s0 s) : ∀ x1, Keeps s0 (State.sendRemote s x1) := by
  unfold State.sendRemote
  repeat' first
    | with_reducible assumption
    | (intro x; refine (fun (hx : Keeps s0 x) => ?_) ?_; clear_value x; rotate_left; unfold x)
    | intro x
    | (lift_lets; intro x; try (refine (fun (hx : Keeps s0 x) => ?_) ?_; clear_value x; rotate_left; unfold x))
    | with_reducible apply Keeps.ite
    | split
    | with_reducible apply State.jlRequest_keeps
    | with_reducible apply State.answerAck_keeps
    | with_reducible refine Keeps.mk_ ?_ rfl rfl rfl rfl rfl rfl
    | split

theorem State.holdWake_keeps (h : Keeps s0 s) : ∀ x1 x2 x3, Keeps s0 (State.holdWake s x1 x2 x3) := by
  unfold State.holdWake
  repeat' first
    | with_reducible assumption
    | (intro x; refine (fun (hx : Keeps s0 x) => ?_) ?_; clear_value x; rotate_left; unfold x)
    | intro x
    | (lift_lets; intro x; try (refine (fun (hx : Keeps s0 x) => ?_) ?_; clear_value x; rotate_left; unfold x))
    | with_reducible refine Keeps.mk_ ?_ rfl rfl rfl rfl rfl rfl

theorem State.issue_keeps (h : Keeps s0 s) : ∀ x1 x2, Keeps s0 (State.issue s x1 x2) := by
  unfold State.issue
  repeat' first
    | with_reducible assumption
    | (intro x; refine (fun (hx : Keeps s0 x) => ?_) ?_; clear_value x; rotate_left; unfold x)
    | intro x
    | (lift_lets; intro x; try (refine (fun (hx : Keeps s0 x) => ?_) ?_; clear_value x; rotate_left; unfold x))
    | with_reducible apply Keeps.ite
    | split
    | with_reducible apply State.answerAck_keeps
    | with_reducible apply State.sendRemote_keeps
    | with_reducible apply State.holdWake_keeps
    | with_reducible apply State.gate_keeps
    | with_reducible apply State.turnAway_keeps
    | with_reducible apply State.letIn_keeps
    | with_reducible refine Keeps.of_pair (by assumption) ?_
    | with_reducible refine Keeps.mk_ ?_ rfl rfl rfl rfl rfl rfl
    | split

theorem State.holdOp_keeps (h : Keeps s0 s) : ∀ x1 x2, Keeps s0 (State.holdOp s x1 x2) := by
  unfold State.holdOp
  repeat' first
    | with_reducible assumption
    | (intro x; refine (fun (hx : Keeps s0 x) => ?_) ?_; clear_value x; rotate_left; unfold x)
    | intro x
    | (lift_lets; intro x; try (refine (fun (hx : Keeps s0 x) => ?_) ?_; clear_value x; rotate_left; unfold x))
    | with_reducible refine Keeps.mk_ ?_ rfl rfl rfl rfl rfl rfl

theorem State.request_keeps (h : Keeps s0 s) : ∀ x1 x2, Keeps s0 (State.request s x1 x2) := by
  unfold State.request
  repeat' first
    | with_reducible assumption
    | (intro x; refine (fun (hx : Keeps s0 x) => ?_) ?_; clear_value x; rotate_left; unfold x)
    | intro x
    | (lift_lets; intro x; try (refine (fun (hx : Keeps s0 x) => ?_) ?_; clear_value x; rotate_left; unfold x))
    | with_reducible apply Keeps.ite
    | split
    | with_reducible apply State.issue_keeps
    | with_reducible apply State.holdOp_keeps
    | with_reducible refine Keeps.mk_ ?_ rfl rfl rfl rfl rfl rfl
    | split

theorem State.snoopAnswer_keeps (h : Keeps s0 s) : ∀ x1 x2 x3, Keeps s0 (State.snoopAnswer s x1 x2 x3) := by
  unfold State.snoopAnswer
  repeat' first
    | with_reducible assumption
    | (intro x; refine (fun (hx : Keeps s0 x) => ?_) ?_; clear_value x; rotate_left; unfold x)
    | intro x
    | (lift_lets; intro x; try (refine (fun (hx : Keeps s0 x) => ?_) ?_; clear_value x; rotate_left; unfold x))
    | with_reducible apply Keeps.ite
    | split
    | with_reducible apply State.setGranted_keeps
    | with_reducible apply State.pump_keeps
    | with_reducible apply State.setBusy_keeps
    | with_reducible apply State.setDir_keeps
    | with_reducible refine Keeps.mk_ ?_ rfl rfl rfl rfl rfl rfl
    | split

theorem State.snoopData_keeps (h : Keeps s0 s) : ∀ x1 x2 x3 x4, Keeps s0 (State.snoopData s x1 x2 x3 x4) := by
  unfold State.snoopData
  repeat' first
    | with_reducible assumption
    | (intro x; refine (fun (hx : Keeps s0 x) => ?_) ?_; clear_value x; rotate_left; unfold x)
    | intro x
    | (lift_lets; intro x; try (refine (fun (hx : Keeps s0 x) => ?_) ?_; clear_value x; rotate_left; unfold x))
    | with_reducible apply Keeps.ite
    | split
    | with_reducible apply State.snoopAnswer_keeps
    | with_reducible apply State.setOver_keeps
    | with_reducible apply State.setFlight_keeps
    | with_reducible apply State.sink_keeps
    | with_reducible refine Keeps.mk_ ?_ rfl rfl rfl rfl rfl rfl
    | split

theorem State.evicted_keeps (h : Keeps s0 s) : ∀ x1 x2, Keeps s0 (State.evicted s x1 x2) := by
  unfold State.evicted
  repeat' first
    | with_reducible assumption
    | (intro x; refine (fun (hx : Keeps s0 x) => ?_) ?_; clear_value x; rotate_left; unfold x)
    | intro x
    | (lift_lets; intro x; try (refine (fun (hx : Keeps s0 x) => ?_) ?_; clear_value x; rotate_left; unfold x))
    | split
    | with_reducible apply State.setDir_keeps
    | with_reducible apply State.setGranted_keeps
    | with_reducible apply State.setOver_keeps
    | with_reducible apply State.setFlight_keeps
    | with_reducible apply State.setCopy_keeps
    | with_reducible apply State.pump_keeps
    | with_reducible apply State.setBusy_keeps
    | with_reducible refine Keeps.mk_ ?_ rfl rfl rfl rfl rfl rfl
    | split

theorem State.readCopy_keeps (h : Keeps s0 s) : ∀ x1 x2 x3, Keeps s0 (State.readCopy s x1 x2 x3).2 := by
  unfold State.readCopy
  repeat' first
    | with_reducible assumption
    | (intro x; refine (fun (hx : Keeps s0 x) => ?_) ?_; clear_value x; rotate_left; unfold x)
    | intro x
    | (lift_lets; intro x; try (refine (fun (hx : Keeps s0 x) => ?_) ?_; clear_value x; rotate_left; unfold x))
    | with_reducible apply Keeps.ite
    | with_reducible apply Keeps.ite2
    | split
    | with_reducible apply State.bump_keeps
    | with_reducible apply State.ueRecord_keeps
    | with_reducible refine Keeps.mk_ ?_ rfl rfl rfl rfl rfl rfl
    | split

theorem State.answerSnoop_keeps (h : Keeps s0 s) : ∀ x1 x2 x3 x4, Keeps s0 (State.answerSnoop s x1 x2 x3 x4) := by
  unfold State.answerSnoop
  repeat' first
    | with_reducible assumption
    | (intro x; refine (fun (hx : Keeps s0 x) => ?_) ?_; clear_value x; rotate_left; unfold x)
    | intro x
    | (lift_lets; intro x; try (refine (fun (hx : Keeps s0 x) => ?_) ?_; clear_value x; rotate_left; unfold x))
    | with_reducible apply Keeps.ite
    | split
    | with_reducible apply State.emit_keeps
    | with_reducible apply State.readCopy_keeps
    | with_reducible apply State.setCopy_keeps
    | with_reducible apply State.seamBytes_keeps
    | with_reducible apply State.setFlight_keeps
    | with_reducible refine Keeps.of_pair (by assumption) ?_
    | with_reducible refine Keeps.mk_ ?_ rfl rfl rfl rfl rfl rfl
    | split

theorem State.snooped_keeps (h : Keeps s0 s) : ∀ x1 x2 x3 x4 x5 x6, Keeps s0 (State.snooped s x1 x2 x3 x4 x5 x6) := by
  unfold State.snooped
  repeat' first
    | with_reducible assumption
    | (intro x; refine (fun (hx : Keeps s0 x) => ?_) ?_; clear_value x; rotate_left; unfold x)
    | intro x
    | (lift_lets; intro x; try (refine (fun (hx : Keeps s0 x) => ?_) ?_; clear_value x; rotate_left; unfold x))
    | with_reducible apply Keeps.ite
    | with_reducible apply State.emit_keeps
    | with_reducible apply State.leave_keeps
    | with_reducible apply State.answerSnoop_keeps
    | with_reducible refine Keeps.mk_ ?_ rfl rfl rfl rfl rfl rfl
    | split

theorem State.install_keeps (h : Keeps s0 s) : ∀ x1 x2 x3 x4 x5, Keeps s0 (State.install s x1 x2 x3 x4 x5) := by
  unfold State.install
  dsimp only
  repeat' first
    | with_reducible assumption
    | (intro x; refine (fun (hx : Keeps s0 x) => ?_) ?_; clear_value x; rotate_left; unfold x)
    | intro x
    | (lift_lets; intro x; try (refine (fun (hx : Keeps s0 x) => ?_) ?_; clear_value x; rotate_left; unfold x))
    | with_reducible apply Keeps.ite
    | split
    | with_reducible apply State.setGranted_keeps
    | with_reducible apply State.setOver_keeps
    | with_reducible apply State.setPend_keeps
    | with_reducible apply State.setCopy_keeps
    | with_reducible apply State.answerSnoop_keeps
    | with_reducible refine Keeps.mk_ ?_ rfl rfl rfl rfl rfl rfl
    | split

theorem State.recallLine_keeps (h : Keeps s0 s) : ∀ x1, Keeps s0 (State.recallLine s x1) := by
  unfold State.recallLine
  repeat' first
    | with_reducible assumption
    | (intro x; refine (fun (hx : Keeps s0 x) => ?_) ?_; clear_value x; rotate_left; unfold x)
    | intro x
    | (lift_lets; intro x; try (refine (fun (hx : Keeps s0 x) => ?_) ?_; clear_value x; rotate_left; unfold x))
    | with_reducible apply Keeps.ite
    | split
    | with_reducible apply State.emit_keeps
    | with_reducible apply State.setCopy_keeps
    | with_reducible apply State.wrLine_keeps
    | with_reducible apply State.setDir_keeps
    | with_reducible refine Keeps.foldl ?_ ?_
    | with_reducible refine Keeps.mk_ ?_ rfl rfl rfl rfl rfl rfl
    | split

theorem State.setLock_keeps (h : Keeps s0 s) : ∀ x1 x2, Keeps s0 (State.setLock s x1 x2) := by
  unfold State.setLock
  repeat' first
    | with_reducible assumption
    | (intro x; refine (fun (hx : Keeps s0 x) => ?_) ?_; clear_value x; rotate_left; unfold x)
    | intro x
    | (lift_lets; intro x; try (refine (fun (hx : Keeps s0 x) => ?_) ?_; clear_value x; rotate_left; unfold x))
    | with_reducible refine Keeps.mk_ ?_ rfl rfl rfl rfl rfl rfl

theorem State.passOrphan_keeps (h : Keeps s0 s) : ∀ x1, Keeps s0 (State.passOrphan s x1) := by
  unfold State.passOrphan
  repeat' first
    | with_reducible assumption
    | (intro x; refine (fun (hx : Keeps s0 x) => ?_) ?_; clear_value x; rotate_left; unfold x)
    | intro x
    | (lift_lets; intro x; try (refine (fun (hx : Keeps s0 x) => ?_) ?_; clear_value x; rotate_left; unfold x))
    | with_reducible apply Keeps.ite
    | split
    | with_reducible apply State.emit_keeps
    | with_reducible apply State.setLock_keeps
    | with_reducible refine Keeps.mk_ ?_ rfl rfl rfl rfl rfl rfl
    | split

theorem State.orphan_keeps (h : Keeps s0 s) : ∀ x1, Keeps s0 (State.orphan s x1) := by
  unfold State.orphan
  repeat' first
    | with_reducible assumption
    | (intro x; refine (fun (hx : Keeps s0 x) => ?_) ?_; clear_value x; rotate_left; unfold x)
    | intro x
    | (lift_lets; intro x; try (refine (fun (hx : Keeps s0 x) => ?_) ?_; clear_value x; rotate_left; unfold x))
    | with_reducible apply State.passOrphan_keeps
    | with_reducible apply State.bump_keeps
    | with_reducible apply State.setLock_keeps
    | with_reducible refine Keeps.mk_ ?_ rfl rfl rfl rfl rfl rfl

theorem State.orphanAll_keeps (h : Keeps s0 s) : ∀ x1, Keeps s0 (State.orphanAll s x1) := by
  unfold State.orphanAll
  repeat' first
    | with_reducible assumption
    | (intro x; refine (fun (hx : Keeps s0 x) => ?_) ?_; clear_value x; rotate_left; unfold x)
    | intro x
    | (lift_lets; intro x; try (refine (fun (hx : Keeps s0 x) => ?_) ?_; clear_value x; rotate_left; unfold x))
    | with_reducible apply Keeps.ite
    | with_reducible apply State.orphan_keeps
    | with_reducible refine Keeps.foldl ?_ ?_
    | with_reducible refine Keeps.mk_ ?_ rfl rfl rfl rfl rfl rfl
    | split

theorem State.lockDenied_keeps (h : Keeps s0 s) : ∀ x1 x2, Keeps s0 (State.lockDenied s x1 x2) := by
  unfold State.lockDenied
  repeat' first
    | with_reducible assumption
    | intro x
    | with_reducible apply State.emit_keeps
    | with_reducible apply State.record_keeps
    | with_reducible apply State.bump_keeps
    | with_reducible refine Keeps.mk_ ?_ rfl rfl rfl rfl rfl rfl
    | split

theorem State.lockUe_keeps (h : Keeps s0 s) : ∀ x1 x2, Keeps s0 (State.lockUe s x1 x2) := by
  unfold State.lockUe
  repeat' first
    | with_reducible assumption
    | (intro x; refine (fun (hx : Keeps s0 x) => ?_) ?_; clear_value x; rotate_left; unfold x)
    | intro x
    | (lift_lets; intro x; try (refine (fun (hx : Keeps s0 x) => ?_) ?_; clear_value x; rotate_left; unfold x))
    | with_reducible apply Keeps.ite
    | with_reducible apply State.put_keeps
    | with_reducible apply State.bump_keeps
    | with_reducible apply State.record_keeps
    | with_reducible apply State.emit_keeps
    | with_reducible apply State.setLock_keeps
    | with_reducible apply State.passOrphan_keeps
    | with_reducible refine Keeps.foldl ?_ ?_
    | with_reducible refine Keeps.mk_ ?_ rfl rfl rfl rfl rfl rfl
    | split

theorem State.lockGate_keeps (h : Keeps s0 s) : ∀ x1 x2, KeepsO s0 (State.lockGate s x1 x2) := by
  unfold State.lockGate
  repeat' first
    | with_reducible assumption
    | (intro x; refine (fun (hx : Keeps s0 x) => ?_) ?_; clear_value x; rotate_left; unfold x)
    | intro x
    | (lift_lets; intro x; try (refine (fun (hx : Keeps s0 x) => ?_) ?_; clear_value x; rotate_left; unfold x))
    | with_reducible apply Keeps.ite
    | with_reducible apply KeepsO.ite
    | with_reducible refine KeepsO.some ?_
    | with_reducible exact KeepsO.none
    | with_reducible apply State.emit_keeps
    | with_reducible apply State.bump_keeps
    | with_reducible apply State.lockDenied_keeps
    | with_reducible refine Keeps.mk_ ?_ rfl rfl rfl rfl rfl rfl
    | split

theorem State.lockRefuse_keeps (h : Keeps s0 s) : ∀ x1 x2 x3, Keeps s0 (State.lockRefuse s x1 x2 x3) := by
  unfold State.lockRefuse
  repeat' first
    | with_reducible assumption
    | (intro x; refine (fun (hx : Keeps s0 x) => ?_) ?_; clear_value x; rotate_left; unfold x)
    | intro x
    | (lift_lets; intro x; try (refine (fun (hx : Keeps s0 x) => ?_) ?_; clear_value x; rotate_left; unfold x))
    | with_reducible apply Keeps.ite
    | with_reducible apply State.bump_keeps
    | with_reducible apply State.emit_keeps
    | with_reducible refine Keeps.mk_ ?_ rfl rfl rfl rfl rfl rfl
    | split

theorem State.meetLockEcc_keeps (h : Keeps s0 s) : ∀ x1, Keeps s0 (State.meetLockEcc s x1) := by
  unfold State.meetLockEcc
  repeat' first
    | with_reducible assumption
    | intro x
    | with_reducible apply Keeps.ite
    | with_reducible apply State.lockUe_keeps
    | with_reducible refine Keeps.mk_ ?_ rfl rfl rfl rfl rfl rfl
    | split

theorem State.acquire_keeps (h : Keeps s0 s) : ∀ x1 x2 x3 x4, Keeps s0 (State.acquire s x1 x2 x3 x4) := by
  unfold State.acquire
  repeat' first
    | with_reducible assumption
    | (intro x; refine (fun (hx : Keeps s0 x) => ?_) ?_; clear_value x; rotate_left; unfold x)
    | intro x
    | (lift_lets; intro x; try (refine (fun (hx : Keeps s0 x) => ?_) ?_; clear_value x; rotate_left; unfold x))
    | with_reducible apply Keeps.ite
    | with_reducible apply State.emit_keeps
    | with_reducible apply State.setLock_keeps
    | with_reducible apply State.lockRefuse_keeps
    | with_reducible refine Keeps.mk_ ?_ rfl rfl rfl rfl rfl rfl
    | split

theorem State.release_keeps (h : Keeps s0 s) : ∀ x1 x2, Keeps s0 (State.release s x1 x2) := by
  unfold State.release
  repeat' first
    | with_reducible assumption
    | (intro x; refine (fun (hx : Keeps s0 x) => ?_) ?_; clear_value x; rotate_left; unfold x)
    | intro x
    | (lift_lets; intro x; try (refine (fun (hx : Keeps s0 x) => ?_) ?_; clear_value x; rotate_left; unfold x))
    | with_reducible apply Keeps.ite
    | split
    | with_reducible apply State.emit_keeps
    | with_reducible apply State.setLock_keeps
    | with_reducible apply State.lockRefuse_keeps
    | with_reducible refine Keeps.mk_ ?_ rfl rfl rfl rfl rfl rfl
    | split

theorem State.lockServe_keeps (h : Keeps s0 s) : ∀ x1 x2 x3, Keeps s0 (State.lockServe s x1 x2 x3) := by
  unfold State.lockServe
  repeat' first
    | with_reducible assumption
    | (intro x; refine (fun (hx : Keeps s0 x) => ?_) ?_; clear_value x; rotate_left; unfold x)
    | intro x
    | (lift_lets; intro x; try (refine (fun (hx : Keeps s0 x) => ?_) ?_; clear_value x; rotate_left; unfold x))
    | with_reducible apply Keeps.ite
    | split
    | with_reducible apply State.holdWake_keeps
    | with_reducible apply State.meetLockEcc_keeps
    | with_reducible apply State.seamBytes_keeps
    | with_reducible apply State.acquire_keeps
    | with_reducible apply State.release_keeps
    | with_reducible apply State.emit_keeps
    | with_reducible refine (State.lockGate_keeps ?_ _ _ ).out _ (by assumption)
    | with_reducible apply State.lockGate_keeps
    | with_reducible refine Keeps.mk_ ?_ rfl rfl rfl rfl rfl rfl
    | split

theorem State.lockRequest_keeps (h : Keeps s0 s) : ∀ x1 x2 x3, Keeps s0 (State.lockRequest s x1 x2 x3) := by
  unfold State.lockRequest
  repeat' first
    | with_reducible assumption
    | intro x
    | with_reducible apply Keeps.ite
    | with_reducible apply State.holdOp_keeps
    | with_reducible apply State.lockServe_keeps
    | with_reducible refine Keeps.mk_ ?_ rfl rfl rfl rfl rfl rfl
    | split

theorem State.settle_keeps (h : Keeps s0 s) : Keeps s0 (State.settle s) := by
  unfold State.settle
  repeat' first
    | with_reducible assumption
    | (intro x; refine (fun (hx : Keeps s0 x) => ?_) ?_; clear_value x; rotate_left; unfold x)
    | intro x
    | (lift_lets; intro x; try (refine (fun (hx : Keeps s0 x) => ?_) ?_; clear_value x; rotate_left; unfold x))
    | with_reducible apply Keeps.ite
    | split
    | with_reducible apply State.holdOp_keeps
    | with_reducible apply State.lockServe_keeps
    | with_reducible apply State.issue_keeps
    | with_reducible refine Keeps.foldl ?_ ?_
    | with_reducible refine Keeps.mk_ ?_ rfl rfl rfl rfl rfl rfl
    | split

theorem State.takeWake_keeps (h : Keeps s0 s) : ∀ x1, Keeps s0 (State.takeWake s x1).2 := by
  unfold State.takeWake
  repeat' first
    | with_reducible assumption
    | (intro x; refine (fun (hx : Keeps s0 x) => ?_) ?_; clear_value x; rotate_left; unfold x)
    | intro x
    | (lift_lets; intro x; try (refine (fun (hx : Keeps s0 x) => ?_) ?_; clear_value x; rotate_left; unfold x))
    | with_reducible refine Keeps.mk_ ?_ rfl rfl rfl rfl rfl rfl

theorem State.wakeGo_keeps (h : Keeps s0 s) : ∀ x1, Keeps s0 (State.wakeGo s x1) := by
  unfold State.wakeGo
  repeat' first
    | with_reducible assumption
    | (intro x; refine (fun (hx : Keeps s0 x) => ?_) ?_; clear_value x; rotate_left; unfold x)
    | intro x
    | (lift_lets; intro x; try (refine (fun (hx : Keeps s0 x) => ?_) ?_; clear_value x; rotate_left; unfold x))
    | split
    | with_reducible apply State.takeWake_keeps
    | with_reducible apply State.lockServe_keeps
    | with_reducible apply State.issue_keeps
    | with_reducible refine Keeps.foldl ?_ ?_
    | with_reducible refine Keeps.of_pair (by assumption) ?_
    | with_reducible refine Keeps.mk_ ?_ rfl rfl rfl rfl rfl rfl
    | split

theorem State.wakeLost_keeps (h : Keeps s0 s) : ∀ x1, Keeps s0 (State.wakeLost s x1) := by
  unfold State.wakeLost
  repeat' first
    | with_reducible assumption
    | (intro x; refine (fun (hx : Keeps s0 x) => ?_) ?_; clear_value x; rotate_left; unfold x)
    | intro x
    | (lift_lets; intro x; try (refine (fun (hx : Keeps s0 x) => ?_) ?_; clear_value x; rotate_left; unfold x))
    | split
    | with_reducible apply State.takeWake_keeps
    | with_reducible apply State.emit_keeps
    | with_reducible apply State.answerAck_keeps
    | with_reducible refine Keeps.foldl ?_ ?_
    | with_reducible refine Keeps.of_pair (by assumption) ?_
    | with_reducible refine Keeps.mk_ ?_ rfl rfl rfl rfl rfl rfl
    | split

theorem State.dropAgent_keeps (h : Keeps s0 s) : ∀ x1, Keeps s0 (State.dropAgent s x1) := by
  unfold State.dropAgent
  repeat' first
    | with_reducible assumption
    | (intro x; refine (fun (hx : Keeps s0 x) => ?_) ?_; clear_value x; rotate_left; unfold x)
    | intro x
    | (lift_lets; intro x; try (refine (fun (hx : Keeps s0 x) => ?_) ?_; clear_value x; rotate_left; unfold x))
    | with_reducible apply Keeps.ite
    | split
    | with_reducible apply State.record_keeps
    | with_reducible apply State.poisonWords_keeps
    | with_reducible apply State.setDir_keeps
    | with_reducible apply State.setGranted_keeps
    | with_reducible apply State.pump_keeps
    | with_reducible apply State.setBusy_keeps
    | with_reducible refine Keeps.foldl ?_ ?_
    | with_reducible refine Keeps.mk_ ?_ rfl rfl rfl rfl rfl rfl
    | split

theorem State.dropHeld_keeps (h : Keeps s0 s) : ∀ x1 x2, Keeps s0 (State.dropHeld s x1 x2) := by
  unfold State.dropHeld
  repeat' first
    | with_reducible assumption
    | (intro x; refine (fun (hx : Keeps s0 x) => ?_) ?_; clear_value x; rotate_left; unfold x)
    | intro x
    | (lift_lets; intro x; try (refine (fun (hx : Keeps s0 x) => ?_) ?_; clear_value x; rotate_left; unfold x))
    | with_reducible refine Keeps.mk_ ?_ rfl rfl rfl rfl rfl rfl

end Sys2Proof.Machine
end

