-- ==== Sys2Proof/Laws/KeepsLaneOps.lean ====
section
/-!
SUPPORT. What every operation of Machine/LaneOps.lean keeps (see Laws/Keeps.lean).
-/
namespace Sys2Proof.Machine

set_option Elab.async false
set_option linter.unreachableTactic false
set_option linter.unusedTactic false

variable {s0 s t : State}

theorem State.setLane_keeps (h : Keeps s0 s) : ∀ x1 x2, Keeps s0 (State.setLane s x1 x2) := by
  unfold State.setLane
  repeat' first
    | with_reducible assumption
    | (intro x; refine (fun (hx : Keeps s0 x) => ?_) ?_; clear_value x; rotate_left; unfold x)
    | intro x
    | (lift_lets; intro x; try (refine (fun (hx : Keeps s0 x) => ?_) ?_; clear_value x; rotate_left; unfold x))
    | with_reducible refine Keeps.mk_ ?_ rfl rfl rfl rfl rfl rfl

theorem State.laneLose_keeps (h : Keeps s0 s) : ∀ x1 x2 x3, Keeps s0 (State.laneLose s x1 x2 x3) := by
  unfold State.laneLose
  repeat' first
    | with_reducible assumption
    | (intro x; refine (fun (hx : Keeps s0 x) => ?_) ?_; clear_value x; rotate_left; unfold x)
    | intro x
    | (lift_lets; intro x; try (refine (fun (hx : Keeps s0 x) => ?_) ?_; clear_value x; rotate_left; unfold x))
    | with_reducible apply Keeps.ite
    | with_reducible apply State.bump_keeps
    | with_reducible apply State.setLane_keeps
    | with_reducible refine Keeps.mk_ ?_ rfl rfl rfl rfl rfl rfl
    | split

theorem State.markAll_keeps (h : Keeps s0 s) : ∀ x1, Keeps s0 (State.markAll s x1) := by
  unfold State.markAll
  repeat' first
    | with_reducible assumption
    | (intro x; refine (fun (hx : Keeps s0 x) => ?_) ?_; clear_value x; rotate_left; unfold x)
    | intro x
    | (lift_lets; intro x; try (refine (fun (hx : Keeps s0 x) => ?_) ?_; clear_value x; rotate_left; unfold x))
    | with_reducible refine Keeps.mk_ ?_ rfl rfl rfl rfl rfl rfl

theorem State.entryLost_keeps (h : Keeps s0 s) : ∀ x1 x2, Keeps s0 (State.entryLost s x1 x2) := by
  unfold State.entryLost
  repeat' first
    | with_reducible assumption
    | (intro x; refine (fun (hx : Keeps s0 x) => ?_) ?_; clear_value x; rotate_left; unfold x)
    | intro x
    | (lift_lets; intro x; try (refine (fun (hx : Keeps s0 x) => ?_) ?_; clear_value x; rotate_left; unfold x))
    | with_reducible apply State.laneLose_keeps
    | with_reducible apply State.markAll_keeps
    | with_reducible apply State.setLane_keeps
    | with_reducible refine Keeps.mk_ ?_ rfl rfl rfl rfl rfl rfl

theorem State.laneShedOne_keeps (h : Keeps s0 s) : ∀ x1, Keeps s0 (State.laneShedOne s x1) := by
  unfold State.laneShedOne
  repeat' first
    | with_reducible assumption
    | (intro x; refine (fun (hx : Keeps s0 x) => ?_) ?_; clear_value x; rotate_left; unfold x)
    | intro x
    | (lift_lets; intro x; try (refine (fun (hx : Keeps s0 x) => ?_) ?_; clear_value x; rotate_left; unfold x))
    | with_reducible apply State.bump_keeps
    | with_reducible apply State.setLane_keeps
    | with_reducible refine Keeps.mk_ ?_ rfl rfl rfl rfl rfl rfl

theorem State.retireEntries_keeps (h : Keeps s0 s) : ∀ x1, Keeps s0 (State.retireEntries s x1) := by
  unfold State.retireEntries
  repeat' first
    | with_reducible assumption
    | (intro x; refine (fun (hx : Keeps s0 x) => ?_) ?_; clear_value x; rotate_left; unfold x)
    | intro x
    | (lift_lets; intro x; try (refine (fun (hx : Keeps s0 x) => ?_) ?_; clear_value x; rotate_left; unfold x))
    | split
    | with_reducible apply State.put_keeps
    | with_reducible apply State.setLane_keeps
    | with_reducible refine Keeps.mk_ ?_ rfl rfl rfl rfl rfl rfl
    | split

theorem State.onEntry_keeps (h : Keeps s0 s) : ∀ x1 x2 x3, Keeps s0 (State.onEntry s x1 x2 x3) := by
  unfold State.onEntry
  repeat' first
    | with_reducible assumption
    | (intro x; refine (fun (hx : Keeps s0 x) => ?_) ?_; clear_value x; rotate_left; unfold x)
    | intro x
    | (lift_lets; intro x; try (refine (fun (hx : Keeps s0 x) => ?_) ?_; clear_value x; rotate_left; unfold x))
    | with_reducible apply Keeps.ite
    | with_reducible apply State.setLane_keeps
    | with_reducible refine Keeps.mk_ ?_ rfl rfl rfl rfl rfl rfl
    | split

theorem State.entryDone_keeps (h : Keeps s0 s) : ∀ x1 x2 x3, Keeps s0 (State.entryDone s x1 x2 x3) := by
  unfold State.entryDone
  repeat' first
    | with_reducible assumption
    | (intro x; refine (fun (hx : Keeps s0 x) => ?_) ?_; clear_value x; rotate_left; unfold x)
    | intro x
    | (lift_lets; intro x; try (refine (fun (hx : Keeps s0 x) => ?_) ?_; clear_value x; rotate_left; unfold x))
    | with_reducible apply State.retireEntries_keeps
    | with_reducible apply State.onEntry_keeps
    | with_reducible refine Keeps.mk_ ?_ rfl rfl rfl rfl rfl rfl

end Sys2Proof.Machine
end

