-- ==== Sys2Proof/Laws/KeepsSclOps.lean ====
section
/-!
SUPPORT. What every operation of Machine/SclOps.lean keeps (see Laws/Keeps.lean).
-/
namespace Sys2Proof.Machine

set_option Elab.async false
set_option linter.unreachableTactic false
set_option linter.unusedTactic false

variable {s0 s t : State}

theorem State.setScull_keeps (h : Keeps s0 s) : ∀ x1 x2, Keeps s0 (State.setScull s x1 x2) := by
  unfold State.setScull
  repeat' first
    | with_reducible assumption
    | (intro x; refine (fun (hx : Keeps s0 x) => ?_) ?_; clear_value x; rotate_left; unfold x)
    | intro x
    | (lift_lets; intro x; try (refine (fun (hx : Keeps s0 x) => ?_) ?_; clear_value x; rotate_left; unfold x))
    | with_reducible refine Keeps.mk_ ?_ rfl rfl rfl rfl rfl rfl

theorem State.setTask_keeps (h : Keeps s0 s) : ∀ x1 x2, Keeps s0 (State.setTask s x1 x2) := by
  unfold State.setTask
  repeat' first
    | with_reducible assumption
    | (intro x; refine (fun (hx : Keeps s0 x) => ?_) ?_; clear_value x; rotate_left; unfold x)
    | intro x
    | (lift_lets; intro x; try (refine (fun (hx : Keeps s0 x) => ?_) ?_; clear_value x; rotate_left; unfold x))
    | with_reducible refine Keeps.mk_ ?_ rfl rfl rfl rfl rfl rfl
    | split

theorem State.issuedOp_keeps (h : Keeps s0 s) : ∀ x1, Keeps s0 (State.issuedOp s x1) := by
  unfold State.issuedOp
  repeat' first
    | with_reducible assumption
    | (intro x; refine (fun (hx : Keeps s0 x) => ?_) ?_; clear_value x; rotate_left; unfold x)
    | intro x
    | (lift_lets; intro x; try (refine (fun (hx : Keeps s0 x) => ?_) ?_; clear_value x; rotate_left; unfold x))
    | with_reducible apply Keeps.ite
    | split
    | with_reducible apply State.setScull_keeps
    | with_reducible refine Keeps.mk_ ?_ rfl rfl rfl rfl rfl rfl
    | split

theorem State.askHalt_keeps (h : Keeps s0 s) : ∀ x1 x2, Keeps s0 (State.askHalt s x1 x2) := by
  unfold State.askHalt
  repeat' first
    | with_reducible assumption
    | (intro x; refine (fun (hx : Keeps s0 x) => ?_) ?_; clear_value x; rotate_left; unfold x)
    | intro x
    | (lift_lets; intro x; try (refine (fun (hx : Keeps s0 x) => ?_) ?_; clear_value x; rotate_left; unfold x))
    | with_reducible apply Keeps.ite
    | with_reducible apply State.setScull_keeps
    | with_reducible refine Keeps.mk_ ?_ rfl rfl rfl rfl rfl rfl
    | split

theorem State.codeBp_keeps (h : Keeps s0 s) : ∀ x1, Keeps s0 (State.codeBp s x1).2 := by
  unfold State.codeBp
  repeat' first
    | with_reducible assumption
    | (intro x; refine (fun (hx : Keeps s0 x) => ?_) ?_; clear_value x; rotate_left; unfold x)
    | intro x
    | (lift_lets; intro x; try (refine (fun (hx : Keeps s0 x) => ?_) ?_; clear_value x; rotate_left; unfold x))
    | with_reducible apply Keeps.ite
    | with_reducible apply Keeps.ite2
    | with_reducible apply State.takeFree_keeps
    | with_reducible refine Keeps.of_pair (by assumption) ?_
    | with_reducible refine Keeps.mk_ ?_ rfl rfl rfl rfl rfl rfl
    | split

theorem State.withBp_keeps (h : Keeps s0 s) {op : State → State} (ho : ∀ s, Keeps s0 s → Keeps s0 (op s)) : ∀ n, Keeps s0 (State.withBp s n op) := by
  intro n
  unfold State.withBp
  have hc : Keeps s0 (s.codeBp n).2 := State.codeBp_keeps h n
  split
  · rename_i e
    rw [e] at hc
    exact State.bump_keeps (State.askHalt_keeps hc _ _) _ _ _
  · rename_i e
    rw [e] at hc
    exact ho _ hc

theorem State.watchHit_keeps (h : Keeps s0 s) : ∀ x1 x2, Keeps s0 (State.watchHit s x1 x2) := by
  unfold State.watchHit
  repeat' first
    | with_reducible assumption
    | intro x
    | with_reducible apply State.bump_keeps
    | with_reducible apply State.askHalt_keeps
    | with_reducible refine Keeps.mk_ ?_ rfl rfl rfl rfl rfl rfl

theorem State.watch_keeps (h : Keeps s0 s) : ∀ x1 x2 x3 x4 x5, Keeps s0 (State.watch s x1 x2 x3 x4 x5) := by
  unfold State.watch
  repeat' first
    | with_reducible assumption
    | (intro x; refine (fun (hx : Keeps s0 x) => ?_) ?_; clear_value x; rotate_left; unfold x)
    | intro x
    | (lift_lets; intro x; try (refine (fun (hx : Keeps s0 x) => ?_) ?_; clear_value x; rotate_left; unfold x))
    | with_reducible apply Keeps.ite
    | split
    | with_reducible apply State.watchHit_keeps
    | with_reducible refine Keeps.mk_ ?_ rfl rfl rfl rfl rfl rfl
    | split

theorem State.watchTile_keeps (h : Keeps s0 s) : ∀ x1 x2, Keeps s0 (State.watchTile s x1 x2) := by
  unfold State.watchTile
  repeat' first
    | with_reducible assumption
    | (intro x; refine (fun (hx : Keeps s0 x) => ?_) ?_; clear_value x; rotate_left; unfold x)
    | intro x
    | (lift_lets; intro x; try (refine (fun (hx : Keeps s0 x) => ?_) ?_; clear_value x; rotate_left; unfold x))
    | with_reducible apply Keeps.ite
    | split
    | with_reducible apply State.takeFree_keeps
    | with_reducible apply State.watchHit_keeps
    | with_reducible refine Keeps.of_pair (by assumption) ?_
    | with_reducible refine Keeps.mk_ ?_ rfl rfl rfl rfl rfl rfl
    | split

theorem State.ringPut_keeps (h : Keeps s0 s) : ∀ x1 x2, Keeps s0 (State.ringPut s x1 x2) := by
  unfold State.ringPut
  repeat' first
    | with_reducible assumption
    | intro x
    | with_reducible apply State.ownNat_keeps
    | with_reducible refine Keeps.mk_ ?_ rfl rfl rfl rfl rfl rfl

theorem State.putPub_keeps (h : Keeps s0 s) : ∀ x1 x2, Keeps s0 (State.putPub s x1 x2) := by
  unfold State.putPub
  repeat' first
    | with_reducible assumption
    | intro x
    | with_reducible apply State.ringPut_keeps
    | with_reducible refine Keeps.mk_ ?_ rfl rfl rfl rfl rfl rfl

theorem State.makeReady_keeps (h : Keeps s0 s) : ∀ x1, Keeps s0 (State.makeReady s x1) := by
  unfold State.makeReady
  repeat' first
    | with_reducible assumption
    | (intro x; refine (fun (hx : Keeps s0 x) => ?_) ?_; clear_value x; rotate_left; unfold x)
    | intro x
    | (lift_lets; intro x; try (refine (fun (hx : Keeps s0 x) => ?_) ?_; clear_value x; rotate_left; unfold x))
    | with_reducible apply Keeps.ite
    | split
    | with_reducible apply State.showScull_keeps
    | with_reducible apply State.setTask_keeps
    | with_reducible apply State.bump_keeps
    | with_reducible refine Keeps.mk_ ?_ rfl rfl rfl rfl rfl rfl
    | split

theorem State.wakeFor_keeps (h : Keeps s0 s) : ∀ x1, Keeps s0 (State.wakeFor s x1) := by
  unfold State.wakeFor
  repeat' first
    | with_reducible assumption
    | (intro x; refine (fun (hx : Keeps s0 x) => ?_) ?_; clear_value x; rotate_left; unfold x)
    | intro x
    | (lift_lets; intro x; try (refine (fun (hx : Keeps s0 x) => ?_) ?_; clear_value x; rotate_left; unfold x))
    | with_reducible apply Keeps.ite
    | split
    | with_reducible apply State.makeReady_keeps
    | with_reducible refine Keeps.foldl ?_ ?_
    | with_reducible refine Keeps.mk_ ?_ rfl rfl rfl rfl rfl rfl
    | split

theorem State.putCon_keeps (h : Keeps s0 s) : ∀ x1 x2, Keeps s0 (State.putCon s x1 x2) := by
  unfold State.putCon
  repeat' first
    | with_reducible assumption
    | intro x
    | with_reducible apply State.wakeFor_keeps
    | with_reducible apply State.ringPut_keeps
    | with_reducible refine Keeps.mk_ ?_ rfl rfl rfl rfl rfl rfl

theorem State.admitHeld_keeps (h : Keeps s0 s) : ∀ x1, Keeps s0 (State.admitHeld s x1) := by
  unfold State.admitHeld
  repeat' first
    | with_reducible assumption
    | (intro x; refine (fun (hx : Keeps s0 x) => ?_) ?_; clear_value x; rotate_left; unfold x)
    | intro x
    | (lift_lets; intro x; try (refine (fun (hx : Keeps s0 x) => ?_) ?_; clear_value x; rotate_left; unfold x))
    | with_reducible apply Keeps.ite
    | split
    | with_reducible apply State.makeReady_keeps
    | with_reducible refine Keeps.mk_ ?_ rfl rfl rfl rfl rfl rfl
    | split

theorem State.laneEnergy_keeps (h : Keeps s0 s) : ∀ x1 x2 x3, Keeps s0 (State.laneEnergy s x1 x2 x3) := by
  unfold State.laneEnergy
  repeat' first
    | with_reducible assumption
    | (intro x; refine (fun (hx : Keeps s0 x) => ?_) ?_; clear_value x; rotate_left; unfold x)
    | intro x
    | (lift_lets; intro x; try (refine (fun (hx : Keeps s0 x) => ?_) ?_; clear_value x; rotate_left; unfold x))
    | with_reducible apply Keeps.ite
    | split
    | with_reducible apply State.bump_keeps
    | with_reducible apply State.onEntry_keeps
    | with_reducible refine Keeps.mk_ ?_ rfl rfl rfl rfl rfl rfl
    | split

theorem State.addEnergy_keeps (h : Keeps s0 s) : ∀ x1 x2, Keeps s0 (State.addEnergy s x1 x2) := by
  unfold State.addEnergy
  repeat' first
    | with_reducible assumption
    | (intro x; refine (fun (hx : Keeps s0 x) => ?_) ?_; clear_value x; rotate_left; unfold x)
    | intro x
    | (lift_lets; intro x; try (refine (fun (hx : Keeps s0 x) => ?_) ?_; clear_value x; rotate_left; unfold x))
    | with_reducible apply Keeps.ite
    | with_reducible apply State.laneEnergy_keeps
    | with_reducible apply State.bump_keeps
    | with_reducible refine Keeps.mk_ ?_ rfl rfl rfl rfl rfl rfl
    | split

theorem State.returnCredits_keeps (h : Keeps s0 s) : ∀ x1 x2, Keeps s0 (State.returnCredits s x1 x2) := by
  unfold State.returnCredits
  repeat' first
    | with_reducible assumption
    | intro x
    | with_reducible apply State.putCon_keeps
    | with_reducible refine Keeps.foldl ?_ ?_
    | with_reducible refine Keeps.mk_ ?_ rfl rfl rfl rfl rfl rfl

theorem State.skipConsumers_keeps (h : Keeps s0 s) : ∀ x0 x1 x3, Keeps s0 (State.skipConsumers x0 x1 s x3) := by
  intro x0 x1
  induction x1 generalizing s with
  | zero =>
    intros
    rw [State.skipConsumers]
    exact h
  | succ n ih =>
    intro x3
    rw [State.skipConsumers]
    repeat' first
      | with_reducible assumption
      | (intro x; refine (fun (hx : Keeps s0 x) => ?_) ?_; clear_value x; rotate_left; unfold x)
      | intro x
      | (lift_lets; intro x; try (refine (fun (hx : Keeps s0 x) => ?_) ?_; clear_value x; rotate_left; unfold x))
      | with_reducible apply Keeps.ite
      | with_reducible apply State.setTask_keeps
      | with_reducible apply ih
      | with_reducible refine Keeps.foldl ?_ ?_
      | with_reducible refine Keeps.mk_ ?_ rfl rfl rfl rfl rfl rfl
      | split

theorem State.unready_keeps (h : Keeps s0 s) : ∀ x1, Keeps s0 (State.unready s x1) := by
  unfold State.unready
  repeat' first
    | with_reducible assumption
    | (intro x; refine (fun (hx : Keeps s0 x) => ?_) ?_; clear_value x; rotate_left; unfold x)
    | intro x
    | (lift_lets; intro x; try (refine (fun (hx : Keeps s0 x) => ?_) ?_; clear_value x; rotate_left; unfold x))
    | with_reducible refine Keeps.mk_ ?_ rfl rfl rfl rfl rfl rfl

theorem State.dropValues_keeps (h : Keeps s0 s) : ∀ x1, Keeps s0 (State.dropValues s x1) := by
  unfold State.dropValues
  repeat' first
    | with_reducible assumption
    | (intro x; refine (fun (hx : Keeps s0 x) => ?_) ?_; clear_value x; rotate_left; unfold x)
    | intro x
    | (lift_lets; intro x; try (refine (fun (hx : Keeps s0 x) => ?_) ?_; clear_value x; rotate_left; unfold x))
    | with_reducible apply Keeps.ite
    | with_reducible apply State.setScull_keeps
    | with_reducible refine Keeps.mk_ ?_ rfl rfl rfl rfl rfl rfl
    | split

theorem State.stopTransfers_keeps (h : Keeps s0 s) : ∀ x1 x2, Keeps s0 (State.stopTransfers s x1 x2) := by
  unfold State.stopTransfers
  repeat' first
    | with_reducible assumption
    | intro x
    | with_reducible apply State.failSlides_keeps
    | with_reducible refine Keeps.mk_ ?_ rfl rfl rfl rfl rfl rfl
    | split

theorem State.stopAttempt_keeps (h : Keeps s0 s) : ∀ x1, Keeps s0 (State.stopAttempt s x1) := by
  unfold State.stopAttempt
  repeat' first
    | with_reducible assumption
    | (intro x; refine (fun (hx : Keeps s0 x) => ?_) ?_; clear_value x; rotate_left; unfold x)
    | intro x
    | (lift_lets; intro x; try (refine (fun (hx : Keeps s0 x) => ?_) ?_; clear_value x; rotate_left; unfold x))
    | with_reducible apply State.dropMissesOf_keeps
    | with_reducible apply State.dropValues_keeps
    | with_reducible apply State.stopTransfers_keeps
    | with_reducible apply State.unready_keeps
    | with_reducible refine Keeps.mk_ ?_ rfl rfl rfl rfl rfl rfl

theorem State.setValues_keeps (h : Keeps s0 s) : ∀ x1 x2 x3, Keeps s0 (State.setValues s x1 x2 x3) := by
  unfold State.setValues
  repeat' first
    | with_reducible assumption
    | (intro x; refine (fun (hx : Keeps s0 x) => ?_) ?_; clear_value x; rotate_left; unfold x)
    | intro x
    | (lift_lets; intro x; try (refine (fun (hx : Keeps s0 x) => ?_) ?_; clear_value x; rotate_left; unfold x))
    | with_reducible apply Keeps.ite
    | with_reducible apply State.setScull_keeps
    | with_reducible apply State.wrByte_keeps
    | with_reducible apply State.setPoison_keeps
    | with_reducible apply State.clrPoison_keeps
    | with_reducible refine Keeps.foldl ?_ ?_
    | with_reducible refine Keeps.mk_ ?_ rfl rfl rfl rfl rfl rfl
    | split

theorem State.keepValues_keeps (h : Keeps s0 s) : ∀ x1, Keeps s0 (State.keepValues s x1) := by
  unfold State.keepValues
  repeat' first
    | with_reducible assumption
    | (intro x; refine (fun (hx : Keeps s0 x) => ?_) ?_; clear_value x; rotate_left; unfold x)
    | intro x
    | (lift_lets; intro x; try (refine (fun (hx : Keeps s0 x) => ?_) ?_; clear_value x; rotate_left; unfold x))
    | with_reducible apply Keeps.ite
    | split
    | with_reducible apply State.setTask_keeps
    | with_reducible refine Keeps.mk_ ?_ rfl rfl rfl rfl rfl rfl
    | split

theorem State.endTrigger_keeps (h : Keeps s0 s) : ∀ x1 x2, Keeps s0 (State.endTrigger s x1 x2) := by
  unfold State.endTrigger
  repeat' first
    | with_reducible assumption
    | (intro x; refine (fun (hx : Keeps s0 x) => ?_) ?_; clear_value x; rotate_left; unfold x)
    | intro x
    | (lift_lets; intro x; try (refine (fun (hx : Keeps s0 x) => ?_) ?_; clear_value x; rotate_left; unfold x))
    | with_reducible apply Keeps.ite
    | with_reducible apply State.addEnergy_keeps
    | with_reducible apply State.stopAttempt_keeps
    | with_reducible apply State.returnCredits_keeps
    | with_reducible apply State.setTask_keeps
    | with_reducible apply State.skipConsumers_keeps
    | with_reducible apply State.showScull_keeps
    | with_reducible apply State.admitHeld_keeps
    | with_reducible apply State.entryDone_keeps
    | with_reducible refine Keeps.mk_ ?_ rfl rfl rfl rfl rfl rfl
    | split

theorem State.dropTrigger_keeps (h : Keeps s0 s) : ∀ x0 x2, Keeps s0 (State.dropTrigger x0 s x2) := by
  unfold State.dropTrigger
  repeat' first
    | with_reducible assumption
    | (intro x; refine (fun (hx : Keeps s0 x) => ?_) ?_; clear_value x; rotate_left; unfold x)
    | intro x
    | (lift_lets; intro x; try (refine (fun (hx : Keeps s0 x) => ?_) ?_; clear_value x; rotate_left; unfold x))
    | with_reducible apply Keeps.ite
    | split
    | with_reducible apply State.skipConsumers_keeps
    | with_reducible apply State.setTask_keeps
    | with_reducible refine Keeps.mk_ ?_ rfl rfl rfl rfl rfl rfl
    | split

theorem State.taskFail_keeps (h : Keeps s0 s) : ∀ x1 x2 x3, Keeps s0 (State.taskFail s x1 x2 x3) := by
  unfold State.taskFail
  repeat' first
    | with_reducible assumption
    | (intro x; refine (fun (hx : Keeps s0 x) => ?_) ?_; clear_value x; rotate_left; unfold x)
    | intro x
    | (lift_lets; intro x; try (refine (fun (hx : Keeps s0 x) => ?_) ?_; clear_value x; rotate_left; unfold x))
    | with_reducible apply Keeps.ite
    | split
    | with_reducible apply State.record_keeps
    | with_reducible apply State.bump_keeps
    | with_reducible apply State.entryLost_keeps
    | with_reducible apply State.setLane_keeps
    | with_reducible apply State.onEntry_keeps
    | with_reducible apply State.endTrigger_keeps
    | with_reducible refine Keeps.mk_ ?_ rfl rfl rfl rfl rfl rfl
    | split

theorem State.attemptEnd_keeps (h : Keeps s0 s) : ∀ x1 x2, Keeps s0 (State.attemptEnd s x1 x2) := by
  unfold State.attemptEnd
  repeat' first
    | with_reducible assumption
    | (intro x; refine (fun (hx : Keeps s0 x) => ?_) ?_; clear_value x; rotate_left; unfold x)
    | intro x
    | (lift_lets; intro x; try (refine (fun (hx : Keeps s0 x) => ?_) ?_; clear_value x; rotate_left; unfold x))
    | with_reducible apply Keeps.ite
    | split
    | with_reducible apply State.stopAttempt_keeps
    | with_reducible apply State.showScull_keeps
    | with_reducible apply State.makeReady_keeps
    | with_reducible apply State.bump_keeps
    | with_reducible apply State.setTask_keeps
    | with_reducible apply State.addEnergy_keeps
    | with_reducible apply State.taskFail_keeps
    | with_reducible refine Keeps.mk_ ?_ rfl rfl rfl rfl rfl rfl
    | split

theorem State.switchOut_keeps (h : Keeps s0 s) : ∀ x1, Keeps s0 (State.switchOut s x1) := by
  unfold State.switchOut
  repeat' first
    | with_reducible assumption
    | (intro x; refine (fun (hx : Keeps s0 x) => ?_) ?_; clear_value x; rotate_left; unfold x)
    | intro x
    | (lift_lets; intro x; try (refine (fun (hx : Keeps s0 x) => ?_) ?_; clear_value x; rotate_left; unfold x))
    | with_reducible apply Keeps.ite
    | split
    | with_reducible apply State.attemptEnd_keeps
    | with_reducible apply State.showScull_keeps
    | with_reducible apply State.bump_keeps
    | with_reducible apply State.setTask_keeps
    | with_reducible refine Keeps.mk_ ?_ rfl rfl rfl rfl rfl rfl
    | split

theorem State.resumeTask_keeps (h : Keeps s0 s) : ∀ x1, Keeps s0 (State.resumeTask s x1) := by
  unfold State.resumeTask
  repeat' first
    | with_reducible assumption
    | (intro x; refine (fun (hx : Keeps s0 x) => ?_) ?_; clear_value x; rotate_left; unfold x)
    | intro x
    | (lift_lets; intro x; try (refine (fun (hx : Keeps s0 x) => ?_) ?_; clear_value x; rotate_left; unfold x))
    | with_reducible apply Keeps.ite
    | split
    | with_reducible apply State.setTask_keeps
    | with_reducible apply State.makeReady_keeps
    | with_reducible refine Keeps.mk_ ?_ rfl rfl rfl rfl rfl rfl
    | split

theorem State.unblock_keeps (h : Keeps s0 s) : ∀ x1, Keeps s0 (State.unblock s x1) := by
  unfold State.unblock
  repeat' first
    | with_reducible assumption
    | (intro x; refine (fun (hx : Keeps s0 x) => ?_) ?_; clear_value x; rotate_left; unfold x)
    | intro x
    | (lift_lets; intro x; try (refine (fun (hx : Keeps s0 x) => ?_) ?_; clear_value x; rotate_left; unfold x))
    | with_reducible apply Keeps.ite
    | split
    | with_reducible apply State.makeReady_keeps
    | with_reducible refine Keeps.mk_ ?_ rfl rfl rfl rfl rfl rfl
    | split

theorem State.countSteps_keeps (h : Keeps s0 s) : ∀ x1 x2, Keeps s0 (State.countSteps s x1 x2) := by
  unfold State.countSteps
  repeat' first
    | with_reducible assumption
    | (intro x; refine (fun (hx : Keeps s0 x) => ?_) ?_; clear_value x; rotate_left; unfold x)
    | intro x
    | (lift_lets; intro x; try (refine (fun (hx : Keeps s0 x) => ?_) ?_; clear_value x; rotate_left; unfold x))
    | split
    | with_reducible apply State.bump_keeps
    | with_reducible apply State.setTask_keeps
    | with_reducible refine Keeps.mk_ ?_ rfl rfl rfl rfl rfl rfl
    | split

theorem State.tileEcc_keeps (h : Keeps s0 s) : ∀ x1 x2 x3 x4, Keeps s0 (State.tileEcc s x1 x2 x3 x4) := by
  unfold State.tileEcc
  repeat' first
    | with_reducible assumption
    | intro x
    | with_reducible apply State.meetEcc_keeps
    | with_reducible refine Keeps.mk_ ?_ rfl rfl rfl rfl rfl rfl

theorem State.applyArray_keeps (h : Keeps s0 s) : ∀ x1 x2 x3, Keeps s0 (State.applyArray s x1 x2 x3) := by
  unfold State.applyArray
  repeat' first
    | with_reducible assumption
    | (intro x; refine (fun (hx : Keeps s0 x) => ?_) ?_; clear_value x; rotate_left; unfold x)
    | intro x
    | (lift_lets; intro x; try (refine (fun (hx : Keeps s0 x) => ?_) ?_; clear_value x; rotate_left; unfold x))
    | with_reducible apply Keeps.ite
    | with_reducible apply State.raiseFpx_keeps
    | with_reducible apply State.setScull_keeps
    | with_reducible refine Keeps.foldl ?_ ?_
    | with_reducible refine Keeps.mk_ ?_ rfl rfl rfl rfl rfl rfl
    | split

theorem State.laneWise_keeps (h : Keeps s0 s) : ∀ x1 x2 x3 x4, Keeps s0 (State.laneWise s x1 x2 x3 x4) := by
  unfold State.laneWise
  repeat' first
    | with_reducible assumption
    | (intro x; refine (fun (hx : Keeps s0 x) => ?_) ?_; clear_value x; rotate_left; unfold x)
    | intro x
    | (lift_lets; intro x; try (refine (fun (hx : Keeps s0 x) => ?_) ?_; clear_value x; rotate_left; unfold x))
    | with_reducible apply State.raiseFpx_keeps
    | with_reducible apply State.setScull_keeps
    | with_reducible refine Keeps.foldl ?_ ?_
    | with_reducible refine Keeps.mk_ ?_ rfl rfl rfl rfl rfl rfl

theorem State.applyVec_keeps (h : Keeps s0 s) : ∀ x1 x2, Keeps s0 (State.applyVec s x1 x2) := by
  unfold State.applyVec
  repeat' first
    | with_reducible assumption
    | (intro x; refine (fun (hx : Keeps s0 x) => ?_) ?_; clear_value x; rotate_left; unfold x)
    | intro x
    | (lift_lets; intro x; try (refine (fun (hx : Keeps s0 x) => ?_) ?_; clear_value x; rotate_left; unfold x))
    | with_reducible apply Keeps.ite
    | split
    | with_reducible apply State.laneWise_keeps
    | with_reducible apply State.raiseFpx_keeps
    | with_reducible apply State.setScull_keeps
    | with_reducible apply State.tileEcc_keeps
    | with_reducible apply State.wrNat_keeps
    | with_reducible apply State.setPoison_keeps
    | with_reducible apply State.clrPoison_keeps
    | with_reducible refine Keeps.foldl ?_ ?_
    | with_reducible refine Keeps.mk_ ?_ rfl rfl rfl rfl rfl rfl
    | split

theorem State.confirm_keeps (h : Keeps s0 s) : ∀ x1, Keeps s0 (State.confirm s x1) := by
  unfold State.confirm
  repeat' first
    | with_reducible assumption
    | (intro x; refine (fun (hx : Keeps s0 x) => ?_) ?_; clear_value x; rotate_left; unfold x)
    | intro x
    | (lift_lets; intro x; try (refine (fun (hx : Keeps s0 x) => ?_) ?_; clear_value x; rotate_left; unfold x))
    | split
    | with_reducible apply State.setScull_keeps
    | with_reducible apply State.applyArray_keeps
    | with_reducible apply State.applyVec_keeps
    | with_reducible apply State.setTask_keeps
    | with_reducible refine Keeps.mk_ ?_ rfl rfl rfl rfl rfl rfl
    | split

theorem State.moveRail_keeps (h : Keeps s0 s) : ∀ x1 x2, Keeps s0 (State.moveRail s x1 x2) := by
  unfold State.moveRail
  repeat' first
    | with_reducible assumption
    | (intro x; refine (fun (hx : Keeps s0 x) => ?_) ?_; clear_value x; rotate_left; unfold x)
    | intro x
    | (lift_lets; intro x; try (refine (fun (hx : Keeps s0 x) => ?_) ?_; clear_value x; rotate_left; unfold x))
    | with_reducible refine Keeps.mk_ ?_ rfl rfl rfl rfl rfl rfl

theorem State.setA_keeps (h : Keeps s0 s) : ∀ x1 x2, Keeps s0 (State.setA s x1 x2) := by
  unfold State.setA
  repeat' first
    | with_reducible assumption
    | (intro x; refine (fun (hx : Keeps s0 x) => ?_) ?_; clear_value x; rotate_left; unfold x)
    | intro x
    | (lift_lets; intro x; try (refine (fun (hx : Keeps s0 x) => ?_) ?_; clear_value x; rotate_left; unfold x))
    | with_reducible apply State.moveRail_keeps
    | with_reducible apply State.put_keeps
    | with_reducible apply State.setScull_keeps
    | with_reducible refine Keeps.mk_ ?_ rfl rfl rfl rfl rfl rfl

theorem State.setVso_keeps (h : Keeps s0 s) : ∀ x1 x2, Keeps s0 (State.setVso s x1 x2) := by
  unfold State.setVso
  repeat' first
    | with_reducible assumption
    | (intro x; refine (fun (hx : Keeps s0 x) => ?_) ?_; clear_value x; rotate_left; unfold x)
    | intro x
    | (lift_lets; intro x; try (refine (fun (hx : Keeps s0 x) => ?_) ?_; clear_value x; rotate_left; unfold x))
    | with_reducible apply State.moveRail_keeps
    | with_reducible apply State.put_keeps
    | with_reducible refine Keeps.mk_ ?_ rfl rfl rfl rfl rfl rfl

theorem State.windowStep_keeps (h : Keeps s0 s) : ∀ x1 x2, Keeps s0 (State.windowStep s x1 x2) := by
  unfold State.windowStep
  repeat' first
    | with_reducible assumption
    | (intro x; refine (fun (hx : Keeps s0 x) => ?_) ?_; clear_value x; rotate_left; unfold x)
    | intro x
    | (lift_lets; intro x; try (refine (fun (hx : Keeps s0 x) => ?_) ?_; clear_value x; rotate_left; unfold x))
    | with_reducible apply Keeps.ite
    | with_reducible apply State.setScull_keeps
    | with_reducible apply State.setA_keeps
    | with_reducible refine Keeps.mk_ ?_ rfl rfl rfl rfl rfl rfl
    | split

theorem State.addTenths_keeps (h : Keeps s0 s) : ∀ x1 x2, Keeps s0 (State.addTenths s x1 x2) := by
  unfold State.addTenths
  repeat' first
    | with_reducible assumption
    | (intro x; refine (fun (hx : Keeps s0 x) => ?_) ?_; clear_value x; rotate_left; unfold x)
    | intro x
    | (lift_lets; intro x; try (refine (fun (hx : Keeps s0 x) => ?_) ?_; clear_value x; rotate_left; unfold x))
    | with_reducible apply State.countSteps_keeps
    | with_reducible apply State.setScull_keeps
    | with_reducible refine Keeps.mk_ ?_ rfl rfl rfl rfl rfl rfl

theorem State.escalate_keeps (h : Keeps s0 s) : ∀ x1, Keeps s0 (State.escalate s x1) := by
  unfold State.escalate
  repeat' first
    | with_reducible assumption
    | (intro x; refine (fun (hx : Keeps s0 x) => ?_) ?_; rotate_left; unfold x)
    | intro x
    | (lift_lets; intro x; try (refine (fun (hx : Keeps s0 x) => ?_) ?_; rotate_left; unfold x))
    | with_reducible apply Keeps.ite
    | split
    | with_reducible apply State.attemptEnd_keeps
    | with_reducible apply State.record_keeps
    | with_reducible apply State.bump_keeps
    | with_reducible apply State.setA_keeps
    | with_reducible apply State.setScull_keeps
    | with_reducible apply State.put_keeps
    | with_reducible refine Keeps.mk_ ?_ rfl rfl rfl rfl rfl rfl
    | split

end Sys2Proof.Machine
end

