-- ==== Sys2Proof/Laws/KeepsReportOps.lean ====
section
/-!
SUPPORT. What every operation of Machine/ReportOps.lean keeps (see Laws/Keeps.lean).
-/
namespace Sys2Proof.Machine

set_option Elab.async false
set_option linter.unreachableTactic false
set_option linter.unusedTactic false

variable {s0 s t : State}

theorem State.rptWrite_keeps (h : Keeps s0 s) : ∀ x1 x2, Keeps s0 (State.rptWrite s x1 x2) := by
  unfold State.rptWrite
  repeat' first
    | with_reducible assumption
    | (intro x; refine (fun (hx : Keeps s0 x) => ?_) ?_; clear_value x; rotate_left; unfold x)
    | intro x
    | (lift_lets; intro x; try (refine (fun (hx : Keeps s0 x) => ?_) ?_; clear_value x; rotate_left; unfold x))
    | with_reducible apply State.ownBytes_keeps
    | with_reducible apply State.put_keeps
    | with_reducible apply State.ownNat_keeps
    | with_reducible apply State.msix_keeps
    | with_reducible refine Keeps.mk_ ?_ rfl rfl rfl rfl rfl rfl

theorem State.setBacklog_keeps (h : Keeps s0 s) : ∀ x1 x2, Keeps s0 (State.setBacklog s x1 x2) := by
  unfold State.setBacklog
  repeat' first
    | with_reducible assumption
    | (intro x; refine (fun (hx : Keeps s0 x) => ?_) ?_; clear_value x; rotate_left; unfold x)
    | intro x
    | (lift_lets; intro x; try (refine (fun (hx : Keeps s0 x) => ?_) ?_; clear_value x; rotate_left; unfold x))
    | with_reducible apply State.put_keeps
    | with_reducible refine Keeps.mk_ ?_ rfl rfl rfl rfl rfl rfl

theorem State.rptFailing_keeps (h : Keeps s0 s) : ∀ x1, Keeps s0 (State.rptFailing s x1) := by
  unfold State.rptFailing
  repeat' first
    | with_reducible assumption
    | (intro x; refine (fun (hx : Keeps s0 x) => ?_) ?_; clear_value x; rotate_left; unfold x)
    | intro x
    | (lift_lets; intro x; try (refine (fun (hx : Keeps s0 x) => ?_) ?_; clear_value x; rotate_left; unfold x))
    | with_reducible apply Keeps.ite
    | with_reducible apply State.record_keeps
    | with_reducible refine Keeps.mk_ ?_ rfl rfl rfl rfl rfl rfl
    | split

theorem State.rptDrain_keeps (h : Keeps s0 s) : ∀ x0 x1, Keeps s0 (State.rptDrain x0 x1 s) := by
  intro x0
  induction x0 generalizing s with
  | zero =>
    intros
    rw [State.rptDrain]
    exact h
  | succ n ih =>
    intro x1
    rw [State.rptDrain]
    repeat' first
      | with_reducible assumption
      | (intro x; refine (fun (hx : Keeps s0 x) => ?_) ?_; clear_value x; rotate_left; unfold x)
      | intro x
      | (lift_lets; intro x; try (refine (fun (hx : Keeps s0 x) => ?_) ?_; clear_value x; rotate_left; unfold x))
      | with_reducible apply Keeps.ite
      | split
      | with_reducible apply State.rptFailing_keeps
      | with_reducible apply State.rptWrite_keeps
      | with_reducible apply State.setBacklog_keeps
      | with_reducible apply ih
      | with_reducible refine Keeps.mk_ ?_ rfl rfl rfl rfl rfl rfl
      | split

theorem State.drainAll_keeps (h : Keeps s0 s) : ∀ x1, Keeps s0 (State.drainAll s x1) := by
  unfold State.drainAll
  repeat' first
    | with_reducible assumption
    | intro x
    | with_reducible apply State.rptDrain_keeps
    | with_reducible refine Keeps.mk_ ?_ rfl rfl rfl rfl rfl rfl

theorem State.toRing_keeps (h : Keeps s0 s) : ∀ x1 x2, Keeps s0 (State.toRing s x1 x2) := by
  unfold State.toRing
  repeat' first
    | with_reducible assumption
    | (intro x; refine (fun (hx : Keeps s0 x) => ?_) ?_; clear_value x; rotate_left; unfold x)
    | intro x
    | (lift_lets; intro x; try (refine (fun (hx : Keeps s0 x) => ?_) ?_; clear_value x; rotate_left; unfold x))
    | with_reducible apply Keeps.ite
    | with_reducible apply State.drainAll_keeps
    | with_reducible apply State.setBacklog_keeps
    | with_reducible apply State.bump_keeps
    | with_reducible refine Keeps.mk_ ?_ rfl rfl rfl rfl rfl rfl
    | split

theorem State.setCol_keeps (h : Keeps s0 s) : ∀ x1 x2, Keeps s0 (State.setCol s x1 x2) := by
  unfold State.setCol
  repeat' first
    | with_reducible assumption
    | (intro x; refine (fun (hx : Keeps s0 x) => ?_) ?_; clear_value x; rotate_left; unfold x)
    | intro x
    | (lift_lets; intro x; try (refine (fun (hx : Keeps s0 x) => ?_) ?_; clear_value x; rotate_left; unfold x))
    | with_reducible apply State.put_keeps
    | with_reducible refine Keeps.mk_ ?_ rfl rfl rfl rfl rfl rfl
    | split

theorem State.sendDgram_keeps (h : Keeps s0 s) : ∀ x1, Keeps s0 (State.sendDgram s x1) := by
  unfold State.sendDgram
  repeat' first
    | with_reducible assumption
    | (intro x; refine (fun (hx : Keeps s0 x) => ?_) ?_; clear_value x; rotate_left; unfold x)
    | intro x
    | (lift_lets; intro x; try (refine (fun (hx : Keeps s0 x) => ?_) ?_; clear_value x; rotate_left; unfold x))
    | with_reducible apply Keeps.ite
    | split
    | with_reducible apply State.emit_keeps
    | with_reducible apply State.bump_keeps
    | with_reducible apply State.setCol_keeps
    | with_reducible refine Keeps.mk_ ?_ rfl rfl rfl rfl rfl rfl
    | split

theorem State.colDrop_keeps (h : Keeps s0 s) : ∀ x1 x2, Keeps s0 (State.colDrop s x1 x2) := by
  unfold State.colDrop
  repeat' first
    | with_reducible assumption
    | (intro x; refine (fun (hx : Keeps s0 x) => ?_) ?_; clear_value x; rotate_left; unfold x)
    | intro x
    | (lift_lets; intro x; try (refine (fun (hx : Keeps s0 x) => ?_) ?_; clear_value x; rotate_left; unfold x))
    | with_reducible apply Keeps.ite
    | split
    | with_reducible apply State.bump_keeps
    | with_reducible refine Keeps.mk_ ?_ rfl rfl rfl rfl rfl rfl
    | split

theorem State.colMarkers_keeps (h : Keeps s0 s) : ∀ x1, Keeps s0 (State.colMarkers s x1).2 := by
  unfold State.colMarkers
  repeat' first
    | with_reducible assumption
    | (intro x; refine (fun (hx : Keeps s0 x) => ?_) ?_; clear_value x; rotate_left; unfold x)
    | intro x
    | (lift_lets; intro x; try (refine (fun (hx : Keeps s0 x) => ?_) ?_; clear_value x; rotate_left; unfold x))
    | with_reducible refine Keeps.foldl2 ?_ ?_
    | with_reducible refine Keeps.foldl ?_ ?_
    | with_reducible refine Keeps.getD ?_ ?_
    | with_reducible refine Keeps.mk_ ?_ rfl rfl rfl rfl rfl rfl

theorem State.toCol_keeps (h : Keeps s0 s) : ∀ x1 x2, Keeps s0 (State.toCol s x1 x2) := by
  unfold State.toCol
  repeat' first
    | with_reducible assumption
    | (intro x; refine (fun (hx : Keeps s0 x) => ?_) ?_; clear_value x; rotate_left; unfold x)
    | intro x
    | (lift_lets; intro x; try (refine (fun (hx : Keeps s0 x) => ?_) ?_; clear_value x; rotate_left; unfold x))
    | with_reducible apply Keeps.ite
    | split
    | with_reducible apply State.colDrop_keeps
    | with_reducible apply State.colMarkers_keeps
    | with_reducible apply State.sendDgram_keeps
    | with_reducible apply State.setCol_keeps
    | with_reducible refine Keeps.foldl ?_ ?_
    | with_reducible refine Keeps.of_pair (by assumption) ?_
    | with_reducible refine Keeps.mk_ ?_ rfl rfl rfl rfl rfl rfl
    | split

theorem State.laneBpHit_keeps (h : Keeps s0 s) : ∀ x1 x2, Keeps s0 (State.laneBpHit s x1 x2) := by
  unfold State.laneBpHit
  repeat' first
    | with_reducible assumption
    | (intro x; refine (fun (hx : Keeps s0 x) => ?_) ?_; clear_value x; rotate_left; unfold x)
    | intro x
    | (lift_lets; intro x; try (refine (fun (hx : Keeps s0 x) => ?_) ?_; clear_value x; rotate_left; unfold x))
    | with_reducible apply Keeps.ite
    | with_reducible apply State.askHalt_keeps
    | with_reducible apply State.bump_keeps
    | with_reducible refine Keeps.foldl ?_ ?_
    | with_reducible refine Keeps.mk_ ?_ rfl rfl rfl rfl rfl rfl
    | split

theorem State.panelRecord_keeps (h : Keeps s0 s) : ∀ x1 x2, Keeps s0 (State.panelRecord s x1 x2) := by
  unfold State.panelRecord
  repeat' first
    | with_reducible assumption
    | (intro x; refine (fun (hx : Keeps s0 x) => ?_) ?_; clear_value x; rotate_left; unfold x)
    | intro x
    | (lift_lets; intro x; try (refine (fun (hx : Keeps s0 x) => ?_) ?_; clear_value x; rotate_left; unfold x))
    | with_reducible apply Keeps.ite
    | with_reducible apply State.emit_keeps
    | with_reducible refine Keeps.mk_ ?_ rfl rfl rfl rfl rfl rfl
    | split

theorem State.emitReport_keeps (h : Keeps s0 s) : ∀ x1 x2, Keeps s0 (State.emitReport s x1 x2) := by
  unfold State.emitReport
  repeat' first
    | with_reducible assumption
    | (intro x; refine (fun (hx : Keeps s0 x) => ?_) ?_; clear_value x; rotate_left; unfold x)
    | intro x
    | (lift_lets; intro x; try (refine (fun (hx : Keeps s0 x) => ?_) ?_; clear_value x; rotate_left; unfold x))
    | with_reducible apply Keeps.ite
    | with_reducible apply State.put_keeps
    | with_reducible apply State.toRing_keeps
    | with_reducible apply State.toCol_keeps
    | with_reducible apply State.panelRecord_keeps
    | with_reducible apply State.laneBpHit_keeps
    | with_reducible refine Keeps.foldl ?_ ?_
    | with_reducible refine Keeps.mk_ ?_ rfl rfl rfl rfl rfl rfl
    | split

theorem State.emitHealth_keeps (h : Keeps s0 s) : ∀ x1 x2 x3 x4, Keeps s0 (State.emitHealth s x1 x2 x3 x4) := by
  unfold State.emitHealth
  repeat' first
    | with_reducible assumption
    | intro x
    | with_reducible apply State.emitReport_keeps
    | with_reducible refine Keeps.mk_ ?_ rfl rfl rfl rfl rfl rfl

theorem State.emitGap_keeps (h : Keeps s0 s) : ∀ x1 x2 x3, Keeps s0 (State.emitGap s x1 x2 x3) := by
  unfold State.emitGap
  repeat' first
    | with_reducible assumption
    | (intro x; refine (fun (hx : Keeps s0 x) => ?_) ?_; clear_value x; rotate_left; unfold x)
    | intro x
    | (lift_lets; intro x; try (refine (fun (hx : Keeps s0 x) => ?_) ?_; clear_value x; rotate_left; unfold x))
    | with_reducible apply State.bump_keeps
    | with_reducible apply State.emitReport_keeps
    | with_reducible apply State.setLane_keeps
    | with_reducible refine Keeps.mk_ ?_ rfl rfl rfl rfl rfl rfl

theorem State.laneIrq_keeps (h : Keeps s0 s) : ∀ x1, Keeps s0 (State.laneIrq s x1) := by
  unfold State.laneIrq
  repeat' first
    | with_reducible assumption
    | intro x
    | with_reducible apply State.msix_keeps
    | with_reducible refine Keeps.mk_ ?_ rfl rfl rfl rfl rfl rfl

theorem State.putLaneState_keeps (h : Keeps s0 s) : ∀ x1 x2, Keeps s0 (State.putLaneState s x1 x2) := by
  unfold State.putLaneState
  repeat' first
    | with_reducible assumption
    | intro x
    | with_reducible apply Keeps.ite
    | with_reducible apply State.laneIrq_keeps
    | with_reducible apply State.put_keeps
    | with_reducible refine Keeps.mk_ ?_ rfl rfl rfl rfl rfl rfl
    | split

end Sys2Proof.Machine
end

