-- ==== Sys2Proof/Laws/KeepsLeOps.lean ====
section
/-!
SUPPORT. What every operation of Machine/LeOps.lean keeps (see Laws/Keeps.lean).
-/
namespace Sys2Proof.Machine

set_option Elab.async false
set_option linter.unreachableTactic false
set_option linter.unusedTactic false

variable {s0 s t : State}

theorem State.setLe_keeps (h : Keeps s0 s) : ∀ x1 x2, Keeps s0 (State.setLe s x1 x2) := by
  unfold State.setLe
  repeat' first
    | with_reducible assumption
    | (intro x; refine (fun (hx : Keeps s0 x) => ?_) ?_; clear_value x; rotate_left; unfold x)
    | intro x
    | (lift_lets; intro x; try (refine (fun (hx : Keeps s0 x) => ?_) ?_; clear_value x; rotate_left; unfold x))
    | with_reducible refine Keeps.mk_ ?_ rfl rfl rfl rfl rfl rfl

theorem State.setPop_keeps (h : Keeps s0 s) : ∀ x1 x2 x3, Keeps s0 (State.setPop s x1 x2 x3) := by
  unfold State.setPop
  repeat' first
    | with_reducible assumption
    | (intro x; refine (fun (hx : Keeps s0 x) => ?_) ?_; clear_value x; rotate_left; unfold x)
    | intro x
    | (lift_lets; intro x; try (refine (fun (hx : Keeps s0 x) => ?_) ?_; clear_value x; rotate_left; unfold x))
    | with_reducible apply State.setLe_keeps
    | with_reducible refine Keeps.mk_ ?_ rfl rfl rfl rfl rfl rfl

theorem State.setNeuron_keeps (h : Keeps s0 s) : ∀ x1 x2 x3, Keeps s0 (State.setNeuron s x1 x2 x3) := by
  unfold State.setNeuron
  repeat' first
    | with_reducible assumption
    | (intro x; refine (fun (hx : Keeps s0 x) => ?_) ?_; clear_value x; rotate_left; unfold x)
    | intro x
    | (lift_lets; intro x; try (refine (fun (hx : Keeps s0 x) => ?_) ?_; clear_value x; rotate_left; unfold x))
    | with_reducible apply State.setLe_keeps
    | with_reducible refine Keeps.mk_ ?_ rfl rfl rfl rfl rfl rfl
    | split

theorem State.setRow_keeps (h : Keeps s0 s) : ∀ x1 x2 x3, Keeps s0 (State.setRow s x1 x2 x3) := by
  unfold State.setRow
  repeat' first
    | with_reducible assumption
    | (intro x; refine (fun (hx : Keeps s0 x) => ?_) ?_; clear_value x; rotate_left; unfold x)
    | intro x
    | (lift_lets; intro x; try (refine (fun (hx : Keeps s0 x) => ?_) ?_; clear_value x; rotate_left; unfold x))
    | with_reducible apply State.setLe_keeps
    | with_reducible refine Keeps.mk_ ?_ rfl rfl rfl rfl rfl rfl

theorem State.modSyn_keeps (h : Keeps s0 s) : ∀ x1 x2 x3 x4, Keeps s0 (State.modSyn s x1 x2 x3 x4) := by
  unfold State.modSyn
  repeat' first
    | with_reducible assumption
    | intro x
    | with_reducible apply Keeps.ite
    | with_reducible apply State.setRow_keeps
    | with_reducible refine Keeps.mk_ ?_ rfl rfl rfl rfl rfl rfl
    | split

theorem State.setDirty_keeps (h : Keeps s0 s) : ∀ x1 x2, Keeps s0 (State.setDirty s x1 x2) := by
  unfold State.setDirty
  repeat' first
    | with_reducible assumption
    | (intro x; refine (fun (hx : Keeps s0 x) => ?_) ?_; clear_value x; rotate_left; unfold x)
    | intro x
    | (lift_lets; intro x; try (refine (fun (hx : Keeps s0 x) => ?_) ?_; clear_value x; rotate_left; unfold x))
    | split
    | with_reducible apply State.put_keeps
    | with_reducible apply State.setPop_keeps
    | with_reducible refine Keeps.mk_ ?_ rfl rfl rfl rfl rfl rfl
    | split

theorem State.leRecord_keeps (h : Keeps s0 s) : ∀ x1 x2 x3 x4, Keeps s0 (State.leRecord s x1 x2 x3 x4) := by
  unfold State.leRecord
  repeat' first
    | with_reducible assumption
    | intro x
    | with_reducible apply State.record_keeps
    | with_reducible refine Keeps.mk_ ?_ rfl rfl rfl rfl rfl rfl

theorem State.renormal_keeps (h : Keeps s0 s) : ∀ x1 x2, Keeps s0 (State.renormal s x1 x2) := by
  unfold State.renormal
  dsimp only
  repeat' first
    | with_reducible assumption
    | (intro x; refine (fun (hx : Keeps s0 x) => ?_) ?_; clear_value x; rotate_left; unfold x)
    | intro x
    | (lift_lets; intro x; try (refine (fun (hx : Keeps s0 x) => ?_) ?_; clear_value x; rotate_left; unfold x))
    | with_reducible apply Keeps.ite
    | split
    | with_reducible apply State.setNeuron_keeps
    | with_reducible refine Keeps.foldl ?_ ?_
    | with_reducible refine Keeps.mk_ ?_ rfl rfl rfl rfl rfl rfl
    | split

theorem State.resetNeuron_keeps (h : Keeps s0 s) : ∀ x1 x2 x3, Keeps s0 (State.resetNeuron s x1 x2 x3) := by
  unfold State.resetNeuron
  repeat' first
    | with_reducible assumption
    | (intro x; refine (fun (hx : Keeps s0 x) => ?_) ?_; clear_value x; rotate_left; unfold x)
    | intro x
    | (lift_lets; intro x; try (refine (fun (hx : Keeps s0 x) => ?_) ?_; clear_value x; rotate_left; unfold x))
    | split
    | with_reducible apply State.renormal_keeps
    | with_reducible apply State.setNeuron_keeps
    | with_reducible refine Keeps.mk_ ?_ rfl rfl rfl rfl rfl rfl
    | split

theorem State.touch_keeps (h : Keeps s0 s) : ∀ x1 x2 x3, Keeps s0 (State.touch s x1 x2 x3) := by
  unfold State.touch
  repeat' first
    | with_reducible assumption
    | (intro x; refine (fun (hx : Keeps s0 x) => ?_) ?_; clear_value x; rotate_left; unfold x)
    | intro x
    | (lift_lets; intro x; try (refine (fun (hx : Keeps s0 x) => ?_) ?_; clear_value x; rotate_left; unfold x))
    | with_reducible apply Keeps.ite
    | split
    | with_reducible apply State.leRecord_keeps
    | with_reducible apply State.bump_keeps
    | with_reducible apply State.resetNeuron_keeps
    | with_reducible apply State.setNeuron_keeps
    | with_reducible refine Keeps.mk_ ?_ rfl rfl rfl rfl rfl rfl
    | split

theorem State.checkNeuron_keeps (h : Keeps s0 s) : ∀ x1 x2 x3, Keeps s0 (State.checkNeuron s x1 x2 x3) := by
  unfold State.checkNeuron
  repeat' first
    | with_reducible assumption
    | (intro x; refine (fun (hx : Keeps s0 x) => ?_) ?_; clear_value x; rotate_left; unfold x)
    | intro x
    | (lift_lets; intro x; try (refine (fun (hx : Keeps s0 x) => ?_) ?_; clear_value x; rotate_left; unfold x))
    | with_reducible apply Keeps.ite
    | split
    | with_reducible apply State.bump_keeps
    | with_reducible apply State.resetNeuron_keeps
    | with_reducible refine Keeps.mk_ ?_ rfl rfl rfl rfl rfl rfl
    | split

theorem State.renormSweep_keeps (h : Keeps s0 s) : ∀ x1 x2, Keeps s0 (State.renormSweep s x1 x2) := by
  unfold State.renormSweep
  repeat' first
    | with_reducible assumption
    | (intro x; refine (fun (hx : Keeps s0 x) => ?_) ?_; clear_value x; rotate_left; unfold x)
    | intro x
    | (lift_lets; intro x; try (refine (fun (hx : Keeps s0 x) => ?_) ?_; clear_value x; rotate_left; unfold x))
    | with_reducible apply Keeps.ite
    | split
    | with_reducible apply State.setDirty_keeps
    | with_reducible apply State.modSyn_keeps
    | with_reducible apply State.bump_keeps
    | with_reducible apply State.renormal_keeps
    | with_reducible refine Keeps.foldl ?_ ?_
    | with_reducible refine Keeps.mk_ ?_ rfl rfl rfl rfl rfl rfl
    | split

theorem State.defer_keeps (h : Keeps s0 s) : ∀ x1 x2 x3, Keeps s0 (State.defer s x1 x2 x3) := by
  unfold State.defer
  repeat' first
    | with_reducible assumption
    | (intro x; refine (fun (hx : Keeps s0 x) => ?_) ?_; clear_value x; rotate_left; unfold x)
    | intro x
    | (lift_lets; intro x; try (refine (fun (hx : Keeps s0 x) => ?_) ?_; clear_value x; rotate_left; unfold x))
    | with_reducible apply Keeps.ite
    | split
    | with_reducible apply State.bump_keeps
    | with_reducible apply State.setLe_keeps
    | with_reducible refine Keeps.mk_ ?_ rfl rfl rfl rfl rfl rfl
    | split

theorem State.afterWeight_keeps (h : Keeps s0 s) : ∀ x1 x2, Keeps s0 (State.afterWeight s x1 x2) := by
  unfold State.afterWeight
  repeat' first
    | with_reducible assumption
    | (intro x; refine (fun (hx : Keeps s0 x) => ?_) ?_; clear_value x; rotate_left; unfold x)
    | intro x
    | (lift_lets; intro x; try (refine (fun (hx : Keeps s0 x) => ?_) ?_; clear_value x; rotate_left; unfold x))
    | with_reducible apply Keeps.ite
    | split
    | with_reducible apply State.renormal_keeps
    | with_reducible apply State.defer_keeps
    | with_reducible apply State.renormSweep_keeps
    | with_reducible refine Keeps.getD ?_ ?_
    | with_reducible refine Keeps.mk_ ?_ rfl rfl rfl rfl rfl rfl
    | split

theorem State.skipUpdate_keeps (h : Keeps s0 s) : ∀ x1, Keeps s0 (State.skipUpdate s x1) := by
  unfold State.skipUpdate
  repeat' first
    | with_reducible assumption
    | intro x
    | with_reducible apply Keeps.ite
    | with_reducible apply State.bump_keeps
    | with_reducible refine Keeps.mk_ ?_ rfl rfl rfl rfl rfl rfl
    | split

theorem State.update_keeps (h : Keeps s0 s) : ∀ x1 x2 x3 x4 x5 x6 x7 x8, Keeps s0 (State.update s x1 x2 x3 x4 x5 x6 x7 x8) := by
  unfold State.update
  repeat' first
    | with_reducible assumption
    | (intro x; refine (fun (hx : Keeps s0 x) => ?_) ?_; clear_value x; rotate_left; unfold x)
    | intro x
    | (lift_lets; intro x; try (refine (fun (hx : Keeps s0 x) => ?_) ?_; clear_value x; rotate_left; unfold x))
    | with_reducible apply Keeps.ite
    | split
    | with_reducible apply State.skipUpdate_keeps
    | with_reducible apply State.touch_keeps
    | with_reducible apply State.bump_keeps
    | with_reducible apply State.setDirty_keeps
    | with_reducible apply State.modSyn_keeps
    | with_reducible apply State.afterWeight_keeps
    | with_reducible refine Keeps.getD ?_ ?_
    | with_reducible refine Keeps.mk_ ?_ rfl rfl rfl rfl rfl rfl
    | split

theorem State.delayLearn_keeps (h : Keeps s0 s) : ∀ x1 x2 x3 x4 x5 x6 x7, Keeps s0 (State.delayLearn s x1 x2 x3 x4 x5 x6 x7) := by
  unfold State.delayLearn
  repeat' first
    | with_reducible assumption
    | (intro x; refine (fun (hx : Keeps s0 x) => ?_) ?_; clear_value x; rotate_left; unfold x)
    | intro x
    | (lift_lets; intro x; try (refine (fun (hx : Keeps s0 x) => ?_) ?_; clear_value x; rotate_left; unfold x))
    | with_reducible apply Keeps.ite
    | split
    | with_reducible apply State.skipUpdate_keeps
    | with_reducible apply State.setDirty_keeps
    | with_reducible apply State.modSyn_keeps
    | with_reducible apply State.bump_keeps
    | with_reducible refine Keeps.mk_ ?_ rfl rfl rfl rfl rfl rfl
    | split

theorem State.showRecords_keeps (h : Keeps s0 s) : ∀ x1, Keeps s0 (State.showRecords s x1) := by
  unfold State.showRecords
  repeat' first
    | with_reducible assumption
    | (intro x; refine (fun (hx : Keeps s0 x) => ?_) ?_; clear_value x; rotate_left; unfold x)
    | intro x
    | (lift_lets; intro x; try (refine (fun (hx : Keeps s0 x) => ?_) ?_; clear_value x; rotate_left; unfold x))
    | with_reducible apply State.put_keeps
    | with_reducible refine Keeps.foldl ?_ ?_
    | with_reducible refine Keeps.mk_ ?_ rfl rfl rfl rfl rfl rfl

theorem State.reclaim_keeps (h : Keeps s0 s) : ∀ x1 x2 x3 x4, Keeps s0 (State.reclaim s x1 x2 x3 x4) := by
  unfold State.reclaim
  repeat' first
    | with_reducible assumption
    | (intro x; refine (fun (hx : Keeps s0 x) => ?_) ?_; clear_value x; rotate_left; unfold x)
    | intro x
    | (lift_lets; intro x; try (refine (fun (hx : Keeps s0 x) => ?_) ?_; clear_value x; rotate_left; unfold x))
    | with_reducible apply Keeps.ite
    | split
    | with_reducible apply State.setRow_keeps
    | with_reducible refine Keeps.foldl ?_ ?_
    | with_reducible refine Keeps.mk_ ?_ rfl rfl rfl rfl rfl rfl
    | split

theorem State.createSyn_keeps (h : Keeps s0 s) : ∀ x1 x2 x3, Keeps s0 (State.createSyn s x1 x2 x3) := by
  unfold State.createSyn
  dsimp only
  repeat' first
    | with_reducible assumption
    | (intro x; refine (fun (hx : Keeps s0 x) => ?_) ?_; clear_value x; rotate_left; unfold x)
    | intro x
    | (lift_lets; intro x; try (refine (fun (hx : Keeps s0 x) => ?_) ?_; clear_value x; rotate_left; unfold x))
    | with_reducible apply Keeps.ite
    | split
    | with_reducible apply State.bump_keeps
    | with_reducible apply State.reclaim_keeps
    | with_reducible apply State.setLe_keeps
    | with_reducible apply State.setDirty_keeps
    | with_reducible apply State.setRow_keeps
    | with_reducible apply State.showRecords_keeps
    | with_reducible apply State.afterWeight_keeps
    | with_reducible refine Keeps.mk_ ?_ rfl rfl rfl rfl rfl rfl
    | split

theorem State.candidate_keeps (h : Keeps s0 s) : ∀ x1 x2 x3 x4, Keeps s0 (State.candidate s x1 x2 x3 x4) := by
  unfold State.candidate
  repeat' first
    | with_reducible assumption
    | (intro x; refine (fun (hx : Keeps s0 x) => ?_) ?_; clear_value x; rotate_left; unfold x)
    | intro x
    | (lift_lets; intro x; try (refine (fun (hx : Keeps s0 x) => ?_) ?_; clear_value x; rotate_left; unfold x))
    | with_reducible apply Keeps.ite
    | split
    | with_reducible apply State.setLe_keeps
    | with_reducible apply State.createSyn_keeps
    | with_reducible refine Keeps.mk_ ?_ rfl rfl rfl rfl rfl rfl
    | split

theorem State.structural_keeps (h : Keeps s0 s) : ∀ x1 x2 x3 x4 x5, Keeps s0 (State.structural s x1 x2 x3 x4 x5) := by
  unfold State.structural
  repeat' first
    | with_reducible assumption
    | (intro x; refine (fun (hx : Keeps s0 x) => ?_) ?_; clear_value x; rotate_left; unfold x)
    | intro x
    | (lift_lets; intro x; try (refine (fun (hx : Keeps s0 x) => ?_) ?_; clear_value x; rotate_left; unfold x))
    | with_reducible apply Keeps.ite
    | split
    | with_reducible apply State.skipUpdate_keeps
    | with_reducible apply State.candidate_keeps
    | with_reducible refine Keeps.foldl ?_ ?_
    | with_reducible refine Keeps.mk_ ?_ rfl rfl rfl rfl rfl rfl
    | split

theorem State.learnSpike_keeps (h : Keeps s0 s) : ∀ x1 x2 x3 x4 x5 x6, Keeps s0 (State.learnSpike s x1 x2 x3 x4 x5 x6) := by
  unfold State.learnSpike
  repeat' first
    | with_reducible assumption
    | (intro x; refine (fun (hx : Keeps s0 x) => ?_) ?_; clear_value x; rotate_left; unfold x)
    | intro x
    | (lift_lets; intro x; try (refine (fun (hx : Keeps s0 x) => ?_) ?_; clear_value x; rotate_left; unfold x))
    | with_reducible apply State.bump_keeps
    | with_reducible apply State.delayLearn_keeps
    | with_reducible apply State.update_keeps
    | with_reducible apply State.structural_keeps
    | with_reducible refine Keeps.foldl ?_ ?_
    | with_reducible refine Keeps.mk_ ?_ rfl rfl rfl rfl rfl rfl

theorem State.trigPre_keeps (h : Keeps s0 s) : ∀ x1 x2 x3 x4 x5 x6, Keeps s0 (State.trigPre s x1 x2 x3 x4 x5 x6) := by
  unfold State.trigPre
  repeat' first
    | with_reducible assumption
    | (intro x; refine (fun (hx : Keeps s0 x) => ?_) ?_; clear_value x; rotate_left; unfold x)
    | intro x
    | (lift_lets; intro x; try (refine (fun (hx : Keeps s0 x) => ?_) ?_; clear_value x; rotate_left; unfold x))
    | with_reducible apply Keeps.ite
    | split
    | with_reducible apply State.defer_keeps
    | with_reducible apply State.update_keeps
    | with_reducible refine Keeps.mk_ ?_ rfl rfl rfl rfl rfl rfl
    | split

theorem State.trigSpike_keeps (h : Keeps s0 s) : ∀ x1 x2 x3 x4, Keeps s0 (State.trigSpike s x1 x2 x3 x4) := by
  unfold State.trigSpike
  repeat' first
    | with_reducible assumption
    | (intro x; refine (fun (hx : Keeps s0 x) => ?_) ?_; clear_value x; rotate_left; unfold x)
    | intro x
    | (lift_lets; intro x; try (refine (fun (hx : Keeps s0 x) => ?_) ?_; clear_value x; rotate_left; unfold x))
    | with_reducible apply Keeps.ite
    | split
    | with_reducible apply State.defer_keeps
    | with_reducible apply State.learnSpike_keeps
    | with_reducible refine Keeps.mk_ ?_ rfl rfl rfl rfl rfl rfl
    | split

theorem State.schedule_keeps (h : Keeps s0 s) : ∀ x1 x2 x3 x4 x5, Keeps s0 (State.schedule s x1 x2 x3 x4 x5).2 := by
  unfold State.schedule
  repeat' first
    | with_reducible assumption
    | (intro x; refine (fun (hx : Keeps s0 x) => ?_) ?_; clear_value x; rotate_left; unfold x)
    | intro x
    | (lift_lets; intro x; try (refine (fun (hx : Keeps s0 x) => ?_) ?_; clear_value x; rotate_left; unfold x))
    | with_reducible apply Keeps.ite
    | with_reducible apply Keeps.ite2
    | split
    | with_reducible apply State.setLe_keeps
    | with_reducible apply State.bump_keeps
    | with_reducible apply State.leRecord_keeps
    | with_reducible apply State.setPop_keeps
    | with_reducible refine Keeps.foldl2 ?_ ?_
    | with_reducible refine Keeps.foldl ?_ ?_
    | with_reducible refine Keeps.mk_ ?_ rfl rfl rfl rfl rfl rfl
    | split

theorem State.noteSpike_keeps (h : Keeps s0 s) : ∀ x1 x2 x3, Keeps s0 (State.noteSpike s x1 x2 x3) := by
  unfold State.noteSpike
  repeat' first
    | with_reducible assumption
    | (intro x; refine (fun (hx : Keeps s0 x) => ?_) ?_; clear_value x; rotate_left; unfold x)
    | intro x
    | (lift_lets; intro x; try (refine (fun (hx : Keeps s0 x) => ?_) ?_; clear_value x; rotate_left; unfold x))
    | with_reducible apply Keeps.ite
    | with_reducible apply State.setLe_keeps
    | with_reducible refine Keeps.mk_ ?_ rfl rfl rfl rfl rfl rfl
    | split

theorem State.visit_keeps (h : Keeps s0 s) : ∀ x1 x2 x3 x4, Keeps s0 (State.visit s x1 x2 x3 x4).2 := by
  unfold State.visit
  repeat' first
    | with_reducible assumption
    | (intro x; refine (fun (hx : Keeps s0 x) => ?_) ?_; clear_value x; rotate_left; unfold x)
    | intro x
    | (lift_lets; intro x; try (refine (fun (hx : Keeps s0 x) => ?_) ?_; clear_value x; rotate_left; unfold x))
    | with_reducible apply Keeps.ite
    | with_reducible apply Keeps.ite2
    | split
    | with_reducible apply State.showRecords_keeps
    | with_reducible apply State.leRecord_keeps
    | with_reducible apply State.bump_keeps
    | with_reducible apply State.setDirty_keeps
    | with_reducible apply State.modSyn_keeps
    | with_reducible refine Keeps.mk_ ?_ rfl rfl rfl rfl rfl rfl
    | split

theorem State.spikeNeuron_keeps (h : Keeps s0 s) : ∀ x1 x2 x3 x4, Keeps s0 (State.spikeNeuron s x1 x2 x3 x4).2 := by
  unfold State.spikeNeuron
  repeat' first
    | with_reducible assumption
    | (intro x; refine (fun (hx : Keeps s0 x) => ?_) ?_; clear_value x; rotate_left; unfold x)
    | intro x
    | (lift_lets; intro x; try (refine (fun (hx : Keeps s0 x) => ?_) ?_; clear_value x; rotate_left; unfold x))
    | split
    | with_reducible apply State.setNeuron_keeps
    | with_reducible apply State.trigSpike_keeps
    | with_reducible apply State.checkNeuron_keeps
    | with_reducible apply State.schedule_keeps
    | with_reducible apply State.noteSpike_keeps
    | with_reducible refine Keeps.of_pair (by assumption) ?_
    | with_reducible refine Keeps.mk_ ?_ rfl rfl rfl rfl rfl rfl
    | split

theorem State.deliver_keeps (h : Keeps s0 s) : ∀ x1 x2 x3, Keeps s0 (State.deliver s x1 x2 x3).2 := by
  unfold State.deliver
  repeat' first
    | with_reducible assumption
    | (intro x; refine (fun (hx : Keeps s0 x) => ?_) ?_; clear_value x; rotate_left; unfold x)
    | intro x
    | (lift_lets; intro x; try (refine (fun (hx : Keeps s0 x) => ?_) ?_; clear_value x; rotate_left; unfold x))
    | with_reducible apply Keeps.ite
    | with_reducible apply Keeps.ite2
    | split
    | with_reducible apply State.bump_keeps
    | with_reducible apply State.visit_keeps
    | with_reducible apply State.trigPre_keeps
    | with_reducible apply State.touch_keeps
    | with_reducible apply State.checkNeuron_keeps
    | with_reducible apply State.setNeuron_keeps
    | with_reducible apply State.spikeNeuron_keeps
    | with_reducible refine Keeps.of_pair (by assumption) ?_
    | with_reducible refine Keeps.mk_ ?_ rfl rfl rfl rfl rfl rfl
    | split

theorem State.runDeliv_keeps (h : Keeps s0 s) : ∀ x0 x1 x2 x3, Keeps s0 (State.runDeliv x0 x1 x2 x3 s) := by
  intro x0 x1 x2
  induction x2 generalizing s with
  | zero =>
    intros
    rw [State.runDeliv]
    exact h
  | succ n ih =>
    intro x3
    cases x3 with
    | nil =>
      rw [State.runDeliv]
      · exact h
      all_goals (intros; contradiction)
    | cons y ys =>
      rw [State.runDeliv]
      repeat' first
        | with_reducible assumption
        | (intro x; refine (fun (hx : Keeps s0 x) => ?_) ?_; clear_value x; rotate_left; unfold x)
        | intro x
        | (lift_lets; intro x; try (refine (fun (hx : Keeps s0 x) => ?_) ?_; clear_value x; rotate_left; unfold x))
        | with_reducible apply State.deliver_keeps
        | with_reducible apply ih
        | with_reducible refine Keeps.of_pair (by assumption) ?_
        | with_reducible refine Keeps.mk_ ?_ rfl rfl rfl rfl rfl rfl

theorem State.dropEntry_keeps (h : Keeps s0 s) : ∀ x1 x2 x3, Keeps s0 (State.dropEntry s x1 x2 x3) := by
  unfold State.dropEntry
  repeat' first
    | with_reducible assumption
    | (intro x; refine (fun (hx : Keeps s0 x) => ?_) ?_; clear_value x; rotate_left; unfold x)
    | intro x
    | (lift_lets; intro x; try (refine (fun (hx : Keeps s0 x) => ?_) ?_; clear_value x; rotate_left; unfold x))
    | with_reducible apply State.setDirty_keeps
    | with_reducible apply State.afterWeight_keeps
    | with_reducible apply State.modSyn_keeps
    | with_reducible refine Keeps.mk_ ?_ rfl rfl rfl rfl rfl rfl

theorem State.sweepSyn_keeps (h : Keeps s0 s) : ∀ x1 x2 x3 x4 x5, Keeps s0 (State.sweepSyn s x1 x2 x3 x4 x5) := by
  unfold State.sweepSyn
  dsimp only
  repeat' first
    | with_reducible assumption
    | (intro x; refine (fun (hx : Keeps s0 x) => ?_) ?_; clear_value x; rotate_left; unfold x)
    | intro x
    | (lift_lets; intro x; try (refine (fun (hx : Keeps s0 x) => ?_) ?_; clear_value x; rotate_left; unfold x))
    | with_reducible apply Keeps.ite
    | split
    | with_reducible apply State.dropEntry_keeps
    | with_reducible apply State.bump_keeps
    | with_reducible apply State.visit_keeps
    | with_reducible apply State.setDirty_keeps
    | with_reducible apply State.modSyn_keeps
    | with_reducible apply State.showRecords_keeps
    | with_reducible apply State.afterWeight_keeps
    | with_reducible refine Keeps.getD ?_ ?_
    | with_reducible refine Keeps.of_pair (by assumption) ?_
    | with_reducible refine Keeps.mk_ ?_ rfl rfl rfl rfl rfl rfl
    | split

theorem State.sweep_keeps (h : Keeps s0 s) : ∀ x1 x2 x3, Keeps s0 (State.sweep s x1 x2 x3) := by
  unfold State.sweep
  repeat' first
    | with_reducible assumption
    | (intro x; refine (fun (hx : Keeps s0 x) => ?_) ?_; clear_value x; rotate_left; unfold x)
    | intro x
    | (lift_lets; intro x; try (refine (fun (hx : Keeps s0 x) => ?_) ?_; clear_value x; rotate_left; unfold x))
    | split
    | with_reducible apply State.sweepSyn_keeps
    | with_reducible refine Keeps.foldl ?_ ?_
    | with_reducible refine Keeps.mk_ ?_ rfl rfl rfl rfl rfl rfl
    | split

theorem State.applyTrig_keeps (h : Keeps s0 s) : ∀ x1 x2, Keeps s0 (State.applyTrig s x1 x2) := by
  unfold State.applyTrig
  repeat' first
    | with_reducible assumption
    | (intro x; refine (fun (hx : Keeps s0 x) => ?_) ?_; clear_value x; rotate_left; unfold x)
    | intro x
    | (lift_lets; intro x; try (refine (fun (hx : Keeps s0 x) => ?_) ?_; clear_value x; rotate_left; unfold x))
    | split
    | with_reducible apply State.update_keeps
    | with_reducible apply State.learnSpike_keeps
    | with_reducible apply State.renormSweep_keeps
    | with_reducible refine Keeps.mk_ ?_ rfl rfl rfl rfl rfl rfl
    | split

theorem State.endPause_keeps (h : Keeps s0 s) : ∀ x1, Keeps s0 (State.endPause s x1) := by
  unfold State.endPause
  repeat' first
    | with_reducible assumption
    | (intro x; refine (fun (hx : Keeps s0 x) => ?_) ?_; clear_value x; rotate_left; unfold x)
    | intro x
    | (lift_lets; intro x; try (refine (fun (hx : Keeps s0 x) => ?_) ?_; clear_value x; rotate_left; unfold x))
    | with_reducible apply Keeps.ite
    | split
    | with_reducible apply State.setLe_keeps
    | with_reducible apply State.applyTrig_keeps
    | with_reducible apply State.sweep_keeps
    | with_reducible apply State.emitReport_keeps
    | with_reducible refine Keeps.foldl ?_ ?_
    | with_reducible refine Keeps.mk_ ?_ rfl rfl rfl rfl rfl rfl
    | split

theorem State.setLrn_keeps (h : Keeps s0 s) : ∀ x1 x2, Keeps s0 (State.setLrn s x1 x2) := by
  unfold State.setLrn
  repeat' first
    | with_reducible assumption
    | (intro x; refine (fun (hx : Keeps s0 x) => ?_) ?_; clear_value x; rotate_left; unfold x)
    | intro x
    | (lift_lets; intro x; try (refine (fun (hx : Keeps s0 x) => ?_) ?_; clear_value x; rotate_left; unfold x))
    | with_reducible refine Keeps.mk_ ?_ rfl rfl rfl rfl rfl rfl

theorem State.setMod_keeps (h : Keeps s0 s) : ∀ x1, Keeps s0 (State.setMod s x1) := by
  unfold State.setMod
  repeat' first
    | with_reducible assumption
    | (intro x; refine (fun (hx : Keeps s0 x) => ?_) ?_; clear_value x; rotate_left; unfold x)
    | intro x
    | (lift_lets; intro x; try (refine (fun (hx : Keeps s0 x) => ?_) ?_; clear_value x; rotate_left; unfold x))
    | with_reducible apply Keeps.ite
    | with_reducible apply State.setLrn_keeps
    | with_reducible apply State.put_keeps
    | with_reducible refine Keeps.mk_ ?_ rfl rfl rfl rfl rfl rfl
    | split

theorem State.teach_keeps (h : Keeps s0 s) : ∀ x1 x2, Keeps s0 (State.teach s x1 x2) := by
  unfold State.teach
  repeat' first
    | with_reducible assumption
    | (intro x; refine (fun (hx : Keeps s0 x) => ?_) ?_; clear_value x; rotate_left; unfold x)
    | intro x
    | (lift_lets; intro x; try (refine (fun (hx : Keeps s0 x) => ?_) ?_; clear_value x; rotate_left; unfold x))
    | with_reducible apply State.emitHealth_keeps
    | with_reducible apply State.setMod_keeps
    | with_reducible apply State.setLrn_keeps
    | with_reducible refine Keeps.mk_ ?_ rfl rfl rfl rfl rfl rfl

theorem State.mark_keeps (h : Keeps s0 s) : ∀ x1 x2, Keeps s0 (State.mark s x1 x2) := by
  unfold State.mark
  repeat' first
    | with_reducible assumption
    | (intro x; refine (fun (hx : Keeps s0 x) => ?_) ?_; clear_value x; rotate_left; unfold x)
    | intro x
    | (lift_lets; intro x; try (refine (fun (hx : Keeps s0 x) => ?_) ?_; clear_value x; rotate_left; unfold x))
    | with_reducible apply State.emitHealth_keeps
    | with_reducible apply State.setMod_keeps
    | with_reducible apply State.setLrn_keeps
    | with_reducible refine Keeps.mk_ ?_ rfl rfl rfl rfl rfl rfl

theorem State.cancelMod_keeps (h : Keeps s0 s) : ∀ x1 x2, Keeps s0 (State.cancelMod s x1 x2) := by
  unfold State.cancelMod
  repeat' first
    | with_reducible assumption
    | (intro x; refine (fun (hx : Keeps s0 x) => ?_) ?_; clear_value x; rotate_left; unfold x)
    | intro x
    | (lift_lets; intro x; try (refine (fun (hx : Keeps s0 x) => ?_) ?_; clear_value x; rotate_left; unfold x))
    | with_reducible apply State.emitHealth_keeps
    | with_reducible apply State.setMod_keeps
    | with_reducible apply State.setLrn_keeps
    | with_reducible refine Keeps.mk_ ?_ rfl rfl rfl rfl rfl rfl

theorem State.ackLane_keeps (h : Keeps s0 s) : ∀ x1 x2, Keeps s0 (State.ackLane s x1 x2) := by
  unfold State.ackLane
  repeat' first
    | with_reducible assumption
    | intro x
    | with_reducible apply Keeps.ite
    | with_reducible apply State.emitHealth_keeps
    | with_reducible apply State.put_keeps
    | with_reducible refine Keeps.mk_ ?_ rfl rfl rfl rfl rfl rfl
    | split

theorem State.predictError_keeps (h : Keeps s0 s) : ∀ x1 x2 x3 x4 x5 x6 x7, Keeps s0 (State.predictError s x1 x2 x3 x4 x5 x6 x7) := by
  unfold State.predictError
  repeat' first
    | with_reducible assumption
    | (intro x; refine (fun (hx : Keeps s0 x) => ?_) ?_; clear_value x; rotate_left; unfold x)
    | intro x
    | (lift_lets; intro x; try (refine (fun (hx : Keeps s0 x) => ?_) ?_; clear_value x; rotate_left; unfold x))
    | with_reducible apply Keeps.ite
    | split
    | with_reducible apply State.touch_keeps
    | with_reducible apply State.setNeuron_keeps
    | with_reducible apply State.setLrn_keeps
    | with_reducible refine Keeps.mk_ ?_ rfl rfl rfl rfl rfl rfl
    | split

theorem State.novelty_keeps (h : Keeps s0 s) : ∀ x1 x2 x3 x4 x5 x6 x7, Keeps s0 (State.novelty s x1 x2 x3 x4 x5 x6 x7) := by
  unfold State.novelty
  repeat' first
    | with_reducible assumption
    | (intro x; refine (fun (hx : Keeps s0 x) => ?_) ?_; clear_value x; rotate_left; unfold x)
    | intro x
    | (lift_lets; intro x; try (refine (fun (hx : Keeps s0 x) => ?_) ?_; clear_value x; rotate_left; unfold x))
    | with_reducible apply Keeps.ite
    | with_reducible apply State.put_keeps
    | with_reducible apply State.emitReport_keeps
    | with_reducible apply State.setLrn_keeps
    | with_reducible refine Keeps.mk_ ?_ rfl rfl rfl rfl rfl rfl
    | split

theorem State.scoreEntry_keeps (h : Keeps s0 s) : ∀ x1 x2 x3 x4, Keeps s0 (State.scoreEntry s x1 x2 x3 x4) := by
  unfold State.scoreEntry
  repeat' first
    | with_reducible assumption
    | (intro x; refine (fun (hx : Keeps s0 x) => ?_) ?_; clear_value x; rotate_left; unfold x)
    | intro x
    | (lift_lets; intro x; try (refine (fun (hx : Keeps s0 x) => ?_) ?_; clear_value x; rotate_left; unfold x))
    | with_reducible apply Keeps.ite
    | split
    | with_reducible apply State.put_keeps
    | with_reducible apply State.setLrn_keeps
    | with_reducible apply State.novelty_keeps
    | with_reducible refine Keeps.getD ?_ ?_
    | with_reducible refine Keeps.mk_ ?_ rfl rfl rfl rfl rfl rfl
    | split

end Sys2Proof.Machine
end

