-- ==== Sys2Proof/Laws/KeepsMboxOps.lean ====
section
/-!
SUPPORT. What every operation of Machine/MboxOps.lean keeps (see Laws/Keeps.lean).
-/
namespace Sys2Proof.Machine

set_option Elab.async false
set_option linter.unreachableTactic false
set_option linter.unusedTactic false

variable {s0 s t : State}

theorem State.writeBytes_keeps (h : Keeps s0 s) : ∀ x1 x2, Keeps s0 (State.writeBytes s x1 x2) := by
  unfold State.writeBytes
  repeat' first
    | with_reducible assumption
    | intro x
    | with_reducible apply State.ownBytes_keeps
    | with_reducible refine Keeps.mk_ ?_ rfl rfl rfl rfl rfl rfl

theorem State.mbFault_keeps (h : Keeps s0 s) : ∀ x1 x2, Keeps s0 (State.mbFault s x1 x2) := by
  unfold State.mbFault
  repeat' first
    | with_reducible assumption
    | intro x
    | with_reducible apply State.record_keeps
    | with_reducible apply State.put_keeps
    | with_reducible refine Keeps.mk_ ?_ rfl rfl rfl rfl rfl rfl

theorem State.mbWrite_keeps (h : Keeps s0 s) : ∀ x1 x2 x3 x4 x5 x6 x7 x8, Keeps s0 (State.mbWrite s x1 x2 x3 x4 x5 x6 x7 x8) := by
  unfold State.mbWrite
  repeat' first
    | with_reducible assumption
    | (intro x; refine (fun (hx : Keeps s0 x) => ?_) ?_; clear_value x; rotate_left; unfold x)
    | intro x
    | (lift_lets; intro x; try (refine (fun (hx : Keeps s0 x) => ?_) ?_; clear_value x; rotate_left; unfold x))
    | with_reducible apply Keeps.ite
    | with_reducible apply State.mbFault_keeps
    | with_reducible apply State.emit_keeps
    | with_reducible apply State.writeBytes_keeps
    | with_reducible apply State.msix_keeps
    | with_reducible refine Keeps.mk_ ?_ rfl rfl rfl rfl rfl rfl
    | split

theorem State.mbComplete_keeps (h : Keeps s0 s) : ∀ x1 x2 x3 x4 x5 x6, Keeps s0 (State.mbComplete s x1 x2 x3 x4 x5 x6) := by
  unfold State.mbComplete
  repeat' first
    | with_reducible assumption
    | (intro x; refine (fun (hx : Keeps s0 x) => ?_) ?_; clear_value x; rotate_left; unfold x)
    | intro x
    | (lift_lets; intro x; try (refine (fun (hx : Keeps s0 x) => ?_) ?_; clear_value x; rotate_left; unfold x))
    | with_reducible apply State.mbWrite_keeps
    | with_reducible refine Keeps.mk_ ?_ rfl rfl rfl rfl rfl rfl

theorem State.mbEnd_keeps (h : Keeps s0 s) : ∀ x1 x2 x3, Keeps s0 (State.mbEnd s x1 x2 x3) := by
  unfold State.mbEnd
  repeat' first
    | with_reducible assumption
    | (intro x; refine (fun (hx : Keeps s0 x) => ?_) ?_; clear_value x; rotate_left; unfold x)
    | intro x
    | (lift_lets; intro x; try (refine (fun (hx : Keeps s0 x) => ?_) ?_; clear_value x; rotate_left; unfold x))
    | split
    | with_reducible apply State.mbComplete_keeps
    | with_reducible refine Keeps.mk_ ?_ rfl rfl rfl rfl rfl rfl
    | split

theorem State.mbEndFor_keeps (h : Keeps s0 s) : ∀ x1 x2 x3, Keeps s0 (State.mbEndFor s x1 x2 x3) := by
  unfold State.mbEndFor
  repeat' first
    | with_reducible assumption
    | (intro x; refine (fun (hx : Keeps s0 x) => ?_) ?_; clear_value x; rotate_left; unfold x)
    | intro x
    | (lift_lets; intro x; try (refine (fun (hx : Keeps s0 x) => ?_) ?_; clear_value x; rotate_left; unfold x))
    | split
    | with_reducible apply State.mbEnd_keeps
    | with_reducible refine Keeps.mk_ ?_ rfl rfl rfl rfl rfl rfl
    | split

end Sys2Proof.Machine
end

