-- ==== Sys2Proof/Laws/KeepsBhOps.lean ====
section
/-!
SUPPORT. What every operation of Machine/BhOps.lean keeps (see Laws/Keeps.lean).
-/
namespace Sys2Proof.Machine

set_option Elab.async false
set_option linter.unreachableTactic false
set_option linter.unusedTactic false

variable {s0 s t : State}

theorem State.setBank_keeps (h : Keeps s0 s) : ∀ x1 x2, Keeps s0 (State.setBank s x1 x2) := by
  unfold State.setBank
  repeat' first
    | with_reducible assumption
    | (intro x; refine (fun (hx : Keeps s0 x) => ?_) ?_; clear_value x; rotate_left; unfold x)
    | intro x
    | (lift_lets; intro x; try (refine (fun (hx : Keeps s0 x) => ?_) ?_; clear_value x; rotate_left; unfold x))
    | with_reducible apply State.put_keeps
    | with_reducible refine Keeps.mk_ ?_ rfl rfl rfl rfl rfl rfl

theorem State.lineBlocks_keeps (h : Keeps s0 s) : ∀ x1 x2 x3, Keeps s0 (State.lineBlocks s x1 x2 x3) := by
  unfold State.lineBlocks
  repeat' first
    | with_reducible assumption
    | (intro x; refine (fun (hx : Keeps s0 x) => ?_) ?_; clear_value x; rotate_left; unfold x)
    | intro x
    | (lift_lets; intro x; try (refine (fun (hx : Keeps s0 x) => ?_) ?_; clear_value x; rotate_left; unfold x))
    | with_reducible refine Keeps.foldl ?_ ?_
    | with_reducible refine Keeps.mk_ ?_ rfl rfl rfl rfl rfl rfl

theorem State.takeBlocks_keeps (h : Keeps s0 s) : ∀ b n part l t, State.takeBlocks s b n part = some (l, t) → Keeps s0 t := by
  intro b n part l t e
  unfold State.takeBlocks at e
  simp only at e
  split at e
  · cases e
  · cases e
    exact State.lineBlocks_keeps (State.setBank_keeps h _ _) _ _ _

theorem State.freeBlocks_keeps (h : Keeps s0 s) : ∀ x1 x2, Keeps s0 (State.freeBlocks s x1 x2) := by
  unfold State.freeBlocks
  repeat' first
    | with_reducible assumption
    | (intro x; refine (fun (hx : Keeps s0 x) => ?_) ?_; clear_value x; rotate_left; unfold x)
    | intro x
    | (lift_lets; intro x; try (refine (fun (hx : Keeps s0 x) => ?_) ?_; clear_value x; rotate_left; unfold x))
    | with_reducible apply State.lineBlocks_keeps
    | with_reducible apply State.setBank_keeps
    | with_reducible refine Keeps.foldl ?_ ?_
    | with_reducible refine Keeps.mk_ ?_ rfl rfl rfl rfl rfl rfl

theorem State.bhWrite_keeps (h : Keeps s0 s) : ∀ x1 x2, Keeps s0 (State.bhWrite s x1 x2) := by
  unfold State.bhWrite
  repeat' first
    | with_reducible assumption
    | (intro x; refine (fun (hx : Keeps s0 x) => ?_) ?_; clear_value x; rotate_left; unfold x)
    | intro x
    | (lift_lets; intro x; try (refine (fun (hx : Keeps s0 x) => ?_) ?_; clear_value x; rotate_left; unfold x))
    | with_reducible refine Keeps.foldl ?_ ?_
    | with_reducible refine Keeps.mk_ ?_ rfl rfl rfl rfl rfl rfl

theorem State.logRecord_keeps (h : Keeps s0 s) : ∀ x1 x2 x3 x4 x5 x6 x7 x8, Keeps s0 (State.logRecord s x1 x2 x3 x4 x5 x6 x7 x8) := by
  unfold State.logRecord
  repeat' first
    | with_reducible assumption
    | (intro x; refine (fun (hx : Keeps s0 x) => ?_) ?_; clear_value x; rotate_left; unfold x)
    | intro x
    | (lift_lets; intro x; try (refine (fun (hx : Keeps s0 x) => ?_) ?_; clear_value x; rotate_left; unfold x))
    | with_reducible apply State.bhWrite_keeps
    | with_reducible apply State.setBank_keeps
    | with_reducible refine Keeps.mk_ ?_ rfl rfl rfl rfl rfl rfl

theorem State.loadPop_keeps (h : Keeps s0 s) : ∀ x1 x2 x3 x4, Keeps s0 (State.loadPop s x1 x2 x3 x4) := by
  intro x1 x2 x3 x4
  unfold State.loadPop
  exact Keeps.foldl1 (Keeps.foldl h fun s i hs => State.setNeuron_keeps hs _ _ _) fun p i hp => State.setLe_keeps (State.setRow_keeps hp _ _ _) _ _

theorem State.renormPop_keeps (h : Keeps s0 s) : ∀ x1 x2, Keeps s0 (State.renormPop s x1 x2) := by
  unfold State.renormPop
  repeat' first
    | with_reducible assumption
    | (intro x; refine (fun (hx : Keeps s0 x) => ?_) ?_; clear_value x; rotate_left; unfold x)
    | intro x
    | (lift_lets; intro x; try (refine (fun (hx : Keeps s0 x) => ?_) ?_; clear_value x; rotate_left; unfold x))
    | with_reducible apply State.showRecords_keeps
    | with_reducible apply State.renormal_keeps
    | with_reducible refine Keeps.foldl ?_ ?_
    | with_reducible refine Keeps.mk_ ?_ rfl rfl rfl rfl rfl rfl

theorem State.showLe_keeps (h : Keeps s0 s) : ∀ x1, Keeps s0 (State.showLe s x1) := by
  unfold State.showLe
  repeat' first
    | with_reducible assumption
    | (intro x; refine (fun (hx : Keeps s0 x) => ?_) ?_; clear_value x; rotate_left; unfold x)
    | intro x
    | (lift_lets; intro x; try (refine (fun (hx : Keeps s0 x) => ?_) ?_; clear_value x; rotate_left; unfold x))
    | with_reducible apply Keeps.ite
    | with_reducible apply State.put_keeps
    | with_reducible refine Keeps.mk_ ?_ rfl rfl rfl rfl rfl rfl
    | split

theorem State.dropPop_keeps (h : Keeps s0 s) : ∀ x1 x2, Keeps s0 (State.dropPop s x1 x2) := by
  unfold State.dropPop
  repeat' first
    | with_reducible assumption
    | (intro x; refine (fun (hx : Keeps s0 x) => ?_) ?_; clear_value x; rotate_left; unfold x)
    | intro x
    | (lift_lets; intro x; try (refine (fun (hx : Keeps s0 x) => ?_) ?_; clear_value x; rotate_left; unfold x))
    | split
    | with_reducible apply State.setLe_keeps
    | with_reducible apply State.showLe_keeps
    | with_reducible apply State.showRecords_keeps
    | with_reducible apply State.put_keeps
    | with_reducible refine Keeps.mk_ ?_ rfl rfl rfl rfl rfl rfl
    | split

theorem State.popResult_keeps (h : Keeps s0 s) : ∀ x1 x2 x3 x4, Keeps s0 (State.popResult s x1 x2 x3 x4) := by
  unfold State.popResult
  repeat' first
    | with_reducible assumption
    | (intro x; refine (fun (hx : Keeps s0 x) => ?_) ?_; clear_value x; rotate_left; unfold x)
    | intro x
    | (lift_lets; intro x; try (refine (fun (hx : Keeps s0 x) => ?_) ?_; clear_value x; rotate_left; unfold x))
    | with_reducible apply Keeps.ite
    | with_reducible apply State.put_keeps
    | with_reducible apply State.record_keeps
    | with_reducible refine Keeps.mk_ ?_ rfl rfl rfl rfl rfl rfl
    | split

theorem State.holdSlot_keeps (h : Keeps s0 s) : ∀ x1 x2 x3 x4, Keeps s0 (State.holdSlot s x1 x2 x3 x4) := by
  unfold State.holdSlot
  repeat' first
    | with_reducible assumption
    | (intro x; refine (fun (hx : Keeps s0 x) => ?_) ?_; clear_value x; rotate_left; unfold x)
    | intro x
    | (lift_lets; intro x; try (refine (fun (hx : Keeps s0 x) => ?_) ?_; clear_value x; rotate_left; unfold x))
    | with_reducible apply State.setBank_keeps
    | with_reducible refine Keeps.foldl ?_ ?_
    | with_reducible refine Keeps.mk_ ?_ rfl rfl rfl rfl rfl rfl
    | split

theorem State.restorePop_keeps (h : Keeps s0 s) : ∀ x1 x2 x3, Keeps s0 (State.restorePop s x1 x2 x3) := by
  intro x1 x2 x3
  have hf : ∀ r, Keeps s0 ((s.loadPop x1 x2 x3 true).popResult x1 (x2.f 0 1) x2.part r) := fun r =>
    State.popResult_keeps (State.loadPop_keeps h _ _ _ _) _ _ _ _
  unfold State.restorePop
  dsimp only
  split
  · refine Keeps.ite (hf 6) ?_
    exact State.popResult_keeps (State.put_keeps (State.put_keeps (State.loadPop_keeps (State.lineBlocks_keeps (State.holdSlot_keeps h _ _ _ _) _ _ _) _ _ _ _) _ _ _) _ _ _) _ _ _ _
  · exact Keeps.ite (hf 5) (Keeps.ite (hf 4) (hf 3))

theorem State.meetBch_keeps (h : Keeps s0 s) : ∀ x1 x2, Keeps s0 (State.meetBch s x1 x2) := by
  unfold State.meetBch
  repeat' first
    | with_reducible assumption
    | (intro x; refine (fun (hx : Keeps s0 x) => ?_) ?_; clear_value x; rotate_left; unfold x)
    | intro x
    | (lift_lets; intro x; try (refine (fun (hx : Keeps s0 x) => ?_) ?_; clear_value x; rotate_left; unfold x))
    | with_reducible apply Keeps.ite
    | with_reducible apply State.bump_keeps
    | with_reducible apply State.bhWrite_keeps
    | with_reducible apply State.setBank_keeps
    | with_reducible refine Keeps.foldl ?_ ?_
    | with_reducible refine Keeps.mk_ ?_ rfl rfl rfl rfl rfl rfl
    | split

theorem State.readLog_keeps (h : Keeps s0 s) : ∀ x1 x2, Keeps s0 (State.readLog s x1 x2) := by
  unfold State.readLog
  repeat' first
    | with_reducible assumption
    | (intro x; refine (fun (hx : Keeps s0 x) => ?_) ?_; clear_value x; rotate_left; unfold x)
    | intro x
    | (lift_lets; intro x; try (refine (fun (hx : Keeps s0 x) => ?_) ?_; clear_value x; rotate_left; unfold x))
    | with_reducible apply Keeps.ite
    | split
    | with_reducible apply State.meetBch_keeps
    | with_reducible apply State.record_keeps
    | with_reducible apply State.setBank_keeps
    | with_reducible refine Keeps.foldl ?_ ?_
    | with_reducible refine Keeps.mk_ ?_ rfl rfl rfl rfl rfl rfl
    | split

theorem State.bhState_keeps (h : Keeps s0 s) : ∀ x1 x2 x3, Keeps s0 (State.bhState s x1 x2 x3) := by
  unfold State.bhState
  repeat' first
    | with_reducible assumption
    | intro x
    | with_reducible apply State.put_keeps
    | with_reducible refine Keeps.mk_ ?_ rfl rfl rfl rfl rfl rfl

theorem State.regDone_keeps (h : Keeps s0 s) : ∀ x1, Keeps s0 (State.regDone s x1) := by
  unfold State.regDone
  repeat' first
    | with_reducible assumption
    | intro x
    | with_reducible apply Keeps.ite
    | with_reducible apply State.put_keeps
    | with_reducible refine Keeps.mk_ ?_ rfl rfl rfl rfl rfl rfl
    | split

theorem State.endReq_keeps (h : Keeps s0 s) : ∀ x1 x2 x3, Keeps s0 (State.endReq s x1 x2 x3) := by
  unfold State.endReq
  repeat' first
    | with_reducible assumption
    | intro x
    | with_reducible apply State.regDone_keeps
    | with_reducible apply State.mbEndFor_keeps
    | with_reducible refine Keeps.mk_ ?_ rfl rfl rfl rfl rfl rfl

theorem State.clearNew_keeps (h : Keeps s0 s) : ∀ x1 x2, Keeps s0 (State.clearNew s x1 x2) := by
  unfold State.clearNew
  repeat' first
    | with_reducible assumption
    | (intro x; refine (fun (hx : Keeps s0 x) => ?_) ?_; clear_value x; rotate_left; unfold x)
    | intro x
    | (lift_lets; intro x; try (refine (fun (hx : Keeps s0 x) => ?_) ?_; clear_value x; rotate_left; unfold x))
    | with_reducible apply Keeps.ite
    | with_reducible apply State.setRow_keeps
    | with_reducible refine Keeps.foldl ?_ ?_
    | with_reducible refine Keeps.mk_ ?_ rfl rfl rfl rfl rfl rfl
    | split

theorem State.beginSnap_keeps (h : Keeps s0 s) : ∀ x1 x2, Keeps s0 (State.beginSnap s x1 x2) := by
  unfold State.beginSnap
  repeat' first
    | with_reducible assumption
    | (intro x; refine (fun (hx : Keeps s0 x) => ?_) ?_; clear_value x; rotate_left; unfold x)
    | intro x
    | (lift_lets; intro x; try (refine (fun (hx : Keeps s0 x) => ?_) ?_; clear_value x; rotate_left; unfold x))
    | with_reducible apply Keeps.ite
    | split
    | with_reducible apply State.endReq_keeps
    | with_reducible apply State.setBank_keeps
    | with_reducible apply State.setPop_keeps
    | with_reducible apply State.clearNew_keeps
    | with_reducible apply State.bhState_keeps
    | with_reducible apply State.setLe_keeps
    | with_reducible apply State.put_keeps
    | with_reducible refine State.takeBlocks_keeps ?_ _ _ _ _ _ (by assumption)
    | with_reducible refine Keeps.mk_ ?_ rfl rfl rfl rfl rfl rfl
    | split

theorem State.nextSnap_keeps (h : Keeps s0 s) : ∀ x0 x1, Keeps s0 (State.nextSnap x0 x1 s) := by
  intro x0
  induction x0 generalizing s with
  | zero =>
    intros
    rw [State.nextSnap]
    exact h
  | succ n ih =>
    intro x1
    rw [State.nextSnap]
    repeat' first
      | with_reducible assumption
      | (intro x; refine (fun (hx : Keeps s0 x) => ?_) ?_; clear_value x; rotate_left; unfold x)
      | intro x
      | (lift_lets; intro x; try (refine (fun (hx : Keeps s0 x) => ?_) ?_; clear_value x; rotate_left; unfold x))
      | with_reducible apply Keeps.ite
      | split
      | with_reducible apply State.beginSnap_keeps
      | with_reducible apply State.bump_keeps
      | with_reducible apply State.setBank_keeps
      | with_reducible apply ih
      | with_reducible refine Keeps.mk_ ?_ rfl rfl rfl rfl rfl rfl
      | split

theorem State.askSnap_keeps (h : Keeps s0 s) : ∀ x1 x2, KeepsO s0 (State.askSnap s x1 x2) := by
  unfold State.askSnap
  repeat' first
    | with_reducible assumption
    | (intro x; refine (fun (hx : Keeps s0 x) => ?_) ?_; clear_value x; rotate_left; unfold x)
    | intro x
    | (lift_lets; intro x; try (refine (fun (hx : Keeps s0 x) => ?_) ?_; clear_value x; rotate_left; unfold x))
    | with_reducible apply Keeps.ite
    | with_reducible apply KeepsO.ite
    | with_reducible refine KeepsO.some ?_
    | with_reducible exact KeepsO.none
    | with_reducible apply State.nextSnap_keeps
    | with_reducible apply State.setBank_keeps
    | with_reducible refine Keeps.mk_ ?_ rfl rfl rfl rfl rfl rfl
    | split

theorem State.copyDone_keeps (h : Keeps s0 s) : ∀ x1 x2, Keeps s0 (State.copyDone s x1 x2) := by
  unfold State.copyDone
  repeat' first
    | with_reducible assumption
    | (intro x; refine (fun (hx : Keeps s0 x) => ?_) ?_; clear_value x; rotate_left; unfold x)
    | intro x
    | (lift_lets; intro x; try (refine (fun (hx : Keeps s0 x) => ?_) ?_; clear_value x; rotate_left; unfold x))
    | with_reducible apply Keeps.ite
    | split
    | with_reducible apply State.setBank_keeps
    | with_reducible apply State.writeBytes_keeps
    | with_reducible apply State.bhState_keeps
    | with_reducible apply State.endPause_keeps
    | with_reducible apply State.endReq_keeps
    | with_reducible apply State.record_keeps
    | with_reducible apply State.setDirty_keeps
    | with_reducible apply State.freeBlocks_keeps
    | with_reducible apply State.nextSnap_keeps
    | with_reducible refine Keeps.getD ?_ ?_
    | with_reducible refine Keeps.mk_ ?_ rfl rfl rfl rfl rfl rfl
    | split

theorem State.retireBlock_keeps (h : Keeps s0 s) : ∀ x1 x2, Keeps s0 (State.retireBlock s x1 x2) := by
  unfold State.retireBlock
  repeat' first
    | with_reducible assumption
    | intro x
    | with_reducible apply State.putBitAt_keeps
    | with_reducible refine Keeps.mk_ ?_ rfl rfl rfl rfl rfl rfl

theorem State.suspendIfShort_keeps (h : Keeps s0 s) : ∀ x1, Keeps s0 (State.suspendIfShort s x1) := by
  unfold State.suspendIfShort
  repeat' first
    | with_reducible assumption
    | (intro x; refine (fun (hx : Keeps s0 x) => ?_) ?_; clear_value x; rotate_left; unfold x)
    | intro x
    | (lift_lets; intro x; try (refine (fun (hx : Keeps s0 x) => ?_) ?_; clear_value x; rotate_left; unfold x))
    | with_reducible apply Keeps.ite
    | split
    | with_reducible apply State.record_keeps
    | with_reducible apply State.put_keeps
    | with_reducible refine Keeps.foldl ?_ ?_
    | with_reducible refine Keeps.mk_ ?_ rfl rfl rfl rfl rfl rfl
    | split

theorem State.slotFailed_keeps (h : Keeps s0 s) : ∀ x1 x2 x3, Keeps s0 (State.slotFailed s x1 x2 x3) := by
  intro b w failed
  unfold State.slotFailed
  have h1 : Keeps s0 ((((failed.filter fun k => w.blocks.contains k).foldl (fun s k => s.retireBlock b k) s).freeBlocks b w.blocks).suspendIfShort b) :=
    State.suspendIfShort_keeps (State.freeBlocks_keeps (Keeps.foldl h fun s k hs => State.retireBlock_keeps hs _ _) _ _) _
  extract_lets part sa sb again
  change Keeps s0 sb at h1
  have ha : ∀ ks s1, again = some (ks, s1) → Keeps s0 s1 := by
    intro ks s1
    unfold again
    split
    · exact State.takeBlocks_keeps h1 _ _ _ _ _
    · intro e
      cases e
  clear_value part again
  rcases again with _ | ⟨ks, s1⟩
  · exact State.regDone_keeps (State.mbEndFor_keeps (State.record_keeps (State.setDirty_keeps (State.bhState_keeps h1 _ _ _) _ _) _) _ _ _) _
  · exact State.setBank_keeps (ha _ _ rfl) _ _

theorem State.slotWritten_keeps (h : Keeps s0 s) : ∀ x1 x2, Keeps s0 (State.slotWritten s x1 x2) := by
  unfold State.slotWritten
  dsimp only
  repeat' first
    | with_reducible assumption
    | (intro x; refine (fun (hx : Keeps s0 x) => ?_) ?_; clear_value x; rotate_left; unfold x)
    | intro x
    | (lift_lets; intro x; try (refine (fun (hx : Keeps s0 x) => ?_) ?_; clear_value x; rotate_left; unfold x))
    | with_reducible apply Keeps.ite
    | split
    | with_reducible apply State.bhWrite_keeps
    | with_reducible apply State.setBank_keeps
    | with_reducible apply State.slotFailed_keeps
    | with_reducible refine Keeps.foldl ?_ ?_
    | with_reducible refine Keeps.mk_ ?_ rfl rfl rfl rfl rfl rfl
    | split

theorem State.slotRead_keeps (h : Keeps s0 s) : ∀ x1 x2 x3, Keeps s0 (State.slotRead s x1 x2 x3) := by
  unfold State.slotRead
  dsimp only
  repeat' first
    | with_reducible assumption
    | (intro x; refine (fun (hx : Keeps s0 x) => ?_) ?_; clear_value x; rotate_left; unfold x)
    | intro x
    | (lift_lets; intro x; try (refine (fun (hx : Keeps s0 x) => ?_) ?_; clear_value x; rotate_left; unfold x))
    | with_reducible apply Keeps.ite
    | split
    | with_reducible apply State.bump_keeps
    | with_reducible apply State.setBank_keeps
    | with_reducible apply State.slotFailed_keeps
    | with_reducible apply State.mbEndFor_keeps
    | with_reducible apply State.freeBlocks_keeps
    | with_reducible apply State.logRecord_keeps
    | with_reducible apply State.bhState_keeps
    | with_reducible apply State.put_keeps
    | with_reducible apply State.regDone_keeps
    | with_reducible refine Keeps.mk_ ?_ rfl rfl rfl rfl rfl rfl
    | split

theorem State.abortSnap_keeps (h : Keeps s0 s) : ∀ x1, Keeps s0 (State.abortSnap s x1) := by
  unfold State.abortSnap
  repeat' first
    | with_reducible assumption
    | (intro x; refine (fun (hx : Keeps s0 x) => ?_) ?_; clear_value x; rotate_left; unfold x)
    | intro x
    | (lift_lets; intro x; try (refine (fun (hx : Keeps s0 x) => ?_) ?_; clear_value x; rotate_left; unfold x))
    | split
    | with_reducible apply State.freeBlocks_keeps
    | with_reducible apply State.setBank_keeps
    | with_reducible apply State.endReq_keeps
    | with_reducible apply State.setDirty_keeps
    | with_reducible apply State.bhState_keeps
    | with_reducible apply State.endPause_keeps
    | with_reducible refine Keeps.mk_ ?_ rfl rfl rfl rfl rfl rfl
    | split

theorem State.abortPops_keeps (h : Keeps s0 s) : ∀ x1 x2, Keeps s0 (State.abortPops s x1 x2) := by
  unfold State.abortPops
  repeat' first
    | with_reducible assumption
    | (intro x; refine (fun (hx : Keeps s0 x) => ?_) ?_; clear_value x; rotate_left; unfold x)
    | intro x
    | (lift_lets; intro x; try (refine (fun (hx : Keeps s0 x) => ?_) ?_; clear_value x; rotate_left; unfold x))
    | with_reducible apply Keeps.ite
    | split
    | with_reducible apply State.setBank_keeps
    | with_reducible apply State.endReq_keeps
    | with_reducible apply State.regDone_keeps
    | with_reducible apply State.mbEndFor_keeps
    | with_reducible apply State.setDirty_keeps
    | with_reducible apply State.bhState_keeps
    | with_reducible apply State.freeBlocks_keeps
    | with_reducible apply State.nextSnap_keeps
    | with_reducible apply State.abortSnap_keeps
    | with_reducible refine Keeps.foldl ?_ ?_
    | with_reducible refine Keeps.mk_ ?_ rfl rfl rfl rfl rfl rfl
    | split

theorem State.releaseSlot_keeps (h : Keeps s0 s) : ∀ x1 x2 x3 x4, Keeps s0 (State.releaseSlot s x1 x2 x3 x4) := by
  unfold State.releaseSlot
  repeat' first
    | with_reducible assumption
    | (intro x; refine (fun (hx : Keeps s0 x) => ?_) ?_; clear_value x; rotate_left; unfold x)
    | intro x
    | (lift_lets; intro x; try (refine (fun (hx : Keeps s0 x) => ?_) ?_; clear_value x; rotate_left; unfold x))
    | split
    | with_reducible apply State.logRecord_keeps
    | with_reducible apply State.setBank_keeps
    | with_reducible apply State.freeBlocks_keeps
    | with_reducible refine Keeps.mk_ ?_ rfl rfl rfl rfl rfl rfl
    | split

theorem State.pfTake_keeps (h : Keeps s0 s) : ∀ x1 x2, Keeps s0 (State.pfTake s x1 x2) := by
  unfold State.pfTake
  repeat' first
    | with_reducible assumption
    | (intro x; refine (fun (hx : Keeps s0 x) => ?_) ?_; clear_value x; rotate_left; unfold x)
    | intro x
    | (lift_lets; intro x; try (refine (fun (hx : Keeps s0 x) => ?_) ?_; clear_value x; rotate_left; unfold x))
    | with_reducible apply Keeps.ite
    | split
    | with_reducible refine State.takeBlocks_keeps ?_ _ _ _ _ _ (by assumption)
    | with_reducible apply State.setBank_keeps
    | with_reducible apply State.bhState_keeps
    | with_reducible apply State.put_keeps
    | with_reducible apply State.setPop_keeps
    | with_reducible apply State.clearNew_keeps
    | with_reducible refine Keeps.mk_ ?_ rfl rfl rfl rfl rfl rfl
    | split

theorem State.powerFailCommit_keeps (h : Keeps s0 s) : Keeps s0 (State.powerFailCommit s) := by
  unfold State.powerFailCommit
  repeat' first
    | with_reducible assumption
    | (intro x; refine (fun (hx : Keeps s0 x) => ?_) ?_; clear_value x; rotate_left; unfold x)
    | intro x
    | (lift_lets; intro x; try (refine (fun (hx : Keeps s0 x) => ?_) ?_; clear_value x; rotate_left; unfold x))
    | with_reducible apply Keeps.ite
    | with_reducible apply State.setBank_keeps
    | with_reducible apply State.abortSnap_keeps
    | with_reducible apply State.endReq_keeps
    | with_reducible apply State.pfTake_keeps
    | with_reducible refine Keeps.foldl ?_ ?_
    | with_reducible refine Keeps.mk_ ?_ rfl rfl rfl rfl rfl rfl
    | split

end Sys2Proof.Machine
end

