-- ==== Sys2Proof/Laws/KeepsSlideOps.lean ====
section
/-!
SUPPORT. What every operation of Machine/SlideOps.lean keeps (see Laws/Keeps.lean).
-/
namespace Sys2Proof.Machine

set_option Elab.async false
set_option linter.unreachableTactic false
set_option linter.unusedTactic false

variable {s0 s t : State}

theorem State.slideError_keeps (h : Keeps s0 s) : ∀ x1 x2, Keeps s0 (State.slideError s x1 x2) := by
  unfold State.slideError
  repeat' first
    | with_reducible assumption
    | (intro x; refine (fun (hx : Keeps s0 x) => ?_) ?_; clear_value x; rotate_left; unfold x)
    | intro x
    | (lift_lets; intro x; try (refine (fun (hx : Keeps s0 x) => ?_) ?_; clear_value x; rotate_left; unfold x))
    | split
    | with_reducible apply State.endSlide_keeps
    | with_reducible apply State.attemptEnd_keeps
    | with_reducible refine Keeps.mk_ ?_ rfl rfl rfl rfl rfl rfl
    | split

theorem State.burstError_keeps (h : Keeps s0 s) : ∀ x1 x2 x3, Keeps s0 (State.burstError s x1 x2 x3) := by
  unfold State.burstError
  repeat' first
    | with_reducible assumption
    | (intro x; refine (fun (hx : Keeps s0 x) => ?_) ?_; clear_value x; rotate_left; unfold x)
    | intro x
    | (lift_lets; intro x; try (refine (fun (hx : Keeps s0 x) => ?_) ?_; clear_value x; rotate_left; unfold x))
    | with_reducible apply Keeps.ite
    | with_reducible apply State.putSlide_keeps
    | with_reducible apply State.slideError_keeps
    | with_reducible refine Keeps.mk_ ?_ rfl rfl rfl rfl rfl rfl
    | split

theorem State.slideFault_keeps (h : Keeps s0 s) : ∀ x1 x2, Keeps s0 (State.slideFault s x1 x2) := by
  unfold State.slideFault
  repeat' first
    | with_reducible assumption
    | (intro x; refine (fun (hx : Keeps s0 x) => ?_) ?_; clear_value x; rotate_left; unfold x)
    | intro x
    | (lift_lets; intro x; try (refine (fun (hx : Keeps s0 x) => ?_) ?_; clear_value x; rotate_left; unfold x))
    | with_reducible apply Keeps.ite
    | with_reducible apply State.bump_keeps
    | with_reducible apply State.putSlide_keeps
    | with_reducible refine Keeps.mk_ ?_ rfl rfl rfl rfl rfl rfl
    | split

theorem State.publish_keeps (h : Keeps s0 s) : ∀ x1, Keeps s0 (State.publish s x1) := by
  unfold State.publish
  repeat' first
    | with_reducible assumption
    | (intro x; refine (fun (hx : Keeps s0 x) => ?_) ?_; clear_value x; rotate_left; unfold x)
    | intro x
    | (lift_lets; intro x; try (refine (fun (hx : Keeps s0 x) => ?_) ?_; clear_value x; rotate_left; unfold x))
    | with_reducible apply Keeps.ite
    | split
    | with_reducible apply State.putSlide_keeps
    | with_reducible apply State.putPub_keeps
    | with_reducible apply State.putCon_keeps
    | with_reducible apply State.emit_keeps
    | with_reducible apply State.unblock_keeps
    | with_reducible refine Keeps.mk_ ?_ rfl rfl rfl rfl rfl rfl
    | split

theorem State.slideStart_keeps (h : Keeps s0 s) : ∀ x1 x2 x3 x4, Keeps s0 (State.slideStart s x1 x2 x3 x4) := by
  unfold State.slideStart
  repeat' first
    | with_reducible assumption
    | (intro x; refine (fun (hx : Keeps s0 x) => ?_) ?_; clear_value x; rotate_left; unfold x)
    | intro x
    | (lift_lets; intro x; try (refine (fun (hx : Keeps s0 x) => ?_) ?_; clear_value x; rotate_left; unfold x))
    | with_reducible apply Keeps.ite
    | split
    | with_reducible apply State.putSlide_keeps
    | with_reducible refine Keeps.mk_ ?_ rfl rfl rfl rfl rfl rfl
    | split

theorem State.noteMiss_keeps (h : Keeps s0 s) : ∀ x1 x2 x3 x4 x5 x6, Keeps s0 (State.noteMiss s x1 x2 x3 x4 x5 x6) := by
  unfold State.noteMiss
  repeat' first
    | with_reducible assumption
    | (intro x; refine (fun (hx : Keeps s0 x) => ?_) ?_; clear_value x; rotate_left; unfold x)
    | intro x
    | (lift_lets; intro x; try (refine (fun (hx : Keeps s0 x) => ?_) ?_; clear_value x; rotate_left; unfold x))
    | with_reducible apply Keeps.ite
    | with_reducible apply State.emit_keeps
    | with_reducible apply State.raise_keeps
    | with_reducible refine Keeps.mk_ ?_ rfl rfl rfl rfl rfl rfl
    | split

theorem State.issueBurst_keeps (h : Keeps s0 s) : ∀ x1, Keeps s0 (State.issueBurst s x1) := by
  unfold State.issueBurst
  repeat' first
    | with_reducible assumption
    | (intro x; refine (fun (hx : Keeps s0 x) => ?_) ?_; clear_value x; rotate_left; unfold x)
    | intro x
    | (lift_lets; intro x; try (refine (fun (hx : Keeps s0 x) => ?_) ?_; clear_value x; rotate_left; unfold x))
    | with_reducible apply Keeps.ite
    | split
    | with_reducible apply State.emit_keeps
    | with_reducible apply State.noteMiss_keeps
    | with_reducible apply State.putSlide_keeps
    | with_reducible apply State.slideError_keeps
    | with_reducible refine Keeps.foldl ?_ ?_
    | with_reducible refine Keeps.getD ?_ ?_
    | with_reducible refine Keeps.mk_ ?_ rfl rfl rfl rfl rfl rfl
    | split

theorem State.slideData_keeps (h : Keeps s0 s) : ∀ x1 x2 x3 x4, Keeps s0 (State.slideData s x1 x2 x3 x4) := by
  unfold State.slideData
  repeat' first
    | with_reducible assumption
    | (intro x; refine (fun (hx : Keeps s0 x) => ?_) ?_; clear_value x; rotate_left; unfold x)
    | intro x
    | (lift_lets; intro x; try (refine (fun (hx : Keeps s0 x) => ?_) ?_; clear_value x; rotate_left; unfold x))
    | with_reducible apply Keeps.ite
    | with_reducible apply State.emit_keeps
    | with_reducible refine Keeps.foldl ?_ ?_
    | with_reducible refine Keeps.getD ?_ ?_
    | with_reducible refine Keeps.mk_ ?_ rfl rfl rfl rfl rfl rfl
    | split

theorem State.slideAck_keeps (h : Keeps s0 s) : ∀ x1 x2 x3, Keeps s0 (State.slideAck s x1 x2 x3) := by
  unfold State.slideAck
  repeat' first
    | with_reducible assumption
    | (intro x; refine (fun (hx : Keeps s0 x) => ?_) ?_; clear_value x; rotate_left; unfold x)
    | intro x
    | (lift_lets; intro x; try (refine (fun (hx : Keeps s0 x) => ?_) ?_; clear_value x; rotate_left; unfold x))
    | with_reducible apply Keeps.ite
    | split
    | with_reducible apply State.burstError_keeps
    | with_reducible apply State.bump_keeps
    | with_reducible apply State.putSlide_keeps
    | with_reducible apply State.publish_keeps
    | with_reducible refine Keeps.mk_ ?_ rfl rfl rfl rfl rfl rfl
    | split

end Sys2Proof.Machine
end

