-- ==== Sys2Proof/Laws/KeepsXluOps.lean ====
section
/-!
SUPPORT. What every operation of Machine/XluOps.lean keeps (see Laws/Keeps.lean).
-/
namespace Sys2Proof.Machine

set_option Elab.async false
set_option linter.unreachableTactic false
set_option linter.unusedTactic false

variable {s0 s t : State}

theorem State.endWork_keeps (h : Keeps s0 s) : ∀ x1 x2, Keeps s0 (State.endWork s x1 x2) := by
  unfold State.endWork
  repeat' first
    | with_reducible assumption
    | (intro x; refine (fun (hx : Keeps s0 x) => ?_) ?_; clear_value x; rotate_left; unfold x)
    | intro x
    | (lift_lets; intro x; try (refine (fun (hx : Keeps s0 x) => ?_) ?_; clear_value x; rotate_left; unfold x))
    | split
    | with_reducible apply State.attemptEnd_keeps
    | with_reducible apply State.slideError_keeps
    | with_reducible apply State.emit_keeps
    | with_reducible refine Keeps.mk_ ?_ rfl rfl rfl rfl rfl rfl
    | split

theorem State.resumeWork_keeps (h : Keeps s0 s) : ∀ x1, Keeps s0 (State.resumeWork s x1) := by
  unfold State.resumeWork
  repeat' first
    | with_reducible assumption
    | (intro x; refine (fun (hx : Keeps s0 x) => ?_) ?_; clear_value x; rotate_left; unfold x)
    | intro x
    | (lift_lets; intro x; try (refine (fun (hx : Keeps s0 x) => ?_) ?_; clear_value x; rotate_left; unfold x))
    | with_reducible apply Keeps.ite
    | split
    | with_reducible apply State.resumeTask_keeps
    | with_reducible apply State.putSlide_keeps
    | with_reducible refine Keeps.mk_ ?_ rfl rfl rfl rfl rfl rfl
    | split

theorem State.stopWork_keeps (h : Keeps s0 s) : ∀ x1, Keeps s0 (State.stopWork s x1) := by
  unfold State.stopWork
  repeat' first
    | with_reducible assumption
    | (intro x; refine (fun (hx : Keeps s0 x) => ?_) ?_; clear_value x; rotate_left; unfold x)
    | intro x
    | (lift_lets; intro x; try (refine (fun (hx : Keeps s0 x) => ?_) ?_; clear_value x; rotate_left; unfold x))
    | with_reducible apply Keeps.ite
    | split
    | with_reducible apply State.switchOut_keeps
    | with_reducible apply State.slideFault_keeps
    | with_reducible refine Keeps.mk_ ?_ rfl rfl rfl rfl rfl rfl
    | split

theorem State.showPending_keeps (h : Keeps s0 s) : ∀ x1, Keeps s0 (State.showPending s x1) := by
  unfold State.showPending
  repeat' first
    | with_reducible assumption
    | intro x
    | with_reducible apply State.put_keeps
    | with_reducible refine Keeps.mk_ ?_ rfl rfl rfl rfl rfl rfl

theorem State.faultSeen_keeps (h : Keeps s0 s) : ∀ x1, Keeps s0 (State.faultSeen s x1) := by
  unfold State.faultSeen
  repeat' first
    | with_reducible assumption
    | (intro x; refine (fun (hx : Keeps s0 x) => ?_) ?_; clear_value x; rotate_left; unfold x)
    | intro x
    | (lift_lets; intro x; try (refine (fun (hx : Keeps s0 x) => ?_) ?_; clear_value x; rotate_left; unfold x))
    | with_reducible apply Keeps.ite
    | split
    | with_reducible apply State.slideFault_keeps
    | with_reducible refine Keeps.mk_ ?_ rfl rfl rfl rfl rfl rfl
    | split

theorem State.coxAbort_keeps (h : Keeps s0 s) : ∀ x1 x2 x3, Keeps s0 (State.coxAbort s x1 x2 x3) := by
  unfold State.coxAbort
  repeat' first
    | with_reducible assumption
    | (intro x; refine (fun (hx : Keeps s0 x) => ?_) ?_; clear_value x; rotate_left; unfold x)
    | intro x
    | (lift_lets; intro x; try (refine (fun (hx : Keeps s0 x) => ?_) ?_; clear_value x; rotate_left; unfold x))
    | split
    | with_reducible apply State.record_keeps
    | with_reducible apply State.endWork_keeps
    | with_reducible apply State.faultSeen_keeps
    | with_reducible refine Keeps.foldl ?_ ?_
    | with_reducible refine Keeps.mk_ ?_ rfl rfl rfl rfl rfl rfl
    | split

theorem State.dropMisses_keeps (h : Keeps s0 s) : ∀ x1, Keeps s0 (State.dropMisses s x1) := by
  unfold State.dropMisses
  repeat' first
    | with_reducible assumption
    | (intro x; refine (fun (hx : Keeps s0 x) => ?_) ?_; clear_value x; rotate_left; unfold x)
    | intro x
    | (lift_lets; intro x; try (refine (fun (hx : Keeps s0 x) => ?_) ?_; clear_value x; rotate_left; unfold x))
    | with_reducible refine Keeps.mk_ ?_ rfl rfl rfl rfl rfl rfl

theorem State.holdMiss_keeps (h : Keeps s0 s) : ∀ x0 x2, Keeps s0 (State.holdMiss x0 s x2) := by
  unfold State.holdMiss
  repeat' first
    | with_reducible assumption
    | (intro x; refine (fun (hx : Keeps s0 x) => ?_) ?_; clear_value x; rotate_left; unfold x)
    | intro x
    | (lift_lets; intro x; try (refine (fun (hx : Keeps s0 x) => ?_) ?_; clear_value x; rotate_left; unfold x))
    | with_reducible apply Keeps.ite
    | with_reducible apply State.msix_keeps
    | with_reducible apply State.put_keeps
    | with_reducible apply State.bump_keeps
    | with_reducible refine Keeps.mk_ ?_ rfl rfl rfl rfl rfl rfl
    | split

theorem State.noteFull_keeps (h : Keeps s0 s) : ∀ x1, Keeps s0 (State.noteFull s x1) := by
  unfold State.noteFull
  repeat' first
    | with_reducible assumption
    | (intro x; refine (fun (hx : Keeps s0 x) => ?_) ?_; clear_value x; rotate_left; unfold x)
    | intro x
    | (lift_lets; intro x; try (refine (fun (hx : Keeps s0 x) => ?_) ?_; clear_value x; rotate_left; unfold x))
    | with_reducible apply Keeps.ite
    | with_reducible apply State.record_keeps
    | with_reducible refine Keeps.mk_ ?_ rfl rfl rfl rfl rfl rfl
    | split

theorem State.raiseFault_keeps (h : Keeps s0 s) : ∀ x1 x2, Keeps s0 (State.raiseFault s x1 x2) := by
  unfold State.raiseFault
  repeat' first
    | with_reducible assumption
    | (intro x; refine (fun (hx : Keeps s0 x) => ?_) ?_; clear_value x; rotate_left; unfold x)
    | intro x
    | (lift_lets; intro x; try (refine (fun (hx : Keeps s0 x) => ?_) ?_; clear_value x; rotate_left; unfold x))
    | with_reducible apply Keeps.ite
    | split
    | with_reducible apply State.bump_keeps
    | with_reducible apply State.coxAbort_keeps
    | with_reducible apply State.dropMisses_keeps
    | with_reducible apply State.stopWork_keeps
    | with_reducible apply State.showHeld_keeps
    | with_reducible apply State.noteFull_keeps
    | with_reducible apply State.holdMiss_keeps
    | with_reducible apply State.ownBytes_keeps
    | with_reducible apply State.msix_keeps
    | with_reducible apply State.showPending_keeps
    | with_reducible apply State.put_keeps
    | with_reducible apply State.showFaults_keeps
    | with_reducible refine Keeps.foldl ?_ ?_
    | with_reducible refine Keeps.mk_ ?_ rfl rfl rfl rfl rfl rfl
    | split

theorem State.fillMiss_keeps (h : Keeps s0 s) : ∀ x1 x2, Keeps s0 (State.fillMiss s x1 x2) := by
  unfold State.fillMiss
  repeat' first
    | with_reducible assumption
    | (intro x; refine (fun (hx : Keeps s0 x) => ?_) ?_; clear_value x; rotate_left; unfold x)
    | intro x
    | (lift_lets; intro x; try (refine (fun (hx : Keeps s0 x) => ?_) ?_; clear_value x; rotate_left; unfold x))
    | with_reducible apply Keeps.ite
    | with_reducible apply State.bump_keeps
    | with_reducible apply State.fillTlb_keeps
    | with_reducible apply State.raise_keeps
    | with_reducible apply State.resumeWork_keeps
    | with_reducible apply State.emit_keeps
    | with_reducible refine Keeps.mk_ ?_ rfl rfl rfl rfl rfl rfl
    | split

theorem State.noteSegOk_keeps (h : Keeps s0 s) : ∀ x1, Keeps s0 (State.noteSegOk s x1) := by
  unfold State.noteSegOk
  repeat' first
    | with_reducible assumption
    | (intro x; refine (fun (hx : Keeps s0 x) => ?_) ?_; clear_value x; rotate_left; unfold x)
    | intro x
    | (lift_lets; intro x; try (refine (fun (hx : Keeps s0 x) => ?_) ?_; clear_value x; rotate_left; unfold x))
    | with_reducible apply Keeps.ite
    | with_reducible refine Keeps.mk_ ?_ rfl rfl rfl rfl rfl rfl
    | split

theorem State.walkFor_keeps (h : Keeps s0 s) : ∀ x0 x1 x2 x3, Keeps s0 (State.walkFor x0 x1 x2 x3 s) := by
  intro x0 x1
  induction x1 generalizing s with
  | zero =>
    intros
    rw [State.walkFor]
    exact h
  | succ n ih =>
    intro x2 x3
    cases x3 with
    | nil =>
      rw [State.walkFor]
      · exact h
      all_goals (intros; contradiction)
    | cons y ys =>
      rw [State.walkFor]
      repeat' first
        | with_reducible assumption
        | (intro x; refine (fun (hx : Keeps s0 x) => ?_) ?_; clear_value x; rotate_left; unfold x)
        | intro x
        | (lift_lets; intro x; try (refine (fun (hx : Keeps s0 x) => ?_) ?_; clear_value x; rotate_left; unfold x))
        | with_reducible apply Keeps.ite
        | split
        | with_reducible apply State.bump_keeps
        | with_reducible apply State.countMerge_keeps
        | with_reducible apply State.dropMisses_keeps
        | with_reducible apply State.fillMiss_keeps
        | with_reducible apply State.noteSegOk_keeps
        | with_reducible apply State.raiseFault_keeps
        | with_reducible apply ih
        | with_reducible refine Keeps.mk_ ?_ rfl rfl rfl rfl rfl rfl
        | split

theorem State.walkAll_keeps (h : Keeps s0 s) : ∀ x1 x2, Keeps s0 (State.walkAll s x1 x2) := by
  unfold State.walkAll
  repeat' first
    | with_reducible assumption
    | intro x
    | with_reducible apply State.walkFor_keeps
    | with_reducible refine Keeps.mk_ ?_ rfl rfl rfl rfl rfl rfl

theorem State.rewalkHeld_keeps (h : Keeps s0 s) : ∀ x1, Keeps s0 (State.rewalkHeld s x1) := by
  unfold State.rewalkHeld
  repeat' first
    | with_reducible assumption
    | (intro x; refine (fun (hx : Keeps s0 x) => ?_) ?_; clear_value x; rotate_left; unfold x)
    | intro x
    | (lift_lets; intro x; try (refine (fun (hx : Keeps s0 x) => ?_) ?_; clear_value x; rotate_left; unfold x))
    | with_reducible apply Keeps.ite
    | with_reducible apply State.showHeld_keeps
    | with_reducible apply State.walkAll_keeps
    | with_reducible refine Keeps.mk_ ?_ rfl rfl rfl rfl rfl rfl
    | split

theorem State.resume_keeps (h : Keeps s0 s) : ∀ x1 x2 x3, Keeps s0 (State.resume s x1 x2 x3) := by
  unfold State.resume
  repeat' first
    | with_reducible assumption
    | (intro x; refine (fun (hx : Keeps s0 x) => ?_) ?_; clear_value x; rotate_left; unfold x)
    | intro x
    | (lift_lets; intro x; try (refine (fun (hx : Keeps s0 x) => ?_) ?_; clear_value x; rotate_left; unfold x))
    | with_reducible apply Keeps.ite
    | split
    | with_reducible apply State.put_keeps
    | with_reducible apply State.record_keeps
    | with_reducible apply State.showFaults_keeps
    | with_reducible apply State.endWork_keeps
    | with_reducible apply State.walkAll_keeps
    | with_reducible refine Keeps.foldl ?_ ?_
    | with_reducible refine Keeps.mk_ ?_ rfl rfl rfl rfl rfl rfl
    | split

theorem State.endContext_keeps (h : Keeps s0 s) : ∀ x1 x2, Keeps s0 (State.endContext s x1 x2) := by
  unfold State.endContext
  repeat' first
    | with_reducible assumption
    | (intro x; refine (fun (hx : Keeps s0 x) => ?_) ?_; clear_value x; rotate_left; unfold x)
    | intro x
    | (lift_lets; intro x; try (refine (fun (hx : Keeps s0 x) => ?_) ?_; clear_value x; rotate_left; unfold x))
    | split
    | with_reducible apply State.failSlides_keeps
    | with_reducible apply State.taskFail_keeps
    | with_reducible refine Keeps.foldl ?_ ?_
    | with_reducible refine Keeps.mk_ ?_ rfl rfl rfl rfl rfl rfl
    | split

theorem State.quarantine_keeps (h : Keeps s0 s) : ∀ x1, Keeps s0 (State.quarantine s x1) := by
  unfold State.quarantine
  repeat' first
    | with_reducible assumption
    | (intro x; refine (fun (hx : Keeps s0 x) => ?_) ?_; clear_value x; rotate_left; unfold x)
    | intro x
    | (lift_lets; intro x; try (refine (fun (hx : Keeps s0 x) => ?_) ?_; clear_value x; rotate_left; unfold x))
    | with_reducible apply Keeps.ite
    | with_reducible apply State.emit_keeps
    | with_reducible apply State.quarantineCtx_keeps
    | with_reducible apply State.relineTiles_keeps
    | with_reducible apply State.keepTasks_keeps
    | with_reducible apply State.endContext_keeps
    | with_reducible apply State.record_keeps
    | with_reducible apply State.showFaults_keeps
    | with_reducible apply State.showHeld_keeps
    | with_reducible refine Keeps.foldl ?_ ?_
    | with_reducible refine Keeps.mk_ ?_ rfl rfl rfl rfl rfl rfl
    | split

theorem State.markInFlight_keeps (h : Keeps s0 s) : ∀ x1 x2, Keeps s0 (State.markInFlight s x1 x2) := by
  unfold State.markInFlight
  repeat' first
    | with_reducible assumption
    | (intro x; refine (fun (hx : Keeps s0 x) => ?_) ?_; clear_value x; rotate_left; unfold x)
    | intro x
    | (lift_lets; intro x; try (refine (fun (hx : Keeps s0 x) => ?_) ?_; clear_value x; rotate_left; unfold x))
    | with_reducible apply Keeps.ite
    | split
    | with_reducible refine Keeps.mk_ ?_ rfl rfl rfl rfl rfl rfl
    | split

theorem State.applyInv_keeps (h : Keeps s0 s) : ∀ x1 x2, Keeps s0 (State.applyInv s x1 x2) := by
  unfold State.applyInv
  repeat' first
    | with_reducible assumption
    | (intro x; refine (fun (hx : Keeps s0 x) => ?_) ?_; clear_value x; rotate_left; unfold x)
    | intro x
    | (lift_lets; intro x; try (refine (fun (hx : Keeps s0 x) => ?_) ?_; clear_value x; rotate_left; unfold x))
    | with_reducible apply Keeps.ite
    | with_reducible apply State.markInFlight_keeps
    | with_reducible apply State.dropTlb_keeps
    | with_reducible apply State.emit_keeps
    | with_reducible refine Keeps.foldl ?_ ?_
    | with_reducible refine Keeps.mk_ ?_ rfl rfl rfl rfl rfl rfl
    | split

theorem State.invalidate_keeps (h : Keeps s0 s) : ∀ x1 x2 x3 x4, Keeps s0 (State.invalidate s x1 x2 x3 x4) := by
  unfold State.invalidate
  repeat' first
    | with_reducible assumption
    | (intro x; refine (fun (hx : Keeps s0 x) => ?_) ?_; clear_value x; rotate_left; unfold x)
    | intro x
    | (lift_lets; intro x; try (refine (fun (hx : Keeps s0 x) => ?_) ?_; clear_value x; rotate_left; unfold x))
    | with_reducible apply Keeps.ite
    | with_reducible apply State.put_keeps
    | with_reducible apply State.applyInv_keeps
    | with_reducible refine Keeps.mk_ ?_ rfl rfl rfl rfl rfl rfl
    | split

theorem State.sendInv_keeps (h : Keeps s0 s) : ∀ x1, Keeps s0 (State.sendInv s x1) := by
  unfold State.sendInv
  repeat' first
    | with_reducible assumption
    | (intro x; refine (fun (hx : Keeps s0 x) => ?_) ?_; clear_value x; rotate_left; unfold x)
    | intro x
    | (lift_lets; intro x; try (refine (fun (hx : Keeps s0 x) => ?_) ?_; clear_value x; rotate_left; unfold x))
    | with_reducible apply State.applyInv_keeps
    | with_reducible refine Keeps.foldl ?_ ?_
    | with_reducible refine Keeps.mk_ ?_ rfl rfl rfl rfl rfl rfl

theorem State.xluReset_keeps (h : Keeps s0 s) : ∀ x1, Keeps s0 (State.xluReset s x1) := by
  unfold State.xluReset
  repeat' first
    | with_reducible assumption
    | (intro x; refine (fun (hx : Keeps s0 x) => ?_) ?_; clear_value x; rotate_left; unfold x)
    | intro x
    | (lift_lets; intro x; try (refine (fun (hx : Keeps s0 x) => ?_) ?_; clear_value x; rotate_left; unfold x))
    | with_reducible apply Keeps.ite
    | with_reducible apply State.emptyTlb_keeps
    | with_reducible apply State.showFaults_keeps
    | with_reducible apply State.showHeld_keeps
    | with_reducible refine Keeps.foldl ?_ ?_
    | with_reducible refine Keeps.mk_ ?_ rfl rfl rfl rfl rfl rfl
    | split

end Sys2Proof.Machine
end

