-- ==== Sys2Proof/Laws/KeepsPowerOps.lean ====
section
/-!
SUPPORT. What every operation of Machine/PowerOps.lean keeps (see Laws/Keeps.lean).
-/
namespace Sys2Proof.Machine

set_option Elab.async false
set_option linter.unreachableTactic false
set_option linter.unusedTactic false

variable {s0 s t : State}

theorem State.wakeOne_keeps (h : Keeps s0 s) : ∀ x1, Keeps s0 (State.wakeOne s x1) := by
  unfold State.wakeOne
  repeat' first
    | with_reducible assumption
    | (intro x; refine (fun (hx : Keeps s0 x) => ?_) ?_; clear_value x; rotate_left; unfold x)
    | intro x
    | (lift_lets; intro x; try (refine (fun (hx : Keeps s0 x) => ?_) ?_; clear_value x; rotate_left; unfold x))
    | with_reducible apply Keeps.ite
    | with_reducible refine Keeps.mk_ ?_ rfl rfl rfl rfl rfl rfl
    | split

theorem State.wake_keeps (h : Keeps s0 s) : ∀ x1, Keeps s0 (State.wake s x1) := by
  unfold State.wake
  repeat' first
    | with_reducible assumption
    | (intro x; refine (fun (hx : Keeps s0 x) => ?_) ?_; clear_value x; rotate_left; unfold x)
    | intro x
    | (lift_lets; intro x; try (refine (fun (hx : Keeps s0 x) => ?_) ?_; clear_value x; rotate_left; unfold x))
    | with_reducible apply Keeps.ite
    | split
    | with_reducible apply State.wakeOne_keeps
    | with_reducible refine Keeps.mk_ ?_ rfl rfl rfl rfl rfl rfl
    | split

theorem State.leReturn_keeps (h : Keeps s0 s) : ∀ x1, Keeps s0 (State.leReturn s x1) := by
  unfold State.leReturn
  repeat' first
    | with_reducible assumption
    | (intro x; refine (fun (hx : Keeps s0 x) => ?_) ?_; clear_value x; rotate_left; unfold x)
    | intro x
    | (lift_lets; intro x; try (refine (fun (hx : Keeps s0 x) => ?_) ?_; clear_value x; rotate_left; unfold x))
    | split
    | with_reducible apply State.setLe_keeps
    | with_reducible apply State.bump_keeps
    | with_reducible apply State.showLe_keeps
    | with_reducible apply State.renormPop_keeps
    | with_reducible refine Keeps.foldl ?_ ?_
    | with_reducible refine Keeps.mk_ ?_ rfl rfl rfl rfl rfl rfl
    | split

theorem State.returnRecord_keeps (h : Keeps s0 s) : ∀ x1 x2, Keeps s0 (State.returnRecord s x1 x2) := by
  unfold State.returnRecord
  repeat' first
    | with_reducible assumption
    | intro x
    | with_reducible apply State.record_keeps
    | with_reducible refine Keeps.mk_ ?_ rfl rfl rfl rfl rfl rfl

theorem State.pocketLost_keeps (h : Keeps s0 s) : ∀ x1, Keeps s0 (State.pocketLost s x1) := by
  unfold State.pocketLost
  repeat' first
    | with_reducible assumption
    | (intro x; refine (fun (hx : Keeps s0 x) => ?_) ?_; clear_value x; rotate_left; unfold x)
    | intro x
    | (lift_lets; intro x; try (refine (fun (hx : Keeps s0 x) => ?_) ?_; clear_value x; rotate_left; unfold x))
    | split
    | with_reducible apply State.record_keeps
    | with_reducible refine Keeps.foldl ?_ ?_
    | with_reducible refine Keeps.mk_ ?_ rfl rfl rfl rfl rfl rfl
    | split

theorem State.pocketReturn_keeps (h : Keeps s0 s) : ∀ x1, Keeps s0 (State.pocketReturn s x1) := by
  unfold State.pocketReturn
  repeat' first
    | with_reducible assumption
    | (intro x; refine (fun (hx : Keeps s0 x) => ?_) ?_; clear_value x; rotate_left; unfold x)
    | intro x
    | (lift_lets; intro x; try (refine (fun (hx : Keeps s0 x) => ?_) ?_; clear_value x; rotate_left; unfold x))
    | with_reducible apply Keeps.ite
    | with_reducible apply State.pocketLost_keeps
    | with_reducible apply State.passOrphan_keeps
    | with_reducible refine Keeps.foldl ?_ ?_
    | with_reducible refine Keeps.mk_ ?_ rfl rfl rfl rfl rfl rfl
    | split

theorem State.unitReturn_keeps (h : Keeps s0 s) : ∀ x1, Keeps s0 (State.unitReturn s x1) := by
  unfold State.unitReturn
  repeat' first
    | with_reducible assumption
    | (intro x; refine (fun (hx : Keeps s0 x) => ?_) ?_; clear_value x; rotate_left; unfold x)
    | intro x
    | (lift_lets; intro x; try (refine (fun (hx : Keeps s0 x) => ?_) ?_; clear_value x; rotate_left; unfold x))
    | with_reducible apply Keeps.ite
    | with_reducible apply State.setScull_keeps
    | with_reducible apply State.setA_keeps
    | with_reducible apply State.showScull_keeps
    | with_reducible apply State.put_keeps
    | with_reducible apply State.pocketReturn_keeps
    | with_reducible apply State.leReturn_keeps
    | with_reducible refine Keeps.mk_ ?_ rfl rfl rfl rfl rfl rfl
    | split

theorem State.nodePower_keeps (h : Keeps s0 s) : ∀ x1 x2, Keeps s0 (State.nodePower s x1 x2) := by
  unfold State.nodePower
  repeat' first
    | with_reducible assumption
    | intro x
    | with_reducible apply Keeps.ite
    | with_reducible apply State.emit_keeps
    | with_reducible refine Keeps.mk_ ?_ rfl rfl rfl rfl rfl rfl
    | split

theorem State.nodesOff_keeps (h : Keeps s0 s) : Keeps s0 (State.nodesOff s) := by
  unfold State.nodesOff
  repeat' first
    | with_reducible assumption
    | intro x
    | with_reducible apply State.nodePower_keeps
    | with_reducible refine Keeps.foldl ?_ ?_
    | with_reducible refine Keeps.mk_ ?_ rfl rfl rfl rfl rfl rfl

theorem State.fldPins_keeps (h : Keeps s0 s) : ∀ x1 x2, Keeps s0 (State.fldPins s x1 x2) := by
  unfold State.fldPins
  repeat' first
    | with_reducible assumption
    | intro x
    | with_reducible apply Keeps.ite
    | with_reducible apply State.nodePower_keeps
    | with_reducible refine Keeps.foldl ?_ ?_
    | with_reducible refine Keeps.mk_ ?_ rfl rfl rfl rfl rfl rfl
    | split

theorem State.domainUp_keeps (h : Keeps s0 s) : ∀ x1, Keeps s0 (State.domainUp s x1) := by
  unfold State.domainUp
  dsimp only
  repeat' first
    | with_reducible assumption
    | (intro x; refine (fun (hx : Keeps s0 x) => ?_) ?_; clear_value x; rotate_left; unfold x)
    | intro x
    | (lift_lets; intro x; try (refine (fun (hx : Keeps s0 x) => ?_) ?_; clear_value x; rotate_left; unfold x))
    | with_reducible apply Keeps.ite
    | split
    | with_reducible apply State.bump_keeps
    | with_reducible apply State.fldPins_keeps
    | with_reducible apply State.putBit_keeps
    | with_reducible apply State.put_keeps
    | with_reducible apply State.unitReturn_keeps
    | with_reducible apply State.returnRecord_keeps
    | with_reducible apply State.wakeGo_keeps
    | with_reducible refine Keeps.mk_ ?_ rfl rfl rfl rfl rfl rfl
    | split

end Sys2Proof.Machine
end

