-- ==== Sys2Proof/Laws/KeepsCoherence.lean ====
section
/-!
SUPPORT. What every operation of Machine/Coherence.lean keeps (see Laws/Keeps.lean).
-/
namespace Sys2Proof.Machine

set_option Elab.async false
set_option linter.unreachableTactic false
set_option linter.unusedTactic false

variable {s0 s t : State}

theorem execReadShared_keeps (h : Keeps s0 s) : ∀ x0 x1 x2 x3 x4 x5, KeepsE s0 (execReadShared x0 x1 x2 x3 x4 x5 s) := by
  unfold execReadShared
  repeat' first
    | with_reducible assumption
    | intro x
    | with_reducible refine KeepsE.next ?_
    | with_reducible apply State.carried_keeps
    | with_reducible apply State.start_keeps
    | with_reducible apply State.request_keeps
    | with_reducible refine Keeps.mk_ ?_ rfl rfl rfl rfl rfl rfl

theorem execReadOwn_keeps (h : Keeps s0 s) : ∀ x0 x1 x2 x3 x4 x5 x6, KeepsE s0 (execReadOwn x0 x1 x2 x3 x4 x5 x6 s) := by
  unfold execReadOwn
  repeat' first
    | with_reducible assumption
    | intro x
    | with_reducible refine KeepsE.next ?_
    | with_reducible apply State.carried_keeps
    | with_reducible apply State.start_keeps
    | with_reducible apply State.request_keeps
    | with_reducible refine Keeps.mk_ ?_ rfl rfl rfl rfl rfl rfl

theorem execUpgrade_keeps (h : Keeps s0 s) : ∀ x0 x1 x2 x3 x4 x5 x6, KeepsE s0 (execUpgrade x0 x1 x2 x3 x4 x5 x6 s) := by
  unfold execUpgrade
  repeat' first
    | with_reducible assumption
    | intro x
    | with_reducible refine KeepsE.next ?_
    | with_reducible apply State.carried_keeps
    | with_reducible apply State.start_keeps
    | with_reducible apply State.request_keeps
    | with_reducible refine Keeps.mk_ ?_ rfl rfl rfl rfl rfl rfl

theorem execReadOnce_keeps (h : Keeps s0 s) : ∀ x0 x1 x2 x3 x4 x5, KeepsE s0 (execReadOnce x0 x1 x2 x3 x4 x5 s) := by
  unfold execReadOnce
  repeat' first
    | with_reducible assumption
    | intro x
    | with_reducible refine KeepsE.next ?_
    | with_reducible apply State.carried_keeps
    | with_reducible apply State.start_keeps
    | with_reducible apply State.request_keeps
    | with_reducible refine Keeps.mk_ ?_ rfl rfl rfl rfl rfl rfl

theorem execWriteLine_keeps (h : Keeps s0 s) : ∀ x0 x1 x2 x3 x4 x5 x6, KeepsE s0 (execWriteLine x0 x1 x2 x3 x4 x5 x6 s) := by
  unfold execWriteLine
  repeat' first
    | with_reducible assumption
    | intro x
    | with_reducible refine KeepsE.next ?_
    | with_reducible apply State.carried_keeps
    | with_reducible apply State.start_keeps
    | with_reducible apply State.request_keeps
    | with_reducible refine Keeps.mk_ ?_ rfl rfl rfl rfl rfl rfl

theorem State.atomicAt_keeps (h : Keeps s0 s) : ∀ x1 x2 x3 x4 x5 x6, Keeps s0 (State.atomicAt s x1 x2 x3 x4 x5 x6) := by
  unfold State.atomicAt
  repeat' first
    | with_reducible assumption
    | intro x
    | with_reducible apply State.carried_keeps
    | with_reducible apply State.request_keeps
    | with_reducible refine Keeps.mk_ ?_ rfl rfl rfl rfl rfl rfl

theorem execAtomicFetchAdd_keeps (h : Keeps s0 s) : ∀ x0 x1 x2 x3 x4, KeepsE s0 (execAtomicFetchAdd x0 x1 x2 x3 x4 s) := by
  unfold execAtomicFetchAdd
  repeat' first
    | with_reducible assumption
    | intro x
    | with_reducible refine KeepsE.next ?_
    | with_reducible apply State.atomicAt_keeps
    | with_reducible apply State.start_keeps
    | with_reducible refine Keeps.mk_ ?_ rfl rfl rfl rfl rfl rfl

theorem execAtomicSwap_keeps (h : Keeps s0 s) : ∀ x0 x1 x2 x3 x4, KeepsE s0 (execAtomicSwap x0 x1 x2 x3 x4 s) := by
  unfold execAtomicSwap
  repeat' first
    | with_reducible assumption
    | intro x
    | with_reducible refine KeepsE.next ?_
    | with_reducible apply State.atomicAt_keeps
    | with_reducible apply State.start_keeps
    | with_reducible refine Keeps.mk_ ?_ rfl rfl rfl rfl rfl rfl

theorem execAtomicCompareSwap_keeps (h : Keeps s0 s) : ∀ x0 x1 x2 x3 x4, KeepsE s0 (execAtomicCompareSwap x0 x1 x2 x3 x4 s) := by
  unfold execAtomicCompareSwap
  repeat' first
    | with_reducible assumption
    | intro x
    | with_reducible refine KeepsE.next ?_
    | with_reducible apply State.atomicAt_keeps
    | with_reducible apply State.start_keeps
    | with_reducible refine Keeps.mk_ ?_ rfl rfl rfl rfl rfl rfl

theorem execAtomicMinS_keeps (h : Keeps s0 s) : ∀ x0 x1 x2 x3 x4, KeepsE s0 (execAtomicMinS x0 x1 x2 x3 x4 s) := by
  unfold execAtomicMinS
  repeat' first
    | with_reducible assumption
    | intro x
    | with_reducible refine KeepsE.next ?_
    | with_reducible apply State.atomicAt_keeps
    | with_reducible apply State.start_keeps
    | with_reducible refine Keeps.mk_ ?_ rfl rfl rfl rfl rfl rfl

theorem execAtomicMaxS_keeps (h : Keeps s0 s) : ∀ x0 x1 x2 x3 x4, KeepsE s0 (execAtomicMaxS x0 x1 x2 x3 x4 s) := by
  unfold execAtomicMaxS
  repeat' first
    | with_reducible assumption
    | intro x
    | with_reducible refine KeepsE.next ?_
    | with_reducible apply State.atomicAt_keeps
    | with_reducible apply State.start_keeps
    | with_reducible refine Keeps.mk_ ?_ rfl rfl rfl rfl rfl rfl

theorem execAtomicMinU_keeps (h : Keeps s0 s) : ∀ x0 x1 x2 x3 x4, KeepsE s0 (execAtomicMinU x0 x1 x2 x3 x4 s) := by
  unfold execAtomicMinU
  repeat' first
    | with_reducible assumption
    | intro x
    | with_reducible refine KeepsE.next ?_
    | with_reducible apply State.atomicAt_keeps
    | with_reducible apply State.start_keeps
    | with_reducible refine Keeps.mk_ ?_ rfl rfl rfl rfl rfl rfl

theorem execAtomicMaxU_keeps (h : Keeps s0 s) : ∀ x0 x1 x2 x3 x4, KeepsE s0 (execAtomicMaxU x0 x1 x2 x3 x4 s) := by
  unfold execAtomicMaxU
  repeat' first
    | with_reducible assumption
    | intro x
    | with_reducible refine KeepsE.next ?_
    | with_reducible apply State.atomicAt_keeps
    | with_reducible apply State.start_keeps
    | with_reducible refine Keeps.mk_ ?_ rfl rfl rfl rfl rfl rfl

theorem execLockAcquire_keeps (h : Keeps s0 s) : ∀ x0 x1, KeepsE s0 (execLockAcquire x0 x1 s) := by
  unfold execLockAcquire
  repeat' first
    | with_reducible assumption
    | intro x
    | with_reducible refine KeepsE.next ?_
    | with_reducible apply State.carried_keeps
    | with_reducible apply State.start_keeps
    | with_reducible apply State.lockRequest_keeps
    | with_reducible refine Keeps.mk_ ?_ rfl rfl rfl rfl rfl rfl

theorem execLockTryAcquire_keeps (h : Keeps s0 s) : ∀ x0 x1, KeepsE s0 (execLockTryAcquire x0 x1 s) := by
  unfold execLockTryAcquire
  repeat' first
    | with_reducible assumption
    | intro x
    | with_reducible refine KeepsE.next ?_
    | with_reducible apply State.carried_keeps
    | with_reducible apply State.start_keeps
    | with_reducible apply State.lockRequest_keeps
    | with_reducible refine Keeps.mk_ ?_ rfl rfl rfl rfl rfl rfl

theorem execLockRelease_keeps (h : Keeps s0 s) : ∀ x0 x1, KeepsE s0 (execLockRelease x0 x1 s) := by
  unfold execLockRelease
  repeat' first
    | with_reducible assumption
    | intro x
    | with_reducible refine KeepsE.next ?_
    | with_reducible apply State.carried_keeps
    | with_reducible apply State.start_keeps
    | with_reducible apply State.lockRequest_keeps
    | with_reducible refine Keeps.mk_ ?_ rfl rfl rfl rfl rfl rfl

theorem execLockInspect_keeps (h : Keeps s0 s) : ∀ x0 x1, KeepsE s0 (execLockInspect x0 x1 s) := by
  unfold execLockInspect
  repeat' first
    | with_reducible assumption
    | intro x
    | with_reducible refine KeepsE.next ?_
    | with_reducible apply State.carried_keeps
    | with_reducible apply State.start_keeps
    | with_reducible apply State.lockRequest_keeps
    | with_reducible refine Keeps.mk_ ?_ rfl rfl rfl rfl rfl rfl

theorem execSnoopShare_keeps (h : Keeps s0 s) : ∀ x0 x1 x2 x3 x4 x5, KeepsE s0 (execSnoopShare x0 x1 x2 x3 x4 x5 s) := by
  unfold execSnoopShare
  repeat' first
    | with_reducible assumption
    | intro x
    | with_reducible refine KeepsE.next ?_
    | with_reducible apply State.carried_keeps
    | with_reducible apply State.start_keeps
    | with_reducible apply State.snooped_keeps
    | with_reducible refine Keeps.mk_ ?_ rfl rfl rfl rfl rfl rfl

theorem execSnoopInv_keeps (h : Keeps s0 s) : ∀ x0 x1 x2 x3 x4 x5, KeepsE s0 (execSnoopInv x0 x1 x2 x3 x4 x5 s) := by
  unfold execSnoopInv
  repeat' first
    | with_reducible assumption
    | intro x
    | with_reducible refine KeepsE.next ?_
    | with_reducible apply State.carried_keeps
    | with_reducible apply State.start_keeps
    | with_reducible apply State.snooped_keeps
    | with_reducible refine Keeps.mk_ ?_ rfl rfl rfl rfl rfl rfl

theorem execSnoopMiss_keeps (h : Keeps s0 s) : ∀ x0 x1 x2, KeepsE s0 (execSnoopMiss x0 x1 x2 s) := by
  unfold execSnoopMiss
  repeat' first
    | with_reducible assumption
    | intro x
    | with_reducible refine KeepsE.next ?_
    | with_reducible apply State.carried_keeps
    | with_reducible apply State.start_keeps
    | with_reducible apply State.settle_keeps
    | with_reducible apply State.snoopAnswer_keeps
    | with_reducible refine Keeps.mk_ ?_ rfl rfl rfl rfl rfl rfl

theorem State.evictGate_keeps (h : Keeps s0 s) : ∀ x1 x2 x3, KeepsO s0 (State.evictGate s x1 x2 x3) := by
  unfold State.evictGate
  repeat' first
    | with_reducible assumption
    | intro x
    | with_reducible apply Keeps.ite
    | with_reducible apply KeepsO.ite
    | with_reducible refine KeepsO.some ?_
    | with_reducible exact KeepsO.none
    | with_reducible apply State.emit_keeps
    | with_reducible apply State.bump_keeps
    | with_reducible refine Keeps.mk_ ?_ rfl rfl rfl rfl rfl rfl
    | split

theorem State.evictClean_keeps (h : Keeps s0 s) : ∀ x1 x2 x3 x4, Keeps s0 (State.evictClean s x1 x2 x3 x4) := by
  unfold State.evictClean
  repeat' first
    | with_reducible assumption
    | (intro x; refine (fun (hx : Keeps s0 x) => ?_) ?_; clear_value x; rotate_left; unfold x)
    | intro x
    | (lift_lets; intro x; try (refine (fun (hx : Keeps s0 x) => ?_) ?_; clear_value x; rotate_left; unfold x))
    | with_reducible apply Keeps.ite
    | split
    | with_reducible apply State.evicted_keeps
    | with_reducible apply State.request_keeps
    | with_reducible apply State.bump_keeps
    | with_reducible refine (State.evictGate_keeps ?_ _ _ _ ).out _ (by assumption)
    | with_reducible apply State.evictGate_keeps
    | with_reducible refine Keeps.mk_ ?_ rfl rfl rfl rfl rfl rfl
    | split

theorem execEvictNotice_keeps (h : Keeps s0 s) : ∀ x0 x1 x2 x3 x4, KeepsE s0 (execEvictNotice x0 x1 x2 x3 x4 s) := by
  unfold execEvictNotice
  repeat' first
    | with_reducible assumption
    | intro x
    | with_reducible refine KeepsE.next ?_
    | with_reducible apply State.carried_keeps
    | with_reducible apply State.start_keeps
    | with_reducible apply State.settle_keeps
    | with_reducible apply State.evictClean_keeps
    | with_reducible refine Keeps.mk_ ?_ rfl rfl rfl rfl rfl rfl

theorem State.evictDirty_keeps (h : Keeps s0 s) : ∀ x1 x2 x3 x4 x5, Keeps s0 (State.evictDirty s x1 x2 x3 x4 x5) := by
  unfold State.evictDirty
  repeat' first
    | with_reducible assumption
    | (intro x; refine (fun (hx : Keeps s0 x) => ?_) ?_; clear_value x; rotate_left; unfold x)
    | intro x
    | (lift_lets; intro x; try (refine (fun (hx : Keeps s0 x) => ?_) ?_; clear_value x; rotate_left; unfold x))
    | with_reducible apply Keeps.ite
    | split
    | with_reducible apply State.ueRecord_keeps
    | with_reducible apply State.evicted_keeps
    | with_reducible apply State.emit_keeps
    | with_reducible apply State.liningFail_keeps
    | with_reducible apply State.seamBytes_keeps
    | with_reducible apply State.sink_keeps
    | with_reducible refine (State.evictGate_keeps ?_ _ _ _ ).out _ (by assumption)
    | with_reducible apply State.evictGate_keeps
    | with_reducible refine Keeps.mk_ ?_ rfl rfl rfl rfl rfl rfl
    | split

theorem execWriteBack_keeps (h : Keeps s0 s) : ∀ x0 x1 x2 x3 x4 x5, KeepsE s0 (execWriteBack x0 x1 x2 x3 x4 x5 s) := by
  unfold execWriteBack
  repeat' first
    | with_reducible assumption
    | intro x
    | with_reducible refine KeepsE.next ?_
    | with_reducible apply State.carried_keeps
    | with_reducible apply State.start_keeps
    | with_reducible apply State.settle_keeps
    | with_reducible apply State.evictDirty_keeps
    | with_reducible refine Keeps.mk_ ?_ rfl rfl rfl rfl rfl rfl

theorem execRetry_keeps (h : Keeps s0 s) : ∀ x0 x1 x2 x3, KeepsE s0 (execRetry x0 x1 x2 x3 s) := by
  unfold execRetry
  repeat' first
    | with_reducible assumption
    | (intro x; refine (fun (hx : Keeps s0 x) => ?_) ?_; clear_value x; rotate_left; unfold x)
    | intro x
    | (lift_lets; intro x; try (refine (fun (hx : Keeps s0 x) => ?_) ?_; clear_value x; rotate_left; unfold x))
    | with_reducible refine KeepsE.next ?_
    | split
    | with_reducible apply State.carried_keeps
    | with_reducible apply State.start_keeps
    | with_reducible refine Keeps.mk_ ?_ rfl rfl rfl rfl rfl rfl
    | split

theorem execRetryReissue_keeps (h : Keeps s0 s) : ∀ x0 x1, KeepsE s0 (execRetryReissue x0 x1 s) := by
  unfold execRetryReissue
  repeat' first
    | with_reducible assumption
    | (intro x; refine (fun (hx : Keeps s0 x) => ?_) ?_; clear_value x; rotate_left; unfold x)
    | intro x
    | (lift_lets; intro x; try (refine (fun (hx : Keeps s0 x) => ?_) ?_; clear_value x; rotate_left; unfold x))
    | with_reducible refine KeepsE.next ?_
    | split
    | with_reducible apply State.start_keeps
    | with_reducible apply State.settle_keeps
    | with_reducible apply State.issue_keeps
    | with_reducible apply State.emit_keeps
    | with_reducible refine Keeps.mk_ ?_ rfl rfl rfl rfl rfl rfl
    | split

theorem execTicketReservationExpiry_keeps (h : Keeps s0 s) : ∀ x0, KeepsE s0 (execTicketReservationExpiry x0 s) := by
  unfold execTicketReservationExpiry
  repeat' first
    | with_reducible assumption
    | (intro x; refine (fun (hx : Keeps s0 x) => ?_) ?_; clear_value x; rotate_left; unfold x)
    | intro x
    | (lift_lets; intro x; try (refine (fun (hx : Keeps s0 x) => ?_) ?_; clear_value x; rotate_left; unfold x))
    | with_reducible refine KeepsE.next ?_
    | split
    | with_reducible apply State.start_keeps
    | with_reducible apply State.reserve_keeps
    | with_reducible refine Keeps.mk_ ?_ rfl rfl rfl rfl rfl rfl
    | split

theorem execLockGrant_keeps (h : Keeps s0 s) : ∀ x0 x1 x2 x3, KeepsE s0 (execLockGrant x0 x1 x2 x3 s) := by
  unfold execLockGrant
  repeat' first
    | with_reducible assumption
    | intro x
    | with_reducible apply Keeps.ite
    | with_reducible apply KeepsE.ite
    | with_reducible refine KeepsE.next ?_
    | with_reducible apply State.carried_keeps
    | with_reducible apply State.start_keeps
    | with_reducible apply State.bump_keeps
    | with_reducible apply State.emit_keeps
    | with_reducible refine Keeps.mk_ ?_ rfl rfl rfl rfl rfl rfl
    | split

theorem execLockWaitTimeout_keeps (h : Keeps s0 s) : ∀ x0 x1, KeepsE s0 (execLockWaitTimeout x0 x1 s) := by
  unfold execLockWaitTimeout
  repeat' first
    | with_reducible assumption
    | (intro x; refine (fun (hx : Keeps s0 x) => ?_) ?_; clear_value x; rotate_left; unfold x)
    | intro x
    | (lift_lets; intro x; try (refine (fun (hx : Keeps s0 x) => ?_) ?_; clear_value x; rotate_left; unfold x))
    | with_reducible refine KeepsE.next ?_
    | split
    | with_reducible apply State.start_keeps
    | with_reducible apply State.emit_keeps
    | with_reducible apply State.bump_keeps
    | with_reducible apply State.setLock_keeps
    | with_reducible refine Keeps.mk_ ?_ rfl rfl rfl rfl rfl rfl
    | split

theorem execContextFaultNotice_keeps (h : Keeps s0 s) : ∀ x0 x1, KeepsE s0 (execContextFaultNotice x0 x1 s) := by
  unfold execContextFaultNotice
  repeat' first
    | with_reducible assumption
    | intro x
    | with_reducible refine KeepsE.next ?_
    | with_reducible apply State.carried_keeps
    | with_reducible apply State.start_keeps
    | with_reducible apply State.orphanAll_keeps
    | with_reducible refine Keeps.mk_ ?_ rfl rfl rfl rfl rfl rfl

theorem State.scrub_keeps (h : Keeps s0 s) : ∀ x1 x2, Keeps s0 (State.scrub s x1 x2) := by
  unfold State.scrub
  repeat' first
    | with_reducible assumption
    | (intro x; refine (fun (hx : Keeps s0 x) => ?_) ?_; clear_value x; rotate_left; unfold x)
    | intro x
    | (lift_lets; intro x; try (refine (fun (hx : Keeps s0 x) => ?_) ?_; clear_value x; rotate_left; unfold x))
    | with_reducible apply Keeps.ite
    | with_reducible apply State.meetEcc_keeps
    | with_reducible apply State.pump_keeps
    | with_reducible apply State.serve_keeps
    | with_reducible refine Keeps.mk_ ?_ rfl rfl rfl rfl rfl rfl
    | split

theorem execPatrolScrub_keeps (h : Keeps s0 s) : ∀ x0 x1, KeepsE s0 (execPatrolScrub x0 x1 s) := by
  unfold execPatrolScrub
  repeat' first
    | with_reducible assumption
    | (intro x; refine (fun (hx : Keeps s0 x) => ?_) ?_; clear_value x; rotate_left; unfold x)
    | intro x
    | (lift_lets; intro x; try (refine (fun (hx : Keeps s0 x) => ?_) ?_; clear_value x; rotate_left; unfold x))
    | with_reducible apply Keeps.ite
    | with_reducible apply KeepsE.ite
    | with_reducible refine KeepsE.next ?_
    | with_reducible apply State.start_keeps
    | with_reducible apply State.scrub_keeps
    | with_reducible refine Keeps.mk_ ?_ rfl rfl rfl rfl rfl rfl
    | split

end Sys2Proof.Machine
end

