-- ==== Sys2Proof/Laws/KeepsLearning.lean ====
section
/-!
SUPPORT. What every operation of Machine/Learning.lean keeps (see Laws/Keeps.lean).
-/
namespace Sys2Proof.Machine

set_option Elab.async false
set_option linter.unreachableTactic false
set_option linter.unusedTactic false

variable {s0 s t : State}

theorem State.moveTime_keeps (h : Keeps s0 s) : ∀ x1 x2 x3, Keeps s0 (State.moveTime s x1 x2 x3) := by
  unfold State.moveTime
  repeat' first
    | with_reducible assumption
    | (intro x; refine (fun (hx : Keeps s0 x) => ?_) ?_; clear_value x; rotate_left; unfold x)
    | intro x
    | (lift_lets; intro x; try (refine (fun (hx : Keeps s0 x) => ?_) ?_; clear_value x; rotate_left; unfold x))
    | split
    | with_reducible apply State.setLe_keeps
    | with_reducible refine Keeps.mk_ ?_ rfl rfl rfl rfl rfl rfl
    | split

theorem State.leEvent_keeps (h : Keeps s0 s) : ∀ x1 x2, Keeps s0 (State.leEvent s x1 x2) := by
  unfold State.leEvent
  repeat' first
    | with_reducible assumption
    | (intro x; refine (fun (hx : Keeps s0 x) => ?_) ?_; clear_value x; rotate_left; unfold x)
    | intro x
    | (lift_lets; intro x; try (refine (fun (hx : Keeps s0 x) => ?_) ?_; clear_value x; rotate_left; unfold x))
    | with_reducible apply Keeps.ite
    | split
    | with_reducible apply State.service_keeps
    | with_reducible apply State.bump_keeps
    | with_reducible apply State.putCon_keeps
    | with_reducible apply State.setLane_keeps
    | with_reducible apply State.moveTime_keeps
    | with_reducible apply State.predictError_keeps
    | with_reducible apply State.touch_keeps
    | with_reducible apply State.noteSpike_keeps
    | with_reducible apply State.checkNeuron_keeps
    | with_reducible apply State.setNeuron_keeps
    | with_reducible apply State.schedule_keeps
    | with_reducible apply State.runDeliv_keeps
    | with_reducible apply State.leRecord_keeps
    | with_reducible apply State.scoreEntry_keeps
    | with_reducible refine Keeps.of_pair (by assumption) ?_
    | with_reducible refine Keeps.mk_ ?_ rfl rfl rfl rfl rfl rfl
    | split

theorem State.meetSram_keeps (h : Keeps s0 s) : ∀ x1 x2, Keeps s0 (State.meetSram s x1 x2) := by
  unfold State.meetSram
  repeat' first
    | with_reducible assumption
    | (intro x; refine (fun (hx : Keeps s0 x) => ?_) ?_; clear_value x; rotate_left; unfold x)
    | intro x
    | (lift_lets; intro x; try (refine (fun (hx : Keeps s0 x) => ?_) ?_; clear_value x; rotate_left; unfold x))
    | with_reducible apply Keeps.ite
    | split
    | with_reducible apply State.bump_keeps
    | with_reducible apply State.ueFree_keeps
    | with_reducible apply State.modSyn_keeps
    | with_reducible apply State.setNeuron_keeps
    | with_reducible refine Keeps.mk_ ?_ rfl rfl rfl rfl rfl rfl
    | split

theorem execLeEvent_keeps (h : Keeps s0 s) : ∀ x0 x1 x2, KeepsE s0 (execLeEvent x0 x1 x2 s) := by
  unfold execLeEvent
  repeat' first
    | with_reducible assumption
    | (intro x; refine (fun (hx : Keeps s0 x) => ?_) ?_; clear_value x; rotate_left; unfold x)
    | intro x
    | (lift_lets; intro x; try (refine (fun (hx : Keeps s0 x) => ?_) ?_; clear_value x; rotate_left; unfold x))
    | with_reducible apply Keeps.ite
    | with_reducible apply KeepsE.ite
    | with_reducible refine KeepsE.next ?_
    | with_reducible apply State.start_keeps
    | with_reducible apply State.leEvent_keeps
    | with_reducible apply State.meetSram_keeps
    | with_reducible refine Keeps.mk_ ?_ rfl rfl rfl rfl rfl rfl
    | split

theorem State.leDrain_keeps (h : Keeps s0 s) : ∀ x1, Keeps s0 (State.leDrain s x1) := by
  unfold State.leDrain
  repeat' first
    | with_reducible assumption
    | (intro x; refine (fun (hx : Keeps s0 x) => ?_) ?_; clear_value x; rotate_left; unfold x)
    | intro x
    | (lift_lets; intro x; try (refine (fun (hx : Keeps s0 x) => ?_) ?_; clear_value x; rotate_left; unfold x))
    | with_reducible apply Keeps.ite
    | with_reducible apply State.leEvent_keeps
    | with_reducible refine Keeps.foldl ?_ ?_
    | with_reducible refine Keeps.mk_ ?_ rfl rfl rfl rfl rfl rfl
    | split

theorem execDelayWheelRelease_keeps (h : Keeps s0 s) : ∀ x0 x1 x2, KeepsE s0 (execDelayWheelRelease x0 x1 x2 s) := by
  unfold execDelayWheelRelease
  repeat' first
    | with_reducible assumption
    | (intro x; refine (fun (hx : Keeps s0 x) => ?_) ?_; clear_value x; rotate_left; unfold x)
    | intro x
    | (lift_lets; intro x; try (refine (fun (hx : Keeps s0 x) => ?_) ?_; clear_value x; rotate_left; unfold x))
    | with_reducible apply Keeps.ite
    | with_reducible apply KeepsE.ite
    | with_reducible refine KeepsE.next ?_
    | split
    | with_reducible apply State.start_keeps
    | with_reducible apply State.meetSram_keeps
    | with_reducible apply State.runDeliv_keeps
    | with_reducible apply State.setLe_keeps
    | with_reducible refine Keeps.mk_ ?_ rfl rfl rfl rfl rfl rfl
    | split

theorem execEvaluationSweep_keeps (h : Keeps s0 s) : ∀ x0 x1 x2 x3, KeepsE s0 (execEvaluationSweep x0 x1 x2 x3 s) := by
  unfold execEvaluationSweep
  repeat' first
    | with_reducible assumption
    | (intro x; refine (fun (hx : Keeps s0 x) => ?_) ?_; clear_value x; rotate_left; unfold x)
    | intro x
    | (lift_lets; intro x; try (refine (fun (hx : Keeps s0 x) => ?_) ?_; clear_value x; rotate_left; unfold x))
    | with_reducible apply Keeps.ite
    | with_reducible apply KeepsE.ite
    | with_reducible refine KeepsE.next ?_
    | split
    | with_reducible apply State.start_keeps
    | with_reducible apply State.setPop_keeps
    | with_reducible apply State.defer_keeps
    | with_reducible apply State.sweep_keeps
    | with_reducible apply State.meetSram_keeps
    | with_reducible refine Keeps.mk_ ?_ rfl rfl rfl rfl rfl rfl
    | split

theorem execMarkExpiry_keeps (h : Keeps s0 s) : ∀ x0, KeepsE s0 (execMarkExpiry x0 s) := by
  unfold execMarkExpiry
  repeat' first
    | with_reducible assumption
    | (intro x; refine (fun (hx : Keeps s0 x) => ?_) ?_; clear_value x; rotate_left; unfold x)
    | intro x
    | (lift_lets; intro x; try (refine (fun (hx : Keeps s0 x) => ?_) ?_; clear_value x; rotate_left; unfold x))
    | with_reducible apply Keeps.ite
    | with_reducible apply KeepsE.ite
    | with_reducible refine KeepsE.next ?_
    | with_reducible apply State.start_keeps
    | with_reducible apply State.setMod_keeps
    | with_reducible apply State.setLrn_keeps
    | with_reducible refine Keeps.mk_ ?_ rfl rfl rfl rfl rfl rfl
    | split

theorem execTeachWindowExpiry_keeps (h : Keeps s0 s) : ∀ x0, KeepsE s0 (execTeachWindowExpiry x0 s) := by
  unfold execTeachWindowExpiry
  repeat' first
    | with_reducible assumption
    | (intro x; refine (fun (hx : Keeps s0 x) => ?_) ?_; clear_value x; rotate_left; unfold x)
    | intro x
    | (lift_lets; intro x; try (refine (fun (hx : Keeps s0 x) => ?_) ?_; clear_value x; rotate_left; unfold x))
    | with_reducible apply Keeps.ite
    | with_reducible apply KeepsE.ite
    | with_reducible refine KeepsE.next ?_
    | with_reducible apply State.start_keeps
    | with_reducible apply State.setMod_keeps
    | with_reducible apply State.setLrn_keeps
    | with_reducible refine Keeps.mk_ ?_ rfl rfl rfl rfl rfl rfl
    | split

end Sys2Proof.Machine
end

