-- ==== Sys2Proof/Laws/KeepsModelOps.lean ====
section
/-!
SUPPORT. What every operation of Machine/ModelOps.lean keeps (see Laws/Keeps.lean).
-/
namespace Sys2Proof.Machine

set_option Elab.async false
set_option linter.unreachableTactic false
set_option linter.unusedTactic false

variable {s0 s t : State}

theorem State.recall_keeps (h : Keeps s0 s) : ∀ x1, Keeps s0 (State.recall s x1) := by
  unfold State.recall
  repeat' first
    | with_reducible assumption
    | intro x
    | with_reducible apply State.recallLine_keeps
    | with_reducible refine Keeps.foldl ?_ ?_
    | with_reducible refine Keeps.mk_ ?_ rfl rfl rfl rfl rfl rfl

theorem State.relineKeys_keeps (h : Keeps s0 s) : ∀ x1, Keeps s0 (State.relineKeys s x1) := by
  unfold State.relineKeys
  repeat' first
    | with_reducible assumption
    | (intro x; refine (fun (hx : Keeps s0 x) => ?_) ?_; clear_value x; rotate_left; unfold x)
    | intro x
    | (lift_lets; intro x; try (refine (fun (hx : Keeps s0 x) => ?_) ?_; clear_value x; rotate_left; unfold x))
    | with_reducible apply Keeps.ite
    | with_reducible refine Keeps.foldl ?_ ?_
    | with_reducible refine Keeps.mk_ ?_ rfl rfl rfl rfl rfl rfl
    | split

theorem State.showMdl_keeps (h : Keeps s0 s) : Keeps s0 (State.showMdl s) := by
  unfold State.showMdl
  repeat' first
    | with_reducible assumption
    | intro x
    | with_reducible apply State.put_keeps
    | with_reducible refine Keeps.mk_ ?_ rfl rfl rfl rfl rfl rfl

theorem State.setModel_keeps (h : Keeps s0 s) : ∀ x1 x2, Keeps s0 (State.setModel s x1 x2) := by
  unfold State.setModel
  repeat' first
    | with_reducible assumption
    | (intro x; refine (fun (hx : Keeps s0 x) => ?_) ?_; clear_value x; rotate_left; unfold x)
    | intro x
    | (lift_lets; intro x; try (refine (fun (hx : Keeps s0 x) => ?_) ?_; clear_value x; rotate_left; unfold x))
    | split
    | with_reducible apply State.put_keeps
    | with_reducible refine Keeps.mk_ ?_ rfl rfl rfl rfl rfl rfl
    | split

theorem State.mdlLast_keeps (h : Keeps s0 s) : ∀ x1 x2, Keeps s0 (State.mdlLast s x1 x2) := by
  unfold State.mdlLast
  repeat' first
    | with_reducible assumption
    | (intro x; refine (fun (hx : Keeps s0 x) => ?_) ?_; clear_value x; rotate_left; unfold x)
    | intro x
    | (lift_lets; intro x; try (refine (fun (hx : Keeps s0 x) => ?_) ?_; clear_value x; rotate_left; unfold x))
    | with_reducible refine Keeps.mk_ ?_ rfl rfl rfl rfl rfl rfl

theorem State.ringInit_keeps (h : Keeps s0 s) : ∀ x1 x2 x3 x4 x5, Keeps s0 (State.ringInit s x1 x2 x3 x4 x5) := by
  unfold State.ringInit
  repeat' first
    | with_reducible assumption
    | intro x
    | with_reducible apply State.writeBytes_keeps
    | with_reducible refine Keeps.mk_ ?_ rfl rfl rfl rfl rfl rfl

theorem State.setAreas_keeps (h : Keeps s0 s) : ∀ x1 x2 x3, Keeps s0 (State.setAreas s x1 x2 x3) := by
  unfold State.setAreas
  repeat' first
    | with_reducible assumption
    | (intro x; refine (fun (hx : Keeps s0 x) => ?_) ?_; clear_value x; rotate_left; unfold x)
    | intro x
    | (lift_lets; intro x; try (refine (fun (hx : Keeps s0 x) => ?_) ?_; clear_value x; rotate_left; unfold x))
    | split
    | with_reducible apply State.ringInit_keeps
    | with_reducible apply State.setLane_keeps
    | with_reducible apply State.put_keeps
    | with_reducible apply State.setLrn_keeps
    | with_reducible refine Keeps.mk_ ?_ rfl rfl rfl rfl rfl rfl
    | split

theorem State.freezeLane_keeps (h : Keeps s0 s) : ∀ x1 x2, Keeps s0 (State.freezeLane s x1 x2) := by
  unfold State.freezeLane
  repeat' first
    | with_reducible assumption
    | (intro x; refine (fun (hx : Keeps s0 x) => ?_) ?_; clear_value x; rotate_left; unfold x)
    | intro x
    | (lift_lets; intro x; try (refine (fun (hx : Keeps s0 x) => ?_) ?_; clear_value x; rotate_left; unfold x))
    | with_reducible apply Keeps.ite
    | split
    | with_reducible apply State.setPop_keeps
    | with_reducible apply State.put_keeps
    | with_reducible refine Keeps.foldl ?_ ?_
    | with_reducible refine Keeps.mk_ ?_ rfl rfl rfl rfl rfl rfl
    | split

theorem State.makeAbsent_keeps (h : Keeps s0 s) : ∀ x1, Keeps s0 (State.makeAbsent s x1) := by
  unfold State.makeAbsent
  repeat' first
    | with_reducible assumption
    | (intro x; refine (fun (hx : Keeps s0 x) => ?_) ?_; clear_value x; rotate_left; unfold x)
    | intro x
    | (lift_lets; intro x; try (refine (fun (hx : Keeps s0 x) => ?_) ?_; clear_value x; rotate_left; unfold x))
    | with_reducible apply Keeps.ite
    | with_reducible apply State.setLrn_keeps
    | with_reducible apply State.setLane_keeps
    | with_reducible apply State.emitReport_keeps
    | with_reducible apply State.freezeLane_keeps
    | with_reducible apply State.putLaneState_keeps
    | with_reducible refine Keeps.mk_ ?_ rfl rfl rfl rfl rfl rfl
    | split

theorem State.select_keeps (h : Keeps s0 s) : ∀ x1, Keeps s0 (State.select s x1) := by
  unfold State.select
  repeat' first
    | with_reducible assumption
    | (intro x; refine (fun (hx : Keeps s0 x) => ?_) ?_; clear_value x; rotate_left; unfold x)
    | intro x
    | (lift_lets; intro x; try (refine (fun (hx : Keeps s0 x) => ?_) ?_; clear_value x; rotate_left; unfold x))
    | with_reducible apply Keeps.ite
    | with_reducible apply State.put_keeps
    | with_reducible refine Keeps.mk_ ?_ rfl rfl rfl rfl rfl rfl
    | split

theorem State.keepSelection_keeps (h : Keeps s0 s) : Keeps s0 (State.keepSelection s) := by
  unfold State.keepSelection
  dsimp only
  repeat' first
    | with_reducible assumption
    | (intro x; refine (fun (hx : Keeps s0 x) => ?_) ?_; clear_value x; rotate_left; unfold x)
    | intro x
    | (lift_lets; intro x; try (refine (fun (hx : Keeps s0 x) => ?_) ?_; clear_value x; rotate_left; unfold x))
    | with_reducible apply Keeps.ite
    | split
    | with_reducible apply State.select_keeps
    | with_reducible apply State.put_keeps
    | with_reducible refine Keeps.mk_ ?_ rfl rfl rfl rfl rfl rfl
    | split

theorem State.dropReserve_keeps (h : Keeps s0 s) : ∀ x1, Keeps s0 (State.dropReserve s x1) := by
  unfold State.dropReserve
  repeat' first
    | with_reducible assumption
    | (intro x; refine (fun (hx : Keeps s0 x) => ?_) ?_; clear_value x; rotate_left; unfold x)
    | intro x
    | (lift_lets; intro x; try (refine (fun (hx : Keeps s0 x) => ?_) ?_; clear_value x; rotate_left; unfold x))
    | split
    | with_reducible apply State.relineKeys_keeps
    | with_reducible apply State.setModel_keeps
    | with_reducible refine Keeps.getD ?_ ?_
    | with_reducible refine Keeps.mk_ ?_ rfl rfl rfl rfl rfl rfl
    | split

theorem State.unadmit_keeps (h : Keeps s0 s) : ∀ x1 x2, Keeps s0 (State.unadmit s x1 x2) := by
  unfold State.unadmit
  repeat' first
    | with_reducible assumption
    | (intro x; refine (fun (hx : Keeps s0 x) => ?_) ?_; clear_value x; rotate_left; unfold x)
    | intro x
    | (lift_lets; intro x; try (refine (fun (hx : Keeps s0 x) => ?_) ?_; clear_value x; rotate_left; unfold x))
    | with_reducible apply State.setLrn_keeps
    | with_reducible apply State.setLane_keeps
    | with_reducible apply State.put_keeps
    | with_reducible apply State.keepSelection_keeps
    | with_reducible apply State.putLaneState_keeps
    | with_reducible refine Keeps.mk_ ?_ rfl rfl rfl rfl rfl rfl

theorem State.refuseLane_keeps (h : Keeps s0 s) : ∀ x1 x2 x3, Keeps s0 (State.refuseLane s x1 x2 x3) := by
  unfold State.refuseLane
  repeat' first
    | with_reducible assumption
    | intro x
    | with_reducible apply State.record_keeps
    | with_reducible apply State.unadmit_keeps
    | with_reducible apply State.dropReserve_keeps
    | with_reducible refine Keeps.mk_ ?_ rfl rfl rfl rfl rfl rfl
    | split

theorem State.startLane_keeps (h : Keeps s0 s) : ∀ x1, Keeps s0 (State.startLane s x1) := by
  unfold State.startLane
  repeat' first
    | with_reducible assumption
    | (intro x; refine (fun (hx : Keeps s0 x) => ?_) ?_; clear_value x; rotate_left; unfold x)
    | intro x
    | (lift_lets; intro x; try (refine (fun (hx : Keeps s0 x) => ?_) ?_; clear_value x; rotate_left; unfold x))
    | with_reducible apply Keeps.ite
    | split
    | with_reducible apply State.setLane_keeps
    | with_reducible apply State.put_keeps
    | with_reducible apply State.wake_keeps
    | with_reducible apply State.putLaneState_keeps
    | with_reducible apply State.makeAbsent_keeps
    | with_reducible refine Keeps.foldl ?_ ?_
    | with_reducible refine Keeps.mk_ ?_ rfl rfl rfl rfl rfl rfl
    | split

theorem State.admitLane_keeps (h : Keeps s0 s) : ∀ x1 x2, Keeps s0 (State.admitLane s x1 x2) := by
  unfold State.admitLane
  dsimp only
  repeat' first
    | with_reducible assumption
    | (intro x; refine (fun (hx : Keeps s0 x) => ?_) ?_; clear_value x; rotate_left; unfold x)
    | intro x
    | (lift_lets; intro x; try (refine (fun (hx : Keeps s0 x) => ?_) ?_; clear_value x; rotate_left; unfold x))
    | with_reducible apply Keeps.ite
    | split
    | with_reducible apply State.refuseLane_keeps
    | with_reducible apply State.startLane_keeps
    | with_reducible apply State.setAreas_keeps
    | with_reducible apply State.setLane_keeps
    | with_reducible refine Keeps.getD ?_ ?_
    | with_reducible refine Keeps.mk_ ?_ rfl rfl rfl rfl rfl rfl
    | split

theorem State.putRecord_keeps (h : Keeps s0 s) : ∀ x1, Keeps s0 (State.putRecord s x1) := by
  unfold State.putRecord
  repeat' first
    | with_reducible assumption
    | intro x
    | with_reducible apply Keeps.ite
    | with_reducible apply State.writeBytes_keeps
    | with_reducible refine Keeps.mk_ ?_ rfl rfl rfl rfl rfl rfl
    | split

theorem State.slotRing_keeps (h : Keeps s0 s) : ∀ x1 x2 x3 x4 x5, Keeps s0 (State.slotRing s x1 x2 x3 x4 x5) := by
  unfold State.slotRing
  repeat' first
    | with_reducible assumption
    | intro x
    | with_reducible apply Keeps.ite
    | with_reducible apply State.ringInit_keeps
    | with_reducible refine Keeps.mk_ ?_ rfl rfl rfl rfl rfl rfl
    | split

theorem State.taskRank_keeps (h : Keeps s0 s) : ∀ x1, Keeps s0 (State.taskRank s x1).2 := by
  unfold State.taskRank
  repeat' first
    | with_reducible assumption
    | (intro x; refine (fun (hx : Keeps s0 x) => ?_) ?_; clear_value x; rotate_left; unfold x)
    | intro x
    | (lift_lets; intro x; try (refine (fun (hx : Keeps s0 x) => ?_) ?_; clear_value x; rotate_left; unfold x))
    | with_reducible apply Keeps.ite
    | with_reducible apply Keeps.ite2
    | with_reducible apply State.takeFree_keeps
    | with_reducible refine Keeps.of_pair (by assumption) ?_
    | with_reducible refine Keeps.mk_ ?_ rfl rfl rfl rfl rfl rfl
    | split

theorem State.bindTask_keeps (h : Keeps s0 s) : ∀ x1 x2 x3 x4 x5 x6 x7 x8, Keeps s0 (State.bindTask s x1 x2 x3 x4 x5 x6 x7 x8) := by
  unfold State.bindTask
  repeat' first
    | with_reducible assumption
    | (intro x; refine (fun (hx : Keeps s0 x) => ?_) ?_; clear_value x; rotate_left; unfold x)
    | intro x
    | (lift_lets; intro x; try (refine (fun (hx : Keeps s0 x) => ?_) ?_; clear_value x; rotate_left; unfold x))
    | with_reducible apply Keeps.ite
    | with_reducible apply State.taskRank_keeps
    | with_reducible apply State.slotRing_keeps
    | with_reducible apply State.writeBytes_keeps
    | with_reducible apply State.putRecord_keeps
    | with_reducible apply State.setTask_keeps
    | with_reducible refine Keeps.foldl ?_ ?_
    | with_reducible refine Keeps.getD ?_ ?_
    | with_reducible refine Keeps.of_pair (by assumption) ?_
    | with_reducible refine Keeps.mk_ ?_ rfl rfl rfl rfl rfl rfl
    | split

theorem State.bindModel_keeps (h : Keeps s0 s) : ∀ x1 x2, Keeps s0 (State.bindModel s x1 x2) := by
  intro slot m
  unfold State.bindModel
  exact Keeps.foldl (State.relineTiles_keeps (Keeps.foldl (Keeps.foldl1 h fun p a hp => State.bindTask_keeps hp _ _ _ _ _ _ _ _)
    fun s c hs => State.showCtx_keeps hs _)) fun s n hs => State.showScull_keeps hs _

theorem State.abortFaults_keeps (h : Keeps s0 s) : ∀ x1, Keeps s0 (State.abortFaults s x1) := by
  unfold State.abortFaults
  repeat' first
    | with_reducible assumption
    | (intro x; refine (fun (hx : Keeps s0 x) => ?_) ?_; clear_value x; rotate_left; unfold x)
    | intro x
    | (lift_lets; intro x; try (refine (fun (hx : Keeps s0 x) => ?_) ?_; clear_value x; rotate_left; unfold x))
    | with_reducible apply Keeps.ite
    | with_reducible apply State.endWork_keeps
    | with_reducible apply State.showHeld_keeps
    | with_reducible apply State.showFaults_keeps
    | with_reducible refine Keeps.foldl ?_ ?_
    | with_reducible refine Keeps.mk_ ?_ rfl rfl rfl rfl rfl rfl
    | split

theorem State.unbindModel_keeps (h : Keeps s0 s) : ∀ x1 x2, Keeps s0 (State.unbindModel s x1 x2) := by
  unfold State.unbindModel
  repeat' first
    | with_reducible assumption
    | (intro x; refine (fun (hx : Keeps s0 x) => ?_) ?_; clear_value x; rotate_left; unfold x)
    | intro x
    | (lift_lets; intro x; try (refine (fun (hx : Keeps s0 x) => ?_) ?_; clear_value x; rotate_left; unfold x))
    | with_reducible apply State.failSlides_keeps
    | with_reducible apply State.abortFaults_keeps
    | with_reducible apply State.keepTasks_keeps
    | with_reducible apply State.relineTiles_keeps
    | with_reducible apply State.showCtx_keeps
    | with_reducible apply State.showScull_keeps
    | with_reducible refine Keeps.foldl ?_ ?_
    | with_reducible refine Keeps.mk_ ?_ rfl rfl rfl rfl rfl rfl

theorem State.freeModel_keeps (h : Keeps s0 s) : ∀ x1 x2, Keeps s0 (State.freeModel s x1 x2) := by
  unfold State.freeModel
  repeat' first
    | with_reducible assumption
    | (intro x; refine (fun (hx : Keeps s0 x) => ?_) ?_; clear_value x; rotate_left; unfold x)
    | intro x
    | (lift_lets; intro x; try (refine (fun (hx : Keeps s0 x) => ?_) ?_; clear_value x; rotate_left; unfold x))
    | with_reducible apply Keeps.ite
    | split
    | with_reducible apply State.abortPops_keeps
    | with_reducible apply State.unbindModel_keeps
    | with_reducible apply State.leDrain_keeps
    | with_reducible apply State.dropPop_keeps
    | with_reducible apply State.put_keeps
    | with_reducible apply State.setBank_keeps
    | with_reducible apply State.recall_keeps
    | with_reducible apply State.setLe_keeps
    | with_reducible apply State.relineKeys_keeps
    | with_reducible apply State.setModel_keeps
    | with_reducible refine Keeps.foldl ?_ ?_
    | with_reducible refine Keeps.mk_ ?_ rfl rfl rfl rfl rfl rfl
    | split

end Sys2Proof.Machine
end

