-- ==== Sys2Proof/Laws/KeepsAdmission.lean ====
section
/-!
SUPPORT. What every operation of Machine/Admission.lean keeps (see Laws/Keeps.lean).
-/
namespace Sys2Proof.Machine

set_option Elab.async false
set_option linter.unreachableTactic false
set_option linter.unusedTactic false

variable {s0 s t : State}

theorem State.endAdmit_keeps (h : Keeps s0 s) : ∀ x1 x2 x3 x4 x5 x6 x7, Keeps s0 (State.endAdmit s x1 x2 x3 x4 x5 x6 x7) := by
  unfold State.endAdmit
  repeat' first
    | with_reducible assumption
    | (intro x; refine (fun (hx : Keeps s0 x) => ?_) ?_; clear_value x; rotate_left; unfold x)
    | intro x
    | (lift_lets; intro x; try (refine (fun (hx : Keeps s0 x) => ?_) ?_; clear_value x; rotate_left; unfold x))
    | with_reducible apply Keeps.ite
    | with_reducible apply State.showMdl_keeps
    | with_reducible apply State.mdlLast_keeps
    | with_reducible apply State.mbEndFor_keeps
    | with_reducible refine Keeps.mk_ ?_ rfl rfl rfl rfl rfl rfl
    | split

theorem State.denyAdmit_keeps (h : Keeps s0 s) : ∀ x1 x2 x3, Keeps s0 (State.denyAdmit s x1 x2 x3) := by
  unfold State.denyAdmit
  repeat' first
    | with_reducible assumption
    | (intro x; refine (fun (hx : Keeps s0 x) => ?_) ?_; clear_value x; rotate_left; unfold x)
    | intro x
    | (lift_lets; intro x; try (refine (fun (hx : Keeps s0 x) => ?_) ?_; clear_value x; rotate_left; unfold x))
    | with_reducible apply Keeps.ite
    | with_reducible apply State.record_keeps
    | with_reducible apply State.endAdmit_keeps
    | with_reducible refine Keeps.mk_ ?_ rfl rfl rfl rfl rfl rfl
    | split

theorem State.modelChange_keeps (h : Keeps s0 s) : ∀ x1 x2 x3 x4, Keeps s0 (State.modelChange s x1 x2 x3 x4) := by
  unfold State.modelChange
  repeat' first
    | with_reducible assumption
    | intro x
    | with_reducible apply State.emitReport_keeps
    | with_reducible refine Keeps.mk_ ?_ rfl rfl rfl rfl rfl rfl

theorem State.orphanLanes_keeps (h : Keeps s0 s) : ∀ x1 x2, Keeps s0 (State.orphanLanes s x1 x2) := by
  unfold State.orphanLanes
  repeat' first
    | with_reducible assumption
    | intro x
    | with_reducible apply State.modelChange_keeps
    | with_reducible apply State.unadmit_keeps
    | with_reducible refine Keeps.foldl ?_ ?_
    | with_reducible refine Keeps.mk_ ?_ rfl rfl rfl rfl rfl rfl

theorem State.makeRoom_keeps (h : Keeps s0 s) : ∀ x1, Keeps s0 (State.makeRoom s x1) := by
  unfold State.makeRoom
  repeat' first
    | with_reducible assumption
    | (intro x; refine (fun (hx : Keeps s0 x) => ?_) ?_; clear_value x; rotate_left; unfold x)
    | intro x
    | (lift_lets; intro x; try (refine (fun (hx : Keeps s0 x) => ?_) ?_; clear_value x; rotate_left; unfold x))
    | with_reducible apply Keeps.ite
    | split
    | with_reducible apply State.freeBlocks_keeps
    | with_reducible apply State.logRecord_keeps
    | with_reducible apply State.record_keeps
    | with_reducible refine Keeps.foldl ?_ ?_
    | with_reducible refine Keeps.mk_ ?_ rfl rfl rfl rfl rfl rfl
    | split

theorem State.loadOne_keeps (h : Keeps s0 s) : ∀ x1 x2 x3 x4 x5, Keeps s0 (State.loadOne s x1 x2 x3 x4 x5) := by
  unfold State.loadOne
  repeat' first
    | with_reducible assumption
    | (intro x; refine (fun (hx : Keeps s0 x) => ?_) ?_; clear_value x; rotate_left; unfold x)
    | intro x
    | (lift_lets; intro x; try (refine (fun (hx : Keeps s0 x) => ?_) ?_; clear_value x; rotate_left; unfold x))
    | with_reducible apply Keeps.ite
    | split
    | with_reducible apply State.put_keeps
    | with_reducible apply State.renormPop_keeps
    | with_reducible apply State.setPop_keeps
    | with_reducible apply State.restorePop_keeps
    | with_reducible apply State.loadPop_keeps
    | with_reducible apply State.lineBlocks_keeps
    | with_reducible apply State.holdSlot_keeps
    | with_reducible apply State.showLe_keeps
    | with_reducible refine Keeps.mk_ ?_ rfl rfl rfl rfl rfl rfl
    | split

theorem State.setCtx_keeps (h : Keeps s0 s) : ∀ x1 x2, Keeps s0 (State.setCtx s x1 x2) := by
  unfold State.setCtx
  repeat' first
    | with_reducible assumption
    | (intro x; refine (fun (hx : Keeps s0 x) => ?_) ?_; clear_value x; rotate_left; unfold x)
    | intro x
    | (lift_lets; intro x; try (refine (fun (hx : Keeps s0 x) => ?_) ?_; clear_value x; rotate_left; unfold x))
    | with_reducible apply State.dropTlb_keeps
    | with_reducible apply State.put_keeps
    | with_reducible refine Keeps.mk_ ?_ rfl rfl rfl rfl rfl rfl

theorem State.relane_keeps (h : Keeps s0 s) : ∀ x1 x2 x3 x4 x5, Keeps s0 (State.relane s x1 x2 x3 x4 x5) := by
  unfold State.relane
  repeat' first
    | with_reducible assumption
    | (intro x; refine (fun (hx : Keeps s0 x) => ?_) ?_; clear_value x; rotate_left; unfold x)
    | intro x
    | (lift_lets; intro x; try (refine (fun (hx : Keeps s0 x) => ?_) ?_; clear_value x; rotate_left; unfold x))
    | with_reducible apply Keeps.ite
    | split
    | with_reducible apply State.modelChange_keeps
    | with_reducible apply State.unadmit_keeps
    | with_reducible apply State.setAreas_keeps
    | with_reducible apply State.put_keeps
    | with_reducible apply State.setLrn_keeps
    | with_reducible apply State.setLane_keeps
    | with_reducible refine Keeps.getD ?_ ?_
    | with_reducible refine Keeps.mk_ ?_ rfl rfl rfl rfl rfl rfl
    | split

theorem State.finishLoad_keeps (h : Keeps s0 s) : ∀ x1, Keeps s0 (State.finishLoad s x1) := by
  unfold State.finishLoad
  repeat' first
    | with_reducible assumption
    | (intro x; refine (fun (hx : Keeps s0 x) => ?_) ?_; clear_value x; rotate_left; unfold x)
    | intro x
    | (lift_lets; intro x; try (refine (fun (hx : Keeps s0 x) => ?_) ?_; clear_value x; rotate_left; unfold x))
    | with_reducible apply Keeps.ite
    | split
    | with_reducible apply State.writeBytes_keeps
    | with_reducible apply State.setCtx_keeps
    | with_reducible apply State.loadOne_keeps
    | with_reducible apply State.makeRoom_keeps
    | with_reducible apply State.bindModel_keeps
    | with_reducible apply State.setModel_keeps
    | with_reducible apply State.relane_keeps
    | with_reducible apply State.bump_keeps
    | with_reducible apply State.admitLane_keeps
    | with_reducible apply State.endAdmit_keeps
    | with_reducible refine Keeps.foldl ?_ ?_
    | with_reducible refine Keeps.getD ?_ ?_
    | with_reducible refine Keeps.mk_ ?_ rfl rfl rfl rfl rfl rfl
    | split

theorem State.abortLoad_keeps (h : Keeps s0 s) : ∀ x1, Keeps s0 (State.abortLoad s x1) := by
  unfold State.abortLoad
  repeat' first
    | with_reducible assumption
    | (intro x; refine (fun (hx : Keeps s0 x) => ?_) ?_; clear_value x; rotate_left; unfold x)
    | intro x
    | (lift_lets; intro x; try (refine (fun (hx : Keeps s0 x) => ?_) ?_; clear_value x; rotate_left; unfold x))
    | with_reducible apply Keeps.ite
    | split
    | with_reducible apply State.freeModel_keeps
    | with_reducible apply State.orphanLanes_keeps
    | with_reducible apply State.endAdmit_keeps
    | with_reducible apply State.record_keeps
    | with_reducible refine Keeps.mk_ ?_ rfl rfl rfl rfl rfl rfl
    | split

theorem State.pumpLoad_keeps (h : Keeps s0 s) : Keeps s0 (State.pumpLoad s) := by
  unfold State.pumpLoad
  repeat' first
    | with_reducible assumption
    | (intro x; refine (fun (hx : Keeps s0 x) => ?_) ?_; clear_value x; rotate_left; unfold x)
    | intro x
    | (lift_lets; intro x; try (refine (fun (hx : Keeps s0 x) => ?_) ?_; clear_value x; rotate_left; unfold x))
    | with_reducible apply Keeps.ite
    | split
    | with_reducible apply State.finishLoad_keeps
    | with_reducible refine Keeps.mk_ ?_ rfl rfl rfl rfl rfl rfl
    | split

theorem State.startLoad_keeps (h : Keeps s0 s) : ∀ x1 x2 x3 x4 x5 x6 x7 x8, Keeps s0 (State.startLoad s x1 x2 x3 x4 x5 x6 x7 x8) := by
  unfold State.startLoad
  repeat' first
    | with_reducible assumption
    | (intro x; refine (fun (hx : Keeps s0 x) => ?_) ?_; clear_value x; rotate_left; unfold x)
    | intro x
    | (lift_lets; intro x; try (refine (fun (hx : Keeps s0 x) => ?_) ?_; clear_value x; rotate_left; unfold x))
    | with_reducible apply State.relineKeys_keeps
    | with_reducible apply State.setModel_keeps
    | with_reducible apply State.pumpLoad_keeps
    | with_reducible apply State.showMdl_keeps
    | with_reducible apply State.wake_keeps
    | with_reducible refine Keeps.foldl ?_ ?_
    | with_reducible refine Keeps.mk_ ?_ rfl rfl rfl rfl rfl rfl
    | split

theorem State.tryLoad_keeps (h : Keeps s0 s) : ∀ x1 x2, Keeps s0 (State.tryLoad s x1 x2) := by
  unfold State.tryLoad
  dsimp only
  repeat' first
    | with_reducible assumption
    | (intro x; refine (fun (hx : Keeps s0 x) => ?_) ?_; clear_value x; rotate_left; unfold x)
    | intro x
    | (lift_lets; intro x; try (refine (fun (hx : Keeps s0 x) => ?_) ?_; clear_value x; rotate_left; unfold x))
    | with_reducible apply Keeps.ite
    | split
    | with_reducible apply State.startLoad_keeps
    | with_reducible apply State.setLane_keeps
    | with_reducible apply State.freeModel_keeps
    | with_reducible apply State.writeBytes_keeps
    | with_reducible apply State.record_keeps
    | with_reducible apply State.bump_keeps
    | with_reducible apply State.endAdmit_keeps
    | with_reducible refine Keeps.foldl ?_ ?_
    | with_reducible refine Keeps.mk_ ?_ rfl rfl rfl rfl rfl rfl
    | split

theorem State.unload_keeps (h : Keeps s0 s) : ∀ x1, Keeps s0 (State.unload s x1) := by
  unfold State.unload
  repeat' first
    | with_reducible assumption
    | (intro x; refine (fun (hx : Keeps s0 x) => ?_) ?_; clear_value x; rotate_left; unfold x)
    | intro x
    | (lift_lets; intro x; try (refine (fun (hx : Keeps s0 x) => ?_) ?_; clear_value x; rotate_left; unfold x))
    | with_reducible apply Keeps.ite
    | split
    | with_reducible apply State.endAdmit_keeps
    | with_reducible apply State.freeModel_keeps
    | with_reducible apply State.orphanLanes_keeps
    | with_reducible refine Keeps.mk_ ?_ rfl rfl rfl rfl rfl rfl
    | split

theorem State.beginAdmit_keeps (h : Keeps s0 s) : ∀ x1, Keeps s0 (State.beginAdmit s x1) := by
  unfold State.beginAdmit
  repeat' first
    | with_reducible assumption
    | (intro x; refine (fun (hx : Keeps s0 x) => ?_) ?_; clear_value x; rotate_left; unfold x)
    | intro x
    | (lift_lets; intro x; try (refine (fun (hx : Keeps s0 x) => ?_) ?_; clear_value x; rotate_left; unfold x))
    | with_reducible apply Keeps.ite
    | split
    | with_reducible apply State.unload_keeps
    | with_reducible apply State.denyAdmit_keeps
    | with_reducible apply State.tryLoad_keeps
    | with_reducible refine Keeps.mk_ ?_ rfl rfl rfl rfl rfl rfl
    | split

theorem State.pumpAdmit_keeps (h : Keeps s0 s) : ∀ x0, Keeps s0 (State.pumpAdmit x0 s) := by
  intro x0
  induction x0 generalizing s with
  | zero =>
    intros
    rw [State.pumpAdmit]
    exact h
  | succ n ih =>
    skip
    rw [State.pumpAdmit]
    repeat' first
      | with_reducible assumption
      | (intro x; refine (fun (hx : Keeps s0 x) => ?_) ?_; clear_value x; rotate_left; unfold x)
      | intro x
      | (lift_lets; intro x; try (refine (fun (hx : Keeps s0 x) => ?_) ?_; clear_value x; rotate_left; unfold x))
      | with_reducible apply Keeps.ite
      | split
      | with_reducible apply State.beginAdmit_keeps
      | with_reducible apply State.showMdl_keeps
      | with_reducible apply ih
      | with_reducible refine Keeps.mk_ ?_ rfl rfl rfl rfl rfl rfl
      | split

theorem State.askAdmit_keeps (h : Keeps s0 s) : ∀ x1, KeepsO s0 (State.askAdmit s x1) := by
  unfold State.askAdmit
  repeat' first
    | with_reducible assumption
    | (intro x; refine (fun (hx : Keeps s0 x) => ?_) ?_; clear_value x; rotate_left; unfold x)
    | intro x
    | (lift_lets; intro x; try (refine (fun (hx : Keeps s0 x) => ?_) ?_; clear_value x; rotate_left; unfold x))
    | with_reducible apply Keeps.ite
    | with_reducible apply KeepsO.ite
    | with_reducible refine KeepsO.some ?_
    | with_reducible exact KeepsO.none
    | with_reducible apply State.pumpAdmit_keeps
    | with_reducible apply State.showMdl_keeps
    | with_reducible refine Keeps.mk_ ?_ rfl rfl rfl rfl rfl rfl
    | split

theorem State.afterWake_keeps (h : Keeps s0 s) : Keeps s0 (State.afterWake s) := by
  unfold State.afterWake
  repeat' first
    | with_reducible assumption
    | intro x
    | with_reducible apply State.pumpAdmit_keeps
    | with_reducible apply State.pumpLoad_keeps
    | with_reducible refine Keeps.mk_ ?_ rfl rfl rfl rfl rfl rfl

theorem State.afterWakeFail_keeps (h : Keeps s0 s) : ∀ x1, Keeps s0 (State.afterWakeFail s x1) := by
  unfold State.afterWakeFail
  repeat' first
    | with_reducible assumption
    | (intro x; refine (fun (hx : Keeps s0 x) => ?_) ?_; clear_value x; rotate_left; unfold x)
    | intro x
    | (lift_lets; intro x; try (refine (fun (hx : Keeps s0 x) => ?_) ?_; clear_value x; rotate_left; unfold x))
    | with_reducible apply Keeps.ite
    | split
    | with_reducible apply State.pumpAdmit_keeps
    | with_reducible apply State.abortLoad_keeps
    | with_reducible refine Keeps.mk_ ?_ rfl rfl rfl rfl rfl rfl
    | split

theorem State.dropModel_keeps (h : Keeps s0 s) : ∀ x1, Keeps s0 (State.dropModel s x1) := by
  unfold State.dropModel
  repeat' first
    | with_reducible assumption
    | (intro x; refine (fun (hx : Keeps s0 x) => ?_) ?_; clear_value x; rotate_left; unfold x)
    | intro x
    | (lift_lets; intro x; try (refine (fun (hx : Keeps s0 x) => ?_) ?_; clear_value x; rotate_left; unfold x))
    | split
    | with_reducible apply State.record_keeps
    | with_reducible apply State.orphanLanes_keeps
    | with_reducible apply State.freeModel_keeps
    | with_reducible refine Keeps.mk_ ?_ rfl rfl rfl rfl rfl rfl
    | split

theorem State.releaseKey_keeps (h : Keeps s0 s) : ∀ x1 x2 x3, Keeps s0 (State.releaseKey s x1 x2 x3) := by
  unfold State.releaseKey
  repeat' first
    | with_reducible assumption
    | (intro x; refine (fun (hx : Keeps s0 x) => ?_) ?_; clear_value x; rotate_left; unfold x)
    | intro x
    | (lift_lets; intro x; try (refine (fun (hx : Keeps s0 x) => ?_) ?_; clear_value x; rotate_left; unfold x))
    | split
    | with_reducible apply State.releaseSlot_keeps
    | with_reducible apply State.logRecord_keeps
    | with_reducible refine Keeps.mk_ ?_ rfl rfl rfl rfl rfl rfl
    | split

theorem State.relearn_keeps (h : Keeps s0 s) : ∀ x1, Keeps s0 (State.relearn s x1) := by
  unfold State.relearn
  repeat' first
    | with_reducible assumption
    | (intro x; refine (fun (hx : Keeps s0 x) => ?_) ?_; clear_value x; rotate_left; unfold x)
    | intro x
    | (lift_lets; intro x; try (refine (fun (hx : Keeps s0 x) => ?_) ?_; clear_value x; rotate_left; unfold x))
    | with_reducible apply Keeps.ite
    | split
    | with_reducible apply State.abortPops_keeps
    | with_reducible apply State.releaseKey_keeps
    | with_reducible apply State.loadOne_keeps
    | with_reducible apply State.dropPop_keeps
    | with_reducible apply State.setPop_keeps
    | with_reducible apply State.setLrn_keeps
    | with_reducible apply State.put_keeps
    | with_reducible refine Keeps.foldl ?_ ?_
    | with_reducible refine Keeps.mk_ ?_ rfl rfl rfl rfl rfl rfl
    | split

end Sys2Proof.Machine
end

