-- ==== Sys2Proof/Laws/KeepsBootOps.lean ====
section
/-!
SUPPORT. What every operation of Machine/BootOps.lean keeps (see Laws/Keeps.lean).
-/
namespace Sys2Proof.Machine

set_option Elab.async false
set_option linter.unreachableTactic false
set_option linter.unusedTactic false

variable {s0 s t : State}

theorem State.usrRefuse_keeps (h : Keeps s0 s) : ∀ x1, Keeps s0 (State.usrRefuse s x1) := by
  unfold State.usrRefuse
  repeat' first
    | with_reducible assumption
    | intro x
    | with_reducible apply State.record_keeps
    | with_reducible apply State.bump_keeps
    | with_reducible refine Keeps.mk_ ?_ rfl rfl rfl rfl rfl rfl

theorem State.usrPut_keeps (h : Keeps s0 s) : ∀ x1 x2 x3, Keeps s0 (State.usrPut s x1 x2 x3) := by
  unfold State.usrPut
  repeat' first
    | with_reducible assumption
    | (intro x; refine (fun (hx : Keeps s0 x) => ?_) ?_; clear_value x; rotate_left; unfold x)
    | intro x
    | (lift_lets; intro x; try (refine (fun (hx : Keeps s0 x) => ?_) ?_; clear_value x; rotate_left; unfold x))
    | with_reducible apply Keeps.ite
    | with_reducible apply State.usrRefuse_keeps
    | with_reducible apply State.put_keeps
    | with_reducible refine Keeps.mk_ ?_ rfl rfl rfl rfl rfl rfl
    | split

theorem State.dropRec_keeps (h : Keeps s0 s) : Keeps s0 (State.dropRec s) := by
  unfold State.dropRec
  repeat' first
    | with_reducible assumption
    | intro x
    | with_reducible apply State.record_keeps
    | with_reducible refine Keeps.mk_ ?_ rfl rfl rfl rfl rfl rfl

theorem State.facPreset_keeps (h : Keeps s0 s) : ∀ x1 x2 x3, Keeps s0 (State.facPreset s x1 x2 x3) := by
  unfold State.facPreset
  repeat' first
    | with_reducible assumption
    | (intro x; refine (fun (hx : Keeps s0 x) => ?_) ?_; clear_value x; rotate_left; unfold x)
    | intro x
    | (lift_lets; intro x; try (refine (fun (hx : Keeps s0 x) => ?_) ?_; clear_value x; rotate_left; unfold x))
    | with_reducible apply Keeps.ite
    | split
    | with_reducible apply State.put_keeps
    | with_reducible refine Keeps.foldl ?_ ?_
    | with_reducible refine Keeps.mk_ ?_ rfl rfl rfl rfl rfl rfl
    | split

theorem State.defaultPins_keeps (h : Keeps s0 s) : Keeps s0 (State.defaultPins s) := by
  unfold State.defaultPins
  repeat' first
    | with_reducible assumption
    | (intro x; refine (fun (hx : Keeps s0 x) => ?_) ?_; clear_value x; rotate_left; unfold x)
    | intro x
    | (lift_lets; intro x; try (refine (fun (hx : Keeps s0 x) => ?_) ?_; clear_value x; rotate_left; unfold x))
    | with_reducible apply State.put_keeps
    | with_reducible refine Keeps.foldl ?_ ?_
    | with_reducible refine Keeps.mk_ ?_ rfl rfl rfl rfl rfl rfl

theorem State.facLayer_keeps (h : Keeps s0 s) : Keeps s0 (State.facLayer s) := by
  unfold State.facLayer
  repeat' first
    | with_reducible assumption
    | (intro x; refine (fun (hx : Keeps s0 x) => ?_) ?_; clear_value x; rotate_left; unfold x)
    | intro x
    | (lift_lets; intro x; try (refine (fun (hx : Keeps s0 x) => ?_) ?_; clear_value x; rotate_left; unfold x))
    | with_reducible apply State.put_keeps
    | with_reducible apply State.defaultPins_keeps
    | with_reducible apply State.facPreset_keeps
    | with_reducible refine Keeps.foldl ?_ ?_
    | with_reducible refine Keeps.mk_ ?_ rfl rfl rfl rfl rfl rfl

theorem State.loseClaim_keeps (h : Keeps s0 s) : ∀ x1 x2 x3, Keeps s0 (State.loseClaim s x1 x2 x3) := by
  unfold State.loseClaim
  repeat' first
    | with_reducible assumption
    | intro x
    | with_reducible apply State.record_keeps
    | with_reducible apply State.bump_keeps
    | with_reducible refine Keeps.mk_ ?_ rfl rfl rfl rfl rfl rfl

theorem State.pinPut_keeps (h : Keeps s0 s) : ∀ x1 x2 x3, Keeps s0 (State.pinPut s x1 x2 x3) := by
  unfold State.pinPut
  repeat' first
    | with_reducible assumption
    | intro x
    | with_reducible apply Keeps.ite
    | with_reducible apply State.put_keeps
    | with_reducible refine Keeps.mk_ ?_ rfl rfl rfl rfl rfl rfl
    | split

theorem State.pinRec_keeps (h : Keeps s0 s) : ∀ x1, Keeps s0 (State.pinRec s x1) := by
  unfold State.pinRec
  repeat' first
    | with_reducible assumption
    | intro x
    | with_reducible apply State.usrPut_keeps
    | with_reducible refine Keeps.mk_ ?_ rfl rfl rfl rfl rfl rfl

theorem State.pinGrant_keeps (h : Keeps s0 s) : ∀ x1, Keeps s0 (State.pinGrant s x1) := by
  unfold State.pinGrant
  repeat' first
    | with_reducible assumption
    | intro x
    | with_reducible apply State.pinPut_keeps
    | with_reducible refine Keeps.mk_ ?_ rfl rfl rfl rfl rfl rfl

theorem State.pinDisable_keeps (h : Keeps s0 s) : ∀ x1, Keeps s0 (State.pinDisable s x1) := by
  unfold State.pinDisable
  repeat' first
    | with_reducible assumption
    | intro x
    | with_reducible apply Keeps.ite
    | with_reducible apply State.put_keeps
    | with_reducible refine Keeps.mk_ ?_ rfl rfl rfl rfl rfl rfl
    | split

theorem State.takeClaim_keeps (h : Keeps s0 s) : ∀ x1, Keeps s0 (State.takeClaim s x1) := by
  unfold State.takeClaim
  repeat' first
    | with_reducible assumption
    | (intro x; refine (fun (hx : Keeps s0 x) => ?_) ?_; clear_value x; rotate_left; unfold x)
    | intro x
    | (lift_lets; intro x; try (refine (fun (hx : Keeps s0 x) => ?_) ?_; clear_value x; rotate_left; unfold x))
    | with_reducible apply Keeps.ite
    | split
    | with_reducible apply State.pinGrant_keeps
    | with_reducible apply State.loseClaim_keeps
    | with_reducible apply State.pinDisable_keeps
    | with_reducible apply State.put_keeps
    | with_reducible refine Keeps.foldl ?_ ?_
    | with_reducible refine Keeps.mk_ ?_ rfl rfl rfl rfl rfl rfl
    | split

theorem State.partVals_keeps (h : Keeps s0 s) : ∀ x1, Keeps s0 (State.partVals s x1) := by
  unfold State.partVals
  repeat' first
    | with_reducible assumption
    | (intro x; refine (fun (hx : Keeps s0 x) => ?_) ?_; clear_value x; rotate_left; unfold x)
    | intro x
    | (lift_lets; intro x; try (refine (fun (hx : Keeps s0 x) => ?_) ?_; clear_value x; rotate_left; unfold x))
    | with_reducible apply Keeps.ite
    | with_reducible apply State.usrPut_keeps
    | with_reducible refine Keeps.mk_ ?_ rfl rfl rfl rfl rfl rfl
    | split

theorem State.makePart_keeps (h : Keeps s0 s) : ∀ x1 x2 x3 x4 x5, Keeps s0 (State.makePart s x1 x2 x3 x4 x5).1 := by
  unfold State.makePart
  repeat' first
    | with_reducible assumption
    | (intro x; refine (fun (hx : Keeps s0 x) => ?_) ?_; clear_value x; rotate_left; unfold x)
    | intro x
    | (lift_lets; intro x; try (refine (fun (hx : Keeps s0 x) => ?_) ?_; clear_value x; rotate_left; unfold x))
    | with_reducible apply Keeps.ite
    | with_reducible apply Keeps.ite1
    | split
    | with_reducible apply State.loseClaim_keeps
    | with_reducible apply State.put_keeps
    | with_reducible refine Keeps.foldl ?_ ?_
    | with_reducible refine Keeps.mk_ ?_ rfl rfl rfl rfl rfl rfl
    | split

theorem State.makeParts_keeps (h : Keeps s0 s) : ∀ x1 x2, Keeps s0 (State.makeParts s x1 x2) := by
  unfold State.makeParts
  repeat' first
    | with_reducible assumption
    | (intro x; refine (fun (hx : Keeps s0 x) => ?_) ?_; clear_value x; rotate_left; unfold x)
    | intro x
    | (lift_lets; intro x; try (refine (fun (hx : Keeps s0 x) => ?_) ?_; clear_value x; rotate_left; unfold x))
    | with_reducible apply Keeps.ite
    | split
    | with_reducible apply State.makePart_keeps
    | with_reducible refine Keeps.foldl1 ?_ ?_
    | with_reducible refine Keeps.foldl ?_ ?_
    | with_reducible refine Keeps.mk_ ?_ rfl rfl rfl rfl rfl rfl
    | split

theorem State.lanesToParts_keeps (h : Keeps s0 s) : ∀ x1, Keeps s0 (State.lanesToParts s x1) := by
  unfold State.lanesToParts
  dsimp only
  repeat' first
    | with_reducible assumption
    | (intro x; refine (fun (hx : Keeps s0 x) => ?_) ?_; clear_value x; rotate_left; unfold x)
    | intro x
    | (lift_lets; intro x; try (refine (fun (hx : Keeps s0 x) => ?_) ?_; clear_value x; rotate_left; unfold x))
    | with_reducible apply Keeps.ite
    | split
    | with_reducible apply State.loseClaim_keeps
    | with_reducible refine Keeps.foldl ?_ ?_
    | with_reducible refine Keeps.mk_ ?_ rfl rfl rfl rfl rfl rfl
    | split

theorem State.netRec_keeps (h : Keeps s0 s) : ∀ x1, Keeps s0 (State.netRec s x1) := by
  unfold State.netRec
  repeat' first
    | with_reducible assumption
    | (intro x; refine (fun (hx : Keeps s0 x) => ?_) ?_; clear_value x; rotate_left; unfold x)
    | intro x
    | (lift_lets; intro x; try (refine (fun (hx : Keeps s0 x) => ?_) ?_; clear_value x; rotate_left; unfold x))
    | with_reducible apply Keeps.ite
    | split
    | with_reducible apply State.dropRec_keeps
    | with_reducible apply State.put_keeps
    | with_reducible apply State.usrPut_keeps
    | with_reducible refine Keeps.mk_ ?_ rfl rfl rfl rfl rfl rfl
    | split

theorem State.reportsRec_keeps (h : Keeps s0 s) : ∀ x1, Keeps s0 (State.reportsRec s x1) := by
  unfold State.reportsRec
  repeat' first
    | with_reducible assumption
    | (intro x; refine (fun (hx : Keeps s0 x) => ?_) ?_; clear_value x; rotate_left; unfold x)
    | intro x
    | (lift_lets; intro x; try (refine (fun (hx : Keeps s0 x) => ?_) ?_; clear_value x; rotate_left; unfold x))
    | with_reducible apply Keeps.ite
    | split
    | with_reducible apply State.dropRec_keeps
    | with_reducible apply State.usrPut_keeps
    | with_reducible refine Keeps.mk_ ?_ rfl rfl rfl rfl rfl rfl
    | split

theorem State.keysRec_keeps (h : Keeps s0 s) : ∀ x1 x2 x3, Keeps s0 (State.keysRec s x1 x2 x3) := by
  intro keyIdx bf r
  unfold State.keysRec
  extract_lets i hh
  refine Keeps.ite (State.dropRec_keeps h) ?_
  split
  · refine Keeps.ite (State.dropRec_keeps h) (State.put_keeps ?_ _ _ _)
    exact h.same rfl rfl rfl rfl rfl rfl
  · split
    · exact h
    · rename_i hn
      split
      · exact State.dropRec_keeps h
      · rename_i hm
        refine Keeps.ite (State.record_keeps h _) (State.put_keeps ?_ _ _ _)
        have hi : i < 4 := by
          refine Nat.lt_of_not_le fun e => hm (Or.inl e)
        have hb : bit s.boot.fieldRevoke i = false := by
          have h1 : ¬ s.rootRevoked i = true := fun e => hn ⟨hi, e⟩
          unfold State.rootRevoked at h1
          simp only [Bool.or_eq_true, not_or, Bool.not_eq_true] at h1
          exact h1.2
        exact h.revoke hi hb
  · exact State.dropRec_keeps h

theorem State.laneRegs_keeps (h : Keeps s0 s) : ∀ x1 x2, Keeps s0 (State.laneRegs s x1 x2) := by
  unfold State.laneRegs
  repeat' first
    | with_reducible assumption
    | (intro x; refine (fun (hx : Keeps s0 x) => ?_) ?_; clear_value x; rotate_left; unfold x)
    | intro x
    | (lift_lets; intro x; try (refine (fun (hx : Keeps s0 x) => ?_) ?_; clear_value x; rotate_left; unfold x))
    | with_reducible apply Keeps.ite
    | with_reducible apply State.put_keeps
    | with_reducible apply State.usrPut_keeps
    | with_reducible refine Keeps.foldl ?_ ?_
    | with_reducible refine Keeps.mk_ ?_ rfl rfl rfl rfl rfl rfl
    | split

theorem State.lanesRec_keeps (h : Keeps s0 s) : ∀ x1, Keeps s0 (State.lanesRec s x1) := by
  unfold State.lanesRec
  repeat' first
    | with_reducible assumption
    | (intro x; refine (fun (hx : Keeps s0 x) => ?_) ?_; clear_value x; rotate_left; unfold x)
    | intro x
    | (lift_lets; intro x; try (refine (fun (hx : Keeps s0 x) => ?_) ?_; clear_value x; rotate_left; unfold x))
    | with_reducible apply Keeps.ite
    | split
    | with_reducible apply State.laneRegs_keeps
    | with_reducible apply State.dropRec_keeps
    | with_reducible refine Keeps.mk_ ?_ rfl rfl rfl rfl rfl rfl
    | split

theorem State.preset_keeps (h : Keeps s0 s) : ∀ x1, Keeps s0 (State.preset s x1) := by
  intro r
  unfold State.preset
  dsimp only
  split
  · exact State.dropRec_keeps h
  · refine Keeps.ite (State.dropRec_keeps h) ?_
    have hf : ∀ (ok : Bool) (fs : List RegField) (i w : Nat) (v off : Nat), Keeps s0 (fs.foldl (fun s (f : RegField) =>
        if ok = true then s.usrPut f i (bits v (f.lo - 32 * w + f.width - 1) (f.lo - 32 * w)) else s.usrRefuse off) s) := fun ok fs i w v off =>
      Keeps.foldl h fun s f hs => by cases ok <;> simp <;> first | exact State.usrPut_keeps hs _ _ _ | exact State.usrRefuse_keeps hs _
    exact Keeps.ite (State.usrRefuse_keeps (hf _ _ _ _ _ _) _) (hf _ _ _ _ _ _)

theorem State.claimRecs_keeps (h : Keeps s0 s) : ∀ x1, Keeps s0 (State.claimRecs s x1).1 := by
  intro rs
  unfold State.claimRecs
  refine Keeps.foldl1 h fun a r hp => ?_
  dsimp only
  split
  · exact hp
  · split
    · exact State.dropRec_keeps hp
    · split
      · exact hp
      · exact State.dropRec_keeps hp

theorem State.usrSections_keeps (h : Keeps s0 s) : ∀ x1 x2, Keeps s0 (State.usrSections s x1 x2).1 := by
  intro img b
  unfold State.usrSections
  dsimp only
  refine Keeps.foldl (Keeps.foldl (Keeps.foldl (Keeps.foldl (State.claimRecs_keeps (Keeps.foldl (Keeps.foldl (Keeps.foldl (Keeps.foldl h
    fun s r hs => ?_) fun s r hs => State.netRec_keeps hs _) fun s r hs => Keeps.ite (State.partVals_keeps hs _) (State.dropRec_keeps hs))
    fun s r hs => Keeps.ite (State.pinRec_keeps hs _) (State.dropRec_keeps hs)) _) fun s r hs => State.lanesRec_keeps hs _)
    fun s r hs => State.reportsRec_keeps hs _) fun s r hs => State.keysRec_keeps hs _ _ _) fun s r hs => State.preset_keeps hs _
  split
  · exact Keeps.mk_ hs rfl rfl rfl rfl rfl rfl
  · exact hs

theorem State.laneTakes_keeps (h : Keeps s0 s) : ∀ x1 x2 x3 x4, Keeps s0 (State.laneTakes s x1 x2 x3 x4) := by
  unfold State.laneTakes
  repeat' first
    | with_reducible assumption
    | (intro x; refine (fun (hx : Keeps s0 x) => ?_) ?_; clear_value x; rotate_left; unfold x)
    | intro x
    | (lift_lets; intro x; try (refine (fun (hx : Keeps s0 x) => ?_) ?_; clear_value x; rotate_left; unfold x))
    | with_reducible apply Keeps.ite
    | with_reducible apply State.takeClaim_keeps
    | with_reducible refine Keeps.mk_ ?_ rfl rfl rfl rfl rfl rfl
    | split

theorem State.resolveOwners_keeps (h : Keeps s0 s) : ∀ x1 x2 x3, Keeps s0 (State.resolveOwners s x1 x2 x3) := by
  unfold State.resolveOwners
  repeat' first
    | with_reducible assumption
    | (intro x; refine (fun (hx : Keeps s0 x) => ?_) ?_; clear_value x; rotate_left; unfold x)
    | intro x
    | (lift_lets; intro x; try (refine (fun (hx : Keeps s0 x) => ?_) ?_; clear_value x; rotate_left; unfold x))
    | with_reducible apply State.laneTakes_keeps
    | with_reducible apply State.takeClaim_keeps
    | with_reducible apply State.lanesToParts_keeps
    | with_reducible apply State.makeParts_keeps
    | with_reducible refine Keeps.foldl ?_ ?_
    | with_reducible refine Keeps.mk_ ?_ rfl rfl rfl rfl rfl rfl
    | split

theorem State.modelsRec_keeps (h : Keeps s0 s) : ∀ x1 x2, Keeps s0 (State.modelsRec s x1 x2) := by
  unfold State.modelsRec
  repeat' first
    | with_reducible assumption
    | (intro x; refine (fun (hx : Keeps s0 x) => ?_) ?_; clear_value x; rotate_left; unfold x)
    | intro x
    | (lift_lets; intro x; try (refine (fun (hx : Keeps s0 x) => ?_) ?_; clear_value x; rotate_left; unfold x))
    | with_reducible apply Keeps.ite
    | with_reducible apply State.dropRec_keeps
    | with_reducible refine Keeps.mk_ ?_ rfl rfl rfl rfl rfl rfl
    | split

theorem State.applyImage_keeps (h : Keeps s0 s) : ∀ x1 x2, Keeps s0 (State.applyImage s x1 x2) := by
  intro x1 x2
  unfold State.applyImage
  exact Keeps.foldl (State.resolveOwners_keeps (State.usrSections_keeps h x1 x2) _ _ _) fun s r hs => State.modelsRec_keeps hs _ _

theorem State.deviceReset_keeps (h : Keeps s0 s) : Keeps s0 (State.deviceReset s) := by
  unfold State.deviceReset
  have h := State.nodesOff_keeps h
  refine State.emit_keeps (Keeps.foldl ?_ fun s fi hs => State.put_keeps hs _ _ _) _
  exact ⟨h.pending, h.now, h.otp, h.lc, h.rev, h.ok, fun _ => rfl⟩

theorem State.powerOnReset_keeps (h : Keeps s0 s) : Keeps s0 (State.powerOnReset s) := by
  unfold State.powerOnReset
  repeat' first
    | with_reducible assumption
    | (intro x; refine (fun (hx : Keeps s0 x) => ?_) ?_; clear_value x; rotate_left; unfold x)
    | intro x
    | (lift_lets; intro x; try (refine (fun (hx : Keeps s0 x) => ?_) ?_; clear_value x; rotate_left; unfold x))
    | with_reducible apply State.deviceReset_keeps
    | with_reducible apply State.put_keeps
    | with_reducible refine Keeps.mk_ ?_ rfl rfl rfl rfl rfl rfl

end Sys2Proof.Machine
end

