-- ==== Sys2Proof/Laws/KeepsLaneIngest.lean ====
section
/-!
SUPPORT. What every operation of Machine/LaneIngest.lean keeps (see Laws/Keeps.lean).
-/
namespace Sys2Proof.Machine

set_option Elab.async false
set_option linter.unreachableTactic false
set_option linter.unusedTactic false

variable {s0 s t : State}

theorem State.countLoss_keeps (h : Keeps s0 s) : ∀ x1, Keeps s0 (State.countLoss s x1) := by
  unfold State.countLoss
  repeat' first
    | with_reducible assumption
    | (intro x; refine (fun (hx : Keeps s0 x) => ?_) ?_; clear_value x; rotate_left; unfold x)
    | intro x
    | (lift_lets; intro x; try (refine (fun (hx : Keeps s0 x) => ?_) ?_; clear_value x; rotate_left; unfold x))
    | with_reducible apply Keeps.ite
    | with_reducible apply State.laneLose_keeps
    | with_reducible apply State.setLane_keeps
    | with_reducible refine Keeps.mk_ ?_ rfl rfl rfl rfl rfl rfl
    | split

theorem State.laneArrival_keeps (h : Keeps s0 s) : ∀ x1, Keeps s0 (State.laneArrival s x1) := by
  unfold State.laneArrival
  repeat' first
    | with_reducible assumption
    | (intro x; refine (fun (hx : Keeps s0 x) => ?_) ?_; clear_value x; rotate_left; unfold x)
    | intro x
    | (lift_lets; intro x; try (refine (fun (hx : Keeps s0 x) => ?_) ?_; clear_value x; rotate_left; unfold x))
    | with_reducible apply Keeps.ite
    | with_reducible apply State.countLoss_keeps
    | with_reducible apply State.setLane_keeps
    | with_reducible apply State.putLaneState_keeps
    | with_reducible refine Keeps.mk_ ?_ rfl rfl rfl rfl rfl rfl
    | split

theorem State.putEntry_keeps (h : Keeps s0 s) : ∀ x1 x2, Keeps s0 (State.putEntry s x1 x2) := by
  unfold State.putEntry
  repeat' first
    | with_reducible assumption
    | (intro x; refine (fun (hx : Keeps s0 x) => ?_) ?_; clear_value x; rotate_left; unfold x)
    | intro x
    | (lift_lets; intro x; try (refine (fun (hx : Keeps s0 x) => ?_) ?_; clear_value x; rotate_left; unfold x))
    | with_reducible apply Keeps.ite
    | with_reducible apply State.serviceWrite_keeps
    | with_reducible refine Keeps.mk_ ?_ rfl rfl rfl rfl rfl rfl
    | split

theorem State.publishEntry_keeps (h : Keeps s0 s) : ∀ x1 x2, Keeps s0 (State.publishEntry s x1 x2) := by
  unfold State.publishEntry
  repeat' first
    | with_reducible assumption
    | (intro x; refine (fun (hx : Keeps s0 x) => ?_) ?_; clear_value x; rotate_left; unfold x)
    | intro x
    | (lift_lets; intro x; try (refine (fun (hx : Keeps s0 x) => ?_) ?_; clear_value x; rotate_left; unfold x))
    | with_reducible apply Keeps.ite
    | with_reducible apply State.putEntry_keeps
    | with_reducible apply State.putPub_keeps
    | with_reducible apply State.setLane_keeps
    | with_reducible apply State.dropTrigger_keeps
    | with_reducible apply State.retireEntries_keeps
    | with_reducible apply State.onEntry_keeps
    | with_reducible refine Keeps.foldl ?_ ?_
    | with_reducible refine Keeps.mk_ ?_ rfl rfl rfl rfl rfl rfl
    | split

theorem State.enterSlot_keeps (h : Keeps s0 s) : ∀ x1 x2 x3, Keeps s0 (State.enterSlot s x1 x2 x3) := by
  unfold State.enterSlot
  repeat' first
    | with_reducible assumption
    | (intro x; refine (fun (hx : Keeps s0 x) => ?_) ?_; clear_value x; rotate_left; unfold x)
    | intro x
    | (lift_lets; intro x; try (refine (fun (hx : Keeps s0 x) => ?_) ?_; clear_value x; rotate_left; unfold x))
    | with_reducible apply Keeps.ite
    | with_reducible apply State.serviceWrite_keeps
    | with_reducible apply State.setLane_keeps
    | with_reducible apply State.put_keeps
    | with_reducible apply State.bump_keeps
    | with_reducible apply State.publishEntry_keeps
    | with_reducible refine Keeps.mk_ ?_ rfl rfl rfl rfl rfl rfl
    | split

theorem State.flushHeld_keeps (h : Keeps s0 s) : ∀ x1, Keeps s0 (State.flushHeld s x1) := by
  unfold State.flushHeld
  repeat' first
    | with_reducible assumption
    | (intro x; refine (fun (hx : Keeps s0 x) => ?_) ?_; clear_value x; rotate_left; unfold x)
    | intro x
    | (lift_lets; intro x; try (refine (fun (hx : Keeps s0 x) => ?_) ?_; clear_value x; rotate_left; unfold x))
    | with_reducible apply Keeps.ite
    | split
    | with_reducible apply State.enterSlot_keeps
    | with_reducible apply State.setLane_keeps
    | with_reducible refine Keeps.mk_ ?_ rfl rfl rfl rfl rfl rfl
    | split

theorem State.flushAll_keeps (h : Keeps s0 s) : Keeps s0 (State.flushAll s) := by
  unfold State.flushAll
  repeat' first
    | with_reducible assumption
    | intro x
    | with_reducible apply State.flushHeld_keeps
    | with_reducible refine Keeps.foldl ?_ ?_
    | with_reducible refine Keeps.mk_ ?_ rfl rfl rfl rfl rfl rfl

theorem State.dropHeldFrame_keeps (h : Keeps s0 s) : ∀ x1, Keeps s0 (State.dropHeldFrame s x1) := by
  unfold State.dropHeldFrame
  repeat' first
    | with_reducible assumption
    | (intro x; refine (fun (hx : Keeps s0 x) => ?_) ?_; clear_value x; rotate_left; unfold x)
    | intro x
    | (lift_lets; intro x; try (refine (fun (hx : Keeps s0 x) => ?_) ?_; clear_value x; rotate_left; unfold x))
    | split
    | with_reducible apply State.laneLose_keeps
    | with_reducible apply State.setLane_keeps
    | with_reducible refine Keeps.mk_ ?_ rfl rfl rfl rfl rfl rfl
    | split

theorem State.laneIn_keeps (h : Keeps s0 s) : ∀ x1 x2, Keeps s0 (State.laneIn s x1 x2) := by
  unfold State.laneIn
  repeat' first
    | with_reducible assumption
    | (intro x; refine (fun (hx : Keeps s0 x) => ?_) ?_; clear_value x; rotate_left; unfold x)
    | intro x
    | (lift_lets; intro x; try (refine (fun (hx : Keeps s0 x) => ?_) ?_; clear_value x; rotate_left; unfold x))
    | with_reducible apply Keeps.ite
    | split
    | with_reducible apply State.dropHeldFrame_keeps
    | with_reducible apply State.flushHeld_keeps
    | with_reducible apply State.laneLose_keeps
    | with_reducible apply State.setLane_keeps
    | with_reducible apply State.laneShedOne_keeps
    | with_reducible apply State.enterSlot_keeps
    | with_reducible refine Keeps.mk_ ?_ rfl rfl rfl rfl rfl rfl
    | split

theorem State.compareFrame_keeps (h : Keeps s0 s) : ∀ x1 x2, Keeps s0 (State.compareFrame s x1 x2) := by
  unfold State.compareFrame
  repeat' first
    | with_reducible assumption
    | (intro x; refine (fun (hx : Keeps s0 x) => ?_) ?_; clear_value x; rotate_left; unfold x)
    | intro x
    | (lift_lets; intro x; try (refine (fun (hx : Keeps s0 x) => ?_) ?_; clear_value x; rotate_left; unfold x))
    | with_reducible apply Keeps.ite
    | split
    | with_reducible apply State.bump_keeps
    | with_reducible apply State.putEntry_keeps
    | with_reducible apply State.onEntry_keeps
    | with_reducible refine Keeps.getD ?_ ?_
    | with_reducible refine Keeps.mk_ ?_ rfl rfl rfl rfl rfl rfl
    | split

theorem State.formMap_keeps (h : Keeps s0 s) : ∀ x1 x2, Keeps s0 (State.formMap s x1 x2) := by
  unfold State.formMap
  repeat' first
    | with_reducible assumption
    | (intro x; refine (fun (hx : Keeps s0 x) => ?_) ?_; clear_value x; rotate_left; unfold x)
    | intro x
    | (lift_lets; intro x; try (refine (fun (hx : Keeps s0 x) => ?_) ?_; clear_value x; rotate_left; unfold x))
    | with_reducible apply Keeps.ite
    | with_reducible apply State.put_keeps
    | with_reducible apply State.bump_keeps
    | with_reducible apply State.serviceWrite_keeps
    | with_reducible apply State.publishEntry_keeps
    | with_reducible refine Keeps.foldl ?_ ?_
    | with_reducible refine Keeps.getD ?_ ?_
    | with_reducible refine Keeps.mk_ ?_ rfl rfl rfl rfl rfl rfl
    | split

theorem State.dropFrame_keeps (h : Keeps s0 s) : ∀ x1 x2, Keeps s0 (State.dropFrame s x1 x2) := by
  unfold State.dropFrame
  repeat' first
    | with_reducible assumption
    | (intro x; refine (fun (hx : Keeps s0 x) => ?_) ?_; clear_value x; rotate_left; unfold x)
    | intro x
    | (lift_lets; intro x; try (refine (fun (hx : Keeps s0 x) => ?_) ?_; clear_value x; rotate_left; unfold x))
    | with_reducible apply State.setLane_keeps
    | with_reducible apply State.flushHeld_keeps
    | with_reducible apply State.entryLost_keeps
    | with_reducible refine Keeps.mk_ ?_ rfl rfl rfl rfl rfl rfl

end Sys2Proof.Machine
end

