-- ==== Sys2Proof/Laws/KeepsSculls.lean ====
section
/-!
SUPPORT. What every operation of Machine/Sculls.lean keeps (see Laws/Keeps.lean).
-/
namespace Sys2Proof.Machine

set_option Elab.async false
set_option linter.unreachableTactic false
set_option linter.unusedTactic false

variable {s0 s t : State}

theorem State.openOp_keeps (h : Keeps s0 s) : ∀ x1 x2 x3, Keeps s0 (State.openOp s x1 x2 x3) := by
  unfold State.openOp
  repeat' first
    | with_reducible assumption
    | (intro x; refine (fun (hx : Keeps s0 x) => ?_) ?_; clear_value x; rotate_left; unfold x)
    | intro x
    | (lift_lets; intro x; try (refine (fun (hx : Keeps s0 x) => ?_) ?_; clear_value x; rotate_left; unfold x))
    | with_reducible apply State.issuedOp_keeps
    | with_reducible apply State.countSteps_keeps
    | with_reducible apply State.setScull_keeps
    | with_reducible refine Keeps.mk_ ?_ rfl rfl rfl rfl rfl rfl

theorem execArrayStep_keeps (h : Keeps s0 s) : ∀ x0 x1, KeepsE s0 (execArrayStep x0 x1 s) := by
  unfold execArrayStep
  repeat' first
    | with_reducible assumption
    | (intro x; refine (fun (hx : Keeps s0 x) => ?_) ?_; clear_value x; rotate_left; unfold x)
    | intro x
    | (lift_lets; intro x; try (refine (fun (hx : Keeps s0 x) => ?_) ?_; clear_value x; rotate_left; unfold x))
    | with_reducible refine KeepsE.next ?_
    | split
    | with_reducible apply State.start_keeps
    | with_reducible apply State.withBp_keeps
    | with_reducible apply State.openOp_keeps
    | with_reducible apply State.attemptEnd_keeps
    | with_reducible refine Keeps.mk_ ?_ rfl rfl rfl rfl rfl rfl
    | split

theorem State.loadPlane_keeps (h : Keeps s0 s) : ∀ x1 x2 x3, Keeps s0 (State.loadPlane s x1 x2 x3) := by
  unfold State.loadPlane
  repeat' first
    | with_reducible assumption
    | (intro x; refine (fun (hx : Keeps s0 x) => ?_) ?_; clear_value x; rotate_left; unfold x)
    | intro x
    | (lift_lets; intro x; try (refine (fun (hx : Keeps s0 x) => ?_) ?_; clear_value x; rotate_left; unfold x))
    | with_reducible apply State.watchTile_keeps
    | with_reducible apply State.issuedOp_keeps
    | with_reducible apply State.setScull_keeps
    | with_reducible refine Keeps.foldl ?_ ?_
    | with_reducible refine Keeps.mk_ ?_ rfl rfl rfl rfl rfl rfl

theorem execWeightPlaneLoad_keeps (h : Keeps s0 s) : ∀ x0 x1 x2 x3 x4 x5, KeepsE s0 (execWeightPlaneLoad x0 x1 x2 x3 x4 x5 s) := by
  unfold execWeightPlaneLoad
  repeat' first
    | with_reducible assumption
    | (intro x; refine (fun (hx : Keeps s0 x) => ?_) ?_; clear_value x; rotate_left; unfold x)
    | intro x
    | (lift_lets; intro x; try (refine (fun (hx : Keeps s0 x) => ?_) ?_; clear_value x; rotate_left; unfold x))
    | with_reducible apply Keeps.ite
    | with_reducible apply KeepsE.ite
    | with_reducible refine KeepsE.next ?_
    | with_reducible apply State.start_keeps
    | with_reducible apply State.withBp_keeps
    | with_reducible apply State.loadPlane_keeps
    | with_reducible apply State.tileEcc_keeps
    | with_reducible refine Keeps.mk_ ?_ rfl rfl rfl rfl rfl rfl
    | split

theorem execPlaneSwap_keeps (h : Keeps s0 s) : ∀ x0, KeepsE s0 (execPlaneSwap x0 s) := by
  unfold execPlaneSwap
  repeat' first
    | with_reducible assumption
    | (intro x; refine (fun (hx : Keeps s0 x) => ?_) ?_; clear_value x; rotate_left; unfold x)
    | intro x
    | (lift_lets; intro x; try (refine (fun (hx : Keeps s0 x) => ?_) ?_; clear_value x; rotate_left; unfold x))
    | with_reducible apply Keeps.ite
    | with_reducible apply KeepsE.ite
    | with_reducible refine KeepsE.next ?_
    | with_reducible apply State.start_keeps
    | with_reducible apply State.withBp_keeps
    | with_reducible apply State.issuedOp_keeps
    | with_reducible apply State.setScull_keeps
    | with_reducible refine Keeps.mk_ ?_ rfl rfl rfl rfl rfl rfl
    | split

theorem State.drainAcc_keeps (h : Keeps s0 s) : ∀ x1 x2 x3, Keeps s0 (State.drainAcc s x1 x2 x3) := by
  unfold State.drainAcc
  repeat' first
    | with_reducible assumption
    | (intro x; refine (fun (hx : Keeps s0 x) => ?_) ?_; clear_value x; rotate_left; unfold x)
    | intro x
    | (lift_lets; intro x; try (refine (fun (hx : Keeps s0 x) => ?_) ?_; clear_value x; rotate_left; unfold x))
    | with_reducible apply State.issuedOp_keeps
    | with_reducible apply State.countSteps_keeps
    | with_reducible apply State.setScull_keeps
    | with_reducible refine Keeps.mk_ ?_ rfl rfl rfl rfl rfl rfl

theorem execAccumulatorDrain_keeps (h : Keeps s0 s) : ∀ x0 x1 x2, KeepsE s0 (execAccumulatorDrain x0 x1 x2 s) := by
  unfold execAccumulatorDrain
  repeat' first
    | with_reducible assumption
    | (intro x; refine (fun (hx : Keeps s0 x) => ?_) ?_; clear_value x; rotate_left; unfold x)
    | intro x
    | (lift_lets; intro x; try (refine (fun (hx : Keeps s0 x) => ?_) ?_; clear_value x; rotate_left; unfold x))
    | with_reducible apply Keeps.ite
    | with_reducible apply KeepsE.ite
    | with_reducible refine KeepsE.next ?_
    | with_reducible apply State.start_keeps
    | with_reducible apply State.withBp_keeps
    | with_reducible apply State.drainAcc_keeps
    | with_reducible refine Keeps.mk_ ?_ rfl rfl rfl rfl rfl rfl
    | split

theorem execVectorOp_keeps (h : Keeps s0 s) : ∀ x0 x1, KeepsE s0 (execVectorOp x0 x1 s) := by
  unfold execVectorOp
  repeat' first
    | with_reducible assumption
    | (intro x; refine (fun (hx : Keeps s0 x) => ?_) ?_; clear_value x; rotate_left; unfold x)
    | intro x
    | (lift_lets; intro x; try (refine (fun (hx : Keeps s0 x) => ?_) ?_; clear_value x; rotate_left; unfold x))
    | with_reducible apply Keeps.ite
    | with_reducible apply KeepsE.ite
    | with_reducible refine KeepsE.next ?_
    | split
    | with_reducible apply State.start_keeps
    | with_reducible apply State.watchTile_keeps
    | with_reducible apply State.withBp_keeps
    | with_reducible apply State.openOp_keeps
    | with_reducible refine Keeps.mk_ ?_ rfl rfl rfl rfl rfl rfl
    | split

theorem execCatchCheckerClose_keeps (h : Keeps s0 s) : ∀ x0 x1, KeepsE s0 (execCatchCheckerClose x0 x1 s) := by
  unfold execCatchCheckerClose
  repeat' first
    | with_reducible assumption
    | (intro x; refine (fun (hx : Keeps s0 x) => ?_) ?_; clear_value x; rotate_left; unfold x)
    | intro x
    | (lift_lets; intro x; try (refine (fun (hx : Keeps s0 x) => ?_) ?_; clear_value x; rotate_left; unfold x))
    | with_reducible apply Keeps.ite
    | with_reducible apply KeepsE.ite
    | with_reducible refine KeepsE.next ?_
    | split
    | with_reducible apply State.start_keeps
    | with_reducible apply State.windowStep_keeps
    | with_reducible apply State.confirm_keeps
    | with_reducible apply State.addTenths_keeps
    | with_reducible apply State.bump_keeps
    | with_reducible apply State.escalate_keeps
    | with_reducible refine Keeps.mk_ ?_ rfl rfl rfl rfl rfl rfl
    | split

theorem execCatchWindowEnd_keeps (h : Keeps s0 s) : ∀ x0, KeepsE s0 (execCatchWindowEnd x0 s) := by
  unfold execCatchWindowEnd
  repeat' first
    | with_reducible assumption
    | (intro x; refine (fun (hx : Keeps s0 x) => ?_) ?_; clear_value x; rotate_left; unfold x)
    | intro x
    | (lift_lets; intro x; try (refine (fun (hx : Keeps s0 x) => ?_) ?_; clear_value x; rotate_left; unfold x))
    | with_reducible apply Keeps.ite
    | with_reducible apply KeepsE.ite
    | with_reducible refine KeepsE.next ?_
    | with_reducible apply State.start_keeps
    | with_reducible apply State.setA_keeps
    | with_reducible apply State.setScull_keeps
    | with_reducible refine Keeps.mk_ ?_ rfl rfl rfl rfl rfl rfl
    | split

theorem State.passOver_keeps (h : Keeps s0 s) : ∀ x1 x2, Keeps s0 (State.passOver s x1 x2) := by
  unfold State.passOver
  dsimp only
  repeat' first
    | with_reducible assumption
    | (intro x; refine (fun (hx : Keeps s0 x) => ?_) ?_; clear_value x; rotate_left; unfold x)
    | intro x
    | (lift_lets; intro x; try (refine (fun (hx : Keeps s0 x) => ?_) ?_; clear_value x; rotate_left; unfold x))
    | split
    | with_reducible apply State.setTask_keeps
    | with_reducible apply State.returnCredits_keeps
    | with_reducible apply State.entryDone_keeps
    | with_reducible refine Keeps.mk_ ?_ rfl rfl rfl rfl rfl rfl
    | split

theorem execTaskRunnable_keeps (h : Keeps s0 s) : ∀ x0 x1 x2, KeepsE s0 (execTaskRunnable x0 x1 x2 s) := by
  unfold execTaskRunnable
  repeat' first
    | with_reducible assumption
    | (intro x; refine (fun (hx : Keeps s0 x) => ?_) ?_; clear_value x; rotate_left; unfold x)
    | intro x
    | (lift_lets; intro x; try (refine (fun (hx : Keeps s0 x) => ?_) ?_; clear_value x; rotate_left; unfold x))
    | with_reducible apply Keeps.ite
    | with_reducible apply KeepsE.ite
    | with_reducible refine KeepsE.next ?_
    | split
    | with_reducible apply State.start_keeps
    | with_reducible apply State.passOver_keeps
    | with_reducible apply State.setTask_keeps
    | with_reducible apply State.makeReady_keeps
    | with_reducible refine Keeps.getD ?_ ?_
    | with_reducible refine Keeps.mk_ ?_ rfl rfl rfl rfl rfl rfl
    | split

theorem State.switchIn_keeps (h : Keeps s0 s) : ∀ x1 x2, Keeps s0 (State.switchIn s x1 x2) := by
  unfold State.switchIn
  repeat' first
    | with_reducible assumption
    | (intro x; refine (fun (hx : Keeps s0 x) => ?_) ?_; clear_value x; rotate_left; unfold x)
    | intro x
    | (lift_lets; intro x; try (refine (fun (hx : Keeps s0 x) => ?_) ?_; clear_value x; rotate_left; unfold x))
    | with_reducible apply Keeps.ite
    | split
    | with_reducible apply State.keepValues_keeps
    | with_reducible apply State.setTask_keeps
    | with_reducible apply State.attemptEnd_keeps
    | with_reducible apply State.setValues_keeps
    | with_reducible apply State.setScull_keeps
    | with_reducible refine Keeps.getD ?_ ?_
    | with_reducible refine Keeps.mk_ ?_ rfl rfl rfl rfl rfl rfl
    | split

theorem execTaskDispatch_keeps (h : Keeps s0 s) : ∀ x0, KeepsE s0 (execTaskDispatch x0 s) := by
  unfold execTaskDispatch
  repeat' first
    | with_reducible assumption
    | (intro x; refine (fun (hx : Keeps s0 x) => ?_) ?_; clear_value x; rotate_left; unfold x)
    | intro x
    | (lift_lets; intro x; try (refine (fun (hx : Keeps s0 x) => ?_) ?_; clear_value x; rotate_left; unfold x))
    | with_reducible apply Keeps.ite
    | with_reducible apply KeepsE.ite
    | with_reducible refine KeepsE.next ?_
    | split
    | with_reducible apply State.start_keeps
    | with_reducible apply State.issuedOp_keeps
    | with_reducible apply State.showScull_keeps
    | with_reducible apply State.admitHeld_keeps
    | with_reducible apply State.switchIn_keeps
    | with_reducible apply State.unready_keeps
    | with_reducible refine Keeps.mk_ ?_ rfl rfl rfl rfl rfl rfl
    | split

theorem State.performCommit_keeps (h : Keeps s0 s) : ∀ x1 x2, Keeps s0 (State.performCommit s x1 x2).2 := by
  unfold State.performCommit
  repeat' first
    | with_reducible assumption
    | (intro x; refine (fun (hx : Keeps s0 x) => ?_) ?_; clear_value x; rotate_left; unfold x)
    | intro x
    | (lift_lets; intro x; try (refine (fun (hx : Keeps s0 x) => ?_) ?_; clear_value x; rotate_left; unfold x))
    | with_reducible apply Keeps.ite
    | with_reducible apply Keeps.ite2
    | with_reducible apply State.ownNat_keeps
    | with_reducible apply State.putCon_keeps
    | with_reducible refine Keeps.foldl2 ?_ ?_
    | with_reducible refine Keeps.foldl ?_ ?_
    | with_reducible refine Keeps.mk_ ?_ rfl rfl rfl rfl rfl rfl
    | split

theorem State.commit_keeps (h : Keeps s0 s) : ∀ x1 x2 x3, Keeps s0 (State.commit s x1 x2 x3) := by
  unfold State.commit
  repeat' first
    | with_reducible assumption
    | (intro x; refine (fun (hx : Keeps s0 x) => ?_) ?_; clear_value x; rotate_left; unfold x)
    | intro x
    | (lift_lets; intro x; try (refine (fun (hx : Keeps s0 x) => ?_) ?_; clear_value x; rotate_left; unfold x))
    | with_reducible apply Keeps.ite
    | split
    | with_reducible apply State.performCommit_keeps
    | with_reducible apply State.showScull_keeps
    | with_reducible apply State.setTask_keeps
    | with_reducible apply State.addEnergy_keeps
    | with_reducible apply State.dropValues_keeps
    | with_reducible apply State.bump_keeps
    | with_reducible apply State.entryDone_keeps
    | with_reducible refine Keeps.of_pair (by assumption) ?_
    | with_reducible refine Keeps.mk_ ?_ rfl rfl rfl rfl rfl rfl
    | split

theorem execTaskCommit_keeps (h : Keeps s0 s) : ∀ x0 x1, KeepsE s0 (execTaskCommit x0 x1 s) := by
  unfold execTaskCommit
  dsimp only
  repeat' first
    | with_reducible assumption
    | (intro x; refine (fun (hx : Keeps s0 x) => ?_) ?_; clear_value x; rotate_left; unfold x)
    | intro x
    | (lift_lets; intro x; try (refine (fun (hx : Keeps s0 x) => ?_) ?_; clear_value x; rotate_left; unfold x))
    | with_reducible apply Keeps.ite
    | with_reducible apply KeepsE.ite
    | with_reducible refine KeepsE.next ?_
    | split
    | with_reducible apply State.start_keeps
    | with_reducible apply State.switchOut_keeps
    | with_reducible apply State.showScull_keeps
    | with_reducible apply State.setTask_keeps
    | with_reducible apply State.attemptEnd_keeps
    | with_reducible apply State.bump_keeps
    | with_reducible apply State.withBp_keeps
    | with_reducible apply State.flushHeld_keeps
    | with_reducible apply State.commit_keeps
    | with_reducible apply State.issuedOp_keeps
    | with_reducible refine Keeps.getD ?_ ?_
    | with_reducible refine Keeps.mk_ ?_ rfl rfl rfl rfl rfl rfl
    | split

theorem execTaskWatchdogExpiry_keeps (h : Keeps s0 s) : ∀ x0, KeepsE s0 (execTaskWatchdogExpiry x0 s) := by
  unfold execTaskWatchdogExpiry
  repeat' first
    | with_reducible assumption
    | (intro x; refine (fun (hx : Keeps s0 x) => ?_) ?_; clear_value x; rotate_left; unfold x)
    | intro x
    | (lift_lets; intro x; try (refine (fun (hx : Keeps s0 x) => ?_) ?_; clear_value x; rotate_left; unfold x))
    | with_reducible apply Keeps.ite
    | with_reducible apply KeepsE.ite
    | with_reducible refine KeepsE.next ?_
    | split
    | with_reducible apply State.start_keeps
    | with_reducible apply State.attemptEnd_keeps
    | with_reducible apply State.bump_keeps
    | with_reducible refine Keeps.mk_ ?_ rfl rfl rfl rfl rfl rfl
    | split

theorem State.writeSaveArea_keeps (h : Keeps s0 s) : ∀ x1, Keeps s0 (State.writeSaveArea s x1) := by
  unfold State.writeSaveArea
  repeat' first
    | with_reducible assumption
    | (intro x; refine (fun (hx : Keeps s0 x) => ?_) ?_; clear_value x; rotate_left; unfold x)
    | intro x
    | (lift_lets; intro x; try (refine (fun (hx : Keeps s0 x) => ?_) ?_; clear_value x; rotate_left; unfold x))
    | split
    | with_reducible apply State.ownBytes_keeps
    | with_reducible refine Keeps.foldl ?_ ?_
    | with_reducible refine Keeps.mk_ ?_ rfl rfl rfl rfl rfl rfl
    | split

theorem execSaveAreaWritten_keeps (h : Keeps s0 s) : ∀ x0 x1 x2, KeepsE s0 (execSaveAreaWritten x0 x1 x2 s) := by
  unfold execSaveAreaWritten
  repeat' first
    | with_reducible assumption
    | (intro x; refine (fun (hx : Keeps s0 x) => ?_) ?_; clear_value x; rotate_left; unfold x)
    | intro x
    | (lift_lets; intro x; try (refine (fun (hx : Keeps s0 x) => ?_) ?_; clear_value x; rotate_left; unfold x))
    | with_reducible apply Keeps.ite
    | with_reducible apply KeepsE.ite
    | with_reducible refine KeepsE.next ?_
    | split
    | with_reducible apply State.start_keeps
    | with_reducible apply State.setTask_keeps
    | with_reducible apply State.writeSaveArea_keeps
    | with_reducible apply State.makeReady_keeps
    | with_reducible apply State.taskFail_keeps
    | with_reducible refine Keeps.mk_ ?_ rfl rfl rfl rfl rfl rfl
    | split

theorem State.watchBurst_keeps (h : Keeps s0 s) : ∀ x1 x2, Keeps s0 (State.watchBurst s x1 x2) := by
  unfold State.watchBurst
  repeat' first
    | with_reducible assumption
    | (intro x; refine (fun (hx : Keeps s0 x) => ?_) ?_; clear_value x; rotate_left; unfold x)
    | intro x
    | (lift_lets; intro x; try (refine (fun (hx : Keeps s0 x) => ?_) ?_; clear_value x; rotate_left; unfold x))
    | with_reducible apply Keeps.ite
    | split
    | with_reducible apply State.watch_keeps
    | with_reducible refine Keeps.foldl ?_ ?_
    | with_reducible refine Keeps.mk_ ?_ rfl rfl rfl rfl rfl rfl
    | split

theorem execFence_keeps (h : Keeps s0 s) : ∀ x0 x1, KeepsE s0 (execFence x0 x1 s) := by
  unfold execFence
  repeat' first
    | with_reducible assumption
    | (intro x; refine (fun (hx : Keeps s0 x) => ?_) ?_; clear_value x; rotate_left; unfold x)
    | intro x
    | (lift_lets; intro x; try (refine (fun (hx : Keeps s0 x) => ?_) ?_; clear_value x; rotate_left; unfold x))
    | with_reducible apply Keeps.ite
    | with_reducible apply KeepsE.ite
    | with_reducible refine KeepsE.next ?_
    | split
    | with_reducible apply State.start_keeps
    | with_reducible apply State.withBp_keeps
    | with_reducible apply State.issuedOp_keeps
    | with_reducible apply State.holdOp_keeps
    | with_reducible refine Keeps.mk_ ?_ rfl rfl rfl rfl rfl rfl
    | split

theorem execSlideBurstIssue_keeps (h : Keeps s0 s) : ∀ x0, KeepsE s0 (execSlideBurstIssue x0 s) := by
  unfold execSlideBurstIssue
  repeat' first
    | with_reducible assumption
    | intro x
    | with_reducible apply Keeps.ite
    | with_reducible apply KeepsE.ite
    | with_reducible refine KeepsE.next ?_
    | with_reducible apply State.start_keeps
    | with_reducible apply State.watchBurst_keeps
    | with_reducible apply State.issueBurst_keeps
    | with_reducible refine Keeps.mk_ ?_ rfl rfl rfl rfl rfl rfl
    | split

theorem execSlideCreditArrives_keeps (h : Keeps s0 s) : ∀ x0, KeepsE s0 (execSlideCreditArrives x0 s) := by
  unfold execSlideCreditArrives
  repeat' first
    | with_reducible assumption
    | (intro x; refine (fun (hx : Keeps s0 x) => ?_) ?_; clear_value x; rotate_left; unfold x)
    | intro x
    | (lift_lets; intro x; try (refine (fun (hx : Keeps s0 x) => ?_) ?_; clear_value x; rotate_left; unfold x))
    | with_reducible apply Keeps.ite
    | with_reducible apply KeepsE.ite
    | with_reducible refine KeepsE.next ?_
    | with_reducible apply State.start_keeps
    | with_reducible apply State.putSlide_keeps
    | with_reducible refine Keeps.mk_ ?_ rfl rfl rfl rfl rfl rfl
    | split

end Sys2Proof.Machine
end

