-- ==== Sys2Proof/Laws/KeepsRecoverOps.lean ====
section
/-!
SUPPORT. What every operation of Machine/RecoverOps.lean keeps (see Laws/Keeps.lean).
-/
namespace Sys2Proof.Machine

set_option Elab.async false
set_option linter.unreachableTactic false
set_option linter.unusedTactic false

variable {s0 s t : State}

theorem State.resumeScull_keeps (h : Keeps s0 s) : ∀ x1, Keeps s0 (State.resumeScull s x1) := by
  unfold State.resumeScull
  repeat' first
    | with_reducible assumption
    | (intro x; refine (fun (hx : Keeps s0 x) => ?_) ?_; clear_value x; rotate_left; unfold x)
    | intro x
    | (lift_lets; intro x; try (refine (fun (hx : Keeps s0 x) => ?_) ?_; clear_value x; rotate_left; unfold x))
    | with_reducible apply Keeps.ite
    | split
    | with_reducible apply State.setScull_keeps
    | with_reducible apply State.putBitAt_keeps
    | with_reducible apply State.put_keeps
    | with_reducible apply State.showScull_keeps
    | with_reducible apply State.publish_keeps
    | with_reducible refine Keeps.foldl ?_ ?_
    | with_reducible refine Keeps.mk_ ?_ rfl rfl rfl rfl rfl rfl
    | split

theorem State.resumeCox_keeps (h : Keeps s0 s) : Keeps s0 (State.resumeCox s) := by
  unfold State.resumeCox
  repeat' first
    | with_reducible assumption
    | (intro x; refine (fun (hx : Keeps s0 x) => ?_) ?_; clear_value x; rotate_left; unfold x)
    | intro x
    | (lift_lets; intro x; try (refine (fun (hx : Keeps s0 x) => ?_) ?_; clear_value x; rotate_left; unfold x))
    | with_reducible apply State.put_keeps
    | with_reducible refine Keeps.mk_ ?_ rfl rfl rfl rfl rfl rfl

theorem State.closeSession_keeps (h : Keeps s0 s) : Keeps s0 (State.closeSession s) := by
  unfold State.closeSession
  repeat' first
    | with_reducible assumption
    | (intro x; refine (fun (hx : Keeps s0 x) => ?_) ?_; rotate_left; unfold x)
    | intro x
    | (lift_lets; intro x; try (refine (fun (hx : Keeps s0 x) => ?_) ?_; rotate_left; unfold x))
    | with_reducible apply Keeps.ite
    | split
    | with_reducible apply State.resumeCox_keeps
    | with_reducible apply State.resumeScull_keeps
    | with_reducible apply State.put_keeps
    | with_reducible apply State.record_keeps
    | with_reducible refine Keeps.foldl ?_ ?_
    | with_reducible refine Keeps.mk_ ?_ rfl rfl rfl rfl rfl rfl
    | split

theorem State.flushAgent_keeps (h : Keeps s0 s) : ∀ x1, Keeps s0 (State.flushAgent s x1) := by
  unfold State.flushAgent
  repeat' first
    | with_reducible assumption
    | (intro x; refine (fun (hx : Keeps s0 x) => ?_) ?_; clear_value x; rotate_left; unfold x)
    | intro x
    | (lift_lets; intro x; try (refine (fun (hx : Keeps s0 x) => ?_) ?_; clear_value x; rotate_left; unfold x))
    | with_reducible apply Keeps.ite
    | split
    | with_reducible apply State.evicted_keeps
    | with_reducible apply State.sink_keeps
    | with_reducible refine Keeps.foldl ?_ ?_
    | with_reducible refine Keeps.mk_ ?_ rfl rfl rfl rfl rfl rfl
    | split

theorem State.endOwnSlides_keeps (h : Keeps s0 s) : ∀ x1, Keeps s0 (State.endOwnSlides s x1) := by
  unfold State.endOwnSlides
  repeat' first
    | with_reducible assumption
    | (intro x; refine (fun (hx : Keeps s0 x) => ?_) ?_; clear_value x; rotate_left; unfold x)
    | intro x
    | (lift_lets; intro x; try (refine (fun (hx : Keeps s0 x) => ?_) ?_; clear_value x; rotate_left; unfold x))
    | with_reducible apply Keeps.ite
    | with_reducible apply State.slideError_keeps
    | with_reducible refine Keeps.foldl ?_ ?_
    | with_reducible refine Keeps.mk_ ?_ rfl rfl rfl rfl rfl rfl
    | split

theorem State.endScull_keeps (h : Keeps s0 s) : ∀ x1, Keeps s0 (State.endScull s x1) := by
  unfold State.endScull
  repeat' first
    | with_reducible assumption
    | (intro x; refine (fun (hx : Keeps s0 x) => ?_) ?_; clear_value x; rotate_left; unfold x)
    | intro x
    | (lift_lets; intro x; try (refine (fun (hx : Keeps s0 x) => ?_) ?_; clear_value x; rotate_left; unfold x))
    | with_reducible apply Keeps.ite
    | split
    | with_reducible apply State.keepValues_keeps
    | with_reducible apply State.endOwnSlides_keeps
    | with_reducible apply State.attemptEnd_keeps
    | with_reducible apply State.setScull_keeps
    | with_reducible refine Keeps.foldl ?_ ?_
    | with_reducible refine Keeps.mk_ ?_ rfl rfl rfl rfl rfl rfl
    | split

theorem State.countLost_keeps (h : Keeps s0 s) : ∀ x1, Keeps s0 (State.countLost s x1) := by
  unfold State.countLost
  repeat' first
    | with_reducible assumption
    | (intro x; refine (fun (hx : Keeps s0 x) => ?_) ?_; clear_value x; rotate_left; unfold x)
    | intro x
    | (lift_lets; intro x; try (refine (fun (hx : Keeps s0 x) => ?_) ?_; clear_value x; rotate_left; unfold x))
    | with_reducible apply Keeps.ite
    | split
    | with_reducible refine Keeps.foldl ?_ ?_
    | with_reducible refine Keeps.mk_ ?_ rfl rfl rfl rfl rfl rfl
    | split

theorem State.discardPocket_keeps (h : Keeps s0 s) : ∀ x1, Keeps s0 (State.discardPocket s x1) := by
  unfold State.discardPocket
  repeat' first
    | with_reducible assumption
    | (intro x; refine (fun (hx : Keeps s0 x) => ?_) ?_; clear_value x; rotate_left; unfold x)
    | intro x
    | (lift_lets; intro x; try (refine (fun (hx : Keeps s0 x) => ?_) ?_; clear_value x; rotate_left; unfold x))
    | with_reducible apply State.countLost_keeps
    | with_reducible refine Keeps.mk_ ?_ rfl rfl rfl rfl rfl rfl

theorem State.downHome_keeps (h : Keeps s0 s) : ∀ x1, Keeps s0 (State.downHome s x1) := by
  unfold State.downHome
  repeat' first
    | with_reducible assumption
    | (intro x; refine (fun (hx : Keeps s0 x) => ?_) ?_; clear_value x; rotate_left; unfold x)
    | intro x
    | (lift_lets; intro x; try (refine (fun (hx : Keeps s0 x) => ?_) ?_; clear_value x; rotate_left; unfold x))
    | with_reducible apply Keeps.ite
    | split
    | with_reducible apply State.answerAck_keeps
    | with_reducible refine Keeps.foldl ?_ ?_
    | with_reducible refine Keeps.mk_ ?_ rfl rfl rfl rfl rfl rfl
    | split

theorem State.abandonBank_keeps (h : Keeps s0 s) : ∀ x1, Keeps s0 (State.abandonBank s x1) := by
  unfold State.abandonBank
  repeat' first
    | with_reducible assumption
    | (intro x; refine (fun (hx : Keeps s0 x) => ?_) ?_; clear_value x; rotate_left; unfold x)
    | intro x
    | (lift_lets; intro x; try (refine (fun (hx : Keeps s0 x) => ?_) ?_; clear_value x; rotate_left; unfold x))
    | with_reducible apply Keeps.ite
    | split
    | with_reducible apply State.regDone_keeps
    | with_reducible apply State.mbEndFor_keeps
    | with_reducible apply State.setDirty_keeps
    | with_reducible apply State.bhState_keeps
    | with_reducible apply State.freeBlocks_keeps
    | with_reducible apply State.setBank_keeps
    | with_reducible apply State.nextSnap_keeps
    | with_reducible apply State.abortSnap_keeps
    | with_reducible refine Keeps.foldl ?_ ?_
    | with_reducible refine Keeps.mk_ ?_ rfl rfl rfl rfl rfl rfl
    | split

theorem State.hostDown_keeps (h : Keeps s0 s) : Keeps s0 (State.hostDown s) := by
  unfold State.hostDown
  repeat' first
    | with_reducible assumption
    | intro x
    | with_reducible apply State.put_keeps
    | with_reducible refine Keeps.mk_ ?_ rfl rfl rfl rfl rfl rfl

theorem State.drainUnit_keeps (h : Keeps s0 s) : ∀ x1 x2, Keeps s0 (State.drainUnit s x1 x2) := by
  unfold State.drainUnit
  repeat' first
    | with_reducible assumption
    | (intro x; refine (fun (hx : Keeps s0 x) => ?_) ?_; clear_value x; rotate_left; unfold x)
    | intro x
    | (lift_lets; intro x; try (refine (fun (hx : Keeps s0 x) => ?_) ?_; clear_value x; rotate_left; unfold x))
    | with_reducible apply Keeps.ite
    | split
    | with_reducible apply State.endScull_keeps
    | with_reducible apply State.flushAgent_keeps
    | with_reducible apply State.recall_keeps
    | with_reducible apply State.discardPocket_keeps
    | with_reducible apply State.downHome_keeps
    | with_reducible apply State.abandonBank_keeps
    | with_reducible apply State.portDown_keeps
    | with_reducible apply State.setLane_keeps
    | with_reducible apply State.dropHeldFrame_keeps
    | with_reducible apply State.hostDown_keeps
    | with_reducible apply State.slideError_keeps
    | with_reducible apply State.closeSession_keeps
    | with_reducible refine Keeps.foldl ?_ ?_
    | with_reducible refine Keeps.mk_ ?_ rfl rfl rfl rfl rfl rfl
    | split

theorem State.bumpEpoch_keeps (h : Keeps s0 s) : ∀ x1, Keeps s0 (State.bumpEpoch s x1) := by
  unfold State.bumpEpoch
  repeat' first
    | with_reducible assumption
    | (intro x; refine (fun (hx : Keeps s0 x) => ?_) ?_; clear_value x; rotate_left; unfold x)
    | intro x
    | (lift_lets; intro x; try (refine (fun (hx : Keeps s0 x) => ?_) ?_; clear_value x; rotate_left; unfold x))
    | with_reducible apply Keeps.ite
    | with_reducible apply State.jlEpochs_keeps
    | with_reducible apply State.emit_keeps
    | with_reducible apply State.put_keeps
    | with_reducible refine Keeps.mk_ ?_ rfl rfl rfl rfl rfl rfl
    | split

theorem State.forceOrphans_keeps (h : Keeps s0 s) : ∀ x1, Keeps s0 (State.forceOrphans s x1) := by
  unfold State.forceOrphans
  repeat' first
    | with_reducible assumption
    | (intro x; refine (fun (hx : Keeps s0 x) => ?_) ?_; clear_value x; rotate_left; unfold x)
    | intro x
    | (lift_lets; intro x; try (refine (fun (hx : Keeps s0 x) => ?_) ?_; clear_value x; rotate_left; unfold x))
    | with_reducible apply State.record_keeps
    | with_reducible apply State.bump_keeps
    | with_reducible apply State.setLock_keeps
    | with_reducible refine Keeps.foldl ?_ ?_
    | with_reducible refine Keeps.mk_ ?_ rfl rfl rfl rfl rfl rfl
    | split

theorem State.domainOff_keeps (h : Keeps s0 s) : ∀ x1, Keeps s0 (State.domainOff s x1) := by
  unfold State.domainOff
  repeat' first
    | with_reducible assumption
    | (intro x; refine (fun (hx : Keeps s0 x) => ?_) ?_; clear_value x; rotate_left; unfold x)
    | intro x
    | (lift_lets; intro x; try (refine (fun (hx : Keeps s0 x) => ?_) ?_; clear_value x; rotate_left; unfold x))
    | with_reducible apply Keeps.ite
    | with_reducible apply State.fldPins_keeps
    | with_reducible apply State.putBit_keeps
    | with_reducible apply State.put_keeps
    | with_reducible apply State.showScull_keeps
    | with_reducible apply State.showLe_keeps
    | with_reducible refine Keeps.mk_ ?_ rfl rfl rfl rfl rfl rfl
    | split

theorem State.showQuiesce_keeps (h : Keeps s0 s) : Keeps s0 (State.showQuiesce s) := by
  unfold State.showQuiesce
  repeat' first
    | with_reducible assumption
    | intro x
    | with_reducible apply State.put_keeps
    | with_reducible refine Keeps.mk_ ?_ rfl rfl rfl rfl rfl rfl

theorem State.endQuiesce_keeps (h : Keeps s0 s) : ∀ x1, Keeps s0 (State.endQuiesce s x1) := by
  unfold State.endQuiesce
  repeat' first
    | with_reducible assumption
    | (intro x; refine (fun (hx : Keeps s0 x) => ?_) ?_; clear_value x; rotate_left; unfold x)
    | intro x
    | (lift_lets; intro x; try (refine (fun (hx : Keeps s0 x) => ?_) ?_; clear_value x; rotate_left; unfold x))
    | split
    | with_reducible apply State.put_keeps
    | with_reducible apply State.showQuiesce_keeps
    | with_reducible refine Keeps.mk_ ?_ rfl rfl rfl rfl rfl rfl
    | split

theorem State.pin_keeps (h : Keeps s0 s) : ∀ x1 x2, Keeps s0 (State.pin s x1 x2) := by
  unfold State.pin
  repeat' first
    | with_reducible assumption
    | intro x
    | with_reducible apply State.putBit_keeps
    | with_reducible refine Keeps.mk_ ?_ rfl rfl rfl rfl rfl rfl

theorem State.cycle_keeps (h : Keeps s0 s) : ∀ x1 x2, Keeps s0 (State.cycle s x1 x2) := by
  unfold State.cycle
  repeat' first
    | with_reducible assumption
    | (intro x; refine (fun (hx : Keeps s0 x) => ?_) ?_; clear_value x; rotate_left; unfold x)
    | intro x
    | (lift_lets; intro x; try (refine (fun (hx : Keeps s0 x) => ?_) ?_; clear_value x; rotate_left; unfold x))
    | with_reducible apply Keeps.ite
    | with_reducible apply State.domainOff_keeps
    | with_reducible apply State.wakeOne_keeps
    | with_reducible apply State.put_keeps
    | with_reducible apply State.endQuiesce_keeps
    | with_reducible apply State.returnRecord_keeps
    | with_reducible refine Keeps.mk_ ?_ rfl rfl rfl rfl rfl rfl
    | split

theorem State.moveTask_keeps (h : Keeps s0 s) : ∀ x1 x2, Keeps s0 (State.moveTask s x1 x2) := by
  unfold State.moveTask
  repeat' first
    | with_reducible assumption
    | (intro x; refine (fun (hx : Keeps s0 x) => ?_) ?_; clear_value x; rotate_left; unfold x)
    | intro x
    | (lift_lets; intro x; try (refine (fun (hx : Keeps s0 x) => ?_) ?_; clear_value x; rotate_left; unfold x))
    | with_reducible apply Keeps.ite
    | split
    | with_reducible apply State.stopAttempt_keeps
    | with_reducible apply State.putRecord_keeps
    | with_reducible apply State.setTask_keeps
    | with_reducible apply State.makeReady_keeps
    | with_reducible refine Keeps.mk_ ?_ rfl rfl rfl rfl rfl rfl
    | split

theorem State.replaceUnits_keeps (h : Keeps s0 s) : ∀ x1 x2, Keeps s0 (State.replaceUnits s x1 x2) := by
  unfold State.replaceUnits
  repeat' first
    | with_reducible assumption
    | (intro x; refine (fun (hx : Keeps s0 x) => ?_) ?_; clear_value x; rotate_left; unfold x)
    | intro x
    | (lift_lets; intro x; try (refine (fun (hx : Keeps s0 x) => ?_) ?_; clear_value x; rotate_left; unfold x))
    | with_reducible apply Keeps.ite
    | split
    | with_reducible apply State.dropModel_keeps
    | with_reducible apply State.setModel_keeps
    | with_reducible apply State.wake_keeps
    | with_reducible apply State.moveTask_keeps
    | with_reducible refine Keeps.foldl ?_ ?_
    | with_reducible refine Keeps.mk_ ?_ rfl rfl rfl rfl rfl rfl
    | split

theorem State.dropModels_keeps (h : Keeps s0 s) : ∀ x1, Keeps s0 (State.dropModels s x1) := by
  unfold State.dropModels
  repeat' first
    | with_reducible assumption
    | (intro x; refine (fun (hx : Keeps s0 x) => ?_) ?_; clear_value x; rotate_left; unfold x)
    | intro x
    | (lift_lets; intro x; try (refine (fun (hx : Keeps s0 x) => ?_) ?_; clear_value x; rotate_left; unfold x))
    | with_reducible apply Keeps.ite
    | split
    | with_reducible apply State.dropModel_keeps
    | with_reducible refine Keeps.foldl ?_ ?_
    | with_reducible refine Keeps.mk_ ?_ rfl rfl rfl rfl rfl rfl
    | split

theorem State.retireEffects_keeps (h : Keeps s0 s) : ∀ x1, Keeps s0 (State.retireEffects s x1) := by
  unfold State.retireEffects
  repeat' first
    | with_reducible assumption
    | (intro x; refine (fun (hx : Keeps s0 x) => ?_) ?_; clear_value x; rotate_left; unfold x)
    | intro x
    | (lift_lets; intro x; try (refine (fun (hx : Keeps s0 x) => ?_) ?_; clear_value x; rotate_left; unfold x))
    | with_reducible apply Keeps.ite
    | split
    | with_reducible apply State.relineTiles_keeps
    | with_reducible apply State.replaceUnits_keeps
    | with_reducible apply State.dropModels_keeps
    | with_reducible apply State.abandonBank_keeps
    | with_reducible apply State.setPop_keeps
    | with_reducible apply State.putLaneState_keeps
    | with_reducible apply State.portDown_keeps
    | with_reducible refine Keeps.foldl ?_ ?_
    | with_reducible refine Keeps.mk_ ?_ rfl rfl rfl rfl rfl rfl
    | split

theorem State.retire_keeps (h : Keeps s0 s) : ∀ x1, Keeps s0 (State.retire s x1) := by
  unfold State.retire
  repeat' first
    | with_reducible assumption
    | (intro x; refine (fun (hx : Keeps s0 x) => ?_) ?_; clear_value x; rotate_left; unfold x)
    | intro x
    | (lift_lets; intro x; try (refine (fun (hx : Keeps s0 x) => ?_) ?_; clear_value x; rotate_left; unfold x))
    | with_reducible apply Keeps.ite
    | with_reducible apply State.pin_keeps
    | with_reducible apply State.domainOff_keeps
    | with_reducible apply State.putBit_keeps
    | with_reducible apply State.put_keeps
    | with_reducible apply State.retireEffects_keeps
    | with_reducible apply State.record_keeps
    | with_reducible refine Keeps.mk_ ?_ rfl rfl rfl rfl rfl rfl
    | split

theorem State.silentGo_keeps (h : Keeps s0 s) : ∀ x1, Keeps s0 (State.silentGo s x1) := by
  unfold State.silentGo
  repeat' first
    | with_reducible assumption
    | (intro x; refine (fun (hx : Keeps s0 x) => ?_) ?_; clear_value x; rotate_left; unfold x)
    | intro x
    | (lift_lets; intro x; try (refine (fun (hx : Keeps s0 x) => ?_) ?_; clear_value x; rotate_left; unfold x))
    | with_reducible apply Keeps.ite
    | with_reducible apply State.put_keeps
    | with_reducible apply State.bumpEpoch_keeps
    | with_reducible apply State.drainUnit_keeps
    | with_reducible apply State.losePocket_keeps
    | with_reducible apply State.forceOrphans_keeps
    | with_reducible apply State.retire_keeps
    | with_reducible apply State.endQuiesce_keeps
    | with_reducible apply State.cycle_keeps
    | with_reducible refine Keeps.mk_ ?_ rfl rfl rfl rfl rfl rfl
    | split

theorem State.coxUpdate_keeps (h : Keeps s0 s) : Keeps s0 (State.coxUpdate s) := by
  unfold State.coxUpdate
  repeat' first
    | with_reducible assumption
    | (intro x; refine (fun (hx : Keeps s0 x) => ?_) ?_; clear_value x; rotate_left; unfold x)
    | intro x
    | (lift_lets; intro x; try (refine (fun (hx : Keeps s0 x) => ?_) ?_; clear_value x; rotate_left; unfold x))
    | with_reducible apply Keeps.ite
    | with_reducible apply State.bumpEpoch_keeps
    | with_reducible apply State.endQuiesce_keeps
    | with_reducible apply State.returnRecord_keeps
    | with_reducible refine Keeps.mk_ ?_ rfl rfl rfl rfl rfl rfl
    | split

theorem State.nextQuiesce_keeps (h : Keeps s0 s) : ∀ x0, Keeps s0 (State.nextQuiesce x0 s) := by
  intro x0
  induction x0 generalizing s with
  | zero =>
    intros
    rw [State.nextQuiesce]
    exact h
  | succ n ih =>
    skip
    rw [State.nextQuiesce]
    repeat' first
      | with_reducible assumption
      | (intro x; refine (fun (hx : Keeps s0 x) => ?_) ?_; clear_value x; rotate_left; unfold x)
      | intro x
      | (lift_lets; intro x; try (refine (fun (hx : Keeps s0 x) => ?_) ?_; clear_value x; rotate_left; unfold x))
      | with_reducible apply Keeps.ite
      | split
      | with_reducible apply State.coxUpdate_keeps
      | with_reducible apply State.showQuiesce_keeps
      | with_reducible apply State.silentGo_keeps
      | with_reducible apply State.update_keeps
      | with_reducible apply ih
      | with_reducible refine Keeps.mk_ ?_ rfl rfl rfl rfl rfl rfl
      | split

theorem State.askQuiesce_keeps (h : Keeps s0 s) : ∀ x1 x2, KeepsO s0 (State.askQuiesce s x1 x2) := by
  unfold State.askQuiesce
  repeat' first
    | with_reducible assumption
    | (intro x; refine (fun (hx : Keeps s0 x) => ?_) ?_; clear_value x; rotate_left; unfold x)
    | intro x
    | (lift_lets; intro x; try (refine (fun (hx : Keeps s0 x) => ?_) ?_; clear_value x; rotate_left; unfold x))
    | with_reducible apply Keeps.ite
    | with_reducible apply KeepsO.ite
    | with_reducible refine KeepsO.some ?_
    | with_reducible exact KeepsO.none
    | with_reducible apply State.nextQuiesce_keeps
    | with_reducible apply State.showQuiesce_keeps
    | with_reducible refine Keeps.mk_ ?_ rfl rfl rfl rfl rfl rfl
    | split

theorem State.silentUnit_keeps (h : Keeps s0 s) : ∀ x1, Keeps s0 (State.silentUnit s x1) := by
  unfold State.silentUnit
  repeat' first
    | with_reducible assumption
    | (intro x; refine (fun (hx : Keeps s0 x) => ?_) ?_; clear_value x; rotate_left; unfold x)
    | intro x
    | (lift_lets; intro x; try (refine (fun (hx : Keeps s0 x) => ?_) ?_; clear_value x; rotate_left; unfold x))
    | with_reducible apply Keeps.ite
    | split
    | with_reducible apply State.nextQuiesce_keeps
    | with_reducible apply State.silentGo_keeps
    | with_reducible apply State.endQuiesce_keeps
    | with_reducible apply State.showQuiesce_keeps
    | with_reducible refine Keeps.mk_ ?_ rfl rfl rfl rfl rfl rfl
    | split

theorem State.drained_keeps (h : Keeps s0 s) : Keeps s0 (State.drained s) := by
  unfold State.drained
  repeat' first
    | with_reducible assumption
    | (intro x; refine (fun (hx : Keeps s0 x) => ?_) ?_; clear_value x; rotate_left; unfold x)
    | intro x
    | (lift_lets; intro x; try (refine (fun (hx : Keeps s0 x) => ?_) ?_; clear_value x; rotate_left; unfold x))
    | with_reducible apply Keeps.ite
    | split
    | with_reducible apply State.nextQuiesce_keeps
    | with_reducible apply State.cycle_keeps
    | with_reducible apply State.bumpEpoch_keeps
    | with_reducible apply State.drainUnit_keeps
    | with_reducible apply State.countLost_keeps
    | with_reducible apply State.losePocket_keeps
    | with_reducible apply State.forceOrphans_keeps
    | with_reducible apply State.domainOff_keeps
    | with_reducible apply State.pin_keeps
    | with_reducible apply State.endQuiesce_keeps
    | with_reducible refine Keeps.mk_ ?_ rfl rfl rfl rfl rfl rfl
    | split

theorem State.domainCame_keeps (h : Keeps s0 s) : ∀ x1, Keeps s0 (State.domainCame s x1) := by
  unfold State.domainCame
  repeat' first
    | with_reducible assumption
    | (intro x; refine (fun (hx : Keeps s0 x) => ?_) ?_; clear_value x; rotate_left; unfold x)
    | intro x
    | (lift_lets; intro x; try (refine (fun (hx : Keeps s0 x) => ?_) ?_; clear_value x; rotate_left; unfold x))
    | with_reducible apply Keeps.ite
    | split
    | with_reducible apply State.domainUp_keeps
    | with_reducible apply State.endQuiesce_keeps
    | with_reducible apply State.afterWake_keeps
    | with_reducible apply State.nextQuiesce_keeps
    | with_reducible refine Keeps.mk_ ?_ rfl rfl rfl rfl rfl rfl
    | split

theorem State.loseEntries_keeps (h : Keeps s0 s) : ∀ x1, Keeps s0 (State.loseEntries s x1) := by
  unfold State.loseEntries
  repeat' first
    | with_reducible assumption
    | (intro x; refine (fun (hx : Keeps s0 x) => ?_) ?_; clear_value x; rotate_left; unfold x)
    | intro x
    | (lift_lets; intro x; try (refine (fun (hx : Keeps s0 x) => ?_) ?_; clear_value x; rotate_left; unfold x))
    | with_reducible apply State.laneLose_keeps
    | with_reducible apply State.setLane_keeps
    | with_reducible refine Keeps.mk_ ?_ rfl rfl rfl rfl rfl rfl

theorem State.restartHolds_keeps (h : Keeps s0 s) : ∀ x1, Keeps s0 (State.restartHolds s x1) := by
  unfold State.restartHolds
  repeat' first
    | with_reducible assumption
    | (intro x; refine (fun (hx : Keeps s0 x) => ?_) ?_; clear_value x; rotate_left; unfold x)
    | intro x
    | (lift_lets; intro x; try (refine (fun (hx : Keeps s0 x) => ?_) ?_; clear_value x; rotate_left; unfold x))
    | with_reducible apply State.setLrn_keeps
    | with_reducible refine Keeps.mk_ ?_ rfl rfl rfl rfl rfl rfl

theorem State.emptyInputs_keeps (h : Keeps s0 s) : ∀ x1, Keeps s0 (State.emptyInputs s x1) := by
  unfold State.emptyInputs
  repeat' first
    | with_reducible assumption
    | intro x
    | with_reducible apply State.putCon_keeps
    | with_reducible refine Keeps.foldl ?_ ?_
    | with_reducible refine Keeps.mk_ ?_ rfl rfl rfl rfl rfl rfl

theorem State.restartPart_keeps (h : Keeps s0 s) : ∀ x1, Keeps s0 (State.restartPart s x1) := by
  unfold State.restartPart
  repeat' first
    | with_reducible assumption
    | (intro x; refine (fun (hx : Keeps s0 x) => ?_) ?_; clear_value x; rotate_left; unfold x)
    | intro x
    | (lift_lets; intro x; try (refine (fun (hx : Keeps s0 x) => ?_) ?_; clear_value x; rotate_left; unfold x))
    | with_reducible apply Keeps.ite
    | split
    | with_reducible apply State.showFaults_keeps
    | with_reducible apply State.put_keeps
    | with_reducible apply State.loseEntries_keeps
    | with_reducible apply State.bindModel_keeps
    | with_reducible apply State.wake_keeps
    | with_reducible apply State.emptyInputs_keeps
    | with_reducible apply State.restartHolds_keeps
    | with_reducible apply State.setLane_keeps
    | with_reducible apply State.ringWrite_keeps
    | with_reducible refine Keeps.foldl ?_ ?_
    | with_reducible refine Keeps.mk_ ?_ rfl rfl rfl rfl rfl rfl
    | split

end Sys2Proof.Machine
end

