-- ==== Sys2Proof/Laws/KeepsMailbox.lean ====
section
/-!
SUPPORT. What every operation of Machine/Mailbox.lean keeps (see Laws/Keeps.lean).
-/
namespace Sys2Proof.Machine

set_option Elab.async false
set_option linter.unreachableTactic false
set_option linter.unusedTactic false

variable {s0 s t : State}

theorem State.mbLoad_keeps (h : Keeps s0 s) : ∀ x1 x2 x3, Keeps s0 (State.mbLoad s x1 x2 x3) := by
  unfold State.mbLoad
  repeat' first
    | with_reducible assumption
    | (intro x; refine (fun (hx : Keeps s0 x) => ?_) ?_; clear_value x; rotate_left; unfold x)
    | intro x
    | (lift_lets; intro x; try (refine (fun (hx : Keeps s0 x) => ?_) ?_; clear_value x; rotate_left; unfold x))
    | with_reducible apply Keeps.ite
    | split
    | with_reducible apply State.mbEnd_keeps
    | with_reducible refine (State.askAdmit_keeps ?_ _ ).out _ (by assumption)
    | with_reducible apply State.askAdmit_keeps
    | with_reducible refine Keeps.mk_ ?_ rfl rfl rfl rfl rfl rfl
    | split

theorem State.mbUnload_keeps (h : Keeps s0 s) : ∀ x1 x2, Keeps s0 (State.mbUnload s x1 x2) := by
  unfold State.mbUnload
  repeat' first
    | with_reducible assumption
    | (intro x; refine (fun (hx : Keeps s0 x) => ?_) ?_; clear_value x; rotate_left; unfold x)
    | intro x
    | (lift_lets; intro x; try (refine (fun (hx : Keeps s0 x) => ?_) ?_; clear_value x; rotate_left; unfold x))
    | with_reducible apply Keeps.ite
    | split
    | with_reducible apply State.mbEnd_keeps
    | with_reducible refine (State.askAdmit_keeps ?_ _ ).out _ (by assumption)
    | with_reducible apply State.askAdmit_keeps
    | with_reducible refine Keeps.mk_ ?_ rfl rfl rfl rfl rfl rfl
    | split

theorem State.mbReadout_keeps (h : Keeps s0 s) : ∀ x1 x2, Keeps s0 (State.mbReadout s x1 x2) := by
  unfold State.mbReadout
  repeat' first
    | with_reducible assumption
    | (intro x; refine (fun (hx : Keeps s0 x) => ?_) ?_; clear_value x; rotate_left; unfold x)
    | intro x
    | (lift_lets; intro x; try (refine (fun (hx : Keeps s0 x) => ?_) ?_; clear_value x; rotate_left; unfold x))
    | with_reducible apply Keeps.ite
    | split
    | with_reducible apply State.mbEnd_keeps
    | with_reducible apply State.wake_keeps
    | with_reducible refine (State.askSnap_keeps ?_ _ _ ).out _ (by assumption)
    | with_reducible apply State.askSnap_keeps
    | with_reducible refine Keeps.mk_ ?_ rfl rfl rfl rfl rfl rfl
    | split

theorem State.mbCheckpoint_keeps (h : Keeps s0 s) : ∀ x1 x2, Keeps s0 (State.mbCheckpoint s x1 x2) := by
  unfold State.mbCheckpoint
  repeat' first
    | with_reducible assumption
    | (intro x; refine (fun (hx : Keeps s0 x) => ?_) ?_; clear_value x; rotate_left; unfold x)
    | intro x
    | (lift_lets; intro x; try (refine (fun (hx : Keeps s0 x) => ?_) ?_; clear_value x; rotate_left; unfold x))
    | with_reducible apply Keeps.ite
    | split
    | with_reducible apply State.mbEnd_keeps
    | with_reducible refine (State.askSnap_keeps ?_ _ _ ).out _ (by assumption)
    | with_reducible apply State.askSnap_keeps
    | with_reducible refine Keeps.mk_ ?_ rfl rfl rfl rfl rfl rfl
    | split

theorem State.mbMod_keeps (h : Keeps s0 s) : ∀ x1 x2, Keeps s0 (State.mbMod s x1 x2) := by
  unfold State.mbMod
  repeat' first
    | with_reducible assumption
    | (intro x; refine (fun (hx : Keeps s0 x) => ?_) ?_; clear_value x; rotate_left; unfold x)
    | intro x
    | (lift_lets; intro x; try (refine (fun (hx : Keeps s0 x) => ?_) ?_; clear_value x; rotate_left; unfold x))
    | with_reducible apply Keeps.ite
    | split
    | with_reducible apply State.mbEnd_keeps
    | with_reducible apply State.teach_keeps
    | with_reducible apply State.mark_keeps
    | with_reducible apply State.cancelMod_keeps
    | with_reducible refine Keeps.mk_ ?_ rfl rfl rfl rfl rfl rfl
    | split

theorem State.silence_keeps (h : Keeps s0 s) : Keeps s0 (State.silence s) := by
  unfold State.silence
  repeat' first
    | with_reducible assumption
    | (intro x; refine (fun (hx : Keeps s0 x) => ?_) ?_; clear_value x; rotate_left; unfold x)
    | intro x
    | (lift_lets; intro x; try (refine (fun (hx : Keeps s0 x) => ?_) ?_; clear_value x; rotate_left; unfold x))
    | with_reducible refine Keeps.mk_ ?_ rfl rfl rfl rfl rfl rfl

theorem State.mbAck_keeps (h : Keeps s0 s) : ∀ x1 x2, Keeps s0 (State.mbAck s x1 x2) := by
  unfold State.mbAck
  repeat' first
    | with_reducible assumption
    | (intro x; refine (fun (hx : Keeps s0 x) => ?_) ?_; clear_value x; rotate_left; unfold x)
    | intro x
    | (lift_lets; intro x; try (refine (fun (hx : Keeps s0 x) => ?_) ?_; clear_value x; rotate_left; unfold x))
    | with_reducible apply Keeps.ite
    | with_reducible apply State.mbEnd_keeps
    | with_reducible apply State.silence_keeps
    | with_reducible apply State.ackLane_keeps
    | with_reducible refine Keeps.mk_ ?_ rfl rfl rfl rfl rfl rfl
    | split

theorem State.mbCapture_keeps (h : Keeps s0 s) : ∀ x1 x2, Keeps s0 (State.mbCapture s x1 x2) := by
  unfold State.mbCapture
  repeat' first
    | with_reducible assumption
    | (intro x; refine (fun (hx : Keeps s0 x) => ?_) ?_; clear_value x; rotate_left; unfold x)
    | intro x
    | (lift_lets; intro x; try (refine (fun (hx : Keeps s0 x) => ?_) ?_; clear_value x; rotate_left; unfold x))
    | with_reducible apply Keeps.ite
    | with_reducible apply State.mbEnd_keeps
    | with_reducible apply State.setLane_keeps
    | with_reducible apply State.wake_keeps
    | with_reducible refine Keeps.mk_ ?_ rfl rfl rfl rfl rfl rfl
    | split

theorem State.mbHeartbeat_keeps (h : Keeps s0 s) : ∀ x1 x2, Keeps s0 (State.mbHeartbeat s x1 x2) := by
  unfold State.mbHeartbeat
  repeat' first
    | with_reducible assumption
    | (intro x; refine (fun (hx : Keeps s0 x) => ?_) ?_; clear_value x; rotate_left; unfold x)
    | intro x
    | (lift_lets; intro x; try (refine (fun (hx : Keeps s0 x) => ?_) ?_; clear_value x; rotate_left; unfold x))
    | with_reducible apply Keeps.ite
    | with_reducible apply State.mbEnd_keeps
    | with_reducible apply State.put_keeps
    | with_reducible apply State.record_keeps
    | with_reducible refine Keeps.mk_ ?_ rfl rfl rfl rfl rfl rfl
    | split

theorem State.mbErase_keeps (h : Keeps s0 s) : ∀ x1 x2, Keeps s0 (State.mbErase s x1 x2) := by
  unfold State.mbErase
  repeat' first
    | with_reducible assumption
    | (intro x; refine (fun (hx : Keeps s0 x) => ?_) ?_; clear_value x; rotate_left; unfold x)
    | intro x
    | (lift_lets; intro x; try (refine (fun (hx : Keeps s0 x) => ?_) ?_; clear_value x; rotate_left; unfold x))
    | with_reducible apply Keeps.ite
    | with_reducible apply State.mbEnd_keeps
    | with_reducible refine Keeps.mk_ ?_ rfl rfl rfl rfl rfl rfl
    | split

theorem State.flashPut_keeps (h : Keeps s0 s) : ∀ x1 x2, Keeps s0 (State.flashPut s x1 x2) := by
  unfold State.flashPut
  repeat' first
    | with_reducible assumption
    | (intro x; refine (fun (hx : Keeps s0 x) => ?_) ?_; clear_value x; rotate_left; unfold x)
    | intro x
    | (lift_lets; intro x; try (refine (fun (hx : Keeps s0 x) => ?_) ?_; clear_value x; rotate_left; unfold x))
    | with_reducible refine Keeps.foldl ?_ ?_
    | with_reducible refine Keeps.mk_ ?_ rfl rfl rfl rfl rfl rfl

theorem State.mbFlashWrite_keeps (h : Keeps s0 s) : ∀ x1 x2 x3, Keeps s0 (State.mbFlashWrite s x1 x2 x3) := by
  unfold State.mbFlashWrite
  repeat' first
    | with_reducible assumption
    | (intro x; refine (fun (hx : Keeps s0 x) => ?_) ?_; clear_value x; rotate_left; unfold x)
    | intro x
    | (lift_lets; intro x; try (refine (fun (hx : Keeps s0 x) => ?_) ?_; clear_value x; rotate_left; unfold x))
    | with_reducible apply Keeps.ite
    | with_reducible apply State.mbEnd_keeps
    | with_reducible apply State.flashPut_keeps
    | with_reducible refine Keeps.mk_ ?_ rfl rfl rfl rfl rfl rfl
    | split

theorem State.mbFlashRead_keeps (h : Keeps s0 s) : ∀ x1 x2, Keeps s0 (State.mbFlashRead s x1 x2) := by
  unfold State.mbFlashRead
  repeat' first
    | with_reducible assumption
    | (intro x; refine (fun (hx : Keeps s0 x) => ?_) ?_; clear_value x; rotate_left; unfold x)
    | intro x
    | (lift_lets; intro x; try (refine (fun (hx : Keeps s0 x) => ?_) ?_; clear_value x; rotate_left; unfold x))
    | with_reducible apply Keeps.ite
    | with_reducible apply State.mbEnd_keeps
    | with_reducible apply State.writeBytes_keeps
    | with_reducible refine Keeps.mk_ ?_ rfl rfl rfl rfl rfl rfl
    | split

theorem State.mbAction_keeps (h : Keeps s0 s) : ∀ x1 x2 x3 x4, Keeps s0 (State.mbAction s x1 x2 x3 x4) := by
  unfold State.mbAction
  repeat' first
    | with_reducible assumption
    | (intro x; refine (fun (hx : Keeps s0 x) => ?_) ?_; clear_value x; rotate_left; unfold x)
    | intro x
    | (lift_lets; intro x; try (refine (fun (hx : Keeps s0 x) => ?_) ?_; clear_value x; rotate_left; unfold x))
    | with_reducible apply Keeps.ite
    | split
    | with_reducible apply State.mbEnd_keeps
    | with_reducible apply State.mbLoad_keeps
    | with_reducible apply State.mbUnload_keeps
    | with_reducible apply State.mbReadout_keeps
    | with_reducible apply State.mbCheckpoint_keeps
    | with_reducible apply State.mbMod_keeps
    | with_reducible apply State.mbAck_keeps
    | with_reducible apply State.mbCapture_keeps
    | with_reducible apply State.mbHeartbeat_keeps
    | with_reducible apply State.mbErase_keeps
    | with_reducible apply State.mbFlashWrite_keeps
    | with_reducible apply State.mbFlashRead_keeps
    | with_reducible refine Keeps.mk_ ?_ rfl rfl rfl rfl rfl rfl
    | split

theorem State.mbAdvance_keeps (h : Keeps s0 s) : ∀ x1, Keeps s0 (State.mbAdvance s x1) := by
  unfold State.mbAdvance
  repeat' first
    | with_reducible assumption
    | intro x
    | with_reducible apply State.put_keeps
    | with_reducible refine Keeps.mk_ ?_ rfl rfl rfl rfl rfl rfl

theorem State.mbBegin_keeps (h : Keeps s0 s) : ∀ x1 x2 x3 x4 x5, Keeps s0 (State.mbBegin s x1 x2 x3 x4 x5) := by
  unfold State.mbBegin
  repeat' first
    | with_reducible assumption
    | (intro x; refine (fun (hx : Keeps s0 x) => ?_) ?_; clear_value x; rotate_left; unfold x)
    | intro x
    | (lift_lets; intro x; try (refine (fun (hx : Keeps s0 x) => ?_) ?_; clear_value x; rotate_left; unfold x))
    | with_reducible apply State.put_keeps
    | with_reducible refine Keeps.mk_ ?_ rfl rfl rfl rfl rfl rfl
    | split

theorem State.mbTake_keeps (h : Keeps s0 s) : ∀ x1 x2 x3 x4 x5 x6 x7, Keeps s0 (State.mbTake s x1 x2 x3 x4 x5 x6 x7) := by
  unfold State.mbTake
  dsimp only
  repeat' first
    | with_reducible assumption
    | (intro x; refine (fun (hx : Keeps s0 x) => ?_) ?_; clear_value x; rotate_left; unfold x)
    | intro x
    | (lift_lets; intro x; try (refine (fun (hx : Keeps s0 x) => ?_) ?_; clear_value x; rotate_left; unfold x))
    | with_reducible apply Keeps.ite
    | split
    | with_reducible apply State.mbAdvance_keeps
    | with_reducible apply State.mbBegin_keeps
    | with_reducible apply State.mbAction_keeps
    | with_reducible apply State.mbEnd_keeps
    | with_reducible apply State.mbWrite_keeps
    | with_reducible apply State.bump_keeps
    | with_reducible refine Keeps.mk_ ?_ rfl rfl rfl rfl rfl rfl
    | split

theorem State.mbPump_keeps (h : Keeps s0 s) : ∀ x0 x1, Keeps s0 (State.mbPump x0 x1 s) := by
  intro x0
  induction x0 generalizing s with
  | zero =>
    intros
    rw [State.mbPump]
    exact h
  | succ n ih =>
    intro x1
    rw [State.mbPump]
    repeat' first
      | with_reducible assumption
      | (intro x; refine (fun (hx : Keeps s0 x) => ?_) ?_; clear_value x; rotate_left; unfold x)
      | intro x
      | (lift_lets; intro x; try (refine (fun (hx : Keeps s0 x) => ?_) ?_; clear_value x; rotate_left; unfold x))
      | with_reducible apply Keeps.ite
      | with_reducible apply State.mbFault_keeps
      | with_reducible apply State.mbTake_keeps
      | with_reducible apply ih
      | with_reducible refine Keeps.mk_ ?_ rfl rfl rfl rfl rfl rfl
      | split

theorem State.mbAll_keeps (h : Keeps s0 s) : Keeps s0 (State.mbAll s) := by
  unfold State.mbAll
  repeat' first
    | with_reducible assumption
    | intro x
    | with_reducible apply State.mbPump_keeps
    | with_reducible refine Keeps.foldl ?_ ?_
    | with_reducible refine Keeps.mk_ ?_ rfl rfl rfl rfl rfl rfl

theorem State.mbRing_keeps (h : Keeps s0 s) : ∀ x1, Keeps s0 (State.mbRing s x1) := by
  unfold State.mbRing
  repeat' first
    | with_reducible assumption
    | (intro x; refine (fun (hx : Keeps s0 x) => ?_) ?_; clear_value x; rotate_left; unfold x)
    | intro x
    | (lift_lets; intro x; try (refine (fun (hx : Keeps s0 x) => ?_) ?_; clear_value x; rotate_left; unfold x))
    | with_reducible apply Keeps.ite
    | with_reducible apply State.put_keeps
    | with_reducible refine Keeps.mk_ ?_ rfl rfl rfl rfl rfl rfl
    | split

theorem State.mbRow_keeps (h : Keeps s0 s) : ∀ x1 x2 x3 x4 x5 x6, Keeps s0 (State.mbRow s x1 x2 x3 x4 x5 x6) := by
  unfold State.mbRow
  repeat' first
    | with_reducible assumption
    | intro x
    | with_reducible apply Keeps.ite
    | with_reducible apply State.mbAll_keeps
    | with_reducible apply State.mbTake_keeps
    | with_reducible apply State.mbRing_keeps
    | with_reducible refine Keeps.mk_ ?_ rfl rfl rfl rfl rfl rfl
    | split

theorem execNop_keeps (h : Keeps s0 s) : ∀ x0 x1 x2, KeepsE s0 (execNop x0 x1 x2 s) := by
  unfold execNop
  repeat' first
    | with_reducible assumption
    | intro x
    | with_reducible refine KeepsE.next ?_
    | with_reducible apply State.mbRow_keeps
    | with_reducible apply State.start_keeps
    | with_reducible refine Keeps.mk_ ?_ rfl rfl rfl rfl rfl rfl

theorem execLoadModel_keeps (h : Keeps s0 s) : ∀ x0 x1 x2 x3, KeepsE s0 (execLoadModel x0 x1 x2 x3 s) := by
  unfold execLoadModel
  repeat' first
    | with_reducible assumption
    | intro x
    | with_reducible refine KeepsE.next ?_
    | with_reducible apply State.mbRow_keeps
    | with_reducible apply State.start_keeps
    | with_reducible refine Keeps.mk_ ?_ rfl rfl rfl rfl rfl rfl

theorem execReplaceModel_keeps (h : Keeps s0 s) : ∀ x0 x1 x2 x3, KeepsE s0 (execReplaceModel x0 x1 x2 x3 s) := by
  unfold execReplaceModel
  repeat' first
    | with_reducible assumption
    | intro x
    | with_reducible refine KeepsE.next ?_
    | with_reducible apply State.mbRow_keeps
    | with_reducible apply State.start_keeps
    | with_reducible refine Keeps.mk_ ?_ rfl rfl rfl rfl rfl rfl

theorem execUnloadModel_keeps (h : Keeps s0 s) : ∀ x0 x1 x2 x3, KeepsE s0 (execUnloadModel x0 x1 x2 x3 s) := by
  unfold execUnloadModel
  repeat' first
    | with_reducible assumption
    | intro x
    | with_reducible refine KeepsE.next ?_
    | with_reducible apply State.mbRow_keeps
    | with_reducible apply State.start_keeps
    | with_reducible refine Keeps.mk_ ?_ rfl rfl rfl rfl rfl rfl

theorem execReadout_keeps (h : Keeps s0 s) : ∀ x0 x1 x2 x3, KeepsE s0 (execReadout x0 x1 x2 x3 s) := by
  unfold execReadout
  repeat' first
    | with_reducible assumption
    | intro x
    | with_reducible refine KeepsE.next ?_
    | with_reducible apply State.mbRow_keeps
    | with_reducible apply State.start_keeps
    | with_reducible refine Keeps.mk_ ?_ rfl rfl rfl rfl rfl rfl

theorem execCheckpoint_keeps (h : Keeps s0 s) : ∀ x0 x1 x2 x3 x4, KeepsE s0 (execCheckpoint x0 x1 x2 x3 x4 s) := by
  unfold execCheckpoint
  repeat' first
    | with_reducible assumption
    | intro x
    | with_reducible refine KeepsE.next ?_
    | with_reducible apply State.mbRow_keeps
    | with_reducible apply State.start_keeps
    | with_reducible refine Keeps.mk_ ?_ rfl rfl rfl rfl rfl rfl

theorem execLaneModTeach_keeps (h : Keeps s0 s) : ∀ x0 x1 x2 x3, KeepsE s0 (execLaneModTeach x0 x1 x2 x3 s) := by
  unfold execLaneModTeach
  repeat' first
    | with_reducible assumption
    | intro x
    | with_reducible refine KeepsE.next ?_
    | with_reducible apply State.mbRow_keeps
    | with_reducible apply State.start_keeps
    | with_reducible refine Keeps.mk_ ?_ rfl rfl rfl rfl rfl rfl

theorem execLaneModMark_keeps (h : Keeps s0 s) : ∀ x0 x1 x2 x3, KeepsE s0 (execLaneModMark x0 x1 x2 x3 s) := by
  unfold execLaneModMark
  repeat' first
    | with_reducible assumption
    | intro x
    | with_reducible refine KeepsE.next ?_
    | with_reducible apply State.mbRow_keeps
    | with_reducible apply State.start_keeps
    | with_reducible refine Keeps.mk_ ?_ rfl rfl rfl rfl rfl rfl

theorem execLaneModCancel_keeps (h : Keeps s0 s) : ∀ x0 x1 x2 x3, KeepsE s0 (execLaneModCancel x0 x1 x2 x3 s) := by
  unfold execLaneModCancel
  repeat' first
    | with_reducible assumption
    | intro x
    | with_reducible refine KeepsE.next ?_
    | with_reducible apply State.mbRow_keeps
    | with_reducible apply State.start_keeps
    | with_reducible refine Keeps.mk_ ?_ rfl rfl rfl rfl rfl rfl

theorem execLaneAck_keeps (h : Keeps s0 s) : ∀ x0 x1 x2 x3, KeepsE s0 (execLaneAck x0 x1 x2 x3 s) := by
  unfold execLaneAck
  repeat' first
    | with_reducible assumption
    | intro x
    | with_reducible refine KeepsE.next ?_
    | with_reducible apply State.mbRow_keeps
    | with_reducible apply State.start_keeps
    | with_reducible refine Keeps.mk_ ?_ rfl rfl rfl rfl rfl rfl

theorem execCaptureFrame_keeps (h : Keeps s0 s) : ∀ x0 x1 x2 x3, KeepsE s0 (execCaptureFrame x0 x1 x2 x3 s) := by
  unfold execCaptureFrame
  repeat' first
    | with_reducible assumption
    | intro x
    | with_reducible refine KeepsE.next ?_
    | with_reducible apply State.mbRow_keeps
    | with_reducible apply State.start_keeps
    | with_reducible refine Keeps.mk_ ?_ rfl rfl rfl rfl rfl rfl

theorem execCaptureTimeout_keeps (h : Keeps s0 s) : ∀ x0, KeepsE s0 (execCaptureTimeout x0 s) := by
  unfold execCaptureTimeout
  repeat' first
    | with_reducible assumption
    | (intro x; refine (fun (hx : Keeps s0 x) => ?_) ?_; clear_value x; rotate_left; unfold x)
    | intro x
    | (lift_lets; intro x; try (refine (fun (hx : Keeps s0 x) => ?_) ?_; clear_value x; rotate_left; unfold x))
    | with_reducible refine KeepsE.next ?_
    | split
    | with_reducible apply State.start_keeps
    | with_reducible apply State.mbAll_keeps
    | with_reducible apply State.mbEnd_keeps
    | with_reducible apply State.setLane_keeps
    | with_reducible refine Keeps.mk_ ?_ rfl rfl rfl rfl rfl rfl
    | split

theorem execHeartbeat_keeps (h : Keeps s0 s) : ∀ x0 x1 x2 x3, KeepsE s0 (execHeartbeat x0 x1 x2 x3 s) := by
  unfold execHeartbeat
  repeat' first
    | with_reducible assumption
    | intro x
    | with_reducible refine KeepsE.next ?_
    | with_reducible apply State.mbRow_keeps
    | with_reducible apply State.start_keeps
    | with_reducible refine Keeps.mk_ ?_ rfl rfl rfl rfl rfl rfl

theorem execFlashErase_keeps (h : Keeps s0 s) : ∀ x0 x1 x2 x3, KeepsE s0 (execFlashErase x0 x1 x2 x3 s) := by
  unfold execFlashErase
  repeat' first
    | with_reducible assumption
    | intro x
    | with_reducible refine KeepsE.next ?_
    | with_reducible apply State.mbRow_keeps
    | with_reducible apply State.start_keeps
    | with_reducible refine Keeps.mk_ ?_ rfl rfl rfl rfl rfl rfl

theorem execFlashWrite_keeps (h : Keeps s0 s) : ∀ x0 x1 x2 x3 x4, KeepsE s0 (execFlashWrite x0 x1 x2 x3 x4 s) := by
  unfold execFlashWrite
  repeat' first
    | with_reducible assumption
    | intro x
    | with_reducible refine KeepsE.next ?_
    | with_reducible apply State.mbRow_keeps
    | with_reducible apply State.start_keeps
    | with_reducible refine Keeps.mk_ ?_ rfl rfl rfl rfl rfl rfl

theorem execFlashRead_keeps (h : Keeps s0 s) : ∀ x0 x1 x2 x3, KeepsE s0 (execFlashRead x0 x1 x2 x3 s) := by
  unfold execFlashRead
  repeat' first
    | with_reducible assumption
    | intro x
    | with_reducible refine KeepsE.next ?_
    | with_reducible apply State.mbRow_keeps
    | with_reducible apply State.start_keeps
    | with_reducible refine Keeps.mk_ ?_ rfl rfl rfl rfl rfl rfl

theorem execInterruptIntervalExpiry_keeps (h : Keeps s0 s) : ∀ x0 x1, KeepsE s0 (execInterruptIntervalExpiry x0 x1 s) := by
  unfold execInterruptIntervalExpiry
  repeat' first
    | with_reducible assumption
    | (intro x; refine (fun (hx : Keeps s0 x) => ?_) ?_; clear_value x; rotate_left; unfold x)
    | intro x
    | (lift_lets; intro x; try (refine (fun (hx : Keeps s0 x) => ?_) ?_; clear_value x; rotate_left; unfold x))
    | with_reducible apply Keeps.ite
    | with_reducible apply KeepsE.ite
    | with_reducible refine KeepsE.next ?_
    | with_reducible apply State.start_keeps
    | with_reducible apply State.msix_keeps
    | with_reducible refine Keeps.mk_ ?_ rfl rfl rfl rfl rfl rfl
    | split

end Sys2Proof.Machine
end

