-- ==== Sys2Proof/Laws/KeepsBoathouse.lean ====
section
/-!
SUPPORT. What every operation of Machine/Boathouse.lean keeps (see Laws/Keeps.lean).
-/
namespace Sys2Proof.Machine

set_option Elab.async false
set_option linter.unreachableTactic false
set_option linter.unusedTactic false

variable {s0 s t : State}

theorem execEventRingTimeout_keeps (h : Keeps s0 s) : ∀ x0, KeepsE s0 (execEventRingTimeout x0 s) := by
  unfold execEventRingTimeout
  repeat' first
    | with_reducible assumption
    | (intro x; refine (fun (hx : Keeps s0 x) => ?_) ?_; clear_value x; rotate_left; unfold x)
    | intro x
    | (lift_lets; intro x; try (refine (fun (hx : Keeps s0 x) => ?_) ?_; clear_value x; rotate_left; unfold x))
    | with_reducible apply Keeps.ite
    | with_reducible apply KeepsE.ite
    | with_reducible refine KeepsE.next ?_
    | with_reducible apply State.start_keeps
    | with_reducible apply State.mbAll_keeps
    | with_reducible apply State.silentUnit_keeps
    | with_reducible apply State.record_keeps
    | with_reducible refine Keeps.mk_ ?_ rfl rfl rfl rfl rfl rfl
    | split

theorem State.putOff_keeps (h : Keeps s0 s) : ∀ x1 x2 x3, Keeps s0 (State.putOff s x1 x2 x3) := by
  unfold State.putOff
  repeat' first
    | with_reducible assumption
    | (intro x; refine (fun (hx : Keeps s0 x) => ?_) ?_; clear_value x; rotate_left; unfold x)
    | intro x
    | (lift_lets; intro x; try (refine (fun (hx : Keeps s0 x) => ?_) ?_; clear_value x; rotate_left; unfold x))
    | with_reducible apply Keeps.ite
    | with_reducible apply State.setBank_keeps
    | with_reducible apply State.bump_keeps
    | with_reducible refine Keeps.mk_ ?_ rfl rfl rfl rfl rfl rfl
    | split

theorem State.startCheckpoint_keeps (h : Keeps s0 s) : ∀ x1 x2, Keeps s0 (State.startCheckpoint s x1 x2) := by
  unfold State.startCheckpoint
  repeat' first
    | with_reducible assumption
    | (intro x; refine (fun (hx : Keeps s0 x) => ?_) ?_; clear_value x; rotate_left; unfold x)
    | intro x
    | (lift_lets; intro x; try (refine (fun (hx : Keeps s0 x) => ?_) ?_; clear_value x; rotate_left; unfold x))
    | split
    | with_reducible apply State.putOff_keeps
    | with_reducible refine (State.askSnap_keeps ?_ _ _ ).out _ (by assumption)
    | with_reducible apply State.askSnap_keeps
    | with_reducible refine Keeps.mk_ ?_ rfl rfl rfl rfl rfl rfl
    | split

theorem execCheckpointDue_keeps (h : Keeps s0 s) : ∀ x0, KeepsE s0 (execCheckpointDue x0 s) := by
  unfold execCheckpointDue
  repeat' first
    | with_reducible assumption
    | (intro x; refine (fun (hx : Keeps s0 x) => ?_) ?_; clear_value x; rotate_left; unfold x)
    | intro x
    | (lift_lets; intro x; try (refine (fun (hx : Keeps s0 x) => ?_) ?_; clear_value x; rotate_left; unfold x))
    | with_reducible apply Keeps.ite
    | with_reducible apply KeepsE.ite
    | with_reducible refine KeepsE.next ?_
    | split
    | with_reducible apply State.start_keeps
    | with_reducible apply State.putOff_keeps
    | with_reducible apply State.mbAll_keeps
    | with_reducible apply State.startCheckpoint_keeps
    | with_reducible refine Keeps.mk_ ?_ rfl rfl rfl rfl rfl rfl
    | split

theorem execDeferredCheckpointStart_keeps (h : Keeps s0 s) : ∀ x0, KeepsE s0 (execDeferredCheckpointStart x0 s) := by
  unfold execDeferredCheckpointStart
  repeat' first
    | with_reducible assumption
    | (intro x; refine (fun (hx : Keeps s0 x) => ?_) ?_; clear_value x; rotate_left; unfold x)
    | intro x
    | (lift_lets; intro x; try (refine (fun (hx : Keeps s0 x) => ?_) ?_; clear_value x; rotate_left; unfold x))
    | with_reducible apply Keeps.ite
    | with_reducible apply KeepsE.ite
    | with_reducible refine KeepsE.next ?_
    | split
    | with_reducible apply State.start_keeps
    | with_reducible apply State.setBank_keeps
    | with_reducible apply State.mbAll_keeps
    | with_reducible apply State.startCheckpoint_keeps
    | with_reducible apply State.regDone_keeps
    | with_reducible refine Keeps.mk_ ?_ rfl rfl rfl rfl rfl rfl
    | split

theorem State.bhAnswer_keeps (h : Keeps s0 s) : ∀ x1 x2 x3 x4, Keeps s0 (State.bhAnswer s x1 x2 x3 x4) := by
  unfold State.bhAnswer
  repeat' first
    | with_reducible assumption
    | intro x
    | with_reducible apply State.put_keeps
    | with_reducible refine Keeps.mk_ ?_ rfl rfl rfl rfl rfl rfl

theorem State.forgetReg_keeps (h : Keeps s0 s) : Keeps s0 (State.forgetReg s) := by
  unfold State.forgetReg
  repeat' first
    | with_reducible assumption
    | (intro x; refine (fun (hx : Keeps s0 x) => ?_) ?_; clear_value x; rotate_left; unfold x)
    | intro x
    | (lift_lets; intro x; try (refine (fun (hx : Keeps s0 x) => ?_) ?_; clear_value x; rotate_left; unfold x))
    | with_reducible apply State.setBank_keeps
    | with_reducible refine Keeps.foldl ?_ ?_
    | with_reducible refine Keeps.mk_ ?_ rfl rfl rfl rfl rfl rfl

theorem State.bhCommand_keeps (h : Keeps s0 s) : ∀ x1, Keeps s0 (State.bhCommand s x1) := by
  unfold State.bhCommand
  repeat' first
    | with_reducible assumption
    | (intro x; refine (fun (hx : Keeps s0 x) => ?_) ?_; clear_value x; rotate_left; unfold x)
    | intro x
    | (lift_lets; intro x; try (refine (fun (hx : Keeps s0 x) => ?_) ?_; clear_value x; rotate_left; unfold x))
    | with_reducible apply Keeps.ite
    | split
    | with_reducible apply State.forgetReg_keeps
    | with_reducible apply State.bhAnswer_keeps
    | with_reducible apply State.mbAll_keeps
    | with_reducible refine (State.askSnap_keeps ?_ _ _ ).out _ (by assumption)
    | with_reducible apply State.askSnap_keeps
    | with_reducible refine Keeps.mk_ ?_ rfl rfl rfl rfl rfl rfl
    | split

theorem execSnapshotCopyDone_keeps (h : Keeps s0 s) : ∀ x0 x1, KeepsE s0 (execSnapshotCopyDone x0 x1 s) := by
  unfold execSnapshotCopyDone
  repeat' first
    | with_reducible assumption
    | intro x
    | with_reducible refine KeepsE.next ?_
    | with_reducible apply State.mbAll_keeps
    | with_reducible apply State.copyDone_keeps
    | with_reducible apply State.start_keeps
    | with_reducible refine Keeps.mk_ ?_ rfl rfl rfl rfl rfl rfl

theorem execSlotWriteDone_keeps (h : Keeps s0 s) : ∀ x0 x1, KeepsE s0 (execSlotWriteDone x0 x1 s) := by
  unfold execSlotWriteDone
  repeat' first
    | with_reducible assumption
    | intro x
    | with_reducible refine KeepsE.next ?_
    | with_reducible apply State.mbAll_keeps
    | with_reducible apply State.slotWritten_keeps
    | with_reducible apply State.start_keeps
    | with_reducible refine Keeps.mk_ ?_ rfl rfl rfl rfl rfl rfl

theorem execReadbackDone_keeps (h : Keeps s0 s) : ∀ x0 x1 x2, KeepsE s0 (execReadbackDone x0 x1 x2 s) := by
  unfold execReadbackDone
  repeat' first
    | with_reducible assumption
    | intro x
    | with_reducible refine KeepsE.next ?_
    | with_reducible apply State.mbAll_keeps
    | with_reducible apply State.slotRead_keeps
    | with_reducible apply State.start_keeps
    | with_reducible refine Keeps.mk_ ?_ rfl rfl rfl rfl rfl rfl

end Sys2Proof.Machine
end

