-- ==== Sys2Proof/Laws/KeepsBoot.lean ====
section
/-!
SUPPORT. What every operation of Machine/Boot.lean keeps (see Laws/Keeps.lean).
-/
namespace Sys2Proof.Machine

set_option Elab.async false
set_option linter.unreachableTactic false
set_option linter.unusedTactic false

variable {s0 s t : State}

theorem State.showLifecycle_keeps (h : Keeps s0 s) : Keeps s0 (State.showLifecycle s) := by
  unfold State.showLifecycle
  repeat' first
    | with_reducible assumption
    | (intro x; refine (fun (hx : Keeps s0 x) => ?_) ?_; clear_value x; rotate_left; unfold x)
    | intro x
    | (lift_lets; intro x; try (refine (fun (hx : Keeps s0 x) => ?_) ?_; clear_value x; rotate_left; unfold x))
    | with_reducible apply Keeps.ite
    | with_reducible apply State.put_keeps
    | with_reducible refine Keeps.mk_ ?_ rfl rfl rfl rfl rfl rfl
    | split

theorem State.showKeys_keeps (h : Keeps s0 s) : ∀ x1, Keeps s0 (State.showKeys s x1) := by
  unfold State.showKeys
  repeat' first
    | with_reducible assumption
    | (intro x; refine (fun (hx : Keeps s0 x) => ?_) ?_; clear_value x; rotate_left; unfold x)
    | intro x
    | (lift_lets; intro x; try (refine (fun (hx : Keeps s0 x) => ?_) ?_; clear_value x; rotate_left; unfold x))
    | with_reducible apply Keeps.ite
    | with_reducible apply State.put_keeps
    | with_reducible refine Keeps.foldl ?_ ?_
    | with_reducible refine Keeps.mk_ ?_ rfl rfl rfl rfl rfl rfl
    | split

theorem State.putCode_keeps (h : Keeps s0 s) : ∀ x1 x2, Keeps s0 (State.putCode s x1 x2) := by
  unfold State.putCode
  repeat' first
    | with_reducible assumption
    | intro x
    | with_reducible apply Keeps.ite
    | with_reducible apply State.console_keeps
    | with_reducible apply State.put_keeps
    | with_reducible refine Keeps.mk_ ?_ rfl rfl rfl rfl rfl rfl
    | split

theorem State.releaseFlash_keeps (h : Keeps s0 s) : Keeps s0 (State.releaseFlash s) := by
  unfold State.releaseFlash
  repeat' first
    | with_reducible assumption
    | intro x
    | with_reducible apply State.msix_keeps
    | with_reducible apply State.emit_keeps
    | with_reducible apply State.put_keeps
    | with_reducible refine Keeps.mk_ ?_ rfl rfl rfl rfl rfl rfl

theorem State.hostDomains_keeps (h : Keeps s0 s) : Keeps s0 (State.hostDomains s) := by
  unfold State.hostDomains
  repeat' first
    | with_reducible assumption
    | intro x
    | with_reducible apply State.putBit_keeps
    | with_reducible refine Keeps.mk_ ?_ rfl rfl rfl rfl rfl rfl

theorem State.ioaLost_keeps (h : Keeps s0 s) : Keeps s0 (State.ioaLost s) := by
  unfold State.ioaLost
  repeat' first
    | with_reducible assumption
    | (intro x; refine (fun (hx : Keeps s0 x) => ?_) ?_; clear_value x; rotate_left; unfold x)
    | intro x
    | (lift_lets; intro x; try (refine (fun (hx : Keeps s0 x) => ?_) ?_; clear_value x; rotate_left; unfold x))
    | with_reducible apply State.console_keeps
    | with_reducible apply State.emit_keeps
    | with_reducible apply State.putBit_keeps
    | with_reducible refine Keeps.mk_ ?_ rfl rfl rfl rfl rfl rfl

theorem State.enterBare_keeps (h : Keeps s0 s) : ∀ x1 x2, Keeps s0 (State.enterBare s x1 x2) := by
  unfold State.enterBare
  repeat' first
    | with_reducible assumption
    | (intro x; refine (fun (hx : Keeps s0 x) => ?_) ?_; clear_value x; rotate_left; unfold x)
    | intro x
    | (lift_lets; intro x; try (refine (fun (hx : Keeps s0 x) => ?_) ?_; clear_value x; rotate_left; unfold x))
    | with_reducible apply Keeps.ite
    | with_reducible apply State.put_keeps
    | with_reducible apply State.makeParts_keeps
    | with_reducible apply State.showKeys_keeps
    | with_reducible apply State.releaseFlash_keeps
    | with_reducible apply State.console_keeps
    | with_reducible apply State.ioaLost_keeps
    | with_reducible apply State.emit_keeps
    | with_reducible apply State.hostDomains_keeps
    | with_reducible refine Keeps.mk_ ?_ rfl rfl rfl rfl rfl rfl
    | split

theorem State.loadPatch_keeps (h : Keeps s0 s) : ∀ x1 x2, Keeps s0 (State.loadPatch s x1 x2) := by
  unfold State.loadPatch
  repeat' first
    | with_reducible assumption
    | (intro x; refine (fun (hx : Keeps s0 x) => ?_) ?_; clear_value x; rotate_left; unfold x)
    | intro x
    | (lift_lets; intro x; try (refine (fun (hx : Keeps s0 x) => ?_) ?_; clear_value x; rotate_left; unfold x))
    | with_reducible apply Keeps.ite
    | split
    | with_reducible apply State.dropRec_keeps
    | with_reducible apply State.record_keeps
    | with_reducible refine Keeps.mk_ ?_ rfl rfl rfl rfl rfl rfl
    | split

theorem State.runSlot_keeps (h : Keeps s0 s) : ∀ x1 x2, Keeps s0 (State.runSlot s x1 x2) := by
  unfold State.runSlot
  repeat' first
    | with_reducible assumption
    | (intro x; refine (fun (hx : Keeps s0 x) => ?_) ?_; clear_value x; rotate_left; unfold x)
    | intro x
    | (lift_lets; intro x; try (refine (fun (hx : Keeps s0 x) => ?_) ?_; clear_value x; rotate_left; unfold x))
    | with_reducible apply State.showKeys_keeps
    | with_reducible apply State.applyImage_keeps
    | with_reducible apply State.put_keeps
    | with_reducible apply State.loadPatch_keeps
    | with_reducible apply State.releaseFlash_keeps
    | with_reducible refine Keeps.foldl ?_ ?_
    | with_reducible refine Keeps.mk_ ?_ rfl rfl rfl rfl rfl rfl
    | split

theorem State.slotHangs_keeps (h : Keeps s0 s) : ∀ x1, Keeps s0 (State.slotHangs s x1) := by
  unfold State.slotHangs
  repeat' first
    | with_reducible assumption
    | (intro x; refine (fun (hx : Keeps s0 x) => ?_) ?_; clear_value x; rotate_left; unfold x)
    | intro x
    | (lift_lets; intro x; try (refine (fun (hx : Keeps s0 x) => ?_) ?_; clear_value x; rotate_left; unfold x))
    | with_reducible refine Keeps.mk_ ?_ rfl rfl rfl rfl rfl rfl

theorem State.secondSlot_keeps (h : Keeps s0 s) : ∀ x1 x2, Keeps s0 (State.secondSlot s x1 x2) := by
  unfold State.secondSlot
  repeat' first
    | with_reducible assumption
    | (intro x; refine (fun (hx : Keeps s0 x) => ?_) ?_; clear_value x; rotate_left; unfold x)
    | intro x
    | (lift_lets; intro x; try (refine (fun (hx : Keeps s0 x) => ?_) ?_; clear_value x; rotate_left; unfold x))
    | with_reducible apply Keeps.ite
    | with_reducible apply State.slotHangs_keeps
    | with_reducible apply State.putCode_keeps
    | with_reducible apply State.runSlot_keeps
    | with_reducible apply State.enterBare_keeps
    | with_reducible refine Keeps.mk_ ?_ rfl rfl rfl rfl rfl rfl
    | split

theorem State.firstSlot_keeps (h : Keeps s0 s) : ∀ x1 x2, Keeps s0 (State.firstSlot s x1 x2) := by
  unfold State.firstSlot
  repeat' first
    | with_reducible assumption
    | (intro x; refine (fun (hx : Keeps s0 x) => ?_) ?_; clear_value x; rotate_left; unfold x)
    | intro x
    | (lift_lets; intro x; try (refine (fun (hx : Keeps s0 x) => ?_) ?_; clear_value x; rotate_left; unfold x))
    | with_reducible apply Keeps.ite
    | with_reducible apply State.slotHangs_keeps
    | with_reducible apply State.putCode_keeps
    | with_reducible apply State.runSlot_keeps
    | with_reducible apply State.secondSlot_keeps
    | with_reducible refine Keeps.mk_ ?_ rfl rfl rfl rfl rfl rfl
    | split

theorem State.readSlots_keeps (h : Keeps s0 s) : ∀ x1, Keeps s0 (State.readSlots s x1) := by
  unfold State.readSlots
  repeat' first
    | with_reducible assumption
    | (intro x; refine (fun (hx : Keeps s0 x) => ?_) ?_; clear_value x; rotate_left; unfold x)
    | intro x
    | (lift_lets; intro x; try (refine (fun (hx : Keeps s0 x) => ?_) ?_; clear_value x; rotate_left; unfold x))
    | with_reducible apply Keeps.ite
    | with_reducible apply State.slotHangs_keeps
    | with_reducible apply State.put_keeps
    | with_reducible apply State.firstSlot_keeps
    | with_reducible refine Keeps.mk_ ?_ rfl rfl rfl rfl rfl rfl
    | split

theorem State.eraseBanks_keeps (h : Keeps s0 s) : Keeps s0 (State.eraseBanks s) := by
  unfold State.eraseBanks
  repeat' first
    | with_reducible assumption
    | (intro x; refine (fun (hx : Keeps s0 x) => ?_) ?_; clear_value x; rotate_left; unfold x)
    | intro x
    | (lift_lets; intro x; try (refine (fun (hx : Keeps s0 x) => ?_) ?_; clear_value x; rotate_left; unfold x))
    | with_reducible refine Keeps.mk_ ?_ rfl rfl rfl rfl rfl rfl

theorem execStartUp_keeps (h : Keeps s0 s) : ∀ x0, KeepsE s0 (execStartUp x0 s) := by
  unfold execStartUp
  repeat' first
    | with_reducible assumption
    | (intro x; refine (fun (hx : Keeps s0 x) => ?_) ?_; clear_value x; rotate_left; unfold x)
    | intro x
    | (lift_lets; intro x; try (refine (fun (hx : Keeps s0 x) => ?_) ?_; clear_value x; rotate_left; unfold x))
    | with_reducible apply Keeps.ite
    | with_reducible apply KeepsE.ite
    | with_reducible refine KeepsE.next ?_
    | with_reducible apply State.start_keeps
    | with_reducible apply State.powerOnReset_keeps
    | with_reducible apply State.showLifecycle_keeps
    | with_reducible apply State.console_keeps
    | with_reducible apply State.eraseBanks_keeps
    | with_reducible apply State.enterBare_keeps
    | with_reducible apply State.facLayer_keeps
    | with_reducible apply State.readSlots_keeps
    | with_reducible apply State.put_keeps
    | with_reducible refine Keeps.mk_ ?_ rfl rfl rfl rfl rfl rfl
    | split

theorem execFlashReadTimeout_keeps (h : Keeps s0 s) : ∀ x0, KeepsE s0 (execFlashReadTimeout x0 s) := by
  unfold execFlashReadTimeout
  repeat' first
    | with_reducible assumption
    | (intro x; refine (fun (hx : Keeps s0 x) => ?_) ?_; clear_value x; rotate_left; unfold x)
    | intro x
    | (lift_lets; intro x; try (refine (fun (hx : Keeps s0 x) => ?_) ?_; clear_value x; rotate_left; unfold x))
    | with_reducible apply Keeps.ite
    | with_reducible apply KeepsE.ite
    | with_reducible refine KeepsE.next ?_
    | split
    | with_reducible apply State.start_keeps
    | with_reducible apply State.readSlots_keeps
    | with_reducible apply State.putCode_keeps
    | with_reducible refine Keeps.mk_ ?_ rfl rfl rfl rfl rfl rfl
    | split

theorem State.wakeAll_keeps (h : Keeps s0 s) : Keeps s0 (State.wakeAll s) := by
  unfold State.wakeAll
  repeat' first
    | with_reducible assumption
    | intro x
    | with_reducible apply State.domainUp_keeps
    | with_reducible refine Keeps.foldl ?_ ?_
    | with_reducible refine Keeps.mk_ ?_ rfl rfl rfl rfl rfl rfl

theorem State.bootModel_keeps (h : Keeps s0 s) : ∀ x1, Keeps s0 (State.bootModel s x1) := by
  unfold State.bootModel
  repeat' first
    | with_reducible assumption
    | (intro x; refine (fun (hx : Keeps s0 x) => ?_) ?_; clear_value x; rotate_left; unfold x)
    | intro x
    | (lift_lets; intro x; try (refine (fun (hx : Keeps s0 x) => ?_) ?_; clear_value x; rotate_left; unfold x))
    | split
    | with_reducible apply State.afterWake_keeps
    | with_reducible apply State.wakeAll_keeps
    | with_reducible refine (State.askAdmit_keeps ?_ _ ).out _ (by assumption)
    | with_reducible apply State.askAdmit_keeps
    | with_reducible refine Keeps.mk_ ?_ rfl rfl rfl rfl rfl rfl
    | split

theorem State.joinLane_keeps (h : Keeps s0 s) : ∀ x1, Keeps s0 (State.joinLane s x1) := by
  unfold State.joinLane
  repeat' first
    | with_reducible assumption
    | (intro x; refine (fun (hx : Keeps s0 x) => ?_) ?_; clear_value x; rotate_left; unfold x)
    | intro x
    | (lift_lets; intro x; try (refine (fun (hx : Keeps s0 x) => ?_) ?_; clear_value x; rotate_left; unfold x))
    | with_reducible apply Keeps.ite
    | with_reducible refine Keeps.mk_ ?_ rfl rfl rfl rfl rfl rfl
    | split

theorem State.startRecords_keeps (h : Keeps s0 s) : Keeps s0 (State.startRecords s) := by
  unfold State.startRecords
  repeat' first
    | with_reducible assumption
    | (intro x; refine (fun (hx : Keeps s0 x) => ?_) ?_; clear_value x; rotate_left; unfold x)
    | intro x
    | (lift_lets; intro x; try (refine (fun (hx : Keeps s0 x) => ?_) ?_; clear_value x; rotate_left; unfold x))
    | with_reducible apply Keeps.ite
    | split
    | with_reducible apply State.record_keeps
    | with_reducible refine Keeps.mk_ ?_ rfl rfl rfl rfl rfl rfl
    | split

theorem State.showPresent_keeps (h : Keeps s0 s) : ∀ x1 x2, Keeps s0 (State.showPresent s x1 x2) := by
  unfold State.showPresent
  repeat' first
    | with_reducible assumption
    | (intro x; refine (fun (hx : Keeps s0 x) => ?_) ?_; clear_value x; rotate_left; unfold x)
    | intro x
    | (lift_lets; intro x; try (refine (fun (hx : Keeps s0 x) => ?_) ?_; clear_value x; rotate_left; unfold x))
    | with_reducible apply State.put_keeps
    | with_reducible apply State.record_keeps
    | with_reducible refine Keeps.foldl ?_ ?_
    | with_reducible refine Keeps.mk_ ?_ rfl rfl rfl rfl rfl rfl

theorem State.dieLost_keeps (h : Keeps s0 s) : ∀ x1, Keeps s0 (State.dieLost s x1) := by
  unfold State.dieLost
  repeat' first
    | with_reducible assumption
    | intro x
    | with_reducible apply State.record_keeps
    | with_reducible apply State.put_keeps
    | with_reducible refine Keeps.mk_ ?_ rfl rfl rfl rfl rfl rfl
    | split

theorem State.portTry_keeps (h : Keeps s0 s) : ∀ x0 x2, Keeps s0 (State.portTry x0 s x2) := by
  unfold State.portTry
  repeat' first
    | with_reducible assumption
    | (intro x; refine (fun (hx : Keeps s0 x) => ?_) ?_; clear_value x; rotate_left; unfold x)
    | intro x
    | (lift_lets; intro x; try (refine (fun (hx : Keeps s0 x) => ?_) ?_; clear_value x; rotate_left; unfold x))
    | with_reducible apply Keeps.ite
    | with_reducible apply State.put_keeps
    | with_reducible refine Keeps.mk_ ?_ rfl rfl rfl rfl rfl rfl
    | split

theorem State.startAll_keeps (h : Keeps s0 s) : ∀ x1 x2 x3 x4 x5, Keeps s0 (State.startAll s x1 x2 x3 x4 x5) := by
  intro stackUp dieUp cables bch ms
  unfold State.startAll
  extract_lets s1 die lost s2 s3 s4 s5 s6 s7 s8 s9 s10 s11 src bsrc s12 s13 s14
  have h1 : Keeps s0 s1 := State.showPresent_keeps h _ _
  have h2 : Keeps s0 s2 := Keeps.foldl h1 fun s l hs => State.dieLost_keeps hs _
  have h3 : Keeps s0 s3 := Keeps.ite (State.hostDomains_keeps h2) (State.ioaLost_keeps h2)
  have h4 : Keeps s0 s4 := Keeps.foldl h3 fun s d hs => State.putBit_keeps hs _ _ _
  have h5 : Keeps s0 s5 := Keeps.foldl h4 fun s d hs => State.portTry_keeps hs _ _
  have h6 : Keeps s0 s6 := State.readLog_keeps (State.readLog_keeps h5 _ _) _ _
  have h7 : Keeps s0 s7 := Keeps.foldl h6 fun s m hs => State.bootModel_keeps hs _
  have h8 : Keeps s0 s8 := Keeps.foldl h7 fun s l hs => State.admitLane_keeps hs _ _
  have h9 : Keeps s0 s9 := State.afterWake_keeps (State.wakeAll_keeps h8)
  have h10 : Keeps s0 s10 := Keeps.foldl h9 fun s l hs => State.joinLane_keeps hs _
  have h11 : Keeps s0 s11 := Keeps.foldl h10 fun s i hs => by
    split
    · exact State.setCol_keeps hs _ _
    · exact hs
  clear_value s11
  have hb : Keeps s0 src := State.put_keeps (State.put_keeps h11 _ _ _) _ _ _
  have eb : bsrc = src.boot := rfl
  have h12 : Keeps s0 s12 := by
    clear_value src bsrc
    subst eb
    exact hb.same rfl rfl rfl rfl rfl rfl
  have h13 : Keeps s0 s13 := State.startRecords_keeps h12
  have h14 : Keeps s0 s14 := by
    unfold s14
    split
    · exact State.select_keeps h13 _
    · exact State.put_keeps h13 _ _ _
  exact Keeps.ite (State.emit_keeps h14 _) h14

theorem State.bareTrained_keeps (h : Keeps s0 s) : ∀ x1 x2, Keeps s0 (State.bareTrained s x1 x2) := by
  unfold State.bareTrained
  repeat' first
    | with_reducible assumption
    | (intro x; refine (fun (hx : Keeps s0 x) => ?_) ?_; clear_value x; rotate_left; unfold x)
    | intro x
    | (lift_lets; intro x; try (refine (fun (hx : Keeps s0 x) => ?_) ?_; clear_value x; rotate_left; unfold x))
    | with_reducible apply Keeps.ite
    | with_reducible apply State.showPresent_keeps
    | with_reducible apply State.putBit_keeps
    | with_reducible apply State.ioaLost_keeps
    | with_reducible refine Keeps.foldl ?_ ?_
    | with_reducible refine Keeps.mk_ ?_ rfl rfl rfl rfl rfl rfl
    | split

theorem execTrainingComplete_keeps (h : Keeps s0 s) : ∀ x0 x1 x2 x3 x4, KeepsE s0 (execTrainingComplete x0 x1 x2 x3 x4 s) := by
  unfold execTrainingComplete
  repeat' first
    | with_reducible assumption
    | (intro x; refine (fun (hx : Keeps s0 x) => ?_) ?_; clear_value x; rotate_left; unfold x)
    | intro x
    | (lift_lets; intro x; try (refine (fun (hx : Keeps s0 x) => ?_) ?_; clear_value x; rotate_left; unfold x))
    | with_reducible refine KeepsE.next ?_
    | split
    | with_reducible apply State.start_keeps
    | with_reducible apply State.startAll_keeps
    | with_reducible apply State.bareTrained_keeps
    | with_reducible refine Keeps.mk_ ?_ rfl rfl rfl rfl rfl rfl
    | split

end Sys2Proof.Machine
end

