-- ==== Sys2Proof/Laws/KeepsCollectors.lean ====
section
/-!
SUPPORT. What every operation of Machine/Collectors.lean keeps (see Laws/Keeps.lean).
-/
namespace Sys2Proof.Machine

set_option Elab.async false
set_option linter.unreachableTactic false
set_option linter.unusedTactic false

variable {s0 s t : State}

theorem State.sendDue_keeps (h : Keeps s0 s) : ∀ x0 x1, Keeps s0 (State.sendDue x0 x1 s) := by
  intro x0
  induction x0 generalizing s with
  | zero =>
    intros
    rw [State.sendDue]
    exact h
  | succ n ih =>
    intro x1
    rw [State.sendDue]
    repeat' first
      | with_reducible assumption
      | (intro x; refine (fun (hx : Keeps s0 x) => ?_) ?_; clear_value x; rotate_left; unfold x)
      | intro x
      | (lift_lets; intro x; try (refine (fun (hx : Keeps s0 x) => ?_) ?_; clear_value x; rotate_left; unfold x))
      | with_reducible apply Keeps.ite
      | split
      | with_reducible apply State.sendDgram_keeps
      | with_reducible apply ih
      | with_reducible refine Keeps.mk_ ?_ rfl rfl rfl rfl rfl rfl
      | split

theorem State.colResume_keeps (h : Keeps s0 s) : ∀ x1, Keeps s0 (State.colResume s x1) := by
  unfold State.colResume
  repeat' first
    | with_reducible assumption
    | (intro x; refine (fun (hx : Keeps s0 x) => ?_) ?_; clear_value x; rotate_left; unfold x)
    | intro x
    | (lift_lets; intro x; try (refine (fun (hx : Keeps s0 x) => ?_) ?_; clear_value x; rotate_left; unfold x))
    | with_reducible apply Keeps.ite
    | split
    | with_reducible apply State.colMarkers_keeps
    | with_reducible apply State.sendDue_keeps
    | with_reducible apply State.setCol_keeps
    | with_reducible refine Keeps.of_pair (by assumption) ?_
    | with_reducible refine Keeps.mk_ ?_ rfl rfl rfl rfl rfl rfl
    | split

theorem execCollectorFlush_keeps (h : Keeps s0 s) : ∀ x0, KeepsE s0 (execCollectorFlush x0 s) := by
  unfold execCollectorFlush
  repeat' first
    | with_reducible assumption
    | intro x
    | with_reducible refine KeepsE.next ?_
    | with_reducible apply State.sendDgram_keeps
    | with_reducible apply State.start_keeps
    | with_reducible refine Keeps.mk_ ?_ rfl rfl rfl rfl rfl rfl

theorem execCollectorAck_keeps (h : Keeps s0 s) : ∀ x0 x1 x2, KeepsE s0 (execCollectorAck x0 x1 x2 s) := by
  unfold execCollectorAck
  repeat' first
    | with_reducible assumption
    | (intro x; refine (fun (hx : Keeps s0 x) => ?_) ?_; clear_value x; rotate_left; unfold x)
    | intro x
    | (lift_lets; intro x; try (refine (fun (hx : Keeps s0 x) => ?_) ?_; clear_value x; rotate_left; unfold x))
    | with_reducible apply Keeps.ite
    | with_reducible apply KeepsE.ite
    | with_reducible refine KeepsE.next ?_
    | split
    | with_reducible apply State.start_keeps
    | with_reducible apply State.colResume_keeps
    | with_reducible apply State.setCol_keeps
    | with_reducible apply State.bump_keeps
    | with_reducible refine Keeps.mk_ ?_ rfl rfl rfl rfl rfl rfl
    | split

theorem execDatagramResend_keeps (h : Keeps s0 s) : ∀ x0 x1, KeepsE s0 (execDatagramResend x0 x1 s) := by
  unfold execDatagramResend
  repeat' first
    | with_reducible assumption
    | (intro x; refine (fun (hx : Keeps s0 x) => ?_) ?_; clear_value x; rotate_left; unfold x)
    | intro x
    | (lift_lets; intro x; try (refine (fun (hx : Keeps s0 x) => ?_) ?_; clear_value x; rotate_left; unfold x))
    | with_reducible apply Keeps.ite
    | with_reducible apply KeepsE.ite
    | with_reducible refine KeepsE.next ?_
    | split
    | with_reducible apply State.start_keeps
    | with_reducible apply State.colResume_keeps
    | with_reducible apply State.bump_keeps
    | with_reducible apply State.setCol_keeps
    | with_reducible apply State.emit_keeps
    | with_reducible refine Keeps.mk_ ?_ rfl rfl rfl rfl rfl rfl
    | split

theorem execNextHopResolve_keeps (h : Keeps s0 s) : ∀ x0 x1, KeepsE s0 (execNextHopResolve x0 x1 s) := by
  unfold execNextHopResolve
  repeat' first
    | with_reducible assumption
    | (intro x; refine (fun (hx : Keeps s0 x) => ?_) ?_; clear_value x; rotate_left; unfold x)
    | intro x
    | (lift_lets; intro x; try (refine (fun (hx : Keeps s0 x) => ?_) ?_; clear_value x; rotate_left; unfold x))
    | with_reducible apply Keeps.ite
    | with_reducible apply KeepsE.ite
    | with_reducible refine KeepsE.next ?_
    | split
    | with_reducible apply State.start_keeps
    | with_reducible apply State.colResume_keeps
    | with_reducible apply State.put_keeps
    | with_reducible apply State.setCol_keeps
    | with_reducible refine Keeps.mk_ ?_ rfl rfl rfl rfl rfl rfl
    | split

theorem execCollectorDown_keeps (h : Keeps s0 s) : ∀ x0, KeepsE s0 (execCollectorDown x0 s) := by
  unfold execCollectorDown
  repeat' first
    | with_reducible assumption
    | (intro x; refine (fun (hx : Keeps s0 x) => ?_) ?_; clear_value x; rotate_left; unfold x)
    | intro x
    | (lift_lets; intro x; try (refine (fun (hx : Keeps s0 x) => ?_) ?_; clear_value x; rotate_left; unfold x))
    | with_reducible apply Keeps.ite
    | with_reducible apply KeepsE.ite
    | with_reducible refine KeepsE.next ?_
    | split
    | with_reducible apply State.start_keeps
    | with_reducible apply State.put_keeps
    | with_reducible apply State.setCol_keeps
    | with_reducible apply State.colDrop_keeps
    | with_reducible apply State.record_keeps
    | with_reducible refine Keeps.foldl ?_ ?_
    | with_reducible refine Keeps.mk_ ?_ rfl rfl rfl rfl rfl rfl
    | split

theorem State.flrRegs_keeps (h : Keeps s0 s) : ∀ x1, Keeps s0 (State.flrRegs s x1) := by
  unfold State.flrRegs
  repeat' first
    | with_reducible assumption
    | intro x
    | with_reducible apply State.put_keeps
    | with_reducible refine Keeps.foldl ?_ ?_
    | with_reducible refine Keeps.mk_ ?_ rfl rfl rfl rfl rfl rfl

theorem execFunctionLevelReset_keeps (h : Keeps s0 s) : ∀ x0, KeepsE s0 (execFunctionLevelReset x0 s) := by
  unfold execFunctionLevelReset
  repeat' first
    | with_reducible assumption
    | (intro x; refine (fun (hx : Keeps s0 x) => ?_) ?_; clear_value x; rotate_left; unfold x)
    | intro x
    | (lift_lets; intro x; try (refine (fun (hx : Keeps s0 x) => ?_) ?_; clear_value x; rotate_left; unfold x))
    | with_reducible apply Keeps.ite
    | with_reducible apply KeepsE.ite
    | with_reducible refine KeepsE.next ?_
    | with_reducible apply State.start_keeps
    | with_reducible apply State.flrRegs_keeps
    | with_reducible refine Keeps.mk_ ?_ rfl rfl rfl rfl rfl rfl
    | split

end Sys2Proof.Machine
end

