-- ==== Sys2Proof/Laws/KeepsRecovery.lean ====
section
/-!
SUPPORT. What every operation of Machine/Recovery.lean keeps (see Laws/Keeps.lean).
-/
namespace Sys2Proof.Machine

set_option Elab.async false
set_option linter.unreachableTactic false
set_option linter.unusedTactic false

variable {s0 s t : State}

theorem execQuiesceDrainDone_keeps (h : Keeps s0 s) : KeepsE s0 (execQuiesceDrainDone s) := by
  unfold execQuiesceDrainDone
  repeat' first
    | with_reducible assumption
    | intro x
    | with_reducible refine KeepsE.next ?_
    | with_reducible apply State.mbAll_keeps
    | with_reducible apply State.drained_keeps
    | with_reducible apply State.start_keeps
    | with_reducible refine Keeps.mk_ ?_ rfl rfl rfl rfl rfl rfl

theorem execDrainTimeout_keeps (h : Keeps s0 s) : KeepsE s0 (execDrainTimeout s) := by
  unfold execDrainTimeout
  repeat' first
    | with_reducible assumption
    | (intro x; refine (fun (hx : Keeps s0 x) => ?_) ?_; clear_value x; rotate_left; unfold x)
    | intro x
    | (lift_lets; intro x; try (refine (fun (hx : Keeps s0 x) => ?_) ?_; clear_value x; rotate_left; unfold x))
    | with_reducible apply Keeps.ite
    | with_reducible apply KeepsE.ite
    | with_reducible refine KeepsE.next ?_
    | split
    | with_reducible apply State.start_keeps
    | with_reducible apply State.mbAll_keeps
    | with_reducible apply State.silentUnit_keeps
    | with_reducible refine Keeps.mk_ ?_ rfl rfl rfl rfl rfl rfl
    | split

theorem execChannelStall_keeps (h : Keeps s0 s) : ∀ x0 x1, KeepsE s0 (execChannelStall x0 x1 s) := by
  unfold execChannelStall
  repeat' first
    | with_reducible assumption
    | (intro x; refine (fun (hx : Keeps s0 x) => ?_) ?_; clear_value x; rotate_left; unfold x)
    | intro x
    | (lift_lets; intro x; try (refine (fun (hx : Keeps s0 x) => ?_) ?_; clear_value x; rotate_left; unfold x))
    | with_reducible apply Keeps.ite
    | with_reducible apply KeepsE.ite
    | with_reducible refine KeepsE.next ?_
    | with_reducible apply State.start_keeps
    | with_reducible apply State.put_keeps
    | with_reducible apply State.bump_keeps
    | with_reducible apply State.record_keeps
    | with_reducible apply State.mbAll_keeps
    | with_reducible apply State.silentUnit_keeps
    | with_reducible refine Keeps.mk_ ?_ rfl rfl rfl rfl rfl rfl
    | split

theorem execFrameDeadline_keeps (h : Keeps s0 s) : ∀ x0 x1, KeepsE s0 (execFrameDeadline x0 x1 s) := by
  unfold execFrameDeadline
  repeat' first
    | with_reducible assumption
    | (intro x; refine (fun (hx : Keeps s0 x) => ?_) ?_; clear_value x; rotate_left; unfold x)
    | intro x
    | (lift_lets; intro x; try (refine (fun (hx : Keeps s0 x) => ?_) ?_; clear_value x; rotate_left; unfold x))
    | with_reducible apply Keeps.ite
    | with_reducible apply KeepsE.ite
    | with_reducible refine KeepsE.next ?_
    | split
    | with_reducible apply State.start_keeps
    | with_reducible apply State.bump_keeps
    | with_reducible apply State.onEntry_keeps
    | with_reducible apply State.record_keeps
    | with_reducible refine Keeps.mk_ ?_ rfl rfl rfl rfl rfl rfl
    | split

theorem State.endForEntry_keeps (h : Keeps s0 s) : ∀ x0 x2, Keeps s0 (State.endForEntry x0 s x2) := by
  unfold State.endForEntry
  repeat' first
    | with_reducible assumption
    | (intro x; refine (fun (hx : Keeps s0 x) => ?_) ?_; clear_value x; rotate_left; unfold x)
    | intro x
    | (lift_lets; intro x; try (refine (fun (hx : Keeps s0 x) => ?_) ?_; clear_value x; rotate_left; unfold x))
    | with_reducible apply Keeps.ite
    | split
    | with_reducible apply State.endTrigger_keeps
    | with_reducible apply State.dropTrigger_keeps
    | with_reducible refine Keeps.mk_ ?_ rfl rfl rfl rfl rfl rfl
    | split

theorem execFrameLateLimit_keeps (h : Keeps s0 s) : ∀ x0 x1, KeepsE s0 (execFrameLateLimit x0 x1 s) := by
  unfold execFrameLateLimit
  repeat' first
    | with_reducible assumption
    | (intro x; refine (fun (hx : Keeps s0 x) => ?_) ?_; clear_value x; rotate_left; unfold x)
    | intro x
    | (lift_lets; intro x; try (refine (fun (hx : Keeps s0 x) => ?_) ?_; clear_value x; rotate_left; unfold x))
    | with_reducible apply Keeps.ite
    | with_reducible apply KeepsE.ite
    | with_reducible refine KeepsE.next ?_
    | split
    | with_reducible apply State.start_keeps
    | with_reducible apply State.entryLost_keeps
    | with_reducible apply State.onEntry_keeps
    | with_reducible apply State.restartHolds_keeps
    | with_reducible apply State.bump_keeps
    | with_reducible apply State.endForEntry_keeps
    | with_reducible apply State.flushHeld_keeps
    | with_reducible apply State.retireEntries_keeps
    | with_reducible refine Keeps.foldl ?_ ?_
    | with_reducible refine Keeps.mk_ ?_ rfl rfl rfl rfl rfl rfl
    | split

theorem execHeartbeatExpiry_keeps (h : Keeps s0 s) : ∀ x0, KeepsE s0 (execHeartbeatExpiry x0 s) := by
  unfold execHeartbeatExpiry
  repeat' first
    | with_reducible assumption
    | (intro x; refine (fun (hx : Keeps s0 x) => ?_) ?_; clear_value x; rotate_left; unfold x)
    | intro x
    | (lift_lets; intro x; try (refine (fun (hx : Keeps s0 x) => ?_) ?_; clear_value x; rotate_left; unfold x))
    | with_reducible apply Keeps.ite
    | with_reducible apply KeepsE.ite
    | with_reducible refine KeepsE.next ?_
    | with_reducible apply State.start_keeps
    | with_reducible apply State.record_keeps
    | with_reducible apply State.partFatal_keeps
    | with_reducible refine Keeps.mk_ ?_ rfl rfl rfl rfl rfl rfl
    | split

theorem execPartitionAutoRestart_keeps (h : Keeps s0 s) : ∀ x0, KeepsE s0 (execPartitionAutoRestart x0 s) := by
  unfold execPartitionAutoRestart
  repeat' first
    | with_reducible assumption
    | (intro x; refine (fun (hx : Keeps s0 x) => ?_) ?_; clear_value x; rotate_left; unfold x)
    | intro x
    | (lift_lets; intro x; try (refine (fun (hx : Keeps s0 x) => ?_) ?_; clear_value x; rotate_left; unfold x))
    | with_reducible apply Keeps.ite
    | with_reducible apply KeepsE.ite
    | with_reducible refine KeepsE.next ?_
    | with_reducible apply State.start_keeps
    | with_reducible apply State.mbAll_keeps
    | with_reducible apply State.restartPart_keeps
    | with_reducible refine Keeps.mk_ ?_ rfl rfl rfl rfl rfl rfl
    | split

theorem State.fatalCause_keeps (h : Keeps s0 s) : ∀ x1, Keeps s0 (State.fatalCause s x1) := by
  unfold State.fatalCause
  repeat' first
    | with_reducible assumption
    | (intro x; refine (fun (hx : Keeps s0 x) => ?_) ?_; clear_value x; rotate_left; unfold x)
    | intro x
    | (lift_lets; intro x; try (refine (fun (hx : Keeps s0 x) => ?_) ?_; clear_value x; rotate_left; unfold x))
    | with_reducible apply State.put_keeps
    | with_reducible refine Keeps.mk_ ?_ rfl rfl rfl rfl rfl rfl
    | split

theorem State.fatalInPowerFail_keeps (h : Keeps s0 s) : ∀ x1, Keeps s0 (State.fatalInPowerFail s x1) := by
  unfold State.fatalInPowerFail
  repeat' first
    | with_reducible assumption
    | (intro x; refine (fun (hx : Keeps s0 x) => ?_) ?_; clear_value x; rotate_left; unfold x)
    | intro x
    | (lift_lets; intro x; try (refine (fun (hx : Keeps s0 x) => ?_) ?_; clear_value x; rotate_left; unfold x))
    | with_reducible apply State.console_keeps
    | with_reducible apply State.fatalCause_keeps
    | with_reducible apply State.setBank_keeps
    | with_reducible refine Keeps.foldl ?_ ?_
    | with_reducible refine Keeps.mk_ ?_ rfl rfl rfl rfl rfl rfl

theorem State.deviceFatal_keeps (h : Keeps s0 s) : ∀ x1, Keeps s0 (State.deviceFatal s x1) := by
  unfold State.deviceFatal
  repeat' first
    | with_reducible assumption
    | (intro x; refine (fun (hx : Keeps s0 x) => ?_) ?_; clear_value x; rotate_left; unfold x)
    | intro x
    | (lift_lets; intro x; try (refine (fun (hx : Keeps s0 x) => ?_) ?_; clear_value x; rotate_left; unfold x))
    | with_reducible apply Keeps.ite
    | with_reducible apply State.fatalInPowerFail_keeps
    | with_reducible apply State.fatalCause_keeps
    | with_reducible apply State.emit_keeps
    | with_reducible apply State.deviceReset_keeps
    | with_reducible apply State.console_keeps
    | with_reducible refine Keeps.mk_ ?_ rfl rfl rfl rfl rfl rfl
    | split

theorem execDeviceFatal_keeps (h : Keeps s0 s) : ∀ x0, KeepsE s0 (execDeviceFatal x0 s) := by
  unfold execDeviceFatal
  repeat' first
    | with_reducible assumption
    | intro x
    | with_reducible refine KeepsE.next ?_
    | with_reducible apply State.deviceFatal_keeps
    | with_reducible apply State.start_keeps
    | with_reducible refine Keeps.mk_ ?_ rfl rfl rfl rfl rfl rfl

theorem execCoxWatchdogExpiry_keeps (h : Keeps s0 s) : KeepsE s0 (execCoxWatchdogExpiry s) := by
  unfold execCoxWatchdogExpiry
  repeat' first
    | with_reducible assumption
    | (intro x; refine (fun (hx : Keeps s0 x) => ?_) ?_; clear_value x; rotate_left; unfold x)
    | intro x
    | (lift_lets; intro x; try (refine (fun (hx : Keeps s0 x) => ?_) ?_; clear_value x; rotate_left; unfold x))
    | with_reducible apply Keeps.ite
    | with_reducible apply KeepsE.ite
    | with_reducible refine KeepsE.next ?_
    | with_reducible apply State.start_keeps
    | with_reducible apply State.deviceFatal_keeps
    | with_reducible refine Keeps.mk_ ?_ rfl rfl rfl rfl rfl rfl
    | split

theorem execFatalHoldExpiry_keeps (h : Keeps s0 s) : KeepsE s0 (execFatalHoldExpiry s) := by
  unfold execFatalHoldExpiry
  repeat' first
    | with_reducible assumption
    | (intro x; refine (fun (hx : Keeps s0 x) => ?_) ?_; clear_value x; rotate_left; unfold x)
    | intro x
    | (lift_lets; intro x; try (refine (fun (hx : Keeps s0 x) => ?_) ?_; clear_value x; rotate_left; unfold x))
    | with_reducible apply Keeps.ite
    | with_reducible apply KeepsE.ite
    | with_reducible refine KeepsE.next ?_
    | with_reducible apply State.start_keeps
    | with_reducible apply State.deviceReset_keeps
    | with_reducible refine Keeps.mk_ ?_ rfl rfl rfl rfl rfl rfl
    | split

end Sys2Proof.Machine
end

