-- ==== Sys2Proof/Laws/KeepsSensors.lean ====
section
/-!
SUPPORT. What every operation of Machine/Sensors.lean keeps (see Laws/Keeps.lean).
-/
namespace Sys2Proof.Machine

set_option Elab.async false
set_option linter.unreachableTactic false
set_option linter.unusedTactic false

variable {s0 s t : State}

theorem State.leaveAbsent_keeps (h : Keeps s0 s) : ∀ x1 x2, Keeps s0 (State.leaveAbsent s x1 x2) := by
  unfold State.leaveAbsent
  repeat' first
    | with_reducible assumption
    | (intro x; refine (fun (hx : Keeps s0 x) => ?_) ?_; clear_value x; rotate_left; unfold x)
    | intro x
    | (lift_lets; intro x; try (refine (fun (hx : Keeps s0 x) => ?_) ?_; clear_value x; rotate_left; unfold x))
    | with_reducible apply State.setLane_keeps
    | with_reducible apply State.setLrn_keeps
    | with_reducible apply State.emitGap_keeps
    | with_reducible apply State.putLaneState_keeps
    | with_reducible apply State.freezeLane_keeps
    | with_reducible refine Keeps.mk_ ?_ rfl rfl rfl rfl rfl rfl

theorem State.serialSeen_keeps (h : Keeps s0 s) : ∀ x1 x2, Keeps s0 (State.serialSeen s x1 x2).2 := by
  unfold State.serialSeen
  repeat' first
    | with_reducible assumption
    | (intro x; refine (fun (hx : Keeps s0 x) => ?_) ?_; clear_value x; rotate_left; unfold x)
    | intro x
    | (lift_lets; intro x; try (refine (fun (hx : Keeps s0 x) => ?_) ?_; clear_value x; rotate_left; unfold x))
    | with_reducible apply Keeps.ite
    | with_reducible apply Keeps.ite2
    | with_reducible apply State.put_keeps
    | with_reducible apply State.emitReport_keeps
    | with_reducible apply State.leaveAbsent_keeps
    | with_reducible apply State.setLane_keeps
    | with_reducible apply State.relearn_keeps
    | with_reducible refine Keeps.mk_ ?_ rfl rfl rfl rfl rfl rfl
    | split

theorem State.sensorFrame_keeps (h : Keeps s0 s) : ∀ x1 x2 x3 x4, Keeps s0 (State.sensorFrame s x1 x2 x3 x4).2 := by
  unfold State.sensorFrame
  repeat' first
    | with_reducible assumption
    | (intro x; refine (fun (hx : Keeps s0 x) => ?_) ?_; clear_value x; rotate_left; unfold x)
    | intro x
    | (lift_lets; intro x; try (refine (fun (hx : Keeps s0 x) => ?_) ?_; clear_value x; rotate_left; unfold x))
    | with_reducible apply Keeps.ite
    | with_reducible apply Keeps.ite2
    | split
    | with_reducible apply State.bump_keeps
    | with_reducible apply State.serialSeen_keeps
    | with_reducible refine Keeps.of_pair (by assumption) ?_
    | with_reducible refine Keeps.mk_ ?_ rfl rfl rfl rfl rfl rfl
    | split

theorem State.sendConfig_keeps (h : Keeps s0 s) : ∀ x1 x2 x3, Keeps s0 (State.sendConfig s x1 x2 x3) := by
  unfold State.sendConfig
  repeat' first
    | with_reducible assumption
    | (intro x; refine (fun (hx : Keeps s0 x) => ?_) ?_; clear_value x; rotate_left; unfold x)
    | intro x
    | (lift_lets; intro x; try (refine (fun (hx : Keeps s0 x) => ?_) ?_; clear_value x; rotate_left; unfold x))
    | with_reducible apply State.emit_keeps
    | with_reducible apply State.setLane_keeps
    | with_reducible refine Keeps.mk_ ?_ rfl rfl rfl rfl rfl rfl

theorem execSensorAnnounce_keeps (h : Keeps s0 s) : ∀ x0 x1 x2 x3, KeepsE s0 (execSensorAnnounce x0 x1 x2 x3 s) := by
  unfold execSensorAnnounce
  repeat' first
    | with_reducible assumption
    | (intro x; refine (fun (hx : Keeps s0 x) => ?_) ?_; clear_value x; rotate_left; unfold x)
    | intro x
    | (lift_lets; intro x; try (refine (fun (hx : Keeps s0 x) => ?_) ?_; clear_value x; rotate_left; unfold x))
    | with_reducible refine KeepsE.next ?_
    | split
    | with_reducible apply State.start_keeps
    | with_reducible apply State.sensorFrame_keeps
    | with_reducible apply State.sendConfig_keeps
    | with_reducible refine Keeps.of_pair (by assumption) ?_
    | with_reducible refine Keeps.mk_ ?_ rfl rfl rfl rfl rfl rfl
    | split

theorem execConfigResend_keeps (h : Keeps s0 s) : KeepsE s0 (execConfigResend s) := by
  unfold execConfigResend
  repeat' first
    | with_reducible assumption
    | (intro x; refine (fun (hx : Keeps s0 x) => ?_) ?_; clear_value x; rotate_left; unfold x)
    | intro x
    | (lift_lets; intro x; try (refine (fun (hx : Keeps s0 x) => ?_) ?_; clear_value x; rotate_left; unfold x))
    | with_reducible apply Keeps.ite
    | with_reducible apply KeepsE.ite
    | with_reducible refine KeepsE.next ?_
    | with_reducible apply State.start_keeps
    | with_reducible apply State.sendConfig_keeps
    | with_reducible refine Keeps.foldl ?_ ?_
    | with_reducible refine Keeps.mk_ ?_ rfl rfl rfl rfl rfl rfl
    | split

theorem execSensorStatus_keeps (h : Keeps s0 s) : ∀ x0 x1 x2, KeepsE s0 (execSensorStatus x0 x1 x2 s) := by
  unfold execSensorStatus
  repeat' first
    | with_reducible assumption
    | (intro x; refine (fun (hx : Keeps s0 x) => ?_) ?_; clear_value x; rotate_left; unfold x)
    | intro x
    | (lift_lets; intro x; try (refine (fun (hx : Keeps s0 x) => ?_) ?_; clear_value x; rotate_left; unfold x))
    | with_reducible apply Keeps.ite
    | with_reducible apply KeepsE.ite
    | with_reducible refine KeepsE.next ?_
    | split
    | with_reducible apply State.start_keeps
    | with_reducible apply State.sensorFrame_keeps
    | with_reducible apply State.put_keeps
    | with_reducible apply State.setLane_keeps
    | with_reducible apply State.record_keeps
    | with_reducible refine Keeps.of_pair (by assumption) ?_
    | with_reducible refine Keeps.mk_ ?_ rfl rfl rfl rfl rfl rfl
    | split

theorem State.nodeSample_keeps (h : Keeps s0 s) : ∀ x1 x2 x3 x4 x5 x6, Keeps s0 (State.nodeSample s x1 x2 x3 x4 x5 x6) := by
  unfold State.nodeSample
  repeat' first
    | with_reducible assumption
    | (intro x; refine (fun (hx : Keeps s0 x) => ?_) ?_; clear_value x; rotate_left; unfold x)
    | intro x
    | (lift_lets; intro x; try (refine (fun (hx : Keeps s0 x) => ?_) ?_; clear_value x; rotate_left; unfold x))
    | with_reducible apply Keeps.ite
    | split
    | with_reducible apply State.setLane_keeps
    | with_reducible apply State.laneIn_keeps
    | with_reducible refine Keeps.getD ?_ ?_
    | with_reducible refine Keeps.mk_ ?_ rfl rfl rfl rfl rfl rfl
    | split

theorem State.sampleGap_keeps (h : Keeps s0 s) : ∀ x1 x2 x3 x4, Keeps s0 (State.sampleGap s x1 x2 x3 x4) := by
  unfold State.sampleGap
  repeat' first
    | with_reducible assumption
    | (intro x; refine (fun (hx : Keeps s0 x) => ?_) ?_; clear_value x; rotate_left; unfold x)
    | intro x
    | (lift_lets; intro x; try (refine (fun (hx : Keeps s0 x) => ?_) ?_; clear_value x; rotate_left; unfold x))
    | with_reducible apply Keeps.ite
    | split
    | with_reducible apply State.setLane_keeps
    | with_reducible apply State.bump_keeps
    | with_reducible apply State.laneLose_keeps
    | with_reducible refine Keeps.mk_ ?_ rfl rfl rfl rfl rfl rfl
    | split

theorem State.samplesIn_keeps (h : Keeps s0 s) : ∀ x1 x2, Keeps s0 (State.samplesIn s x1 x2) := by
  unfold State.samplesIn
  repeat' first
    | with_reducible assumption
    | (intro x; refine (fun (hx : Keeps s0 x) => ?_) ?_; clear_value x; rotate_left; unfold x)
    | intro x
    | (lift_lets; intro x; try (refine (fun (hx : Keeps s0 x) => ?_) ?_; clear_value x; rotate_left; unfold x))
    | with_reducible apply State.countLoss_keeps
    | with_reducible apply State.sampleGap_keeps
    | with_reducible apply State.laneArrival_keeps
    | with_reducible apply State.setLane_keeps
    | with_reducible apply State.nodeSample_keeps
    | with_reducible refine Keeps.foldl ?_ ?_
    | with_reducible refine Keeps.mk_ ?_ rfl rfl rfl rfl rfl rfl
    | split

theorem execSensorSamples_keeps (h : Keeps s0 s) : ∀ x0 x1 x2, KeepsE s0 (execSensorSamples x0 x1 x2 s) := by
  unfold execSensorSamples
  repeat' first
    | with_reducible assumption
    | (intro x; refine (fun (hx : Keeps s0 x) => ?_) ?_; clear_value x; rotate_left; unfold x)
    | intro x
    | (lift_lets; intro x; try (refine (fun (hx : Keeps s0 x) => ?_) ?_; clear_value x; rotate_left; unfold x))
    | with_reducible refine KeepsE.next ?_
    | split
    | with_reducible apply State.start_keeps
    | with_reducible apply State.sensorFrame_keeps
    | with_reducible apply State.samplesIn_keeps
    | with_reducible refine Keeps.of_pair (by assumption) ?_
    | with_reducible refine Keeps.mk_ ?_ rfl rfl rfl rfl rfl rfl
    | split

theorem execTdmBlockComplete_keeps (h : Keeps s0 s) : ∀ x0 x1 x2 x3, KeepsE s0 (execTdmBlockComplete x0 x1 x2 x3 s) := by
  unfold execTdmBlockComplete
  repeat' first
    | with_reducible assumption
    | (intro x; refine (fun (hx : Keeps s0 x) => ?_) ?_; clear_value x; rotate_left; unfold x)
    | intro x
    | (lift_lets; intro x; try (refine (fun (hx : Keeps s0 x) => ?_) ?_; clear_value x; rotate_left; unfold x))
    | with_reducible apply Keeps.ite
    | with_reducible apply KeepsE.ite
    | with_reducible refine KeepsE.next ?_
    | split
    | with_reducible apply State.start_keeps
    | with_reducible apply State.leaveAbsent_keeps
    | with_reducible apply State.laneArrival_keeps
    | with_reducible apply State.setLane_keeps
    | with_reducible apply State.laneIn_keeps
    | with_reducible refine Keeps.getD ?_ ?_
    | with_reducible refine Keeps.mk_ ?_ rfl rfl rfl rfl rfl rfl
    | split

theorem State.goSilent_keeps (h : Keeps s0 s) : ∀ x1, Keeps s0 (State.goSilent s x1) := by
  unfold State.goSilent
  repeat' first
    | with_reducible assumption
    | intro x
    | with_reducible apply Keeps.ite
    | with_reducible apply State.putLaneState_keeps
    | with_reducible refine Keeps.mk_ ?_ rfl rfl rfl rfl rfl rfl
    | split

theorem execTdmSdinSilent_keeps (h : Keeps s0 s) : ∀ x0 x1, KeepsE s0 (execTdmSdinSilent x0 x1 s) := by
  unfold execTdmSdinSilent
  repeat' first
    | with_reducible assumption
    | (intro x; refine (fun (hx : Keeps s0 x) => ?_) ?_; clear_value x; rotate_left; unfold x)
    | intro x
    | (lift_lets; intro x; try (refine (fun (hx : Keeps s0 x) => ?_) ?_; clear_value x; rotate_left; unfold x))
    | with_reducible refine KeepsE.next ?_
    | split
    | with_reducible apply State.start_keeps
    | with_reducible apply State.goSilent_keeps
    | with_reducible refine Keeps.mk_ ?_ rfl rfl rfl rfl rfl rfl
    | split

theorem execT1sSegmentFault_keeps (h : Keeps s0 s) : ∀ x0 x1, KeepsE s0 (execT1sSegmentFault x0 x1 s) := by
  unfold execT1sSegmentFault
  repeat' first
    | with_reducible assumption
    | (intro x; refine (fun (hx : Keeps s0 x) => ?_) ?_; clear_value x; rotate_left; unfold x)
    | intro x
    | (lift_lets; intro x; try (refine (fun (hx : Keeps s0 x) => ?_) ?_; clear_value x; rotate_left; unfold x))
    | with_reducible apply Keeps.ite
    | with_reducible apply KeepsE.ite
    | with_reducible refine KeepsE.next ?_
    | with_reducible apply State.start_keeps
    | with_reducible apply State.goSilent_keeps
    | with_reducible apply State.record_keeps
    | with_reducible refine Keeps.foldl ?_ ?_
    | with_reducible refine Keeps.mk_ ?_ rfl rfl rfl rfl rfl rfl
    | split

end Sys2Proof.Machine
end

