-- ==== Sys2Proof/Laws/KeepsRegView.lean ====
section
/-!
SUPPORT. What every operation of Machine/RegView.lean keeps (see Laws/Keeps.lean).
-/
namespace Sys2Proof.Machine

set_option Elab.async false
set_option linter.unreachableTactic false
set_option linter.unusedTactic false

variable {s0 s t : State}

theorem State.ratedRec_keeps (h : Keeps s0 s) : ∀ x1 x2, Keeps s0 (State.ratedRec s x1 x2) := by
  unfold State.ratedRec
  repeat' first
    | with_reducible assumption
    | (intro x; refine (fun (hx : Keeps s0 x) => ?_) ?_; clear_value x; rotate_left; unfold x)
    | intro x
    | (lift_lets; intro x; try (refine (fun (hx : Keeps s0 x) => ?_) ?_; clear_value x; rotate_left; unfold x))
    | with_reducible apply Keeps.ite
    | split
    | with_reducible apply State.record_keeps
    | with_reducible refine Keeps.mk_ ?_ rfl rfl rfl rfl rfl rfl
    | split

theorem State.hostDenied_keeps (h : Keeps s0 s) : ∀ x1 x2, Keeps s0 (State.hostDenied s x1 x2) := by
  unfold State.hostDenied
  repeat' first
    | with_reducible assumption
    | intro x
    | with_reducible apply State.ratedRec_keeps
    | with_reducible refine Keeps.mk_ ?_ rfl rfl rfl rfl rfl rfl

theorem State.hiddenWrite_keeps (h : Keeps s0 s) : ∀ x1 x2, Keeps s0 (State.hiddenWrite s x1 x2) := by
  unfold State.hiddenWrite
  repeat' first
    | with_reducible assumption
    | intro x
    | with_reducible apply State.ratedRec_keeps
    | with_reducible apply State.bump_keeps
    | with_reducible refine Keeps.mk_ ?_ rfl rfl rfl rfl rfl rfl

theorem State.hostGate_keeps (h : Keeps s0 s) : ∀ x1 x2 x3, Keeps s0 (State.hostGate s x1 x2 x3).2 := by
  intro f off shape
  exact Keeps.ite2 h (Keeps.ite2 h (Keeps.ite2 (State.hostDenied_keeps h _ _) h))

theorem viewGate_keeps {g : Option Nat × State} (h : Keeps s0 g.2) : ∀ x1 x2 x3 x4, Keeps s0 (viewGate g x1 x2 x3 x4).2 := by
  intro t va priv shape
  unfold viewGate
  split
  · exact h
  · exact Keeps.ite2 (State.liningFail_keeps h _ _) (Keeps.ite2 h h)

theorem State.regGate_keeps (h : Keeps s0 s) : ∀ x1 x2 x3 x4, Keeps s0 (State.regGate s x1 x2 x3 x4).2 := by
  intro src write off size
  unfold State.regGate
  cases src with
  | bar0 f => exact State.hostGate_keeps h _ _ _
  | bar2 => exact State.hostGate_keeps h _ _ _
  | fabric t p => exact viewGate_keeps (State.gate_keeps h _ _ _) _ _ _ _
  | tap => exact Keeps.ite2 h h
  | task n => exact Keeps.ite2 h (Keeps.ite2 h h)

theorem State.regAnswer_keeps (h : Keeps s0 s) : ∀ x1 x2, Keeps s0 (State.regAnswer s x1 x2) := by
  unfold State.regAnswer
  repeat' first
    | with_reducible assumption
    | intro x
    | with_reducible apply State.emit_keeps
    | with_reducible refine Keeps.mk_ ?_ rfl rfl rfl rfl rfl rfl

theorem State.setHold_keeps (h : Keeps s0 s) : ∀ x1 x2, Keeps s0 (State.setHold s x1 x2) := by
  unfold State.setHold
  repeat' first
    | with_reducible assumption
    | (intro x; refine (fun (hx : Keeps s0 x) => ?_) ?_; clear_value x; rotate_left; unfold x)
    | intro x
    | (lift_lets; intro x; try (refine (fun (hx : Keeps s0 x) => ?_) ?_; clear_value x; rotate_left; unfold x))
    | with_reducible refine Keeps.mk_ ?_ rfl rfl rfl rfl rfl rfl

theorem State.regRead_keeps (h : Keeps s0 s) : ∀ x1 x2 x3 x4 x5, Keeps s0 (State.regRead s x1 x2 x3 x4 x5).2 := by
  unfold State.regRead
  repeat' first
    | with_reducible assumption
    | (intro x; refine (fun (hx : Keeps s0 x) => ?_) ?_; clear_value x; rotate_left; unfold x)
    | intro x
    | (lift_lets; intro x; try (refine (fun (hx : Keeps s0 x) => ?_) ?_; clear_value x; rotate_left; unfold x))
    | with_reducible apply Keeps.ite
    | with_reducible apply Keeps.ite2
    | split
    | with_reducible apply State.record_keeps
    | with_reducible apply State.setHold_keeps
    | with_reducible refine Keeps.mk_ ?_ rfl rfl rfl rfl rfl rfl
    | split

theorem State.viewRead_keeps (h : Keeps s0 s) : ∀ x1 x2 x3 x4, Keeps s0 (State.viewRead s x1 x2 x3 x4).2.2 := by
  unfold State.viewRead
  repeat' first
    | with_reducible assumption
    | (intro x; refine (fun (hx : Keeps s0 x) => ?_) ?_; clear_value x; rotate_left; unfold x)
    | intro x
    | (lift_lets; intro x; try (refine (fun (hx : Keeps s0 x) => ?_) ?_; clear_value x; rotate_left; unfold x))
    | with_reducible apply Keeps.ite
    | with_reducible apply Keeps.ite22
    | split
    | with_reducible apply State.regGate_keeps
    | with_reducible apply State.regRead_keeps
    | with_reducible refine Keeps.of_pair (by assumption) ?_
    | with_reducible refine Keeps.mk_ ?_ rfl rfl rfl rfl rfl rfl
    | split

theorem State.busRead_keeps (h : Keeps s0 s) : ∀ x1 x2 x3 x4, Keeps s0 (State.busRead s x1 x2 x3 x4) := by
  unfold State.busRead
  repeat' first
    | with_reducible assumption
    | (intro x; refine (fun (hx : Keeps s0 x) => ?_) ?_; clear_value x; rotate_left; unfold x)
    | intro x
    | (lift_lets; intro x; try (refine (fun (hx : Keeps s0 x) => ?_) ?_; clear_value x; rotate_left; unfold x))
    | with_reducible apply State.viewRead_keeps
    | with_reducible apply State.regAnswer_keeps
    | with_reducible refine Keeps.of_triple (by assumption) ?_
    | with_reducible refine Keeps.mk_ ?_ rfl rfl rfl rfl rfl rfl

end Sys2Proof.Machine
end

