-- ==== Sys2Proof/Laws/KeepsRegEffects.lean ====
section
/-!
SUPPORT. What every operation of Machine/RegEffects.lean keeps (see Laws/Keeps.lean).
-/
namespace Sys2Proof.Machine

set_option Elab.async false
set_option linter.unreachableTactic false
set_option linter.unusedTactic false

variable {s0 s t : State}

theorem State.refuseReg_keeps (h : Keeps s0 s) : ∀ x1 x2 x3, Keeps s0 (State.refuseReg s x1 x2 x3) := by
  unfold State.refuseReg
  repeat' first
    | with_reducible assumption
    | intro x
    | with_reducible apply State.record_keeps
    | with_reducible refine Keeps.mk_ ?_ rfl rfl rfl rfl rfl rfl

theorem State.writeField_keeps (h : Keeps s0 s) : ∀ x0 x1 x3, Keeps s0 (State.writeField x0 x1 s x3) := by
  unfold State.writeField
  repeat' first
    | with_reducible assumption
    | (intro x; refine (fun (hx : Keeps s0 x) => ?_) ?_; clear_value x; rotate_left; unfold x)
    | intro x
    | (lift_lets; intro x; try (refine (fun (hx : Keeps s0 x) => ?_) ?_; clear_value x; rotate_left; unfold x))
    | with_reducible apply Keeps.ite
    | split
    | with_reducible apply State.put_keeps
    | with_reducible refine Keeps.mk_ ?_ rfl rfl rfl rfl rfl rfl
    | split

theorem State.plainWrite_keeps (h : Keeps s0 s) : ∀ x1 x2 x3, Keeps s0 (State.plainWrite s x1 x2 x3) := by
  unfold State.plainWrite
  repeat' first
    | with_reducible assumption
    | intro x
    | with_reducible apply State.writeField_keeps
    | with_reducible refine Keeps.foldl ?_ ?_
    | with_reducible refine Keeps.mk_ ?_ rfl rfl rfl rfl rfl rfl

theorem State.fqHead_keeps (h : Keeps s0 s) : ∀ x1 x2, Keeps s0 (State.fqHead s x1 x2) := by
  unfold State.fqHead
  repeat' first
    | with_reducible assumption
    | (intro x; refine (fun (hx : Keeps s0 x) => ?_) ?_; clear_value x; rotate_left; unfold x)
    | intro x
    | (lift_lets; intro x; try (refine (fun (hx : Keeps s0 x) => ?_) ?_; clear_value x; rotate_left; unfold x))
    | with_reducible apply Keeps.ite
    | with_reducible apply State.refuseReg_keeps
    | with_reducible apply State.showPending_keeps
    | with_reducible apply State.put_keeps
    | with_reducible apply State.rewalkHeld_keeps
    | with_reducible refine Keeps.mk_ ?_ rfl rfl rfl rfl rfl rfl
    | split

theorem State.recheckSeg_keeps (h : Keeps s0 s) : ∀ x1, Keeps s0 (State.recheckSeg s x1) := by
  unfold State.recheckSeg
  repeat' first
    | with_reducible assumption
    | (intro x; refine (fun (hx : Keeps s0 x) => ?_) ?_; clear_value x; rotate_left; unfold x)
    | intro x
    | (lift_lets; intro x; try (refine (fun (hx : Keeps s0 x) => ?_) ?_; clear_value x; rotate_left; unfold x))
    | with_reducible refine Keeps.mk_ ?_ rfl rfl rfl rfl rfl rfl

theorem State.ctxCfg_keeps (h : Keeps s0 s) : ∀ x1 x2, Keeps s0 (State.ctxCfg s x1 x2) := by
  unfold State.ctxCfg
  repeat' first
    | with_reducible assumption
    | (intro x; refine (fun (hx : Keeps s0 x) => ?_) ?_; clear_value x; rotate_left; unfold x)
    | intro x
    | (lift_lets; intro x; try (refine (fun (hx : Keeps s0 x) => ?_) ?_; clear_value x; rotate_left; unfold x))
    | with_reducible apply Keeps.ite
    | with_reducible apply State.put_keeps
    | with_reducible apply State.recheckSeg_keeps
    | with_reducible apply State.record_keeps
    | with_reducible refine Keeps.mk_ ?_ rfl rfl rfl rfl rfl rfl
    | split

theorem State.ctxBase_keeps (h : Keeps s0 s) : ∀ x1 x2, Keeps s0 (State.ctxBase s x1 x2) := by
  unfold State.ctxBase
  repeat' first
    | with_reducible assumption
    | intro x
    | with_reducible apply Keeps.ite
    | with_reducible apply State.put_keeps
    | with_reducible apply State.recheckSeg_keeps
    | with_reducible refine Keeps.mk_ ?_ rfl rfl rfl rfl rfl rfl
    | split

theorem State.ctxRelease_keeps (h : Keeps s0 s) : ∀ x1, Keeps s0 (State.ctxRelease s x1) := by
  unfold State.ctxRelease
  repeat' first
    | with_reducible assumption
    | intro x
    | with_reducible apply Keeps.ite
    | with_reducible apply State.put_keeps
    | with_reducible refine Keeps.mk_ ?_ rfl rfl rfl rfl rfl rfl
    | split

theorem State.sldCtrl_keeps (h : Keeps s0 s) : ∀ x1 x2 x3 x4, Keeps s0 (State.sldCtrl s x1 x2 x3 x4).2 := by
  unfold State.sldCtrl
  repeat' first
    | with_reducible assumption
    | (intro x; refine (fun (hx : Keeps s0 x) => ?_) ?_; clear_value x; rotate_left; unfold x)
    | intro x
    | (lift_lets; intro x; try (refine (fun (hx : Keeps s0 x) => ?_) ?_; clear_value x; rotate_left; unfold x))
    | with_reducible apply Keeps.ite
    | with_reducible apply Keeps.ite2
    | split
    | with_reducible apply State.put_keeps
    | with_reducible apply State.slideError_keeps
    | with_reducible apply State.slideStart_keeps
    | with_reducible refine Keeps.mk_ ?_ rfl rfl rfl rfl rfl rfl
    | split

theorem State.catchBand_keeps (h : Keeps s0 s) : ∀ x1 x2, Keeps s0 (State.catchBand s x1 x2) := by
  unfold State.catchBand
  repeat' first
    | with_reducible assumption
    | (intro x; refine (fun (hx : Keeps s0 x) => ?_) ?_; clear_value x; rotate_left; unfold x)
    | intro x
    | (lift_lets; intro x; try (refine (fun (hx : Keeps s0 x) => ?_) ?_; clear_value x; rotate_left; unfold x))
    | with_reducible apply Keeps.ite
    | with_reducible apply State.refuseReg_keeps
    | with_reducible apply State.markAll_keeps
    | with_reducible apply State.put_keeps
    | with_reducible refine Keeps.mk_ ?_ rfl rfl rfl rfl rfl rfl
    | split

theorem State.catchReuse_keeps (h : Keeps s0 s) : ∀ x1 x2, Keeps s0 (State.catchReuse s x1 x2) := by
  unfold State.catchReuse
  repeat' first
    | with_reducible assumption
    | (intro x; refine (fun (hx : Keeps s0 x) => ?_) ?_; clear_value x; rotate_left; unfold x)
    | intro x
    | (lift_lets; intro x; try (refine (fun (hx : Keeps s0 x) => ?_) ?_; clear_value x; rotate_left; unfold x))
    | with_reducible apply Keeps.ite
    | with_reducible apply State.refuseReg_keeps
    | with_reducible apply State.markAll_keeps
    | with_reducible apply State.put_keeps
    | with_reducible refine Keeps.mk_ ?_ rfl rfl rfl rfl rfl rfl
    | split

theorem State.laneMask_keeps (h : Keeps s0 s) : ∀ x1 x2, Keeps s0 (State.laneMask s x1 x2) := by
  unfold State.laneMask
  repeat' first
    | with_reducible assumption
    | (intro x; refine (fun (hx : Keeps s0 x) => ?_) ?_; clear_value x; rotate_left; unfold x)
    | intro x
    | (lift_lets; intro x; try (refine (fun (hx : Keeps s0 x) => ?_) ?_; clear_value x; rotate_left; unfold x))
    | with_reducible apply Keeps.ite
    | with_reducible apply State.put_keeps
    | with_reducible apply State.refuseReg_keeps
    | with_reducible refine Keeps.mk_ ?_ rfl rfl rfl rfl rfl rfl
    | split

theorem State.keepLevels_keeps (h : Keeps s0 s) : ∀ x1 x2, Keeps s0 (State.keepLevels s x1 x2) := by
  unfold State.keepLevels
  repeat' first
    | with_reducible assumption
    | (intro x; refine (fun (hx : Keeps s0 x) => ?_) ?_; clear_value x; rotate_left; unfold x)
    | intro x
    | (lift_lets; intro x; try (refine (fun (hx : Keeps s0 x) => ?_) ?_; clear_value x; rotate_left; unfold x))
    | with_reducible apply Keeps.ite
    | split
    | with_reducible apply State.setLrn_keeps
    | with_reducible refine Keeps.mk_ ?_ rfl rfl rfl rfl rfl rfl
    | split

theorem State.laneLevel_keeps (h : Keeps s0 s) : ∀ x1 x2 x3, Keeps s0 (State.laneLevel s x1 x2 x3) := by
  unfold State.laneLevel
  repeat' first
    | with_reducible assumption
    | (intro x; refine (fun (hx : Keeps s0 x) => ?_) ?_; clear_value x; rotate_left; unfold x)
    | intro x
    | (lift_lets; intro x; try (refine (fun (hx : Keeps s0 x) => ?_) ?_; clear_value x; rotate_left; unfold x))
    | with_reducible apply Keeps.ite
    | with_reducible apply State.refuseReg_keeps
    | with_reducible apply State.put_keeps
    | with_reducible apply State.keepLevels_keeps
    | with_reducible refine Keeps.getD ?_ ?_
    | with_reducible refine Keeps.mk_ ?_ rfl rfl rfl rfl rfl rfl
    | split

theorem State.laneTiming_keeps (h : Keeps s0 s) : ∀ x1 x2, Keeps s0 (State.laneTiming s x1 x2) := by
  unfold State.laneTiming
  repeat' first
    | with_reducible assumption
    | (intro x; refine (fun (hx : Keeps s0 x) => ?_) ?_; clear_value x; rotate_left; unfold x)
    | intro x
    | (lift_lets; intro x; try (refine (fun (hx : Keeps s0 x) => ?_) ?_; clear_value x; rotate_left; unfold x))
    | with_reducible apply Keeps.ite
    | with_reducible apply State.put_keeps
    | with_reducible apply State.keepLevels_keeps
    | with_reducible apply State.refuseReg_keeps
    | with_reducible refine Keeps.mk_ ?_ rfl rfl rfl rfl rfl rfl
    | split

theorem State.modCommand_keeps (h : Keeps s0 s) : ∀ x1 x2, Keeps s0 (State.modCommand s x1 x2) := by
  unfold State.modCommand
  repeat' first
    | with_reducible assumption
    | (intro x; refine (fun (hx : Keeps s0 x) => ?_) ?_; clear_value x; rotate_left; unfold x)
    | intro x
    | (lift_lets; intro x; try (refine (fun (hx : Keeps s0 x) => ?_) ?_; clear_value x; rotate_left; unfold x))
    | with_reducible apply Keeps.ite
    | split
    | with_reducible apply State.teach_keeps
    | with_reducible apply State.mark_keeps
    | with_reducible apply State.cancelMod_keeps
    | with_reducible refine Keeps.mk_ ?_ rfl rfl rfl rfl rfl rfl
    | split

theorem State.popFreeze_keeps (h : Keeps s0 s) : ∀ x1, Keeps s0 (State.popFreeze s x1) := by
  unfold State.popFreeze
  repeat' first
    | with_reducible assumption
    | (intro x; refine (fun (hx : Keeps s0 x) => ?_) ?_; clear_value x; rotate_left; unfold x)
    | intro x
    | (lift_lets; intro x; try (refine (fun (hx : Keeps s0 x) => ?_) ?_; clear_value x; rotate_left; unfold x))
    | split
    | with_reducible apply State.put_keeps
    | with_reducible apply State.setPop_keeps
    | with_reducible refine Keeps.mk_ ?_ rfl rfl rfl rfl rfl rfl
    | split

theorem State.reqDone_keeps (h : Keeps s0 s) : ∀ x1 x2, Keeps s0 (State.reqDone s x1 x2) := by
  unfold State.reqDone
  repeat' first
    | with_reducible assumption
    | intro x
    | with_reducible apply State.put_keeps
    | with_reducible refine Keeps.mk_ ?_ rfl rfl rfl rfl rfl rfl

theorem State.reqPending_keeps (h : Keeps s0 s) : ∀ x1, Keeps s0 (State.reqPending s x1) := by
  unfold State.reqPending
  repeat' first
    | with_reducible assumption
    | intro x
    | with_reducible apply State.put_keeps
    | with_reducible refine Keeps.mk_ ?_ rfl rfl rfl rfl rfl rfl

theorem State.reqOn_keeps (h : Keeps s0 s) : ∀ x1, Keeps s0 (State.reqOn s x1) := by
  unfold State.reqOn
  repeat' first
    | with_reducible assumption
    | (intro x; refine (fun (hx : Keeps s0 x) => ?_) ?_; clear_value x; rotate_left; unfold x)
    | intro x
    | (lift_lets; intro x; try (refine (fun (hx : Keeps s0 x) => ?_) ?_; clear_value x; rotate_left; unfold x))
    | with_reducible apply Keeps.ite
    | with_reducible apply State.reqDone_keeps
    | with_reducible apply State.pin_keeps
    | with_reducible apply State.wake_keeps
    | with_reducible apply State.reqPending_keeps
    | with_reducible refine Keeps.mk_ ?_ rfl rfl rfl rfl rfl rfl
    | split

theorem State.reqOff_keeps (h : Keeps s0 s) : ∀ x1 x2, Keeps s0 (State.reqOff s x1 x2) := by
  unfold State.reqOff
  repeat' first
    | with_reducible assumption
    | (intro x; refine (fun (hx : Keeps s0 x) => ?_) ?_; clear_value x; rotate_left; unfold x)
    | intro x
    | (lift_lets; intro x; try (refine (fun (hx : Keeps s0 x) => ?_) ?_; clear_value x; rotate_left; unfold x))
    | with_reducible apply Keeps.ite
    | split
    | with_reducible apply State.reqDone_keeps
    | with_reducible apply State.pin_keeps
    | with_reducible apply State.domainOff_keeps
    | with_reducible apply State.reqPending_keeps
    | with_reducible refine (State.askQuiesce_keeps ?_ _ _ ).out _ (by assumption)
    | with_reducible apply State.askQuiesce_keeps
    | with_reducible refine Keeps.mk_ ?_ rfl rfl rfl rfl rfl rfl
    | split

theorem State.reqAuto_keeps (h : Keeps s0 s) : ∀ x1, Keeps s0 (State.reqAuto s x1) := by
  unfold State.reqAuto
  repeat' first
    | with_reducible assumption
    | (intro x; refine (fun (hx : Keeps s0 x) => ?_) ?_; clear_value x; rotate_left; unfold x)
    | intro x
    | (lift_lets; intro x; try (refine (fun (hx : Keeps s0 x) => ?_) ?_; clear_value x; rotate_left; unfold x))
    | with_reducible apply Keeps.ite
    | with_reducible apply State.reqDone_keeps
    | with_reducible apply State.pin_keeps
    | with_reducible apply State.wake_keeps
    | with_reducible refine Keeps.mk_ ?_ rfl rfl rfl rfl rfl rfl
    | split

theorem State.pwrReq_keeps (h : Keeps s0 s) : ∀ x1, Keeps s0 (State.pwrReq s x1) := by
  unfold State.pwrReq
  repeat' first
    | with_reducible assumption
    | (intro x; refine (fun (hx : Keeps s0 x) => ?_) ?_; clear_value x; rotate_left; unfold x)
    | intro x
    | (lift_lets; intro x; try (refine (fun (hx : Keeps s0 x) => ?_) ?_; clear_value x; rotate_left; unfold x))
    | with_reducible apply Keeps.ite
    | split
    | with_reducible apply State.put_keeps
    | with_reducible apply State.reqAuto_keeps
    | with_reducible apply State.reqOn_keeps
    | with_reducible apply State.reqOff_keeps
    | with_reducible refine Keeps.mk_ ?_ rfl rfl rfl rfl rfl rfl
    | split

theorem State.rptCons_keeps (h : Keeps s0 s) : ∀ x1 x2, Keeps s0 (State.rptCons s x1 x2) := by
  unfold State.rptCons
  repeat' first
    | with_reducible assumption
    | (intro x; refine (fun (hx : Keeps s0 x) => ?_) ?_; clear_value x; rotate_left; unfold x)
    | intro x
    | (lift_lets; intro x; try (refine (fun (hx : Keeps s0 x) => ?_) ?_; clear_value x; rotate_left; unfold x))
    | with_reducible apply Keeps.ite
    | with_reducible apply State.refuseReg_keeps
    | with_reducible apply State.drainAll_keeps
    | with_reducible apply State.put_keeps
    | with_reducible refine Keeps.mk_ ?_ rfl rfl rfl rfl rfl rfl
    | split

theorem State.rptBase_keeps (h : Keeps s0 s) : ∀ x1 x2, Keeps s0 (State.rptBase s x1 x2) := by
  unfold State.rptBase
  repeat' first
    | with_reducible assumption
    | intro x
    | with_reducible apply State.drainAll_keeps
    | with_reducible apply State.put_keeps
    | with_reducible refine Keeps.mk_ ?_ rfl rfl rfl rfl rfl rfl

theorem State.mbCfg_keeps (h : Keeps s0 s) : ∀ x1 x2 x3, Keeps s0 (State.mbCfg s x1 x2 x3) := by
  unfold State.mbCfg
  repeat' first
    | with_reducible assumption
    | (intro x; refine (fun (hx : Keeps s0 x) => ?_) ?_; clear_value x; rotate_left; unfold x)
    | intro x
    | (lift_lets; intro x; try (refine (fun (hx : Keeps s0 x) => ?_) ?_; clear_value x; rotate_left; unfold x))
    | with_reducible apply Keeps.ite
    | with_reducible apply State.plainWrite_keeps
    | with_reducible apply State.put_keeps
    | with_reducible apply State.mbAll_keeps
    | with_reducible refine Keeps.mk_ ?_ rfl rfl rfl rfl rfl rfl
    | split

theorem State.panelSelect_keeps (h : Keeps s0 s) : ∀ x1, Keeps s0 (State.panelSelect s x1) := by
  unfold State.panelSelect
  repeat' first
    | with_reducible assumption
    | (intro x; refine (fun (hx : Keeps s0 x) => ?_) ?_; clear_value x; rotate_left; unfold x)
    | intro x
    | (lift_lets; intro x; try (refine (fun (hx : Keeps s0 x) => ?_) ?_; clear_value x; rotate_left; unfold x))
    | with_reducible apply Keeps.ite
    | with_reducible apply State.select_keeps
    | with_reducible apply State.refuseReg_keeps
    | with_reducible refine Keeps.mk_ ?_ rfl rfl rfl rfl rfl rfl
    | split

theorem State.buzzCtrl_keeps (h : Keeps s0 s) : ∀ x1, Keeps s0 (State.buzzCtrl s x1) := by
  unfold State.buzzCtrl
  repeat' first
    | with_reducible assumption
    | (intro x; refine (fun (hx : Keeps s0 x) => ?_) ?_; clear_value x; rotate_left; unfold x)
    | intro x
    | (lift_lets; intro x; try (refine (fun (hx : Keeps s0 x) => ?_) ?_; clear_value x; rotate_left; unfold x))
    | with_reducible apply Keeps.ite
    | with_reducible apply State.silence_keeps
    | with_reducible refine Keeps.mk_ ?_ rfl rfl rfl rfl rfl rfl
    | split

theorem State.errCons_keeps (h : Keeps s0 s) : ∀ x1 x2, Keeps s0 (State.errCons s x1 x2) := by
  unfold State.errCons
  repeat' first
    | with_reducible assumption
    | (intro x; refine (fun (hx : Keeps s0 x) => ?_) ?_; clear_value x; rotate_left; unfold x)
    | intro x
    | (lift_lets; intro x; try (refine (fun (hx : Keeps s0 x) => ?_) ?_; clear_value x; rotate_left; unfold x))
    | with_reducible apply Keeps.ite
    | with_reducible apply State.put_keeps
    | with_reducible refine Keeps.mk_ ?_ rfl rfl rfl rfl rfl rfl
    | split

theorem State.unitDone_keeps (h : Keeps s0 s) : ∀ x1 x2, Keeps s0 (State.unitDone s x1 x2) := by
  unfold State.unitDone
  repeat' first
    | with_reducible assumption
    | intro x
    | with_reducible apply State.put_keeps
    | with_reducible refine Keeps.mk_ ?_ rfl rfl rfl rfl rfl rfl

theorem State.unitCmd_keeps (h : Keeps s0 s) : ∀ x1, Keeps s0 (State.unitCmd s x1) := by
  unfold State.unitCmd
  repeat' first
    | with_reducible assumption
    | (intro x; refine (fun (hx : Keeps s0 x) => ?_) ?_; clear_value x; rotate_left; unfold x)
    | intro x
    | (lift_lets; intro x; try (refine (fun (hx : Keeps s0 x) => ?_) ?_; clear_value x; rotate_left; unfold x))
    | with_reducible apply Keeps.ite
    | split
    | with_reducible apply State.unitDone_keeps
    | with_reducible apply State.put_keeps
    | with_reducible apply State.mbAll_keeps
    | with_reducible refine (State.askQuiesce_keeps ?_ _ _ ).out _ (by assumption)
    | with_reducible apply State.askQuiesce_keeps
    | with_reducible refine Keeps.mk_ ?_ rfl rfl rfl rfl rfl rfl
    | split

theorem State.commitReg_keeps (h : Keeps s0 s) : ∀ x1 x2 x3 x4 x5, Keeps s0 (State.commitReg s x1 x2 x3 x4 x5).2 := by
  unfold State.commitReg
  repeat' first
    | with_reducible assumption
    | (intro x; refine (fun (hx : Keeps s0 x) => ?_) ?_; clear_value x; rotate_left; unfold x)
    | intro x
    | (lift_lets; intro x; try (refine (fun (hx : Keeps s0 x) => ?_) ?_; clear_value x; rotate_left; unfold x))
    | with_reducible apply Keeps.ite
    | with_reducible apply Keeps.ite2
    | with_reducible apply State.fqHead_keeps
    | with_reducible apply State.resume_keeps
    | with_reducible apply State.invalidate_keeps
    | with_reducible apply State.ctxCfg_keeps
    | with_reducible apply State.ctxBase_keeps
    | with_reducible apply State.ctxRelease_keeps
    | with_reducible apply State.sldCtrl_keeps
    | with_reducible apply State.catchReuse_keeps
    | with_reducible apply State.catchBand_keeps
    | with_reducible apply State.mbAll_keeps
    | with_reducible apply State.pwrReq_keeps
    | with_reducible apply State.laneMask_keeps
    | with_reducible apply State.laneLevel_keeps
    | with_reducible apply State.laneTiming_keeps
    | with_reducible apply State.popFreeze_keeps
    | with_reducible apply State.modCommand_keeps
    | with_reducible apply State.bhCommand_keeps
    | with_reducible apply State.rptBase_keeps
    | with_reducible apply State.rptCons_keeps
    | with_reducible apply State.mbCfg_keeps
    | with_reducible apply State.put_keeps
    | with_reducible apply State.panelSelect_keeps
    | with_reducible apply State.buzzCtrl_keeps
    | with_reducible apply State.errCons_keeps
    | with_reducible apply State.restartPart_keeps
    | with_reducible apply State.unitCmd_keeps
    | with_reducible apply State.plainWrite_keeps
    | with_reducible refine Keeps.of_pair (by assumption) ?_
    | with_reducible refine Keeps.mk_ ?_ rfl rfl rfl rfl rfl rfl
    | split

theorem State.regWrite_keeps (h : Keeps s0 s) : ∀ x1 x2 x3 x4 x5 x6, Keeps s0 (State.regWrite s x1 x2 x3 x4 x5 x6).2 := by
  unfold State.regWrite
  repeat' first
    | with_reducible assumption
    | (intro x; refine (fun (hx : Keeps s0 x) => ?_) ?_; clear_value x; rotate_left; unfold x)
    | intro x
    | (lift_lets; intro x; try (refine (fun (hx : Keeps s0 x) => ?_) ?_; clear_value x; rotate_left; unfold x))
    | with_reducible apply Keeps.ite
    | with_reducible apply Keeps.ite2
    | split
    | with_reducible apply State.commitReg_keeps
    | with_reducible apply State.setHold_keeps
    | with_reducible refine Keeps.foldl2 ?_ ?_
    | with_reducible refine Keeps.foldl ?_ ?_
    | with_reducible refine Keeps.of_pair (by assumption) ?_
    | with_reducible refine Keeps.mk_ ?_ rfl rfl rfl rfl rfl rfl
    | split

theorem State.viewWrite_keeps (h : Keeps s0 s) : ∀ x1 x2 x3 x4, Keeps s0 (State.viewWrite s x1 x2 x3 x4).2 := by
  unfold State.viewWrite
  repeat' first
    | with_reducible assumption
    | (intro x; refine (fun (hx : Keeps s0 x) => ?_) ?_; clear_value x; rotate_left; unfold x)
    | intro x
    | (lift_lets; intro x; try (refine (fun (hx : Keeps s0 x) => ?_) ?_; clear_value x; rotate_left; unfold x))
    | with_reducible apply Keeps.ite
    | with_reducible apply Keeps.ite2
    | split
    | with_reducible apply State.regGate_keeps
    | with_reducible apply State.hiddenWrite_keeps
    | with_reducible apply State.regWrite_keeps
    | with_reducible refine Keeps.of_pair (by assumption) ?_
    | with_reducible refine Keeps.mk_ ?_ rfl rfl rfl rfl rfl rfl
    | split

theorem State.busWrite_keeps (h : Keeps s0 s) : ∀ x1 x2 x3 x4, Keeps s0 (State.busWrite s x1 x2 x3 x4) := by
  unfold State.busWrite
  repeat' first
    | with_reducible assumption
    | (intro x; refine (fun (hx : Keeps s0 x) => ?_) ?_; clear_value x; rotate_left; unfold x)
    | intro x
    | (lift_lets; intro x; try (refine (fun (hx : Keeps s0 x) => ?_) ?_; clear_value x; rotate_left; unfold x))
    | with_reducible apply State.viewWrite_keeps
    | with_reducible apply State.regAnswer_keeps
    | with_reducible refine Keeps.of_pair (by assumption) ?_
    | with_reducible refine Keeps.mk_ ?_ rfl rfl rfl rfl rfl rfl

end Sys2Proof.Machine
end

