-- ==== Sys2Proof/Laws/KeepsRegisters.lean ====
section
/-!
SUPPORT. What every operation of Machine/Registers.lean keeps (see Laws/Keeps.lean).
-/
namespace Sys2Proof.Machine

set_option Elab.async false
set_option linter.unreachableTactic false
set_option linter.unusedTactic false

variable {s0 s t : State}

theorem execReg64LowWrite_keeps (h : Keeps s0 s) : ∀ x0 x1 x2, KeepsE s0 (execReg64LowWrite x0 x1 x2 s) := by
  unfold execReg64LowWrite
  repeat' first
    | with_reducible assumption
    | intro x
    | with_reducible refine KeepsE.next ?_
    | with_reducible apply State.busWrite_keeps
    | with_reducible apply State.start_keeps
    | with_reducible refine Keeps.mk_ ?_ rfl rfl rfl rfl rfl rfl

theorem execReg64HighWrite_keeps (h : Keeps s0 s) : ∀ x0 x1 x2, KeepsE s0 (execReg64HighWrite x0 x1 x2 s) := by
  unfold execReg64HighWrite
  repeat' first
    | with_reducible assumption
    | intro x
    | with_reducible refine KeepsE.next ?_
    | with_reducible apply State.busWrite_keeps
    | with_reducible apply State.start_keeps
    | with_reducible refine Keeps.mk_ ?_ rfl rfl rfl rfl rfl rfl

theorem execReg64LowRead_keeps (h : Keeps s0 s) : ∀ x0 x1, KeepsE s0 (execReg64LowRead x0 x1 s) := by
  unfold execReg64LowRead
  repeat' first
    | with_reducible assumption
    | intro x
    | with_reducible refine KeepsE.next ?_
    | with_reducible apply State.busRead_keeps
    | with_reducible apply State.start_keeps
    | with_reducible refine Keeps.mk_ ?_ rfl rfl rfl rfl rfl rfl

theorem execReg64HighRead_keeps (h : Keeps s0 s) : ∀ x0 x1, KeepsE s0 (execReg64HighRead x0 x1 s) := by
  unfold execReg64HighRead
  repeat' first
    | with_reducible assumption
    | intro x
    | with_reducible refine KeepsE.next ?_
    | with_reducible apply State.busRead_keeps
    | with_reducible apply State.start_keeps
    | with_reducible refine Keeps.mk_ ?_ rfl rfl rfl rfl rfl rfl

theorem execRegisterWrite_keeps (h : Keeps s0 s) : ∀ x0 x1 x2 x3, KeepsE s0 (execRegisterWrite x0 x1 x2 x3 s) := by
  unfold execRegisterWrite
  repeat' first
    | with_reducible assumption
    | intro x
    | with_reducible refine KeepsE.next ?_
    | with_reducible apply State.busWrite_keeps
    | with_reducible apply State.start_keeps
    | with_reducible refine Keeps.mk_ ?_ rfl rfl rfl rfl rfl rfl

theorem execRegisterRead_keeps (h : Keeps s0 s) : ∀ x0 x1 x2 x3, KeepsE s0 (execRegisterRead x0 x1 x2 x3 s) := by
  unfold execRegisterRead
  repeat' first
    | with_reducible assumption
    | intro x
    | with_reducible refine KeepsE.next ?_
    | with_reducible apply State.busRead_keeps
    | with_reducible apply State.start_keeps
    | with_reducible refine Keeps.mk_ ?_ rfl rfl rfl rfl rfl rfl

theorem execXluFqHeadWrite_keeps (h : Keeps s0 s) : ∀ x0 x1 x2, KeepsE s0 (execXluFqHeadWrite x0 x1 x2 s) := by
  unfold execXluFqHeadWrite
  repeat' first
    | with_reducible assumption
    | intro x
    | with_reducible refine KeepsE.next ?_
    | with_reducible apply State.busWrite_keeps
    | with_reducible apply State.start_keeps
    | with_reducible refine Keeps.mk_ ?_ rfl rfl rfl rfl rfl rfl

theorem execFqResumeRetry_keeps (h : Keeps s0 s) : ∀ x0 x1 x2, KeepsE s0 (execFqResumeRetry x0 x1 x2 s) := by
  unfold execFqResumeRetry
  repeat' first
    | with_reducible assumption
    | intro x
    | with_reducible refine KeepsE.next ?_
    | with_reducible apply State.busWrite_keeps
    | with_reducible apply State.start_keeps
    | with_reducible refine Keeps.mk_ ?_ rfl rfl rfl rfl rfl rfl

theorem execFqResumeAbort_keeps (h : Keeps s0 s) : ∀ x0 x1 x2, KeepsE s0 (execFqResumeAbort x0 x1 x2 s) := by
  unfold execFqResumeAbort
  repeat' first
    | with_reducible assumption
    | intro x
    | with_reducible refine KeepsE.next ?_
    | with_reducible apply State.busWrite_keeps
    | with_reducible apply State.start_keeps
    | with_reducible refine Keeps.mk_ ?_ rfl rfl rfl rfl rfl rfl

theorem execCtxRelease_keeps (h : Keeps s0 s) : ∀ x0 x1, KeepsE s0 (execCtxRelease x0 x1 s) := by
  unfold execCtxRelease
  repeat' first
    | with_reducible assumption
    | intro x
    | with_reducible refine KeepsE.next ?_
    | with_reducible apply State.busWrite_keeps
    | with_reducible apply State.start_keeps
    | with_reducible refine Keeps.mk_ ?_ rfl rfl rfl rfl rfl rfl

theorem execXluCtxCfgWrite_keeps (h : Keeps s0 s) : ∀ x0 x1 x2, KeepsE s0 (execXluCtxCfgWrite x0 x1 x2 s) := by
  unfold execXluCtxCfgWrite
  repeat' first
    | with_reducible assumption
    | intro x
    | with_reducible refine KeepsE.next ?_
    | with_reducible apply State.busWrite_keeps
    | with_reducible apply State.start_keeps
    | with_reducible refine Keeps.mk_ ?_ rfl rfl rfl rfl rfl rfl

theorem execInvContext_keeps (h : Keeps s0 s) : ∀ x0 x1 x2, KeepsE s0 (execInvContext x0 x1 x2 s) := by
  unfold execInvContext
  repeat' first
    | with_reducible assumption
    | intro x
    | with_reducible refine KeepsE.next ?_
    | with_reducible apply State.busWrite_keeps
    | with_reducible apply State.start_keeps
    | with_reducible refine Keeps.mk_ ?_ rfl rfl rfl rfl rfl rfl

theorem execInvRange_keeps (h : Keeps s0 s) : ∀ x0 x1 x2, KeepsE s0 (execInvRange x0 x1 x2 s) := by
  unfold execInvRange
  repeat' first
    | with_reducible assumption
    | intro x
    | with_reducible refine KeepsE.next ?_
    | with_reducible apply State.busWrite_keeps
    | with_reducible apply State.start_keeps
    | with_reducible refine Keeps.mk_ ?_ rfl rfl rfl rfl rfl rfl

theorem execInvPartition_keeps (h : Keeps s0 s) : ∀ x0 x1, KeepsE s0 (execInvPartition x0 x1 s) := by
  unfold execInvPartition
  repeat' first
    | with_reducible assumption
    | intro x
    | with_reducible refine KeepsE.next ?_
    | with_reducible apply State.busWrite_keeps
    | with_reducible apply State.start_keeps
    | with_reducible refine Keeps.mk_ ?_ rfl rfl rfl rfl rfl rfl

theorem execInvStage2_keeps (h : Keeps s0 s) : ∀ x0 x1, KeepsE s0 (execInvStage2 x0 x1 s) := by
  unfold execInvStage2
  repeat' first
    | with_reducible assumption
    | intro x
    | with_reducible refine KeepsE.next ?_
    | with_reducible apply State.busWrite_keeps
    | with_reducible apply State.start_keeps
    | with_reducible refine Keeps.mk_ ?_ rfl rfl rfl rfl rfl rfl

theorem execSldStart_keeps (h : Keeps s0 s) : ∀ x0 x1 x2, KeepsE s0 (execSldStart x0 x1 x2 s) := by
  unfold execSldStart
  repeat' first
    | with_reducible assumption
    | intro x
    | with_reducible refine KeepsE.next ?_
    | with_reducible apply State.busWrite_keeps
    | with_reducible apply State.start_keeps
    | with_reducible refine Keeps.mk_ ?_ rfl rfl rfl rfl rfl rfl

theorem execSldAbort_keeps (h : Keeps s0 s) : ∀ x0 x1, KeepsE s0 (execSldAbort x0 x1 s) := by
  unfold execSldAbort
  repeat' first
    | with_reducible assumption
    | intro x
    | with_reducible refine KeepsE.next ?_
    | with_reducible apply State.busWrite_keeps
    | with_reducible apply State.start_keeps
    | with_reducible refine Keeps.mk_ ?_ rfl rfl rfl rfl rfl rfl

theorem execCatchBandWrite_keeps (h : Keeps s0 s) : ∀ x0 x1 x2, KeepsE s0 (execCatchBandWrite x0 x1 x2 s) := by
  unfold execCatchBandWrite
  repeat' first
    | with_reducible assumption
    | intro x
    | with_reducible refine KeepsE.next ?_
    | with_reducible apply State.busWrite_keeps
    | with_reducible apply State.start_keeps
    | with_reducible refine Keeps.mk_ ?_ rfl rfl rfl rfl rfl rfl

theorem execCatchReuseCfgWrite_keeps (h : Keeps s0 s) : ∀ x0 x1 x2, KeepsE s0 (execCatchReuseCfgWrite x0 x1 x2 s) := by
  unfold execCatchReuseCfgWrite
  repeat' first
    | with_reducible assumption
    | intro x
    | with_reducible refine KeepsE.next ?_
    | with_reducible apply State.busWrite_keeps
    | with_reducible apply State.start_keeps
    | with_reducible refine Keeps.mk_ ?_ rfl rfl rfl rfl rfl rfl

theorem execCatchAggrMaxWrite_keeps (h : Keeps s0 s) : ∀ x0 x1 x2, KeepsE s0 (execCatchAggrMaxWrite x0 x1 x2 s) := by
  unfold execCatchAggrMaxWrite
  repeat' first
    | with_reducible assumption
    | intro x
    | with_reducible refine KeepsE.next ?_
    | with_reducible apply State.busWrite_keeps
    | with_reducible apply State.start_keeps
    | with_reducible refine Keeps.mk_ ?_ rfl rfl rfl rfl rfl rfl

theorem execPwrReqAuto_keeps (h : Keeps s0 s) : ∀ x0 x1, KeepsE s0 (execPwrReqAuto x0 x1 s) := by
  unfold execPwrReqAuto
  repeat' first
    | with_reducible assumption
    | intro x
    | with_reducible refine KeepsE.next ?_
    | with_reducible apply State.busWrite_keeps
    | with_reducible apply State.start_keeps
    | with_reducible refine Keeps.mk_ ?_ rfl rfl rfl rfl rfl rfl

theorem execPwrReqOn_keeps (h : Keeps s0 s) : ∀ x0 x1, KeepsE s0 (execPwrReqOn x0 x1 s) := by
  unfold execPwrReqOn
  repeat' first
    | with_reducible assumption
    | intro x
    | with_reducible refine KeepsE.next ?_
    | with_reducible apply State.busWrite_keeps
    | with_reducible apply State.start_keeps
    | with_reducible refine Keeps.mk_ ?_ rfl rfl rfl rfl rfl rfl

theorem execPwrReqOff_keeps (h : Keeps s0 s) : ∀ x0 x1, KeepsE s0 (execPwrReqOff x0 x1 s) := by
  unfold execPwrReqOff
  repeat' first
    | with_reducible assumption
    | intro x
    | with_reducible refine KeepsE.next ?_
    | with_reducible apply State.busWrite_keeps
    | with_reducible apply State.start_keeps
    | with_reducible refine Keeps.mk_ ?_ rfl rfl rfl rfl rfl rfl

theorem execPwrReqForceOff_keeps (h : Keeps s0 s) : ∀ x0 x1, KeepsE s0 (execPwrReqForceOff x0 x1 s) := by
  unfold execPwrReqForceOff
  repeat' first
    | with_reducible assumption
    | intro x
    | with_reducible refine KeepsE.next ?_
    | with_reducible apply State.busWrite_keeps
    | with_reducible apply State.start_keeps
    | with_reducible refine Keeps.mk_ ?_ rfl rfl rfl rfl rfl rfl

theorem execLaneReportMaskWrite_keeps (h : Keeps s0 s) : ∀ x0 x1 x2, KeepsE s0 (execLaneReportMaskWrite x0 x1 x2 s) := by
  unfold execLaneReportMaskWrite
  repeat' first
    | with_reducible assumption
    | intro x
    | with_reducible refine KeepsE.next ?_
    | with_reducible apply State.busWrite_keeps
    | with_reducible apply State.start_keeps
    | with_reducible refine Keeps.mk_ ?_ rfl rfl rfl rfl rfl rfl

theorem execLaneLevelWrite_keeps (h : Keeps s0 s) : ∀ x0 x1 x2 x3, KeepsE s0 (execLaneLevelWrite x0 x1 x2 x3 s) := by
  unfold execLaneLevelWrite
  repeat' first
    | with_reducible assumption
    | intro x
    | with_reducible refine KeepsE.next ?_
    | with_reducible apply State.busWrite_keeps
    | with_reducible apply State.start_keeps
    | with_reducible refine Keeps.mk_ ?_ rfl rfl rfl rfl rfl rfl

theorem execLaneTimingWrite_keeps (h : Keeps s0 s) : ∀ x0 x1 x2, KeepsE s0 (execLaneTimingWrite x0 x1 x2 s) := by
  unfold execLaneTimingWrite
  repeat' first
    | with_reducible assumption
    | intro x
    | with_reducible refine KeepsE.next ?_
    | with_reducible apply State.busWrite_keeps
    | with_reducible apply State.start_keeps
    | with_reducible refine Keeps.mk_ ?_ rfl rfl rfl rfl rfl rfl

theorem execLrnModTeach_keeps (h : Keeps s0 s) : ∀ x0 x1, KeepsE s0 (execLrnModTeach x0 x1 s) := by
  unfold execLrnModTeach
  repeat' first
    | with_reducible assumption
    | intro x
    | with_reducible refine KeepsE.next ?_
    | with_reducible apply State.busWrite_keeps
    | with_reducible apply State.start_keeps
    | with_reducible refine Keeps.mk_ ?_ rfl rfl rfl rfl rfl rfl

theorem execLrnModMark_keeps (h : Keeps s0 s) : ∀ x0 x1, KeepsE s0 (execLrnModMark x0 x1 s) := by
  unfold execLrnModMark
  repeat' first
    | with_reducible assumption
    | intro x
    | with_reducible refine KeepsE.next ?_
    | with_reducible apply State.busWrite_keeps
    | with_reducible apply State.start_keeps
    | with_reducible refine Keeps.mk_ ?_ rfl rfl rfl rfl rfl rfl

theorem execLrnModCancel_keeps (h : Keeps s0 s) : ∀ x0 x1, KeepsE s0 (execLrnModCancel x0 x1 s) := by
  unfold execLrnModCancel
  repeat' first
    | with_reducible assumption
    | intro x
    | with_reducible refine KeepsE.next ?_
    | with_reducible apply State.busWrite_keeps
    | with_reducible apply State.start_keeps
    | with_reducible refine Keeps.mk_ ?_ rfl rfl rfl rfl rfl rfl

theorem execPopFreezeWrite_keeps (h : Keeps s0 s) : ∀ x0 x1, KeepsE s0 (execPopFreezeWrite x0 x1 s) := by
  unfold execPopFreezeWrite
  repeat' first
    | with_reducible assumption
    | intro x
    | with_reducible refine KeepsE.next ?_
    | with_reducible apply State.busWrite_keeps
    | with_reducible apply State.start_keeps
    | with_reducible refine Keeps.mk_ ?_ rfl rfl rfl rfl rfl rfl

theorem execBhCkptCmd_keeps (h : Keeps s0 s) : ∀ x0 x1, KeepsE s0 (execBhCkptCmd x0 x1 s) := by
  unfold execBhCkptCmd
  repeat' first
    | with_reducible assumption
    | intro x
    | with_reducible refine KeepsE.next ?_
    | with_reducible apply State.busWrite_keeps
    | with_reducible apply State.start_keeps
    | with_reducible refine Keeps.mk_ ?_ rfl rfl rfl rfl rfl rfl

theorem State.hostBytes_keeps (h : Keeps s0 s) : ∀ x1 x2, Keeps s0 (State.hostBytes s x1 x2) := by
  unfold State.hostBytes
  repeat' first
    | with_reducible assumption
    | intro x
    | with_reducible apply Keeps.ite
    | with_reducible apply State.writeBytes_keeps
    | with_reducible refine Keeps.foldl ?_ ?_
    | with_reducible refine Keeps.mk_ ?_ rfl rfl rfl rfl rfl rfl
    | split

theorem execHostMbTailWrite_keeps (h : Keeps s0 s) : ∀ x0 x1 x2 x3, KeepsE s0 (execHostMbTailWrite x0 x1 x2 x3 s) := by
  unfold execHostMbTailWrite
  repeat' first
    | with_reducible assumption
    | intro x
    | with_reducible refine KeepsE.next ?_
    | with_reducible apply State.busWrite_keeps
    | with_reducible apply State.hostBytes_keeps
    | with_reducible apply State.start_keeps
    | with_reducible refine Keeps.mk_ ?_ rfl rfl rfl rfl rfl rfl

theorem execHostMbCfgWrite_keeps (h : Keeps s0 s) : ∀ x0 x1 x2, KeepsE s0 (execHostMbCfgWrite x0 x1 x2 s) := by
  unfold execHostMbCfgWrite
  repeat' first
    | with_reducible assumption
    | intro x
    | with_reducible refine KeepsE.next ?_
    | with_reducible apply State.busWrite_keeps
    | with_reducible apply State.start_keeps
    | with_reducible refine Keeps.mk_ ?_ rfl rfl rfl rfl rfl rfl

theorem execHostMbCqHeadWrite_keeps (h : Keeps s0 s) : ∀ x0 x1 x2, KeepsE s0 (execHostMbCqHeadWrite x0 x1 x2 s) := by
  unfold execHostMbCqHeadWrite
  repeat' first
    | with_reducible assumption
    | intro x
    | with_reducible refine KeepsE.next ?_
    | with_reducible apply State.busWrite_keeps
    | with_reducible apply State.start_keeps
    | with_reducible refine Keeps.mk_ ?_ rfl rfl rfl rfl rfl rfl

theorem execRptRingConsWrite_keeps (h : Keeps s0 s) : ∀ x0 x1 x2, KeepsE s0 (execRptRingConsWrite x0 x1 x2 s) := by
  unfold execRptRingConsWrite
  repeat' first
    | with_reducible assumption
    | intro x
    | with_reducible refine KeepsE.next ?_
    | with_reducible apply State.busWrite_keeps
    | with_reducible apply State.start_keeps
    | with_reducible refine Keeps.mk_ ?_ rfl rfl rfl rfl rfl rfl

theorem execRptRingBaseWrite_keeps (h : Keeps s0 s) : ∀ x0 x1 x2, KeepsE s0 (execRptRingBaseWrite x0 x1 x2 s) := by
  unfold execRptRingBaseWrite
  repeat' first
    | with_reducible assumption
    | (intro x; refine (fun (hx : Keeps s0 x) => ?_) ?_; clear_value x; rotate_left; unfold x)
    | intro x
    | (lift_lets; intro x; try (refine (fun (hx : Keeps s0 x) => ?_) ?_; clear_value x; rotate_left; unfold x))
    | with_reducible refine KeepsE.next ?_
    | with_reducible apply State.busWrite_keeps
    | with_reducible apply State.start_keeps
    | with_reducible refine Keeps.mk_ ?_ rfl rfl rfl rfl rfl rfl

theorem execPnlSelWrite_keeps (h : Keeps s0 s) : ∀ x0 x1, KeepsE s0 (execPnlSelWrite x0 x1 s) := by
  unfold execPnlSelWrite
  repeat' first
    | with_reducible assumption
    | intro x
    | with_reducible refine KeepsE.next ?_
    | with_reducible apply State.busWrite_keeps
    | with_reducible apply State.start_keeps
    | with_reducible refine Keeps.mk_ ?_ rfl rfl rfl rfl rfl rfl

theorem execBuzzerSilence_keeps (h : Keeps s0 s) : ∀ x0, KeepsE s0 (execBuzzerSilence x0 s) := by
  unfold execBuzzerSilence
  repeat' first
    | with_reducible assumption
    | intro x
    | with_reducible refine KeepsE.next ?_
    | with_reducible apply State.busWrite_keeps
    | with_reducible apply State.start_keeps
    | with_reducible refine Keeps.mk_ ?_ rfl rfl rfl rfl rfl rfl

theorem execBuzzerTest_keeps (h : Keeps s0 s) : ∀ x0, KeepsE s0 (execBuzzerTest x0 s) := by
  unfold execBuzzerTest
  repeat' first
    | with_reducible assumption
    | intro x
    | with_reducible refine KeepsE.next ?_
    | with_reducible apply State.busWrite_keeps
    | with_reducible apply State.start_keeps
    | with_reducible refine Keeps.mk_ ?_ rfl rfl rfl rfl rfl rfl

theorem execErrConsWrite_keeps (h : Keeps s0 s) : ∀ x0 x1 x2, KeepsE s0 (execErrConsWrite x0 x1 x2 s) := by
  unfold execErrConsWrite
  repeat' first
    | with_reducible assumption
    | intro x
    | with_reducible refine KeepsE.next ?_
    | with_reducible apply State.busWrite_keeps
    | with_reducible apply State.start_keeps
    | with_reducible refine Keeps.mk_ ?_ rfl rfl rfl rfl rfl rfl

theorem execErrUnitReset_keeps (h : Keeps s0 s) : ∀ x0 x1, KeepsE s0 (execErrUnitReset x0 x1 s) := by
  unfold execErrUnitReset
  repeat' first
    | with_reducible assumption
    | intro x
    | with_reducible refine KeepsE.next ?_
    | with_reducible apply State.busWrite_keeps
    | with_reducible apply State.start_keeps
    | with_reducible refine Keeps.mk_ ?_ rfl rfl rfl rfl rfl rfl

theorem execErrUnitUpdate_keeps (h : Keeps s0 s) : ∀ x0 x1, KeepsE s0 (execErrUnitUpdate x0 x1 s) := by
  unfold execErrUnitUpdate
  repeat' first
    | with_reducible assumption
    | intro x
    | with_reducible refine KeepsE.next ?_
    | with_reducible apply State.busWrite_keeps
    | with_reducible apply State.start_keeps
    | with_reducible refine Keeps.mk_ ?_ rfl rfl rfl rfl rfl rfl

theorem execPartitionRestart_keeps (h : Keeps s0 s) : ∀ x0 x1, KeepsE s0 (execPartitionRestart x0 x1 s) := by
  unfold execPartitionRestart
  repeat' first
    | with_reducible assumption
    | intro x
    | with_reducible refine KeepsE.next ?_
    | with_reducible apply State.busWrite_keeps
    | with_reducible apply State.start_keeps
    | with_reducible refine Keeps.mk_ ?_ rfl rfl rfl rfl rfl rfl

end Sys2Proof.Machine
end

