-- ==== Sys2Proof/Laws/KeepsResponses.lean ====
section
/-!
SUPPORT. What every operation of Machine/Responses.lean keeps (see Laws/Keeps.lean).
-/
namespace Sys2Proof.Machine

set_option Elab.async false
set_option linter.unreachableTactic false
set_option linter.unusedTactic false

variable {s0 s t : State}

theorem State.taskError_keeps (h : Keeps s0 s) : ∀ x1 x2, Keeps s0 (State.taskError s x1 x2) := by
  unfold State.taskError
  repeat' first
    | with_reducible assumption
    | (intro x; refine (fun (hx : Keeps s0 x) => ?_) ?_; clear_value x; rotate_left; unfold x)
    | intro x
    | (lift_lets; intro x; try (refine (fun (hx : Keeps s0 x) => ?_) ?_; clear_value x; rotate_left; unfold x))
    | split
    | with_reducible apply State.attemptEnd_keeps
    | with_reducible refine Keeps.mk_ ?_ rfl rfl rfl rfl rfl rfl
    | split

theorem State.respond_keeps (h : Keeps s0 s) : ∀ x1 x2 x3 x4, Keeps s0 (State.respond s x1 x2 x3 x4) := by
  unfold State.respond
  repeat' first
    | with_reducible assumption
    | (intro x; refine (fun (hx : Keeps s0 x) => ?_) ?_; clear_value x; rotate_left; unfold x)
    | intro x
    | (lift_lets; intro x; try (refine (fun (hx : Keeps s0 x) => ?_) ?_; clear_value x; rotate_left; unfold x))
    | with_reducible refine Keeps.mk_ ?_ rfl rfl rfl rfl rfl rfl

theorem State.dbgEnd_keeps (h : Keeps s0 s) : ∀ x1 x2 x3, Keeps s0 (State.dbgEnd s x1 x2 x3) := by
  unfold State.dbgEnd
  repeat' first
    | with_reducible assumption
    | (intro x; refine (fun (hx : Keeps s0 x) => ?_) ?_; clear_value x; rotate_left; unfold x)
    | intro x
    | (lift_lets; intro x; try (refine (fun (hx : Keeps s0 x) => ?_) ?_; clear_value x; rotate_left; unfold x))
    | with_reducible apply Keeps.ite
    | split
    | with_reducible apply State.respond_keeps
    | with_reducible refine Keeps.mk_ ?_ rfl rfl rfl rfl rfl rfl
    | split

theorem State.dataTo_keeps (h : Keeps s0 s) : ∀ x1 x2 x3 x4, Keeps s0 (State.dataTo s x1 x2 x3 x4) := by
  intro w a d g
  cases w with
  | agent n => exact Keeps.ite (State.setPend_keeps h _ _ _) (State.install_keeps h _ _ _ _ _)
  | slide e => exact State.slideData_keeps h _ _ _ _
  | task n =>
    simp only [State.dataTo]
    split
    · exact Keeps.ite h (State.setTask_keeps h _ _)
    · exact h
  | unit u => exact Keeps.ite (State.dbgEnd_keeps h _ _ _) h

theorem State.agentError_keeps (h : Keeps s0 s) : ∀ x1 x2, Keeps s0 (State.agentError s x1 x2) := by
  unfold State.agentError
  repeat' first
    | with_reducible assumption
    | intro x
    | with_reducible apply Keeps.ite
    | with_reducible apply State.taskError_keeps
    | with_reducible refine Keeps.mk_ ?_ rfl rfl rfl rfl rfl rfl
    | split

theorem State.ackTo_keeps (h : Keeps s0 s) : ∀ x1 x2 x3, Keeps s0 (State.ackTo s x1 x2 x3) := by
  intro w a st
  cases w with
  | agent n =>
    simp only [State.ackTo]
    refine Keeps.ite ?_ (Keeps.ite (State.agentError_keeps (State.setPend_keeps h _ _ _) _ _) h)
    split
    · exact State.install_keeps h _ _ _ _ _
    · exact State.setPend_keeps h _ _ _
  | slide e => exact State.slideAck_keeps h _ _ _
  | task n => exact Keeps.ite h (State.taskError_keeps h _ _)
  | unit u => exact Keeps.ite (State.dbgEnd_keeps h _ _ _) h

theorem State.tagTimeout_keeps (h : Keeps s0 s) : ∀ x1 x2, Keeps s0 (State.tagTimeout s x1 x2) := by
  unfold State.tagTimeout
  repeat' first
    | with_reducible assumption
    | (intro x; refine (fun (hx : Keeps s0 x) => ?_) ?_; clear_value x; rotate_left; unfold x)
    | intro x
    | (lift_lets; intro x; try (refine (fun (hx : Keeps s0 x) => ?_) ?_; clear_value x; rotate_left; unfold x))
    | with_reducible apply Keeps.ite
    | with_reducible apply State.releaseHeld_keeps
    | with_reducible refine Keeps.foldl ?_ ?_
    | with_reducible refine Keeps.mk_ ?_ rfl rfl rfl rfl rfl rfl
    | split

theorem State.epochTaken_keeps (h : Keeps s0 s) : ∀ x1 x2 x3, Keeps s0 (State.epochTaken s x1 x2 x3) := by
  unfold State.epochTaken
  repeat' first
    | with_reducible assumption
    | (intro x; refine (fun (hx : Keeps s0 x) => ?_) ?_; clear_value x; rotate_left; unfold x)
    | intro x
    | (lift_lets; intro x; try (refine (fun (hx : Keeps s0 x) => ?_) ?_; clear_value x; rotate_left; unfold x))
    | with_reducible apply Keeps.ite
    | with_reducible apply State.raise_keeps
    | with_reducible apply State.orphanAll_keeps
    | with_reducible apply State.dropHeld_keeps
    | with_reducible apply State.dropAgent_keeps
    | with_reducible apply State.settle_keeps
    | with_reducible apply State.xluReset_keeps
    | with_reducible refine Keeps.mk_ ?_ rfl rfl rfl rfl rfl rfl
    | split

theorem execEpochBroadcast_keeps (h : Keeps s0 s) : ∀ x0 x1 x2 x3, KeepsE s0 (execEpochBroadcast x0 x1 x2 x3 s) := by
  unfold execEpochBroadcast
  repeat' first
    | with_reducible assumption
    | intro x
    | with_reducible refine KeepsE.next ?_
    | with_reducible apply State.carried_keeps
    | with_reducible apply State.start_keeps
    | with_reducible apply State.epochTaken_keeps
    | with_reducible refine Keeps.mk_ ?_ rfl rfl rfl rfl rfl rfl

theorem execReplicaRateRefresh_keeps (h : Keeps s0 s) : ∀ x0 x1, KeepsE s0 (execReplicaRateRefresh x0 x1 s) := by
  unfold execReplicaRateRefresh
  repeat' first
    | with_reducible assumption
    | intro x
    | with_reducible refine KeepsE.next ?_
    | with_reducible apply State.put_keeps
    | with_reducible apply State.start_keeps
    | with_reducible refine Keeps.mk_ ?_ rfl rfl rfl rfl rfl rfl

end Sys2Proof.Machine
end

