-- ==== Sys2Proof/Laws/KeepsLink.lean ====
section
/-!
SUPPORT. What every operation of Machine/Link.lean keeps (see Laws/Keeps.lean).
-/
namespace Sys2Proof.Machine

set_option Elab.async false
set_option linter.unreachableTactic false
set_option linter.unusedTactic false

variable {s0 s t : State}

theorem State.jlForward_keeps (h : Keeps s0 s) : ∀ x1 x2, Keeps s0 (State.jlForward s x1 x2) := by
  unfold State.jlForward
  repeat' first
    | with_reducible assumption
    | (intro x; refine (fun (hx : Keeps s0 x) => ?_) ?_; clear_value x; rotate_left; unfold x)
    | intro x
    | (lift_lets; intro x; try (refine (fun (hx : Keeps s0 x) => ?_) ?_; clear_value x; rotate_left; unfold x))
    | with_reducible apply Keeps.ite
    | split
    | with_reducible apply State.freePlace_keeps
    | with_reducible apply State.jlSend_keeps
    | with_reducible apply State.bump_keeps
    | with_reducible apply State.portSend_keeps
    | with_reducible refine Keeps.mk_ ?_ rfl rfl rfl rfl rfl rfl
    | split

theorem State.jlEpochOk_keeps (h : Keeps s0 s) : ∀ x1, Keeps s0 (State.jlEpochOk s x1).2 := by
  unfold State.jlEpochOk
  repeat' first
    | with_reducible assumption
    | (intro x; refine (fun (hx : Keeps s0 x) => ?_) ?_; clear_value x; rotate_left; unfold x)
    | intro x
    | (lift_lets; intro x; try (refine (fun (hx : Keeps s0 x) => ?_) ?_; clear_value x; rotate_left; unfold x))
    | split
    | with_reducible refine Keeps.mk_ ?_ rfl rfl rfl rfl rfl rfl
    | split

theorem State.jlGate_keeps (h : Keeps s0 s) : ∀ x1 x2 x3 x4, Keeps s0 (State.jlGate s x1 x2 x3 x4).2 := by
  unfold State.jlGate
  repeat' first
    | with_reducible assumption
    | (intro x; refine (fun (hx : Keeps s0 x) => ?_) ?_; clear_value x; rotate_left; unfold x)
    | intro x
    | (lift_lets; intro x; try (refine (fun (hx : Keeps s0 x) => ?_) ?_; clear_value x; rotate_left; unfold x))
    | with_reducible apply Keeps.ite
    | with_reducible apply Keeps.ite2
    | split
    | with_reducible apply State.record_keeps
    | with_reducible apply State.bump_keeps
    | with_reducible refine Keeps.mk_ ?_ rfl rfl rfl rfl rfl rfl
    | split

theorem State.jlServe_keeps (h : Keeps s0 s) : ∀ x1 x2 x3, Keeps s0 (State.jlServe s x1 x2 x3) := by
  unfold State.jlServe
  dsimp only
  repeat' first
    | with_reducible assumption
    | (intro x; refine (fun (hx : Keeps s0 x) => ?_) ?_; clear_value x; rotate_left; unfold x)
    | intro x
    | (lift_lets; intro x; try (refine (fun (hx : Keeps s0 x) => ?_) ?_; clear_value x; rotate_left; unfold x))
    | with_reducible apply Keeps.ite
    | split
    | with_reducible apply State.jlEpochOk_keeps
    | with_reducible apply State.jlSend_keeps
    | with_reducible apply State.record_keeps
    | with_reducible apply State.jlGate_keeps
    | with_reducible apply State.dupAnswer_keeps
    | with_reducible apply State.answerAck_keeps
    | with_reducible apply State.letIn_keeps
    | with_reducible refine Keeps.of_pair (by assumption) ?_
    | with_reducible refine Keeps.mk_ ?_ rfl rfl rfl rfl rfl rfl
    | split

theorem State.jlEpoch_keeps (h : Keeps s0 s) : ∀ x1, Keeps s0 (State.jlEpoch s x1) := by
  unfold State.jlEpoch
  repeat' first
    | with_reducible assumption
    | (intro x; refine (fun (hx : Keeps s0 x) => ?_) ?_; clear_value x; rotate_left; unfold x)
    | intro x
    | (lift_lets; intro x; try (refine (fun (hx : Keeps s0 x) => ?_) ?_; clear_value x; rotate_left; unfold x))
    | with_reducible apply Keeps.ite
    | with_reducible refine Keeps.mk_ ?_ rfl rfl rfl rfl rfl rfl
    | split

theorem State.jlResponse_keeps (h : Keeps s0 s) : ∀ x1, Keeps s0 (State.jlResponse s x1) := by
  unfold State.jlResponse
  repeat' first
    | with_reducible assumption
    | (intro x; refine (fun (hx : Keeps s0 x) => ?_) ?_; clear_value x; rotate_left; unfold x)
    | intro x
    | (lift_lets; intro x; try (refine (fun (hx : Keeps s0 x) => ?_) ?_; clear_value x; rotate_left; unfold x))
    | with_reducible apply Keeps.ite
    | split
    | with_reducible apply State.bump_keeps
    | with_reducible apply State.releaseHeld_keeps
    | with_reducible apply State.dataTo_keeps
    | with_reducible apply State.ackTo_keeps
    | with_reducible refine Keeps.mk_ ?_ rfl rfl rfl rfl rfl rfl
    | split

theorem State.jlMessage_keeps (h : Keeps s0 s) : ∀ x1 x2 x3, Keeps s0 (State.jlMessage s x1 x2 x3) := by
  unfold State.jlMessage
  repeat' first
    | with_reducible assumption
    | (intro x; refine (fun (hx : Keeps s0 x) => ?_) ?_; clear_value x; rotate_left; unfold x)
    | intro x
    | (lift_lets; intro x; try (refine (fun (hx : Keeps s0 x) => ?_) ?_; clear_value x; rotate_left; unfold x))
    | with_reducible apply Keeps.ite
    | with_reducible apply State.jlForward_keeps
    | with_reducible apply State.freePlace_keeps
    | with_reducible apply State.jlResponse_keeps
    | with_reducible apply State.jlEpoch_keeps
    | with_reducible apply State.jlServe_keeps
    | with_reducible apply State.jlSend_keeps
    | with_reducible refine Keeps.mk_ ?_ rfl rfl rfl rfl rfl rfl
    | split

theorem State.retrain_keeps (h : Keeps s0 s) : ∀ x1, Keeps s0 (State.retrain s x1) := by
  unfold State.retrain
  repeat' first
    | with_reducible assumption
    | (intro x; refine (fun (hx : Keeps s0 x) => ?_) ?_; clear_value x; rotate_left; unfold x)
    | intro x
    | (lift_lets; intro x; try (refine (fun (hx : Keeps s0 x) => ?_) ?_; clear_value x; rotate_left; unfold x))
    | with_reducible apply State.bump_keeps
    | with_reducible apply State.put_keeps
    | with_reducible apply State.sendFlit_keeps
    | with_reducible apply State.setPort_keeps
    | with_reducible refine Keeps.mk_ ?_ rfl rfl rfl rfl rfl rfl

theorem State.resend_keeps (h : Keeps s0 s) : ∀ x1, Keeps s0 (State.resend s x1) := by
  unfold State.resend
  repeat' first
    | with_reducible assumption
    | (intro x; refine (fun (hx : Keeps s0 x) => ?_) ?_; clear_value x; rotate_left; unfold x)
    | intro x
    | (lift_lets; intro x; try (refine (fun (hx : Keeps s0 x) => ?_) ?_; clear_value x; rotate_left; unfold x))
    | with_reducible apply Keeps.ite
    | with_reducible apply State.setPort_keeps
    | with_reducible apply State.bump_keeps
    | with_reducible apply State.sendFlit_keeps
    | with_reducible apply State.retrain_keeps
    | with_reducible refine Keeps.foldl ?_ ?_
    | with_reducible refine Keeps.mk_ ?_ rfl rfl rfl rfl rfl rfl
    | split

theorem State.flitAck_keeps (h : Keeps s0 s) : ∀ x1 x2 x3 x4, Keeps s0 (State.flitAck s x1 x2 x3 x4) := by
  unfold State.flitAck
  repeat' first
    | with_reducible assumption
    | (intro x; refine (fun (hx : Keeps s0 x) => ?_) ?_; clear_value x; rotate_left; unfold x)
    | intro x
    | (lift_lets; intro x; try (refine (fun (hx : Keeps s0 x) => ?_) ?_; clear_value x; rotate_left; unfold x))
    | with_reducible apply Keeps.ite
    | with_reducible apply State.setPort_keeps
    | with_reducible refine Keeps.foldl ?_ ?_
    | with_reducible refine Keeps.mk_ ?_ rfl rfl rfl rfl rfl rfl
    | split

theorem State.flitNak_keeps (h : Keeps s0 s) : ∀ x1, Keeps s0 (State.flitNak s x1) := by
  unfold State.flitNak
  repeat' first
    | with_reducible assumption
    | (intro x; refine (fun (hx : Keeps s0 x) => ?_) ?_; clear_value x; rotate_left; unfold x)
    | intro x
    | (lift_lets; intro x; try (refine (fun (hx : Keeps s0 x) => ?_) ?_; clear_value x; rotate_left; unfold x))
    | with_reducible apply Keeps.ite
    | with_reducible apply State.sendFlit_keeps
    | with_reducible apply State.setPort_keeps
    | with_reducible refine Keeps.mk_ ?_ rfl rfl rfl rfl rfl rfl
    | split

theorem State.flitIn_keeps (h : Keeps s0 s) : ∀ x1 x2, Keeps s0 (State.flitIn s x1 x2) := by
  unfold State.flitIn
  repeat' first
    | with_reducible assumption
    | (intro x; refine (fun (hx : Keeps s0 x) => ?_) ?_; clear_value x; rotate_left; unfold x)
    | intro x
    | (lift_lets; intro x; try (refine (fun (hx : Keeps s0 x) => ?_) ?_; clear_value x; rotate_left; unfold x))
    | with_reducible apply Keeps.ite
    | with_reducible apply State.bump_keeps
    | with_reducible apply State.flitNak_keeps
    | with_reducible apply State.setPort_keeps
    | with_reducible apply State.retrain_keeps
    | with_reducible apply State.flitAck_keeps
    | with_reducible apply State.resend_keeps
    | with_reducible apply State.jlMessage_keeps
    | with_reducible refine Keeps.foldl ?_ ?_
    | with_reducible refine Keeps.mk_ ?_ rfl rfl rfl rfl rfl rfl
    | split

theorem State.portGo_keeps (h : Keeps s0 s) : ∀ x1, Keeps s0 (State.portGo s x1) := by
  unfold State.portGo
  repeat' first
    | with_reducible assumption
    | intro x
    | with_reducible apply State.portDrain_keeps
    | with_reducible refine Keeps.mk_ ?_ rfl rfl rfl rfl rfl rfl

theorem execReplayTimeout_keeps (h : Keeps s0 s) : ∀ x0, KeepsE s0 (execReplayTimeout x0 s) := by
  unfold execReplayTimeout
  repeat' first
    | with_reducible assumption
    | (intro x; refine (fun (hx : Keeps s0 x) => ?_) ?_; clear_value x; rotate_left; unfold x)
    | intro x
    | (lift_lets; intro x; try (refine (fun (hx : Keeps s0 x) => ?_) ?_; clear_value x; rotate_left; unfold x))
    | with_reducible apply Keeps.ite
    | with_reducible apply KeepsE.ite
    | with_reducible refine KeepsE.next ?_
    | with_reducible apply State.start_keeps
    | with_reducible apply State.resend_keeps
    | with_reducible refine Keeps.mk_ ?_ rfl rfl rfl rfl rfl rfl
    | split

theorem execRetrainDone_keeps (h : Keeps s0 s) : ∀ x0 x1, KeepsE s0 (execRetrainDone x0 x1 s) := by
  unfold execRetrainDone
  repeat' first
    | with_reducible assumption
    | (intro x; refine (fun (hx : Keeps s0 x) => ?_) ?_; clear_value x; rotate_left; unfold x)
    | intro x
    | (lift_lets; intro x; try (refine (fun (hx : Keeps s0 x) => ?_) ?_; clear_value x; rotate_left; unfold x))
    | with_reducible apply Keeps.ite
    | with_reducible apply KeepsE.ite
    | with_reducible refine KeepsE.next ?_
    | with_reducible apply State.start_keeps
    | with_reducible apply State.put_keeps
    | with_reducible apply State.setPort_keeps
    | with_reducible apply State.portGo_keeps
    | with_reducible apply State.resend_keeps
    | with_reducible apply State.portDown_keeps
    | with_reducible apply State.bump_keeps
    | with_reducible refine Keeps.mk_ ?_ rfl rfl rfl rfl rfl rfl
    | split

theorem execIdleFlitTimer_keeps (h : Keeps s0 s) : ∀ x0, KeepsE s0 (execIdleFlitTimer x0 s) := by
  unfold execIdleFlitTimer
  repeat' first
    | with_reducible assumption
    | (intro x; refine (fun (hx : Keeps s0 x) => ?_) ?_; clear_value x; rotate_left; unfold x)
    | intro x
    | (lift_lets; intro x; try (refine (fun (hx : Keeps s0 x) => ?_) ?_; clear_value x; rotate_left; unfold x))
    | with_reducible apply Keeps.ite
    | with_reducible apply KeepsE.ite
    | with_reducible refine KeepsE.next ?_
    | with_reducible apply State.start_keeps
    | with_reducible apply State.sendFlit_keeps
    | with_reducible refine Keeps.mk_ ?_ rfl rfl rfl rfl rfl rfl
    | split

theorem execLinkTrainAttempt_keeps (h : Keeps s0 s) : ∀ x0 x1 x2 x3, KeepsE s0 (execLinkTrainAttempt x0 x1 x2 x3 s) := by
  unfold execLinkTrainAttempt
  repeat' first
    | with_reducible assumption
    | (intro x; refine (fun (hx : Keeps s0 x) => ?_) ?_; clear_value x; rotate_left; unfold x)
    | intro x
    | (lift_lets; intro x; try (refine (fun (hx : Keeps s0 x) => ?_) ?_; clear_value x; rotate_left; unfold x))
    | with_reducible apply Keeps.ite
    | with_reducible apply KeepsE.ite
    | with_reducible refine KeepsE.next ?_
    | with_reducible apply State.start_keeps
    | with_reducible apply State.portDown_keeps
    | with_reducible apply State.put_keeps
    | with_reducible apply State.setPort_keeps
    | with_reducible apply State.record_keeps
    | with_reducible apply State.portGo_keeps
    | with_reducible refine Keeps.mk_ ?_ rfl rfl rfl rfl rfl rfl
    | split

theorem execJlReadOnce_keeps (h : Keeps s0 s) : ∀ x0 x1 x2, KeepsE s0 (execJlReadOnce x0 x1 x2 s) := by
  unfold execJlReadOnce
  repeat' first
    | with_reducible assumption
    | (intro x; refine (fun (hx : Keeps s0 x) => ?_) ?_; clear_value x; rotate_left; unfold x)
    | intro x
    | (lift_lets; intro x; try (refine (fun (hx : Keeps s0 x) => ?_) ?_; clear_value x; rotate_left; unfold x))
    | with_reducible apply Keeps.ite
    | with_reducible apply KeepsE.ite
    | with_reducible refine KeepsE.next ?_
    | with_reducible apply State.start_keeps
    | with_reducible apply State.settle_keeps
    | with_reducible apply State.jlMessage_keeps
    | with_reducible refine Keeps.mk_ ?_ rfl rfl rfl rfl rfl rfl
    | split

theorem execJlWriteLine_keeps (h : Keeps s0 s) : ∀ x0 x1 x2, KeepsE s0 (execJlWriteLine x0 x1 x2 s) := by
  unfold execJlWriteLine
  repeat' first
    | with_reducible assumption
    | (intro x; refine (fun (hx : Keeps s0 x) => ?_) ?_; clear_value x; rotate_left; unfold x)
    | intro x
    | (lift_lets; intro x; try (refine (fun (hx : Keeps s0 x) => ?_) ?_; clear_value x; rotate_left; unfold x))
    | with_reducible apply Keeps.ite
    | with_reducible apply KeepsE.ite
    | with_reducible refine KeepsE.next ?_
    | with_reducible apply State.start_keeps
    | with_reducible apply State.settle_keeps
    | with_reducible apply State.jlMessage_keeps
    | with_reducible refine Keeps.mk_ ?_ rfl rfl rfl rfl rfl rfl
    | split

theorem execJlAtomic_keeps (h : Keeps s0 s) : ∀ x0 x1 x2, KeepsE s0 (execJlAtomic x0 x1 x2 s) := by
  unfold execJlAtomic
  repeat' first
    | with_reducible assumption
    | (intro x; refine (fun (hx : Keeps s0 x) => ?_) ?_; clear_value x; rotate_left; unfold x)
    | intro x
    | (lift_lets; intro x; try (refine (fun (hx : Keeps s0 x) => ?_) ?_; clear_value x; rotate_left; unfold x))
    | with_reducible apply Keeps.ite
    | with_reducible apply KeepsE.ite
    | with_reducible refine KeepsE.next ?_
    | with_reducible apply State.start_keeps
    | with_reducible apply State.settle_keeps
    | with_reducible apply State.jlMessage_keeps
    | with_reducible refine Keeps.mk_ ?_ rfl rfl rfl rfl rfl rfl
    | split

theorem execJlEpoch_keeps (h : Keeps s0 s) : ∀ x0 x1, KeepsE s0 (execJlEpoch x0 x1 s) := by
  unfold execJlEpoch
  repeat' first
    | with_reducible assumption
    | (intro x; refine (fun (hx : Keeps s0 x) => ?_) ?_; clear_value x; rotate_left; unfold x)
    | intro x
    | (lift_lets; intro x; try (refine (fun (hx : Keeps s0 x) => ?_) ?_; clear_value x; rotate_left; unfold x))
    | with_reducible apply Keeps.ite
    | with_reducible apply KeepsE.ite
    | with_reducible refine KeepsE.next ?_
    | with_reducible apply State.start_keeps
    | with_reducible apply State.jlMessage_keeps
    | with_reducible refine Keeps.mk_ ?_ rfl rfl rfl rfl rfl rfl
    | split

theorem execDupWindowExpiry_keeps (h : Keeps s0 s) : ∀ x0 x1 x2, KeepsE s0 (execDupWindowExpiry x0 x1 x2 s) := by
  unfold execDupWindowExpiry
  repeat' first
    | with_reducible assumption
    | (intro x; refine (fun (hx : Keeps s0 x) => ?_) ?_; clear_value x; rotate_left; unfold x)
    | intro x
    | (lift_lets; intro x; try (refine (fun (hx : Keeps s0 x) => ?_) ?_; clear_value x; rotate_left; unfold x))
    | with_reducible refine KeepsE.next ?_
    | with_reducible apply State.start_keeps
    | with_reducible refine Keeps.mk_ ?_ rfl rfl rfl rfl rfl rfl

theorem execTagHoldExpiry_keeps (h : Keeps s0 s) : ∀ x0 x1, KeepsE s0 (execTagHoldExpiry x0 x1 s) := by
  unfold execTagHoldExpiry
  repeat' first
    | with_reducible assumption
    | (intro x; refine (fun (hx : Keeps s0 x) => ?_) ?_; clear_value x; rotate_left; unfold x)
    | intro x
    | (lift_lets; intro x; try (refine (fun (hx : Keeps s0 x) => ?_) ?_; clear_value x; rotate_left; unfold x))
    | with_reducible refine KeepsE.next ?_
    | with_reducible apply State.start_keeps
    | with_reducible apply State.releaseHeld_keeps
    | with_reducible refine Keeps.mk_ ?_ rfl rfl rfl rfl rfl rfl

end Sys2Proof.Machine
end

