-- ==== Sys2Proof/Laws/KeepsDebug.lean ====
section
/-!
SUPPORT. What every operation of Machine/Debug.lean keeps (see Laws/Keeps.lean).
-/
namespace Sys2Proof.Machine

set_option Elab.async false
set_option linter.unreachableTactic false
set_option linter.unusedTactic false

variable {s0 s t : State}

theorem State.frame_keeps (h : Keeps s0 s) {f : State → State} (hf : ∀ s, Keeps s0 s → Keeps s0 (f s)) : ∀ i, Keeps s0 (State.frame s i f) := by
  intro i
  unfold State.frame
  exact Keeps.ite h (Keeps.ite (hf s h) (Keeps.ite (h.same rfl rfl rfl rfl rfl rfl) (h.same rfl rfl rfl rfl rfl rfl)))

theorem State.command_keeps (h : Keeps s0 s) {f : State → Nat × List Byte × State} (hf : ∀ s, Keeps s0 s → Keeps s0 (f s).2.2) :
    ∀ op tag level zero, Keeps s0 (State.command s op tag level zero f) := by
  intro op tag level zero
  unfold State.command
  exact Keeps.ite h (Keeps.ite (State.respond_keeps h _ _ _ _) (State.respond_keeps (hf s h) _ _ _ _))

theorem State.cmdStatus_keeps (h : Keeps s0 s) : ∀ x1 x2, Keeps s0 (State.cmdStatus s x1 x2) := by
  unfold State.cmdStatus
  repeat' first
    | with_reducible assumption
    | intro x
    | with_reducible apply State.command_keeps
    | with_reducible refine Keeps.mk_ ?_ rfl rfl rfl rfl rfl rfl

theorem State.unlockFail_keeps (h : Keeps s0 s) : Keeps s0 (State.unlockFail s).2.2 := by
  unfold State.unlockFail
  repeat' first
    | with_reducible assumption
    | (intro x; refine (fun (hx : Keeps s0 x) => ?_) ?_; clear_value x; rotate_left; unfold x)
    | intro x
    | (lift_lets; intro x; try (refine (fun (hx : Keeps s0 x) => ?_) ?_; clear_value x; rotate_left; unfold x))
    | with_reducible apply Keeps.ite
    | with_reducible apply Keeps.ite22
    | with_reducible apply State.bump_keeps
    | with_reducible apply State.record_keeps
    | with_reducible refine Keeps.mk_ ?_ rfl rfl rfl rfl rfl rfl
    | split

theorem State.levelRecord_keeps (h : Keeps s0 s) : ∀ x1, Keeps s0 (State.levelRecord s x1) := by
  unfold State.levelRecord
  repeat' first
    | with_reducible assumption
    | intro x
    | with_reducible apply State.record_keeps
    | with_reducible refine Keeps.mk_ ?_ rfl rfl rfl rfl rfl rfl

theorem State.unlocked_keeps (h : Keeps s0 s) : ∀ x1, Keeps s0 (State.unlocked s x1) := by
  unfold State.unlocked
  repeat' first
    | with_reducible assumption
    | (intro x; refine (fun (hx : Keeps s0 x) => ?_) ?_; clear_value x; rotate_left; unfold x)
    | intro x
    | (lift_lets; intro x; try (refine (fun (hx : Keeps s0 x) => ?_) ?_; clear_value x; rotate_left; unfold x))
    | with_reducible apply Keeps.ite
    | with_reducible apply State.put_keeps
    | with_reducible apply State.bump_keeps
    | with_reducible apply State.levelRecord_keeps
    | with_reducible apply State.wake_keeps
    | with_reducible refine Keeps.mk_ ?_ rfl rfl rfl rfl rfl rfl
    | split

theorem State.unlockGate_keeps (h : Keeps s0 s) {f : State → Nat × List Byte × State} (hf : ∀ s, Keeps s0 s → Keeps s0 (f s).2.2) :
    Keeps s0 (State.unlockGate s f).2.2 := by
  unfold State.unlockGate
  exact Keeps.ite22 h (Keeps.ite22 h (hf s h))

theorem State.cmdUnlockPw_keeps (h : Keeps s0 s) : ∀ x1 x2 x3, Keeps s0 (State.cmdUnlockPw s x1 x2 x3) := by
  unfold State.cmdUnlockPw
  repeat' first
    | with_reducible assumption
    | intro x
    | with_reducible apply Keeps.ite
    | with_reducible apply Keeps.ite22
    | with_reducible apply State.command_keeps
    | with_reducible apply State.unlockGate_keeps
    | with_reducible apply State.unlocked_keeps
    | with_reducible apply State.unlockFail_keeps
    | with_reducible refine Keeps.of_triple (by assumption) ?_
    | with_reducible refine Keeps.mk_ ?_ rfl rfl rfl rfl rfl rfl
    | split
    | dsimp only

theorem State.cmdChallenge_keeps (h : Keeps s0 s) : ∀ x1 x2 x3, Keeps s0 (State.cmdChallenge s x1 x2 x3) := by
  unfold State.cmdChallenge
  dsimp only
  repeat' first
    | with_reducible assumption
    | (intro x; refine (fun (hx : Keeps s0 x) => ?_) ?_; clear_value x; rotate_left; unfold x)
    | intro x
    | (lift_lets; intro x; try (refine (fun (hx : Keeps s0 x) => ?_) ?_; clear_value x; rotate_left; unfold x))
    | with_reducible apply Keeps.ite
    | split
    | with_reducible apply State.command_keeps
    | with_reducible apply State.unlockGate_keeps
    | with_reducible refine Keeps.of_triple (by assumption) ?_
    | with_reducible refine Keeps.mk_ ?_ rfl rfl rfl rfl rfl rfl
    | split

theorem State.cmdUnlockRsp_keeps (h : Keeps s0 s) : ∀ x1 x2 x3, Keeps s0 (State.cmdUnlockRsp s x1 x2 x3) := by
  unfold State.cmdUnlockRsp
  dsimp only
  repeat' first
    | with_reducible assumption
    | (intro x; refine (fun (hx : Keeps s0 x) => ?_) ?_; clear_value x; rotate_left; unfold x)
    | intro x
    | (lift_lets; intro x; try (refine (fun (hx : Keeps s0 x) => ?_) ?_; clear_value x; rotate_left; unfold x))
    | with_reducible apply Keeps.ite
    | split
    | with_reducible apply State.command_keeps
    | with_reducible apply State.unlockGate_keeps
    | with_reducible apply State.unlocked_keeps
    | with_reducible apply State.unlockFail_keeps
    | with_reducible refine Keeps.of_triple (by assumption) ?_
    | with_reducible refine Keeps.mk_ ?_ rfl rfl rfl rfl rfl rfl
    | split

theorem State.coxBack_keeps (h : Keeps s0 s) : Keeps s0 (State.coxBack s) := by
  unfold State.coxBack
  repeat' first
    | with_reducible assumption
    | (intro x; refine (fun (hx : Keeps s0 x) => ?_) ?_; clear_value x; rotate_left; unfold x)
    | intro x
    | (lift_lets; intro x; try (refine (fun (hx : Keeps s0 x) => ?_) ?_; clear_value x; rotate_left; unfold x))
    | with_reducible apply State.afterWake_keeps
    | with_reducible apply State.nextQuiesce_keeps
    | with_reducible apply State.nextSnap_keeps
    | with_reducible apply State.sendInv_keeps
    | with_reducible apply State.rewalkHeld_keeps
    | with_reducible apply State.mbAll_keeps
    | with_reducible refine Keeps.foldl ?_ ?_
    | with_reducible refine Keeps.mk_ ?_ rfl rfl rfl rfl rfl rfl

theorem State.endSession_keeps (h : Keeps s0 s) : Keeps s0 (State.endSession s) := by
  unfold State.endSession
  repeat' first
    | with_reducible assumption
    | intro x
    | with_reducible apply Keeps.ite
    | with_reducible apply State.coxBack_keeps
    | with_reducible apply State.closeSession_keeps
    | with_reducible refine Keeps.mk_ ?_ rfl rfl rfl rfl rfl rfl
    | split

theorem State.cmdEnd_keeps (h : Keeps s0 s) : ∀ x1 x2, Keeps s0 (State.cmdEnd s x1 x2) := by
  unfold State.cmdEnd
  repeat' first
    | with_reducible assumption
    | intro x
    | with_reducible apply State.command_keeps
    | with_reducible apply State.endSession_keeps
    | with_reducible refine Keeps.mk_ ?_ rfl rfl rfl rfl rfl rfl

theorem State.cmdTelemetry_keeps (h : Keeps s0 s) : ∀ x1 x2 x3 x4, Keeps s0 (State.cmdTelemetry s x1 x2 x3 x4) := by
  unfold State.cmdTelemetry
  repeat' first
    | with_reducible assumption
    | intro x
    | with_reducible apply Keeps.ite
    | with_reducible apply Keeps.ite22
    | with_reducible apply State.command_keeps
    | with_reducible refine Keeps.mk_ ?_ rfl rfl rfl rfl rfl rfl
    | split
    | dsimp only

theorem State.cmdRegRead_keeps (h : Keeps s0 s) : ∀ x1 x2 x3, Keeps s0 (State.cmdRegRead s x1 x2 x3) := by
  unfold State.cmdRegRead
  repeat' first
    | with_reducible assumption
    | (intro x; refine (fun (hx : Keeps s0 x) => ?_) ?_; clear_value x; rotate_left; unfold x)
    | intro x
    | (lift_lets; intro x; try (refine (fun (hx : Keeps s0 x) => ?_) ?_; clear_value x; rotate_left; unfold x))
    | with_reducible apply State.command_keeps
    | with_reducible apply State.viewRead_keeps
    | with_reducible refine Keeps.of_triple (by assumption) ?_
    | with_reducible refine Keeps.mk_ ?_ rfl rfl rfl rfl rfl rfl

theorem State.cmdRegWrite_keeps (h : Keeps s0 s) : ∀ x1 x2 x3 x4, Keeps s0 (State.cmdRegWrite s x1 x2 x3 x4) := by
  unfold State.cmdRegWrite
  repeat' first
    | with_reducible assumption
    | (intro x; refine (fun (hx : Keeps s0 x) => ?_) ?_; clear_value x; rotate_left; unfold x)
    | intro x
    | (lift_lets; intro x; try (refine (fun (hx : Keeps s0 x) => ?_) ?_; clear_value x; rotate_left; unfold x))
    | with_reducible apply State.command_keeps
    | with_reducible apply State.viewWrite_keeps
    | with_reducible refine Keeps.of_pair (by assumption) ?_
    | with_reducible refine Keeps.mk_ ?_ rfl rfl rfl rfl rfl rfl

theorem State.haltCox_keeps (h : Keeps s0 s) : Keeps s0 (State.haltCox s) := by
  unfold State.haltCox
  repeat' first
    | with_reducible assumption
    | (intro x; refine (fun (hx : Keeps s0 x) => ?_) ?_; clear_value x; rotate_left; unfold x)
    | intro x
    | (lift_lets; intro x; try (refine (fun (hx : Keeps s0 x) => ?_) ?_; clear_value x; rotate_left; unfold x))
    | with_reducible apply Keeps.ite
    | with_reducible apply State.put_keeps
    | with_reducible apply State.setA_keeps
    | with_reducible refine Keeps.foldl ?_ ?_
    | with_reducible refine Keeps.mk_ ?_ rfl rfl rfl rfl rfl rfl
    | split

theorem State.cmdHalt_keeps (h : Keeps s0 s) : ∀ x1 x2 x3, Keeps s0 (State.cmdHalt s x1 x2 x3) := by
  unfold State.cmdHalt
  repeat' first
    | with_reducible assumption
    | intro x
    | with_reducible apply Keeps.ite
    | with_reducible apply Keeps.ite22
    | with_reducible apply State.command_keeps
    | with_reducible apply State.haltCox_keeps
    | with_reducible apply State.askHalt_keeps
    | with_reducible refine Keeps.mk_ ?_ rfl rfl rfl rfl rfl rfl
    | split
    | dsimp only

theorem State.haltNow_keeps (h : Keeps s0 s) : ∀ x1, Keeps s0 (State.haltNow s x1) := by
  unfold State.haltNow
  repeat' first
    | with_reducible assumption
    | (intro x; refine (fun (hx : Keeps s0 x) => ?_) ?_; clear_value x; rotate_left; unfold x)
    | intro x
    | (lift_lets; intro x; try (refine (fun (hx : Keeps s0 x) => ?_) ?_; clear_value x; rotate_left; unfold x))
    | split
    | with_reducible apply State.setScull_keeps
    | with_reducible apply State.put_keeps
    | with_reducible apply State.showScull_keeps
    | with_reducible apply State.putBitAt_keeps
    | with_reducible refine Keeps.mk_ ?_ rfl rfl rfl rfl rfl rfl
    | split

theorem State.cmdResume_keeps (h : Keeps s0 s) : ∀ x1 x2 x3, Keeps s0 (State.cmdResume s x1 x2 x3) := by
  unfold State.cmdResume
  repeat' first
    | with_reducible assumption
    | intro x
    | with_reducible apply Keeps.ite
    | with_reducible apply Keeps.ite22
    | with_reducible apply State.command_keeps
    | with_reducible apply State.coxBack_keeps
    | with_reducible apply State.resumeCox_keeps
    | with_reducible apply State.resumeScull_keeps
    | with_reducible refine Keeps.mk_ ?_ rfl rfl rfl rfl rfl rfl
    | split
    | dsimp only

theorem State.cmdStep_keeps (h : Keeps s0 s) : ∀ x1 x2 x3 x4, Keeps s0 (State.cmdStep s x1 x2 x3 x4) := by
  unfold State.cmdStep
  dsimp only
  repeat' first
    | with_reducible assumption
    | (intro x; refine (fun (hx : Keeps s0 x) => ?_) ?_; clear_value x; rotate_left; unfold x)
    | intro x
    | (lift_lets; intro x; try (refine (fun (hx : Keeps s0 x) => ?_) ?_; clear_value x; rotate_left; unfold x))
    | with_reducible apply Keeps.ite
    | split
    | with_reducible apply State.command_keeps
    | with_reducible apply State.resumeScull_keeps
    | with_reducible apply State.setScull_keeps
    | with_reducible refine Keeps.mk_ ?_ rfl rfl rfl rfl rfl rfl
    | split

theorem State.cmdStateRead_keeps (h : Keeps s0 s) : ∀ x1 x2 x3 x4, Keeps s0 (State.cmdStateRead s x1 x2 x3 x4) := by
  unfold State.cmdStateRead
  repeat' first
    | with_reducible assumption
    | (intro x; refine (fun (hx : Keeps s0 x) => ?_) ?_; clear_value x; rotate_left; unfold x)
    | intro x
    | (lift_lets; intro x; try (refine (fun (hx : Keeps s0 x) => ?_) ?_; clear_value x; rotate_left; unfold x))
    | with_reducible apply Keeps.ite
    | with_reducible apply Keeps.ite22
    | with_reducible apply State.command_keeps
    | with_reducible refine Keeps.mk_ ?_ rfl rfl rfl rfl rfl rfl
    | split
    | dsimp only

theorem State.setBp_keeps (h : Keeps s0 s) : ∀ x1 x2, Keeps s0 (State.setBp s x1 x2) := by
  unfold State.setBp
  repeat' first
    | with_reducible assumption
    | (intro x; refine (fun (hx : Keeps s0 x) => ?_) ?_; clear_value x; rotate_left; unfold x)
    | intro x
    | (lift_lets; intro x; try (refine (fun (hx : Keeps s0 x) => ?_) ?_; clear_value x; rotate_left; unfold x))
    | with_reducible refine Keeps.mk_ ?_ rfl rfl rfl rfl rfl rfl

theorem State.setWp_keeps (h : Keeps s0 s) : ∀ x1 x2, Keeps s0 (State.setWp s x1 x2) := by
  unfold State.setWp
  repeat' first
    | with_reducible assumption
    | (intro x; refine (fun (hx : Keeps s0 x) => ?_) ?_; clear_value x; rotate_left; unfold x)
    | intro x
    | (lift_lets; intro x; try (refine (fun (hx : Keeps s0 x) => ?_) ?_; clear_value x; rotate_left; unfold x))
    | with_reducible refine Keeps.mk_ ?_ rfl rfl rfl rfl rfl rfl

theorem State.cmdBpSet_keeps (h : Keeps s0 s) : ∀ x1 x2 x3 x4 x5 x6, Keeps s0 (State.cmdBpSet s x1 x2 x3 x4 x5 x6) := by
  unfold State.cmdBpSet
  repeat' first
    | with_reducible assumption
    | intro x
    | with_reducible apply Keeps.ite
    | with_reducible apply Keeps.ite22
    | with_reducible apply State.command_keeps
    | with_reducible apply State.setBp_keeps
    | with_reducible refine Keeps.mk_ ?_ rfl rfl rfl rfl rfl rfl
    | split
    | dsimp only

theorem State.cmdBpClr_keeps (h : Keeps s0 s) : ∀ x1 x2 x3 x4, Keeps s0 (State.cmdBpClr s x1 x2 x3 x4) := by
  unfold State.cmdBpClr
  repeat' first
    | with_reducible assumption
    | intro x
    | with_reducible apply Keeps.ite
    | with_reducible apply Keeps.ite22
    | with_reducible apply State.command_keeps
    | with_reducible apply State.setBp_keeps
    | with_reducible refine Keeps.mk_ ?_ rfl rfl rfl rfl rfl rfl
    | split
    | dsimp only

theorem State.cmdWpSet_keeps (h : Keeps s0 s) : ∀ x1 x2 x3 x4 x5 x6 x7, Keeps s0 (State.cmdWpSet s x1 x2 x3 x4 x5 x6 x7) := by
  unfold State.cmdWpSet
  dsimp only
  repeat' first
    | with_reducible assumption
    | (intro x; refine (fun (hx : Keeps s0 x) => ?_) ?_; clear_value x; rotate_left; unfold x)
    | intro x
    | (lift_lets; intro x; try (refine (fun (hx : Keeps s0 x) => ?_) ?_; clear_value x; rotate_left; unfold x))
    | with_reducible apply Keeps.ite
    | split
    | with_reducible apply State.command_keeps
    | with_reducible apply State.setWp_keeps
    | with_reducible refine Keeps.mk_ ?_ rfl rfl rfl rfl rfl rfl
    | split

theorem State.cmdWpClr_keeps (h : Keeps s0 s) : ∀ x1 x2 x3 x4, Keeps s0 (State.cmdWpClr s x1 x2 x3 x4) := by
  unfold State.cmdWpClr
  repeat' first
    | with_reducible assumption
    | intro x
    | with_reducible apply Keeps.ite
    | with_reducible apply Keeps.ite22
    | with_reducible apply State.command_keeps
    | with_reducible apply State.setWp_keeps
    | with_reducible refine Keeps.mk_ ?_ rfl rfl rfl rfl rfl rfl
    | split
    | dsimp only

theorem State.cmdLaneBp_keeps (h : Keeps s0 s) : ∀ x1 x2 x3 x4, Keeps s0 (State.cmdLaneBp s x1 x2 x3 x4) := by
  unfold State.cmdLaneBp
  dsimp only
  repeat' first
    | with_reducible assumption
    | (intro x; refine (fun (hx : Keeps s0 x) => ?_) ?_; clear_value x; rotate_left; unfold x)
    | intro x
    | (lift_lets; intro x; try (refine (fun (hx : Keeps s0 x) => ?_) ?_; clear_value x; rotate_left; unfold x))
    | with_reducible apply Keeps.ite
    | split
    | with_reducible apply State.command_keeps
    | with_reducible refine Keeps.mk_ ?_ rfl rfl rfl rfl rfl rfl
    | split

theorem State.dbgAccess_keeps (h : Keeps s0 s) : ∀ x1 x2 x3 x4, Keeps s0 (State.dbgAccess s x1 x2 x3 x4) := by
  unfold State.dbgAccess
  repeat' first
    | with_reducible assumption
    | (intro x; refine (fun (hx : Keeps s0 x) => ?_) ?_; clear_value x; rotate_left; unfold x)
    | intro x
    | (lift_lets; intro x; try (refine (fun (hx : Keeps s0 x) => ?_) ?_; clear_value x; rotate_left; unfold x))
    | with_reducible apply State.request_keeps
    | with_reducible refine Keeps.mk_ ?_ rfl rfl rfl rfl rfl rfl
    | split

theorem State.cmdMemRead_keeps (h : Keeps s0 s) : ∀ x1 x2 x3 x4 x5, Keeps s0 (State.cmdMemRead s x1 x2 x3 x4 x5) := by
  unfold State.cmdMemRead
  repeat' first
    | with_reducible assumption
    | intro x
    | with_reducible apply Keeps.ite
    | with_reducible apply Keeps.ite22
    | with_reducible apply State.dbgAccess_keeps
    | with_reducible apply State.respond_keeps
    | with_reducible refine Keeps.mk_ ?_ rfl rfl rfl rfl rfl rfl
    | split
    | dsimp only

theorem State.cmdMemWrite_keeps (h : Keeps s0 s) : ∀ x1 x2 x3 x4 x5, Keeps s0 (State.cmdMemWrite s x1 x2 x3 x4 x5) := by
  intro t a n bs z
  unfold State.cmdMemWrite
  exact Keeps.ite h (Keeps.ite (State.dbgAccess_keeps h _ _ _ _) (State.respond_keeps h _ _ _ _))

theorem State.cmdRetire_keeps (h : Keeps s0 s) : ∀ x1 x2 x3 x4, Keeps s0 (State.cmdRetire s x1 x2 x3 x4) := by
  intro tag serial bf zero
  unfold State.cmdRetire
  refine Keeps.ite h (Keeps.ite (State.respond_keeps h _ _ _ _) ?_)
  have hs := State.abortPops_keeps (State.abortPops_keeps h 0 fun _ => true) 1 fun _ => true
  refine Keeps.ite (State.respond_keeps (State.record_keeps hs _) _ _ _ _) ?_
  exact State.emit_keeps (State.deviceReset_keeps (State.eraseBanks_keeps (hs.burn (k := 2) (by decide)))) _

theorem State.cmdLock_keeps (h : Keeps s0 s) : ∀ x1 x2 x3, Keeps s0 (State.cmdLock s x1 x2 x3) := by
  intro tag bf zero
  unfold State.cmdLock
  have hs := State.takeFree_keeps h
  refine Keeps.ite h (Keeps.ite (State.respond_keeps hs _ _ _ _) (Keeps.ite (State.respond_keeps (State.record_keeps hs _) _ _ _ _) ?_))
  exact State.respond_keeps (State.showLifecycle_keeps (hs.burn (k := 1) (by decide))) _ _ _ _

theorem execStatus_keeps (h : Keeps s0 s) : ∀ x0 x1, KeepsE s0 (execStatus x0 x1 s) := by
  unfold execStatus
  repeat' first
    | with_reducible assumption
    | intro x
    | with_reducible refine KeepsE.next ?_
    | with_reducible apply State.frame_keeps
    | with_reducible apply State.start_keeps
    | with_reducible apply State.cmdStatus_keeps
    | with_reducible refine Keeps.mk_ ?_ rfl rfl rfl rfl rfl rfl

theorem execUnlockPw_keeps (h : Keeps s0 s) : ∀ x0 x1 x2, KeepsE s0 (execUnlockPw x0 x1 x2 s) := by
  unfold execUnlockPw
  repeat' first
    | with_reducible assumption
    | intro x
    | with_reducible refine KeepsE.next ?_
    | with_reducible apply State.frame_keeps
    | with_reducible apply State.start_keeps
    | with_reducible apply State.cmdUnlockPw_keeps
    | with_reducible refine Keeps.mk_ ?_ rfl rfl rfl rfl rfl rfl

theorem execChallenge_keeps (h : Keeps s0 s) : ∀ x0 x1 x2, KeepsE s0 (execChallenge x0 x1 x2 s) := by
  unfold execChallenge
  repeat' first
    | with_reducible assumption
    | intro x
    | with_reducible refine KeepsE.next ?_
    | with_reducible apply State.frame_keeps
    | with_reducible apply State.start_keeps
    | with_reducible apply State.cmdChallenge_keeps
    | with_reducible refine Keeps.mk_ ?_ rfl rfl rfl rfl rfl rfl

theorem execUnlockRsp_keeps (h : Keeps s0 s) : ∀ x0 x1 x2, KeepsE s0 (execUnlockRsp x0 x1 x2 s) := by
  unfold execUnlockRsp
  repeat' first
    | with_reducible assumption
    | intro x
    | with_reducible refine KeepsE.next ?_
    | with_reducible apply State.frame_keeps
    | with_reducible apply State.start_keeps
    | with_reducible apply State.cmdUnlockRsp_keeps
    | with_reducible refine Keeps.mk_ ?_ rfl rfl rfl rfl rfl rfl

theorem execLockoutExpiry_keeps (h : Keeps s0 s) : KeepsE s0 (execLockoutExpiry s) := by
  unfold execLockoutExpiry
  repeat' first
    | with_reducible assumption
    | (intro x; refine (fun (hx : Keeps s0 x) => ?_) ?_; clear_value x; rotate_left; unfold x)
    | intro x
    | (lift_lets; intro x; try (refine (fun (hx : Keeps s0 x) => ?_) ?_; clear_value x; rotate_left; unfold x))
    | with_reducible refine KeepsE.next ?_
    | with_reducible apply State.start_keeps
    | with_reducible refine Keeps.mk_ ?_ rfl rfl rfl rfl rfl rfl

theorem execNonceLapse_keeps (h : Keeps s0 s) : KeepsE s0 (execNonceLapse s) := by
  unfold execNonceLapse
  repeat' first
    | with_reducible assumption
    | (intro x; refine (fun (hx : Keeps s0 x) => ?_) ?_; clear_value x; rotate_left; unfold x)
    | intro x
    | (lift_lets; intro x; try (refine (fun (hx : Keeps s0 x) => ?_) ?_; clear_value x; rotate_left; unfold x))
    | with_reducible refine KeepsE.next ?_
    | with_reducible apply State.start_keeps
    | with_reducible refine Keeps.mk_ ?_ rfl rfl rfl rfl rfl rfl

theorem execEndSession_keeps (h : Keeps s0 s) : ∀ x0 x1, KeepsE s0 (execEndSession x0 x1 s) := by
  unfold execEndSession
  repeat' first
    | with_reducible assumption
    | intro x
    | with_reducible refine KeepsE.next ?_
    | with_reducible apply State.frame_keeps
    | with_reducible apply State.start_keeps
    | with_reducible apply State.cmdEnd_keeps
    | with_reducible refine Keeps.mk_ ?_ rfl rfl rfl rfl rfl rfl

theorem execSessionTimeout_keeps (h : Keeps s0 s) : KeepsE s0 (execSessionTimeout s) := by
  unfold execSessionTimeout
  repeat' first
    | with_reducible assumption
    | intro x
    | with_reducible refine KeepsE.next ?_
    | with_reducible apply State.endSession_keeps
    | with_reducible apply State.start_keeps
    | with_reducible refine Keeps.mk_ ?_ rfl rfl rfl rfl rfl rfl

theorem execTelemetry_keeps (h : Keeps s0 s) : ∀ x0 x1 x2 x3, KeepsE s0 (execTelemetry x0 x1 x2 x3 s) := by
  unfold execTelemetry
  repeat' first
    | with_reducible assumption
    | intro x
    | with_reducible refine KeepsE.next ?_
    | with_reducible apply State.frame_keeps
    | with_reducible apply State.start_keeps
    | with_reducible apply State.cmdTelemetry_keeps
    | with_reducible refine Keeps.mk_ ?_ rfl rfl rfl rfl rfl rfl

theorem execRegRead_keeps (h : Keeps s0 s) : ∀ x0 x1 x2, KeepsE s0 (execRegRead x0 x1 x2 s) := by
  unfold execRegRead
  repeat' first
    | with_reducible assumption
    | intro x
    | with_reducible refine KeepsE.next ?_
    | with_reducible apply State.frame_keeps
    | with_reducible apply State.start_keeps
    | with_reducible apply State.cmdRegRead_keeps
    | with_reducible refine Keeps.mk_ ?_ rfl rfl rfl rfl rfl rfl

theorem execRegWrite_keeps (h : Keeps s0 s) : ∀ x0 x1 x2 x3, KeepsE s0 (execRegWrite x0 x1 x2 x3 s) := by
  unfold execRegWrite
  repeat' first
    | with_reducible assumption
    | intro x
    | with_reducible refine KeepsE.next ?_
    | with_reducible apply State.frame_keeps
    | with_reducible apply State.start_keeps
    | with_reducible apply State.cmdRegWrite_keeps
    | with_reducible refine Keeps.mk_ ?_ rfl rfl rfl rfl rfl rfl

theorem execHalt_keeps (h : Keeps s0 s) : ∀ x0 x1 x2, KeepsE s0 (execHalt x0 x1 x2 s) := by
  unfold execHalt
  repeat' first
    | with_reducible assumption
    | intro x
    | with_reducible refine KeepsE.next ?_
    | with_reducible apply State.frame_keeps
    | with_reducible apply State.start_keeps
    | with_reducible apply State.cmdHalt_keeps
    | with_reducible refine Keeps.mk_ ?_ rfl rfl rfl rfl rfl rfl

theorem execHaltTakesEffect_keeps (h : Keeps s0 s) : ∀ x0, KeepsE s0 (execHaltTakesEffect x0 s) := by
  unfold execHaltTakesEffect
  repeat' first
    | with_reducible assumption
    | (intro x; refine (fun (hx : Keeps s0 x) => ?_) ?_; clear_value x; rotate_left; unfold x)
    | intro x
    | (lift_lets; intro x; try (refine (fun (hx : Keeps s0 x) => ?_) ?_; clear_value x; rotate_left; unfold x))
    | with_reducible apply Keeps.ite
    | with_reducible apply KeepsE.ite
    | with_reducible refine KeepsE.next ?_
    | with_reducible apply State.start_keeps
    | with_reducible apply State.haltNow_keeps
    | with_reducible refine Keeps.mk_ ?_ rfl rfl rfl rfl rfl rfl
    | split

theorem execResume_keeps (h : Keeps s0 s) : ∀ x0 x1 x2, KeepsE s0 (execResume x0 x1 x2 s) := by
  unfold execResume
  repeat' first
    | with_reducible assumption
    | intro x
    | with_reducible refine KeepsE.next ?_
    | with_reducible apply State.frame_keeps
    | with_reducible apply State.start_keeps
    | with_reducible apply State.cmdResume_keeps
    | with_reducible refine Keeps.mk_ ?_ rfl rfl rfl rfl rfl rfl

theorem execStep_keeps (h : Keeps s0 s) : ∀ x0 x1 x2 x3, KeepsE s0 (execStep x0 x1 x2 x3 s) := by
  unfold execStep
  repeat' first
    | with_reducible assumption
    | intro x
    | with_reducible refine KeepsE.next ?_
    | with_reducible apply State.frame_keeps
    | with_reducible apply State.start_keeps
    | with_reducible apply State.cmdStep_keeps
    | with_reducible refine Keeps.mk_ ?_ rfl rfl rfl rfl rfl rfl

theorem execStateRead_keeps (h : Keeps s0 s) : ∀ x0 x1 x2 x3, KeepsE s0 (execStateRead x0 x1 x2 x3 s) := by
  unfold execStateRead
  repeat' first
    | with_reducible assumption
    | intro x
    | with_reducible refine KeepsE.next ?_
    | with_reducible apply State.frame_keeps
    | with_reducible apply State.start_keeps
    | with_reducible apply State.cmdStateRead_keeps
    | with_reducible refine Keeps.mk_ ?_ rfl rfl rfl rfl rfl rfl

theorem execBpSet_keeps (h : Keeps s0 s) : ∀ x0 x1 x2 x3 x4 x5, KeepsE s0 (execBpSet x0 x1 x2 x3 x4 x5 s) := by
  unfold execBpSet
  repeat' first
    | with_reducible assumption
    | intro x
    | with_reducible refine KeepsE.next ?_
    | with_reducible apply State.frame_keeps
    | with_reducible apply State.start_keeps
    | with_reducible apply State.cmdBpSet_keeps
    | with_reducible refine Keeps.mk_ ?_ rfl rfl rfl rfl rfl rfl

theorem execBpClr_keeps (h : Keeps s0 s) : ∀ x0 x1 x2 x3, KeepsE s0 (execBpClr x0 x1 x2 x3 s) := by
  unfold execBpClr
  repeat' first
    | with_reducible assumption
    | intro x
    | with_reducible refine KeepsE.next ?_
    | with_reducible apply State.frame_keeps
    | with_reducible apply State.start_keeps
    | with_reducible apply State.cmdBpClr_keeps
    | with_reducible refine Keeps.mk_ ?_ rfl rfl rfl rfl rfl rfl

theorem execWpSet_keeps (h : Keeps s0 s) : ∀ x0 x1 x2 x3 x4 x5 x6, KeepsE s0 (execWpSet x0 x1 x2 x3 x4 x5 x6 s) := by
  unfold execWpSet
  repeat' first
    | with_reducible assumption
    | intro x
    | with_reducible refine KeepsE.next ?_
    | with_reducible apply State.frame_keeps
    | with_reducible apply State.start_keeps
    | with_reducible apply State.cmdWpSet_keeps
    | with_reducible refine Keeps.mk_ ?_ rfl rfl rfl rfl rfl rfl

theorem execWpClr_keeps (h : Keeps s0 s) : ∀ x0 x1 x2 x3, KeepsE s0 (execWpClr x0 x1 x2 x3 s) := by
  unfold execWpClr
  repeat' first
    | with_reducible assumption
    | intro x
    | with_reducible refine KeepsE.next ?_
    | with_reducible apply State.frame_keeps
    | with_reducible apply State.start_keeps
    | with_reducible apply State.cmdWpClr_keeps
    | with_reducible refine Keeps.mk_ ?_ rfl rfl rfl rfl rfl rfl

theorem execLaneBp_keeps (h : Keeps s0 s) : ∀ x0 x1 x2 x3, KeepsE s0 (execLaneBp x0 x1 x2 x3 s) := by
  unfold execLaneBp
  repeat' first
    | with_reducible assumption
    | intro x
    | with_reducible refine KeepsE.next ?_
    | with_reducible apply State.frame_keeps
    | with_reducible apply State.start_keeps
    | with_reducible apply State.cmdLaneBp_keeps
    | with_reducible refine Keeps.mk_ ?_ rfl rfl rfl rfl rfl rfl

theorem execMemRead_keeps (h : Keeps s0 s) : ∀ x0 x1 x2 x3 x4, KeepsE s0 (execMemRead x0 x1 x2 x3 x4 s) := by
  unfold execMemRead
  repeat' first
    | with_reducible assumption
    | intro x
    | with_reducible refine KeepsE.next ?_
    | with_reducible apply State.frame_keeps
    | with_reducible apply State.start_keeps
    | with_reducible apply State.cmdMemRead_keeps
    | with_reducible refine Keeps.mk_ ?_ rfl rfl rfl rfl rfl rfl

theorem execMemWrite_keeps (h : Keeps s0 s) : ∀ x0 x1 x2 x3 x4, KeepsE s0 (execMemWrite x0 x1 x2 x3 x4 s) := by
  unfold execMemWrite
  repeat' first
    | with_reducible assumption
    | intro x
    | with_reducible refine KeepsE.next ?_
    | with_reducible apply State.frame_keeps
    | with_reducible apply State.start_keeps
    | with_reducible apply State.cmdMemWrite_keeps
    | with_reducible refine Keeps.mk_ ?_ rfl rfl rfl rfl rfl rfl

theorem execRetire_keeps (h : Keeps s0 s) : ∀ x0 x1 x2 x3, KeepsE s0 (execRetire x0 x1 x2 x3 s) := by
  unfold execRetire
  repeat' first
    | with_reducible assumption
    | intro x
    | with_reducible refine KeepsE.next ?_
    | with_reducible apply State.frame_keeps
    | with_reducible apply State.start_keeps
    | with_reducible apply State.cmdRetire_keeps
    | with_reducible refine Keeps.mk_ ?_ rfl rfl rfl rfl rfl rfl

theorem execLock_keeps (h : Keeps s0 s) : ∀ x0 x1 x2, KeepsE s0 (execLock x0 x1 x2 s) := by
  unfold execLock
  repeat' first
    | with_reducible assumption
    | intro x
    | with_reducible refine KeepsE.next ?_
    | with_reducible apply State.frame_keeps
    | with_reducible apply State.start_keeps
    | with_reducible apply State.cmdLock_keeps
    | with_reducible refine Keeps.mk_ ?_ rfl rfl rfl rfl rfl rfl

theorem execDbgRspCapture_keeps (h : Keeps s0 s) : KeepsE s0 (execDbgRspCapture s) := by
  unfold execDbgRspCapture
  repeat' first
    | with_reducible assumption
    | (intro x; refine (fun (hx : Keeps s0 x) => ?_) ?_; clear_value x; rotate_left; unfold x)
    | intro x
    | (lift_lets; intro x; try (refine (fun (hx : Keeps s0 x) => ?_) ?_; clear_value x; rotate_left; unfold x))
    | with_reducible refine KeepsE.next ?_
    | split
    | with_reducible apply State.start_keeps
    | with_reducible apply State.emit_keeps
    | with_reducible refine Keeps.getD ?_ ?_
    | with_reducible refine Keeps.mk_ ?_ rfl rfl rfl rfl rfl rfl
    | split

end Sys2Proof.Machine
end

