-- ==== Sys2Proof/Laws/KeepsGovernors.lean ====
section
/-!
SUPPORT. What every operation of Machine/Governors.lean keeps (see Laws/Keeps.lean).
-/
namespace Sys2Proof.Machine

set_option Elab.async false
set_option linter.unreachableTactic false
set_option linter.unusedTactic false

variable {s0 s t : State}

theorem State.capture_keeps (h : Keeps s0 s) : ∀ x1 x2 x3, Keeps s0 (State.capture s x1 x2 x3) := by
  unfold State.capture
  repeat' first
    | with_reducible assumption
    | (intro x; refine (fun (hx : Keeps s0 x) => ?_) ?_; clear_value x; rotate_left; unfold x)
    | intro x
    | (lift_lets; intro x; try (refine (fun (hx : Keeps s0 x) => ?_) ?_; clear_value x; rotate_left; unfold x))
    | with_reducible apply Keeps.ite
    | split
    | with_reducible apply State.setLane_keeps
    | with_reducible apply State.mbEnd_keeps
    | with_reducible apply State.writeBytes_keeps
    | with_reducible apply State.mbAll_keeps
    | with_reducible refine Keeps.mk_ ?_ rfl rfl rfl rfl rfl rfl
    | split

theorem State.frameLost_keeps (h : Keeps s0 s) : ∀ x1 x2, Keeps s0 (State.frameLost s x1 x2) := by
  unfold State.frameLost
  repeat' first
    | with_reducible assumption
    | (intro x; refine (fun (hx : Keeps s0 x) => ?_) ?_; clear_value x; rotate_left; unfold x)
    | intro x
    | (lift_lets; intro x; try (refine (fun (hx : Keeps s0 x) => ?_) ?_; clear_value x; rotate_left; unfold x))
    | with_reducible apply Keeps.ite
    | with_reducible apply State.setLane_keeps
    | with_reducible apply State.laneLose_keeps
    | with_reducible apply State.record_keeps
    | with_reducible refine Keeps.mk_ ?_ rfl rfl rfl rfl rfl rfl
    | split

theorem State.frameMismatch_keeps (h : Keeps s0 s) : ∀ x1, Keeps s0 (State.frameMismatch s x1) := by
  unfold State.frameMismatch
  repeat' first
    | with_reducible assumption
    | (intro x; refine (fun (hx : Keeps s0 x) => ?_) ?_; clear_value x; rotate_left; unfold x)
    | intro x
    | (lift_lets; intro x; try (refine (fun (hx : Keeps s0 x) => ?_) ?_; clear_value x; rotate_left; unfold x))
    | with_reducible apply Keeps.ite
    | with_reducible apply State.laneLose_keeps
    | with_reducible apply State.setLane_keeps
    | with_reducible apply State.record_keeps
    | with_reducible refine Keeps.mk_ ?_ rfl rfl rfl rfl rfl rfl
    | split

theorem State.frameIn_keeps (h : Keeps s0 s) : ∀ x1 x2 x3 x4, Keeps s0 (State.frameIn s x1 x2 x3 x4) := by
  unfold State.frameIn
  repeat' first
    | with_reducible assumption
    | (intro x; refine (fun (hx : Keeps s0 x) => ?_) ?_; clear_value x; rotate_left; unfold x)
    | intro x
    | (lift_lets; intro x; try (refine (fun (hx : Keeps s0 x) => ?_) ?_; clear_value x; rotate_left; unfold x))
    | with_reducible apply Keeps.ite
    | with_reducible apply State.setLane_keeps
    | with_reducible apply State.bump_keeps
    | with_reducible apply State.laneIn_keeps
    | with_reducible refine Keeps.mk_ ?_ rfl rfl rfl rfl rfl rfl
    | split

theorem execFrameDecoded_keeps (h : Keeps s0 s) : ∀ x0 x1 x2 x3 x4 x5, KeepsE s0 (execFrameDecoded x0 x1 x2 x3 x4 x5 s) := by
  unfold execFrameDecoded
  repeat' first
    | with_reducible assumption
    | (intro x; refine (fun (hx : Keeps s0 x) => ?_) ?_; clear_value x; rotate_left; unfold x)
    | intro x
    | (lift_lets; intro x; try (refine (fun (hx : Keeps s0 x) => ?_) ?_; clear_value x; rotate_left; unfold x))
    | with_reducible apply Keeps.ite
    | with_reducible apply KeepsE.ite
    | with_reducible refine KeepsE.next ?_
    | split
    | with_reducible apply State.fabric_keeps
    | with_reducible apply State.start_keeps
    | with_reducible apply State.capture_keeps
    | with_reducible apply State.laneArrival_keeps
    | with_reducible apply State.frameLost_keeps
    | with_reducible apply State.frameMismatch_keeps
    | with_reducible apply State.frameIn_keeps
    | with_reducible refine Keeps.mk_ ?_ rfl rfl rfl rfl rfl rfl
    | split

theorem execDeltaCompareDone_keeps (h : Keeps s0 s) : ∀ x0, KeepsE s0 (execDeltaCompareDone x0 s) := by
  unfold execDeltaCompareDone
  repeat' first
    | with_reducible assumption
    | (intro x; refine (fun (hx : Keeps s0 x) => ?_) ?_; clear_value x; rotate_left; unfold x)
    | intro x
    | (lift_lets; intro x; try (refine (fun (hx : Keeps s0 x) => ?_) ?_; clear_value x; rotate_left; unfold x))
    | with_reducible apply Keeps.ite
    | with_reducible apply KeepsE.ite
    | with_reducible refine KeepsE.next ?_
    | split
    | with_reducible apply State.start_keeps
    | with_reducible apply State.compareFrame_keeps
    | with_reducible apply State.flushHeld_keeps
    | with_reducible apply State.formMap_keeps
    | with_reducible refine Keeps.mk_ ?_ rfl rfl rfl rfl rfl rfl
    | split

theorem execEnergyGovernorChoose_keeps (h : Keeps s0 s) : ∀ x0, KeepsE s0 (execEnergyGovernorChoose x0 s) := by
  unfold execEnergyGovernorChoose
  repeat' first
    | with_reducible assumption
    | (intro x; refine (fun (hx : Keeps s0 x) => ?_) ?_; clear_value x; rotate_left; unfold x)
    | intro x
    | (lift_lets; intro x; try (refine (fun (hx : Keeps s0 x) => ?_) ?_; clear_value x; rotate_left; unfold x))
    | with_reducible apply Keeps.ite
    | with_reducible apply KeepsE.ite
    | with_reducible refine KeepsE.next ?_
    | split
    | with_reducible apply State.start_keeps
    | with_reducible apply State.flushHeld_keeps
    | with_reducible apply State.formMap_keeps
    | with_reducible refine Keeps.mk_ ?_ rfl rfl rfl rfl rfl rfl
    | split

theorem execDeltaMapTimeout_keeps (h : Keeps s0 s) : ∀ x0, KeepsE s0 (execDeltaMapTimeout x0 s) := by
  unfold execDeltaMapTimeout
  repeat' first
    | with_reducible assumption
    | (intro x; refine (fun (hx : Keeps s0 x) => ?_) ?_; clear_value x; rotate_left; unfold x)
    | intro x
    | (lift_lets; intro x; try (refine (fun (hx : Keeps s0 x) => ?_) ?_; clear_value x; rotate_left; unfold x))
    | with_reducible refine KeepsE.next ?_
    | split
    | with_reducible apply State.start_keeps
    | with_reducible apply State.dropFrame_keeps
    | with_reducible refine Keeps.mk_ ?_ rfl rfl rfl rfl rfl rfl
    | split

theorem State.monitorLost_keeps (h : Keeps s0 s) : ∀ x1, Keeps s0 (State.monitorLost s x1) := by
  unfold State.monitorLost
  repeat' first
    | with_reducible assumption
    | (intro x; refine (fun (hx : Keeps s0 x) => ?_) ?_; clear_value x; rotate_left; unfold x)
    | intro x
    | (lift_lets; intro x; try (refine (fun (hx : Keeps s0 x) => ?_) ?_; clear_value x; rotate_left; unfold x))
    | with_reducible apply Keeps.ite
    | with_reducible apply State.put_keeps
    | with_reducible apply State.setA_keeps
    | with_reducible apply State.setScull_keeps
    | with_reducible apply State.record_keeps
    | with_reducible refine Keeps.mk_ ?_ rfl rfl rfl rfl rfl rfl
    | split

theorem execVmeUpdate_keeps (h : Keeps s0 s) : ∀ x0 x1 x2 x3, KeepsE s0 (execVmeUpdate x0 x1 x2 x3 s) := by
  unfold execVmeUpdate
  repeat' first
    | with_reducible assumption
    | (intro x; refine (fun (hx : Keeps s0 x) => ?_) ?_; clear_value x; rotate_left; unfold x)
    | intro x
    | (lift_lets; intro x; try (refine (fun (hx : Keeps s0 x) => ?_) ?_; clear_value x; rotate_left; unfold x))
    | with_reducible apply Keeps.ite
    | with_reducible apply KeepsE.ite
    | with_reducible refine KeepsE.next ?_
    | with_reducible apply State.start_keeps
    | with_reducible apply State.put_keeps
    | with_reducible apply State.setScull_keeps
    | with_reducible apply State.monitorLost_keeps
    | with_reducible refine Keeps.mk_ ?_ rfl rfl rfl rfl rfl rfl
    | split

theorem State.governScull_keeps (h : Keeps s0 s) : ∀ x1 x2, Keeps s0 (State.governScull s x1 x2) := by
  unfold State.governScull
  repeat' first
    | with_reducible assumption
    | (intro x; refine (fun (hx : Keeps s0 x) => ?_) ?_; clear_value x; rotate_left; unfold x)
    | intro x
    | (lift_lets; intro x; try (refine (fun (hx : Keeps s0 x) => ?_) ?_; clear_value x; rotate_left; unfold x))
    | with_reducible apply Keeps.ite
    | with_reducible apply State.setVso_keeps
    | with_reducible apply State.setScull_keeps
    | with_reducible apply State.setA_keeps
    | with_reducible refine Keeps.mk_ ?_ rfl rfl rfl rfl rfl rfl
    | split

theorem State.governHalf_keeps (h : Keeps s0 s) : ∀ x1 x2, Keeps s0 (State.governHalf s x1 x2) := by
  unfold State.governHalf
  repeat' first
    | with_reducible assumption
    | intro x
    | with_reducible apply State.moveRail_keeps
    | with_reducible refine Keeps.mk_ ?_ rfl rfl rfl rfl rfl rfl

theorem State.tickEnergy_keeps (h : Keeps s0 s) : ∀ x1, Keeps s0 (State.tickEnergy s x1) := by
  unfold State.tickEnergy
  repeat' first
    | with_reducible assumption
    | (intro x; refine (fun (hx : Keeps s0 x) => ?_) ?_; clear_value x; rotate_left; unfold x)
    | intro x
    | (lift_lets; intro x; try (refine (fun (hx : Keeps s0 x) => ?_) ?_; clear_value x; rotate_left; unfold x))
    | with_reducible apply State.laneEnergy_keeps
    | with_reducible apply State.bump_keeps
    | with_reducible refine Keeps.foldl ?_ ?_
    | with_reducible refine Keeps.mk_ ?_ rfl rfl rfl rfl rfl rfl

theorem execVsoGovernorTick_keeps (h : Keeps s0 s) : KeepsE s0 (execVsoGovernorTick s) := by
  unfold execVsoGovernorTick
  repeat' first
    | with_reducible assumption
    | (intro x; refine (fun (hx : Keeps s0 x) => ?_) ?_; clear_value x; rotate_left; unfold x)
    | intro x
    | (lift_lets; intro x; try (refine (fun (hx : Keeps s0 x) => ?_) ?_; clear_value x; rotate_left; unfold x))
    | with_reducible apply Keeps.ite
    | with_reducible apply KeepsE.ite
    | with_reducible refine KeepsE.next ?_
    | with_reducible apply State.start_keeps
    | with_reducible apply State.governScull_keeps
    | with_reducible apply State.tickEnergy_keeps
    | with_reducible apply State.governHalf_keeps
    | with_reducible refine Keeps.foldl ?_ ?_
    | with_reducible refine Keeps.mk_ ?_ rfl rfl rfl rfl rfl rfl
    | split

theorem execPowerPolicyOff_keeps (h : Keeps s0 s) : ∀ x0, KeepsE s0 (execPowerPolicyOff x0 s) := by
  unfold execPowerPolicyOff
  repeat' first
    | with_reducible assumption
    | (intro x; refine (fun (hx : Keeps s0 x) => ?_) ?_; clear_value x; rotate_left; unfold x)
    | intro x
    | (lift_lets; intro x; try (refine (fun (hx : Keeps s0 x) => ?_) ?_; clear_value x; rotate_left; unfold x))
    | with_reducible apply Keeps.ite
    | with_reducible apply KeepsE.ite
    | with_reducible refine KeepsE.next ?_
    | split
    | with_reducible apply State.start_keeps
    | with_reducible apply State.domainOff_keeps
    | with_reducible refine (State.askQuiesce_keeps ?_ _ _ ).out _ (by assumption)
    | with_reducible apply State.askQuiesce_keeps
    | with_reducible refine Keeps.mk_ ?_ rfl rfl rfl rfl rfl rfl
    | split

theorem execDomainWakeDone_keeps (h : Keeps s0 s) : ∀ x0, KeepsE s0 (execDomainWakeDone x0 s) := by
  unfold execDomainWakeDone
  repeat' first
    | with_reducible assumption
    | (intro x; refine (fun (hx : Keeps s0 x) => ?_) ?_; clear_value x; rotate_left; unfold x)
    | intro x
    | (lift_lets; intro x; try (refine (fun (hx : Keeps s0 x) => ?_) ?_; clear_value x; rotate_left; unfold x))
    | with_reducible apply Keeps.ite
    | with_reducible apply KeepsE.ite
    | with_reducible refine KeepsE.next ?_
    | with_reducible apply State.start_keeps
    | with_reducible apply State.mbAll_keeps
    | with_reducible apply State.domainCame_keeps
    | with_reducible refine Keeps.mk_ ?_ rfl rfl rfl rfl rfl rfl
    | split

theorem execWakeTimeout_keeps (h : Keeps s0 s) : ∀ x0, KeepsE s0 (execWakeTimeout x0 s) := by
  unfold execWakeTimeout
  repeat' first
    | with_reducible assumption
    | (intro x; refine (fun (hx : Keeps s0 x) => ?_) ?_; clear_value x; rotate_left; unfold x)
    | intro x
    | (lift_lets; intro x; try (refine (fun (hx : Keeps s0 x) => ?_) ?_; clear_value x; rotate_left; unfold x))
    | with_reducible apply Keeps.ite
    | with_reducible apply KeepsE.ite
    | with_reducible refine KeepsE.next ?_
    | with_reducible apply State.start_keeps
    | with_reducible apply State.put_keeps
    | with_reducible apply State.record_keeps
    | with_reducible apply State.silentUnit_keeps
    | with_reducible apply State.mbAll_keeps
    | with_reducible apply State.afterWakeFail_keeps
    | with_reducible apply State.wakeLost_keeps
    | with_reducible refine Keeps.mk_ ?_ rfl rfl rfl rfl rfl rfl
    | split

end Sys2Proof.Machine
end

