-- ==== Sys2Proof/Laws/KeepsReplies.lean ====
section
/-!
SUPPORT. What every operation of Machine/Replies.lean keeps (see Laws/Keeps.lean).
-/
namespace Sys2Proof.Machine

set_option Elab.async false
set_option linter.unreachableTactic false
set_option linter.unusedTactic false

variable {s0 s t : State}

theorem State.serveHeld_keeps (h : Keeps s0 s) : ∀ x0, Keeps s0 (State.serveHeld x0 s) := by
  unfold State.serveHeld
  repeat' first
    | with_reducible assumption
    | (intro x; refine (fun (hx : Keeps s0 x) => ?_) ?_; clear_value x; rotate_left; unfold x)
    | intro x
    | (lift_lets; intro x; try (refine (fun (hx : Keeps s0 x) => ?_) ?_; clear_value x; rotate_left; unfold x))
    | split
    | with_reducible apply State.cmdStatus_keeps
    | with_reducible apply State.cmdUnlockPw_keeps
    | with_reducible apply State.cmdChallenge_keeps
    | with_reducible apply State.cmdUnlockRsp_keeps
    | with_reducible apply State.cmdEnd_keeps
    | with_reducible apply State.cmdTelemetry_keeps
    | with_reducible apply State.cmdRegRead_keeps
    | with_reducible apply State.cmdRegWrite_keeps
    | with_reducible apply State.cmdHalt_keeps
    | with_reducible apply State.cmdResume_keeps
    | with_reducible apply State.cmdStep_keeps
    | with_reducible apply State.cmdStateRead_keeps
    | with_reducible apply State.cmdBpSet_keeps
    | with_reducible apply State.cmdBpClr_keeps
    | with_reducible apply State.cmdWpSet_keeps
    | with_reducible apply State.cmdWpClr_keeps
    | with_reducible apply State.cmdLaneBp_keeps
    | with_reducible apply State.cmdMemRead_keeps
    | with_reducible apply State.cmdMemWrite_keeps
    | with_reducible apply State.cmdRetire_keeps
    | with_reducible apply State.cmdLock_keeps
    | with_reducible refine Keeps.mk_ ?_ rfl rfl rfl rfl rfl rfl
    | split

theorem State.monitorGo_keeps (h : Keeps s0 s) : Keeps s0 (State.monitorGo s) := by
  unfold State.monitorGo
  repeat' first
    | with_reducible assumption
    | (intro x; refine (fun (hx : Keeps s0 x) => ?_) ?_; clear_value x; rotate_left; unfold x)
    | intro x
    | (lift_lets; intro x; try (refine (fun (hx : Keeps s0 x) => ?_) ?_; clear_value x; rotate_left; unfold x))
    | split
    | with_reducible apply State.serveHeld_keeps
    | with_reducible refine Keeps.mk_ ?_ rfl rfl rfl rfl rfl rfl
    | split

theorem execData_keeps (h : Keeps s0 s) : ∀ x0 x1 x2 x3 x4 x5, KeepsE s0 (execData x0 x1 x2 x3 x4 x5 s) := by
  unfold execData
  repeat' first
    | with_reducible assumption
    | (intro x; refine (fun (hx : Keeps s0 x) => ?_) ?_; clear_value x; rotate_left; unfold x)
    | intro x
    | (lift_lets; intro x; try (refine (fun (hx : Keeps s0 x) => ?_) ?_; clear_value x; rotate_left; unfold x))
    | with_reducible apply Keeps.ite
    | with_reducible apply KeepsE.ite
    | with_reducible refine KeepsE.next ?_
    | split
    | with_reducible apply State.carried_keeps
    | with_reducible apply State.start_keeps
    | with_reducible apply State.settle_keeps
    | with_reducible apply State.monitorGo_keeps
    | with_reducible apply State.bump_keeps
    | with_reducible apply State.dataTo_keeps
    | with_reducible apply State.snoopData_keeps
    | with_reducible refine Keeps.mk_ ?_ rfl rfl rfl rfl rfl rfl
    | split

theorem execAck_keeps (h : Keeps s0 s) : ∀ x0 x1 x2 x3 x4, KeepsE s0 (execAck x0 x1 x2 x3 x4 s) := by
  unfold execAck
  repeat' first
    | with_reducible assumption
    | (intro x; refine (fun (hx : Keeps s0 x) => ?_) ?_; clear_value x; rotate_left; unfold x)
    | intro x
    | (lift_lets; intro x; try (refine (fun (hx : Keeps s0 x) => ?_) ?_; clear_value x; rotate_left; unfold x))
    | with_reducible apply Keeps.ite
    | with_reducible apply KeepsE.ite
    | with_reducible refine KeepsE.next ?_
    | split
    | with_reducible apply State.carried_keeps
    | with_reducible apply State.start_keeps
    | with_reducible apply State.settle_keeps
    | with_reducible apply State.monitorGo_keeps
    | with_reducible apply State.bump_keeps
    | with_reducible apply State.ackTo_keeps
    | with_reducible apply State.snoopAnswer_keeps
    | with_reducible refine Keeps.mk_ ?_ rfl rfl rfl rfl rfl rfl
    | split

theorem execFlitReceive_keeps (h : Keeps s0 s) : ∀ x0 x1, KeepsE s0 (execFlitReceive x0 x1 s) := by
  unfold execFlitReceive
  repeat' first
    | with_reducible assumption
    | (intro x; refine (fun (hx : Keeps s0 x) => ?_) ?_; clear_value x; rotate_left; unfold x)
    | intro x
    | (lift_lets; intro x; try (refine (fun (hx : Keeps s0 x) => ?_) ?_; clear_value x; rotate_left; unfold x))
    | with_reducible apply Keeps.ite
    | with_reducible apply KeepsE.ite
    | with_reducible refine KeepsE.next ?_
    | with_reducible apply State.start_keeps
    | with_reducible apply State.settle_keeps
    | with_reducible apply State.portGo_keeps
    | with_reducible apply State.monitorGo_keeps
    | with_reducible apply State.flitIn_keeps
    | with_reducible refine Keeps.mk_ ?_ rfl rfl rfl rfl rfl rfl
    | split

theorem execJlAck_keeps (h : Keeps s0 s) : ∀ x0 x1, KeepsE s0 (execJlAck x0 x1 s) := by
  unfold execJlAck
  repeat' first
    | with_reducible assumption
    | (intro x; refine (fun (hx : Keeps s0 x) => ?_) ?_; clear_value x; rotate_left; unfold x)
    | intro x
    | (lift_lets; intro x; try (refine (fun (hx : Keeps s0 x) => ?_) ?_; clear_value x; rotate_left; unfold x))
    | with_reducible apply Keeps.ite
    | with_reducible apply KeepsE.ite
    | with_reducible refine KeepsE.next ?_
    | with_reducible apply State.start_keeps
    | with_reducible apply State.settle_keeps
    | with_reducible apply State.monitorGo_keeps
    | with_reducible apply State.jlMessage_keeps
    | with_reducible refine Keeps.mk_ ?_ rfl rfl rfl rfl rfl rfl
    | split

theorem execJlData_keeps (h : Keeps s0 s) : ∀ x0 x1, KeepsE s0 (execJlData x0 x1 s) := by
  unfold execJlData
  repeat' first
    | with_reducible assumption
    | (intro x; refine (fun (hx : Keeps s0 x) => ?_) ?_; clear_value x; rotate_left; unfold x)
    | intro x
    | (lift_lets; intro x; try (refine (fun (hx : Keeps s0 x) => ?_) ?_; clear_value x; rotate_left; unfold x))
    | with_reducible apply Keeps.ite
    | with_reducible apply KeepsE.ite
    | with_reducible refine KeepsE.next ?_
    | with_reducible apply State.start_keeps
    | with_reducible apply State.settle_keeps
    | with_reducible apply State.monitorGo_keeps
    | with_reducible apply State.jlMessage_keeps
    | with_reducible refine Keeps.mk_ ?_ rfl rfl rfl rfl rfl rfl
    | split

theorem State.giveUp_keeps (h : Keeps s0 s) : ∀ x1 x2, Keeps s0 (State.giveUp s x1 x2) := by
  unfold State.giveUp
  repeat' first
    | with_reducible assumption
    | (intro x; refine (fun (hx : Keeps s0 x) => ?_) ?_; clear_value x; rotate_left; unfold x)
    | intro x
    | (lift_lets; intro x; try (refine (fun (hx : Keeps s0 x) => ?_) ?_; clear_value x; rotate_left; unfold x))
    | split
    | with_reducible apply State.setPend_keeps
    | with_reducible refine Keeps.mk_ ?_ rfl rfl rfl rfl rfl rfl
    | split

theorem execRequestTimeout_keeps (h : Keeps s0 s) : ∀ x0 x1, KeepsE s0 (execRequestTimeout x0 x1 s) := by
  unfold execRequestTimeout
  repeat' first
    | with_reducible assumption
    | (intro x; refine (fun (hx : Keeps s0 x) => ?_) ?_; clear_value x; rotate_left; unfold x)
    | intro x
    | (lift_lets; intro x; try (refine (fun (hx : Keeps s0 x) => ?_) ?_; clear_value x; rotate_left; unfold x))
    | with_reducible refine KeepsE.next ?_
    | split
    | with_reducible apply State.giveUp_keeps
    | with_reducible apply State.tagTimeout_keeps
    | with_reducible apply State.start_keeps
    | with_reducible apply State.settle_keeps
    | with_reducible apply State.taskError_keeps
    | with_reducible apply State.burstError_keeps
    | with_reducible apply State.monitorGo_keeps
    | with_reducible apply State.dbgEnd_keeps
    | with_reducible apply State.moveRing_keeps
    | with_reducible apply State.emit_keeps
    | with_reducible apply State.agentError_keeps
    | with_reducible refine Keeps.mk_ ?_ rfl rfl rfl rfl rfl rfl
    | split

end Sys2Proof.Machine
end

