-- ==== Sys2Proof/Laws/KeepsDispatch.lean ====
section
/-!
SUPPORT. What every operation of Machine/Dispatch.lean keeps (see Laws/Keeps.lean).
-/
namespace Sys2Proof.Machine

set_option Elab.async false
set_option linter.unreachableTactic false
set_option linter.unusedTactic false

variable {s0 s t : State}

theorem exec_keeps (h : Keeps s0 s) : ∀ x0, KeepsE s0 (exec x0 s) := by
  intro c
  cases c with
  | reg64LowWrite src off v => exact execReg64LowWrite_keeps h src off v
  | reg64HighWrite src off v => exact execReg64HighWrite_keeps h src off v
  | reg64LowRead src off => exact execReg64LowRead_keeps h src off
  | reg64HighRead src off => exact execReg64HighRead_keeps h src off
  | registerWrite src off size v => exact execRegisterWrite_keeps h src off size v
  | startUp env => exact execStartUp_keeps h env
  | flashReadTimeout slot => exact execFlashReadTimeout_keeps h slot
  | trainingComplete stackUp dieUp cables bch ms => exact execTrainingComplete_keeps h stackUp dieUp cables bch ms
  | replicaRateRefresh west east => exact execReplicaRateRefresh_keeps h west east
  | requestTimeout w addr => exact execRequestTimeout_keeps h w addr
  | channelStall ch unit => exact execChannelStall_keeps h ch unit
  | fence scull kind => exact execFence_keeps h scull kind
  | readShared tag agent addr ticket ecc fab => exact execReadShared_keeps h tag agent addr ticket ecc fab
  | readOwn tag agent addr store ticket ecc fab => exact execReadOwn_keeps h tag agent addr store ticket ecc fab
  | upgrade tag agent addr store ticket ecc fab => exact execUpgrade_keeps h tag agent addr store ticket ecc fab
  | readOnce tag src addr ticket ecc fab => exact execReadOnce_keeps h tag src addr ticket ecc fab
  | writeLine tag src addr store ticket ecc fab => exact execWriteLine_keeps h tag src addr store ticket ecc fab
  | atomicFetchAdd tag src addr args ticket => exact execAtomicFetchAdd_keeps h tag src addr args ticket
  | atomicSwap tag src addr args ticket => exact execAtomicSwap_keeps h tag src addr args ticket
  | atomicCompareSwap tag src addr args ticket => exact execAtomicCompareSwap_keeps h tag src addr args ticket
  | atomicMinS tag src addr args ticket => exact execAtomicMinS_keeps h tag src addr args ticket
  | atomicMaxS tag src addr args ticket => exact execAtomicMaxS_keeps h tag src addr args ticket
  | atomicMinU tag src addr args ticket => exact execAtomicMinU_keeps h tag src addr args ticket
  | atomicMaxU tag src addr args ticket => exact execAtomicMaxU_keeps h tag src addr args ticket
  | lockAcquire tag op => exact execLockAcquire_keeps h tag op
  | lockTryAcquire tag op => exact execLockTryAcquire_keeps h tag op
  | lockRelease tag op => exact execLockRelease_keeps h tag op
  | lockInspect tag op => exact execLockInspect_keeps h tag op
  | snoopShare agent addr after evicting ecc fab => exact execSnoopShare_keeps h agent addr after evicting ecc fab
  | snoopInv agent addr after evicting ecc fab => exact execSnoopInv_keeps h agent addr after evicting ecc fab
  | snoopMiss agent addr fab => exact execSnoopMiss_keeps h agent addr fab
  | evictNotice tag agent addr ue fab => exact execEvictNotice_keeps h tag agent addr ue fab
  | writeBack tag agent addr data ue fab => exact execWriteBack_keeps h tag agent addr data ue fab
  | data dst addr data grant epoch fab => exact execData_keeps h dst addr data grant epoch fab
  | ack dst addr status epoch fab => exact execAck_keeps h dst addr status epoch fab
  | retry src addr ticket fab => exact execRetry_keeps h src addr ticket fab
  | retryReissue src addr => exact execRetryReissue_keeps h src addr
  | ticketReservationExpiry addr => exact execTicketReservationExpiry_keeps h addr
  | lockGrant tag lock status fab => exact execLockGrant_keeps h tag lock status fab
  | lockWaitTimeout tag lock => exact execLockWaitTimeout_keeps h tag lock
  | epochBroadcast unit epoch latNs fab => exact execEpochBroadcast_keeps h unit epoch latNs fab
  | contextFaultNotice ctx fab => exact execContextFaultNotice_keeps h ctx fab
  | patrolScrub addr ecc => exact execPatrolScrub_keeps h addr ecc
  | tlbMiss xlu ctx va kind w => exact execTlbMiss_keeps h xlu ctx va kind w
  | walkComplete ctx va readErr ecc => exact execWalkComplete_keeps h ctx va readErr ecc
  | saveAreaWritten scull task status => exact execSaveAreaWritten_keeps h scull task status
  | xluFqHeadWrite src part v => exact execXluFqHeadWrite_keeps h src part v
  | fqResumeRetry src part id => exact execFqResumeRetry_keeps h src part id
  | fqResumeAbort src part id => exact execFqResumeAbort_keeps h src part id
  | faultHoldTimeout ctx => exact execFaultHoldTimeout_keeps h ctx
  | ctxRelease src ctx => exact execCtxRelease_keeps h src ctx
  | xluCtxCfgWrite src ctx v => exact execXluCtxCfgWrite_keeps h src ctx v
  | invContext src part ctx => exact execInvContext_keeps h src part ctx
  | invRange src part ctx => exact execInvRange_keeps h src part ctx
  | invPartition src part => exact execInvPartition_keeps h src part
  | invStage2 src part => exact execInvStage2_keeps h src part
  | invalidateComplete part => exact execInvalidateComplete_keeps h part
  | missTimeout xlu ctx va => exact execMissTimeout_keeps h xlu ctx va
  | arrayStep scull step => exact execArrayStep_keeps h scull step
  | weightPlaneLoad scull fmt dual tileOff ecc line => exact execWeightPlaneLoad_keeps h scull fmt dual tileOff ecc line
  | planeSwap scull => exact execPlaneSwap_keeps h scull
  | accumulatorDrain scull entry reg => exact execAccumulatorDrain_keeps h scull entry reg
  | vectorOp scull op => exact execVectorOp_keeps h scull op
  | catchCheckerClose scull late => exact execCatchCheckerClose_keeps h scull late
  | catchWindowEnd scull => exact execCatchWindowEnd_keeps h scull
  | taskRunnable scull task trigger => exact execTaskRunnable_keeps h scull task trigger
  | taskDispatch scull => exact execTaskDispatch_keeps h scull
  | taskCommit scull given => exact execTaskCommit_keeps h scull given
  | taskWatchdogExpiry scull => exact execTaskWatchdogExpiry_keeps h scull
  | sldStart src eng ctx => exact execSldStart_keeps h src eng ctx
  | sldAbort src eng => exact execSldAbort_keeps h src eng
  | slideBurstIssue eng => exact execSlideBurstIssue_keeps h eng
  | slideCreditArrives eng => exact execSlideCreditArrives_keeps h eng
  | vmeUpdate scull leakage temp ok => exact execVmeUpdate_keeps h scull leakage temp ok
  | vsoGovernorTick => exact execVsoGovernorTick_keeps h
  | frameDecoded lane kind rtpTs arrival bytes fab => exact execFrameDecoded_keeps h lane kind rtpTs arrival bytes fab
  | deltaCompareDone lane => exact execDeltaCompareDone_keeps h lane
  | energyGovernorChoose lane => exact execEnergyGovernorChoose_keeps h lane
  | deltaMapTimeout lane => exact execDeltaMapTimeout_keeps h lane
  | catchBandWrite src lane v => exact execCatchBandWrite_keeps h src lane v
  | catchReuseCfgWrite src lane v => exact execCatchReuseCfgWrite_keeps h src lane v
  | catchAggrMaxWrite src scull v => exact execCatchAggrMaxWrite_keeps h src scull v
  | powerPolicyOff dom => exact execPowerPolicyOff_keeps h dom
  | domainWakeDone dom => exact execDomainWakeDone_keeps h dom
  | wakeTimeout dom => exact execWakeTimeout_keeps h dom
  | pwrReqAuto src dom => exact execPwrReqAuto_keeps h src dom
  | pwrReqOn src dom => exact execPwrReqOn_keeps h src dom
  | pwrReqOff src dom => exact execPwrReqOff_keeps h src dom
  | pwrReqForceOff src dom => exact execPwrReqForceOff_keeps h src dom
  | rtpPacket die port pkt => exact execRtpPacket_keeps h die port pkt
  | rtcpSenderReport die port pkt sec frac => exact execRtcpSenderReport_keeps h die port pkt sec frac
  | membershipQuery die port family group => exact execMembershipQuery_keeps h die port family group
  | ptpSync domain seq twoStep origin => exact execPtpSync_keeps h domain seq twoStep origin
  | ptpFollowUp seq origin => exact execPtpFollowUp_keeps h seq origin
  | ptpDelayResp sent received => exact execPtpDelayResp_keeps h sent received
  | ptpAnnounce domain rank utcValid utc => exact execPtpAnnounce_keeps h domain rank utcValid utc
  | ptpHoldoverEntry => exact execPtpHoldoverEntry_keeps h
  | gptpSyncTimer die seg => exact execGptpSyncTimer_keeps h die seg
  | gptpPdelayReq die seg frame => exact execGptpPdelayReq_keeps h die seg frame
  | sensorAnnounce die seg mac frame => exact execSensorAnnounce_keeps h die seg mac frame
  | sensorStatus die seg frame => exact execSensorStatus_keeps h die seg frame
  | sensorSamples die seg frame => exact execSensorSamples_keeps h die seg frame
  | configResend => exact execConfigResend_keeps h
  | tdmBlockComplete die port t0 samples => exact execTdmBlockComplete_keeps h die port t0 samples
  | tdmSdinSilent die port => exact execTdmSdinSilent_keeps h die port
  | t1sSegmentFault die seg => exact execT1sSegmentFault_keeps h die seg
  | laneSilentTimeout lane => exact execLaneSilentTimeout_keeps h lane
  | frameIntervalLoss lane => exact execFrameIntervalLoss_keeps h lane
  | gapIntervalEnd lane => exact execGapIntervalEnd_keeps h lane
  | stackThermalHalving site hot => exact execStackThermalHalving_keeps h site hot
  | shedEvaluate => exact execShedEvaluate_keeps h
  | laneReportMaskWrite src lane v => exact execLaneReportMaskWrite_keeps h src lane v
  | laneLevelWrite src lane which v => exact execLaneLevelWrite_keeps h src lane which v
  | laneTimingWrite src lane v => exact execLaneTimingWrite_keeps h src lane v
  | leEvent lane spillErr sram => exact execLeEvent_keeps h lane spillErr sram
  | delayWheelRelease eng spillErr sram => exact execDelayWheelRelease_keeps h eng spillErr sram
  | evaluationSweep eng pop spillErr sram => exact execEvaluationSweep_keeps h eng pop spillErr sram
  | lrnModTeach src lane => exact execLrnModTeach_keeps h src lane
  | lrnModMark src lane => exact execLrnModMark_keeps h src lane
  | lrnModCancel src lane => exact execLrnModCancel_keeps h src lane
  | markExpiry lane => exact execMarkExpiry_keeps h lane
  | teachWindowExpiry lane => exact execTeachWindowExpiry_keeps h lane
  | popFreezeWrite src v => exact execPopFreezeWrite_keeps h src v
  | eventRingTimeout lane => exact execEventRingTimeout_keeps h lane
  | checkpointDue n => exact execCheckpointDue_keeps h n
  | bhCkptCmd src n => exact execBhCkptCmd_keeps h src n
  | deferredCheckpointStart n => exact execDeferredCheckpointStart_keeps h n
  | snapshotCopyDone eng ecc => exact execSnapshotCopyDone_keeps h eng ecc
  | slotWriteDone bank failed => exact execSlotWriteDone_keeps h bank failed
  | readbackDone bank corrected failed => exact execReadbackDone_keeps h bank corrected failed
  | pwrfail => exact execPwrfail_keeps h
  | powerfailControllersStop => exact execPowerfailControllersStop_keeps h
  | restartAfterPwrfail offMs inRange shutdownHigh cool => exact execRestartAfterPwrfail_keeps h offMs inRange shutdownHigh cool
  | nop fn seq irq => exact execNop_keeps h fn seq irq
  | loadModel fn seq irq arg => exact execLoadModel_keeps h fn seq irq arg
  | replaceModel fn seq irq arg => exact execReplaceModel_keeps h fn seq irq arg
  | unloadModel fn seq irq id => exact execUnloadModel_keeps h fn seq irq id
  | readout fn seq irq arg => exact execReadout_keeps h fn seq irq arg
  | checkpoint fn seq irq eng pop => exact execCheckpoint_keeps h fn seq irq eng pop
  | laneModTeach fn seq irq lane => exact execLaneModTeach_keeps h fn seq irq lane
  | laneModMark fn seq irq lane => exact execLaneModMark_keeps h fn seq irq lane
  | laneModCancel fn seq irq lane => exact execLaneModCancel_keeps h fn seq irq lane
  | laneAck fn seq irq lane => exact execLaneAck_keeps h fn seq irq lane
  | captureFrame fn seq irq arg => exact execCaptureFrame_keeps h fn seq irq arg
  | captureTimeout lane => exact execCaptureTimeout_keeps h lane
  | heartbeat fn seq irq value => exact execHeartbeat_keeps h fn seq irq value
  | flashErase fn seq irq arg => exact execFlashErase_keeps h fn seq irq arg
  | flashWrite fn seq irq arg bad => exact execFlashWrite_keeps h fn seq irq arg bad
  | flashRead fn seq irq arg => exact execFlashRead_keeps h fn seq irq arg
  | hostMbTailWrite src fn v host => exact execHostMbTailWrite_keeps h src fn v host
  | hostMbCfgWrite src fn v => exact execHostMbCfgWrite_keeps h src fn v
  | rptRingConsWrite src part v => exact execRptRingConsWrite_keeps h src part v
  | rptRingBaseWrite src part v => exact execRptRingBaseWrite_keeps h src part v
  | collectorFlush col => exact execCollectorFlush_keeps h col
  | collectorAck col dseq known => exact execCollectorAck_keeps h col dseq known
  | datagramResend col dseq => exact execDatagramResend_keeps h col dseq
  | nextHopResolve col found => exact execNextHopResolve_keeps h col found
  | collectorDown col => exact execCollectorDown_keeps h col
  | functionLevelReset fn => exact execFunctionLevelReset_keeps h fn
  | flitReceive die bytes => exact execFlitReceive_keeps h die bytes
  | replayTimeout die => exact execReplayTimeout_keeps h die
  | retrainDone die ok => exact execRetrainDone_keeps h die ok
  | idleFlitTimer die => exact execIdleFlitTimer_keeps h die
  | linkTrainAttempt die cable ok partner => exact execLinkTrainAttempt_keeps h die cable ok partner
  | jlReadOnce die msg ecc => exact execJlReadOnce_keeps h die msg ecc
  | jlWriteLine die msg ecc => exact execJlWriteLine_keeps h die msg ecc
  | jlAtomic die msg ecc => exact execJlAtomic_keeps h die msg ecc
  | jlEpoch die msg => exact execJlEpoch_keeps h die msg
  | jlAck die msg => exact execJlAck_keeps h die msg
  | jlData die msg => exact execJlData_keeps h die msg
  | dupWindowExpiry pkg unit tag => exact execDupWindowExpiry_keeps h pkg unit tag
  | tagHoldExpiry unit tag => exact execTagHoldExpiry_keeps h unit tag
  | keyPress pin => exact execKeyPress_keeps h pin
  | keyRelease pin => exact execKeyRelease_keeps h pin
  | keyLongPress pin => exact execKeyLongPress_keeps h pin
  | keyStuck pin => exact execKeyStuck_keeps h pin
  | sliderSweep counts plugs => exact execSliderSweep_keeps h counts plugs
  | selectionDisplayEnd => exact execSelectionDisplayEnd_keeps h
  | pnlSelWrite src v => exact execPnlSelWrite_keeps h src v
  | buzzerSilence src => exact execBuzzerSilence_keeps h src
  | buzzerTest src => exact execBuzzerTest_keeps h src
  | sensorUnplug pin => exact execSensorUnplug_keeps h pin
  | sensorReplug pin => exact execSensorReplug_keeps h pin
  | replugWaitTimeout lane => exact execReplugWaitTimeout_keeps h lane
  | electrodeFault pin => exact execElectrodeFault_keeps h pin
  | sinkOvercurrent pin => exact execSinkOvercurrent_keeps h pin
  | sinkRetry pin still => exact execSinkRetry_keeps h pin still
  | errConsWrite src ring v => exact execErrConsWrite_keeps h src ring v
  | quiesceDrainDone => exact execQuiesceDrainDone_keeps h
  | drainTimeout => exact execDrainTimeout_keeps h
  | errUnitReset src unit => exact execErrUnitReset_keeps h src unit
  | errUnitUpdate src unit => exact execErrUnitUpdate_keeps h src unit
  | frameDeadline lane seq => exact execFrameDeadline_keeps h lane seq
  | frameLateLimit lane seq => exact execFrameLateLimit_keeps h lane seq
  | coxWatchdogExpiry => exact execCoxWatchdogExpiry_keeps h
  | heartbeatExpiry part => exact execHeartbeatExpiry_keeps h part
  | partitionRestart src part => exact execPartitionRestart_keeps h src part
  | partitionAutoRestart part => exact execPartitionAutoRestart_keeps h part
  | deviceFatal cause => exact execDeviceFatal_keeps h cause
  | fatalHoldExpiry => exact execFatalHoldExpiry_keeps h
  | dbgRspCapture => exact execDbgRspCapture_keeps h
  | status tag zero => exact execStatus_keeps h tag zero
  | unlockPw tag arg zero => exact execUnlockPw_keeps h tag arg zero
  | challenge tag arg zero => exact execChallenge_keeps h tag arg zero
  | unlockRsp tag arg zero => exact execUnlockRsp_keeps h tag arg zero
  | lockoutExpiry => exact execLockoutExpiry_keeps h
  | nonceLapse => exact execNonceLapse_keeps h
  | endSession tag zero => exact execEndSession_keeps h tag zero
  | sessionTimeout => exact execSessionTimeout_keeps h
  | telemetry tag page meas zero => exact execTelemetry_keeps h tag page meas zero
  | regRead tag off zero => exact execRegRead_keeps h tag off zero
  | regWrite tag off v zero => exact execRegWrite_keeps h tag off v zero
  | halt tag unit zero => exact execHalt_keeps h tag unit zero
  | haltTakesEffect scull => exact execHaltTakesEffect_keeps h scull
  | resume tag unit zero => exact execResume_keeps h tag unit zero
  | step tag unit count zero => exact execStep_keeps h tag unit count zero
  | stateRead tag unit page zero => exact execStateRead_keeps h tag unit page zero
  | bpSet tag scull slot ctx addr zero => exact execBpSet_keeps h tag scull slot ctx addr zero
  | bpClr tag scull slot zero => exact execBpClr_keeps h tag scull slot zero
  | wpSet tag scull slot ctx spec addr zero => exact execWpSet_keeps h tag scull slot ctx spec addr zero
  | wpClr tag scull slot zero => exact execWpClr_keeps h tag scull slot zero
  | laneBp tag lane kinds zero => exact execLaneBp_keeps h tag lane kinds zero
  | memRead tag addr len ecc zero => exact execMemRead_keeps h tag addr len ecc zero
  | memWrite tag addr len bytes zero => exact execMemWrite_keeps h tag addr len bytes zero
  | retire tag serial burnFails zero => exact execRetire_keeps h tag serial burnFails zero
  | lock tag burnFails zero => exact execLock_keeps h tag burnFails zero
  | resetN lowNs taken => exact execResetN_keeps h lowNs taken
  | perstN low => exact execPerstN_keeps h low
  | nodePowerOvercurrent die seg => exact execNodePowerOvercurrent_keeps h die seg
  | nodePowerRetry die seg still => exact execNodePowerRetry_keeps h die seg still
  | thermalCap hot => exact execThermalCap_keeps h hot
  | thermalTrip => exact execThermalTrip_keeps h
  | referenceAccelFault => exact execReferenceAccelFault_keeps h
  | referenceAccelRetry recovered => exact execReferenceAccelRetry_keeps h recovered
  | transceiverInsert die port highPower => exact execTransceiverInsert_keeps h die port highPower
  | transceiverRemove die port => exact execTransceiverRemove_keeps h die port
  | supplyShort supply => exact execSupplyShort_keeps h supply
  | pcieLinkDown => exact execPcieLinkDown_keeps h
  | pcieLinkUp speed width => exact execPcieLinkUp_keeps h speed width
  | hostMbCqHeadWrite src fn v => exact execHostMbCqHeadWrite_keeps h src fn v
  | interruptIntervalExpiry fn vec => exact execInterruptIntervalExpiry_keeps h fn vec
  | registerRead src off size ue => exact execRegisterRead_keeps h src off size ue

end Sys2Proof.Machine
end

