-- ==== Sys2Proof/Tests/Slice0.lean ====
section
/-!
SUPPORT. Checks of the model by small cases: ill-formed commands are refused, reset reads as the spec says, worked values of the spec, and for each
statement with hypotheses a state and operands that meet them, clause by clause.
-/
set_option Elab.async false

namespace Sys2Proof.Tests

open Sys2Proof Sys2Proof.Machine

/-! ### Small states -/

/-- The state after reset with some fields put. -/
def st (l : List (RegField × Nat × Nat)) : State := l.foldl (fun s x => s.put x.1 x.2.1 x.2.2) State.reset

/-- Every power domain on, in a running unit. -/
def up : State :=
  let s := st [(Fld.PWR_STATE_ON, 0, 0xFFFFFFFF), (Fld.PWR_STATE_ON, 1, 0xFFFFFFFF), (Fld.PWR_STATE_ON, 2, 0xFF), (Fld.GLB_PRESENT_STACK_UP, 0, 15),
    (Fld.GLB_VARIANT_STACK_FIT, 0, 15), (Fld.GLB_VARIANT_IOD_FIT, 0, 7)]
  { s with boot := { s.boot with phase := .running } }

/-- `up` with further fields put. -/
def upWith (l : List (RegField × Nat × Nat)) : State := l.foldl (fun s x => s.put x.1 x.2.1 x.2.2) up

/-- A descriptor or header of `n` bytes with some bytes given. -/
def bytesWith (n : Nat) (l : List (Nat × Nat)) : List Byte := l.foldl (fun d x => d.set x.1 (BitVec.ofNat 8 x.2)) (List.replicate n 0)

/-- A state with lane `l` described. -/
def withLane (s : State) (l : Nat) (d : List (Nat × Nat)) : State :=
  { s with boot := { s.boot with lanes := Tbl.set [] s.boot.lanes l (bytesWith 496 d) } }

/-- A cache's, a task's and a unit's tag of SYS. -/
def sysTag : Tag := ⟨0x45, 0, 0, 1, true⟩

/-- A task with nothing but its Scull. -/
def task0 : Task :=
  { id := 0, lane := 0xFF, cls := 0, prio := 0, nIn := 0, nOut := 0, ctx := 0, deadlineNs := 0, envelope := 0, saveLen := 0, part := 0, model := 0,
    ins := [], outs := [] }

/-- `up` with task 0 of Scull 0 running. -/
def busyScull (t : Task) : State := { up with tasks := [(0, some { t with st := .running })] }

/-- A write and a read that reach the register at an offset from the debug monitor. -/
def tapReach (s : State) (off : Nat) : Bool := s.start.reaches .tap off

/-! ### Ill-formed commands are refused -/

def badTags : List Tag := [⟨256, 0, 0, 0, false⟩, ⟨0, 256, 0, 0, false⟩, ⟨0, 0, 8, 0, false⟩, ⟨0, 0, 0, 65536, false⟩]

def line0 : Store := ⟨0, [], 0⟩
def line65 : Store := ⟨0, List.replicate 65 0, 0⟩
def fab0 : FabEv := ⟨0, 0, 0, 0⟩
def fab3 : FabEv := ⟨0, 0, 0, 3⟩
def lock0 : LockArgs := ⟨0, 0, 0, true, 0, fab0⟩
def swap0 : AtomicArgs := ⟨false, 0, 0, 0, false, .clean, fab0⟩
def pkt0 : RtpPacket := { dstAddr := List.replicate 16 0, dstPort := 0, srcAddr := List.replicate 16 0, ssrc := 0, payloadType := 0, seq := 0, rtpTs := 0 }
def msg0 : LinkMsg := ⟨0, 0, 0, 0, 0, 0, 0, []⟩
def badPackets : List RtpPacket := [{ pkt0 with dstAddr := [] }, { pkt0 with srcAddr := [] }, { pkt0 with dstPort := 65536 }, { pkt0 with payloadType := 128 }]

theorem test_refuses_bad_tags : (badTags.all fun t => !(Instr.lockInspect t lock0).wf && !(Instr.lockGrant t 0 0 fab0).wf) = true := by decide +kernel

theorem test_refuses_bad_sources : (badTags.all fun t => !(Instr.registerWrite (.fabric t true) 0 4 0).wf) = true := by decide +kernel

theorem test_refuses_bad_sizes : ([0, 3, 5, 16].all fun n => !(Instr.registerRead .tap 0 n false).wf && !(Instr.registerWrite .tap 0 n 0).wf) = true := by decide +kernel

theorem test_refuses_wide_offsets : ([Instr.reg64LowWrite .tap (2 ^ 24) 0, .reg64HighWrite .tap (2 ^ 24) 0, .reg64LowRead .tap (2 ^ 24), .reg64HighRead .tap (2 ^ 24),
    .registerRead .tap (2 ^ 24) 4 false].all fun i => !i.wf) = true := by decide +kernel

theorem test_refuses_wide_addresses : ([Instr.readShared sysTag 0 (2 ^ 48) none .clean fab0, .readOwn sysTag 0 (2 ^ 48) line0 none .clean fab0, .upgrade sysTag 0 (2 ^ 48) line0 none .clean fab0,
    .readOnce sysTag (.unit 0) (2 ^ 48) none .clean fab0, .writeLine sysTag (.unit 0) (2 ^ 48) line0 none .clean fab0,
    .atomicSwap sysTag (.unit 0) (2 ^ 48) swap0 none, .snoopShare 0 (2 ^ 48) false false .clean fab0, .snoopMiss 0 (2 ^ 48) fab0, .evictNotice sysTag 0 (2 ^ 48) false fab0,
    .writeBack sysTag 0 (2 ^ 48) line0 0 fab0, .retry (.unit 0) (2 ^ 48) 0 fab0, .requestTimeout (.unit 0) (2 ^ 48), .patrolScrub (2 ^ 48) .clean, .tlbMiss 0 0 (2 ^ 48) .read (.unit 0),
    .missTimeout 0 0 (2 ^ 48), .walkComplete 0 0 (some (0, some (2 ^ 48))) .clean].all fun i => !i.wf) = true := by decide +kernel

theorem test_refuses_bad_headers : ([Instr.readShared sysTag 0 0 none .clean fab3, .readOwn sysTag 0 0 line0 none .clean fab3, .upgrade sysTag 0 0 line0 none .clean fab3, .readOnce sysTag (.unit 0) 0 none .clean fab3,
    .writeLine sysTag (.unit 0) 0 line0 none .clean fab3, .atomicFetchAdd sysTag (.unit 0) 0 { swap0 with fab := fab3 } none, .lockRelease sysTag { lock0 with fab := fab3 }, .snoopShare 0 0 false false .clean fab3,
    .snoopInv 0 0 false false .clean fab3, .snoopMiss 0 0 fab3, .evictNotice sysTag 0 0 false fab3, .writeBack sysTag 0 0 line0 0 fab3, .data (.home 0) 0 line0 .s 0 fab3, .ack (.home 0) 0 0 0 fab3,
    .retry (.unit 0) 0 0 fab3, .lockGrant sysTag 0 0 fab3, .epochBroadcast 0 0 0 fab3, .contextFaultNotice 0 fab3, .frameDecoded 0 .entry 0 0 [] fab3].all fun i => !i.wf) = true := by decide +kernel

theorem test_refuses_long_data : ([Instr.readOwn sysTag 0 0 line65 none .clean fab0, .writeBack sysTag 0 0 line65 0 fab0, .data (.home 0) 0 line65 .s 0 fab0, .loadModel 0 0 false (List.replicate 57 0),
    .unlockPw 0 (List.replicate 29 0) true, .memWrite 0 0 16 (List.replicate 17 0) true, .flitReceive 0 [], .jlAck 0 { msg0 with data := List.replicate 65 0 },
    .jlWriteLine 0 { msg0 with data := List.replicate 65 0 } .clean, .arrayStep 0 ⟨.int8, .int8, List.replicate 129 0, 0, false⟩, .arrayStep 0 ⟨.int4, .int4, List.replicate 257 0, 0, false⟩,
    .membershipQuery 0 0 4 []].all fun i => !i.wf) = true := by decide +kernel

theorem test_refuses_bad_numbers : ([Instr.lockAcquire sysTag { lock0 with code := 256 }, .lockAcquire sysTag { lock0 with ecc := 3 }, .lockGrant sysTag 65536 0 fab0, .lockGrant sysTag 0 16 fab0,
    .atomicMinS sysTag (.unit 0) 0 { swap0 with order := 4 } none, .ack (.home 0) 0 16 0 fab0, .ack (.home 0) 0 0 65536 fab0, .channelStall ⟨0, 0, 0, 0⟩ 256,
    .epochBroadcast 256 0 0 fab0, .contextFaultNotice 256 fab0, .walkComplete 256 0 none .clean, .walkComplete 0 0 (some (16, none)) .clean, .saveAreaWritten 0 65536 0, .fqResumeRetry .tap 0 65536, .ctxRelease .tap 256,
    .weightPlaneLoad 0 .int8 false (2 ^ 20) .clean 0, .weightPlaneLoad 0 .int8 false 0 .clean 2048, .vectorOp 0 (.load (2 ^ 20) 0 .clean 0), .vectorOp 0 (.load 0 0 .clean 32), .vectorOp 0 (.store 0 (2 ^ 20)),
    .membershipQuery 0 0 5 (List.replicate 16 0), .ptpSync 256 0 false 0, .leEvent 0 (some 16) .clean, .delayWheelRelease 0 (some 16) .clean, .evaluationSweep 0 0 (some 16) .clean].all fun i => !i.wf) = true := by decide +kernel

theorem test_refuses_bad_codewords : (!(Instr.trainingComplete 0 0 0 [⟨0, 0, 1, []⟩, ⟨0, 0, 2, []⟩] 0).wf && !(Instr.trainingComplete 0 0 0 [⟨0, 0, 128, [5]⟩] 0).wf &&
    (Instr.trainingComplete 0 0 0 [⟨0, 0, 127, [5]⟩, ⟨1, 0, 1, []⟩] 0).wf) = true := by decide +kernel

theorem test_refuses_bad_packets : (badPackets.all fun p => !(Instr.rtpPacket 0 0 p).wf && !(Instr.rtcpSenderReport 0 0 p 0 0).wf) = true := by decide +kernel

theorem test_refuses_long_frames : (!(Instr.sensorStatus 0 0 (List.replicate 1501 0)).wf && !(Instr.gptpPdelayReq 0 0 (List.replicate 1501 0)).wf) = true := by decide +kernel

theorem test_takes_well_formed : ([Instr.lockAcquire sysTag { lock0 with lockId := 8191 }, .readOwn sysTag 18 (2 ^ 48 - 64) ⟨0, List.replicate 64 0, 0⟩ none .clean fab0, .rtpPacket 2 1 pkt0,
    .registerWrite .bar2 0 4 0, .jlData 2 msg0, .arrayStep 0 ⟨.int4, .int4, List.replicate 256 0, 0, false⟩].all Instr.wf) = true := by decide +kernel
/-! ### Witnesses: registers and translation -/

theorem witness_StepRunsTheFrontCommandOrPassesTime :
    ({ State.reset with pending := [.thermalTrip, .pcieLinkDown] } : State).pending = .thermalTrip :: [.pcieLinkDown] ∧ State.reset.pending = [] := by decide

/-- The register kind that begins at an offset. -/
def rowAt (off : Nat) : Option RegRow := (findReg off).map (·.1)

/-- Whether the register at `off` is a kind of `n` words of index `i`, found at word `w` of it, and a write and a read of it from the debug monitor get through. -/
def regMeets (s : State) (off i w n : Nat) : Bool :=
  match findReg off with
  | some (r, j, k) => decide (j = i) && decide (k = w) && decide (r.words = n) && decide (r.offset i + 4 * w = off) && s.start.reaches .tap off && s.start.readable .tap off
  | none => false

theorem witness_Reg64WritesCommitOnTheHighWord : regMeets State.reset 0x160000 0 0 2 = true ∧ regMeets State.reset 0x1601C4 7 1 2 = true := by decide +kernel

theorem witness_Reg64ReadsShadowTheHighWord : regMeets State.reset 0x1601C0 7 0 2 = true ∧ regMeets State.reset 0x160004 0 1 2 = true := by decide +kernel

theorem witness_RegisterWriteSetsFieldsByTheirAccess :
    (match findReg 0x000000 with
      | some (r, i, w) => decide (r.offset i = 0) && decide (i = 0) && decide (w = 0) && decide (r.words = 1) && decide (r.base ∉ ownEffect) && State.reset.start.reaches .tap 0
      | none => false) = true := by decide +kernel

theorem witness_RegisterReadAnswersTheViewsValue : regMeets State.reset 0 0 0 1 = true ∧ NatSet.has [(0, true)] 0 = true ∧ NatSet.has State.reset.regUe 0 = false := by decide +kernel

theorem witness_RefusedAccessesChangeNothing_host :
    (upWith [(Fld.HOST_LINK_STATUS_UP, 0, 1)]).get Fld.HOST_LINK_STATUS_UP 0 = 1 ∧ (∀ at_, Tbl.get none up.err.lastRec 0 = some at_ → at_ + 10000000 ≤ up.now) ∧
    (∃ at_, Tbl.get none ({ up with err := { up.err with lastRec := [(0, some 0)] } } : State).err.lastRec 0 = some at_ ∧ up.now < at_ + 10000000) ∧
    State.reset.get Fld.HOST_LINK_STATUS_UP 0 = 0 := by
  refine ⟨by decide +kernel, fun a h => ?_, ⟨0, by decide, by decide⟩, by decide +kernel⟩
  have e : Tbl.get none up.err.lastRec 0 = none := by decide +kernel
  rw [e] at h
  cases h

theorem witness_RefusedAccessesChangeNothing_fabric : (∀ wr, up.start.gate sysTag wr (up.start.viewAddr true 0x1E0000) = (none, up.start)) ∧ findReg 0x00F000 = none ∧ inDbg 0x1C0000 = true := by
  decide +kernel

/-- Faults of queue 0 in each of their states, numbers 0 to 2. -/
def faulted : State :=
  let f : FaultRec := { id := 0, queue := 0, ctx := 0, page := 0, cause := 0, stage2 := false, waiters := [] }
  { up with xlu := { up.xlu with faults := [f, { f with id := 1, st := 1 }, { f with id := 2, st := 2 }], nextId := [(0, 3)] } }

theorem witness_FaultQueueHeadMovesForwardOnly : tapReach up 0x060108 = true ∧ (0 % 65536 + 65536 - up.get Fld.XLU_FQ_HEAD_HEAD 0) % 65536 ≤ 0 ∧ tapReach up (0x060108 + 7 * 0x80) = true ∧
    (up.get Fld.XLU_FQ_TAIL_TAIL 7 + 65536 - up.get Fld.XLU_FQ_HEAD_HEAD 7) % 65536 < (1 % 65536 + 65536 - up.get Fld.XLU_FQ_HEAD_HEAD 7) % 65536 := by decide +kernel

theorem witness_ResumeResolvesAQueuedFault : tapReach faulted 0x060118 = true ∧
    ((List.range 3).all fun k => match faulted.xlu.faults.find? fun (f : FaultRec) => f.queue = (0 : Fin 8).val && f.id = k with
      | some f => decide (f.st = k)
      | none => false) = true ∧ (Tbl.get 0 faulted.xlu.nextId 0 + 65536 - 1) % 65536 ≤ 1024 := by decide +kernel

theorem witness_ContextStateWritesFollowItsState : tapReach up (0x06100C + 255 * 0x10) = true ∧ tapReach up (0x061000 + 255 * 0x10) = true ∧
    Fld.XLU_CTX_CFG_COUNT.inRange (bits (1 * 65536) 24 16) = true ∧
    (upWith [(Fld.XLU_CTX_CFG_PART, 255, 1), (Fld.XLU_CTX_STATE_STATE, 255, 1), (Fld.XLU_S2_CFG_ENABLE, 1, 1)]).s2On
      ((upWith [(Fld.XLU_CTX_CFG_PART, 255, 1), (Fld.XLU_CTX_STATE_STATE, 255, 1), (Fld.XLU_S2_CFG_ENABLE, 1, 1)]).ctxPart 255) = true ∧
    (upWith [(Fld.XLU_CTX_CFG_PART, 255, 1), (Fld.XLU_CTX_STATE_STATE, 255, 1), (Fld.XLU_S2_CFG_ENABLE, 1, 1)]).get Fld.XLU_CTX_STATE_STATE 255 = 1 := by decide +kernel

/-- A partition 0 with contexts 0 and 1. -/
def parted : State := { up with boot := { up.boot with parts := [(0, some ⟨0, 2, false, 0, []⟩)] } }

def inv0 : InvCmd := { seq := 1, kind := 0, ctx := 0, addr := 0, len := 4096 }

theorem witness_InvalidateTakesAPlaceAndDropsItsTranslations : tapReach parted 0x060130 = true ∧ parted.invOk 0 { inv0 with ctx := 1 } true = true ∧ parted.invOk 0 { inv0 with ctx := 2 } true = false ∧
    parted.invOk 0 { inv0 with kind := 1, len := 4096 } true = true ∧ parted.invOk 0 { inv0 with kind := 2 } false = true ∧ parted.invOk 0 { inv0 with kind := 3 } true = true ∧
    (Tbl.get [] parted.xlu.inv 0).length < 8 ∧ parted.err.coxHalted = false ∧ (Tbl.get [] [(0, List.replicate 8 inv0)] 0).length = 8 := by decide +kernel

/-- `up` with a translation of page 1 of context 0 in XLU 0. -/
def mapped : State := { up with xlu := { up.xlu with l1 := [(0, [⟨0, 4096, 4096, 8192, 15, true⟩])] } }

def miss0 : Miss := { xlu := 0, ctx := 0, va := 0, kind := .read, work := .unit 0x43, at_ := 0 }

/-- Context 0 in segment format with one segment, and a miss on it. -/
def missed : State := { up with xlu := { up.xlu with misses := [miss0] } }

theorem witness_MissesStallOrAreFilled_hit : mapped.tlbHit 0 0 4100 .read = some 8196 ∧ up.tlbHit 0 0 4100 .read = none ∧ (up.xlu.misses.filter fun (m : Miss) => m.xlu = (0 : Fin 17).val).length < 8 ∧
    ((up.xlu.misses.filter fun (m : Miss) => m.xlu = (0 : Fin 17).val).any fun (m : Miss) => m.ctx = 0 && m.work = .unit 0x43) = false := by decide +kernel

theorem witness_LimitsOfTranslation : up.err.coxHalted = false ∧ ([{ miss0 with held := true }].any fun (m : Miss) => m.held && m.ctx = 0) = true ∧ Tbl.get [] [(0, [inv0])] 0 = inv0 :: [] ∧
    inv0.sent = true ∧ (missed.xlu.misses.find? fun (m : Miss) => m.xlu = (0 : Fin 17).val && m.ctx = 0 && m.va = 0 && !m.held) = some miss0 := by decide +kernel

/-- Context 0 in range format (Table 5.4) with one entry of 64 KiB that grants everything, its structure in Pocket 0, which partition 0 may read, and a miss on it. -/
def walked : State :=
  let s := upWith [(Fld.XLU_CTX_CFG_FORMAT, 0, 3), (Fld.XLU_CTX_CFG_COUNT, 0, 1), (Fld.XLU_CTX_S1_BASE_BASE, 0, 0x01000000000)]
  let s := ((s.wrNat 0x01000000008 8 65536).wrNat 0x01000000018 1 0x1F)
  { s with xlu := { s.xlu with lining := [(0, 1)], misses := [miss0] } }

theorem witness_MissesStallOrAreFilled_walk :
    (match walked.walk 0 0 .read with
      | .ok c => !c.merged && !c.refused
      | .error _ => false) = true ∧
    walked.err.coxHalted = false ∧ (walked.xlu.misses.filter fun (m : Miss) => m.ctx = 0 && m.va / 4096 = 0 / 4096 && !m.held) = [miss0] := by decide +kernel

/-! ### Witnesses: coherence and locks -/

/-- A line whose sole holder is agent 3. -/
def shared3 : State := up.setDir (lineOf 0x01000000000) { x := false, vec := 8 }

theorem witness_HomeServesAnUnheldLine : fab0.header ≠ 2 ∧ (up.start.fabric fab0).homeReady sysTag false 0x01000000000 = true ∧ (up.start.fabric fab0).homeReady sysTag true 0x01000000000 = true ∧
    (up.start.fabric fab0).dirLine (lineOf 0x01000000000) = {} ∧ (shared3.start.fabric fab0).homeReady sysTag true 0x01000000000 = true ∧
    (shared3.start.fabric fab0).dirLine (lineOf 0x01000000000) = { x := false, vec := 2 ^ (3 : Fin 19).val } ∧ ((shared3.start.fabric fab0).dirLine (lineOf 0x01000000000)).holders = [3] ∧
    bit ((shared3.start.fabric fab0).dirLine (lineOf 0x01000000000)).vec (4 : Fin 19) = false := by
  decide +kernel

theorem witness_AtomicsReturnTheOldValue : swap0.fab.header ≠ 2 ∧ swap0.badCode = false ∧ swap0.ecc = .clean ∧ (up.start.fabric fab0).homeReady sysTag true 0x01000000008 = true ∧
    (up.start.fabric fab0).dirLine (lineOf 0x01000000008) = {} ∧ (up.start.fabric fab0).poisoned 0x01000000008 = false ∧ 0x01000000008 % 8 = 0 ∧ (up.start.fabric fab0).mustWait sysTag true = false ∧
    0x01000000002 % 4 ≠ 0 := by decide +kernel

theorem witness_PoisonedWordsStopAtomicsAndAreClearedByWholeWrites : ((up.setPoison 0x01000000000).start.fabric fab0).homeReady sysTag true 0x01000000000 = true ∧
    ((up.setPoison 0x01000000000).start.fabric fab0).dirLine (lineOf 0x01000000000) = {} ∧ ((up.setPoison 0x01000000000).start.fabric fab0).poisoned 0x01000000000 = true ∧
    (0xFF00000000000000 : BitVec 64).toNat / 2 ^ (8 * 7) % 256 = 255 ∧ bit (0 : BitVec 8).toNat 7 = false := by decide +kernel

def line7 : CacheLine := { st := .m, bytes := List.replicate 64 7, poison := 0 }

/-- A grant to cache 18 in flight on line 0, with the access that asked for it pending. -/
def granting : State := (up.setGranted 0 18 true).setPend 18 0 (some ⟨sysTag, line0, []⟩)

theorem witness_CachesAnswerSnoops : (up.start.fabric fab0).unitDown (agentUnit 0) = false ∧ (up.start.fabric fab0).domOn 56 = true ∧ (up.start.fabric fab0).copy 0 0 = none ∧
    ((up.setCopy 0 0 (some line7)).start.fabric fab0).copy 0 0 = some line7 ∧ (State.reset.start.fabric fab0).unitDown (agentUnit 0) = true ∧
    (granting.start.fabric fab0).afterGrant 0 18 = true ∧ ((granting.start.fabric fab0).pendOf 18 0).isSome = true ∧ line7.st = .m ∧ ({ line7 with st := .s } : CacheLine).st ≠ .m := by decide +kernel

/-- A ReadOwn that waits for the snoop answers of agents 1 and 2. -/
def busy12 : Busy := { cur := { kind := .readOwn, tag := sysTag, src := .agent 0, addr := 0 }, await := [1, 2], evict := [], waiters := [] }

theorem witness_SnoopAnswersAreCollectedAndGrantsTaken : ((up.setBusy 0 (some busy12)).start.fabric fab0).busyLine (lineOf 0) = some busy12 ∧ busy12.await.contains (1 : Fin 19).val = true ∧
    busy12.await.filter (· ≠ (1 : Fin 19).val) ≠ [] ∧ busy12.cur.snoopInv = true ∧ (up.start.fabric fab0).pendOf 0 0 = none ∧ Tbl.get none up.coh.held (cacheKey 0 0) = none ∧
    ((granting.start.fabric fab0).pendOf 18 0) = some ⟨sysTag, line0, []⟩ ∧ (up.start.fabric fab0).epoch (agentUnit 0) = 1 ∧
    ((up.setCopy 0 0 (some line7)).start.fabric fab0).copy 0 (lineOf 0) = some line7 ∧ (5 : Nat) ≠ (up.start.fabric fab0).epoch (agentUnit 0) := by decide +kernel

/-- A request turned away, and one that waits for its reissue. -/
def turned0 : State := { up with coh := { up.coh with turned := [busy12.cur], retries := [(busy12.cur, 5)], reserved := [(0, 7, 0, false)] } }

theorem witness_EvictionsAndRetriesAreServed : (up.start.fabric fab0).domOn 56 = true ∧ sysTag.epoch = (up.start.fabric fab0).knownEpoch sysTag.unit ∧ (up.start.fabric fab0).busyLine (lineOf 0) = none ∧
    ({ sysTag with epoch := 9 } : Tag).epoch ≠ (up.start.fabric fab0).knownEpoch sysTag.unit ∧ (up.start.fabric fab0).copy 0 (lineOf 0x01000000000) = none ∧
    ((up.setCopy 0 0 (some line7)).start.fabric fab0).copy 0 (lineOf 0) = some line7 ∧ bit ((shared3.start.fabric fab0).dirLine (lineOf 0x01000000000)).vec (3 : Fin 19) = true ∧
    (shared3.start.fabric fab0).liningOk sysTag true 0x01000000000 = true ∧ (shared3.start.fabric fab0).liningOk { sysTag with sys := false, part := 7 } true 0x01000000000 = false ∧
    bit ((up.start.fabric fab0).dirLine (lineOf 0x01000000000)).vec (3 : Fin 19) = false ∧ ((turned0.start.fabric fab0).coh.turned.find? fun r => r.isOf (.agent 0) 0) = some busy12.cur ∧
    ((up.start.fabric fab0).coh.turned.find? fun r => r.isOf (.agent 0) 0) = none ∧ (turned0.coh.retries.find? fun r => r.1.isOf (.agent 0) 0) = some (busy12.cur, 5) ∧
    (turned0.coh.reserved.find? fun u => u.2.2.1 = lineOf 0) = some (0, 7, 0, false) := by decide +kernel

/-- A unit with locks enabled for partition 1: lock 0 Free, 1 Orphaned, 2 Held by `sysTag`, 3 Held with one waiter, 4 Held by another with sixteen. -/
def locked : State :=
  let other : Tag := { sysTag with unit := 3 }
  let s := upWith [(Fld.LOCK_PART_ENABLE, 0, 1), (Fld.LOCK_PART_PART, 0, 1)]
  { s with locks := [(1, { st := 2 }), (2, { st := 1, owner := sysTag }), (3, { st := 1, owner := sysTag, queue := [(other, 9)] }), (4, { st := 1, owner := other, queue := List.replicate 16 (other, 9) }),
      (5, { st := 1, owner := other })] }

def lockOp (i : Nat) : LockArgs := { lock0 with lockId := BitVec.ofNat 16 i }

/-- `locked` where a message has arrived clean, and its lock request's payload has crossed. -/
def lockedAt (i : Nat) : State := (locked.start.fabric fab0).seamBytes sysTag.unit (0x10 + lockPocket i) 64

theorem witness_LocksAreAcquiredAndInspected : (lockOp 0).ecc = 0 ∧ (lockOp 0).fab.header ≠ 2 ∧ (locked.start.fabric fab0).mustWait sysTag false = false ∧
    ((List.range 6).all fun i => ((locked.start.fabric fab0).lockGate sysTag (lockOp i)).isNone && ((locked.start.fabric fab0).waitsWake sysTag.unit (0x10 + lockPocket i)).isNone) = true ∧
    ((lockedAt 0).lock 0).st = 0 ∧ ((lockedAt 1).lock 1).st = 2 ∧ ((lockedAt 2).lock 2).st = 1 ∧ ((lockedAt 2).lock 2).ownedBy sysTag = true ∧ ((lockedAt 5).lock 5).st = 1 ∧
    ((lockedAt 5).lock 5).ownedBy sysTag = false ∧ ((lockedAt 5).lock 5).queue.length < 16 ∧ ((lockedAt 4).lock 4).ownedBy sysTag = false ∧ 16 ≤ ((lockedAt 4).lock 4).queue.length := by decide +kernel

/-- An access of `sysTag`'s context that is still pending. -/
def waiting : State := up.setPend 16 0 (some ⟨sysTag, line0, []⟩)

theorem witness_LocksAreReleasedToTheFirstWaiter : (locked.start.fabric fab0).mustWait sysTag true = false ∧ (waiting.start.fabric fab0).mustWait sysTag true = true ∧ ((lockedAt 2).lock 2).queue = [] ∧
    ((lockedAt 3).lock 3).queue = ({ sysTag with unit := 3 }, 9) :: [] ∧ ((lockedAt 3).lock 3).ownedBy sysTag = true ∧
    ((locked.lock 3).queue.find? fun q => q.1 = { sysTag with unit := 3 }) = some ({ sysTag with unit := 3 }, 9) ∧ sysTag.epoch = (locked.start.fabric fab0).epoch sysTag.unit ∧
    ({ sysTag with epoch := 9 } : Tag).epoch ≠ (locked.start.fabric fab0).epoch sysTag.unit := by decide +kernel

theorem witness_LocksAreReleasedToTheFirstWaiter_refused :
    let u := locked.start.fabric fab0
    u.unitDown (0x10 + lockPocket 8191) = false ∧ u.domOn 56 = true ∧ u.fenced (0x10 + lockPocket 8191) = false ∧ sysTag.epoch = u.knownEpoch sysTag.unit ∧ u.mustWait sysTag true = false ∧
    u.waitsWake sysTag.unit (0x10 + lockPocket 8191) = none ∧ u.get Fld.LOCK_PART_ENABLE (8191 / 256) = 0 ∧ u.get Fld.LOCK_PART_PART (0 / 256) ≠ 2 ∧ (lockOp 8191).code ≤ 3 := by decide +kernel

theorem witness_ContextFaultOrphansTheContextsLocks : (locked.lock 2).st = 1 ∧ (locked.lock 2).owner.ctx = 0 ∧ ((locked.lock 2).queue.filter fun q => decide (q.1.ctx ≠ 0)) = [] ∧ (locked.lock 0).st ≠ 1 := by
  decide +kernel

theorem witness_EpochsMemoryErrorsAndFabricEventsAreKept : (up.region 0x01000000000).cacheable = true ∧ up.unitDown (regionUnit (up.region 0x01000000000)) = false ∧
    ((List.range 8).any fun i => bit (1 : BitVec 8).toNat i && !up.poisoned (0x01000000000 / 64 * 64 + 8 * i)) = true ∧
    ((List.range 8).any fun i => bit (0 : BitVec 8).toNat i && !up.poisoned (0x01000000000 / 64 * 64 + 8 * i)) = false ∧ up.err.coxHalted = false ∧
    (up.scull 0x0F).halted = false ∧ (up.scull 0x0F).haltPending = none ∧ ({ fab0 with header := 2 } : FabEv).header = 2 ∧
    ((up.start.tagTimeout (.unit 0x45) (up.ringAt 0)).giveUp (.unit 0x45) (up.ringAt 0)).ringOfAddr (up.ringAt 0) = some 0 := by decide +kernel


/-! ### Witnesses: Sculls, Slide engines, Catch and power -/

def step8 : ArrayOp := { aFmt := .int8, wFmt := .int8, acts := [], entry := 0, poisoned := false }

/-- Scull 0 with its running task and one open checker. -/
def open8 : State := (busyScull task0).setScull 0 { open_ := [.array step8 0] }

/-- Scull 0 with its running task and an access of the task still pending. -/
def waitsFor0 : State := (busyScull task0).setPend 0 0 (some ⟨(busyScull task0).start.taskTag 0 task0, line0, []⟩)

theorem witness_OperationsAreIssuedProvisionally : (busyScull task0).start.issues 0 = true ∧ (stepCost step8.aFmt step8.wFmt).isSome = true ∧ stepCost .fp32 .int8 = none ∧
    ((busyScull task0).running 0).isSome = true ∧ (busyScull task0).start.outstanding ((busyScull task0).start.taskTag 0 task0) = false ∧
    (waitsFor0.start.outstanding (waitsFor0.start.taskTag 0 task0)) = true ∧ up.sclGo 0 = true ∧ (up.setScull 0 { halted := true }).sclGo 0 = false ∧ (busyScull task0).unwatched 0 = true := by decide +kernel

theorem witness_WeightPlanesAndDrains : (busyScull task0).start.issues (15 : Fin 16) = false ∧ (busyScull task0).start.issues (0 : Fin 16) = true ∧ ((busyScull task0).scull 0).active ≤ 1 ∧
    ((busyScull task0).scull 0).open_ = [] ∧ ((open8.scull 0).open_.any fun o => o.into 31 || o.touches 31) = false ∧ (busyScull task0).unwatched 0 = true ∧
    ((open8.scull 0).open_.any fun o => o.uses (1 - (open8.scull 0).active) || o.stores) = false := by decide +kernel

/-- Scull 15 at the end of its sixteenth quiet window in a row, and of a first one. -/
def window15 (quiet : Nat) : State := (upWith [(Fld.CATCH_CTRL_AGGR_MAX, 15, 3)]).setScull 15 { windowSteps := 2 ^ 40, quiet := quiet }

theorem witness_CheckersConfirmAndTheGovernorRaises : (open8.scull 0).open_ = .array step8 0 :: [] ∧ 2 ^ (window15 0).get Fld.CATCH_GOV_CFG_WINDOW_LOG2 0 ≤ ((window15 0).scull 15).windowSteps ∧
    ((window15 15).scull 15).quiet + 1 = 16 ∧ ((window15 0).scull 15).windowErrs = 0 ∧ (window15 15).get Fld.CATCH_STATE_A 15 < (window15 15).get Fld.CATCH_CTRL_AGGR_MAX 15 ∧
    (window15 15).flag Fld.CATCH_CTRL_ESC_LOCK 15 = false ∧ ((window15 15).scull 15).monitorOk = true ∧ ((window15 0).scull 15).quiet + 1 < 16 := by decide +kernel

/-- A task of Scull 3 in some state, on a ring of Pocket 0. -/
def taskOf (k : Nat) (t : Task) : State := { up with tasks := [(k, some t)] }

/-- A task that is ready on Scull 3. -/
def ready3 : State := { taskOf (taskKey 3 5) { task0 with id := 5, st := .ready } with ready := [(3, [5])] }

theorem witness_TasksBecomeReadyAndRun : (taskOf (taskKey 3 5) task0).task (taskKey 3 5) = some task0 ∧ task0.st = .waiting ∧ task0.held = false ∧ task0.skipped task0.runs = [] ∧ 64 ≤ task0.lane ∧
    (taskOf (taskKey 3 5) task0).inputsReady task0 [] = true ∧ (Tbl.get [] (taskOf (taskKey 3 5) task0).ready 3).length < 16 ∧ ready3.sclOn 3 = true ∧ ready3.seqBusy 3 = false ∧
    ready3.firstReady 3 = some (taskKey 3 5, { task0 with id := 5, st := .ready }) ∧ ready3.burstsInFlight (taskKey 3 5) = false ∧ Tbl.get [] ready3.heldReady 3 = [] ∧
    (ready3.scull 3).stepLeft = none ∧ (ready3.scull 3).owner = none ∧ (ready3.scull 3).open_ = [] ∧ task0.saved = none ∧ task0.kept = none ∧ task0.held = false ∧
    ({ task0 with skip := [(0, 0)] } : Task).skipped 0 = [0] ∧ up.inputsReady { task0 with skip := [(0, 0)] } [0] = true := by decide +kernel

/-- `ready3` with Scull 3 holding the values of task 6, which was switched out before it. -/
def heldFor6 : State :=
  let s := { ready3 with tasks := ready3.tasks ++ [(taskKey 3 6, some { task0 with id := 6, st := .switchedOut })] }
  s.setScull 3 { owner := some (taskKey 3 6), acc := [(0, 7)] }

theorem witness_TasksBecomeReadyAndRun_owner : heldFor6.sclOn 3 = true ∧ heldFor6.seqBusy 3 = false ∧ (heldFor6.scull 3).open_ = [] ∧ heldFor6.firstReady 3 = some (taskKey 3 5, { task0 with id := 5, st := .ready }) ∧
    heldFor6.burstsInFlight (taskKey 3 5) = false ∧ Tbl.get [] heldFor6.heldReady 3 = [] ∧ (heldFor6.scull 3).stepLeft = none ∧ (heldFor6.scull 3).owner = some (taskKey 3 6) ∧
    heldFor6.task (taskKey 3 6) = some { task0 with id := 6, st := .switchedOut } := by decide +kernel

/-- A task whose save area of one byte lies at address 0 of `walked`'s context 0. -/
def saved1 : Task := { task0 with saveLen := 1, saved := some 0 }

/-- `walked` with partition 0's first stack granule its own, and a byte at address 0. -/
def savedAt (b : Byte) : State := { walked with xlu := { walked.xlu with lining := [(0, 0x101), (16777216, 0x101)] } }.wrByte 0 b

theorem witness_TasksBecomeReadyAndRun_saved : up.saveError 3 saved1 = some stXLATE ∧ up.saveError 3 { saved1 with saveLen := 0 } = none ∧ up.saveIntact { saved1 with saveLen := 0 } 0 = true ∧
    (savedAt 0).saveError 3 saved1 = none ∧ (savedAt 1).saveError 3 saved1 = none := by decide +kernel

theorem savedAt_intact (b : Byte) (h : (savedAt b).resolve 0 0 .read = some 0) (v : (savedAt b).coherentByte 0 = b) (f : b ≠ BitVec.ofNat 8 (Config.freeNat 0)) :
    (savedAt b).saveIntact saved1 0 = false := by
  unfold State.saveIntact
  rw [show List.range saved1.saveLen = [0] from rfl]
  simp only [List.all_cons, List.all_nil, Bool.and_true, show saved1.ctx = 0 from rfl, show saved1.save + 0 / 64 * 64 = 0 from rfl, h, Nat.zero_mod, Nat.add_zero, v]
  simpa using f

theorem witness_TasksBecomeReadyAndRun_overwritten : ∃ b, (savedAt b).saveIntact saved1 0 = false := by
  by_cases h : (0 : Byte) = BitVec.ofNat 8 (Config.freeNat 0)
  · exact ⟨1, savedAt_intact 1 (by decide +kernel) (by decide +kernel) fun e => absurd (h.trans e.symm) (by decide)⟩
  · exact ⟨0, savedAt_intact 0 (by decide +kernel) (by decide +kernel) h⟩

/-- A running task that gives 64 bytes on a ring of 4 KiB in Pocket 0. -/
def giving : State := (busyScull { task0 with outs := [(0x01000000000, 64, false)] }).wrNat 0x01000000008 8 4096

theorem witness_TasksCommitOrEnd : giving.start.issues 0 = true ∧ giving.running 0 = some (0, { task0 with outs := [(0x01000000000, 64, false)], st := .running }) ∧
    giving.transfers 0 = (false, false) ∧ giving.outRoom { task0 with outs := [(0x01000000000, 64, false)], st := .running } [] = true ∧ (giving.scull 0).open_ = [] ∧
    giving.outstanding (giving.taskTag 0 { task0 with outs := [(0x01000000000, 64, false)], st := .running }) = false ∧ 0x01000000000 % 64 = 0 ∧ giving.dirLine (lineOf (0x01000000000 + 0x20)) = {} ∧
    giving.answers 0 (0x01000000000 + 0x20) = true ∧ up.sclGo 3 = true ∧ (taskOf (taskKey 3 5) { task0 with st := .committing }).running 3 = none ∧
    (taskOf (taskKey 3 5) { task0 with st := .committing }).taskIn 3 .committing = some (taskKey 3 5, { task0 with st := .committing }) ∧ ((taskOf (taskKey 3 5) { task0 with st := .switchedOut }).scull 3).owner = none ∧
    (giving.lane 0xFF).held = none ∧ giving.ringConsumer 0x01000000000 ≠ 0x130 ∧ giving.ringConsumer 0x01000000000 ≠ 0x131 ∧ 2 * task0.envelope < ({ task0 with steps := 1 } : Task).steps ∧
    (taskOf (taskKey 3 5) { task0 with st := .switchedOut, saving := true }).task (taskKey 3 5) = some { task0 with st := .switchedOut, saving := true } := by decide +kernel

/-- A unit with partition 0 and its context, whose engine 71 belongs to the partition. -/
def engined (x : Slide) : State :=
  { parted with sld := [(71, { x with owner := some 0 })], xlu := { parted.xlu with l1 := [(16, [⟨0, 4096, 4096, 8192, 15, true⟩])] } }

/-- A unit whose host link is up, with partitions 0 and 1. -/
def hosting : State := { upWith [(Fld.HOST_LINK_STATUS_UP, 0, 1)] with boot := { up.boot with parts := [(0, some ⟨0, 2, false, 0, []⟩), (1, some ⟨2, 2, false, 0, []⟩)] } }

theorem witness_SlideEnginesObeyTheirOwner : up.start.reaches .tap (0x0A0008 + 71 * 0x80) = true ∧ up.engineOwner 71 ≠ some (up.start.regWho .tap).part ∧
    (up.start.regWho (.fabric ⟨0x45, 0, 0, 1, true⟩ true)).part = 0 ∧ (engined { st := 1 }).engineOwner 71 = some 0 ∧ ((engined { st := 1 }).slide 71).st = 1 ∧
    (engined {}).start.reaches (.fabric ⟨0x45, 0, 0, 1, true⟩ true) (0x0A0008 + 71 * 0x80) = true ∧ hosting.start.regGate (.bar0 1) true (0x0A0008 + 71 * 0x80) 4 = (none, hosting.start) ∧
    (hosting.start.regWho (.bar0 1)).view = some 1 ∧
    hosting.start.regOwned 1 ⟨"SLD_CTRL", 0x0A0008, 0x80, 72, 1, false, [Fld.SLD_CTRL_CTX, Fld.SLD_CTRL_ABORT, Fld.SLD_CTRL_START]⟩ 71 = false := by decide +kernel

/-- A transfer of 16 bytes from address 4096 to 4160 of context 0. -/
def move16 : Slide := { st := 1, counts := [16, 1, 1, 1], srcStr := [1, 0, 0, 0], dstStr := [1, 0, 0, 0], elem := 1, src := 4096, dst := 4160 }

theorem witness_SlideEnginesStartAbortAndIssue : (engined {}).slideAllowed 71 0 = true ∧ (engined {}).ctxUsable 0 0 = true ∧ ((engined {}).slide 71).st = 0 ∧
    (engined move16).unitDown (engineUnit 71) = false ∧ (engined move16).credit ((engined move16).slide 71) 16 = true ∧ ((engined move16).slide 71).burstLen 64 0 0 = 16 ∧
    ((engined move16).slide 71).addr true 0 = some 4160 ∧ (((List.range 16).map fun j => ((engined move16).slide 71).addr false j).all Option.isSome) = true ∧
    (engined move16).firstMiss 71 0 .read (((List.range 16).map fun j => ((engined move16).slide 71).addr false j).map fun o => o.getD 0) = none ∧
    (engined move16).engineHit 71 0 4160 .write = some 8256 ∧ ((parted.firstMiss 71 0 .read [4096]).isSome = true) ∧ (up.running 3).isSome = false ∧ (giving.running 0).isSome = true ∧ ((engined move16).slide 71).issued < ((engined move16).slide 71).total ∧
    (engined { move16 with st := 2 }).credit ((engined { move16 with st := 2 }).slide 71) (((engined { move16 with st := 2 }).slide 71).burstLen 64 0 0) = true := by decide +kernel

/-- Lane 63 a camera with every band allowed. -/
def camera63 : State := withLane up 63 [(0, 1), (0x10, 0x3F), (0x86, 0xFF), (0x87, 0xFF)]

theorem witness_BandsAreKeptWithinTheirLimits : tapReach camera63 (0x0C1004 + 63 * 0x40) = true ∧ camera63.laneKind 63 = 1 ∧ camera63.laneField 63 0x84 2 = 0 ∧ camera63.laneField 63 0x86 2 = 65535 ∧
    tapReach camera63 (0x0C1000 + 63 * 0x40) = true ∧ tapReach up (0x0C0100 + 15 * 0x20) = true := by decide +kernel

theorem witness_PowerRequestsWaitTheirTurn : tapReach up 0x020010 = true ∧ (upWith [(Fld.PWR_REQ_STATUS_PENDING, 0, 1)]).get Fld.PWR_REQ_STATUS_PENDING 0 = 1 ∧
    up.get Fld.PWR_REQ_STATUS_PENDING 0 ≠ 1 ∧ 71 < (72 : BitVec 8).toNat ∧ tapReach (upWith [(Fld.PWR_REQ_STATUS_PENDING, 0, 1)]) 0x020010 = true := by decide +kernel

/-- A Yoke on with nothing of its half. -/
def yoke : State := st [(Fld.PWR_STATE_ON, 1, 0x10000)]

/-- `up` with domain `d` off. -/
def without (d : Nat) : State := up.putBit Fld.PWR_STATE_ON d false

theorem witness_DomainsSwitchByRequestAndByPolicy_request : up.domBarred 15 = false ∧ up.domForeign 15 = false ∧ up.quiescing (domainUnit 15) = false ∧ up.domBusy 15 = false ∧ up.domOn 15 = true ∧
    plainDomain 15 = false ∧ ((((up.start.heal 0x020010).reqPending 15).askQuiesce (domainUnit 15) .off)).isSome = true ∧ ((((up.start.heal 0x020010).reqPending 47).askQuiesce (domainUnit 47) .forceOff)).isSome = true ∧
    up.domBusy 47 = false ∧ up.domBarred 47 = false ∧ up.domForeign 47 = false ∧ (without 15).domOn 15 = false ∧ (without 15).waking 15 = false ∧ (without 15).domBusy 15 = false ∧ plainDomain 48 = true ∧
    yoke.domBusy 48 = false ∧ yoke.domBarred 48 = false ∧ yoke.domForeign 48 = false ∧ yoke.domOn 48 = true ∧ tapReach yoke 0x020010 = true := by decide +kernel

def waking (d : Nat) : State := { without d with pwr := { up.pwr with waking := [(d, some 0)] } }

theorem witness_DomainsSwitchByRequestAndByPolicy_policy : up.err.coxHalted = false ∧ yoke.pinned 48 = false ∧ yoke.domIdle 48 = true ∧ yoke.domFitted 48 = true ∧ yoke.domOn 48 = true ∧ (waking 48).waking 48 = true ∧
    domainUnit 48 = 0xFF ∧ (waking 48).pwr.explicit ≠ some 48 ∧ (upWith [(Fld.PWR_PIN_PINNED, 2, 0x80)]).pinned 71 = true := by decide +kernel

theorem witness_GovernorsSetTheirVoltages : ({ up with err := { up.err with coxHalted := true } } : State).err.coxHalted = true ∧ up.err.coxHalted = false ∧ up.domOn 15 = true ∧ up.mod.capped = false ∧
    up.get Fld.CATCH_VME_VME_MV 15 ≤ 600 ∧ (up.setScull 0 { monitorOk := false }).flag Fld.CATCH_CTRL_ESC_LOCK 0 = false ∧ ((up.setScull 0 { monitorOk := false }).scull 0).monitorOk = false := by decide +kernel

/-! ### Witnesses: lanes, time and learning -/

/-- NOVELTY at 1, ALARM at 2 and CLEAR at 0 on lane 63. -/
def levels63 : State := upWith [(Fld.LANE_LEVEL_NOV_LEVEL, 63, 0x3F800000), (Fld.LANE_LEVEL_ALM_LEVEL, 63, 0x40000000)]

theorem witness_LaneLevelsMustBeOrdered : tapReach levels63 (0x10000C + 0 * 4 + 63 * 0x400) = true ∧ tapReach levels63 (0x10000C + 2 * 4 + 63 * 0x400) = true ∧
    (fp32Lt 0 0x3F800000 && fp32Le 0x3F800000 0x40000000) = true ∧ (fp32Lt 0 0x3F900000 && fp32Le 0x3F900000 0x40000000) = true ∧ (fp32Lt 0x3F800000 0x3F800000 && fp32Le 0x3F800000 0x40000000) = false ∧
    tapReach camera63 (0x100008 + 63 * 0x400) = true ∧ Nat.land (bits 0x3F 5 0) (camera63.laneField 63 0x10 1) = bits 0x3F 5 0 ∧ Nat.land (bits 0x3F 5 0) (up.laneField 63 0x10 1) ≠ bits 0x3F 5 0 ∧
    tapReach levels63 (0x100018 + 63 * 0x400) = true ∧ 60 ≤ bits (60 * 65536) 31 16 := by decide +kernel

/-- A population of engine 1 that is kept in the Boathouse. -/
def kept (dirty : Bool) : Pop := { desc := bytesWith 64 [(3, 0x40), (8, 1)], part := 0, model := 0, sig := [], fastQuota := 0, spillQuota := 0, dirty := dirty }

/-- `up` with population 63 of engine 1. -/
def popped (p : Pop) : State := { up with le := [(1, { pops := [(63, some p)] })] }

theorem witness_ModulatorsFollowTeachMarkAndCancel : tapReach camera63 (0x12040C + 63 * 0x20) = true ∧ camera63.laneKind 63 ≠ 0 ∧ ((up.setLrn 63 { markEnd := 1, teachEnd := 2 }).lrnLane 63).markEnd ≠ 0 ∧
    ((up.setLrn 63 { markEnd := 1, teachEnd := 2 }).lrnLane 63).teachEnd ≠ 0 ∧ tapReach (popped (kept true)) 0x12010C = true ∧
    (upWith [(Fld.LRN_POP_SEL_ENGINE, 0, 1), (Fld.LRN_POP_SEL_POP, 0, 63)]).get Fld.LRN_POP_SEL_POP 0 = 63 ∧ ((popped (kept true)).pop 1 63).isSome = true ∧
    tapReach (popped (kept true)) 0x140004 = true ∧ (popped (kept true)).keptPop 127 = some (kept true) ∧ (popped (kept true)).suspended 127 = false ∧ (popped (kept true)).learnOff = false ∧
    (((popped (kept true)).start.heal 0x140004).forgetReg.wearOk 1 (kept true)) = true ∧
    (((((popped (kept true)).start.heal 0x140004).forgetReg).bhAnswer 127 stOK 0 1).askSnap 1 { pop := 63, readout := false, byReg := true }).isSome = true ∧ (kept false).dirty = false := by
  decide +kernel

/-- Lane 63 a running camera on die 2, port 1, of one group, any SSRC, with a frame of SEQ 0 at a stage. -/
def stream (e : Entry) : State :=
  let s := (withLane up 63 [(0, 1), (4, 2), (5, 1), (6, 1), (0x50, 0xFF), (0x64, 0x8C), (0x65, 0x13)]).put Fld.LANE_STATUS_STATE 63 3
  s.setLane 63 { ssrc := 0, rtpSeq := some 65535, entries := [e], heard := true, writes := true }

def frame0 (stage : Nat) : Entry := { seq := 0, dev := 0, arrival := 0, slot := 0, tflags := 0, srcFlags := 0, rtpTs := 0, missed := 0, stage := stage }

def pkt1 (port : Nat) : RtpPacket := { pkt0 with dstAddr := 0xFF :: List.replicate 15 0, dstPort := port }

theorem witness_CamerasDeliverFrames : (stream (frame0 1)).portLink 2 1 = true ∧ (stream (frame0 1)).cameraOf 2 1 (pkt1 5004) false = some 63 ∧ (pkt1 5004).payloadType = (stream (frame0 1)).laneField 63 0x62 1 ∧
    ((stream (frame0 1)).lane 63).ssrc = (pkt1 5004).ssrc.toNat ∧ (pkt1 5004).seq.toNat = (65535 + 1) % 65536 ∧ (stream (frame0 1)).cameraOf 2 1 (pkt1 5005) true = some 63 ∧
    (stream (frame0 1)).laneKind 63 = 1 ∧ (stream (frame0 1)).decOn 63 = true ∧ (stream (frame0 1)).laneAdmitted 63 = true ∧ (stream (frame0 1)).oldestInDelta 63 = some (frame0 1) ∧
    (stream (frame0 1)).deOn 63 = true ∧ (((stream (frame0 1)).start.compareFrame 63 (frame0 1)).oldestInDelta 63).isSome = true ∧ (stream (frame0 2)).oldestInDelta 63 = some (frame0 2) ∧
    (stream (frame0 2)).err.coxHalted = false ∧ ((up.setLane 63 { capture := some (0, 0, 0) }).lane 63).capture = some (0, 0, 0) ∧
    (pkt1 5004).unsupported = false ∧ ({ pkt1 5004 with unsupported := true } : RtpPacket).unsupported = true := by decide +kernel

theorem witness_CamerasDeliverFrames_decoded : ((stream (frame0 1)).start.fabric fab0).laneKind 63 = 1 ∧ ((stream (frame0 1)).start.fabric fab0).decOn 63 = true ∧
    (((stream (frame0 1)).start.fabric fab0).lane 63).capture = none ∧ ((stream (frame0 1)).start.fabric fab0).laneAdmitted 63 = true ∧ fab0.header ≠ 2 ∧
    ((stream (frame0 1)).start.fabric { fab0 with header := 2 }).decOn 63 = true ∧ ((stream (frame0 1)).start.fabric { fab0 with header := 2 }).laneAdmitted 63 = true ∧
    (((stream (frame0 1)).start.fabric { fab0 with header := 2 }).lane 63).capture = none := by decide +kernel

/-- The PTP slave on die 0, port 0. -/
def slave (x : PtpSt) : State := { up with boot := { up.boot with ptpPort := some (0, 0) }, ptp := x }

/-- A T1S lane 63 on die 0, segment 0, of PLCA ID 0, running. -/
def node63 : State :=
  let s := (withLane up 63 [(0, 2), (0x111, 1)]).put Fld.LANE_STATUS_STATE 63 3
  s.setLane 63 { writes := true }

/-- `node63` whose die 0 has kept its time-stamp unit. -/
def master0 : State := { node63 with boot := { node63.boot with owners := [(3 * 4096 + 2, some ⟨1, 0⟩)] } }

theorem witness_DeviceTimeFollowsItsMaster : (slave {}).ptpTakes 0 = true ∧ (slave { everLocked := true }).ptp.everLocked = true ∧ (slave { everLocked := true }).ptpTakes 0 = true ∧
    (slave { twoStep := some (5, 0) }).ptp.twoStep = some ((5 : BitVec 16).toNat, 0) ∧ (slave { twoStep := some (5, 0) }).ptpTakes ((slave {}).get Fld.NET_PTP_STATUS_DOMAIN 0) = true ∧
    (slave {}).ptp.master = none ∧ (upWith [(Fld.NET_PTP_STATUS_STATE, 0, 1)]).get Fld.NET_PTP_STATUS_STATE 0 = 1 ∧ up.alive = true ∧ master0.segRuns 0 0 = true ∧ master0.gmWorks 0 = true := by decide +kernel

/-- A sensor frame of a TYPE with serial 5 and a body of zeros. -/
def sframe (ty len : Nat) : List Byte := bytesWith 32 [(0, 1), (1, ty), (2, len), (4, 5)]

/-- Lane 63 a TDM lane on die 2, port 1. -/
def tdm63 : State := (withLane up 63 [(0, 3), (4, 2), (5, 1)]).put Fld.LANE_STATUS_STATE 63 3

/-- `tdm63` with the lane ABSENT. -/
def absent63 : State := tdm63.put Fld.LANE_STATUS_STATE 63 5

theorem witness_SensorNodesAreServed : (node63.start.sensorFrame 0 0 1 (sframe 1 16)).1 = some 63 ∧ (node63.start.sensorFrame 0 0 4 (sframe 4 16)).1 = some 63 ∧
    (node63.start.sensorFrame 0 0 3 (sframe 3 8)).1 = some 63 ∧ tdm63.fldOn 2 = true ∧ tdm63.tdmLane 2 1 = some 63 ∧ tdm63.laneState 63 = 3 ∧ node63.segRuns 0 0 = true ∧
    NatSet.has node63.ptp.segFault (0 * 4 + 0) = false ∧ absent63.fldOn 2 = true ∧ absent63.tdmLane 2 1 = some 63 ∧ absent63.laneState 63 = 5 ∧ (absent63.lane 63).writes = false ∧
    ((absent63.setLane 63 { waiting := true, writes := true }).lane 63).waiting = true ∧ (absent63.setLane 63 { waiting := true, writes := true }).laneState 63 = 5 ∧
    (absent63.setLane 63 { waiting := true, writes := true }).tdmLane 2 1 = some 63 := by decide +kernel

/-- `stream` with an entry at a stage and device time far past its limits. -/
def lateOf (stage : Nat) (left : List Nat) : State := { stream { frame0 stage with left := left } with dev := 10 ^ 15 }

theorem witness_GuaranteesAreKeptAndCounted : tdm63.laneState 63 = 3 ∧ ((stream (frame0 3)).lane 63).heard = true ∧ (stream (frame0 3)).laneState 63 = 3 ∧ up.alive = true ∧ up.err.coxHalted = false ∧
    (((stream (frame0 3)).setLane 63 { (stream (frame0 3)).lane 63 with seq := 1 }).seqUsed 63 0) = true ∧ (stream (frame0 3)).entry 63 (0 : BitVec 32).toNat = some (frame0 3) ∧ (frame0 3).left = [] ∧
    (frame0 3).ended = false ∧ (frame0 3).late = false ∧ (stream (frame0 3)).laneAdmitted 63 = true ∧ (stream (frame0 3)).laneState 63 ≠ 5 ∧ up.alive = true ∧ tdm63.laneKind 63 ≠ 1 ∧
    (lateOf 3 []).frameLimit 63 (frame0 3) 1 ≤ (lateOf 3 []).dev ∧ (lateOf 1 []).entry 63 (0 : BitVec 32).toNat = some (frame0 1) ∧ (lateOf 1 []).frameLimit 63 (frame0 1) ((lateOf 1 []).get Fld.ERR_WD_CFG_LATE_MULT 0) ≤ (lateOf 1 []).dev ∧
    ¬ ((frame0 1).stage = 3 ∧ ([] : List Nat) = (frame0 1).left) ∧ ((((lateOf 3 []).setLane 63 { (lateOf 3 []).lane 63 with entries := [], seq := 1 }).entry 63 (0 : BitVec 32).toNat) = none) ∧
    (((lateOf 3 []).setLane 63 { (lateOf 3 []).lane 63 with entries := [], seq := 1 }).seqUsed 63 (0 : BitVec 32).toNat) = true := by decide +kernel

/-- Lane 63 with an event ring in Pocket 1 that holds one event. -/
def evented (flags : Nat) : State :=
  let s := ((((up.wrNat 0x01000200000 8 0x01000210000).wrNat 0x01000200008 8 4096).wrNat 0x01000200020 8 16).wrNat 0x0100021000F 1 flags)
  s.setLrn 63 { ring := 0x01000200000, engine := 1 }

/-- `evented` with the lane's events read by a partition that the Pocket is lined for. -/
def evented1 : State :=
  let s := evented 2
  { s with xlu := { s.xlu with lining := [(65536 + 1, 0x101)] } }

theorem witness_LearningEnginesTakeTheirWork_service : ((evented 2).service 0x31 ((evented 2).lanePart 63) false 0x01000210000 16).1 = false ∧
    (evented1.service 0x31 (evented1.lanePart 63) false 0x01000210000 16).1 = true ∧ ((evented1.setPoison 0x01000210008).service 0x31 (evented1.lanePart 63) false 0x01000210000 16).1 = true ∧
    evented1.ringCon 0x01000200000 < evented1.ringPub 0x01000200000 ∧ bit (evented1.coherentNat (0x01000210000 + 15) 1) 1 = true ∧ bit (evented1.coherentNat (0x01000210000 + 15) 1) 0 = false ∧
    (evented1.poisoned 0x01000210000 || evented1.poisoned (0x01000210000 + 8)) = false := by decide +kernel

def deliv0 : Deliv := { src := 0, uid := 0, target := 0, t := 0, amp := 0, lane := 0, due := 0 }

/-- Engine 1 with population 63, and paused for it. -/
def pausedFor : State := (popped (kept true)).setLe 1 { ((popped (kept true)).leng 1) with pause := some { pop := 63, t := 0 } }

/-- `pausedFor` with a neuron of population 63 and a synapse onto itself whose record is bad. -/
def pausedOn : State :=
  (pausedFor.setNeuron 1 5 { pop := 63 }).setRow 1 5 [{ uid := 0, target := 5, w := 0, delay := 0, elig := 0, age := 0, valid := true, frozen := false, new := false, spill := false, bad := true }]

theorem witness_LearningEnginesTakeTheirWork : (evented 2).domOn (50 + 1) = true ∧ ((evented 2).lrnLane 63).ring ≠ 0 ∧ (evented 2).ringCon 0x01000200000 < (evented 2).ringPub 0x01000200000 ∧
    ((evented 2).poisoned 0x01000210000 || (evented 2).poisoned (0x01000210000 + 8)) = false ∧ bit ((evented 2).coherentNat (0x01000210000 + 15) 1) 1 = true ∧
    bit ((evented 2).coherentNat (0x01000210000 + 15) 1) 0 = false ∧ (((evented 2).setPoison 0x01000210008).poisoned 0x01000210000 || ((evented 2).setPoison 0x01000210008).poisoned (0x01000210000 + 8)) = true ∧
    (up.setLe 1 { wheel := [deliv0] }).nextDue 1 = some deliv0 ∧ up.nextDue 1 = none ∧ up.err.coxHalted = false := by decide +kernel

theorem witness_LearningEnginesTakeTheirWork_sweep : (popped (kept true)).pop 1 63 = some (kept true) ∧ (kept true).evalAt + (kept true).f 0x3E 2 * (kept true).tick ≤ (popped (kept true)).popTime 1 (kept true) ∧
    (popped { kept true with evalAt := 1 }).popTime 1 { kept true with evalAt := 1 } < 1 ∧ ({ up with boot := { up.boot with phase := .powerFail } } : State).learnOff = true ∧
    (popped (kept true)).sweepDeferred 1 63 = false ∧ pausedFor.sweepDeferred 1 63 = false ∧ pausedOn.sweepDeferred 1 63 = true ∧ pausedOn.pop 1 63 = some (kept true) ∧
    pausedOn.neuron 1 5 = some { pop := 63 } := by decide +kernel

def slot63 (v : Bool) : SlotWrite := { pop := 63, blocks := [2], image := [], t := 0, attempt := 0, verifying := v, fn := none, byReg := false }

def snap63 (readout : Bool) : SnapReq := { pop := 63, readout := readout }

/-- Engine 1's bank writing a slot. -/
def writing63 (v : Bool) : State := (popped (kept true)).setBank 1 { writing := [slot63 v] }

theorem witness_CheckpointsCommitStepByStep : (popped (kept true)).keptPop 127 = some (kept true) ∧ (popped (kept false)).keptPop 127 = some (kept false) ∧ (popped (kept true)).suspended 127 = false ∧
    (popped (kept true)).learnOff = false ∧ (popped (kept true)).err.coxHalted = false ∧ ({ popped (kept true) with err := { (popped (kept true)).err with coxHalted := true } } : State).keptPop 127 = some (kept true) ∧
    ({ popped (kept true) with err := { (popped (kept true)).err with coxHalted := true } } : State).suspended 127 = false ∧ (popped (kept true)).wearOk 1 (kept true) = true ∧ ((popped (kept true)).put Fld.BH_WEAR_CFG_BUDGET 0 0).wearOk 1 (kept true) = false ∧ ((popped (kept true)).put Fld.BH_WEAR_CFG_BUDGET 0 0).keptPop 127 = some (kept true) ∧
    ((popped (kept true)).put Fld.BH_WEAR_CFG_BUDGET 0 0).suspended 127 = false ∧
    ((((popped (kept true)).setBank 1 { deferred := [snap63 false] }).bnk 1).deferred.find? fun (r : SnapReq) => r.pop = 127 % 64) = some (snap63 false) ∧
    ((up.setBank 1 { cur := some (snap63 true) }).bnk 1).cur = some (snap63 true) ∧ ((up.setBank 1 { cur := some (snap63 false) }).bnk 1).cur = some (snap63 false) ∧
    ((writing63 false).bnk 1).writing = slot63 false :: [] ∧ ((writing63 true).bnk 1).writing = slot63 true :: [] ∧ ((writing63 true).bnk 1).stopped = false ∧
    (((((writing63 true).start.bump Fld.BH_CE_CNT_CNT 1 0).bump Fld.BH_UE_CNT_CNT 1 0).setBank 1 {}).pop 1 63).isSome = true := by decide +kernel

/-! ### Witnesses: the host, reports, recovery and the link -/

/-- Function 0's mailbox enabled, partition 0 created, lane 63 its camera, Pocket 0's granule 0 its own, the flash owned, and two populations. -/
def hosted : State :=
  let s := [(Fld.HOST_MB_CFG_ENABLE, 0, 1), (Fld.BOOT_STATUS_FLASH_OWN, 0, 1), (Fld.HOST_MB_CFG_LOG2_CQ, 0, 4)].foldl (fun (s : State) (x : RegField × Nat × Nat) => s.put x.1 x.2.1 x.2.2) (withLane parted 63 [(0, 1)])
  { s with xlu := { s.xlu with lining := [(0, 0x101)] }, le := [(1, { pops := [(62, some { kept false with desc := bytesWith 64 [(3, 0xC0), (8, 1)] }), (63, some (kept true))] })] }

def ring0 : State := (hosted.start.mbRing 0).mbAdvance 0

/-- The state in which a command of function 0 has begun. -/
def begun (op : Nat) (a : List Byte) : State := ring0.mbBegin 0 0 op false (mbArgs a)

/-- Arguments with some bytes given. -/
def args (l : List (Nat × Nat)) : List Byte := bytesWith 56 l

/-- `hosted` after the command before its next. -/
def completed : State := { hosted with host := { hosted.host with done := [(0, [{ seq := 0xFFFFFFFF, op := 1, status := 0, result := [], time := 0 }])] } }

theorem witness_MailboxCommandsRunInSequence : hosted.mbReady 0 = true ∧ (0 : BitVec 32).toNat = hosted.get Fld.HOST_MB_NEXT_SEQ_SEQ 0 ∧ hosted.lanePart 63 = 0 ∧ hosted.laneOf 0 63 = true ∧
    hosted.laneOf 0 64 = false ∧ (1 : BitVec 32).toNat ≠ hosted.get Fld.HOST_MB_NEXT_SEQ_SEQ 0 ∧ seqBefore (hosted.get Fld.HOST_MB_NEXT_SEQ_SEQ 0) 1 = false ∧
    seqBefore (hosted.get Fld.HOST_MB_NEXT_SEQ_SEQ 0) 0xFFFFFFFF = true ∧
    ((Tbl.get [] completed.host.done 0).find? fun (c : Completion) => c.seq = 0xFFFFFFFF).isSome = true ∧ completed.mbReady 0 = true ∧ completed.get Fld.HOST_MB_NEXT_SEQ_SEQ 0 = 0 := by decide +kernel

/-- 4 KiB at the start of Pocket 0, as the first words of LOAD_MODEL's arguments. -/
def image4k : List Byte := args [(4, 0x10), (9, 0x10)]

/-- A destination at the start of Pocket 0 of 4 KiB, for engine 1's population `n`. -/
def dest4k (n : Nat) : List Byte := args [(0, 1), (1, n), (12, 0x10), (17, 0x10)]

/-- Lane 63's frame to the start of Pocket 0. -/
def frame4k : List Byte := args [(0, 63), (12, 0x10), (17, 0x10)]

/-- `len` × 256 bytes of slot 1 from or to the start of Pocket 0. -/
def flash4k (len : Nat) : List Byte := args [(0, 1), (9, len % 256), (10, len / 256), (20, 0x10)]

theorem witness_MailboxCommandsReachTheirBlocks_models : allZero (slice (mbArgs image4k) 12 4) = true ∧ allZero ((mbArgs image4k).drop 24) = true ∧ leAt (mbArgs image4k) 8 4 ≠ 0 ∧
    (begun 0x02 image4k).memCheck 0 false (leAt (mbArgs image4k) 0 8) (leAt (mbArgs image4k) 8 4) = stOK ∧ leAt (mbArgs image4k) 16 8 = 0 ∧
    (begun 0x03 image4k).memCheck 0 false (leAt (mbArgs image4k) 0 8) (leAt (mbArgs image4k) 8 4) = stOK := by decide +kernel

theorem witness_MailboxCommandsReachTheirBlocks_pops : allZero (slice (mbArgs (dest4k 62)) 2 6) = true ∧ allZero ((mbArgs (dest4k 62)).drop 24) = true ∧ leAt (mbArgs (dest4k 62)) 0 1 < 2 ∧
    (match (begun 0x05 (dest4k 62)).pop 1 62 with
      | some p => decide (p.part = 0) && modeReads p.mode && decide (0 < ((begun 0x05 (dest4k 62)).snapshot 1 62 p true false).length) &&
          decide (((begun 0x05 (dest4k 62)).snapshot 1 62 p true false).length ≤ leAt (mbArgs (dest4k 62)) 16 8) &&
          decide ((begun 0x05 (dest4k 62)).memCheck 0 true (leAt (mbArgs (dest4k 62)) 8 8) ((begun 0x05 (dest4k 62)).snapshot 1 62 p true false).length = stOK)
      | none => false) = true ∧
    (begun 0x06 (leBytes 1 1 ++ leBytes 1 63)).pop 1 63 = some (kept true) ∧ (begun 0x06 (leBytes 1 1 ++ leBytes 1 63)).wearOk 1 (kept true) = true ∧
    (begun 0x06 (leBytes 1 1 ++ leBytes 1 63)).learnOff = false ∧ (begun 0x06 (leBytes 1 1 ++ leBytes 1 63)).get Fld.BH_POP_STATUS_SUSPENDED (64 * 1 + 63) ≠ 1 ∧ modeKeeps ({ kept false with desc := bytesWith 64 [(3, 0xC0), (8, 1)] } : Pop).mode = true := by decide +kernel

theorem witness_MailboxCommandsReachTheirBlocks_frame : allZero (slice (mbArgs frame4k) 1 7) = true ∧ allZero ((mbArgs frame4k).drop 24) = true ∧ (begun 0x09 frame4k).laneOf 0 63 = true ∧
    (begun 0x09 frame4k).laneKind 63 = 1 ∧ (begun 0x09 frame4k).memCheck 0 true (leAt (mbArgs frame4k) 8 8) 0 = stOK ∧ (begun 0x09 frame4k).spareSlots 0 ≠ 0 ∧ ((begun 0x09 frame4k).lane 63).capture = none := by
  decide +kernel

theorem witness_MailboxCommandsReachTheirBlocks_flash : allZero (slice (mbArgs (args [(0, 1), (10, 1)])) 1 3) = true ∧ allZero ((mbArgs (args [(0, 1), (10, 1)])).drop 12) = true ∧
    (begun 0x10 (args [(0, 1), (10, 1)])).flashCheck 0 1 0 65536 65536 = stOK ∧ (begun 0x10 (args [(0, 2), (10, 1)])).flashCheck 0 2 0 65536 65536 ≠ stOK ∧
    allZero (slice (mbArgs (flash4k 1)) 12 4) = true ∧ allZero ((mbArgs (flash4k 1)).drop 24) = true ∧ leAt (mbArgs (flash4k 1)) 8 4 = 256 ∧ (begun 0x11 (flash4k 1)).flashCheck 0 1 0 256 256 = stOK ∧
    (begun 0x11 (flash4k 1)).memCheck 0 false (leAt (mbArgs (flash4k 1)) 16 8) 256 = stOK ∧
    ((List.range (256 / 256)).any fun i => NatSet.has (begun 0x11 (flash4k 1)).boot.flashWritten (slotBase 1 / 256 + i)) = false ∧
    (begun 0x12 (flash4k 1)).memCheck 0 true (leAt (mbArgs (flash4k 1)) 16 8) 256 = stOK ∧ (begun 0x12 (flash4k 1)).flashCheck 0 1 0 256 1 = stOK := by decide +kernel

theorem witness_HostRegistersDriveTheirRings : (hosted.start.hostBytes 0 []).reaches .tap (0x170014 + 0 * 0x40) = true ∧ tapReach hosted (0x17001C + 0 * 0x40) = true ∧ tapReach hosted (0x170010 + 0 * 0x40) = true ∧
    tapReach hosted (0x16000C + 7 * 0x40) = true ∧ tapReach hosted (0x1B0004 + 8 * 0x40) = true ∧ tapReach hosted (0x160000 + 0 * 0x40) = true ∧
    ((0 : Nat) + 2 ^ 32 - hosted.get Fld.RPT_RING_CONS_CONS 7) % 2 ^ 32 ≤ (hosted.get Fld.RPT_RING_PROD_PROD 7 + 2 ^ 32 - hosted.get Fld.RPT_RING_CONS_CONS 7) % 2 ^ 32 ∧
    (hosted.get Fld.ERR_PROD_PROD 8 + 65536 - hosted.get Fld.ERR_CONS_CONS 8) % 65536 < (1 + 65536 - hosted.get Fld.ERR_CONS_CONS 8) % 65536 := by decide +kernel

theorem witness_HostRegistersDriveTheirRings_base :
    let low := hosted.start.busWrite .tap (0x160000 + 0 * 0x40) 4 ((0x12340 : BitVec 64).toNat % 2 ^ 32)
    low.reaches .tap (0x160000 + 0 * 0x40 + 4) = true ∧ (low.hold (low.regWho .tap).key).word = some (0x160000 + 0 * 0x40, (0x12340 : BitVec 64).toNat % 2 ^ 32) := by decide +kernel

/-- A unit whose quiesce of Scull 15 is in progress for an action, and one with eight more behind it. -/
def quiescing15 (a : QAct) : State := { up with err := { up.err with cur := some (15, a) } }
def quiesceFull : State := { up with err := { up.err with cur := some (15, .reset), queue := List.replicate 8 (14, .reset) } }

/-- Scull 15 in quiesce with an open checker. -/
def undrained : State := (quiescing15 .reset).setScull 15 { open_ := [.array step8 0] }

theorem witness_RecoveryCommandsActOnTheirUnit : tapReach up 0x1B0240 = true ∧ up.unitFitted 15 = true ∧ up.isRetired 15 = false ∧ up.unitFitted 0xFE = false ∧ (quiescing15 .reset).quiescing 15 = true ∧
    8 ≤ quiesceFull.err.queue.length ∧ quiesceFull.err.cur.isSome = true ∧ quiesceFull.quiescing 13 = false ∧ up.quiescing 0x45 = false ∧ up.err.cur = none ∧ tapReach up (0x1B0014 + 7 * 0x40) = true ∧
    parted.partRunning 0 = true ∧ (quiescing15 .reset).err.coxHalted = false ∧ Tbl.get none (quiescing15 .reset).pwr.returning (unitDomain 15) = none ∧
    (quiescing15 .autoOff).err.cur = some (15, .autoOff) ∧ (upWith [(Fld.ERR_PART_CFG_AUTO_S, 7, 1), (Fld.ERR_PART_CFG_HB_MS, 7, 1)]).get Fld.ERR_PART_CFG_AUTO_S 7 ≠ 0 ∧
    (upWith [(Fld.ERR_PART_CFG_AUTO_S, 7, 1), (Fld.ERR_PART_CFG_HB_MS, 7, 1)]).get Fld.ERR_PART_CFG_HB_MS 7 ≠ 0 ∧ NatSet.has up.err.noAuto 7 = false ∧ NatSet.has up.err.hbLate 7 = false ∧ up.alive = true ∧ (quiescing15 .reset).hasDrained 15 .reset = true ∧
    (quiescing15 .autoOff).hasDrained 15 .autoOff = true ∧ (quiescing15 .autoOff).err.coxHalted = false ∧ Tbl.get none (quiescing15 .autoOff).pwr.returning (unitDomain 15) = none ∧
    undrained.err.cur = some (15, .reset) ∧ undrained.hasDrained 15 .reset = false := by
  decide +kernel

def report0 : Report := { lane := 0, kind := 1 }
def dgram0 (n : Nat) : Dgram := { dseq := 7, recs := [report0], sentAt := 0, resends := n }
def col0 : Collector := { family := 4, dscp := 0, addr := [10, 0, 0, 1], port := 0, fill := [report0], dseq := 8, unacked := [dgram0 4], acked := [(6, true)] }

def col1 : Collector := { col0 with unacked := List.replicate 64 (dgram0 0) }

/-- Collector 3 with one record waiting and one datagram unacknowledged. -/
def collecting : State := (upWith [(Fld.RPT_COL_STATUS_RESOLVED, 3, 1), (Fld.RPT_COL_CFG_ACK_MODE, 3, 1)]).setCol 3 col0

/-- `collecting` with a route to die 0's port 0. -/
def routed : State := { collecting with boot := { collecting.boot with ports := [bytesWith 56 [(24, 10), (27, 2), (28, 8)]] } }

theorem witness_CollectorsSendAndResend : collecting.col 3 = some col0 ∧ col0.fill ≠ [] ∧ collecting.get Fld.RPT_COL_STATUS_RESOLVED 3 = 1 ∧ collecting.flag Fld.RPT_COL_CFG_ACK_MODE 3 = true ∧
    (col0.unacked.any fun (x : Dgram) => x.dseq = (7 : BitVec 32).toNat) = true ∧ (col0.unacked.any fun (x : Dgram) => x.dseq = (6 : BitVec 32).toNat) = false ∧ NatSet.has col0.acked (6 : BitVec 32).toNat = true ∧
    (col0.unacked.find? fun (x : Dgram) => x.dseq = (7 : BitVec 32).toNat) = some (dgram0 4) ∧ (dgram0 4).resends < 5 ∧ 5 ≤ (dgram0 5).resends ∧ ((up.setCol 3 col0).get Fld.RPT_COL_STATUS_RESOLVED 3) ≠ 1 ∧
    (up.setCol 3 col0).flag Fld.RPT_COL_STATUS_DOWN 3 = false ∧ collecting.colFull 3 col0 = false ∧ col1.unacked.length = 64 ∧ (collecting.setCol 3 col1).col 3 = some col1 ∧
    (collecting.setCol 3 col1).colFull 3 col1 = true ∧ (collecting.colPort col0).any (fun (p : Nat × Nat) => collecting.portLink p.1 p.2) = false ∧
    (routed.colPort col0).any (fun (p : Nat × Nat) => routed.portLink p.1 p.2) = true ∧ routed.col 3 = some col0 := by decide +kernel

theorem witness_HostLinksComeAndGo : (Tbl.get none hosted.boot.parts 0).isSome = true ∧ up.domOn 70 = true ∧ up.mod.perst = false ∧ up.boot.phase ≠ .powerFail := by decide +kernel

/-- Link port 2 up, and one that retrains. -/
def linked (st : Nat) (p : JlPort) : State := (upWith [(Fld.JL_STATUS_STATE, 2, st)]).setPort 2 p

theorem witness_LinkPortsKeepTheirFlits : (linked 2 {}).linkOn 2 = true ∧ (linked 2 {}).portUp 2 = true ∧ ([] : List Byte).length ≠ 128 ∧ ((linked 2 { nakSent := true }).jlPort 2).badRun < 15 ∧
    ((linked 2 { nakSent := true }).jlPort 2).nakSent = true ∧ (linked 1 { trying := true }).linkOn 2 = true ∧ (linked 1 { trying := true }).get Fld.JL_STATUS_STATE 2 = 1 ∧
    ((linked 1 { trying := true }).jlPort 2).trying = true ∧ (linked 0 {}).portUp 2 = false ∧ ((linked 0 {}).jlPort 2).trying = false ∧ (linked 0 {}).linkOn 2 = true ∧
    (15 : BitVec 4).toNat ≠ (linked 0 {}).get Fld.GLB_PKG_ID_PKG_ID 0 ∧ (0 : BitVec 4).toNat = (linked 0 {}).get Fld.GLB_PKG_ID_PKG_ID 0 := by decide +kernel

theorem witness_LinkMessagesAreServedOnce : (linked 2 {}).linkOn 2 = true ∧ msg0.srcPkg.toNat = (linked 2 {}).get Fld.GLB_PKG_ID_PKG_ID 0 ∧
    (∀ t ∈ (linked 2 {}).jl.tags, t.unit = msg0.srcUnit.toNat → t.tag = msg0.tag.toNat % 4096 → t.answered = true) ∧ (linked 2 {}).dbg.held = none ∧ (linked 2 {}).coh.waitRel = [] ∧ (jlOf 0x81 true msg0).hops ≠ 15 := by
  refine ⟨by decide +kernel, by decide +kernel, fun t h => ?_, by decide +kernel, by decide +kernel, by decide +kernel⟩
  have e : (linked 2 {}).jl.tags = [] := by decide +kernel
  rw [e] at h
  cases h

/-! ### Witnesses: the panel, start-up, resets, the module and debug -/

/-- Pin 23 a key of an action, with a lane selected. -/
def keyed (act : Nat) : State := upWith [(Fld.PNL_PIN_CFG_FUNC, 23, 1), (Fld.PNL_PIN_CFG_ARG, 23, act), (Fld.PNL_SEL_NONE, 0, 0)]

def held0 (spent : Bool) : KeyHeld := { act := 0, target := none, at_ := 0, spent := spent }

/-- Pin 22 the slider's electrode 0 with a baseline of 100. -/
def slider0 : State :=
  let s := upWith [(Fld.PNL_PIN_CFG_FUNC, 22, 2)]
  { s with pnl := { s.pnl with base := [(22, 25600)] } }

/-- Pin 21 the plug detect of lane 63, in a lane state. -/
def plug63 (lane plugged : Nat) : State := upWith [(Fld.PNL_PIN_CFG_FUNC, 21, 3), (Fld.PNL_PIN_CFG_ARG, 21, 63), (Fld.PNL_PLUGGED_PLUGGED, 0, plugged * 0x200000), (Fld.LANE_STATUS_STATE, 63, lane)]

theorem witness_PanelKeysAct_keys : (keyed 0).pinFunc 23 = 1 ∧ (keyed 0).key 23 = none ∧ (keyed 0).pnl.held = [] ∧ (keyed 1).pinArg 23 = 1 ∧ (keyed 1).selected = some 0 ∧ (keyed 0).pinArg 23 ≠ 1 ∧
    ((keyed 0).setKey 22 (some (held0 false))).pnl.held ≠ [] ∧ ((keyed 0).setKey 23 (some (held0 false))).key 23 = some (held0 false) ∧ ((keyed 0).setKey 23 (some (held0 true))).key 23 = some (held0 true) ∧
    (keyed 0).pinFault 23 = false ∧ ((keyed 0).setFault 23 true).pinFault 23 = true := by decide +kernel

/-- Pin 21 a capacitive plug detect, and the unit whose IO-A failed. -/
def capPlug21 : State := upWith [(Fld.PNL_PIN_CFG_FUNC, 21, 3), (Fld.PNL_PIN_ARG2_ARG2, 21, 1)]
def noPanel : State := { up with boot := { up.boot with ioaLost := true } }

theorem witness_PanelKeysAct_slider : slider0.sliderPin 0 = some 22 ∧ slider0.sliderPin 1 = none ∧ slider0.sliderPin 2 = none ∧ slider0.sliderPin 3 = none ∧ slider0.pinFault 22 = false ∧
    slider0.touched 22 200 = true ∧ slider0.pnl.touching = false ∧ slider0.panelUp = true ∧
    capPlug21.panelUp = true ∧ capPlug21.capPlug 21 = true ∧ (List.range 8).all (fun k => (capPlug21.sliderPin k).isNone) = true ∧ capPlug21.pnl.touching = false ∧ (keyed 0).panelUp = true ∧ noPanel.panelUp = false := by decide +kernel

theorem witness_PanelKeysAct_plugs : (plug63 3 1).plugPinOk 21 = true ∧ bit ((plug63 3 1).get Fld.PNL_PLUGGED_PLUGGED 0) 21 = true ∧ (plug63 3 1).pinArg 21 = 63 ∧ (plug63 3 1).laneAdmitted 63 = true ∧
    (plug63 3 1).laneState 63 ≠ 5 ∧ (plug63 5 1).laneState 63 = 5 ∧ (plug63 5 1).plugPinOk 21 = true ∧ bit ((plug63 5 0).get Fld.PNL_PLUGGED_PLUGGED 0) 21 = false ∧ (plug63 5 0).plugPinOk 21 = true ∧
    (((plug63 5 1).setLane 63 { waiting := true }).lane 63).waiting = true ∧ slider0.pinFunc 22 = 2 ∧ (upWith [(Fld.PNL_PIN_CFG_FUNC, 21, 3), (Fld.PNL_PIN_ARG2_ARG2, 21, 1)]).pinArg2 21 = 1 ∧
    (upWith [(Fld.PNL_PIN_CFG_FUNC, 20, 4)]).pinFunc 20 = 4 ∧ up.pinFault 20 = false ∧ (upWith [(Fld.PNL_PIN_CFG_FUNC, 20, 4)]).panelUp = true := by decide +kernel

/-- Lane 63 listed. -/
def listed63 : State := upWith [(Fld.LANE_STATUS_STATE, 63, 3), (Fld.LANE_REPORT_MASK_MASK, 63, 0x20)]

theorem witness_PanelKeysAct_registers : tapReach listed63 0x1A010C = true ∧ (listed63.start.heal 0x1A010C).listed.contains (63 % 64) = true ∧ (listed63.start.heal 0x1A010C).listed.contains (62 % 64) = false ∧
    tapReach listed63 0x1A0114 = true := by decide +kernel

/-- A factory record but for its CRC: a root key, the debug password 0 and a debug key. -/
def uncheckedRecord : Tbl Byte :=
  ((ascii ['F', 'R', 'E', 'C']).zip (List.range 4)).map (fun p => (p.2, p.1)) ++ [(0x100, 1)] ++
    ((sha256 (List.replicate 32 0)).zip (List.range 32)).map (fun p => (0x198 + p.2, p.1)) ++ [(0x1B8, 1)]

/-- The CRC that makes it hold. -/
def crc0 : Nat := crcWithout ((List.range 8192).map fun i => Tbl.get 0 uncheckedRecord (0 + i)) 0x3C

/-- The factory record with its CRC. -/
def record0 : Tbl Byte :=
  (0x3C, BitVec.ofNat 8 crc0) :: (0x3D, BitVec.ofNat 8 (crc0 / 256)) :: (0x3E, BitVec.ofNat 8 (crc0 / 256 / 256)) :: (0x3F, BitVec.ofNat 8 (crc0 / 256 / 256 / 256)) :: uncheckedRecord

/-- The running unit with that record, and one whose fuses are burned. -/
def made (fuses : Nat) : State := { up with boot := { up.boot with otp := record0, lcFuses := fuses } }

theorem record0_other (i : Nat) (h : i < 0x3C ∨ 0x40 ≤ i) : Tbl.get 0 record0 i = Tbl.get 0 uncheckedRecord i := by
  simp only [record0, Tbl.get]
  rw [if_neg (by omega), if_neg (by omega), if_neg (by omega), if_neg (by omega)]

theorem crc0_lt : crc0 < 2 ^ 32 := crc32_lt _

theorem slice_map (f : Nat → Byte) (m a n : Nat) (h : a + n ≤ m) : (((List.range m).map f).drop a).take n = (List.range n).map fun i => f (a + i) := by
  refine List.ext_getElem (by simp; omega) fun i h₁ h₂ => ?_
  simp

theorem crcWithout_congr (f g : Nat → Byte) (m a : Nat) (h : ∀ i, i < a ∨ a + 4 ≤ i → f i = g i) : crcWithout ((List.range m).map f) a = crcWithout ((List.range m).map g) a := by
  have x : ((List.range m).map f).take a = ((List.range m).map g).take a :=
    List.ext_getElem (by simp) fun i h₁ _ => by
      simp only [List.length_take, List.length_map, List.length_range] at h₁
      simpa using h i (by omega)
  have y : ((List.range m).map f).drop (a + 4) = ((List.range m).map g).drop (a + 4) :=
    List.ext_getElem (by simp) fun i _ _ => by simpa using h (a + 4 + i) (by omega)
  unfold crcWithout
  rw [x, y]

theorem record0_crc : crcWithout ((List.range 8192).map fun i => Tbl.get 0 record0 (0 + i)) 0x3C = crc0 :=
  crcWithout_congr _ _ 8192 0x3C fun i h => record0_other (0 + i) (by omega)

theorem record0_magic : ((List.range 8192).map fun i => Tbl.get 0 record0 (0 + i)).take 4 = ascii ['F', 'R', 'E', 'C'] := by
  have x := slice_map (fun i => Tbl.get 0 record0 (0 + i)) 8192 0 4 (by omega)
  rw [List.drop_zero] at x
  rw [x]
  decide +kernel

theorem record0_field : leAt ((List.range 8192).map fun i => Tbl.get 0 record0 (0 + i)) 0x3C 4 = crc0 := by
  have h := crc0_lt
  unfold leAt
  rw [slice_map _ 8192 0x3C 4 (by omega)]
  rw [show ((List.range 4).map fun i => Tbl.get 0 record0 (0 + (0x3C + i))) = leBytes 4 crc0 by rfl, leNat_leBytes]
  exact Nat.mod_eq_of_lt h

theorem made_bytes (n : Nat) : (made n).otpBytes 0 8192 = (List.range 8192).map fun i => Tbl.get 0 record0 (0 + i) := rfl

theorem made_otpOk (n : Nat) : (made n).otpOk = true := by
  unfold State.otpOk
  simp only [made_bytes, record0_magic, record0_field, record0_crc, decide_true, Bool.and_self]

theorem made_credOk (n : Nat) : (made n).credOk = true := by
  unfold State.credOk
  rw [made_otpOk]
  change (true && !allZero ((made 0).otpBytes 0x198 32) && !allZero ((made 0).otpBytes 0x1B8 32)) = true
  decide +kernel

def env0 : StartEnv :=
  { powerOn := false, forceFactory := false, teachAck := false, hangA := .none, hangB := .none, patchFails := false, burnFails := false, ioaFails := false, ms := 0 }

/-- The unit in a phase of its start-up. -/
def inPhase (p : Phase) : State := { State.reset with boot := { State.reset.boot with phase := p, env := some env0 } }

theorem witness_StartUpFollowsItsSteps : env0.powerOn = false ∧ State.reset.boot.phase = .reset ∧ ({ State.reset with boot := { State.reset.boot with lcFuses := 2 } } : State).burned 1 = true ∧
    State.reset.burned 1 = false ∧
    ({ env0 with teachAck := true } : StartEnv).teachAck = true ∧ up.boot.phase ≠ .reset ∧ (inPhase (.readingSlot 1)).boot.phase = .readingSlot (1 : Fin 2).val ∧ (inPhase (.readingSlot 1)).boot.env = some env0 ∧
    (inPhase .training).boot.phase = .training ∧ (inPhase .bare).boot.phase = .bare ∧ (inPhase .powerFail).boot.phase = .powerFail ∧ (inPhase .powerFail).mod.tripped = false := by decide +kernel

theorem witness_StartUpFollowsItsSteps_record : (made 0).otpOk = true ∧ State.reset.otpOk = false := by
  refine ⟨made_otpOk 0, ?_⟩
  have e : ((State.reset.otpBytes 0 8192).take 4 = ascii ['F', 'R', 'E', 'C']) = False := by decide +kernel
  simp [State.otpOk, e]

theorem witness_ResetsKeepWhatTheyMust : up.boot.phase ≠ .powerFail ∧ (inPhase .powerFail).boot.phase = .powerFail ∧ (inPhase .fatalHeld).boot.phase = .fatalHeld ∧ up.boot.phase ≠ .fatalHeld ∧
    ({ up with err := { up.err with coxHalted := true } } : State).err.coxHalted = true ∧ up.err.coxHalted = false ∧
    ({ (inPhase .fatalHeld) with err := { up.err with fatalGo := true } } : State).err.fatalGo = true ∧ up.err.fatalGo = false ∧ up.mod.perst = false ∧
    ({ up with mod := { up.mod with perst := true } } : State).mod.perst = true ∧ up.quiescing 0x43 = false ∧
    ({ up with err := { up.err with cur := some (0x43, .reset) } } : State).quiescing 0x43 = true := by decide +kernel

theorem witness_ModuleEventsAreRecordedOnce : up.fldOn 2 = true ∧ NatSet.has up.mod.segOff 11 = false ∧ NatSet.has (NatSet.add up.mod.segOff 11) 11 = true ∧ (6 : Fin 7) ≠ 0 ∧
    tdm63.tdmLane (((6 : Fin 7).val - 1) / 2) (((6 : Fin 7).val - 1) % 2) = some 63 ∧ up.mod.refBypass = false ∧ ({ up with mod := { up.mod with refBypass := true } } : State).mod.refBypass = true := by decide +kernel

/-- The monitor with a session of a level open in the field. -/
def session (level : Nat) : State :=
  let s := (made 1).put Fld.DBG_SESSION_LEVEL 0 level
  { s with dbg := { s.dbg with sessionAt := some 0 } }

theorem witness_TheMonitorAnswersItsCommands : up.monitorOn = true ∧ up.dbg.waiting = none ∧ up.lifecycle ≠ 3 ∧ 2 ≤ up.dbgLevel ∧ 1 ≤ (session 1).dbgLevel ∧ (session 1).dbgLevel < 2 ∧ (session 1).lifecycle ≠ 3 ∧
    (3 : BitVec 8).toNat ≤ 3 ∧ (15 : BitVec 8).toNat ≤ 15 ∧ (7 : BitVec 8).toNat ≤ 7 ∧ 15 < (16 : BitVec 8).toNat ∧ bits (0x1C : BitVec 8).toNat 3 0 ≤ 12 ∧ bits (0x1C : BitVec 8).toNat 5 4 ≠ 0 ∧
    bits (0x1C : BitVec 8).toNat 7 6 = 0 ∧ (4096 : BitVec 64).toNat % 2 ^ bits (0x1C : BitVec 8).toNat 3 0 = 0 ∧ (1 : BitVec 64).toNat % 2 ^ bits (0x1C : BitVec 8).toNat 3 0 ≠ 0 ∧
    bits (0x1FF : BitVec 16).toNat 15 9 = 0 ∧ dbgShape 48 16 = true := by decide +kernel

/-- The monitor waiting for a remote access, with a frame held behind it. -/
def monitoring : State := { up with dbg := { up.dbg with waiting := some ⟨0x40, 0, 0, 1⟩, held := some (.regRead 0 0 true), rsp := [List.replicate 32 0] } }

theorem witness_TheMonitorAnswersItsCommands_frames : monitoring.monitorOn = true ∧ monitoring.dbg.waiting = some ⟨0x40, 0, 0, 1⟩ ∧ monitoring.dbg.held = some (.regRead 0 0 true) ∧
    ({ monitoring with dbg := { monitoring.dbg with held := none } } : State).dbg.held = none ∧ up.dbg.rsp = [] ∧ monitoring.dbg.rsp = List.replicate 32 0 :: [] := by decide +kernel

theorem witness_UnlockingOpensOneSession : (made 1).monitorOn = true ∧ (made 1).dbg.waiting = none ∧ (made 1).lifecycle = 1 ∧ (made 1).lockedOut = false ∧
    ({ (made 1) with dbg := { up.dbg with lockoutUntil := some 1 } } : State).lockedOut = true ∧ leAt ([2] : List Byte) 0 1 = 2 ∧ (made 1).liveNonce = none ∧
    ({ (made 1) with dbg := { up.dbg with nonce := some (7, 0) } } : State).liveNonce = some 7 ∧ (session 1).dbg.sessionAt.isSome = true ∧ 1 ≤ (session 1).dbgLevel ∧
    (up.put Fld.SEC_DBG_STATUS_FAILS 0 1).get Fld.SEC_DBG_STATUS_FAILS 0 + 1 < 5 ∧ 5 ≤ min ((up.put Fld.SEC_DBG_STATUS_FAILS 0 4).get Fld.SEC_DBG_STATUS_FAILS 0 + 1) (2 ^ Fld.SEC_DBG_STATUS_FAILS.width - 1) := by
  decide +kernel

theorem witness_UnlockingOpensOneSession_record : (made 1).credOk = true ∧ up.credOk = false := by
  refine ⟨made_credOk 1, ?_⟩
  have e : allZero (up.otpBytes 0x198 32) = true := by decide +kernel
  simp [State.credOk, e]

theorem witness_UnlockingOpensOneSession_password : sha256 ((made 1).otpBytes 0x188 16 ++ ([] ++ List.replicate 16 0).take 16) = (made 1).otpBytes 0x198 32 ∧
    sha256 ((made 1).otpBytes 0x188 16 ++ ([1] ++ List.replicate 16 0).take 16) ≠ (made 1).otpBytes 0x198 32 := by decide +kernel

theorem witness_UnlockingOpensOneSession_response : ∃ a : List Byte, (a ++ List.replicate 16 0).take 16 = (made 1).expected 7 := by
  refine ⟨(made 1).expected 7, ?_⟩
  simp [State.expected, hmacSha256_length]

/-- Scull 15 halted, and one whose halt is due. -/
def halted15 : State := up.setScull 15 { halted := true }
def halting15 : State := up.setScull 15 { haltPending := some (1, 0, 0) }

theorem witness_HaltedUnitsStandStill : up.haltable 0x46 = false ∧ up.unitFitted 15 = true ∧ (halted15.scull 15).halted = true ∧ (up.scull 15).halted = false ∧ 2 ≤ halted15.dbgLevel ∧ 2 ≤ (session 2).dbgLevel ∧
    (session 2).lifecycle = 2 ∧ ({ up with err := { up.err with coxHalted := true } } : State).err.coxHalted = true ∧ (made 0).monitorOn = true ∧
    (halting15.scull 15).haltPending = some (1, 0, 0) ∧ halting15.haltReady 15 = true := by decide +kernel

theorem witness_HaltedUnitsStandStill_lock : (made 0).lockable = true := by
  have e : decide ((made 0).lifecycle = 0) = true ∧ ((List.range 4).any fun n => !allZero ((made 0).rootHash n)) = true := by decide +kernel
  unfold State.lockable
  rw [e.1, e.2, made_credOk]
  rfl

theorem witness_HaltedUnitsStandStill_serial : ∃ k : BitVec 64, k.toNat = (session 2).serial := by
  refine ⟨BitVec.ofNat 64 (session 2).serial, ?_⟩
  simp [State.serial]

theorem witness_FusesAreNeverCleared : (made 2).burned 1 = true ∧ (made 1).burned 1 = false ∧ (made 1).burned 0 = true ∧ (made 0).burned 0 = false ∧
    ({ up with pending := [.thermalCap true] } : State).fusesOk = true := by decide +kernel

theorem witness_FusesAreNeverCleared_step : ∃ t : State, step { up with pending := [.thermalCap true] } = .next t := ⟨_, rfl⟩

theorem witness_MemoryStaysCanonical : Memory.wf walked.mem = true ∧ walked.mem ≠ [] := by decide +kernel

theorem witness_StepsServeTheQueueInOrderAndKeepTheFactoryRecord : ∃ t : State, step { made 0 with pending := [.thermalCap true] } = .next t := ⟨_, rfl⟩

/-! ### Worked values of the spec -/

/-- Chapter 4's example: lock 0x0105 is held in P05, in block 1. -/
theorem test_lock_home : lockPocket 0x105 = 5 ∧ 0x105 / 256 = 1 := by decide +kernel

/-- Chapter 4's example: S03's epoch moves from 0x0041 to 0x0042, and its lock goes to S06's context 0x14 as ORPHAN. -/
theorem test_epoch_passes_the_lock :
    (match exec (.epochBroadcast 3 0x42 12 fab0) { up with locks := [(0x105, { st := 1, owner := ⟨3, 0x12, 1, 0x41, false⟩, queue := [(⟨6, 0x14, 1, 1, false⟩, 0)] })] } with
      | .next t => decide (t.lock 0x105 = { st := 1, owner := ⟨6, 0x14, 1, 1, false⟩, queue := [] }) && decide (t.out = [.lockGrant ⟨6, 0x14, 1, 1, false⟩ 0x105 stORPHAN]) &&
          decide (t.get Fld.LOCK_ORPHAN_CNT_CNT 0 = 1)
      | _ => false) = true := by decide +kernel

/-- Chapter 5's example: the page indices of 0x0012_3456_7890. -/
theorem test_page_indices : pageIdx 0 0x001234567890 = 0 ∧ pageIdx 1 0x001234567890 = 0x48 ∧ pageIdx 2 0x001234567890 = 0x1A2 ∧ 0x001234567890 % pageSize 2 = 0x167890 := by decide +kernel

/-- Table 6.8: burst 35 of chapter 6's example begins at 0x0040_003E_9180. -/
theorem test_slide_address :
    ({ counts := [4, 32, 2, 1], srcStr := [16, 1920, 3110400, 0], elem := 16, src := 0x0040000F0500 } : Slide).addr false (35 * 64) = some 0x0040003E9180 ∧
    ({ counts := [4, 32, 2, 1], elem := 16 } : Slide).total = 4096 := by decide +kernel

/-- Table 7.1, in mV rounded down. -/
theorem test_datapath_rail : (List.range 8).map (dataMv 550) = [550, 537, 525, 512, 500, 487, 475, 462] := by decide +kernel

/-- R281: what replays cost at most, in tenths. -/
theorem test_replay_cost : (rangeFrom 1 3).map (replayTenths · 3) = [48, 104, 168] := by decide +kernel

/-- Chapter 7's example: candidate thresholds of a band from 512 to 2,048. -/
theorem test_thresholds : [0, 1, 2, 3, 15].map (bandThreshold 512 2048) = [512, 614, 716, 819, 2048] := by decide +kernel

/-- Chapter 10's example: an image of 8,192 neurons and 262,144 fast records. -/
theorem test_image_size : snapLen 8192 262144 none = 2655616 := by decide +kernel

/-- Chapter 11's example: BW_BASE 6,000 and BW_SCALE 6,655 on a 1920 × 1080 lane at 30,000 mHz. -/
theorem test_lane_charge :
    (withLane up 0 [(0, 1), (0x66, 0x80), (0x67, 0x07), (0x68, 0x38), (0x69, 0x04), (0x70, 0x30), (0x71, 0x75)]).laneCharge 0 (bytesWith 32 [(0xC, 0x70), (0xD, 0x17), (0x10, 0xFF), (0x11, 0x19)]) = 419995 := by
  decide +kernel

/-- Chapter 15's example: the fifth failed unlock locks for 600 s, and the sixth for 1,200 s. -/
theorem test_lockouts :
    (st [(Fld.SEC_DBG_STATUS_FAILS, 0, 4)]).unlockFail.2.2.dbg.lockoutUntil = some 600000000000 ∧
    ((st [(Fld.SEC_DBG_STATUS_FAILS, 0, 4)]).unlockFail.2.2).unlockFail.2.2.dbg.lockoutUntil = some 1200000000000 := by decide +kernel

/-- Chapter 16's example: CATCH_BAND_41 lies at view offset 0x0C_1A44. -/
theorem test_register_index : (match findReg 0x0C1A44 with
    | some (r, i, w) => decide (r.fields.map (·.base) = [0x0C1004, 0x0C1004]) && decide (i = 41) && decide (w = 0)
    | none => false) = true := by decide +kernel

/-- Table 1.10. -/
theorem test_device_id : (match exec (.registerRead .tap 0 4 false) State.reset with
    | .next t => decide (t.out = [.regAnswer stOK 0x0F1D0480])
    | _ => false) = true := by decide +kernel

/-- FIPS 180-4's first example, and the check value of the IEEE 802.3 CRC. -/
theorem test_hashes : sha256 (ascii ['a', 'b', 'c']) =
    [0xba, 0x78, 0x16, 0xbf, 0x8f, 0x01, 0xcf, 0xea, 0x41, 0x41, 0x40, 0xde, 0x5d, 0xae, 0x22, 0x23, 0xb0, 0x03, 0x61, 0xa3, 0x96, 0x17, 0x7a, 0x9c, 0xb4, 0x10, 0xff, 0x61, 0xf2, 0x00, 0x15, 0xad] ∧
    crc32 (ascii ['1', '2', '3', '4', '5', '6', '7', '8', '9']) = 0xCBF43926 := by decide +kernel

/-- Table 6.2 and Table 6.3: FP16 rounds 1 + 3 × 2^-11 to even, FP8 saturates, and 1 + 1 is 2. -/
theorem test_number_formats : (fpEncode .fp16 (.fin false (2048 + 3) (-11))).1 = 0x3C02 ∧ (fpEncode .fp8 (.fin false 1000 0)).1 = 0x7E ∧ fp32Add 0x3F800000 0x3F800000 = 0x40000000 := by decide +kernel

end Sys2Proof.Tests
end

section
/-!
PROOFS. Chapter 0: the two words of 64-bit registers, their holding words and their shadows (R15 to R18).
-/
namespace Sys2Proof.Machine

/-! ### Accesses that reach their register, whatever its word -/

/-- An access that `reaches` lets in goes to the register found at the offset, and is answered with what its write says. -/
theorem State.busWrite_eq_regWrite (s : State) (src : RegSrc) (off v : Nat) {r : RegRow} {i word : Nat}
    (h : s.reaches src off = true) (hf : findReg off = some (r, i, word)) :
    s.busWrite src off 4 v = (s.regWrite src (s.regWho src) r i word (v % 2 ^ 32)).2.regAnswer
      (s.regWrite src (s.regWho src) r i word (v % 2 ^ 32)).1 0 := by
  simp only [State.reaches, hf, Bool.and_eq_true, decide_eq_true_eq, Bool.not_eq_true'] at h
  obtain ⟨⟨hgate, hdbg⟩, hshown⟩ := h
  simp [State.busWrite, State.viewWrite, hgate, hdbg, hf, hshown]

/-- An access that `readable` lets in goes to the register found at the offset, and is answered OK with what its read gives. -/
theorem State.busRead_eq_regRead (s : State) (src : RegSrc) (off : Nat) (ue : Bool) {r : RegRow} {i word : Nat}
    (h : s.readable src off = true) (hf : findReg off = some (r, i, word)) :
    s.busRead src off 4 ue = (s.regRead (s.regWho src) r i word ue).2.regAnswer stOK (s.regRead (s.regWho src) r i word ue).1 := by
  simp only [State.readable, hf, Bool.and_eq_true, decide_eq_true_eq] at h
  obtain ⟨hgate, hshown⟩ := h
  simp [State.busRead, State.viewRead, hgate, hf, hshown]

/-! ### The words of a 64-bit register -/

section
variable (s : State) (src : RegSrc) (w : RegWho) {r : RegRow} (i v : Nat) (h64 : r.words = 2)
include h64

/-- R15: the low word goes to the context's holding word, with the register's offset. -/
theorem State.regWrite_low :
    s.regWrite src w r i 0 v = (stOK, s.setHold w.key { s.hold w.key with word := some (r.offset i, v) }) := by
  simp [State.regWrite, h64]

/-- R15, R633: the high word commits with a holding word of its own register. -/
theorem State.regWrite_high_held {lo : Nat} (hw : (s.hold w.key).word = some (r.offset i, lo)) :
    s.regWrite src w r i 1 v =
      ((s.heal (r.offset i)).setHold w.key { s.hold w.key with word := none }).commitReg src w r i (v * 2 ^ 32 + lo) := by
  simp [State.regWrite, h64, hw, State.heal]

/-- R16: the high word commits with the register's current low word where the holding word is empty or another register's. -/
theorem State.regWrite_high_unheld (hw : (s.hold w.key).word.map Prod.fst ≠ some (r.offset i)) :
    s.regWrite src w r i 1 v = s.commitReg src w r i (v * 2 ^ 32 + s.stored r i % 2 ^ 32) := by
  cases hword : (s.hold w.key).word with
  | none => simp [State.regWrite, h64, hword, State.stored]
  | some p =>
    have hne : p.1 ≠ r.offset i := by simpa [hword] using hw
    simp [State.regWrite, h64, hword, hne, State.stored]

/-- R17: the low word is read live, and the live high word goes to the context's shadow. -/
theorem State.regRead_low :
    s.regRead w r i 0 false = (s.regValue w.view r i % 2 ^ 32,
      s.setHold w.key { s.hold w.key with shadow := some (r.offset i, s.regValue w.view r i / 2 ^ 32 % 2 ^ 32) }) := by
  simp [State.regRead, h64]

/-- R17: the high word is read from a shadow of its own register, which it releases. -/
theorem State.regRead_high_shadowed {hi : Nat} (hs : (s.hold w.key).shadow = some (r.offset i, hi)) :
    s.regRead w r i 1 false = (hi, s.setHold w.key { s.hold w.key with shadow := none }) := by
  simp [State.regRead, h64, hs]

/-- R17: the high word is read live, and changes nothing, where the shadow is empty or another register's. -/
theorem State.regRead_high_live (hs : (s.hold w.key).shadow.map Prod.fst ≠ some (r.offset i)) :
    s.regRead w r i 1 false = (s.regValue w.view r i / 2 ^ 32 % 2 ^ 32, s) := by
  cases hsh : (s.hold w.key).shadow with
  | none => simp [State.regRead, h64, hsh]
  | some p =>
    have hne : p.1 ≠ r.offset i := by simpa [hsh] using hs
    simp [State.regRead, h64, hsh, hne]

end

/-- Where the tag of a holding word or a shadow is `o`, the pair is `o` with its word. -/
theorem eq_some_of_tag {x : Option (Nat × Nat)} {o : Nat} (h : x.map Prod.fst = some o) : x = some (o, (x.map Prod.snd).getD 0) := by
  obtain ⟨⟨_, _⟩, rfl, rfl⟩ := Option.map_eq_some_iff.1 h
  rfl

/-! ### The statements -/

/-- Settles O2: a write that reaches the register is its `regWrite`, whose low word only fills the holding word and whose high word
commits with it where the tag is this register's. -/
theorem reg64WritesCommitOnTheHighWord : Obligations.Reg64WritesCommitOnTheHighWord := by
  unfold Obligations.Reg64WritesCommitOnTheHighWord
  refine ⟨fun src r i v s hf h64 hr => ?_, fun src r i v s hf h64 hr => ?_⟩
  · rw [exec_reg64LowWrite, execReg64LowWrite, State.busWrite_eq_regWrite _ _ _ _ hr hf, BitVec.toNat_mod_cancel, State.regWrite_low _ _ _ _ _ h64]
  · rw [exec_reg64HighWrite, execReg64HighWrite, State.busWrite_eq_regWrite _ _ _ _ hr hf, BitVec.toNat_mod_cancel]
    dsimp only
    split
    case isTrue htag => rw [State.regWrite_high_held _ _ _ _ _ h64 (eq_some_of_tag htag)]
    case isFalse htag => rw [State.regWrite_high_unheld _ _ _ _ _ h64 htag]

/-- Settles O3: a read that reaches the register is its `regRead`, whose low word fills the shadow and whose high word takes it
where the tag is this register's. -/
theorem reg64ReadsShadowTheHighWord : Obligations.Reg64ReadsShadowTheHighWord := by
  unfold Obligations.Reg64ReadsShadowTheHighWord
  refine ⟨fun src r i s hf h64 hr => ?_, fun src r i s hf h64 hr => ?_⟩
  · rw [exec_reg64LowRead, execReg64LowRead, State.busRead_eq_regRead _ _ _ _ hr hf, State.regRead_low _ _ _ h64]
  · rw [exec_reg64HighRead, execReg64HighRead, State.busRead_eq_regRead _ _ _ _ hr hf]
    dsimp only
    split
    case isTrue htag => rw [State.regRead_high_shadowed _ _ _ h64 (eq_some_of_tag htag)]
    case isFalse htag => rw [State.regRead_high_live _ _ _ h64 htag]

end Sys2Proof.Machine
end

section
/-!
PROOFS. Chapter 4: a request to a line that no cache holds, from its arrival to its answer, and the poison marks it meets (R141, R146 to R149, R167 to R169).
-/
namespace Sys2Proof.Machine

/-! ### Operations that reach the register counters and the coherence state alone -/

/-- Whether `v` differs from `s` in its register fields and its coherence state alone. -/
def State.OnlyCounts (s v : State) : Prop := v = { s with flds := v.flds, coh := v.coh }

section
variable {s v w : State}

theorem State.OnlyCounts.refl (s : State) : s.OnlyCounts s := rfl

theorem State.OnlyCounts.trans (h : s.OnlyCounts v) (h' : v.OnlyCounts w) : s.OnlyCounts w := by
  unfold State.OnlyCounts at *
  rw [h', h]

theorem State.OnlyCounts.poisoned_eq (h : s.OnlyCounts v) (a : Nat) : v.poisoned a = s.poisoned a := by
  rw [h]; rfl

/-- Sending an output last, the state reached differs from the first one in that output too. -/
theorem State.OnlyCounts.emit (h : s.OnlyCounts v) (hout : s.out = []) (o : Out) :
    v.emit o = { s with flds := v.flds, coh := v.coh, out := [o] } := by
  rw [h]; simp [State.emit, hout]

end

section
variable (s : State)

theorem State.setCoh_onlyCounts (c : CohSt) : s.OnlyCounts { s with coh := c } := rfl

theorem State.seamBytes_onlyCounts (src dst n : Nat) : s.OnlyCounts (s.seamBytes src dst n) := by
  unfold State.seamBytes
  split <;> rfl

theorem State.seamBytes_coh (src dst n : Nat) : (s.seamBytes src dst n).coh = s.coh := by
  unfold State.seamBytes
  split <;> rfl

theorem State.serveTicket_onlyCounts (h : Nat) (t : Option Nat) (l : Nat) : s.OnlyCounts (s.serveTicket h t l) := by
  cases t <;> rfl

theorem State.serveTicket_dirLine (h : Nat) (t : Option Nat) (l l' : Nat) : (s.serveTicket h t l).dirLine l' = s.dirLine l' := by
  cases t <;> rfl

theorem State.notePend_onlyCounts (r : HomeReq) : s.OnlyCounts (s.notePend r) := by
  unfold State.notePend
  split <;> rfl

theorem State.notePend_dirLine (r : HomeReq) (l : Nat) : (s.notePend r).dirLine l = s.dirLine l := by
  unfold State.notePend
  split <;> rfl

theorem State.setBusy_onlyCounts (l : Nat) (b : Option Busy) : s.OnlyCounts (s.setBusy l b) := rfl

theorem State.setDir_onlyCounts (l : Nat) (d : DirLine) : s.OnlyCounts (s.setDir l d) := rfl

theorem State.reserve_onlyCounts (h l : Nat) (entry : Bool) : s.OnlyCounts (s.reserve h l entry) := by
  unfold State.reserve
  split <;> rfl

/-- What follows an answer: the line's new directory entry, and its busy entry and the freed place (R147, R149). -/
theorem State.closed_onlyCounts (l : Nat) (d : DirLine) (b : Option Busy) (h : Nat) : s.OnlyCounts (((s.setDir l d).setBusy l b).reserve h l true) :=
  ((s.setDir_onlyCounts l d).trans (State.setBusy_onlyCounts _ _ _)).trans (State.reserve_onlyCounts _ _ _ _)

theorem State.poisoned_emit (o : Out) (a : Nat) : (s.emit o).poisoned a = s.poisoned a := rfl

/-- A message whose header the fabric does not lose is counted, and no more (R98, R120, R129). -/
theorem State.fabric_onlyCounts {f : FabEv} (hf : f.header ≠ 2) : s.OnlyCounts (s.fabric f) := by
  unfold State.fabric
  rw [if_neg hf]
  split <;> rfl

end

/-- A message whose header the fabric does not lose reaches its target. -/
theorem State.carried_of_header (s : State) {f : FabEv} (hf : f.header ≠ 2) (go : State → State) : s.carried f go = go (s.fabric f) :=
  if_neg hf

theorem State.start_fabric_out (s : State) {f : FabEv} (hf : f.header ≠ 2) : (s.start.fabric f).out = [] := by
  rw [s.start.fabric_onlyCounts hf]; rfl

/-! ### A home that takes a request at once -/

/-- A gate that lets a request in changes nothing: every branch but the last answers a status. -/
theorem State.gate_eq_of_fst_none {s : State} {t : Tag} {w : Bool} {a : Nat} (h : (s.gate t w a).1 = none) : s.gate t w a = (none, s) := by
  unfold State.gate at *
  dsimp only at *
  split_ifs at *
  rfl

/-- The gate does not look at the coherence state. -/
theorem State.gate_fst_setCoh (s : State) (c : CohSt) (t : Tag) (w : Bool) (a : Nat) : (({ s with coh := c } : State).gate t w a).1 = (s.gate t w a).1 := by
  simp only [State.gate, apply_ite Prod.fst]
  rfl

/-- What `homeReady` asks of the home itself: all but the order of the context's own accesses (R123). -/
structure State.HomeOpen (s : State) (t : Tag) (w : Bool) (a : Nat) : Prop where
  gate : (s.gate t w a).1 = none
  cacheable : (s.region a).cacheable = true
  idle : s.busyLine (lineOf a) = none
  room : s.busyCount (homeOf (s.region a)) < busyLimit (homeOf (s.region a))
  reserved : s.coh.reserved = []
  unserved : s.coh.unserved = []
  mayCache : s.mayCache t a = true
  awake : s.waitsWake t.unit (regionUnit (s.region a)) = none

theorem State.homeReady_iff (s : State) (t : Tag) (w : Bool) (a : Nat) : s.homeReady t w a = true ↔ s.HomeOpen t w a ∧ s.mustWait t true = false := by
  simp only [State.homeReady, Bool.and_eq_true, decide_eq_true_eq, Option.isNone_iff_eq_none, List.isEmpty_iff, Bool.not_eq_true']
  constructor
  · rintro ⟨⟨⟨⟨⟨⟨⟨⟨hgate, hcache⟩, hidle⟩, hroom⟩, hres⟩, huns⟩, hwait⟩, hmay⟩, hwake⟩
    exact ⟨⟨by rw [hgate], hcache, hidle, hroom, hres, huns, hmay, hwake⟩, hwait⟩
  · rintro ⟨⟨hgate, hcache, hidle, hroom, hres, huns, hmay, hwake⟩, hwait⟩
    exact ⟨⟨⟨⟨⟨⟨⟨⟨State.gate_eq_of_fst_none hgate, hcache⟩, hidle⟩, hroom⟩, hres⟩, huns⟩, hwait⟩, hmay⟩, hwake⟩

/-- Where a release need not wait, no access of the context waits (R123). -/
theorem State.mustWait_of_release {s : State} {t : Tag} (h : s.mustWait t true = false) (release : Bool) : s.mustWait t release = false := by
  simp only [State.mustWait, Bool.true_and, Bool.or_eq_false_iff] at *
  simp [h.1, h.2]

namespace State.HomeOpen
variable {s : State} {t : Tag} {w : Bool} {a : Nat}

/-- A home stays open under a change of the coherence state that keeps its busy lines and its tickets. -/
theorem setCoh (h : s.HomeOpen t w a) {c : CohSt} (hb : c.busy = s.coh.busy) (hr : c.reserved = s.coh.reserved) (hu : c.unserved = s.coh.unserved) :
    ({ s with coh := c } : State).HomeOpen t w a where
  gate := (s.gate_fst_setCoh c t w a).trans h.gate
  cacheable := h.cacheable
  idle := by
    have hidle := h.idle
    simp only [State.busyLine, hb] at hidle ⊢
    exact hidle
  room := by
    have hroom := h.room
    simp only [State.busyCount, hb] at hroom ⊢
    exact hroom
  reserved := hr.trans h.reserved
  unserved := hu.trans h.unserved
  mayCache := h.mayCache
  awake := h.awake

theorem notePend (h : s.HomeOpen t w a) (r : HomeReq) : (s.notePend r).HomeOpen t w a := by
  unfold State.notePend
  split
  · exact h.setCoh rfl rfl rfl
  · exact h

end State.HomeOpen

/-! ### The way of a request to an open home -/

section
variable {s : State} {r : HomeReq}

/-- No translation that keeps the line out of a cache covers the request's address (R138). -/
theorem State.uncachedBy_of_mayCache (h : s.mayCache r.tag r.addr = true) : s.uncachedBy r = false := by
  unfold State.uncachedBy
  split
  case h_2 => rfl
  case h_1 n _ =>
    by_cases hn : n.val < 16
    · have hx := List.all_eq_true.1 h n.val (List.mem_range.2 hn)
      rw [Bool.and_eq_false_iff, List.any_eq_false]
      exact .inr fun e he => by simpa only [Bool.not_eq_true, Bool.not_eq_true'] using List.all_eq_true.1 hx e he
    · simp [hn]

/-- An open home's target lets a well-shaped request in. -/
theorem State.issue_eq_letIn (h : s.HomeOpen r.tag r.kind.writes r.addr) (hshape : r.badShape = false) (tk : Option Nat) :
    s.issue r tk = s.letIn r tk := by
  have hremote : ∀ p, s.region r.addr ≠ .remote p := fun p hp => by simpa [hp, Region.cacheable] using h.cacheable
  unfold State.issue
  rw [if_neg (by simp [hshape])]
  split
  case h_1 p hp => exact absurd hp (hremote p)
  case h_2 => rw [h.awake]; dsimp only; rw [State.gate_eq_of_fst_none h.gate]

theorem State.letIn_eq_arrive (h : s.HomeOpen r.tag r.kind.writes r.addr) (tk : Option Nat) : s.letIn r tk = (s.notePend r).arrive r tk := by
  have hp := h.notePend r
  simp only [State.letIn, hp.cacheable, State.uncachedBy_of_mayCache hp.mayCache, if_true, Bool.false_eq_true, if_false]

/-- The state in which an open home begins to serve a request: its ticket is off the lists and its payload counted (R133, R149). -/
def State.taken (s : State) (r : HomeReq) (tk : Option Nat) : State :=
  (s.serveTicket (homeOf (s.region r.addr)) tk (lineOf r.addr)).seamBytes r.tag.unit (regionUnit (s.region r.addr)) r.kind.payload

theorem State.taken_onlyCounts (s : State) (r : HomeReq) (tk : Option Nat) : s.OnlyCounts (s.taken r tk) := by
  unfold State.taken
  exact (s.serveTicket_onlyCounts _ _ _).trans (State.seamBytes_onlyCounts _ _ _ _)

theorem State.taken_dirLine (s : State) (r : HomeReq) (tk : Option Nat) (l : Nat) : (s.taken r tk).dirLine l = s.dirLine l := by
  rw [State.dirLine, State.taken, State.seamBytes_coh]
  exact s.serveTicket_dirLine _ _ _ _

theorem State.arrive_eq_pump (h : s.HomeOpen r.tag r.kind.writes r.addr) (tk : Option Nat) :
    s.arrive r tk = State.pump pumpFuel (lineOf r.addr) ((s.taken r tk).serve r []) := by
  simp [State.arrive, State.taken, h.idle, h.room, h.reserved]

/-- The busy entry of a request that waits for nothing (R146). -/
def HomeReq.alone (r : HomeReq) : Busy := { cur := r, await := [], evict := [], waiters := [] }

/-- A line that no cache holds sends no snoops (Table 4.3). -/
theorem State.serve_unheld (hd : s.dirLine (lineOf r.addr) = {}) (hlost : r.lost = false) : s.serve r [] = s.setBusy (lineOf r.addr) (some r.alone) := by
  have hecc : ∀ v, r.ecc ≠ .directory v := fun v hv => by simp [HomeReq.lost, hv] at hlost
  have hbit : bit ({} : DirLine).vec (workAgent r.src) = false := by simp [bit]
  have hnone : ({} : DirLine).holders = [] := by decide
  have hsnoop : snoopTargets {} r.kind (workAgent r.src) = [] := by unfold snoopTargets; split <;> simp [hnone]
  unfold State.serve
  split
  case h_1 v hv => exact absurd hv (hecc v)
  case h_2 => simp [hd, hlost, hbit, hsnoop, HomeReq.alone]

/-- A request that waits for nothing is finished and its busy entry closed (R147). -/
theorem State.pump_alone (s : State) (r : HomeReq) :
    State.pump pumpFuel (lineOf r.addr) (s.setBusy (lineOf r.addr) (some r.alone)) =
      (((s.setBusy (lineOf r.addr) (some r.alone)).finish r).setBusy (lineOf r.addr) none).reserve
        (homeOf (((s.setBusy (lineOf r.addr) (some r.alone)).finish r).region r.addr)) (lineOf r.addr) true := by
  have hb : (s.setBusy (lineOf r.addr) (some r.alone)).busyLine (lineOf r.addr) = some r.alone := by simp [State.busyLine, State.setBusy]
  rw [pumpFuel, State.pump, hb]
  rfl

/-- A request that a ready home takes is issued at once; one that comes with a ticket is no longer held for its reissue (R123, R148). -/
theorem State.request_eq_issue (h : s.homeReady r.tag r.kind.writes r.addr = true) (tk : Option Nat) :
    ∃ u : State, s.OnlyCounts u ∧ u.HomeOpen r.tag r.kind.writes r.addr ∧ (∀ l, u.dirLine l = s.dirLine l) ∧ s.request r tk = u.issue r tk := by
  obtain ⟨hopen, hwait⟩ := (s.homeReady_iff _ _ _).1 h
  cases tk with
  | none => exact ⟨s, .refl s, hopen, fun _ => rfl, by simp [State.request, State.mustWait_of_release hwait]⟩
  | some t =>
    refine ⟨{ s with coh := { s.coh with retries := _ } }, ?_, ?_, ?_, rfl⟩
    · exact s.setCoh_onlyCounts _
    · exact hopen.setCoh rfl rfl rfl
    · exact fun _ => rfl

/-- A ready home of a line that no cache holds finishes a well-shaped request at once; before the answer only counters and the coherence state change, and
after it the busy entry closes. -/
theorem State.request_eq_finish (h : s.homeReady r.tag r.kind.writes r.addr = true) (hd : s.dirLine (lineOf r.addr) = {}) (hshape : r.badShape = false)
    (hlost : r.lost = false) (tk : Option Nat) :
    ∃ (v : State) (k : Nat), s.OnlyCounts v ∧ v.dirLine (lineOf r.addr) = {} ∧
      s.request r tk = ((v.finish r).setBusy (lineOf r.addr) none).reserve k (lineOf r.addr) true := by
  obtain ⟨u, hu, hopen, hdir, hreq⟩ := State.request_eq_issue h tk
  have hd' : ((u.notePend r).taken r tk).dirLine (lineOf r.addr) = {} := by rw [State.taken_dirLine, State.notePend_dirLine, hdir, hd]
  have honly : s.OnlyCounts ((u.notePend r).taken r tk) := hu.trans ((u.notePend_onlyCounts r).trans (State.taken_onlyCounts _ r tk))
  rw [hreq, State.issue_eq_letIn hopen hshape, State.letIn_eq_arrive hopen, State.arrive_eq_pump (hopen.notePend r), State.serve_unheld hd' hlost,
    State.pump_alone]
  exact ⟨_, _, honly.trans (State.setBusy_onlyCounts _ _ _), hd', rfl⟩

end

/-! ### Atomics -/

/-- The atomics of Table 4.7 with their codes. -/
def atomics (tag : Tag) (src : Work) (a : Addr) (x : AtomicArgs) (tk : Option Nat) : List (Nat × Instr) :=
  [(0, .atomicFetchAdd tag src a x tk), (1, .atomicSwap tag src a x tk), (2, .atomicCompareSwap tag src a x tk), (3, .atomicMinS tag src a x tk),
    (4, .atomicMaxS tag src a x tk), (5, .atomicMinU tag src a x tk), (6, .atomicMaxU tag src a x tk)]

/-- The request that an atomic makes (R153). -/
def atomicReq (op : Nat) (tag : Tag) (src : Work) (a : Addr) (x : AtomicArgs) : HomeReq :=
  { kind := .atomic op, tag := tag, src := src, addr := a, args := x, ecc := x.ecc }

/-- Every atomic is its request, carried by the fabric. -/
theorem exec_atomics {tag : Tag} {src : Work} {a : Addr} {x : AtomicArgs} {tk : Option Nat} {op : Nat} {i : Instr}
    (h : (op, i) ∈ atomics tag src a x tk) (hf : x.fab.header ≠ 2) (s : State) :
    exec i s = .next ((s.start.fabric x.fab).request (atomicReq op tag src a x) tk) := by
  have hat : exec i s = .next (s.start.atomicAt op tag src a x tk) := by
    simp only [atomics, List.mem_cons, Prod.mk.injEq, List.not_mem_nil, or_false] at h
    obtain ⟨rfl, rfl⟩ | ⟨rfl, rfl⟩ | ⟨rfl, rfl⟩ | ⟨rfl, rfl⟩ | ⟨rfl, rfl⟩ | ⟨rfl, rfl⟩ | ⟨rfl, rfl⟩ := h <;> rfl
  rw [hat, State.atomicAt, State.carried_of_header _ hf]
  rfl

/-- R169: an atomic of this package on a poisoned word is answered POISONED, and the line's directory entry is cleared. -/
theorem State.finish_atomic_poisoned {s : State} {r : HomeReq} {op : Nat} (hk : r.kind = .atomic op) (hl : r.link = none) (he : r.ecc = .clean)
    (hp : s.poisoned r.addr = true) : s.finish r = (s.emit (.data r.src r.addr stPOISONED [] 0 .none)).setDir (lineOf r.addr) {} := by
  simp [State.finish, hk, State.once, hl, he, State.meetEcc, State.performAtomic, hp, State.noteOnce, State.answerData]

/-! ### WriteLines -/

/-- The request that a WriteLine makes (R141). -/
def writeLineReq (tag : Tag) (src : Work) (a : Addr) (st : Store) (e : Ecc) : HomeReq :=
  { kind := .writeLine, tag := tag, src := src, addr := a, store := st, ecc := e }

theorem exec_writeLine_carried (tag : Tag) (src : Work) (a : Addr) (st : Store) (tk : Option Nat) (e : Ecc) {fab : FabEv} (hf : fab.header ≠ 2)
    (s : State) : exec (.writeLine tag src a st tk e fab) s = .next ((s.start.fabric fab).request (writeLineReq tag src a st e) tk) := by
  rw [exec_writeLine, execWriteLine, State.carried_of_header _ hf]
  rfl

/-- A WriteLine of this package writes its line, whatever its read of a partly written line met, and is answered OK. -/
theorem State.finish_writeLine (s : State) {r : HomeReq} (hk : r.kind = .writeLine) (hl : r.link = none) :
    ∃ u : State, s.finish r =
      ((u.wrLine r.addr r.store.mask.toNat r.store.bytes r.store.poison.toNat).emit (.ack r.src r.addr stOK [])).setDir (lineOf r.addr) {} := by
  simp only [State.finish, hk, State.once, hl, State.performWrite, State.noteOnce, State.answerAck]
  exact ⟨_, rfl⟩

/-! ### Poison marks of a masked write (R168, R169) -/

section
variable {s : State} {a mask poison k : Nat}

/-- The words of an aligned line have keys of their own. -/
theorem wordKey_line_inj (ha : a % 64 = 0) {i : Nat} (hi : i < 8) (hk : k < 8) (h : wordKey (a + 8 * i) = wordKey (a + 8 * k)) : i = k := by
  simp only [wordKey, localOff] at h
  omega

theorem State.poisoned_setPoison_ne {b c : Nat} (h : wordKey c ≠ wordKey b) : (s.setPoison b).poisoned c = s.poisoned c := by
  simp [State.poisoned, NatSet.has_add, h]

theorem State.poisoned_clrPoison_ne {b c : Nat} (h : wordKey c ≠ wordKey b) : (s.clrPoison b).poisoned c = s.poisoned c := by
  simp [State.poisoned, NatSet.has_del, h]

/-- The mark of one word leaves the marks of the line's other words. -/
theorem State.markWord_poisoned_ne (ha : a % 64 = 0) {i : Nat} (hi : i < 8) (hk : k < 8) (h : i ≠ k) :
    (s.markWord a mask poison i).poisoned (a + 8 * k) = s.poisoned (a + 8 * k) := by
  have hkey : wordKey (a + 8 * k) ≠ wordKey (a + 8 * i) := fun e => h (wordKey_line_inj ha hi hk e.symm)
  unfold State.markWord
  dsimp only
  split
  · exact State.poisoned_setPoison_ne hkey
  · split
    · exact State.poisoned_clrPoison_ne hkey
    · rfl

/-- A whole word written without poison loses its mark. -/
theorem State.markWord_poisoned_whole (hwhole : mask / 2 ^ (8 * k) % 256 = 255) (hbit : bit poison k = false) :
    (s.markWord a mask poison k).poisoned (a + 8 * k) = false := by
  simp [State.markWord, hwhole, hbit, State.poisoned]

/-- Once the marks of a list of words that names word `k` are made, word `k` is unmarked. -/
theorem State.foldl_markWord_poisoned (ha : a % 64 = 0) (hk : k < 8) (hwhole : mask / 2 ^ (8 * k) % 256 = 255) (hbit : bit poison k = false)
    (is : List Nat) (s : State) (his : ∀ i ∈ is, i < 8) (h : k ∈ is ∨ s.poisoned (a + 8 * k) = false) :
    (is.foldl (fun s i => s.markWord a mask poison i) s).poisoned (a + 8 * k) = false := by
  induction is generalizing s with
  | nil => simpa using h
  | cons i is ih =>
    refine ih _ (fun j hj => his j (List.mem_cons_of_mem _ hj)) ?_
    by_cases hik : i = k
    · subst hik
      exact .inr (State.markWord_poisoned_whole hwhole hbit)
    · rw [State.markWord_poisoned_ne ha (his i List.mem_cons_self) hk hik]
      exact h.imp_left fun hm => (List.mem_cons.1 hm).resolve_left (Ne.symm hik)

/-- R169: a write of a line that covers a whole word, without poison of its own for it, leaves the word unmarked. -/
theorem State.wrLine_poisoned_whole (s : State) (ha : a % 64 = 0) (hk : k < 8) (bytes : List Byte) (hwhole : mask / 2 ^ (8 * k) % 256 = 255)
    (hbit : bit poison k = false) : (s.wrLine a mask bytes poison).poisoned (a + 8 * k) = false :=
  State.foldl_markWord_poisoned ha hk hwhole hbit _ _ (fun _ => List.mem_range.1) (.inl (List.mem_range.2 hk))

end

/-! ### The statement -/

/-- Settles O15: a ready home finishes the request at once; the finish of an atomic on a poisoned word only answers, and the finish of a WriteLine leaves
each whole word with the mark the writer gives it. -/
theorem poisonedWordsStopAtomicsAndAreClearedByWholeWrites : Obligations.PoisonedWordsStopAtomicsAndAreClearedByWholeWrites := by
  unfold Obligations.PoisonedWordsStopAtomicsAndAreClearedByWholeWrites
  refine ⟨fun tag src a x tk i s hf hi hcode hecc halign hready hdir hpoison => ?_, fun tag src a st tk e fab k s ha hf he hready hdir hwhole hbit => ?_⟩
  · obtain ⟨⟨op, _⟩, hop, rfl⟩ := List.mem_map.1 (show i ∈ (atomics tag src a x tk).map Prod.snd from hi)
    have hshape : (atomicReq op tag src a x).badShape = false := by
      simp only [HomeReq.badShape, atomicReq, hcode, Bool.false_or]
      exact decide_eq_false (not_not.2 halign)
    have hlost : (atomicReq op tag src a x).lost = false := by simp [HomeReq.lost, atomicReq, hecc]
    obtain ⟨v, h, hv, -, hreq⟩ := State.request_eq_finish (r := atomicReq op tag src a x) hready hdir hshape hlost tk
    rw [State.finish_atomic_poisoned rfl rfl hecc ((hv.poisoned_eq a).trans hpoison), hv.emit (s.start_fabric_out hf)] at hreq
    refine ⟨_, exec_atomics hop hf s, ?_⟩
    rw [hreq]
    exact State.closed_onlyCounts _ _ _ _ _
  · have hshape : (writeLineReq tag src a st e).badShape = false := by simp [HomeReq.badShape, writeLineReq, ha]
    have hlost : (writeLineReq tag src a st e).lost = false := by
      cases e with
      | directory v => exact absurd rfl (he v)
      | _ => rfl
    obtain ⟨v, h, -, -, hreq⟩ := State.request_eq_finish (r := writeLineReq tag src a st e) hready hdir hshape hlost tk
    obtain ⟨u, hfin⟩ := v.finish_writeLine (r := writeLineReq tag src a st e) rfl rfl
    refine ⟨_, exec_writeLine_carried tag src a st tk e hf s, ?_⟩
    rw [hreq, hfin, (State.closed_onlyCounts _ _ _ _ _).poisoned_eq, State.poisoned_emit]
    exact u.wrLine_poisoned_whole ha k.isLt st.bytes hwhole hbit

end Sys2Proof.Machine
end

section
/-!
PROOFS. Chapter 5: a write of the head of a fault queue (R212, R215).
-/
namespace Sys2Proof.Machine

/-! ### The head of a fault queue -/

/-- A commit to XLU_FQ_HEAD is its own operation, and is answered OK whether or not HEAD moves. -/
theorem State.commitReg_fqHead (s : State) (src : RegSrc) (w : RegWho) (r : RegRow) (i v : Nat) (hb : r.base = 0x060108) :
    s.commitReg src w r i v = (stOK, s.fqHead i v) := by
  simp [State.commitReg, hb]

/-- Every XLU_FQ_HEAD lies in block 0x06 (Table 1.8). -/
theorem blockOf_fqHead (q : Fin 8) : blockOf (0x060108 + q.val * 0x80) = 0x06 := by
  revert q
  decide

section
variable (s : State) (v : Nat)

/-- R212: HEAD moves over entries that are written, PENDING follows, and a Cox that runs walks the held requests again. -/
theorem State.fqHead_moves (q : Nat)
    (h : (v % 65536 + 65536 - s.get Fld.XLU_FQ_HEAD_HEAD q) % 65536 ≤
      (s.get Fld.XLU_FQ_TAIL_TAIL q + 65536 - s.get Fld.XLU_FQ_HEAD_HEAD q) % 65536) :
    s.fqHead q v = if s.err.coxHalted then (s.put Fld.XLU_FQ_HEAD_HEAD q v).showPending q
      else ((s.put Fld.XLU_FQ_HEAD_HEAD q v).showPending q).rewalkHeld q :=
  if_neg (Nat.not_lt.2 h)

/-- R215: HEAD stays where the write would move it past TAIL, or backwards; one record says so. -/
theorem State.fqHead_refuses (q : Fin 8)
    (h : (s.get Fld.XLU_FQ_TAIL_TAIL q + 65536 - s.get Fld.XLU_FQ_HEAD_HEAD q) % 65536 <
      (v % 65536 + 65536 - s.get Fld.XLU_FQ_HEAD_HEAD q) % 65536) :
    s.fqHead q v = s.record { cls := 0, status := stDENIED, part := q, block := 0x06, infoKind := 3, info := 0x060108 + q.val * 0x80 } := by
  have hrefused : s.fqHead q v = s.refuseReg q (0x060108 + q.val * 0x80) none := if_pos h
  rw [hrefused, State.refuseReg, blockOf_fqHead]

end

/-- XLU_FQ_HEAD_WRITE that reaches its register works on the state it has healed. -/
theorem exec_xluFqHeadWrite_of_reaches {s : State} {src : RegSrc} {q : Fin 8} (h : s.start.reaches src (0x060108 + q.val * 0x80) = true) (v : Word) :
    exec (.xluFqHeadWrite src q v) s =
      .next (((s.start.heal (0x060108 + q.val * 0x80)).fqHead q v.toNat).regAnswer stOK 0) := by
  rw [exec_xluFqHeadWrite, execXluFqHeadWrite, State.busWrite_reaches _ _ _ _ _ _ h (find_XLU_FQ_HEAD q) rfl rfl,
    State.commitReg_fqHead _ _ _ _ _ _ rfl, BitVec.toNat_mod_cancel]

/-! ### The statement -/

/-- Settles O7: the write comes down to `fqHead` of the healed state, whose two branches are the two cases. -/
theorem faultQueueHeadMovesForwardOnly : Obligations.FaultQueueHeadMovesForwardOnly := by
  unfold Obligations.FaultQueueHeadMovesForwardOnly
  intro src q v s hreach u head ahead room moved
  rw [exec_xluFqHeadWrite_of_reaches hreach]
  refine ⟨fun hmoves => ?_, fun hpast => ?_⟩
  · rw [u.fqHead_moves v.toNat q hmoves]
    rfl
  · rw [u.fqHead_refuses v.toNat q hpast]

end Sys2Proof.Machine
end

section
/-!
PROOFS. Chapter 6: a START or ABORT of a Slide engine that its owner did not send, and a START of an active engine (R274, R591).
-/
namespace Sys2Proof.Machine

/-! ### The words of START and ABORT -/

/-- SLD_CTRL of a START: CTX and bit 0, without ABORT. -/
theorem bits_start_word (c : Nat) : bits (c % 256 * 256 + 1) 1 0 ≠ 0 := by
  simp only [bits]
  omega

theorem bit_abort_start_word (c : Nat) : bit (c % 256 * 256 + 1) 1 = false := by
  simp only [bit, decide_eq_false_iff_not]
  omega

theorem start_word_lt (c : Nat) : c % 256 * 256 + 1 < 2 ^ 32 := by
  omega

/-! ### Who may command an engine -/

section
variable (s : State)

/-- Only SYS_0 and SYS_1 are engines no partition commands. -/
theorem physEngine_iff (e : Fin 72) : physEngine e = true ↔ e = 64 ∨ e = 65 := by
  simp [physEngine, Fin.ext_iff]

theorem State.slideAllowed_eq_false_iff (e : Fin 72) (p : Nat) :
    s.slideAllowed e p = false ↔ e = 64 ∨ e = 65 ∨ s.engineOwner e ≠ some p := by
  rw [← or_assoc, ← physEngine_iff]
  cases hphys : physEngine e <;> simp [State.slideAllowed, hphys]

/-! ### A write of SLD_CTRL from a register view -/

/-- Only a task writes as a task of its own Scull. -/
theorem State.writerTask_of_view {src : RegSrc} (hview : ∀ n, src ≠ .task n) : s.writerTask src = none := by
  cases src with
  | task n => exact absurd rfl (hview n)
  | bar0 | bar2 | fabric | tap => rfl

/-- R274: a START or ABORT of an engine that is not the writing partition's is DENIED. -/
theorem State.sldCtrl_denied {e p v : Nat} (hcmd : bits v 1 0 ≠ 0) (hforeign : s.slideAllowed e p = false) :
    s.sldCtrl e p v none = (stDENIED, s) := by
  simp [State.sldCtrl, hcmd, hforeign]

/-- R274: a START of an active engine of the writing partition is BUSY. -/
theorem State.sldCtrl_busy {e p v : Nat} (hcmd : bits v 1 0 ≠ 0) (hstart : bit v 1 = false) (hown : s.slideAllowed e p = true)
    (hactive : (s.slide e).st = 1 ∨ (s.slide e).st = 2 ∨ (s.slide e).st = 3) :
    s.sldCtrl e p v none = (stBUSY, s) := by
  simp [State.sldCtrl, hcmd, hstart, hown, or_assoc, hactive]

/-- A commit to SLD_CTRL is its own operation, with an answer of its own. -/
theorem State.commitReg_sldCtrl (src : RegSrc) (w : RegWho) (r : RegRow) (i v : Nat) (hb : r.base = 0x0A0008) :
    s.commitReg src w r i v = s.sldCtrl i w.part v (s.writerTask src) := by
  simp [State.commitReg, hb]

/-- A write from a register view that SLD_CTRL answers `st` and that changes nothing of the healed state. -/
theorem State.busWrite_sldCtrl_of_unchanged {src : RegSrc} {e : Fin 72} {v st : Nat} (hv : v < 2 ^ 32) (hview : ∀ n, src ≠ .task n)
    (hreach : s.reaches src (0x0A0008 + e.val * 0x80) = true)
    (hctrl : (s.heal (0x0A0008 + e.val * 0x80)).sldCtrl e (s.regWho src).part v none =
      (st, s.heal (0x0A0008 + e.val * 0x80))) :
    s.busWrite src (0x0A0008 + e.val * 0x80) 4 v = (s.heal (0x0A0008 + e.val * 0x80)).regAnswer st 0 := by
  rw [State.busWrite_reaches _ _ _ _ _ _ hreach (find_SLD_CTRL e) rfl rfl, State.commitReg_sldCtrl _ _ _ _ _ _ rfl,
    State.writerTask_of_view _ hview, Nat.mod_eq_of_lt hv, hctrl]

/-! ### A write of SLD_CTRL that the view hides -/

/-- No engine's SLD_CTRL lies in the DBG block. -/
theorem inDbg_SLD_CTRL (e : Fin 72) : inDbg (0x0A0008 + e.val * 0x80) = false := by
  simp only [inDbg, Bool.and_eq_false_iff, decide_eq_false_iff_not]
  omega

/-- R591 with R274: a hidden START or ABORT is counted and recorded as every hidden write, and answered DENIED. -/
theorem State.busWrite_sldCtrl_hidden {src : RegSrc} {e : Fin 72} {v p : Nat} (hcmd : bits v 1 0 ≠ 0)
    (hgate : s.regGate src true (0x0A0008 + e.val * 0x80) 4 = (none, s)) (hpart : (s.regWho src).view = some p)
    (hhidden : s.regOwned p ⟨"SLD_CTRL", 0x0A0008, 0x80, 72, 1, false, [Fld.SLD_CTRL_CTX, Fld.SLD_CTRL_ABORT, Fld.SLD_CTRL_START]⟩ e = false) :
    s.busWrite src (0x0A0008 + e.val * 0x80) 4 v = (s.hiddenWrite p (0x0A0008 + e.val * 0x80)).regAnswer stDENIED 0 := by
  simp [State.busWrite, State.viewWrite, hgate, inDbg_SLD_CTRL, hpart, find_SLD_CTRL, State.regShown, hhidden, hcmd]

end

/-! ### The statement -/

/-- Settles O28: a write that reaches SLD_CTRL meets the owner's check before any effect, then the active engine; one that the view hides
ends at the view. -/
theorem slideEnginesObeyTheirOwner : Obligations.SlideEnginesObeyTheirOwner := by
  unfold Obligations.SlideEnginesObeyTheirOwner
  refine ⟨fun src e c s hview hreach => ⟨fun hforeign => ?_, fun h64 h65 hown hactive => ?_⟩,
    fun src e c p s hgate hpart hhidden => ?_⟩
  · have hdenied := (s.slideAllowed_eq_false_iff e _).2 hforeign
    rw [exec_sldStart, execSldStart, exec_sldAbort, execSldAbort,
      State.busWrite_sldCtrl_of_unchanged _ (start_word_lt c) hview hreach (State.sldCtrl_denied _ (bits_start_word c) hdenied),
      State.busWrite_sldCtrl_of_unchanged _ (by decide) hview hreach (State.sldCtrl_denied _ (by decide) hdenied)]
    exact ⟨rfl, rfl⟩
  · have hallowed : s.slideAllowed e (s.start.regWho src).part = true := by
      simpa [h64, h65, hown] using s.slideAllowed_eq_false_iff e (s.start.regWho src).part
    rw [exec_sldStart, execSldStart, State.busWrite_sldCtrl_of_unchanged _ (start_word_lt c) hview hreach
      (State.sldCtrl_busy _ (bits_start_word c) (bit_abort_start_word c) hallowed hactive)]
  · rw [exec_sldStart, execSldStart, exec_sldAbort, execSldAbort, State.busWrite_sldCtrl_hidden _ (bits_start_word c) hgate hpart hhidden,
      State.busWrite_sldCtrl_hidden _ (by decide) hgate hpart hhidden]
    exact ⟨rfl, rfl⟩

end Sys2Proof.Machine
end

section
/-!
PROOFS. Chapter 7: writes of a lane's band and reuse configuration, of a Scull's CATCH_CTRL (R289, R302, R303, R321), and of PWR_REQ (R310, R318).
-/
namespace Sys2Proof.Machine

/-! ### The band and the reuse configuration of a lane -/

/-- Every CATCH_BAND lies in block 0x0C (Table 1.8). -/
theorem blockOf_catchBand (l : Fin 64) : blockOf (0x0C1004 + l.val * 0x40) = 0x0C := by
  revert l
  decide

/-- Every CATCH_REUSE_CFG lies in block 0x0C (Table 1.8). -/
theorem blockOf_catchReuse (l : Fin 64) : blockOf (0x0C1000 + l.val * 0x40) = 0x0C := by
  revert l
  decide

section
variable (s : State) (src : RegSrc) (w : RegWho) (r : RegRow) (i v : Nat)

theorem State.commitReg_catchBand (hb : r.base = 0x0C1004) : s.commitReg src w r i v = (stOK, s.catchBand i v) := by
  simp [State.commitReg, hb]

theorem State.commitReg_catchReuse (hb : r.base = 0x0C1000) : s.commitReg src w r i v = (stOK, s.catchReuse i v) := by
  simp [State.commitReg, hb]

/-- CATCH_CTRL has no effect of its own: a commit writes its fields. -/
theorem State.commitReg_catchCtrl (hb : r.base = 0x0C0100) : s.commitReg src w r i v = (stOK, s.plainWrite r i v) := by
  simp [State.commitReg, hb]

end

section
variable {s : State} {v : Nat}

/-- R302, R303: a band of a camera in order and within the descriptor's limits is taken, and marks the next frame. -/
theorem State.catchBand_takes {l : Nat} (hcam : s.laneKind l = 1) (hord : bits v 15 0 ≤ bits v 31 16)
    (hfloor : s.laneField l 0x84 2 ≤ bits v 15 0) (hceil : bits v 31 16 ≤ s.laneField l 0x86 2) :
    s.catchBand l v = ((s.put Fld.CATCH_BAND_T_MIN l (bits v 15 0)).put Fld.CATCH_BAND_T_MAX l (bits v 31 16)).markAll l := by
  refine if_neg ?_
  simp only [not_or, Decidable.not_not, Nat.not_lt]
  exact ⟨hcam, hord, hfloor, hceil⟩

/-- R303: any other band, and any band of a lane that is no camera, only makes one record. -/
theorem State.catchBand_refuses {l : Fin 64} (h : s.laneKind l ≠ 1 ∨ bits v 31 16 < bits v 15 0 ∨ bits v 15 0 < s.laneField l 0x84 2 ∨
    s.laneField l 0x86 2 < bits v 31 16) :
    s.catchBand l v = s.record { cls := 0, status := stDENIED, part := s.lanePart l, block := 0x0C, infoKind := 3, info := 0x0C1004 + l.val * 0x40,
                                 lane := some l.val } := by
  have hrefused : s.catchBand l v = s.refuseReg (s.lanePart l) (0x0C1004 + l.val * 0x40) (some l) := if_pos h
  rw [hrefused, State.refuseReg, blockOf_catchBand]

/-- R302: MODE and an AGE_MAX in its range are taken of a camera, and mark the next frame. -/
theorem State.catchReuse_takes {l : Nat} (hcam : s.laneKind l = 1) (hage : bits v 15 8 ≠ 0) :
    s.catchReuse l v = ((s.put Fld.CATCH_REUSE_CFG_MODE l v).markAll l).put Fld.CATCH_REUSE_CFG_AGE_MAX l (bits v 15 8) := by
  simp [State.catchReuse, hcam, hage]

/-- R321: AGE_MAX 0 makes one record, and MODE is taken all the same. -/
theorem State.catchReuse_refuses_age {l : Fin 64} (hcam : s.laneKind l = 1) (hage : bits v 15 8 = 0) :
    s.catchReuse l v = ((s.put Fld.CATCH_REUSE_CFG_MODE l v).markAll l).record
      { cls := 0, status := stDENIED, part := s.lanePart l, block := 0x0C, infoKind := 3, info := 0x0C1000 + l.val * 0x40, lane := some l.val } := by
  have hpart : ((s.put Fld.CATCH_REUSE_CFG_MODE l v).markAll l).lanePart l = s.lanePart l := rfl
  simp [State.catchReuse, hcam, hage, State.refuseReg, blockOf_catchReuse, hpart]

/-- R303: a write of a lane that is no camera only makes one record. -/
theorem State.catchReuse_refuses_lane {l : Fin 64} (hno : s.laneKind l ≠ 1) :
    s.catchReuse l v = s.record { cls := 0, status := stDENIED, part := s.lanePart l, block := 0x0C, infoKind := 3, info := 0x0C1000 + l.val * 0x40,
                                  lane := some l.val } := by
  simp [State.catchReuse, hno, State.refuseReg, blockOf_catchReuse]

end

section
variable {s : State} {src : RegSrc} (v : Word)

/-- CATCH_BAND_WRITE that reaches its register works on the state it has healed. -/
theorem exec_catchBandWrite_of_reaches {l : Fin 64} (h : s.start.reaches src (0x0C1004 + l.val * 0x40) = true) :
    exec (.catchBandWrite src l v) s = .next (((s.start.heal (0x0C1004 + l.val * 0x40)).catchBand l v.toNat).regAnswer stOK 0) := by
  rw [exec_catchBandWrite, execCatchBandWrite, State.busWrite_reaches _ _ _ _ _ _ h (find_CATCH_BAND l) rfl rfl,
    State.commitReg_catchBand _ _ _ _ _ _ rfl, BitVec.toNat_mod_cancel]

/-- CATCH_REUSE_CFG_WRITE that reaches its register works on the state it has healed. -/
theorem exec_catchReuseCfgWrite_of_reaches {l : Fin 64} (h : s.start.reaches src (0x0C1000 + l.val * 0x40) = true) :
    exec (.catchReuseCfgWrite src l v) s = .next (((s.start.heal (0x0C1000 + l.val * 0x40)).catchReuse l v.toNat).regAnswer stOK 0) := by
  rw [exec_catchReuseCfgWrite, execCatchReuseCfgWrite, State.busWrite_reaches _ _ _ _ _ _ h (find_CATCH_REUSE_CFG l) rfl rfl,
    State.commitReg_catchReuse _ _ _ _ _ _ rfl, BitVec.toNat_mod_cancel]

/-- CATCH_AGGR_MAX_WRITE that reaches its register writes the fields of CATCH_CTRL. -/
theorem exec_catchAggrMaxWrite_of_reaches {n : Fin 16} (h : s.start.reaches src (0x0C0100 + n.val * 0x20) = true) :
    exec (.catchAggrMaxWrite src n v) s = .next (([Fld.CATCH_CTRL_ESC_LOCK, Fld.CATCH_CTRL_AGGR_MAX].foldl (State.writeField n v.toNat)
      (s.start.heal (0x0C0100 + n.val * 0x20))).regAnswer stOK 0) := by
  rw [exec_catchAggrMaxWrite, execCatchAggrMaxWrite, State.busWrite_reaches _ _ _ _ _ _ h (find_CATCH_CTRL n) rfl rfl,
    State.commitReg_catchCtrl _ _ _ _ _ _ rfl, BitVec.toNat_mod_cancel, State.plainWrite]

end

/-! ### Power requests -/

section
variable {s : State} {d : Nat}

/-- R318: there is no domain above 71 to switch. -/
theorem State.domBarred_of_gt (hd : 71 < d) : s.domBarred d = true := by
  simp [State.domBarred, hd]

theorem State.reqAuto_of_barred (h : s.domBarred d = true) : s.reqAuto d = s.reqDone d stDENIED := if_pos h

theorem State.reqOn_of_barred (h : s.domBarred d = true) : s.reqOn d = s.reqDone d stDENIED := if_pos (.inl h)

theorem State.reqOff_of_barred (h : s.domBarred d = true) (force : Bool) : s.reqOff d force = s.reqDone d stDENIED := if_pos (.inl h)

/-- R318: while a request is pending, another only shows BUSY with its domain. -/
theorem State.pwrReq_pending (h : s.flag Fld.PWR_REQ_STATUS_PENDING 0 = true) (v : Nat) :
    s.pwrReq v = (s.put Fld.PWR_REQ_STATUS_STATUS 0 stBUSY).put Fld.PWR_REQ_STATUS_DOMAIN 0 (bits v 7 0) := if_pos h

/-- R310, R318: with none pending, each of the four actions of a barred domain is DENIED. -/
theorem State.pwrReq_of_barred (hfree : s.flag Fld.PWR_REQ_STATUS_PENDING 0 = false) {v : Nat} (haction : bits v 10 8 < 4)
    (hbarred : s.domBarred (bits v 7 0) = true) : s.pwrReq v = s.reqDone (bits v 7 0) stDENIED := by
  simp only [State.pwrReq, hfree, Bool.false_eq_true, if_false]
  split
  · exact State.reqAuto_of_barred hbarred
  · exact State.reqOn_of_barred hbarred
  · exact State.reqOff_of_barred hbarred false
  · exact State.reqOff_of_barred hbarred true
  case h_5 h0 h1 h2 h3 =>
    simp only [imp_false] at h0 h1 h2 h3
    omega

end

/-- A commit to PWR_REQ makes the request, and the mailboxes take what waits for a free Cox. -/
theorem State.commitReg_pwrReq (s : State) (src : RegSrc) (w : RegWho) (r : RegRow) (i v : Nat) (hb : r.base = 0x020010) :
    s.commitReg src w r i v = (stOK, (s.pwrReq v).mbAll) := by
  simp [State.commitReg, hb]

/-- The word of PWR_REQ that asks action `a` of domain `d` (R317). -/
def pwrReqWord (a : Fin 4) (d : BitVec 8) : Nat := a.val * 256 + d.toNat

theorem bits_domain_pwrReqWord (a : Fin 4) (d : BitVec 8) : bits (pwrReqWord a d) 7 0 = d.toNat := by
  simp only [bits, pwrReqWord]
  omega

theorem bits_action_pwrReqWord (a : Fin 4) (d : BitVec 8) : bits (pwrReqWord a d) 10 8 = a.val := by
  simp only [bits, pwrReqWord]
  omega

theorem pwrReqWord_lt (a : Fin 4) (d : BitVec 8) : pwrReqWord a d < 2 ^ 32 := by
  simp only [pwrReqWord]
  omega

/-- Each of the four commands writes PWR_REQ with its action and domain. -/
theorem exec_pwrReq_eq_busWrite {src : RegSrc} {d : BitVec 8} {i : Instr}
    (hi : i ∈ [Instr.pwrReqAuto src d, Instr.pwrReqOn src d, Instr.pwrReqOff src d, Instr.pwrReqForceOff src d]) (s : State) :
    ∃ a : Fin 4, exec i s = .next (s.start.busWrite src 0x020010 4 (pwrReqWord a d)) := by
  simp only [List.mem_cons, List.not_mem_nil, or_false] at hi
  obtain rfl | rfl | rfl | rfl := hi
  · exact ⟨0, by simp [exec_pwrReqAuto, execPwrReqAuto, pwrReqWord]⟩
  · exact ⟨1, rfl⟩
  · exact ⟨2, rfl⟩
  · exact ⟨3, rfl⟩

/-- Each of the four commands that reaches PWR_REQ makes its request of the state it has healed. -/
theorem exec_pwrReq_of_reaches {s : State} {src : RegSrc} {d : BitVec 8} {i : Instr}
    (hi : i ∈ [Instr.pwrReqAuto src d, Instr.pwrReqOn src d, Instr.pwrReqOff src d, Instr.pwrReqForceOff src d])
    (h : s.start.reaches src 0x020010 = true) :
    ∃ a : Fin 4, exec i s = .next (((s.start.heal 0x020010).pwrReq (pwrReqWord a d)).mbAll.regAnswer stOK 0) := by
  obtain ⟨a, ha⟩ := exec_pwrReq_eq_busWrite hi s
  refine ⟨a, ?_⟩
  rw [ha, State.busWrite_reaches _ _ _ _ _ _ h find_PWR_REQ rfl rfl, State.commitReg_pwrReq _ _ _ _ _ _ rfl,
    Nat.mod_eq_of_lt (pwrReqWord_lt a d)]

/-! ### The statements -/

/-- Settles O30: a write that reaches its register comes down to `catchBand`, `catchReuse` or the fields of CATCH_CTRL on the healed state, which
has the lane's kind, limits and partition of the state before. -/
theorem bandsAreKeptWithinTheirLimits : Obligations.BandsAreKeptWithinTheirLimits := by
  unfold Obligations.BandsAreKeptWithinTheirLimits
  refine ⟨?_, ?_, fun src n v s hreach => exec_catchAggrMaxWrite_of_reaches v hreach⟩
  · intro src l v s hreach u lo hi
    rw [exec_catchBandWrite_of_reaches v hreach]
    refine ⟨fun hcam hord hfloor hceil => ?_, fun hbad => ?_⟩
    · rw [State.catchBand_takes (s := u) hcam hord hfloor hceil]
    · rw [State.catchBand_refuses (s := u) hbad]
      rfl
  · intro src l v s hreach u m denied
    rw [exec_catchReuseCfgWrite_of_reaches v hreach]
    refine ⟨fun hcam hage => ?_, fun hcam hage => ?_, fun hno => ?_⟩
    · rw [State.catchReuse_takes (s := u) hcam hage]
    · rw [State.catchReuse_refuses_age (s := u) hcam hage]
      rfl
    · rw [State.catchReuse_refuses_lane (s := u) hno]
      rfl

/-- Settles O31: each command is its request on the healed state, whose PENDING is that of the state before; a pending request answers for
every action, and no domain above 71 is one to switch. -/
theorem powerRequestsWaitTheirTurn : Obligations.PowerRequestsWaitTheirTurn := by
  unfold Obligations.PowerRequestsWaitTheirTurn
  intro src d i s hi hreach u
  obtain ⟨a, hexec⟩ := exec_pwrReq_of_reaches hi hreach
  rw [hexec]
  refine ⟨fun hpending => ?_, fun hfree hd => ?_⟩
  · have hu : u.flag Fld.PWR_REQ_STATUS_PENDING 0 = true := decide_eq_true hpending
    rw [State.pwrReq_pending hu, bits_domain_pwrReqWord]
  · have hu : u.flag Fld.PWR_REQ_STATUS_PENDING 0 = false := decide_eq_false hfree
    have haction : bits (pwrReqWord a d) 10 8 < 4 := bits_action_pwrReqWord a d ▸ a.isLt
    have hbarred : u.domBarred (bits (pwrReqWord a d) 7 0) = true := State.domBarred_of_gt (bits_domain_pwrReqWord a d ▸ hd)
    rw [State.pwrReq_of_barred hu haction hbarred, bits_domain_pwrReqWord, State.reqDone]

end Sys2Proof.Machine
end

section
/-!
PROOFS. Chapter 15: the lifecycle state that follows from the fuses, and the fuses that no step clears (R594, R595, Table 15.2).
-/
namespace Sys2Proof.Machine

/-! ### The lifecycle state, by the fuses burned -/

section
variable {s : State}

theorem State.lifecycle_of_retired (hretired : s.burned 1 = true) : s.lifecycle = 3 := if_pos hretired

/-- Without RETIRE_F, LOCKED_F alone decides between FACTORY and the two FIELD states (R595). -/
theorem State.lifecycle_of_unretired (hretired : s.burned 1 = false) :
    s.lifecycle = if s.burned 0 then (if s.dbg.sessionAt.isSome then 2 else 1) else 0 :=
  if_neg (ne_true_of_eq_false hretired)

theorem State.lifecycle_of_locked (hretired : s.burned 1 = false) (hlocked : s.burned 0 = true) : s.lifecycle = 1 ∨ s.lifecycle = 2 := by
  rw [State.lifecycle_of_unretired hretired, if_pos hlocked]
  split
  · exact .inr rfl
  · exact .inl rfl

theorem State.lifecycle_of_unlocked (hretired : s.burned 1 = false) (hlocked : s.burned 0 = false) : s.lifecycle = 0 := by
  rw [State.lifecycle_of_unretired hretired, if_neg (ne_true_of_eq_false hlocked)]

end

/-! ### What a step does to the fuses -/

/-- From `s` to `t` no fuse of the lifecycle area is cleared, and none outside Table 15.2 is burned. -/
structure State.FusesGrow (s t : State) : Prop where
  burned : ∀ n : Nat, s.burned n = true → t.burned n = true
  revokeBurned : ∀ n : Nat, s.revokeBurned n = true → t.revokeBurned n = true
  fusesOk : s.fusesOk = true → t.fusesOk = true

theorem Keeps.fusesGrow {s t : State} (h : Keeps s t) : s.FusesGrow t := ⟨h.lc, h.rev, h.ok⟩

/-- The queue holds no fuse. -/
theorem State.FusesGrow.of_setPending {s t : State} {p : List Instr} (h : ({ s with pending := p } : State).FusesGrow t) : s.FusesGrow t :=
  ⟨h.burned, h.revokeBurned, h.fusesOk⟩

theorem State.tick_boot (s : State) : s.tick.boot = s.boot := by
  unfold State.tick
  rfl

/-- The fuses lie in the start-up state, so what leaves that alone leaves them as they are. -/
theorem State.FusesGrow.of_boot_eq {s t : State} (h : t.boot = s.boot) : s.FusesGrow t := by
  refine ⟨fun n => ?_, fun n => ?_, ?_⟩
  · rw [State.burned, State.burned, h]; exact id
  · rw [State.revokeBurned, State.revokeBurned, h]; exact id
  · rw [State.fusesOk, State.fusesOk, h]; exact id

/-- Either time passes, or the command at the front of the queue is performed, and every command keeps the fuses (`exec_keeps`). -/
theorem step_fusesGrow {s t : State} (h : step s = .next t) : s.FusesGrow t := by
  unfold step at h
  split at h
  case h_1 =>
    cases h
    exact .of_boot_eq s.tick_boot
  case h_2 c rest _ => exact ((exec_keeps (Keeps.refl _) c).out t h).fusesGrow.of_setPending

/-! ### The statement -/

/-- Settles O57: the lifecycle state by the fuses burned, and `step_fusesGrow` for the fuses after a step. -/
theorem fusesAreNeverCleared : Obligations.FusesAreNeverCleared := by
  unfold Obligations.FusesAreNeverCleared
  refine ⟨fun s => ⟨State.lifecycle_of_retired, State.lifecycle_of_locked, State.lifecycle_of_unlocked⟩, fun s t h => ?_⟩
  obtain ⟨hburned, hrevoked, hok⟩ := step_fusesGrow h
  exact ⟨fun n => ⟨hburned n, hrevoked n⟩, hok⟩

end Sys2Proof.Machine
end

section
/-!
PROOFS. What every step keeps, from the front of the queue to the form of memory (log entries 1, 3 and 7), and the state after reset.
-/
namespace Sys2Proof.Machine

/-! ### The two ways of a step -/

/-- On an empty queue time passes. -/
theorem step_of_empty {s : State} (h : s.pending = []) : step s = .next s.tick := by
  simp [step, h]

/-- A command that waits is performed, off the queue. -/
theorem step_of_front {s : State} {c : Instr} {rest : List Instr} (h : s.pending = c :: rest) : step s = exec c { s with pending := rest } := by
  simp [step, h]

/-- The whole and the fraction of device time advance together by the slewed nanosecond (R7, R337). -/
theorem State.tick_advances (s : State) : ∃ d : Nat, d * 1000000000 + s.tick.ptp.frac + 500000 = s.dev * 1000000000 + s.ptp.frac + 1000000000 + s.ptp.slew ∧
    s.tick.dev = d % 2 ^ 64 := by
  refine ⟨s.dev + (s.ptp.frac + 1000000000 + s.ptp.slew - 500000) / 1000000000, ?_, rfl⟩
  simp only [State.tick]
  omega

/-- A tick leaves all but the two times as it is. -/
theorem State.tick_frame (s : State) : s.tick = { s with now := s.now + 1, dev := s.tick.dev, ptp := { s.ptp with frac := s.tick.ptp.frac } } := by
  unfold State.tick
  rfl

theorem State.tick_mem (s : State) : s.tick.mem = s.mem := by rw [s.tick_frame]

theorem State.tick_pending (s : State) : s.tick.pending = s.pending := by rw [s.tick_frame]

theorem State.tick_now (s : State) : s.tick.now = s.now + 1 := by rw [s.tick_frame]

/-- Settles O1: the two branches of `step`, and the arithmetic of `State.tick`. -/
theorem stepRunsTheFrontCommandOrPassesTime : Obligations.StepRunsTheFrontCommandOrPassesTime := by
  unfold Obligations.StepRunsTheFrontCommandOrPassesTime
  exact ⟨fun c rest s h => step_of_front h, fun s h => ⟨s.tick, step_of_empty h, rfl, s.tick_advances, Nat.mod_lt _ (by decide), rfl⟩⟩

/-! ### What every step keeps -/

/-- No command faults or refuses (log entry 1): each arm of the dispatch answers a next state. -/
theorem exec_answers (c : Instr) (s : State) : ∃ t : State, exec c s = .next t := by
  cases c <;> exact ⟨_, rfl⟩

/-- Every command answers a state that keeps what `Keeps` names. -/
theorem exec_answers_keeps (c : Instr) (s : State) : ∃ t : State, exec c s = .next t ∧ Keeps s t := by
  obtain ⟨t, ht⟩ := exec_answers c s
  exact ⟨t, ht, (exec_keeps (Keeps.refl s) c).out t ht⟩

/-- Settles O58: a tick leaves memory as it is, and every command keeps its form (`exec_keeps`). -/
theorem memoryStaysCanonical : Obligations.MemoryStaysCanonical := by
  unfold Obligations.MemoryStaysCanonical
  intro s t hwf h
  cases hq : s.pending with
  | nil =>
    rw [step_of_empty hq] at h
    cases h
    rw [State.tick_mem]
    exact hwf
  | cons c rest =>
    rw [step_of_front hq] at h
    exact ((exec_keeps (Keeps.refl _) c).out t h).mem hwf

/-- Settles O59: `exec_answers_keeps` for a command, and by it for a step, whose tick keeps all but the two times. -/
theorem stepsServeTheQueueInOrderAndKeepTheFactoryRecord : Obligations.StepsServeTheQueueInOrderAndKeepTheFactoryRecord := by
  unfold Obligations.StepsServeTheQueueInOrderAndKeepTheFactoryRecord
  refine ⟨fun c s => ?_, fun s => ?_⟩
  · obtain ⟨t, ht, hk⟩ := exec_answers_keeps c s
    exact ⟨t, ht, hk.pending, hk.otp, hk.now⟩
  · cases hq : s.pending with
    | nil => exact ⟨s.tick, step_of_empty hq, s.tick_pending.trans hq, congrArg BootSt.otp s.tick_boot, s.tick_now⟩
    | cons c rest =>
      obtain ⟨t, ht, hk⟩ := exec_answers_keeps c { s with pending := rest }
      exact ⟨t, (step_of_front hq).trans ht, hk.pending, hk.otp, hk.now⟩

/-! ### The state after reset -/

theorem bit_zero (n : Nat) : bit 0 n = false := by
  simp [bit]

/-- Settles O60: the fuses of a new unit are 0 (log entry 2), so none reads as burned, and the rest is the reset state's own fields. -/
theorem resetMeetsTheInvariants : Obligations.ResetMeetsTheInvariants := by
  unfold Obligations.ResetMeetsTheInvariants
  exact ⟨rfl, reset_mem_wf, rfl, rfl, fun n => ⟨bit_zero n, bit_zero n⟩, rfl, rfl⟩

end Sys2Proof.Machine
end

section
/-!
PROOFS. Chapters 0 and 16: what a write of a register does to its fields, what a read answers, and the accesses that reach no register
(R9, R10, R32, R489, R592, R593, R633, R668).
-/
namespace Sys2Proof.Machine

/-! ### The fields of one register -/

/-- What a write of `v` leaves in a field that holds `old` (Table 0.3, R668). -/
def RegField.written (f : RegField) (v old : Nat) : Nat :=
  let x := bits v (f.lo + f.width - 1) f.lo
  match f.acc with
  | .rw => if f.inRange x then x % 2 ^ f.width else old
  | .rwl => if f.inRange x ∧ old = f.reset then x % 2 ^ f.width else old
  | .w1c => (old - Nat.land old x) % 2 ^ f.width
  | .w1s => Nat.lor old x % 2 ^ f.width
  | .ro | .wo => old

section
variable (s : State) (i v : Nat)

theorem State.get_writeField_same (f : RegField) : (s.writeField i v f).get f i = f.written v (s.get f i) := by
  unfold State.writeField RegField.written
  cases f.acc
  case rw | rwl => dsimp only; split <;> simp
  case w1c | w1s => simp
  case ro | wo => rfl

theorem State.get_writeField_ne {f g : RegField} {j : Nat} (h : f.key i ≠ g.key j) : (s.writeField i v f).get g j = s.get g j := by
  unfold State.writeField
  have hput := fun x => s.get_put_ne f g i j x h.symm
  cases f.acc
  case rw | rwl => dsimp only; split <;> simp [hput]
  case w1c | w1s => exact hput _
  case ro | wo => rfl

/-- A write of a field changes the register fields alone. -/
theorem State.writeField_frame (f : RegField) : s.writeField i v f = { s with flds := (s.writeField i v f).flds } := by
  unfold State.writeField
  cases f.acc
  case rw | rwl => dsimp only; split <;> rfl
  case w1c | w1s | ro | wo => rfl

theorem State.foldl_writeField_frame (fs : List RegField) : fs.foldl (State.writeField i v) s = { s with flds := (fs.foldl (State.writeField i v) s).flds } := by
  induction fs generalizing s with
  | nil => rfl
  | cons f fs ih => rw [List.foldl_cons, ih, s.writeField_frame]

theorem State.get_foldl_writeField_ne {fs : List RegField} {g : RegField} {j : Nat} (h : ∀ f ∈ fs, f.key i ≠ g.key j) :
    (fs.foldl (State.writeField i v) s).get g j = s.get g j := by
  induction fs generalizing s with
  | nil => rfl
  | cons f fs ih =>
    rw [List.foldl_cons, ih _ fun f' hf' => h f' (List.mem_cons_of_mem _ hf')]
    exact s.get_writeField_ne i v (h f List.mem_cons_self)

/-- Where the fields of a register have places of their own, each is written as if it were written alone. -/
theorem State.get_foldl_writeField {fs : List RegField} (hpair : fs.Pairwise fun f g => f.key i ≠ g.key i) {f : RegField} (hf : f ∈ fs) :
    (fs.foldl (State.writeField i v) s).get f i = f.written v (s.get f i) := by
  induction fs generalizing s with
  | nil => cases hf
  | cons a fs ih =>
    obtain ⟨hhead, htail⟩ := List.pairwise_cons.1 hpair
    rw [List.foldl_cons]
    rcases List.mem_cons.1 hf with rfl | hmem
    · rw [State.get_foldl_writeField_ne _ _ _ fun g hg => (hhead g hg).symm, State.get_writeField_same]
    · rw [ih _ htail hmem, State.get_writeField_ne _ _ _ (hhead f hmem)]

end

/-! ### The fields of the index -/

/-- Whether the fields of a row have widths, and places of their own. -/
def RegRow.fieldsApart (r : RegRow) : Bool :=
  (r.fields.all fun f => decide (0 < f.width)) && decide (r.fields.Pairwise fun f g => f.base = g.base ∧ f.stride = g.stride ∧ f.lo ≠ g.lo)

theorem regTable_fieldsApart : (regTable.all RegRow.fieldsApart) = true := by decide +kernel

theorem mem_regTable_of_findReg {off : Nat} {r : RegRow} {i word : Nat} (h : findReg off = some (r, i, word)) : r ∈ regTable := by
  obtain ⟨r', hmem, hr'⟩ := List.exists_of_findSome?_eq_some h
  obtain ⟨p, _, hp⟩ := Option.map_eq_some_iff.1 hr'
  cases hp
  exact hmem

section
variable {r : RegRow} (hr : r ∈ regTable)
include hr

theorem RegRow.width_pos {f : RegField} (hf : f ∈ r.fields) : 0 < f.width := by
  have h := List.all_eq_true.1 regTable_fieldsApart r hr
  simp only [RegRow.fieldsApart, Bool.and_eq_true, List.all_eq_true, decide_eq_true_eq] at h
  exact h.1 f hf

theorem RegRow.keys_apart (i : Nat) : r.fields.Pairwise fun f g => f.key i ≠ g.key i := by
  have h := List.all_eq_true.1 regTable_fieldsApart r hr
  simp only [RegRow.fieldsApart, Bool.and_eq_true, decide_eq_true_eq] at h
  refine h.2.imp fun ⟨hbase, hstride, hlo⟩ => ?_
  simp only [RegField.key, hbase, hstride, ne_eq]
  omega

end

/-- The bits of a value that stand in a field fit the field. -/
theorem bits_mod_width (v lo : Nat) {w : Nat} (hw : 0 < w) : bits v (lo + w - 1) lo % 2 ^ w = bits v (lo + w - 1) lo := by
  rw [bits, show lo + w - 1 - lo + 1 = w by omega, Nat.mod_mod]

/-- A register that `ownEffect` does not list only has its fields written (R10). -/
theorem State.commitReg_plain (s : State) (src : RegSrc) (w : RegWho) (r : RegRow) (i v : Nat) (h : r.base ∉ ownEffect) :
    s.commitReg src w r i v = (stOK, s.plainWrite r i v) := by
  simp only [ownEffect, List.mem_cons, List.not_mem_nil, or_false, not_or] at h
  simp [State.commitReg, h]

/-- Settles O4: such a write folds `writeField` over the register's fields, which lie apart in the index, so each ends as `RegField.written` says. -/
theorem registerWriteSetsFieldsByTheirAccess : Obligations.RegisterWriteSetsFieldsByTheirAccess := by
  unfold Obligations.RegisterWriteSetsFieldsByTheirAccess
  intro src r i v s hf h32 hown hreach
  have hr := mem_regTable_of_findReg hf
  let u := s.start.heal (r.offset i)
  let t := u.plainWrite r i v.toNat
  have hframe : t = { u with flds := t.flds } := State.foldl_writeField_frame _ _ _ _
  have hget : ∀ f ∈ r.fields, (t.regAnswer stOK 0).get f i = f.written v.toNat (s.get f i) := fun f hmem =>
    State.get_foldl_writeField u i v.toNat (RegRow.keys_apart hr i) hmem
  refine ⟨t.regAnswer stOK 0, ?_, ?_, fun f hmem hacc hin => ?_, fun f hmem hacc hout => ?_, fun f hmem hacc => ?_, fun f hmem hacc => ?_,
    fun g j hne => State.get_foldl_writeField_ne u i v.toNat hne⟩
  · rw [exec_registerWrite, execRegisterWrite, State.busWrite_reaches _ _ _ _ _ _ hreach hf h32 rfl, BitVec.toNat_mod_cancel,
      State.commitReg_plain _ _ _ _ _ _ hown]
  · rw [State.regAnswer, hframe]
    rfl
  · rw [hget f hmem]
    simp only [RegField.written, hacc, hin, if_true]
    exact bits_mod_width _ _ (RegRow.width_pos hr hmem)
  · rw [hget f hmem]
    simp [RegField.written, hacc, hout]
  · rw [hget f hmem]
    rcases hacc with hacc | hacc <;> simp [RegField.written, hacc]
  · rw [hget f hmem]
    simp [RegField.written, hacc]

/-! ### Reads -/

section
variable (s : State)

theorem State.msix_regUe (f v : Nat) : (s.msix f v).regUe = s.regUe := by
  unfold State.msix
  dsimp only
  split_ifs <;> rfl

theorem State.ringWrite_regUe (r : Nat) (e : ErrRec) : (s.ringWrite r e).regUe = s.regUe := by
  unfold State.ringWrite
  split
  · rfl
  split
  · rfl
  · exact State.msix_regUe _ _ _

/-- A register whose backing state stands in error reads 0 (R633). -/
theorem State.regValue_of_ue {r : RegRow} {i : Nat} (h : NatSet.has s.regUe (r.offset i) = true) (view : Option Nat) : s.regValue view r i = 0 :=
  if_pos (.inl h)

/-- The record of a register's backing state, which names no partition, marks no other register and clears none. -/
theorem State.record_device_regUe {e : ErrRec} (h : ¬ e.part < 8) : (s.record e).regUe = s.regUe := by
  rw [State.record, if_neg h, State.ringWrite_regUe]

end

section
variable (s : State) (w : RegWho) {r : RegRow} (i : Nat) (h32 : r.words = 1)
include h32

/-- A read that meets no error, or one found before, changes nothing. -/
theorem State.regRead_of_known {ue : Bool} (h : ue = true → NatSet.has s.regUe (r.offset i) = true) :
    s.regRead w r i 0 ue = (s.regValue w.view r i % 2 ^ 32, s) := by
  have hold : ¬ (ue = true ∧ NatSet.has s.regUe (r.offset i) = false) := fun ⟨hue, hfresh⟩ => by simp [h hue] at hfresh
  simp [State.regRead, h32, hold]

/-- R633: the first read that meets the error marks the register and records it, and reads 0. -/
theorem State.regRead_first_ue (h : NatSet.has s.regUe (r.offset i) = false) :
    s.regRead w r i 0 true = (0, ({ s with regUe := NatSet.add s.regUe (r.offset i) } : State).record
      { cls := 1, status := stECC, block := blockOf (r.offset i), infoKind := 3, info := r.offset i }) := by
  let e : ErrRec := { cls := 1, status := stECC, block := blockOf (r.offset i), infoKind := 3, info := r.offset i }
  let u : State := ({ s with regUe := NatSet.add s.regUe (r.offset i) } : State).record e
  have hmarked : NatSet.has u.regUe (r.offset i) = true := by
    rw [State.record_device_regUe _ (show ¬ (0xFF : Nat) < 8 by decide)]
    exact NatSet.has_add_same _ _
  have hread : s.regRead w r i 0 true = (u.regValue w.view r i % 2 ^ 32, u) := by
    simp [State.regRead, h32, h, u, e]
  rw [hread, State.regValue_of_ue u hmarked]
  rfl

end

/-- Settles O5: the read of a 32-bit register is its `regRead`, whose value is 0 as soon as the register is marked. -/
theorem registerReadAnswersTheViewsValue : Obligations.RegisterReadAnswersTheViewsValue := by
  unfold Obligations.RegisterReadAnswersTheViewsValue
  intro src r i s hf h32 hread
  simp only [exec_registerRead, execRegisterRead, State.busRead_eq_regRead _ _ _ _ hread hf]
  refine ⟨?_, fun hmarked => ?_, fun hfresh => ?_⟩
  · rw [State.regRead_of_known s.start _ _ h32 (by simp)]
  · rw [State.regRead_of_known s.start _ _ h32 fun _ => hmarked, State.regValue_of_ue s.start hmarked]
    rfl
  · rw [State.regRead_first_ue s.start _ _ h32 hfresh]
    rfl

/-! ### Accesses that reach no register -/

section
variable (s : State) (src : RegSrc) {off size : Nat} (v : Nat) (ue : Bool)

/-- A write that its gate refuses is answered with the gate's status. -/
theorem State.busWrite_refused {st : Nat} {u : State} (h : s.regGate src true off size = (some st, u)) : s.busWrite src off size v = u.regAnswer st 0 := by
  simp [State.busWrite, State.viewWrite, h]

/-- A read that its gate refuses is answered with the gate's status, all ones for a host's. -/
theorem State.busRead_refused {st : Nat} {u : State} (h : s.regGate src false off size = (some st, u)) :
    s.busRead src off size ue = u.regAnswer st (if (u.regWho src).fn.isSome then 2 ^ (8 * size) - 1 else 0) := by
  simp [State.busRead, State.viewRead, h]

end

theorem regShape_of_misshapen {off size : Nat} (h : size ≠ 4 ∨ off % 4 ≠ 0 ∨ 0x1E0000 ≤ off) : regShape off size = true := by
  simpa [regShape, or_assoc] using h

theorem regShape_of_wordShape {off : Nat} (hal : off % 4 = 0) (hlo : off < 0x1E0000) : regShape off 4 = false := by
  simp [regShape, hal, hlo]

/-- A fabric request that its target's gate lets in, and that may use the view it names, is DENIED for its shape alone. -/
theorem viewGate_misshapen {s : State} {g : Option Nat × State} {t : Tag} {va : Nat} {priv : Bool} (hg : g = (none, s))
    (hpriv : priv = true → t.sys = true ∨ t.part = 0) : viewGate g t va priv true = (some stDENIED, s) := by
  subst hg
  refine if_neg fun ⟨hp, hsys, hpart⟩ => ?_
  rcases hpriv hp with h | h
  · simp [h] at hsys
  · exact hpart h

section
variable {s : State} {off size : Nat} (hshape : regShape off size = true)
include hshape

/-- R9, R32: the monitor, task code, and a fabric request that the aperture lets in meet a misshapen access with DENIED. -/
theorem State.regGate_misshapen {src : RegSrc} (wr : Bool) (hsrc : src = .tap ∨ (∃ n, src = .task n) ∨ (∃ t priv, src = .fabric t priv ∧
    (priv = true → t.sys = true ∨ t.part = 0) ∧ (∀ wr, s.gate t wr (s.viewAddr priv off) = (none, s)))) :
    s.regGate src wr off size = (some stDENIED, s) := by
  rcases hsrc with rfl | ⟨n, rfl⟩ | ⟨t, priv, rfl, hpriv, hgate⟩
  · simp [State.regGate, hshape]
  · simp [State.regGate, hshape]
  · simp only [State.regGate, hshape]
    exact viewGate_misshapen (hgate wr) hpriv

/-- R489: with the link up, the aperture of a function with a partition records what it refuses, at its rate. -/
theorem State.hostGate_misshapen {f : Nat} (hup : s.get Fld.HOST_LINK_STATUS_UP 0 = 1) (hmade : f = 0 ∨ (Tbl.get none s.boot.parts f).isSome = true) :
    s.hostGate f off (regShape off size) = (some stDENIED, s.hostDenied f off) := by
  have hmade' : ¬ (f ≠ 0 ∧ (Tbl.get none s.boot.parts f).isNone = true) := fun ⟨h0, hn⟩ => by
    rcases hmade with h | h
    · exact h0 h
    · rw [Option.isNone_iff_eq_none] at hn
      simp [hn] at h
  simp only [State.hostGate, hup, hshape, if_neg hmade', if_true, Nat.one_ne_zero, if_false]

end

/-- A function without a partition answers an Unsupported Request (log entry 103). -/
theorem State.hostGate_unmade {s : State} {f : Nat} (off : Nat) (shape : Bool) (hup : s.get Fld.HOST_LINK_STATUS_UP 0 = 1)
    (hmade : ¬ (f = 0 ∨ (Tbl.get none s.boot.parts f).isSome = true)) : s.hostGate f off shape = (some stDENIED, s) := by
  rw [not_or] at hmade
  have hmade' : f ≠ 0 ∧ (Tbl.get none s.boot.parts f).isNone = true := ⟨hmade.1, by simpa using hmade.2⟩
  simp only [State.hostGate, hup, if_pos hmade', Nat.one_ne_zero, if_false]

/-- With the link down the host reaches nothing (log entry 43). -/
theorem State.hostGate_down {s : State} (f off : Nat) (shape : Bool) (hdown : s.get Fld.HOST_LINK_STATUS_UP 0 = 0) :
    s.hostGate f off shape = (some stDOWN, s) := if_pos hdown

section
variable {s : State} {k : Nat} (e : ErrRec)

/-- R489, R591: a record is made where the partition has had none in the last 10 ms. -/
theorem State.ratedRec_due (h : ∀ at_, Tbl.get none s.err.lastRec k = some at_ → at_ + 10000000 ≤ s.now) :
    s.ratedRec k e = ({ s with err := { s.err with lastRec := Tbl.set none s.err.lastRec k (some s.now) } }).record e := by
  unfold State.ratedRec
  split
  case h_1 t ht => rw [if_neg (Nat.not_lt.2 (h t ht))]
  case h_2 => rfl

theorem State.ratedRec_early (h : ∃ at_, Tbl.get none s.err.lastRec k = some at_ ∧ s.now < at_ + 10000000) : s.ratedRec k e = s := by
  obtain ⟨at_, hat, hlt⟩ := h
  simp [State.ratedRec, hat, hlt]

end

section
variable (s : State) {off : Nat} (v : Nat) (ue : Bool) (hal : off % 4 = 0) (hlo : off < 0x1E0000)
include hal hlo

/-- R592: an empty offset reads 0 in the privileged view. -/
theorem State.busRead_tap_empty (h : findReg off = none) : s.busRead .tap off 4 ue = s.regAnswer stOK 0 := by
  simp [State.busRead, State.viewRead, State.regGate, regShape_of_wordShape hal hlo, h]

/-- R592, R593: a write of an empty offset, and of the DBG block, is ignored. -/
theorem State.busWrite_tap_ignored (h : findReg off = none ∨ inDbg off = true) : s.busWrite .tap off 4 v = s.regAnswer stOK 0 := by
  cases hdbg : inDbg off with
  | true => simp [State.busWrite, State.viewWrite, State.regGate, regShape_of_wordShape hal hlo, hdbg]
  | false =>
    have hnone := h.resolve_right (by simp [hdbg])
    simp [State.busWrite, State.viewWrite, State.regGate, regShape_of_wordShape hal hlo, hdbg, hnone, State.regWho]

end

/-- The host's status and value for an access through BAR0 that its gate refuses, written and read. -/
theorem exec_bar0_refused {s : State} {f : Fin 8} {off size st : Nat} {u : State} (v : Word) (ue : Bool)
    (h : s.start.hostGate f off (regShape off size) = (some st, u)) :
    exec (.registerWrite (.bar0 f) off size v) s = .next (u.regAnswer st 0) ∧
    exec (.registerRead (.bar0 f) off size ue) s = .next (u.regAnswer st (2 ^ (8 * size) - 1)) := by
  rw [exec_registerWrite, execRegisterWrite, exec_registerRead, execRegisterRead, State.busWrite_refused _ (.bar0 f) v.toNat h,
    State.busRead_refused _ (.bar0 f) ue h]
  exact ⟨rfl, rfl⟩

/-- Settles O6: what refuses an access before it reaches a register, by its source, and the empty offsets of the privileged view. -/
theorem refusedAccessesChangeNothing : Obligations.RefusedAccessesChangeNothing := by
  unfold Obligations.RefusedAccessesChangeNothing
  refine ⟨fun src off size v ue s hbad hsrc => ?_, fun f off size v ue s hbad => ?_, fun off v ue s hal hlo => ⟨fun hnone => ?_, fun hignored => ?_⟩⟩
  · have hgate := fun wr => State.regGate_misshapen (regShape_of_misshapen hbad) wr hsrc
    have hfn : (s.start.regWho src).fn.isSome = false := by
      rcases hsrc with rfl | ⟨n, rfl⟩ | ⟨t, priv, rfl, _, _⟩
      · rfl
      · simp only [State.regWho]
        split <;> rfl
      · rfl
    rw [exec_registerWrite, execRegisterWrite, exec_registerRead, execRegisterRead, State.busWrite_refused _ _ _ (hgate true),
      State.busRead_refused _ _ _ (hgate false), hfn]
    exact ⟨rfl, rfl⟩
  · have hshape := regShape_of_misshapen hbad
    refine ⟨fun hup hmade hdue => ?_, fun hup hmade hearly => ?_, fun hup hmade => ?_, fun hdown => ?_⟩
    · have hgate := State.hostGate_misshapen (s := s.start) hshape hup hmade
      rw [State.hostDenied, State.ratedRec_due (s := s.start) _ hdue] at hgate
      exact exec_bar0_refused v ue hgate
    · have hgate := State.hostGate_misshapen (s := s.start) hshape hup hmade
      rw [State.hostDenied, State.ratedRec_early (s := s.start) _ hearly] at hgate
      exact exec_bar0_refused v ue hgate
    · exact exec_bar0_refused v ue (State.hostGate_unmade off _ hup hmade)
    · exact exec_bar0_refused v ue (State.hostGate_down f off _ hdown)
  · rw [exec_registerRead, execRegisterRead, State.busRead_tap_empty _ _ hal hlo hnone]
  · rw [exec_registerWrite, execRegisterWrite, State.busWrite_tap_ignored _ _ hal hlo hignored]

end Sys2Proof.Machine
end

section
/-!
PROOFS. Chapter 4: a ready home serves a request of a line that no other cache holds, performs an atomic, and snoops the holders of a line
(R140, R141, R147, R153, R154, Tables 4.3 and 4.7).
-/
namespace Sys2Proof.Machine

/-! ### From a request to the service of its line -/

/-- What a home has done when it begins to serve a request: counted, and kept its directory and the grants in flight. -/
structure State.ServesFrom (s v : State) : Prop where
  counts : s.OnlyCounts v
  dir : v.coh.dir = s.coh.dir
  granted : v.coh.granted = s.coh.granted

namespace State.ServesFrom
variable {s v w : State}

theorem refl (s : State) : s.ServesFrom s := ⟨.refl s, rfl, rfl⟩

theorem trans (h : s.ServesFrom v) (h' : v.ServesFrom w) : s.ServesFrom w :=
  ⟨h.counts.trans h'.counts, h'.dir.trans h.dir, h'.granted.trans h.granted⟩

theorem dirLine_eq (h : s.ServesFrom v) (l : Nat) : v.dirLine l = s.dirLine l := by
  rw [State.dirLine, h.dir]; rfl

theorem afterGrant_eq (h : s.ServesFrom v) (l g : Nat) : v.afterGrant l g = s.afterGrant l g := by
  rw [State.afterGrant, h.granted]; rfl

end State.ServesFrom

section
variable (s : State)

theorem State.seamBytes_servesFrom (src dst n : Nat) : s.ServesFrom (s.seamBytes src dst n) :=
  ⟨s.seamBytes_onlyCounts src dst n, by rw [State.seamBytes_coh], by rw [State.seamBytes_coh]⟩

theorem State.notePend_servesFrom (r : HomeReq) : s.ServesFrom (s.notePend r) := by
  refine ⟨s.notePend_onlyCounts r, ?_, ?_⟩ <;> unfold State.notePend <;> split <;> rfl

theorem State.serveTicket_servesFrom (h : Nat) (t : Option Nat) (l : Nat) : s.ServesFrom (s.serveTicket h t l) := by
  cases t <;> exact ⟨rfl, rfl, rfl⟩

theorem State.taken_servesFrom (r : HomeReq) (tk : Option Nat) : s.ServesFrom (s.taken r tk) :=
  (s.serveTicket_servesFrom _ tk _).trans (State.seamBytes_servesFrom _ _ _ _)

theorem State.setBusy_servesFrom (l : Nat) (b : Option Busy) : s.ServesFrom (s.setBusy l b) := ⟨rfl, rfl, rfl⟩

end

section
variable {s : State} {r : HomeReq}

/-- A request that a ready home takes is issued at once, from a state whose directory and grants are those before (R123, R148). -/
theorem State.request_eq_issue_from (h : s.homeReady r.tag r.kind.writes r.addr = true) (tk : Option Nat) :
    ∃ u : State, s.ServesFrom u ∧ u.HomeOpen r.tag r.kind.writes r.addr ∧ s.request r tk = u.issue r tk := by
  obtain ⟨hopen, hwait⟩ := (s.homeReady_iff _ _ _).1 h
  cases tk with
  | none => exact ⟨s, .refl s, hopen, by simp [State.request, State.mustWait_of_release hwait]⟩
  | some t =>
    refine ⟨{ s with coh := { s.coh with retries := _ } }, ⟨?_, ?_, ?_⟩, ?_, rfl⟩
    · exact s.setCoh_onlyCounts _
    · rfl
    · rfl
    · exact hopen.setCoh rfl rfl rfl

/-- A ready home serves a well-shaped request at once. -/
theorem State.request_eq_serve (h : s.homeReady r.tag r.kind.writes r.addr = true) (hshape : r.badShape = false) (tk : Option Nat) :
    ∃ v : State, s.ServesFrom v ∧ s.request r tk = State.pump pumpFuel (lineOf r.addr) (v.serve r []) := by
  obtain ⟨u, hu, hopen, hreq⟩ := State.request_eq_issue_from h tk
  refine ⟨(u.notePend r).taken r tk, hu.trans ((u.notePend_servesFrom r).trans (State.taken_servesFrom _ r tk)), ?_⟩
  rw [hreq, State.issue_eq_letIn hopen hshape, State.letIn_eq_arrive hopen, State.arrive_eq_pump (hopen.notePend r)]

/-- A request whose cache the directory does not list begins with its snoops (R140, Table 4.3). -/
theorem State.serve_snoops (hlost : r.lost = false) (hself : r.kind = .readShared ∨ r.kind = .readOwn → bit (s.dirLine (lineOf r.addr)).vec (workAgent r.src) = false)
    {t : List Nat} (ht : snoopTargets (s.dirLine (lineOf r.addr)) r.kind (workAgent r.src) = t) :
    s.serve r [] = t.foldl (fun s q => s.emit (.snoop r.snoopInv q r.addr (s.afterGrant (lineOf r.addr) q)))
      (s.setBusy (lineOf r.addr) (some { cur := r, await := t, evict := [], waiters := [] })) := by
  have hecc : ∀ v, r.ecc ≠ .directory v := fun v hv => by simp [HomeReq.lost, hv] at hlost
  have hstart : ¬ ((!r.lost) = true ∧ (r.kind = .readShared ∨ r.kind = .readOwn) ∧ bit (s.dirLine (lineOf r.addr)).vec (workAgent r.src) = true) :=
    fun ⟨_, hkind, hbit⟩ => by simp [hself hkind] at hbit
  unfold State.serve
  split
  case h_1 v hv => exact absurd hv (hecc v)
  case h_2 =>
    dsimp only
    rw [if_neg hstart, hlost, ht]
    rfl

/-- A request that has no cache to snoop is finished by a ready home at once, and its busy entry closes. -/
theorem State.request_eq_finish_quiet (h : s.homeReady r.tag r.kind.writes r.addr = true) (hshape : r.badShape = false) (hlost : r.lost = false)
    (hself : r.kind = .readShared ∨ r.kind = .readOwn → bit (s.dirLine (lineOf r.addr)).vec (workAgent r.src) = false)
    (hquiet : snoopTargets (s.dirLine (lineOf r.addr)) r.kind (workAgent r.src) = []) (tk : Option Nat) :
    ∃ (v : State) (k : Nat), s.ServesFrom v ∧ s.request r tk = ((v.finish r).setBusy (lineOf r.addr) none).reserve k (lineOf r.addr) true := by
  obtain ⟨v, hv, hreq⟩ := State.request_eq_serve h hshape tk
  have hd := hv.dirLine_eq (lineOf r.addr)
  rw [State.serve_snoops hlost (hd ▸ hself) (hd ▸ hquiet)] at hreq
  exact ⟨_, _, hv.trans (v.setBusy_servesFrom _ _), hreq.trans (v.pump_alone r)⟩

/-- No request snoops for a line that no cache holds (Table 4.3). -/
theorem snoopTargets_unheld (k : ReqKind) (g : Nat) : snoopTargets {} k g = [] := by
  have hnone : ({} : DirLine).holders = [] := by decide
  unfold snoopTargets
  split <;> simp [hnone]

/-- The same of a line that no cache holds. -/
theorem State.request_eq_finish_unheld (h : s.homeReady r.tag r.kind.writes r.addr = true) (hd : s.dirLine (lineOf r.addr) = {}) (hshape : r.badShape = false)
    (hlost : r.lost = false) (tk : Option Nat) :
    ∃ (v : State) (k : Nat), s.ServesFrom v ∧ s.request r tk = ((v.finish r).setBusy (lineOf r.addr) none).reserve k (lineOf r.addr) true :=
  State.request_eq_finish_quiet h hshape hlost (fun _ => by rw [hd]; exact bit_zero _) (by rw [hd]; exact snoopTargets_unheld _ _) tk

end

/-! ### Answers -/

/-- From `s` to `t` nothing changes but counters and the coherence state, and `o` is sent. -/
def State.Sends (s t : State) (o : Out) : Prop := t = { s with flds := t.flds, coh := t.coh, out := s.out ++ [o] }

section
variable {s v t w : State} {o : Out}

theorem State.Sends.emit (s : State) (o : Out) : s.Sends (s.emit o) o := rfl

theorem State.Sends.before (h : s.OnlyCounts v) (h' : v.Sends t o) : s.Sends t o := by
  unfold State.OnlyCounts at h
  unfold State.Sends at *
  rw [h', h]

theorem State.Sends.after (h : s.Sends t o) (h' : t.OnlyCounts w) : s.Sends w o := by
  unfold State.OnlyCounts at h'
  unfold State.Sends at *
  rw [h', h]

end

section
variable (s : State) {r : HomeReq} (hl : r.link = none)
include hl

theorem State.answerAck_local (st : Nat) : s.answerAck r st = s.emit (.ack r.src r.addr st []) := by
  simp [State.answerAck, hl]

/-- An answer with data counts its crossing of the Seam and is sent (R133, R139). -/
theorem State.answerData_sends (st : Nat) (bytes : List Byte) (poison : Nat) (g : Grant) :
    s.Sends (s.answerData r st bytes poison g) (.data r.src r.addr st bytes poison g) ∧ (s.answerData r st bytes poison g).coh = s.coh := by
  simp only [State.answerData, hl]
  split
  · exact ⟨rfl, rfl⟩
  · exact ⟨.before (s.seamBytes_onlyCounts _ _ _) (.emit _ _), s.seamBytes_coh _ _ _⟩

/-- A grant sends the line with its poison mask, and leaves the directory (R140). -/
theorem State.grantData_sends (g : Grant) :
    s.Sends (s.grantData r g) (.data r.src r.addr (dataStatus (s.poisonMask r.addr)) (s.rdBytes r.addr 64) (s.poisonMask r.addr) g) ∧
      ∀ l, (s.grantData r g).dirLine l = s.dirLine l := by
  obtain ⟨hsend, hcoh⟩ := s.answerData_sends hl (dataStatus (s.poisonMask r.addr)) (s.rdBytes r.addr 64) (s.poisonMask r.addr) g
  unfold State.grantData
  dsimp only
  split
  · refine ⟨hsend.after rfl, fun l => ?_⟩
    simp only [State.dirLine, State.setGranted, hcoh]
  · exact ⟨hsend, fun l => by rw [State.dirLine, hcoh]; rfl⟩

end

/-- Of two states that differ in counters alone, the outputs set the same. -/
theorem State.OnlyCounts.withOut {s v : State} (h : s.OnlyCounts v) (os : List Out) :
    ({ v with out := os } : State) = { s with flds := v.flds, coh := v.coh, out := os } := by
  rw [h]

/-! ### Writes of memory do not look at counters or the coherence state -/

section
variable {s v : State}

theorem State.OnlyCounts.mem_eq (h : s.OnlyCounts v) : v.mem = s.mem := by rw [h]

theorem State.OnlyCounts.wrByte (h : s.OnlyCounts v) (a : Nat) (b : Byte) : (s.wrByte a b).OnlyCounts (v.wrByte a b) := by
  unfold State.OnlyCounts at *
  rw [h]; rfl

theorem State.OnlyCounts.wrBytes (h : s.OnlyCounts v) (a : Nat) (bs : List Byte) : (s.wrBytes a bs).OnlyCounts (v.wrBytes a bs) := by
  induction bs generalizing s v a with
  | nil => exact h
  | cons b bs ih => exact ih (h.wrByte a b) _

theorem State.OnlyCounts.wrMasked (h : s.OnlyCounts v) (a mask : Nat) (bs : List Byte) : (s.wrMasked a mask bs).OnlyCounts (v.wrMasked a mask bs) := by
  induction bs generalizing s v a mask with
  | nil => exact h
  | cons b bs ih =>
    refine ih ?_ _ _
    split
    · exact h.wrByte a b
    · exact h

theorem State.OnlyCounts.markWord (h : s.OnlyCounts v) (a mask poison i : Nat) : (s.markWord a mask poison i).OnlyCounts (v.markWord a mask poison i) := by
  unfold State.markWord
  dsimp only
  split
  · unfold State.OnlyCounts at *; rw [h]; rfl
  · split
    · unfold State.OnlyCounts at *; rw [h]; rfl
    · exact h

theorem State.OnlyCounts.wrLine (h : s.OnlyCounts v) (a mask : Nat) (bs : List Byte) (poison : Nat) : (s.wrLine a mask bs poison).OnlyCounts (v.wrLine a mask bs poison) := by
  have hfold : ∀ (is : List Nat) {s v : State}, s.OnlyCounts v →
      (is.foldl (fun s i => s.markWord a mask poison i) s).OnlyCounts (is.foldl (fun s i => s.markWord a mask poison i) v) := by
    intro is
    induction is with
    | nil => exact fun h => h
    | cons i is ih => exact fun h => ih (h.markWord a mask poison i)
  exact hfold _ (h.wrMasked a mask bs)

theorem State.OnlyCounts.rdBytes_eq (h : s.OnlyCounts v) (a n : Nat) : v.rdBytes a n = s.rdBytes a n := by
  induction n generalizing a with
  | zero => rfl
  | succ n ih => simp only [State.rdBytes, ih, State.rdByte, show v.mem = s.mem by rw [h]]

theorem State.OnlyCounts.rdNat_eq (h : s.OnlyCounts v) (a n : Nat) : v.rdNat a n = s.rdNat a n := by
  rw [State.rdNat, State.rdNat, h.rdBytes_eq]

theorem State.OnlyCounts.poisonMask_eq (h : s.OnlyCounts v) (a : Nat) : v.poisonMask a = s.poisonMask a := by
  unfold State.poisonMask
  simp only [h.poisoned_eq]

end

/-! ### What the finish of a request answers and lists (Table 4.3) -/

theorem State.dirLine_setDir (s : State) (l : Nat) (d : DirLine) : (s.setDir l d).dirLine l = d := by
  simp [State.dirLine, State.setDir]

section
variable (s : State) {r : HomeReq} {g : Fin 19} (hl : r.link = none) (he : r.ecc = .clean)
include hl he

theorem State.finish_readShared_unheld (hk : r.kind = .readShared) (hg : r.src = .agent g) (hd : s.dirLine (lineOf r.addr) = {}) :
    s.Sends (s.finish r) (.data r.src r.addr (dataStatus (s.poisonMask r.addr)) (s.rdBytes r.addr 64) (s.poisonMask r.addr) .e) ∧
      (s.finish r).dirLine (lineOf r.addr) = { x := true, vec := 2 ^ g.val } := by
  have hfin : s.finish r = (s.setDir (lineOf r.addr) { x := true, vec := 2 ^ g.val }).grantData r .e := by
    simp [State.finish, hk, hd, he, State.meetEcc, hg, workAgent]
  obtain ⟨hsend, hdir⟩ := (s.setDir (lineOf r.addr) { x := true, vec := 2 ^ g.val }).grantData_sends hl .e
  rw [hfin]
  rw [(s.setDir_onlyCounts _ _).poisonMask_eq, (s.setDir_onlyCounts _ _).rdBytes_eq] at hsend
  exact ⟨hsend.before (s.setDir_onlyCounts _ _), (hdir _).trans (s.dirLine_setDir _ _)⟩

/-- A ReadOwn, and an Upgrade of an agent that is no longer listed as a sharer, are granted M with the line's data. -/
theorem State.finish_grant_m (hk : r.kind = .readOwn ∨ r.kind = .upgrade ∧ bit (s.dirLine (lineOf r.addr)).vec g = false) (hg : r.src = .agent g) :
    s.Sends (s.finish r) (.data r.src r.addr (dataStatus (s.poisonMask r.addr)) (s.rdBytes r.addr 64) (s.poisonMask r.addr) .m) ∧
      (s.finish r).dirLine (lineOf r.addr) = { x := true, vec := 2 ^ g.val } := by
  have hfin : s.finish r = (s.setDir (lineOf r.addr) { x := true, vec := 2 ^ g.val }).grantData r .m := by
    rcases hk with hk | ⟨hk, hbit⟩
    · simp [State.finish, hk, he, State.meetEcc, hg, workAgent]
    · simp [State.finish, hk, he, State.meetEcc, hg, workAgent, hbit]
  obtain ⟨hsend, hdir⟩ := (s.setDir (lineOf r.addr) { x := true, vec := 2 ^ g.val }).grantData_sends hl .m
  rw [hfin]
  rw [(s.setDir_onlyCounts _ _).poisonMask_eq, (s.setDir_onlyCounts _ _).rdBytes_eq] at hsend
  exact ⟨hsend.before (s.setDir_onlyCounts _ _), (hdir _).trans (s.dirLine_setDir _ _)⟩

theorem State.finish_readOnce (hk : r.kind = .readOnce) :
    s.Sends (s.finish r) (.data r.src r.addr (dataStatus (s.poisonMask r.addr)) (s.rdBytes r.addr 64) (s.poisonMask r.addr) .none) ∧
      ∀ l, (s.finish r).dirLine l = s.dirLine l := by
  have hfin : s.finish r = s.answerData r (dataStatus (s.poisonMask r.addr)) (s.rdBytes r.addr 64) (s.poisonMask r.addr) .none := by
    simp [State.finish, hk, he, State.meetEcc]
  obtain ⟨hsend, hcoh⟩ := s.answerData_sends hl (dataStatus (s.poisonMask r.addr)) (s.rdBytes r.addr 64) (s.poisonMask r.addr) .none
  rw [hfin]
  exact ⟨hsend, fun l => by rw [State.dirLine, hcoh]; rfl⟩

omit he in
/-- An Upgrade of the only sharer takes the line exclusively, without data. -/
theorem State.finish_upgrade_sharer (hk : r.kind = .upgrade) (hg : r.src = .agent g) (hd : s.dirLine (lineOf r.addr) = { x := false, vec := 2 ^ g.val }) :
    s.Sends (s.finish r) (.ack r.src r.addr stOK []) ∧ (s.finish r).dirLine (lineOf r.addr) = { x := true, vec := 2 ^ g.val } := by
  have hbit : bit (2 ^ g.val) g.val = true := by simp [bit]
  have hfin : s.finish r = ((s.setDir (lineOf r.addr) { x := true, vec := 2 ^ g.val }).answerAck r stOK).setGranted (lineOf r.addr) g true := by
    simp [State.finish, hk, hd, hg, workAgent, hbit]
  rw [hfin, State.answerAck_local _ hl]
  exact ⟨rfl, by simp [State.dirLine, State.setGranted, State.setDir, State.emit]⟩

theorem State.finish_writeLine_clean (hk : r.kind = .writeLine) :
    s.finish r = ((s.wrLine r.addr r.store.mask.toNat r.store.bytes r.store.poison.toNat).emit (.ack r.src r.addr stOK [])).setDir (lineOf r.addr) {} := by
  simp [State.finish, hk, State.once, hl, he, State.performWrite, State.noteOnce, State.answerAck, State.meetEcc]

/-- An atomic on an unpoisoned word writes its result and answers the old value (R153). -/
theorem State.finish_atomic {op : Nat} (hk : r.kind = .atomic op) (hp : s.poisoned r.addr = false) :
    let n := if r.args.wide then 8 else 4
    let old := s.rdNat r.addr n
    s.finish r = ((s.wrNat r.addr n (atomicResult op (8 * n) old r.args.operand.toNat r.args.compare.toNat)).answerData r stOK (leBytes n old) 0 .none).setDir
      (lineOf r.addr) {} := by
  simp [State.finish, hk, State.once, hl, he, State.performAtomic, State.noteOnce, State.meetEcc, hp]

end

/-! ### The served request -/

section
variable {s u v t : State} {l k : Nat} {d : DirLine} {o : Out}

theorem State.busyLine_reserve (l h l' : Nat) (entry : Bool) : (u.reserve h l' entry).busyLine l = u.busyLine l := by
  unfold State.reserve
  split <;> rfl

theorem State.dirLine_reserve (l h l' : Nat) (entry : Bool) : (u.reserve h l' entry).dirLine l = u.dirLine l := by
  unfold State.reserve
  split <;> rfl

/-- What the statement says of a request that is served at once: the line is free, the directory lists `d` and `o` was answered, from the state `u`
that a write of the request has made. -/
theorem State.served_at_once (hout : u.out = []) (hsend : u.Sends v o) (hdir : v.dirLine l = d) :
    let t := (v.setBusy l none).reserve k l true
    (t = { u with flds := t.flds, coh := t.coh, out := t.out } ∧ t.busyLine l = none) ∧ t.dirLine l = d ∧ t.out = [o] := by
  have hs : u.Sends ((v.setBusy l none).reserve k l true) o := hsend.after ((v.setBusy_onlyCounts l none).trans (State.reserve_onlyCounts _ _ _ _))
  unfold State.Sends at hs
  have hout' : ((v.setBusy l none).reserve k l true).out = [o] := by rw [hs, hout]; rfl
  refine ⟨⟨?_, ?_⟩, ?_, hout'⟩
  · rw [hout']
    rw [hout] at hs
    exact hs
  · rw [State.busyLine_reserve]
    simp [State.busyLine, State.setBusy]
  · rw [State.dirLine_reserve]
    exact hdir

end

/-! ### The statements -/

section
variable {tag : Tag} {g : Fin 19} {src : Work} {a : Addr} {st : Store} {tk : Option Nat} {fab : FabEv}

/-- A request of a caching agent (Table 4.2). -/
def agentReq (k : ReqKind) (tag : Tag) (g : Fin 19) (a : Addr) (st : Store) : HomeReq := { kind := k, tag := tag, src := .agent g, addr := a, store := st }

/-- A ReadShared (Table 4.2). -/
def readSharedReq (tag : Tag) (g : Fin 19) (a : Addr) : HomeReq := { kind := .readShared, tag := tag, src := .agent g, addr := a }

/-- A ReadOnce (Table 4.2). -/
def readOnceReq (tag : Tag) (src : Work) (a : Addr) : HomeReq := { kind := .readOnce, tag := tag, src := src, addr := a }

section
variable (s : State) (hf : fab.header ≠ 2)
include hf

theorem exec_readShared_carried : exec (.readShared tag g a tk .clean fab) s = .next ((s.start.fabric fab).request (readSharedReq tag g a) tk) := by
  rw [exec_readShared, execReadShared, State.carried_of_header _ hf]; rfl

theorem exec_readOwn_carried : exec (.readOwn tag g a st tk .clean fab) s = .next ((s.start.fabric fab).request (agentReq .readOwn tag g a st) tk) := by
  rw [exec_readOwn, execReadOwn, State.carried_of_header _ hf]; rfl

theorem exec_upgrade_carried : exec (.upgrade tag g a st tk .clean fab) s = .next ((s.start.fabric fab).request (agentReq .upgrade tag g a st) tk) := by
  rw [exec_upgrade, execUpgrade, State.carried_of_header _ hf]; rfl

theorem exec_readOnce_carried : exec (.readOnce tag src a tk .clean fab) s = .next ((s.start.fabric fab).request (readOnceReq tag src a) tk) := by
  rw [exec_readOnce, execReadOnce, State.carried_of_header _ hf]; rfl

end

end

/-- The holders of a line that one agent alone shares. -/
theorem holders_sole (g : Fin 19) : (DirLine.holders { x := false, vec := 2 ^ g.val }).filter (fun q => q ≠ g.val) = [] := by
  rw [List.filter_eq_nil_iff]
  intro q hq
  have hbit : bit (2 ^ g.val) q = true := (List.mem_filter.1 hq).2
  rw [bit_eq_testBit, Nat.testBit_two_pow] at hbit
  simpa using (of_decide_eq_true hbit).symm

/-- The snoops of a request are sent, to every target, with AFTER_GRANT as its grant is in flight (R140). -/
theorem State.foldl_snoop (s : State) (inv : Bool) (a l : Nat) (t : List Nat) :
    t.foldl (fun s q => s.emit (.snoop inv q a (s.afterGrant l q))) s = { s with out := s.out ++ t.map fun q => Out.snoop inv q a (s.afterGrant l q) } := by
  induction t generalizing s with
  | nil => simp
  | cons q t ih => rw [List.foldl_cons, ih]; simp [State.emit, State.afterGrant]

/-- A ReadOwn of a line that other caches hold waits for every holder's answer (R141). -/
theorem State.request_readOwn_held {s : State} {tag : Tag} {g : Fin 19} {a : Addr} {st : Store} (h : s.homeReady tag true a = true) (ha : a % 64 = 0)
    (hheld : (s.dirLine (lineOf a)).holders ≠ []) (hself : bit (s.dirLine (lineOf a)).vec g = false) (tk : Option Nat) :
    ∃ v : State, s.ServesFrom v ∧ s.request (agentReq .readOwn tag g a st) tk =
      { (v.setBusy (lineOf a) (some { cur := agentReq .readOwn tag g a st, await := (s.dirLine (lineOf a)).holders, evict := [], waiters := [] })) with
        out := s.out ++ (s.dirLine (lineOf a)).holders.map fun q => Out.snoop true q a (s.afterGrant (lineOf a) q) } := by
  obtain ⟨v, hv, hreq⟩ := State.request_eq_serve (r := agentReq .readOwn tag g a st) h (by simp [HomeReq.badShape, agentReq, ha]) tk
  have hd := hv.dirLine_eq (lineOf a)
  have hout : v.out = s.out := by rw [hv.counts]
  refine ⟨v, hv, ?_⟩
  rw [hreq, State.serve_snoops rfl (fun _ => by rw [← hself, ← hd]; rfl) (t := (s.dirLine (lineOf a)).holders) (by rw [← hd]; rfl), State.foldl_snoop]
  have hwait : ∀ (u : State) (b : Busy), u.busyLine (lineOf a) = some b → b.await ≠ [] → State.pump pumpFuel (lineOf a) u = u := fun u b hb hw => by
    rw [pumpFuel, State.pump, hb]
    simp [hw]
  rw [show lineOf (agentReq .readOwn tag g a st).addr = lineOf a from rfl, hwait _ _ (by simp [State.busyLine, State.setBusy]; rfl) hheld]
  have hgrant : ∀ q, (v.setBusy (lineOf a) (some { cur := agentReq .readOwn tag g a st, await := (s.dirLine (lineOf a)).holders, evict := [], waiters := [] })).afterGrant
      (lineOf a) q = s.afterGrant (lineOf a) q := fun q => hv.afterGrant_eq _ _
  simp only [hgrant, State.setBusy_out, hout]
  rfl

/-- The statement's words about a command whose request a ready home finishes at once. -/
theorem exec_served_at_once {i : Instr} {s u base : State} {r : HomeReq} {tk : Option Nat} {d : DirLine} {o : Out} {l : Nat} (hx : exec i s = .next (u.request r tk))
    (hl : lineOf r.addr = l) (hreq : ∃ (v : State) (k : Nat), u.ServesFrom v ∧ u.request r tk = ((v.finish r).setBusy (lineOf r.addr) none).reserve k (lineOf r.addr) true)
    (hout : base.out = []) (hfin : ∀ v, u.ServesFrom v → base.Sends (v.finish r) o ∧ (v.finish r).dirLine l = d) :
    ∃ t : State, exec i s = .next t ∧ (t = { base with flds := t.flds, coh := t.coh, out := t.out } ∧ t.busyLine l = none) ∧ t.dirLine l = d ∧ t.out = [o] := by
  subst hl
  obtain ⟨v, k, hv, hreq⟩ := hreq
  obtain ⟨hsend, hdir⟩ := hfin v hv
  exact ⟨_, by rw [hx, hreq], State.served_at_once hout hsend hdir⟩

section
variable {u v : State} {r : HomeReq} {g : Fin 19}

/-- The service of a request looks at memory and poison alone, which are those before it. -/
theorem State.Sends.data_of_serves {src : Work} {a : Addr} {gr : Grant} {t : State} (hv : u.ServesFrom v)
    (h : v.Sends t (.data src a (dataStatus (v.poisonMask a)) (v.rdBytes a 64) (v.poisonMask a) gr)) :
    u.Sends t (.data src a (dataStatus (u.poisonMask a)) (u.rdBytes a 64) (u.poisonMask a) gr) := by
  rw [hv.counts.poisonMask_eq, hv.counts.rdBytes_eq] at h
  exact h.before hv.counts

end

/-! ### A write of a line changes memory and the poison marks alone -/

/-- Whether `v` differs from `s` in memory and its poison marks alone. -/
def State.OnlyMemory (s v : State) : Prop := v = { s with mem := v.mem, poison := v.poison }

theorem State.OnlyMemory.trans {s v w : State} (h : s.OnlyMemory v) (h' : v.OnlyMemory w) : s.OnlyMemory w := by
  unfold State.OnlyMemory at *
  rw [h', h]

theorem State.wrMasked_onlyMemory (s : State) (a mask : Nat) (bs : List Byte) : s.OnlyMemory (s.wrMasked a mask bs) := by
  induction bs generalizing s a mask with
  | nil => rfl
  | cons b bs ih =>
    refine State.OnlyMemory.trans ?_ (ih _ _ _)
    split <;> rfl

theorem State.markWord_onlyMemory (s : State) (a mask poison i : Nat) : s.OnlyMemory (s.markWord a mask poison i) := by
  unfold State.markWord
  dsimp only
  split
  · rfl
  · split <;> rfl

theorem State.wrLine_onlyMemory (s : State) (a mask : Nat) (bs : List Byte) (poison : Nat) : s.OnlyMemory (s.wrLine a mask bs poison) := by
  have hfold : ∀ (is : List Nat) (v : State), v.OnlyMemory (is.foldl (fun s i => s.markWord a mask poison i) v) := by
    intro is
    induction is with
    | nil => exact fun v => rfl
    | cons i is ih => exact fun v => (v.markWord_onlyMemory a mask poison i).trans (ih _)
  exact (s.wrMasked_onlyMemory a mask bs).trans (hfold _ _)

/-- The memory that a write of a line leaves is that of its masked bytes. -/
theorem State.wrLine_mem (s : State) (a mask : Nat) (bs : List Byte) (poison : Nat) : (s.wrLine a mask bs poison).mem = (s.wrMasked a mask bs).mem := by
  have hmark : ∀ (v : State) (i : Nat), (v.markWord a mask poison i).mem = v.mem := fun v i => by
    unfold State.markWord
    dsimp only
    split
    · rfl
    · split <;> rfl
  have hfold : ∀ (is : List Nat) (v : State), (is.foldl (fun s i => s.markWord a mask poison i) v).mem = v.mem := by
    intro is
    induction is with
    | nil => exact fun v => rfl
    | cons i is ih => exact fun v => (ih _).trans (hmark v i)
  exact hfold _ _

theorem State.wrLine_out (s : State) (a mask : Nat) (bs : List Byte) (poison : Nat) : (s.wrLine a mask bs poison).out = s.out := by
  rw [s.wrLine_onlyMemory]

theorem State.wrLine_coh (s : State) (a mask : Nat) (bs : List Byte) (poison : Nat) : (s.wrLine a mask bs poison).coh = s.coh := by
  rw [s.wrLine_onlyMemory]

/-- Settles O13: a ready home finishes the request of a line that no other cache holds at once, and snoops the holders that there are. -/
theorem homeServesAnUnheldLine : Obligations.HomeServesAnUnheldLine := by
  unfold Obligations.HomeServesAnUnheldLine
  intro tag g src a st tk fab s ha hf l u m done
  have hout : u.out = [] := s.start_fabric_out hf
  have hShared := exec_readShared_carried s hf (tag := tag) (g := g) (a := a) (tk := tk)
  have hOnce := exec_readOnce_carried s hf (tag := tag) (src := src) (a := a) (tk := tk)
  have hOwn := exec_readOwn_carried s hf (tag := tag) (g := g) (a := a) (st := st) (tk := tk)
  have hUpgrade := exec_upgrade_carried s hf (tag := tag) (g := g) (a := a) (st := st) (tk := tk)
  have hWrite := exec_writeLine_carried tag src a st tk .clean hf s
  change exec _ s = .next (u.request _ _) at hShared hOnce hOwn hUpgrade hWrite
  clear_value u
  have hshape : ∀ r : HomeReq, r.addr = a → (∀ op, r.kind ≠ .atomic op) → r.badShape = false := by
    intro r hr hk
    unfold HomeReq.badShape
    split
    · exact absurd ‹_› (hk _)
    · simp [hr, ha]
  refine ⟨fun hready hd => ⟨?_, ?_⟩, fun hready hd => ⟨?_, ?_, ?_⟩, fun hready hd => ?_, fun hready hheld hself => ?_⟩
  · refine exec_served_at_once hShared rfl (State.request_eq_finish_unheld (r := readSharedReq tag g a) hready hd (hshape _ rfl (by simp [readSharedReq])) rfl tk) hout
      fun v hv => ?_
    obtain ⟨hsend, hdir⟩ := v.finish_readShared_unheld (r := readSharedReq tag g a) rfl rfl rfl rfl ((hv.dirLine_eq _).trans hd)
    exact ⟨hsend.data_of_serves hv, hdir⟩
  · refine exec_served_at_once hOnce rfl (State.request_eq_finish_unheld (r := readOnceReq tag src a) hready hd (hshape _ rfl (by simp [readOnceReq])) rfl tk) hout
      fun v hv => ?_
    obtain ⟨hsend, hdir⟩ := v.finish_readOnce (r := readOnceReq tag src a) rfl rfl rfl
    exact ⟨hsend.data_of_serves hv, (hdir _).trans ((hv.dirLine_eq _).trans hd)⟩
  · refine exec_served_at_once hOwn rfl (State.request_eq_finish_unheld (r := agentReq .readOwn tag g a st) hready hd (hshape _ rfl (by simp [agentReq])) rfl tk) hout
      fun v hv => ?_
    obtain ⟨hsend, hdir⟩ := v.finish_grant_m (r := agentReq .readOwn tag g a st) rfl rfl (.inl rfl) rfl
    exact ⟨hsend.data_of_serves hv, hdir⟩
  · refine exec_served_at_once hUpgrade rfl (State.request_eq_finish_unheld (r := agentReq .upgrade tag g a st) hready hd (hshape _ rfl (by simp [agentReq])) rfl tk) hout
      fun v hv => ?_
    have hgone : bit (v.dirLine l).vec g = false := by rw [hv.dirLine_eq, hd]; exact bit_zero _
    obtain ⟨hsend, hdir⟩ := v.finish_grant_m (r := agentReq .upgrade tag g a st) rfl rfl (.inr ⟨rfl, hgone⟩) rfl
    exact ⟨hsend.data_of_serves hv, hdir⟩
  · refine exec_served_at_once hWrite rfl
      (State.request_eq_finish_unheld (r := writeLineReq tag src a st .clean) hready hd (hshape _ rfl (by simp [writeLineReq])) rfl tk) ?_ fun v hv => ?_
    · rw [State.wrLine_out, hout]
    · rw [State.finish_writeLine_clean v rfl rfl rfl]
      exact ⟨((State.Sends.emit _ _).after (State.setDir_onlyCounts _ _ _)).before (hv.counts.wrLine a st.mask.toNat st.bytes st.poison.toNat), State.dirLine_setDir _ _ _⟩
  · have hquiet : snoopTargets (u.dirLine l) .upgrade g.val = [] := by rw [hd]; exact holders_sole g
    refine exec_served_at_once hUpgrade rfl
      (State.request_eq_finish_quiet (r := agentReq .upgrade tag g a st) hready (hshape _ rfl (by simp [agentReq])) rfl (by simp [agentReq]) hquiet tk) hout fun v hv => ?_
    obtain ⟨hsend, hdir⟩ := v.finish_upgrade_sharer (r := agentReq .upgrade tag g a st) rfl rfl rfl ((hv.dirLine_eq _).trans hd)
    exact ⟨hsend.before hv.counts, hdir⟩
  · obtain ⟨v, hv, hreq⟩ := State.request_readOwn_held (st := st) hready ha hheld hself tk
    refine ⟨_, { cur := agentReq .readOwn tag g a st, await := (u.dirLine l).holders, evict := [], waiters := [] }, hOwn.trans (congrArg _ hreq),
      ?_, ?_, rfl, rfl, rfl, hv.dirLine_eq l, ?_⟩
    · exact (hv.trans (v.setBusy_servesFrom l _)).counts.withOut _
    · simp [State.busyLine, State.setBusy, l]
    · rw [hout]; rfl

/-! ### Atomics -/

theorem State.wrBytes_out (s : State) (a : Nat) (bs : List Byte) : (s.wrBytes a bs).out = s.out := by
  induction bs generalizing s a with
  | nil => rfl
  | cons b bs ih => exact ih _ _

/-- A write of bytes keeps every byte of memory at another offset. -/
theorem State.rdByte_wrBytes_ne (s : State) {a b : Nat} {bs : List Byte} (h : ∀ i, i < bs.length → localOff (a + i) ≠ localOff b) :
    (s.wrBytes a bs).rdByte b = s.rdByte b := by
  induction bs generalizing s a with
  | nil => rfl
  | cons x bs ih =>
    have hfirst : localOff b ≠ localOff a := fun e => h 0 (by simp) e.symm
    have hrest : ∀ i, i < bs.length → localOff (a + 1 + i) ≠ localOff b := fun i hi => by
      rw [show a + 1 + i = a + (i + 1) by omega]
      exact h (i + 1) (by simpa using hi)
    exact (ih (s.wrByte a x) hrest).trans (Tbl.get_set_ne _ _ _ hfirst)

/-- An aligned word does not wrap around the end of a package's memory (R140). -/
theorem localOff_add_of_aligned {a i n : Nat} (hn : n = 4 ∨ n = 8) (ha : a % n = 0) (hi : i < n) : localOff (a + i) = localOff a + i := by
  unfold localOff
  rcases hn with rfl | rfl <;> omega

/-- The results of Table 4.7. -/
theorem atomicResult_table (op w old operand compare : Nat) :
    let o := operand % 2 ^ w
    let new := atomicResult op w old operand compare
    (op = 0 → new = (old + o) % 2 ^ w) ∧ (op = 1 → new = o) ∧ (op = 2 → new = if old = compare % 2 ^ w then o else old) ∧
      (op = 3 → toInt w new = min (toInt w old) (toInt w o)) ∧ (op = 4 → toInt w new = max (toInt w old) (toInt w o)) ∧
      (op = 5 → new = min old o) ∧ (op = 6 → new = max old o) := by
  have hmin : ∀ x y : Nat, toInt w (if toInt w x < toInt w y then x else y) = min (toInt w y) (toInt w x) := fun x y => by split <;> omega
  have hmax : ∀ x y : Nat, toInt w (if toInt w y < toInt w x then x else y) = max (toInt w y) (toInt w x) := fun x y => by split <;> omega
  refine ⟨?_, ?_, ?_, ?_, ?_, ?_, ?_⟩
  · rintro rfl; rfl
  · rintro rfl; rfl
  · rintro rfl; rfl
  · rintro rfl; exact hmin _ _
  · rintro rfl; exact hmax _ _
  · rintro rfl; rfl
  · rintro rfl; rfl

/-- Settles O14: a ready home performs the atomic on an unheld line at once; a misshapen one is answered before it is looked at. -/
theorem atomicsReturnTheOldValue : Obligations.AtomicsReturnTheOldValue := by
  unfold Obligations.AtomicsReturnTheOldValue
  intro tag src a x tk op i s hf hi n w u old o
  have hx : exec i s = .next (u.request (atomicReq op tag src a x) tk) := exec_atomics hi hf s
  have hout : u.out = [] := s.start_fabric_out hf
  have hmem : ∀ b, u.rdByte b = s.rdByte b := fun b => by
    have hkept : u.mem = s.start.mem := (s.start.fabric_onlyCounts hf).mem_eq
    rw [State.rdByte, State.rdByte, hkept]
    rfl
  have hshape : (atomicReq op tag src a x).badShape = (x.badCode || decide (a % n ≠ 0)) := rfl
  clear_value u
  refine ⟨fun hcode hecc halign hready hd hclean => ?_, fun htk hwait hbad => ?_⟩
  · have hn : n = 4 ∨ n = 8 := by dsimp only [n]; split <;> simp
    let new := atomicResult op w old x.operand.toNat x.compare.toNat
    obtain ⟨t, ht, ⟨hsame, -⟩, hdir, hsent⟩ := exec_served_at_once (base := u.wrNat a n new) (d := {}) (o := .data src a stOK (leBytes n old) 0 .none) hx rfl
      (State.request_eq_finish_unheld (r := atomicReq op tag src a x) hready hd (by simp [hshape, hcode, halign])
        (by simp [HomeReq.lost, atomicReq, hecc]) tk)
      ((u.wrBytes_out _ _).trans hout) fun v hv => by
        have hfin := v.finish_atomic (r := atomicReq op tag src a x) rfl hecc rfl ((hv.counts.poisoned_eq a).trans hclean)
        simp only [show (atomicReq op tag src a x).addr = a from rfl, show (atomicReq op tag src a x).args = x from rfl, hv.counts.rdNat_eq] at hfin
        rw [hfin]
        obtain ⟨hsend, -⟩ := (v.wrNat a n new).answerData_sends (r := atomicReq op tag src a x) rfl stOK (leBytes n old) 0 .none
        exact ⟨(hsend.after (State.setDir_onlyCounts _ _ _)).before (hv.counts.wrBytes a (leBytes n new)), State.dirLine_setDir _ _ _⟩
    refine ⟨new, t, ht, by rw [← hsent]; exact hsame, hdir, fun b hb => ?_, atomicResult_table op w old _ _⟩
    have hbyte : t.rdByte b = (u.wrNat a n new).rdByte b := by rw [hsame]; rfl
    rw [hbyte, ← hmem b]
    refine u.rdByte_wrBytes_ne fun i hi => ?_
    rw [leBytes_length] at hi
    rw [localOff_add_of_aligned hn halign hi]
    omega
  · have hbadShape : (atomicReq op tag src a x).badShape = true := by
      rw [hshape]
      rcases hbad with h | h <;> simp [h]
    have hgo : u.mustWait (atomicReq op tag src a x).tag (atomicReq op tag src a x).rel = false := State.mustWait_of_release hwait _
    rw [hx, htk, State.request, if_neg (by simp [hgo]), State.issue, if_pos hbadShape]
    rfl

end Sys2Proof.Machine
end

section
/-!
PROOFS. Chapter 4: a home collects its snoop answers, caches take their grants and answer snoops, evictions leave the directory, and a context fault
orphans the context's locks (R137, R141, R143, R145, R151, R161).
-/
namespace Sys2Proof.Machine

/-! ### Snoop answers -/

section
variable {s : State} {l g : Nat} {b : Busy}

/-- A busy line that still awaits an answer or an eviction is not served (R141). -/
theorem State.pump_awaiting (h : s.busyLine l = some b) (hwait : b.await ≠ [] ∨ b.evict ≠ []) (n : Nat) : State.pump n l s = s := by
  cases n with
  | zero => rfl
  | succ n => rw [State.pump, h]; exact if_pos hwait

theorem State.busyLine_setBusy (s : State) (l : Nat) (b : Option Busy) : (s.setBusy l b).busyLine l = b := by
  simp [State.busyLine, State.setBusy]

/-- An answer to a snoop, while more is to come, is taken off what the line awaits (Table 4.5). -/
theorem State.snoopAnswer_of_awaiting (hb : s.busyLine l = some b) (hg : b.await.contains g = true) (miss : Bool)
    (hmore : b.await.filter (· ≠ g) ≠ [] ∨ (if miss && bit (s.dirLine l).vec g then b.evict ++ [g] else b.evict) ≠ []) :
    s.snoopAnswer g l miss =
      ((s.setGranted l g false).setDir l (if miss then s.dirLine l else if b.cur.snoopInv then (s.dirLine l).drop g else { s.dirLine l with x := false })).setBusy l
        (some { b with await := b.await.filter (· ≠ g), evict := if miss && bit (s.dirLine l).vec g then b.evict ++ [g] else b.evict }) := by
  unfold State.snoopAnswer
  rw [hb]
  dsimp only
  rw [if_pos hg, State.pump_awaiting (State.busyLine_setBusy _ _ _)]
  simpa using hmore

theorem State.sink_coh (s : State) (g l mask : Nat) (bytes : List Byte) (poison : Nat) : (s.sink g l mask bytes poison).coh = s.coh := s.wrLine_coh _ _ _ _

/-- The write of a snooped line keeps the directory and the busy lines. -/
theorem State.snoopData_of_awaiting (hb : s.busyLine l = some b) (hg : b.await.contains g = true) (bytes : List Byte) (poison : Nat)
    (hmore : b.await.filter (· ≠ g) ≠ [] ∨ b.evict ≠ []) :
    s.snoopData g l bytes poison =
      (((((s.sink g l (2 ^ 64 - 1) bytes poison).setFlight g l none).setOver g l 0).setGranted l g false).setDir l
        (if b.cur.snoopInv then (s.dirLine l).drop g else { s.dirLine l with x := false })).setBusy l (some { b with await := b.await.filter (· ≠ g) }) := by
  have hdir : (((s.sink g l (2 ^ 64 - 1) bytes poison).setFlight g l none).setOver g l 0).dirLine l = s.dirLine l := by
    simp only [State.dirLine, State.setOver, State.setFlight, State.sink_coh]
  have hbusy : (((s.sink g l (2 ^ 64 - 1) bytes poison).setFlight g l none).setOver g l 0).busyLine l = some b := by
    rw [← hb]
    simp only [State.busyLine, State.setOver, State.setFlight, State.sink_coh]
  unfold State.snoopData
  rw [hb]
  dsimp only
  rw [if_pos hg, State.snoopAnswer_of_awaiting hbusy hg false (by simpa using hmore), hdir]
  rfl

end

/-- Settles O17: each answer is taken in while the line still awaits others, and a grant is installed with what its request noted. -/
theorem snoopAnswersAreCollectedAndGrantsTaken : Obligations.SnoopAnswersAreCollectedAndGrantsTaken := by
  unfold Obligations.SnoopAnswersAreCollectedAndGrantsTaken
  refine ⟨?_, ?_⟩
  · intro g a b d gr st ep fab s hf l u hb hg rest evict left taken
    refine ⟨fun hmore => ?_, fun hmore => ⟨?_, ?_⟩⟩
    · rw [exec_snoopMiss, execSnoopMiss, State.carried_of_header _ hf, State.snoopAnswer_of_awaiting hb hg true (by simpa only [Bool.true_and] using hmore)]
      rfl
    · rw [exec_ack, execAck, State.carried_of_header _ hf]
      dsimp only
      rw [State.snoopAnswer_of_awaiting hb hg false (by simpa only [Bool.false_and, if_neg Bool.false_ne_true] using hmore)]
      rfl
    · rw [exec_data, execData, State.carried_of_header _ hf]
      dsimp only
      rw [State.snoopData_of_awaiting hb hg _ _ hmore]
  · intro g a d gr w st ep fab s hf l u k hw merged put now
    have hinstall : ∀ (gr : Grant) (bytes : List Byte) (poison : Nat),
        u.install g a gr bytes poison = put ⟨gr, (now bytes poison).1, (now bytes poison).2⟩ := fun gr bytes poison => by
      unfold State.install
      dsimp only
      rw [hw]
      dsimp only [put, merged]
      cases w with
      | none => rfl
      | some p => rfl
    have hack : exec (.ack (.requester (.agent g)) a st ep fab) s =
        .next (if ep ≠ u.epoch (agentUnit g) then u.bump Fld.ERR_STALE_RSP_CNT_CNT 0 1 else u.ackTo (.agent g) a st).monitorGo.settle := by
      rw [exec_ack, execAck, State.carried_of_header _ hf]
      rfl
    have hackOK : exec (.ack (.requester (.agent g)) a stOK ep fab) s =
        .next (if ep ≠ u.epoch (agentUnit g) then u.bump Fld.ERR_STALE_RSP_CNT_CNT 0 1 else u.ackTo (.agent g) a stOK).monitorGo.settle := by
      rw [exec_ack, execAck, State.carried_of_header _ hf]
      rfl
    have hdata : exec (.data (.requester (.agent g)) a d gr ep fab) s =
        .next (if ep ≠ u.epoch (agentUnit g) then u.bump Fld.ERR_STALE_RSP_CNT_CNT 0 1 else u.dataTo (.agent g) a d gr).monitorGo.settle := by
      rw [exec_data, execData, State.carried_of_header _ hf]
      rfl
    clear_value u
    refine ⟨fun hep => ⟨fun hgr => ?_, fun c hc => ?_, fun hst hsome => ?_⟩, fun hep => ⟨?_, ?_⟩⟩
    · rw [hdata, if_neg (not_not.2 hep), State.dataTo, if_neg hgr, hinstall]
    · rw [hackOK, if_neg (not_not.2 hep), State.ackTo, if_pos rfl, hc]
      dsimp only
      rw [hinstall]
    · rw [hack, if_neg (not_not.2 hep), State.ackTo, if_neg hst, hw, if_pos hsome]
    · rw [hdata, if_pos hep]
    · rw [hack, if_pos hep]

/-! ### Evictions and retries -/

section
variable {s : State} {tag : Tag} {g : Fin 19} {a : Addr}

/-- An eviction reaches the home where the Seam is on or not crossed (R116) and its epoch is the known one (R553). -/
theorem State.evictGate_open (ho : s.domOn 56 = true ∨ crossesSeam tag.unit (regionUnit (s.region a)) = false) :
    s.evictGate tag g a = if tag.epoch ≠ s.knownEpoch tag.unit then some ((s.bump Fld.ERR_STALE_REQ_CNT_CNT 0 1).emit (.ack (.agent g) a stSTALE [])) else none := by
  unfold State.evictGate
  rw [if_neg (by rcases ho with h | h <;> simp [h])]

theorem State.evictClean_let_in (hgate : s.evictGate tag g a = none) (hc : ∀ c, s.copy g (lineOf a) = some c → c.st ≠ .m) (ue : Bool) :
    s.evictClean tag g a ue = if ue then ((s.evicted g (lineOf a)).bump Fld.MEM_CE_CNT_CNT 0 1).request
      { kind := .readShared, tag := tag, src := .agent g, addr := a / 64 * 64 } none else s.evicted g (lineOf a) := by
  have hclean : (s.copy g (lineOf a)).any (fun c => c.st = .m) = false := by
    cases h : s.copy g (lineOf a) with
    | none => rfl
    | some c => simpa using hc c h
  simp only [State.evictClean, hgate, hclean]
  rfl

/-- An EvictNotice for a line in M is passed over (R137). -/
theorem State.evictClean_of_m (hgate : s.evictGate tag g a = none) {c : CacheLine} (hc : s.copy g (lineOf a) = some c) (hm : c.st = .m) (ue : Bool) :
    s.evictClean tag g a ue = s := by
  simp [State.evictClean, hgate, hc, hm]

end

/-- Whether `v` differs from `s` in its coherence state alone. -/
def State.OnlyCoh (s v : State) : Prop := v = { s with coh := v.coh }

theorem State.OnlyCoh.trans {s v w : State} (h : s.OnlyCoh v) (h' : v.OnlyCoh w) : s.OnlyCoh w := by
  unfold State.OnlyCoh at *
  rw [h', h]

section
variable (s : State) (g l : Nat)

theorem State.setGranted_onlyCoh (on : Bool) : s.OnlyCoh (s.setGranted l g on) := rfl
theorem State.setDir_onlyCoh (d : DirLine) : s.OnlyCoh (s.setDir l d) := rfl
theorem State.setCopy_onlyCoh (c : Option CacheLine) : s.OnlyCoh (s.setCopy g l c) := rfl
theorem State.setFlight_onlyCoh (c : Option CacheLine) : s.OnlyCoh (s.setFlight g l c) := rfl
theorem State.setOver_onlyCoh (m : Nat) : s.OnlyCoh (s.setOver g l m) := rfl

end

/-- What an eviction leaves, on a line that is not busy (R137, R143). -/
theorem State.evicted_idle (u : State) (g : Nat) {l : Nat} (hidle : u.busyLine l = none) :
    u.evicted g l = ((((u.setGranted l g false).setDir l ((u.dirLine l).drop g)).setCopy g l none).setFlight g l none).setOver g l 0 := by
  have hkept : (((((u.setGranted l g false).setDir l ((u.dirLine l).drop g)).setCopy g l none).setFlight g l none).setOver g l 0).busyLine l = none := by
    rw [← hidle]
    simp only [State.busyLine, State.setOver, State.setFlight, State.setCopy, State.setDir, State.setGranted]
  unfold State.evicted
  dsimp only
  rw [hkept]

theorem State.evicted_onlyCoh (u : State) (g : Nat) {l : Nat} (hidle : u.busyLine l = none) : u.OnlyCoh (u.evicted g l) := by
  rw [u.evicted_idle g hidle]
  exact ((((u.setGranted_onlyCoh g l false).trans (State.setDir_onlyCoh _ _ _)).trans (State.setCopy_onlyCoh _ _ _ _)).trans
    (State.setFlight_onlyCoh _ _ _ _)).trans (State.setOver_onlyCoh _ _ _ _)

/-- Settles O18: the gate decides, then the eviction's own path; a retry moves between the lists of requests turned away. -/
theorem evictionsAndRetriesAreServed : Obligations.EvictionsAndRetriesAreServed := by
  unfold Obligations.EvictionsAndRetriesAreServed
  refine ⟨?_, ?_, ?_, ?_, ?_⟩
  · intro tag g a d ue fab s hf l u opened again v written
    have hnotice : ∀ b, exec (.evictNotice tag g a b fab) s = .next (u.evictClean tag g a b).settle := fun b => by
      rw [exec_evictNotice, execEvictNotice, State.carried_of_header _ hf]
    have hback : exec (.writeBack tag g a d ue fab) s = .next (u.evictDirty tag g a d ue).settle := by
      rw [exec_writeBack, execWriteBack, State.carried_of_header _ hf]
    clear_value u
    refine ⟨fun hopen hep => ?_, fun hopen hep b => ?_⟩
    · have hgate : u.evictGate tag g a = none := by rw [State.evictGate_open hopen, if_neg (not_not.2 hep)]
      refine ⟨fun hc => ⟨?_, ?_⟩, fun c b hc hm => ?_, fun hin hok => ?_, fun hin hbad => ?_, fun hout => ?_⟩
      · rw [hnotice, State.evictClean_let_in hgate hc]; rfl
      · rw [hnotice, State.evictClean_let_in hgate hc]; rfl
      · rw [hnotice, State.evictClean_of_m hgate hc hm]
      · have hin' : bit (u.dirLine (lineOf a)).vec g = true := hin
        have hok' : (if ue = 0 then u else u.ueRecord (a / 64 * 64) 2 ue.toNat).liningOk tag true a = true := hok
        rw [hback]
        simp only [State.evictDirty, hgate, hin', hok']
        rfl
      · have hin' : bit (u.dirLine (lineOf a)).vec g = true := hin
        have hbad' : (if ue = 0 then u else u.ueRecord (a / 64 * 64) 2 ue.toNat).liningOk tag true a = false := hbad
        rw [hback]
        simp only [State.evictDirty, hgate, hin', hbad']
        rfl
      · have hout' : bit (u.dirLine (lineOf a)).vec g = false := hout
        rw [hback]
        simp [State.evictDirty, hgate, hout']
    · have hgate : u.evictGate tag g a = some ((u.bump Fld.ERR_STALE_REQ_CNT_CNT 0 1).emit (.ack (.agent g) a stSTALE [])) := by
        rw [State.evictGate_open hopen, if_pos hep]
      refine ⟨?_, ?_⟩
      · rw [hnotice, State.evictClean, hgate]
      · rw [hback, State.evictDirty, hgate]
  · intro g l u hidle
    dsimp only
    refine ⟨u.evicted_onlyCoh g hidle, ?_⟩
    rw [u.evicted_idle g hidle]
    refine ⟨?_, ?_, fun k hk => ?_⟩
    · simp [State.dirLine, State.setDir, State.setCopy, State.setFlight, State.setOver]
    · simp [State.copy, State.setCopy, State.setFlight, State.setOver]
    · simp [State.dirLine, State.setDir, State.setCopy, State.setFlight, State.setOver, State.setGranted, Tbl.get_set_ne _ _ _ hk]
  · intro src a tk fab s hf u
    refine ⟨fun r hr => ?_, fun hnone => ?_⟩
    · have hr' : ((s.start.fabric fab).coh.turned.find? fun r => r.isOf src a) = some r := hr
      rw [exec_retry, execRetry, State.carried_of_header _ hf]
      dsimp only
      rw [hr']
    · have hnone' : ((s.start.fabric fab).coh.turned.find? fun r => r.isOf src a) = none := hnone
      rw [exec_retry, execRetry, State.carried_of_header _ hf]
      dsimp only
      rw [hnone']
  · intro src a r s hr
    have hr' : (s.start.coh.retries.find? fun r => r.1.isOf src a) = some r := hr
    rw [exec_retryReissue, execRetryReissue]
    dsimp only
    rw [hr']
    rfl
  · intro a u s hu
    have hu' : (s.start.coh.reserved.find? fun u => u.2.2.1 = lineOf a) = some u := hu
    rw [exec_ticketReservationExpiry, execTicketReservationExpiry]
    dsimp only
    rw [hu']
    rfl

/-! ### Locks that lose their context -/

section
variable (s : State) {i j : Nat}

theorem State.lock_setLock_ne (l : Lock) (h : j ≠ i) : (s.setLock i l).lock j = s.lock j := Tbl.get_set_ne _ _ _ h

theorem State.lock_emit (o : Out) (j : Nat) : (s.emit o).lock j = s.lock j := rfl

theorem State.lock_bump (f : RegField) (k n j : Nat) : (s.bump f k n).lock j = s.lock j := by simp [State.lock]

theorem State.passOrphan_frame (i : Nat) : s.passOrphan i = { s with locks := (s.passOrphan i).locks, out := (s.passOrphan i).out } := by
  unfold State.passOrphan
  dsimp only
  split
  · split <;> rfl
  · rfl

theorem State.lock_passOrphan_ne (h : j ≠ i) : (s.passOrphan i).lock j = s.lock j := by
  unfold State.passOrphan
  dsimp only
  split
  · split
    · rfl
    · rw [State.lock_emit, State.lock_setLock_ne _ _ h]
  · rfl

/-- With no waiter an orphaned lock stays as it is (R162). -/
theorem State.passOrphan_no_waiter (h : (s.lock i).queue = []) : s.passOrphan i = s := by
  unfold State.passOrphan
  dsimp only
  rw [h]
  split <;> rfl

theorem State.orphan_frame (i : Nat) : s.orphan i = { s with locks := (s.orphan i).locks, flds := (s.orphan i).flds, out := (s.orphan i).out } := by
  unfold State.orphan
  rw [State.passOrphan_frame]
  rfl

theorem State.lock_orphan_ne (h : j ≠ i) : (s.orphan i).lock j = s.lock j :=
  (State.lock_passOrphan_ne _ h).trans (by rw [State.lock_bump, s.lock_setLock_ne _ h])

theorem State.lock_orphan_same (h : (s.lock i).queue = []) : (s.orphan i).lock i = { st := 2, owner := (s.lock i).owner, queue := [] } := by
  have hlock : ((s.setLock i { s.lock i with st := 2 }).bump Fld.LOCK_ORPHAN_CNT_CNT 0 1).lock i = { s.lock i with st := 2 } := by
    rw [State.lock_bump, s.lock_setLock]
  unfold State.orphan
  rw [State.passOrphan_no_waiter _ (by rw [hlock]; exact h), hlock]
  simp [h]

end

/-- The orphaning of one lock, where a tag that `p` names holds it (R161). -/
def State.orphanIf (s : State) (p : Tag → Bool) (i : Nat) : State := if (s.lock i).st = 1 ∧ p (s.lock i).owner then s.orphan i else s

section
variable {s : State} {p : Tag → Bool} {j : Nat}

theorem State.orphanIf_frame (s : State) (p : Tag → Bool) (i : Nat) :
    s.orphanIf p i = { s with locks := (s.orphanIf p i).locks, flds := (s.orphanIf p i).flds, out := (s.orphanIf p i).out } := by
  unfold State.orphanIf
  split
  · exact s.orphan_frame i
  · rfl

theorem State.lock_orphanIf_ne {i : Nat} (h : j ≠ i) : (s.orphanIf p i).lock j = s.lock j := by
  unfold State.orphanIf
  split
  · exact s.lock_orphan_ne h
  · rfl

theorem State.foldl_orphanIf_frame (ids : List Nat) (s : State) :
    let t := ids.foldl (fun s i => s.orphanIf p i) s
    t = { s with locks := t.locks, flds := t.flds, out := t.out } := by
  induction ids generalizing s with
  | nil => rfl
  | cons i ids ih =>
    have hrest := ih (s.orphanIf p i)
    dsimp only [List.foldl_cons] at hrest ⊢
    rw [hrest, s.orphanIf_frame p i]

/-- A lock that no tag of `p` holds keeps its state, its owner and its queue. -/
theorem State.lock_foldl_orphanIf_other (ids : List Nat) (h : ¬ ((s.lock j).st = 1 ∧ p (s.lock j).owner = true)) :
    (ids.foldl (fun s i => s.orphanIf p i) s).lock j = s.lock j := by
  induction ids generalizing s with
  | nil => rfl
  | cons i ids ih =>
    have hkept : (s.orphanIf p i).lock j = s.lock j := by
      by_cases hij : j = i
      · subst hij
        rw [State.orphanIf, if_neg h]
      · exact State.lock_orphanIf_ne hij
    rw [List.foldl_cons, ih (by rw [hkept]; exact h), hkept]

/-- A listed lock that a tag of `p` holds, and for which nothing waits, is orphaned. -/
theorem State.lock_foldl_orphanIf_held {ids : List Nat} (hj : j ∈ ids) (h : (s.lock j).st = 1 ∧ p (s.lock j).owner = true) (hq : (s.lock j).queue = []) :
    (ids.foldl (fun s i => s.orphanIf p i) s).lock j = { st := 2, owner := (s.lock j).owner, queue := [] } := by
  induction ids generalizing s with
  | nil => exact absurd hj (by simp)
  | cons i ids ih =>
    rw [List.foldl_cons]
    by_cases hij : j = i
    · subst hij
      have hnow : (s.orphanIf p j).lock j = { st := 2, owner := (s.lock j).owner, queue := [] } := by
        rw [State.orphanIf, if_pos h, s.lock_orphan_same hq]
      rw [State.lock_foldl_orphanIf_other ids (by rw [hnow]; simp), hnow]
    · have hkept := State.lock_orphanIf_ne (s := s) (p := p) hij
      rw [ih (List.mem_of_ne_of_mem hij hj) (by rw [hkept]; exact h) (by rw [hkept]; exact hq), hkept]

end

/-- A table whose values are mapped by a function that keeps the default. -/
theorem Tbl.get_map {α : Type} (d : α) (f : α → α) (hd : f d = d) (t : Tbl α) (k : Nat) : Tbl.get d (t.map fun kv => (kv.1, f kv.2)) k = f (Tbl.get d t k) := by
  induction t with
  | nil => exact hd.symm
  | cons kv t ih =>
    obtain ⟨i, v⟩ := kv
    simp only [List.map_cons, Tbl.get]
    split
    · rfl
    · exact ih

/-- A key whose value is not the default is listed. -/
theorem Tbl.mem_keys_of_get_ne {α : Type} {d : α} {t : Tbl α} {k : Nat} (h : Tbl.get d t k ≠ d) : k ∈ t.map (·.1) := by
  induction t with
  | nil => exact absurd rfl h
  | cons kv t ih =>
    obtain ⟨i, v⟩ := kv
    by_cases hk : i = k
    · simp [hk]
    · rw [Tbl.get, if_neg hk] at h
      exact List.mem_cons_of_mem _ (ih h)

/-- A message that the fabric carries changes register fields alone (R98, R120, R129). -/
theorem State.fabric_frame (s : State) {f : FabEv} (hf : f.header ≠ 2) : s.fabric f = { s with flds := (s.fabric f).flds } := by
  unfold State.fabric
  rw [if_neg hf]
  split <;> rfl

/-- Settles O21: the context's waiters leave every queue first, then each lock it holds is orphaned in turn. -/
theorem contextFaultOrphansTheContextsLocks : Obligations.ContextFaultOrphansTheContextsLocks := by
  unfold Obligations.ContextFaultOrphansTheContextsLocks
  intro ctx fab s hf
  let p : Tag → Bool := fun t => t.ctx = ctx
  let v : State := { s.start.fabric fab with locks := s.locks.map fun kv => (kv.1, { kv.2 with queue := kv.2.queue.filter fun q => !p q.1 }) }
  have hlock : ∀ i, v.lock i = { s.lock i with queue := (s.lock i).queue.filter fun q => decide (q.1.ctx ≠ ctx) } := fun i => by
    refine (Tbl.get_map {} (fun l : Lock => { l with queue := l.queue.filter fun q => !p q.1 }) rfl s.locks i).trans ?_
    simp [p, State.lock]
  have hx : exec (.contextFaultNotice ctx fab) s = .next ((s.locks.map (·.1)).foldl (fun s i => s.orphanIf p i) v) := by
    rw [exec_contextFaultNotice, execContextFaultNotice, State.carried_of_header _ hf, State.orphanAll, show (s.start.fabric fab).locks = s.locks by
      rw [State.fabric_frame _ hf]; rfl]
    rfl
  refine ⟨_, hx, ?_, fun i hst hctx hq => ?_, fun i hother => ?_⟩
  · have hfab := s.start.fabric_frame hf
    have hfold := State.foldl_orphanIf_frame (p := p) (s.locks.map (·.1)) v
    dsimp only at hfold
    rw [hfold]
    dsimp only [v]
    rw [hfab]
  · have hlisted : i ∈ s.locks.map (·.1) := Tbl.mem_keys_of_get_ne (d := ({} : Lock)) fun h => by
      have hfree : (s.lock i).st = 0 := congrArg Lock.st h
      omega
    rw [State.lock_foldl_orphanIf_held hlisted (by rw [hlock]; exact ⟨hst, decide_eq_true hctx⟩) (by rw [hlock]; exact hq), hlock]
  · rw [State.lock_foldl_orphanIf_other, hlock]
    rw [hlock]
    rintro ⟨hst, hctx⟩
    rcases hother with h | h
    · exact h hst
    · exact h (of_decide_eq_true hctx)


end Sys2Proof.Machine
end

section
/-!
PROOFS. Chapter 4: the answers of a cache to a snoop, the lock operations of Table 4.9, and what epochs, memory errors and fabric events leave
(R144, R159, R160, R165, R167, R553).
-/
namespace Sys2Proof.Machine

/-! ### Snoops at a cache -/

section
variable {s : State} {inv after ev : Bool} {g a : Nat} {e : Ecc}

/-- Where a stand-in answers for an agent: it is down, or a dark Seam cuts it off (R116). -/
theorem State.snooped_away (h : s.unitDown (agentUnit g) = true ∨ s.domOn 56 = false ∧ crossesSeam (regionUnit (s.region a)) (agentUnit g) = true) :
    s.snooped inv g a after ev e = s.emit (.snoopMiss g a) :=
  if_pos (by simpa only [Bool.not_eq_true'] using h)

/-- A reachable agent holds a snoop behind its grant in flight, and answers any other (R144, R145). -/
theorem State.snooped_here (h : ¬ (s.unitDown (agentUnit g) = true ∨ s.domOn 56 = false ∧ crossesSeam (regionUnit (s.region a)) (agentUnit g) = true)) :
    s.snooped inv g a after ev e =
      if after ∧ s.afterGrant (lineOf a) g ∧ (s.pendOf g (lineOf a)).isSome then
        { s with coh := { s.coh with held := Tbl.set none s.coh.held (cacheKey g (lineOf a)) (some inv) } }
      else if ev then (s.leave g (lineOf a)).emit (.snoopMiss g a)
      else s.answerSnoop inv g a e :=
  if_neg (by simpa only [Bool.not_eq_true'] using h)

end

/-- Settles O16: by the place of the cache, a grant on its way, and the copy it holds. -/
theorem cachesAnswerSnoops : Obligations.CachesAnswerSnoops := by
  unfold Obligations.CachesAnswerSnoops
  intro g a after ev inv e fab i s hf hi l u away hold
  have hx : exec i s = .next (u.snooped inv g a after ev e) := by
    simp only [List.mem_cons, Prod.mk.injEq, List.not_mem_nil, or_false] at hi
    obtain ⟨rfl, rfl⟩ | ⟨rfl, rfl⟩ := hi
    · rw [exec_snoopInv, execSnoopInv, State.carried_of_header _ hf]
    · rw [exec_snoopShare, execSnoopShare, State.carried_of_header _ hf]
  clear_value u
  refine ⟨fun haway => ?_, fun hhere hhold => ?_, fun hhere hno hev => ?_, fun hhere hno hev hcopy => ?_, fun c hhere hno hev hcopy => ?_⟩
  · rw [hx, State.snooped_away haway]
  · rw [hx, State.snooped_here hhere, if_pos hhold]
  · rw [hx, State.snooped_here hhere, if_neg hno, if_pos hev]
  · rw [hx, State.snooped_here hhere, if_neg hno, if_neg (by simp [hev]), State.answerSnoop]
    dsimp only
    rw [hcopy]
  · have hanswer : exec i s = .next (u.answerSnoop inv g a e) := by
      rw [hx, State.snooped_here hhere, if_neg hno, if_neg (by simp [hev])]
    refine ⟨fun hm => ?_, fun hm => ?_, ?_, ?_, ?_⟩
    · rw [hanswer, State.answerSnoop]
      dsimp only
      rw [hcopy]
      dsimp only
      rw [if_pos hm]
    · rw [hanswer, State.answerSnoop]
      dsimp only
      rw [hcopy]
      dsimp only
      rw [if_neg hm]
    · rintro rfl; rfl
    · rintro rfl; rfl
    · rintro m rfl hmask hm
      exact if_pos ⟨hm, hmask⟩

/-! ### Lock operations -/

section
variable {s : State} {t : Tag} {op : LockArgs} {k : Nat}

/-- A lock operation that nothing holds back and its gate lets in is served, counted where it crosses the Seam (R123, R309, Table 4.9). -/
theorem State.lockRequest_let_in (hecc : op.ecc = 0) (hwait : s.mustWait t (k = 2) = false)
    (hwake : s.waitsWake t.unit (0x10 + lockPocket (op.lockId.toNat % 8192)) = none) (hgate : s.lockGate t op = none) :
    s.lockRequest k t op =
      let i := op.lockId.toNat
      let u := s.seamBytes t.unit (0x10 + lockPocket i) 64
      if k = 0 then u.acquire t i op.waitMs.toNat true
      else if k = 1 then u.acquire t i 0 false
      else if k = 2 then u.release t i
      else u.emit (.lockAck t i stOK false (u.lock i).layout) := by
  rw [State.lockRequest, if_neg (by rw [hwait]; exact Bool.false_ne_true), State.lockServe, hwake, State.meetLockEcc, if_pos hecc]
  dsimp only
  rw [hgate]

/-- One that its gate answers is answered so (R157, R158). -/
theorem State.lockRequest_refused (hecc : op.ecc = 0) (hwait : s.mustWait t (k = 2) = false)
    (hwake : s.waitsWake t.unit (0x10 + lockPocket (op.lockId.toNat % 8192)) = none) {v : State} (hgate : s.lockGate t op = some v) :
    s.lockRequest k t op = v := by
  rw [State.lockRequest, if_neg (by rw [hwait]; exact Bool.false_ne_true), State.lockServe, hwake, State.meetLockEcc, if_pos hecc]
  dsimp only
  rw [hgate]

end

section
variable (s : State) (t : Tag) {op : LockArgs} (hf : op.fab.header ≠ 2)
include hf

theorem exec_lockAcquire_carried : exec (.lockAcquire t op) s = .next ((s.start.fabric op.fab).lockRequest 0 t op) := by
  rw [exec_lockAcquire, execLockAcquire, State.carried_of_header _ hf]

theorem exec_lockTryAcquire_carried : exec (.lockTryAcquire t op) s = .next ((s.start.fabric op.fab).lockRequest 1 t op) := by
  rw [exec_lockTryAcquire, execLockTryAcquire, State.carried_of_header _ hf]

theorem exec_lockRelease_carried : exec (.lockRelease t op) s = .next ((s.start.fabric op.fab).lockRequest 2 t op) := by
  rw [exec_lockRelease, execLockRelease, State.carried_of_header _ hf]

theorem exec_lockInspect_carried : exec (.lockInspect t op) s = .next ((s.start.fabric op.fab).lockRequest 3 t op) := by
  rw [exec_lockInspect, execLockInspect, State.carried_of_header _ hf]

end

section
variable {s : State} {t : Tag} {i ms : Nat} {queueing : Bool}

theorem State.acquire_free (h : (s.lock i).st = 0) :
    s.acquire t i ms queueing = (s.setLock i { s.lock i with st := 1, owner := t }).emit (.lockAck t i stOK false 0) := by
  simp [State.acquire, h]

theorem State.acquire_orphaned (h : (s.lock i).st = 2) :
    s.acquire t i ms queueing = (s.setLock i { s.lock i with st := 1, owner := t }).emit (.lockAck t i stORPHAN false 0) := by
  simp [State.acquire, h]

theorem State.acquire_own (h : (s.lock i).st = 1) (hown : (s.lock i).ownedBy t = true) :
    s.acquire t i ms queueing = (s.bump Fld.LOCK_DENIED_CNT_CNT 0 1).emit (.lockAck t i stDENIED false 0) := by
  rw [State.acquire]
  simp only [h, hown]
  rfl

theorem State.acquire_queued (h : (s.lock i).st = 1) (hown : (s.lock i).ownedBy t = false) (hroom : (s.lock i).queue.length < 16) :
    s.acquire t i ms true =
      (s.setLock i { s.lock i with queue := (s.lock i).queue ++ [(t, s.waitUntil ms)] }).emit (.lockAck t i stOK true 0) := by
  simp [State.acquire, h, hown, hroom]

theorem State.acquire_busy (h : (s.lock i).st = 1) (hown : (s.lock i).ownedBy t = false) (hfull : queueing = true → 16 ≤ (s.lock i).queue.length) :
    s.acquire t i ms queueing = (s.bump Fld.LOCK_BUSY_CNT_CNT 0 1).emit (.lockAck t i stBUSY false 0) := by
  have hno : ¬ (queueing = true ∧ (s.lock i).queue.length < 16) := fun ⟨hq, hroom⟩ => by have := hfull hq; omega
  rw [State.acquire]
  simp only [h, hown, hno]
  rfl

end

/-- Settles O19: an operation that its gate lets in takes the branch of Table 4.9. -/
theorem locksAreAcquiredAndInspected : Obligations.LocksAreAcquiredAndInspected := by
  unfold Obligations.LocksAreAcquiredAndInspected
  intro t op s hecc hf i v hwait hwake hgate u l owned
  have hA : exec (.lockAcquire t op) s = .next (u.acquire t i op.waitMs.toNat true) := by
    rw [exec_lockAcquire_carried s t hf, State.lockRequest_let_in hecc hwait hwake hgate]; rfl
  have hT : exec (.lockTryAcquire t op) s = .next (u.acquire t i 0 false) := by
    rw [exec_lockTryAcquire_carried s t hf, State.lockRequest_let_in hecc hwait hwake hgate]; rfl
  have hI : exec (.lockInspect t op) s = .next (u.emit (.lockAck t i stOK false (u.lock i).layout)) := by
    rw [exec_lockInspect_carried s t hf, State.lockRequest_let_in hecc hwait hwake hgate]; rfl
  clear_value u
  rw [hA, hT, hI]
  refine ⟨fun h => ⟨?_, ?_⟩, fun h => ⟨?_, ?_⟩, fun h hown => ⟨?_, ?_⟩, fun h hown hroom => ?_, fun h hown hfull => ?_, fun h hown => ?_, rfl⟩
  · rw [State.acquire_free h]
  · rw [State.acquire_free h]
  · rw [State.acquire_orphaned h]
  · rw [State.acquire_orphaned h]
  · rw [State.acquire_own h hown]
  · rw [State.acquire_own h hown]
  · rw [State.acquire_queued h hown hroom]
  · rw [State.acquire_busy h hown fun _ => hfull]
  · rw [State.acquire_busy h hown (by simp)]

/-- A release by another than the owner is refused (Table 4.9). -/
theorem State.release_refused {s : State} {t : Tag} {i : Nat} (h : (s.lock i).st ≠ 1 ∨ (s.lock i).ownedBy t = false) :
    s.release t i = (s.bump Fld.LOCK_DENIED_CNT_CNT 0 1).emit (.lockAck t i stDENIED false 0) := by
  have hno : ¬ ((s.lock i).st = 1 ∧ (s.lock i).ownedBy t = true) := fun ⟨hst, hown⟩ => by
    rcases h with h | h
    · exact h hst
    · simp [h] at hown
  rw [State.release]
  dsimp only
  rw [if_neg hno]
  rfl

section
variable {s : State} {t : Tag} {i : Nat} (hst : (s.lock i).st = 1) (hown : (s.lock i).ownedBy t = true)
include hst hown

/-- A release with no waiter frees the lock (Table 4.9). -/
theorem State.release_unwaited (hq : (s.lock i).queue = []) :
    s.release t i = (s.emit (.lockAck t i stOK false 0)).setLock i { s.lock i with st := 0, owner := ⟨0, 0, 0, 0, false⟩ } := by
  simp [State.release, hst, hown, hq]

/-- A release passes the lock to its first waiter, which is told so (Table 4.9). -/
theorem State.release_awaited {w : Tag} {d : Nat} {q : List (Tag × Nat)} (hq : (s.lock i).queue = (w, d) :: q) :
    s.release t i = ((s.emit (.lockAck t i stOK false 0)).setLock i { st := 1, owner := w, queue := q }).emit (.lockGrant w i stOK) := by
  simp [State.release, hst, hown, hq]

end

/-- The gate of a well-formed lock operation answers by its block's ENABLE and owner (R157). -/
theorem State.lockGate_barred {s : State} {t : Tag} {op : LockArgs} (hid : op.lockId.toNat < 8192) (hcode : op.code ≤ 3) (hzero : op.reservedZero = true)
    (hup : s.unitDown (0x10 + lockPocket op.lockId.toNat) = false) (hseam : s.domOn 56 = true) (hopen : s.fenced (0x10 + lockPocket op.lockId.toNat) = false)
    (hepoch : t.epoch = s.knownEpoch t.unit)
    (hbar : s.get Fld.LOCK_PART_ENABLE (op.lockId.toNat / 256) = 0 ∨ t.sys = false ∧ s.get Fld.LOCK_PART_PART (op.lockId.toNat / 256) ≠ t.part) :
    s.lockGate t op = some (s.lockDenied t op.lockId.toNat) := by
  have hshape : ¬ (3 < op.code ∨ 8192 ≤ op.lockId.toNat ∨ (!op.reservedZero) = true) := by simp [hzero]; omega
  unfold State.lockGate
  dsimp only
  rw [Nat.mod_eq_of_lt hid, if_neg (by simp [hup, hseam]), if_neg (by simp [hopen]), if_neg (not_not.2 hepoch), if_neg hshape]
  rcases hbar with h | ⟨hsys, hpart⟩
  · rw [if_pos h]
  · split
    · rfl
    · rw [if_pos ⟨by simp [hsys], hpart⟩]

/-- Settles O20: a release waits or passes its lock on; a block's bar meets every lock operation alike. -/
theorem locksAreReleasedToTheFirstWaiter : Obligations.LocksAreReleasedToTheFirstWaiter := by
  unfold Obligations.LocksAreReleasedToTheFirstWaiter
  refine ⟨⟨?_, ?_, ?_⟩, ?_⟩
  · intro t op s hecc hf i v
    refine ⟨fun hwait => ?_, fun hwait hwake hgate => ?_⟩
    · rw [exec_lockRelease_carried s t hf, State.lockRequest, if_pos (by simpa using hwait)]
    · intro u l said
      have hx : exec (.lockRelease t op) s = .next (u.release t i) := by
        rw [exec_lockRelease_carried s t hf, State.lockRequest_let_in hecc (by simpa using hwait) hwake hgate]; rfl
      clear_value u
      refine ⟨fun hst hown hq => ?_, fun w d q hst hown hq => ?_, fun hother => ?_⟩
      · rw [hx, State.release_unwaited hst hown hq]
      · rw [hx, State.release_awaited hst hown hq]
      · rw [hx, State.release_refused hother]
  · intro t i q s hq
    have hq' : ((s.start.lock i).queue.find? fun q => q.1 = t) = some q := hq
    rw [exec_lockWaitTimeout, execLockWaitTimeout]
    dsimp only
    rw [hq']
    rfl
  · intro t i st fab s hf u
    have hx : exec (.lockGrant t i st fab) s = .next (if t.epoch ≠ u.epoch t.unit then u.bump Fld.ERR_STALE_RSP_CNT_CNT 0 1 else u.emit (.note i st)) := by
      rw [exec_lockGrant, execLockGrant, State.carried_of_header _ hf]
    refine ⟨fun h => ?_, fun h => ?_⟩
    · rw [hx, if_neg (not_not.2 h)]
    · rw [hx, if_pos h]
  · intro t op i s hecc hf hi id p u hid hcode hzero hpart hup hseam hopen hepoch hwait hwake hbar
    have hgate := State.lockGate_barred (s := u) hid hcode hzero hup hseam hopen hepoch hbar
    have hall : ∀ k, u.lockRequest k t op = u.lockDenied t id := fun k =>
      State.lockRequest_refused hecc (State.mustWait_of_release hwait _) (by rw [Nat.mod_eq_of_lt hid]; exact hwake) hgate
    have hx : exec i s = .next (u.lockDenied t id) := by
      simp only [List.mem_cons, List.not_mem_nil, or_false] at hi
      rcases hi with rfl | rfl | rfl | rfl
      · rw [exec_lockAcquire_carried s t hf, hall]
      · rw [exec_lockTryAcquire_carried s t hf, hall]
      · rw [exec_lockRelease_carried s t hf, hall]
      · rw [exec_lockInspect_carried s t hf, hall]
    rw [hx, State.lockDenied, Nat.mod_eq_of_lt hpart]

/-! ### Epochs, memory errors and events of the fabric -/

/-- A message with an uncorrectable slot header is counted, recorded and discarded, of every kind (R129). -/
theorem State.carried_of_lost_header (s : State) {f : FabEv} (hf : f.header = 2) (go : State → State) : s.carried f go = s.fabric f := if_pos hf

/-- A scrub of a whole line meets its check code (R165, R170). -/
theorem exec_patrolScrub_of_powered {s : State} {a : Addr} (hc : (s.region a).cacheable = true) (hup : s.unitDown (regionUnit (s.region a)) = false) {e : Ecc}
    (he : ∀ v, e ≠ .directory v) : exec (.patrolScrub a e) s = .next (s.start.meetEcc (a / 64 * 64) e) := by
  have hgo : (s.start.region a).cacheable = true ∧ (!s.start.unitDown (regionUnit (s.start.region a))) = true := ⟨hc, by rw [Bool.not_eq_true']; exact hup⟩
  rw [exec_patrolScrub, execPatrolScrub]
  rw [if_pos hgo]
  cases e with
  | directory v => exact absurd rfl (he v)
  | _ => rfl

/-- Settles O22: by the event, each of which sets what its registers show. -/
theorem epochsMemoryErrorsAndFabricEventsAreKept : Obligations.EpochsMemoryErrorsAndFabricEventsAreKept := by
  unfold Obligations.EpochsMemoryErrorsAndFabricEventsAreKept
  refine ⟨⟨?_, ?_⟩, ?_, ?_, ?_, ?_⟩
  · intro n e lat fab s hf u known freed dropped
    have herr : u.err = s.err := by dsimp only [u]; rw [State.fabric_frame _ hf]; rfl
    refine ⟨?_, ?_, fun x hx => ?_⟩
    · rw [exec_epochBroadcast, execEpochBroadcast, State.carried_of_header _ hf]; rfl
    · exact Tbl.get_set_same _ _ _ _
    · rw [State.knownEpoch, State.knownEpoch, ← herr]
      exact Tbl.get_set_ne _ _ _ hx
  · intro a m s hc hup l
    have hscrub := fun {e : Ecc} => exec_patrolScrub_of_powered (e := e) hc hup
    refine ⟨?_, ?_, fun hfresh => ?_, fun hold => ?_⟩
    · rw [hscrub (by simp)]; rfl
    · rw [hscrub (by simp)]; rfl
    · have hfresh' : ((List.range 8).any fun i => bit m.toNat i && !s.start.poisoned (a / 64 * 64 + 8 * i)) = true := hfresh
      rw [hscrub (by simp), State.meetEcc, if_pos hfresh']
      rfl
    · have hold' : ¬ ((List.range 8).any fun i => bit m.toNat i && !s.start.poisoned (a / 64 * 64 + 8 * i)) = true := fun h => by
        have h' : ((List.range 8).any fun i => bit m.toNat i && !s.poisoned (l + 8 * i)) = true := h
        rw [hold] at h'
        exact Bool.false_ne_true h'
      rw [hscrub (by simp), State.meetEcc]
      rw [if_neg hold']
  · intro w e s
    refine ⟨rfl, _, rfl, ?_, ?_⟩
    · rw [(s.start.put Fld.FAB_SPEED_W_RATE 0 w.toNat).get_put_ne Fld.FAB_SPEED_E_RATE Fld.FAB_SPEED_W_RATE 0 0 e.toNat (by decide), State.get_put_same]
      exact Nat.mod_eq_of_lt w.isLt
    · rw [State.get_put_same]
      exact Nat.mod_eq_of_lt e.isLt
  · intro ch u s hcox hscl shown
    have hgo : ¬ (s.start.err.coxHalted = true ∨ u ≤ 0x0F ∧ ((s.start.scull u).halted = true ∨ (s.start.scull u).haltPending.isSome = true)) := by
      rintro (h | ⟨hu, h⟩)
      · exact absurd (hcox.symm.trans h) (by decide)
      · obtain ⟨hrun, hnone⟩ := hscl hu
        rcases h with h | h
        · exact absurd (hrun.symm.trans h) (by decide)
        · have h' : (s.scull u).haltPending.isSome = true := h
          rw [hnone] at h'
          exact absurd h' (by decide)
    rw [exec_channelStall, execChannelStall]
    dsimp only
    rw [if_neg hgo]
  · intro a s left
    refine ⟨fun e => rfl, fun n => rfl, fun g => rfl, rfl, fun r hr => ?_⟩
    have hr' : ((s.start.tagTimeout (.unit 0x45) a).giveUp (.unit 0x45) a).ringOfAddr a = some r := hr
    rw [exec_requestTimeout, execRequestTimeout]
    rw [hr']
  · intro t g src a st tk e x op b1 b2 dst gr m n1 n2 n3 i fab s hf hx hop hi
    have hcarried : ∃ (f : FabEv) (go : State → State), f = fab ∧ exec i s = .next (s.start.carried f go) := by
      simp only [List.mem_cons, List.not_mem_nil, or_false] at hi
      rcases hi with rfl | rfl | rfl | rfl | rfl | rfl | rfl | rfl | rfl | rfl | rfl | rfl | rfl | rfl | rfl | rfl | rfl | rfl | rfl | rfl | rfl | rfl | rfl | rfl |
        rfl | rfl | rfl <;> exact ⟨_, _, by simp only [hx, hop], rfl⟩
    obtain ⟨f, go, rfl, hgo⟩ := hcarried
    rw [hgo, State.carried_of_lost_header _ hf]

end Sys2Proof.Machine
end

section
/-!
PROOFS. Chapter 5: the register commands of translation, misses and walks, and the limits of the XLU (R186, R189, R201 to R204, R210 to R214, R216, R217, R225).
-/
namespace Sys2Proof.Machine

/-! ### The writes of the translation registers -/

section
variable {s : State} {src : RegSrc} {w : RegWho} {r : RegRow} {i v : Nat}

theorem State.commitReg_resume (hb : r.base = 0x060118) : s.commitReg src w r i v = (stOK, s.resume i (bits v 15 0) (bit v 16)) := by
  simp [State.commitReg, hb]

theorem State.commitReg_ctxCfg (hb : r.base = 0x061000) : s.commitReg src w r i v = (stOK, s.ctxCfg i v) := by
  simp [State.commitReg, hb]

theorem State.commitReg_ctxRelease (hb : r.base = 0x06100C) : s.commitReg src w r i v = (stOK, if bit v 31 then s.ctxRelease i else s) := by
  simp [State.commitReg, hb]

end

/-! ### Context state -/

section
variable {s : State} {src : RegSrc} (c : Fin 256)

theorem exec_ctxRelease_of_reaches (h : s.start.reaches src (0x06100C + c.val * 0x10) = true) :
    exec (.ctxRelease src c.val) s = .next (((s.start.heal (0x06100C + c.val * 0x10)).ctxRelease c).regAnswer stOK 0) := by
  rw [exec_ctxRelease, execCtxRelease, Nat.mod_eq_of_lt c.isLt, State.busWrite_reaches _ _ _ _ _ _ h (find_XLU_CTX_STATE c) rfl rfl,
    State.commitReg_ctxRelease rfl, if_pos (by decide)]

theorem exec_xluCtxCfgWrite_of_reaches (h : s.start.reaches src (0x061000 + c.val * 0x10) = true) (v : Word) :
    exec (.xluCtxCfgWrite src c.val v) s = .next (((s.start.heal (0x061000 + c.val * 0x10)).ctxCfg c v.toNat).regAnswer stOK 0) := by
  rw [exec_xluCtxCfgWrite, execXluCtxCfgWrite, Nat.mod_eq_of_lt c.isLt, State.busWrite_reaches _ _ _ _ _ _ h (find_XLU_CTX_CFG c) rfl rfl,
    State.commitReg_ctxCfg rfl, BitVec.toNat_mod_cancel]

end

/-- The COUNT that a write of XLU_CTX_CFG asks for, or the one that stands (R188, R668). -/
def State.askedCount (s : State) (c v : Nat) : Nat :=
  if Fld.XLU_CTX_CFG_COUNT.inRange (bits v 24 16) = true ∧ (bits v 1 0 = 1 → bits v 24 16 ≤ 8) then bits v 24 16 else s.get Fld.XLU_CTX_CFG_COUNT c

/-- The three ends of a write of XLU_CTX_CFG (R186, R189). -/
theorem State.ctxCfg_eq (s : State) (c v : Nat) :
    s.ctxCfg c v =
      if bits v 1 0 = s.get Fld.XLU_CTX_CFG_FORMAT c ∧ s.askedCount c v = s.get Fld.XLU_CTX_CFG_COUNT c then s
      else if s.get Fld.XLU_CTX_STATE_STATE c = 1 then
        if bits v 1 0 = 1 ∧ ((s.recheckSeg c).put Fld.XLU_CTX_CFG_COUNT c (s.askedCount c v)).s2On
            (((s.recheckSeg c).put Fld.XLU_CTX_CFG_COUNT c (s.askedCount c v)).ctxPart c) then
          ((s.recheckSeg c).put Fld.XLU_CTX_CFG_COUNT c (s.askedCount c v)).record
            { cls := 0, status := stDENIED, part := ((s.recheckSeg c).put Fld.XLU_CTX_CFG_COUNT c (s.askedCount c v)).ctxPart c, block := 0x06, infoKind := 3, info := 0x061000 + c * 0x10, ctx := some c }
        else ((s.recheckSeg c).put Fld.XLU_CTX_CFG_COUNT c (s.askedCount c v)).put Fld.XLU_CTX_CFG_FORMAT c (bits v 1 0)
      else s.record { cls := 0, status := stBUSY, part := s.ctxPart c, block := 0x06, infoKind := 3, info := 0x061000 + c * 0x10, ctx := some c } := by
  have hasked : s.askedCount c v =
      if Fld.XLU_CTX_CFG_COUNT.inRange (bits v 24 16) = true ∧ (bits v 1 0 ≠ 1 ∨ bits v 24 16 ≤ 8) then bits v 24 16 else s.get Fld.XLU_CTX_CFG_COUNT c := by
    rw [State.askedCount]
    simp only [imp_iff_not_or]
  rw [hasked]
  rfl

/-- A write of COUNT leaves the partition of the context and its stage 2 as they are. -/
theorem State.recheck_ctxPart (s : State) (c n : Nat) : ((s.recheckSeg c).put Fld.XLU_CTX_CFG_COUNT c n).ctxPart c = s.ctxPart c :=
  (s.recheckSeg c).get_put_ne _ _ _ _ _ (by simp only [RegField.key, Fld.XLU_CTX_CFG_PART, Fld.XLU_CTX_CFG_COUNT]; omega)

theorem State.recheck_s2On (s : State) (c n p : Nat) : ((s.recheckSeg c).put Fld.XLU_CTX_CFG_COUNT c n).s2On p = s.s2On p := by
  have hget := (s.recheckSeg c).get_put_ne Fld.XLU_CTX_CFG_COUNT Fld.XLU_S2_CFG_ENABLE c p n
    (by simp only [RegField.key, Fld.XLU_S2_CFG_ENABLE, Fld.XLU_CTX_CFG_COUNT]; omega)
  rw [State.s2On, State.s2On, State.flag, State.flag, hget]
  rfl

/-- Settles O9: both writes come down to their effect on the healed state. -/
theorem contextStateWritesFollowItsState : Obligations.ContextStateWritesFollowItsState := by
  unfold Obligations.ContextStateWritesFollowItsState
  intro src c v s
  refine ⟨fun h => ?_, fun h => ?_⟩
  · rw [exec_ctxRelease_of_reaches c h]
    rfl
  · rw [exec_xluCtxCfgWrite_of_reaches c h, State.ctxCfg_eq, State.recheck_ctxPart, State.recheck_s2On]
    rfl

/-! ### Limits -/

/-- Settles O12: each command finds its request and ends it. -/
theorem limitsOfTranslation : Obligations.LimitsOfTranslation := by
  unfold Obligations.LimitsOfTranslation
  refine ⟨fun ctx s hcox hheld => ?_, fun q c l s hcox hinv hsent hwait => ?_, fun xlu ctx va m s hcox hm => ?_⟩
  · have hgo : (!s.start.err.coxHalted && s.start.xlu.misses.any fun (m : Miss) => m.held && m.ctx = ctx) = true := by
      rw [Bool.and_eq_true, Bool.not_eq_true']
      exact ⟨hcox, hheld⟩
    rw [exec_faultHoldTimeout, execFaultHoldTimeout]
    rw [if_pos hgo]
  · have hinv' : Tbl.get [] s.start.xlu.inv q = c :: l := hinv
    have hgo : ¬ (s.start.err.coxHalted = true ∨ (!c.sent) = true ∨ s.start.invWaits q c.seq = true) := by
      rintro (h | h | h)
      · exact absurd (hcox.symm.trans h) (by decide)
      · simp [hsent] at h
      · exact absurd (hwait.symm.trans h) (by decide)
    rw [exec_invalidateComplete, execInvalidateComplete]
    dsimp only
    rw [hinv']
    dsimp only
    rw [if_neg hgo]
    rfl
  · have hm' : (s.start.xlu.misses.find? fun (m : Miss) => m.xlu = xlu.val && m.ctx = ctx && m.va = va && !m.held && !m.faulted) = some m := hm
    have hgo : ¬ s.start.err.coxHalted = true := fun h => absurd (hcox.symm.trans h) (by decide)
    rw [exec_missTimeout, execMissTimeout]
    dsimp only
    rw [hm']
    dsimp only
    rw [if_neg hgo]

/-! ### Fault resolution -/

section
variable {s : State} {src : RegSrc} {q : Fin 8} {id : Nat}

/-- The word that RETRY of a FAULT_ID writes (Table 5.14). -/
theorem retry_word (hid : id < 65536) : bits (id % 65536 % 2 ^ 32) 15 0 = id ∧ bit (id % 65536 % 2 ^ 32) 16 = false := by
  simp only [bits, bit, decide_eq_false_iff_not]
  omega

/-- The word that ABORT of a FAULT_ID writes (Table 5.14). -/
theorem abort_word (hid : id < 65536) : bits ((0x10000 + id % 65536) % 2 ^ 32) 15 0 = id ∧ bit ((0x10000 + id % 65536) % 2 ^ 32) 16 = true := by
  simp only [bits, bit, decide_eq_true_eq]
  omega

theorem exec_fqResumeRetry_of_reaches (hid : id < 65536) (h : s.start.reaches src (0x060118 + q.val * 0x80) = true) :
    exec (.fqResumeRetry src q id) s = .next (((s.start.heal (0x060118 + q.val * 0x80)).resume q id false).regAnswer stOK 0) := by
  obtain ⟨hbits, hbit⟩ := retry_word hid
  rw [exec_fqResumeRetry, execFqResumeRetry, State.busWrite_reaches _ _ _ _ _ _ h (find_XLU_FQ_RESUME q) rfl rfl, State.commitReg_resume rfl, hbits, hbit]

theorem exec_fqResumeAbort_of_reaches (hid : id < 65536) (h : s.start.reaches src (0x060118 + q.val * 0x80) = true) :
    exec (.fqResumeAbort src q id) s = .next (((s.start.heal (0x060118 + q.val * 0x80)).resume q id true).regAnswer stOK 0) := by
  obtain ⟨hbits, hbit⟩ := abort_word hid
  rw [exec_fqResumeAbort, execFqResumeAbort, State.busWrite_reaches _ _ _ _ _ _ h (find_XLU_FQ_RESUME q) rfl rfl, State.commitReg_resume rfl, hbits, hbit]

end

/-- Settles O8: both writes are `resume` of the healed state, which looks at the entry's state first. -/
theorem resumeResolvesAQueuedFault : Obligations.ResumeResolvesAQueuedFault := by
  unfold Obligations.ResumeResolvesAQueuedFault
  intro src q id f s hid hreach hf u resolve shown back unknown again
  have hR : exec (.fqResumeRetry src q id) s = .next ((u.resume q id false).regAnswer stOK 0) := exec_fqResumeRetry_of_reaches hid hreach
  have hA : exec (.fqResumeAbort src q id) s = .next ((u.resume q id true).regAnswer stOK 0) := exec_fqResumeAbort_of_reaches hid hreach
  have hf' : (u.xlu.faults.find? fun (f : FaultRec) => f.queue = q.val && f.id = id) = some f := hf
  have hresume : ∀ abort, u.resume q id abort =
      if f.st = 2 then u.put Fld.XLU_FQ_STATUS_LAST_RESUME q stABORTED
      else if f.st = 1 then
        (if (Tbl.get 0 s.xlu.nextId q + 65536 - id) % 65536 ≤ 1024 then u.put Fld.XLU_FQ_STATUS_LAST_RESUME q stDUPLICATE
          else (u.put Fld.XLU_FQ_STATUS_LAST_RESUME q stDENIED).record unknown)
      else if abort then f.waiters.foldl (fun s (m : Miss) => s.endWork m stABORTED) shown
      else if shown.err.coxHalted then again else again.walkAll none back := fun abort => by
    rw [State.resume]
    dsimp only
    rw [hf']
    rfl
  have hcox : shown.err.coxHalted = s.err.coxHalted := rfl
  rw [hR, hA]
  clear_value u
  refine ⟨fun hst => ?_, fun hst => ?_, fun hst => ?_⟩
  · have h2 : ¬ f.st = 2 := by omega
    have h1 : ¬ f.st = 1 := by omega
    refine ⟨?_, ?_⟩
    · rw [hresume, if_neg h2, if_neg h1, if_pos rfl]
    · rw [hresume, if_neg h2, if_neg h1, if_neg Bool.false_ne_true, hcox]
  · refine ⟨?_, ?_⟩
    · rw [hresume, if_pos hst]
    · rw [hresume, if_pos hst]
  · have h2 : ¬ f.st = 2 := by omega
    refine ⟨?_, ?_⟩
    · rw [hresume, if_neg h2, if_pos hst]
    · rw [hresume, if_neg h2, if_pos hst]

/-! ### Invalidates -/

/-- A translation of a context in an XLU, of the page at 4096. -/
def pageEntry (ctx : Nat) : TlbEntry := ⟨ctx, 4096, 4096, 8192, 15, true⟩

/-- A running unit, context 2 of partition 1, whose table of L1 entries lists XLU 0 twice: first with an entry of context 1, of partition 0, and then with
one of context 2. An XLU reads its first row. -/
def twiceListed : State :=
  let s := State.reset.put Fld.XLU_CTX_CFG_PART 2 1
  { s with boot := { s.boot with phase := .running }, xlu := { s.xlu with l1 := [(0, [pageEntry 1]), (0, [pageEntry 2])] } }

/-- An Invalidate of partition 0 empties the first row, which leaves the table, and the second is read then. -/
theorem invalidate_shows_hidden_row :
    (match exec (.invPartition .tap 0) twiceListed with
      | .next t => (t.tlbEntries 0).contains (pageEntry 2)
      | _ => false) = true ∧ (twiceListed.tlbEntries 0).contains (pageEntry 2) = false := by
  decide +kernel

/-- Refutes O10: the statement is of every state, also of one whose table of L1 entries lists an XLU twice. There an Invalidate that empties the first row uncovers
the second, whose entry was not among the XLU's entries before. On tables in canonical form no row is hidden. -/
theorem not_invalidateTakesAPlaceAndDropsItsTranslations : ¬ Obligations.InvalidateTakesAPlaceAndDropsItsTranslations := by
  unfold Obligations.InvalidateTakesAPlaceAndDropsItsTranslations
  intro h
  obtain ⟨-, -, -, htaken⟩ := h .tap 0 0 (.invPartition .tap 0) 2 0 twiceListed (by simp) (by decide +kernel)
  obtain ⟨t, ht, -, -, -, -, -, -, hkept⟩ := htaken (by decide +kernel) (by decide +kernel) (by decide +kernel)
  obtain ⟨hnew, hold⟩ := invalidate_shows_hidden_row
  rw [ht] at hnew
  have hmem := hkept 0 (pageEntry 2) (List.contains_iff_mem.1 hnew)
  rw [List.contains_iff_mem.2 hmem] at hold
  exact absurd hold (by decide)

/-! ### Misses and walks -/

/-- Whether `v` differs from `s` in its TLB entries and its free values alone. -/
def State.OnlyTlb (s v : State) : Prop := v = { s with xlu := { s.xlu with l1 := v.xlu.l1, l2 := v.xlu.l2 }, free := v.free }

section
variable (s : State)

theorem State.OnlyTlb.trans {s v w : State} (h : s.OnlyTlb v) (h' : v.OnlyTlb w) : s.OnlyTlb w := by
  unfold State.OnlyTlb at *
  rw [h', h]

theorem State.toL2_onlyTlb (x : Nat) (e : TlbEntry) : s.OnlyTlb (s.toL2 x e) := by
  unfold State.toL2
  split
  · dsimp only
    split <;> rfl
  · rfl

theorem State.OnlyTlb.setL1 {s v : State} (h : s.OnlyTlb v) (t : Tbl (List TlbEntry)) : s.OnlyTlb { v with xlu := { v.xlu with l1 := t } } := by
  unfold State.OnlyTlb at *
  rw [h]

/-- A fill changes the XLU's entries and the free values alone (R198). -/
theorem State.fillTlb_onlyTlb (x : Nat) (e : TlbEntry) : s.OnlyTlb (s.fillTlb x e) := by
  unfold State.fillTlb
  dsimp only
  split
  · rfl
  · refine State.OnlyTlb.setL1 ?_ _
    split
    · refine State.OnlyTlb.trans ?_ (State.toL2_onlyTlb _ _ _)
      rfl
    · rfl

end

/-- A request that no task and no transfer waits for is filled by its answer alone (R203, R204). -/
theorem State.fillMiss_plain (s : State) (c : Piece) {m : Miss} (htask : ∀ n, m.work ≠ .task n) (hslide : ∀ e, m.work ≠ .slide e) :
    let t := s.fillMiss c m
    t = { s with flds := t.flds, xlu := { s.xlu with l1 := t.xlu.l1, l2 := t.xlu.l2 }, free := t.free, out := s.out ++ [.filled m.work m.va (c.pa + (m.va - c.va))] } ∧
      t.get Fld.XLU_MISS_CNT_CNT 0 = satAdd 32 (s.get Fld.XLU_MISS_CNT_CNT 0) 1 := by
  have hresume : ∀ v : State, v.resumeWork m = v := fun v => by
    unfold State.resumeWork
    split
    · exact absurd ‹_› (htask _)
    · exact absurd ‹_› (hslide _)
    · rfl
  have htlb := s.fillTlb_onlyTlb m.xlu (c.entry m.ctx)
  unfold State.OnlyTlb at htlb
  unfold State.fillMiss
  dsimp only
  rw [hresume]
  generalize s.fillTlb m.xlu (c.entry m.ctx) = v at htlb ⊢
  have hget : (v.bump Fld.XLU_MISS_CNT_CNT 0 1).get Fld.XLU_MISS_CNT_CNT 0 = satAdd 32 (s.get Fld.XLU_MISS_CNT_CNT 0) 1 := by
    rw [v.get_bump_same Fld.XLU_MISS_CNT_CNT 0 1 (by decide), htlb]
    rfl
  split
  · refine ⟨?_, hget⟩
    rw [htlb]
    rfl
  · refine ⟨?_, ?_⟩
    · rw [htlb]
      rfl
    · rw [← hget]
      exact State.get_put_ne _ _ _ _ _ _ (by decide)

section
variable {s : State} {xlu : Fin 17} {ctx va : Nat} {kind : Access} {w : Work} (hvirt : ∀ e, w = .slide e → physEngine e = false)
include hvirt

/-- An access that needs a translation and hits is answered at once (R201). -/
theorem exec_tlbMiss_hit {pa : Nat} (hhit : s.start.tlbHit xlu ctx va kind = some pa) :
    exec (.tlbMiss xlu ctx va kind w) s = .next (s.start.emit (.filled w va pa)) := by
  cases w with
  | slide e => simp [exec_tlbMiss, execTlbMiss, hvirt e rfl, hhit]
  | _ => simp [exec_tlbMiss, execTlbMiss, hhit]

/-- One that misses is noted (R202). -/
theorem exec_tlbMiss_miss (hmiss : s.start.tlbHit xlu ctx va kind = none) :
    exec (.tlbMiss xlu ctx va kind w) s = .next (s.start.noteMiss xlu ctx va kind w (s.start.missTask w)) := by
  cases w with
  | slide e => simp [exec_tlbMiss, execTlbMiss, hvirt e rfl, hmiss]
  | _ => simp [exec_tlbMiss, execTlbMiss, hmiss]

end

/-- A walk for one request, with no failed read, fills it where the walk finds its right (R199, R203). -/
theorem State.walkAll_one (s : State) {m : Miss} {c : Piece} (hwalk : (s.noteSegOk m.ctx).walk m.ctx m.va m.kind = .ok c)
    (hmerge : (s.noteSegOk m.ctx).countMerge c = s.noteSegOk m.ctx) : s.walkAll none [m] = ((s.noteSegOk m.ctx).dropMisses [m]).fillMiss c m := by
  simp [State.walkAll, State.walkFor, State.walkRes, hwalk, hmerge]

/-- Settles O11: an access that hits, or needs no translation, is answered at once; a miss is noted; a walk fills its one request. -/
theorem missesStallOrAreFilled : Obligations.MissesStallOrAreFilled := by
  unfold Obligations.MissesStallOrAreFilled
  refine ⟨fun xlu ctx va kind e s hphys => ?_, fun xlu ctx va pa kind w s hvirt hhit => ?_, fun xlu ctx va kind w s hvirt hmiss hroom hfresh => ?_,
    fun ctx va m c s hcox hms htask hslide hwalk hmerged hrefused => ?_⟩
  · rw [exec_tlbMiss, execTlbMiss]
    exact congrArg _ (if_pos hphys)
  · exact exec_tlbMiss_hit hvirt hhit
  · have hgo : ¬ (8 ≤ (s.start.xlu.misses.filter fun (m : Miss) => m.xlu = xlu.val && !m.again).length ∨
        (s.start.xlu.misses.any fun (m : Miss) => m.ctx = ctx && m.work = w && m.va / 4096 = va / 4096) = true) := by
      rintro (h | h)
      · exact absurd h (Nat.not_le.2 hroom)
      · exact absurd (hfresh.symm.trans h) (by decide)
    refine ⟨_, exec_tlbMiss_miss hvirt hmiss, ?_⟩
    rw [State.noteMiss]
    dsimp only
    rw [if_neg hgo]
    rfl
  · have hms' : (s.start.xlu.misses.filter fun (m : Miss) => m.ctx = ctx && m.va / 4096 = va / 4096 && !m.held) = [m] := hms
    have hgo : ¬ s.start.err.coxHalted = true := fun h => absurd (hcox.symm.trans h) (by decide)
    let u := s.start.noteSegOk m.ctx
    have hu : u = { s.start with xlu := { s.xlu with segOk := u.xlu.segOk } } := by
      dsimp only [u]
      unfold State.noteSegOk
      split <;> rfl
    have hmerge : u.countMerge c = u := by simp [State.countMerge, hmerged, hrefused]
    have hx : exec (.walkComplete ctx va none .clean) s = .next ((u.dropMisses [m]).fillMiss c m) := by
      refine (show exec (.walkComplete ctx va none .clean) s = .next (if s.start.err.coxHalted then s.start else s.start.walkAll none
        (s.start.xlu.misses.filter fun (m : Miss) => m.ctx = ctx && m.va / 4096 = va / 4096 && !m.held)) from rfl).trans (congrArg _ ((if_neg hgo).trans ?_))
      exact (congrArg (s.start.walkAll none) hms').trans (s.start.walkAll_one hwalk hmerge)
    obtain ⟨hfill, hcnt⟩ := (u.dropMisses [m]).fillMiss_plain c htask hslide
    refine ⟨_, hx, ?_, ?_, ?_, ?_⟩
    · rw [hfill]
      dsimp only [State.dropMisses]
      rw [hu]
      rfl
    · rw [hfill]
      dsimp only [State.dropMisses]
      rw [hu]
    · rw [hfill]
      dsimp only [State.dropMisses]
      rw [hu]
    · rw [hcnt]
      dsimp only [State.dropMisses]
      rw [hu]
      rfl

end Sys2Proof.Machine
end

section
/-!
PROOFS. Chapters 6 and 7: operations that a Scull issues, weight planes and drains, and what a closed checker confirms (R228 to R230, R238, R279, R289).
-/
namespace Sys2Proof.Machine

/-! ### A Scull that issues -/

section
variable {s : State} {n : Nat}

theorem State.issues_iff : s.issues n = true ↔ s.sclGo n = true ∧ (s.running n).isSome = true ∧ s.bpSlots n = [] := by
  simp [State.issues, and_assoc]

/-- Without a breakpoint in its context a Scull issues the operation (R619). -/
theorem State.withBp_of_no_slot (h : s.bpSlots n = []) (op : State → State) : s.withBp n op = op s := by
  simp [State.withBp, State.codeBp, h]

/-- Without a watchpoint an access to tile memory meets none (R619). -/
theorem State.watchTile_of_unwatched (h : s.unwatched n = true) (write : Bool) : s.watchTile n write = s := by
  have hnone : ∀ k, k ∈ List.range 4 → Tbl.get none s.dbg.wps (n * 4 + k) = none := by
    simpa [State.unwatched, List.all_eq_true] using h
  unfold State.watchTile
  split
  · rfl
  · dsimp only
    refine if_pos (List.filter_eq_nil_iff.2 fun k hk => ?_)
    rw [hnone k hk]
    exact Bool.false_ne_true

/-- An issued operation changes the Scull's count of a STEP and its halt alone (R617). -/
theorem State.issuedOp_frame (s : State) (n : Nat) : s.issuedOp n = { s with scl := (s.issuedOp n).scl } := by
  unfold State.issuedOp
  dsimp only
  split <;> rfl

theorem State.scull_issuedOp (s : State) (n : Nat) :
    (s.issuedOp n).scull n = { s.scull n with stepLeft := ((s.issuedOp n).scull n).stepLeft, haltPending := ((s.issuedOp n).scull n).haltPending } := by
  unfold State.issuedOp
  dsimp only
  split
  · rfl
  · simp only [State.scull_setScull]
    split <;> rfl

/-- A count of step times changes SCL_STEPS and the task's own count alone. -/
theorem State.countSteps_frame (s : State) (n c : Nat) :
    s.countSteps n c = { s with flds := (s.bump Fld.SCL_STEPS_CNT n c).flds, tasks := (s.countSteps n c).tasks } := by
  unfold State.countSteps
  dsimp only
  split <;> rfl

theorem State.scull_countSteps (s : State) (n c m : Nat) : (s.countSteps n c).scull m = s.scull m := by
  rw [State.countSteps_frame]
  rfl

theorem State.get_countSteps (s : State) (n c : Nat) : (s.countSteps n c).get Fld.SCL_STEPS_CNT n = satAdd 64 (s.get Fld.SCL_STEPS_CNT n) c := by
  rw [State.countSteps_frame]
  exact s.get_bump_same Fld.SCL_STEPS_CNT n c (by decide)

end

/-! ### Issued operations -/

section
variable {s : State} {n : Fin 16}

theorem exec_arrayStep_of_issues (h : s.start.issues n = true) {op : ArrayOp} {c : Nat} (hc : stepCost op.aFmt op.wFmt = some c) :
    exec (.arrayStep n op) s = .next (s.start.openOp n (.array op (s.scull n).active) c) := by
  obtain ⟨hgo, hrun, hbp⟩ := State.issues_iff.1 h
  obtain ⟨⟨k, t⟩, hkt⟩ := Option.isSome_iff_exists.1 hrun
  simp only [exec_arrayStep, execArrayStep, hgo, hkt, hc, State.withBp_of_no_slot hbp]
  rfl

/-- An array step of a pair that Table 6.1 does not accept ends the attempt (R231). -/
theorem exec_arrayStep_of_bad_pair (h : s.start.issues n = true) {op : ArrayOp} (hc : stepCost op.aFmt op.wFmt = none) {k : Nat} {t : Task}
    (hkt : s.running n = some (k, t)) : exec (.arrayStep n op) s = .next (s.start.attemptEnd k stDENIED) := by
  obtain ⟨hgo, -, -⟩ := State.issues_iff.1 h
  have hkt' : s.start.running n = some (k, t) := hkt
  simp only [exec_arrayStep, execArrayStep, hgo, hkt', hc]

theorem exec_vectorOp_of_issues (h : s.start.issues n = true) (hw : s.unwatched n = true) (op : VecOp) :
    exec (.vectorOp n op) s = .next (s.start.openOp n (.vec op) (vecCost op)) := by
  obtain ⟨hgo, hrun, hbp⟩ := State.issues_iff.1 h
  have hdbg : (s.start.openOp n (.vec op) (vecCost op)).dbg = s.dbg := by
    rw [State.openOp, State.issuedOp_frame, State.countSteps_frame]
    rfl
  have hw' : (s.start.openOp n (.vec op) (vecCost op)).unwatched n = true := by
    rw [← hw, State.unwatched, State.unwatched, hdbg]
  rw [exec_vectorOp, execVectorOp]
  dsimp only
  rw [if_pos ⟨hgo, hrun⟩, State.withBp_of_no_slot hbp]
  cases op with
  | load off d ecc line => exact congrArg _ (State.watchTile_of_unwatched hw' false)
  | store a off => exact congrArg _ (State.watchTile_of_unwatched hw' true)
  | _ => rfl

theorem exec_fence_of_issues (h : s.start.issues n = true) {i : Nat} {t : Task} (hkt : s.running n = some (i, t)) (k : FenceKind) :
    exec (.fence n k) s = .next (if k ≠ .acquire ∧ (s.start.issuedOp n).outstanding ((s.start.issuedOp n).taskTag n t) = true then
      (s.start.issuedOp n).holdOp ((s.start.issuedOp n).taskTag n t) (.fence (decide (k = .full))) else s.start.issuedOp n) := by
  obtain ⟨hgo, -, hbp⟩ := State.issues_iff.1 h
  have hkt' : s.start.running n = some (i, t) := hkt
  simp only [exec_fence, execFence, hgo, hkt', State.withBp_of_no_slot hbp]

end

/-- Settles O23: an issued operation joins the open ones and is counted; nothing that it will change has changed yet. -/
theorem operationsAreIssuedProvisionally : Obligations.OperationsAreIssuedProvisionally := by
  unfold Obligations.OperationsAreIssuedProvisionally
  refine ⟨fun n s h => ⟨fun op c hc => ?_, fun op k t hc hkt => ?_, fun op hw => ?_, fun k i t hkt => ⟨fun hgo => ?_, fun hk hout => ?_⟩,
    fun y c hplanes hacc hvreg => ?_⟩, fun n s hstop op v k => ?_⟩
  · rw [exec_arrayStep_of_issues h hc]; rfl
  · rw [exec_arrayStep_of_bad_pair h hc hkt]
  · rw [exec_vectorOp_of_issues h hw op]; rfl
  · have hno : ¬ (k ≠ .acquire ∧ (s.start.issuedOp n).outstanding ((s.start.issuedOp n).taskTag n t) = true) := by
      rintro ⟨hk, hout⟩
      rcases hgo with hacq | hnone
      · exact hk hacq
      · exact absurd (hnone.symm.trans hout) (by decide)
    rw [exec_fence_of_issues h hkt, if_neg hno]
  · rw [exec_fence_of_issues h hkt, if_pos ⟨hk, hout⟩]
  · have hscull : ((s.start.setScull n y).countSteps n c).scull n = y := by rw [State.scull_countSteps, State.scull_setScull]
    have hissued := ((s.start.setScull n y).countSteps n c).scull_issuedOp n
    rw [hscull] at hissued
    refine ⟨?_, ?_, ?_, ?_, ?_⟩
    · rw [State.issuedOp_frame, State.countSteps_frame]; rfl
    · rw [hissued]; exact hplanes
    · rw [hissued]; exact hacc
    · rw [hissued]; exact hvreg
    · rw [State.issuedOp_frame]
      exact State.get_countSteps _ _ _
  · have hstop' : s.start.sclGo n = false := hstop
    refine ⟨?_, ?_, ?_⟩
    · rw [exec_arrayStep, execArrayStep]; simp only [hstop']
    · rw [exec_vectorOp, execVectorOp]; simp [hstop']
    · rw [exec_fence, execFence]; simp only [hstop']

/-! ### Rows of a table -/

section
variable {α : Type} [DecidableEq α] (d : α)

/-- A row written from place `p` on reads as written, and nothing else of the table has changed. -/
theorem Tbl.get_setRow (t : Tbl α) (p n k : Nat) (f : Nat → α) :
    Tbl.get d ((List.range n).foldl (fun t i => Tbl.set d t (p + i) (f i)) t) k = if p ≤ k ∧ k < p + n then f (k - p) else Tbl.get d t k := by
  induction n with
  | zero => rw [if_neg (by omega)]; rfl
  | succ n ih =>
    rw [List.range_succ, List.foldl_append, List.foldl_cons, List.foldl_nil, Tbl.get_set, ih]
    by_cases hlast : k = p + n
    · rw [if_pos hlast, if_pos (by omega), hlast, Nat.add_sub_cancel_left]
    · rw [if_neg hlast]
      by_cases hin : p ≤ k ∧ k < p + n
      · rw [if_pos hin, if_pos (by omega)]
      · rw [if_neg hin, if_neg (by omega)]

theorem Tbl.get_setRow_in (t : Tbl α) {p n i : Nat} (f : Nat → α) (hi : i < n) :
    Tbl.get d ((List.range n).foldl (fun t i => Tbl.set d t (p + i) (f i)) t) (p + i) = f i := by
  rw [Tbl.get_setRow, if_pos (by omega), Nat.add_sub_cancel_left]

theorem Tbl.get_setRow_out (t : Tbl α) {p n k : Nat} (f : Nat → α) (hk : k < p ∨ p + n ≤ k) :
    Tbl.get d ((List.range n).foldl (fun t i => Tbl.set d t (p + i) (f i)) t) k = Tbl.get d t k := by
  rw [Tbl.get_setRow, if_neg (by omega)]

end

theorem NatSet.put_eq_set (t : NatSet) (k : Nat) (on : Bool) : NatSet.put t k on = Tbl.set false t k on := by
  cases on <;> rfl

/-! ### Weight planes (R228) -/

theorem State.rdBytes_start (s : State) (a n : Nat) : s.start.rdBytes a n = s.rdBytes a n := by
  induction n generalizing a with
  | zero => rfl
  | succ n ih => rw [State.rdBytes, State.rdBytes, ih]; rfl

theorem State.weightAt_start (s : State) (n off w i : Nat) : s.start.weightAt n off w i = s.weightAt n off w i := by
  rw [State.weightAt, State.weightAt, State.rdNat, State.rdNat, State.rdBytes_start]
  rfl

/-- A Scull whose shadow plane, with its marks, was loaded from tile memory. -/
def State.loadedScull (s : State) (n off w : Nat) : Scull :=
  { s.scull n with
    planes := (List.range 65536).foldl (fun t i => Tbl.set 0 t ((1 - (s.scull n).active) * 65536 + i) (s.weightAt n off w i)) (s.scull n).planes,
    planePoison := (List.range 65536).foldl (fun t i => NatSet.put t ((1 - (s.scull n).active) * 65536 + i) (s.poisoned (tileAt n (off + i * w / 8)))) (s.scull n).planePoison }

section
variable {s : State} {n off w i : Nat}

theorem State.loadPlane_eq : s.loadPlane n off w = ((s.setScull n (s.loadedScull n off w)).issuedOp n).watchTile n false := by
  rw [State.loadPlane, State.loadedScull]

theorem State.unwatched_issued (h : s.unwatched n = true) (y : Scull) : ((s.setScull n y).issuedOp n).unwatched n = true := by
  rw [← h, State.unwatched, State.unwatched, State.issuedOp_frame]
  rfl

theorem State.loadPlane_of_unwatched (h : s.unwatched n = true) : s.loadPlane n off w = (s.setScull n (s.loadedScull n off w)).issuedOp n :=
  State.loadPlane_eq.trans (State.watchTile_of_unwatched (State.unwatched_issued h _) false)

theorem State.loadedScull_keeps (s : State) (n off w : Nat) :
    (s.loadedScull n off w).active = (s.scull n).active ∧ (s.loadedScull n off w).acc = (s.scull n).acc ∧ (s.loadedScull n off w).vreg = (s.scull n).vreg := by
  rw [State.loadedScull]
  exact ⟨rfl, rfl, rfl⟩

theorem State.loadedScull_shadow (hi : i < 65536) : Tbl.get 0 (s.loadedScull n off w).planes ((1 - (s.scull n).active) * 65536 + i) = s.weightAt n off w i := by
  rw [State.loadedScull]
  simp only
  rw [Tbl.get_setRow_in 0 _ (s.weightAt n off w) hi]

theorem State.loadedScull_mark (hi : i < 65536) :
    NatSet.has (s.loadedScull n off w).planePoison ((1 - (s.scull n).active) * 65536 + i) = s.poisoned (tileAt n (off + i * w / 8)) := by
  rw [State.loadedScull]
  simp only [NatSet.put_eq_set, NatSet.has]
  rw [Tbl.get_setRow_in false _ (fun i => s.poisoned (tileAt n (off + i * w / 8))) hi]

theorem State.loadedScull_active (ha : (s.scull n).active ≤ 1) (hi : i < 65536) :
    Tbl.get 0 (s.loadedScull n off w).planes ((s.scull n).active * 65536 + i) = Tbl.get 0 (s.scull n).planes ((s.scull n).active * 65536 + i) := by
  rw [State.loadedScull]
  simp only
  rw [Tbl.get_setRow_out 0 _ (s.weightAt n off w) (by omega)]

end

/-- What a load leaves in the Scull: its other planes, registers and accumulators, and the weights and marks of the shadow plane. -/
theorem State.loadPlane_loads (s : State) {n : Nat} (off w : Nat) (h : s.unwatched n = true) :
    ∃ y : Scull, s.loadPlane n off w = (s.setScull n y).issuedOp n ∧ y.active = (s.scull n).active ∧ y.acc = (s.scull n).acc ∧ y.vreg = (s.scull n).vreg ∧
      (∀ i, i < 65536 → Tbl.get 0 y.planes ((1 - (s.scull n).active) * 65536 + i) = s.weightAt n off w i) ∧
      (∀ i, i < 65536 → NatSet.has y.planePoison ((1 - (s.scull n).active) * 65536 + i) = s.poisoned (tileAt n (off + i * w / 8))) ∧
      ((s.scull n).active ≤ 1 → ∀ i, i < 65536 → Tbl.get 0 y.planes ((s.scull n).active * 65536 + i) = Tbl.get 0 (s.scull n).planes ((s.scull n).active * 65536 + i)) := by
  obtain ⟨hplane, hacc, hvreg⟩ := s.loadedScull_keeps n off w
  exact ⟨_, State.loadPlane_of_unwatched h, hplane, hacc, hvreg, fun _ => State.loadedScull_shadow, fun _ => State.loadedScull_mark,
    fun ha _ => State.loadedScull_active ha⟩

/-! ### Drains (R229) -/

/-- A Scull after a drain of an accumulator entry to a vector register. -/
def Scull.drained (x : Scull) (entry reg : Nat) : Scull :=
  (x.setReg reg ((List.range 512).map fun c => Tbl.get 0 x.acc (entry * 512 + c))).markBy reg fun w => NatSet.has x.accPoison (entry * 256 + w)

section
variable (x : Scull) {e r q c : Nat} {l : List Nat}

theorem Scull.lane_setReg_same (hc : c < 512) : (x.setReg r l).lane r c = l.getD c 0 := by
  rw [Scull.lane, Scull.setReg]
  simp only
  rw [Tbl.get_setRow_in 0 _ (fun i => l.getD i 0) hc]

theorem Scull.lane_setReg_ne (hc : c < 512) (hq : q ≠ r) : (x.setReg r l).lane q c = x.lane q c := by
  rw [Scull.lane, Scull.setReg]
  simp only
  rw [Tbl.get_setRow_out 0 _ (fun i => l.getD i 0) (by omega), Scull.lane]

theorem Scull.lane_markBy (d : Nat) (p : Nat → Bool) : (x.markBy d p).lane q c = x.lane q c := by
  rw [Scull.lane, Scull.markBy, Scull.lane]

theorem Scull.acc_drained (e r : Nat) : (x.drained e r).acc = x.acc := by
  rw [Scull.drained, Scull.markBy, Scull.setReg]

theorem Scull.lane_drained_same (hc : c < 512) : (x.drained e r).lane r c = Tbl.get 0 x.acc (e * 512 + c) := by
  rw [Scull.drained, Scull.lane_markBy, Scull.lane_setReg_same _ hc]
  simp [hc]

theorem Scull.lane_drained_ne (hc : c < 512) (hq : q ≠ r) : (x.drained e r).lane q c = x.lane q c := by
  rw [Scull.drained, Scull.lane_markBy, Scull.lane_setReg_ne _ hc hq]

end

section
variable {s : State} {n : Fin 16} (h : s.start.issues n = true)
include h

theorem exec_weightPlaneLoad_of_issues (hopen : ((s.scull n).open_.any fun o => o.uses (1 - (s.scull n).active) || o.stores) = false) (f : NumFmt) (dual : Bool)
    (off line : Nat) (ecc : Ecc) : exec (.weightPlaneLoad n f dual off ecc line) s = .next ((s.start.tileEcc n off line ecc).loadPlane n off (cellBits f dual)) := by
  obtain ⟨hgo, -, hbp⟩ := State.issues_iff.1 h
  have hopen' : (!((s.start.scull n).open_.any fun o => o.uses (1 - (s.start.scull n).active) || o.stores)) = true := by rw [Bool.not_eq_true']; exact hopen
  rw [exec_weightPlaneLoad, execWeightPlaneLoad]
  rw [if_pos ⟨hgo, hopen'⟩, State.withBp_of_no_slot hbp]

theorem exec_accumulatorDrain_of_issues {e r : Fin 32} (hopen : ((s.scull n).open_.any fun o => o.into e.val || o.touches r.val) = false) :
    exec (.accumulatorDrain n e r) s = .next (((s.start.setScull n ((s.scull n).drained e r)).countSteps n 1).issuedOp n) := by
  obtain ⟨hgo, hrun, hbp⟩ := State.issues_iff.1 h
  have hopen' : (!((s.start.scull n).open_.any fun o => o.into e.val || o.touches r.val)) = true := by rw [Bool.not_eq_true']; exact hopen
  rw [exec_accumulatorDrain, execAccumulatorDrain]
  rw [if_pos ⟨hgo, hrun, hopen'⟩, State.withBp_of_no_slot hbp]
  rfl

end

/-- Settles O24: a load writes the shadow plane's row of the table, a drain the register's. -/
theorem weightPlanesAndDrains : Obligations.WeightPlanesAndDrains := by
  unfold Obligations.WeightPlanesAndDrains
  intro n s h hw x
  refine ⟨fun f dual off line ecc hopen => ⟨exec_weightPlaneLoad_of_issues h hopen f dual off line ecc, fun ha hecc => ?_⟩, ?_, fun e r hopen => ?_⟩
  · obtain ⟨y, hload, hplane, hacc, hvreg, hshadow, hmark, hactive⟩ := s.start.loadPlane_loads off (cellBits f dual) hw
    have hscull := (s.start.setScull n y).scull_issuedOp n
    rw [State.scull_setScull] at hscull
    refine ⟨(s.start.setScull n y).issuedOp n, ?_, ?_, ?_, ?_, ?_, fun i hi => ?_, fun i hi => ?_, fun i hi => ?_⟩
    · rw [exec_weightPlaneLoad_of_issues h hopen f dual off line ecc, hecc, ← hload]; rfl
    · rw [State.issuedOp_frame]; rfl
    · rw [hscull]; exact hplane
    · rw [hscull]; exact hacc
    · rw [hscull]; exact hvreg
    · rw [hscull]; exact (hshadow i hi).trans (s.weightAt_start _ _ _ _)
    · rw [hscull]; exact hmark i hi
    · rw [hscull]; exact hactive ha i hi
  · obtain ⟨hgo, -, hbp⟩ := State.issues_iff.1 h
    rw [exec_planeSwap, execPlaneSwap]
    dsimp only
    rw [if_pos hgo, State.withBp_of_no_slot hbp]
    rfl
  · have hx := exec_accumulatorDrain_of_issues h hopen
    have hacc := x.acc_drained e.val r.val
    have hsame := fun c => x.lane_drained_same (e := e.val) (r := r.val) (c := c)
    have hother := fun q c => x.lane_drained_ne (e := e.val) (r := r.val) (q := q) (c := c)
    change exec _ s = .next (((s.start.setScull n (x.drained e r)).countSteps n 1).issuedOp n) at hx
    generalize x.drained e r = y at hx hacc hsame hother
    have hscull := ((s.start.setScull n y).countSteps n 1).scull_issuedOp n
    rw [State.scull_countSteps, State.scull_setScull] at hscull
    refine ⟨_, hx, ?_, ?_, fun c hc => ?_, fun q c hq hc => ?_⟩
    · rw [State.issuedOp_frame, State.countSteps_frame]; rfl
    · rw [hscull]; exact hacc
    · rw [hscull]; exact hsame c hc
    · rw [hscull]; exact hother q c hc hq

/-! ### Checkers and windows -/

section
variable (s : State) (n : Nat)

theorem State.scull_setA (a : Nat) : (s.setA n a).scull n = { s.scull n with windowSteps := 0, windowErrs := 0, quiet := 0 } := State.scull_setScull _ _ _

/-- A count of a closed step changes the window alone, and A with its rail where the window has too many errors (R289). -/
theorem State.windowStep_frame (errs : Nat) :
    s.windowStep n errs = { s with flds := (s.windowStep n errs).flds, pwr := (s.windowStep n errs).pwr, scl := (s.windowStep n errs).scl } := by
  unfold State.windowStep
  dsimp only
  split <;> rfl

theorem State.scull_windowStep (errs : Nat) :
    (s.windowStep n errs).scull n = { s.scull n with
      windowSteps := ((s.windowStep n errs).scull n).windowSteps, windowErrs := ((s.windowStep n errs).scull n).windowErrs,
      quiet := ((s.windowStep n errs).scull n).quiet } := by
  unfold State.windowStep
  dsimp only
  split
  · simp only [State.scull_setA, State.scull_setScull]
  · simp only [State.scull_setScull]

end

/-- Whether `v` differs from `s` in its register fields alone. -/
def State.OnlyFlds (s v : State) : Prop := v = { s with flds := v.flds }

theorem State.OnlyFlds.trans {s v w : State} (h : s.OnlyFlds v) (h' : v.OnlyFlds w) : s.OnlyFlds w := by
  unfold State.OnlyFlds at *
  rw [h', h]

theorem State.putIf_onlyFlds (s : State) (b : Bool) (f : RegField) (i v : Nat) : s.OnlyFlds (if b then s.put f i v else s) := by
  split <;> rfl

/-- A raise of the Scull's FP flags changes its register fields alone (R238). -/
theorem State.raiseFpx_onlyFlds (s : State) (n : Nat) (f : Fpx) : s.OnlyFlds (s.raiseFpx n f) :=
  ((((s.putIf_onlyFlds f.sat Fld.SCL_FPX_SAT n 1).trans (State.putIf_onlyFlds _ f.nv Fld.SCL_FPX_NV n 1)).trans
    (State.putIf_onlyFlds _ f.of_ Fld.SCL_FPX_OF n 1)).trans (State.putIf_onlyFlds _ f.uf Fld.SCL_FPX_UF n 1)).trans (State.putIf_onlyFlds _ f.nx Fld.SCL_FPX_NX n 1)

/-- The accumulators after an array step into entry `e` whose column `c` adds by `f c` (R230). -/
theorem Tbl.get_columns (f : Nat → Nat → Nat × Fpx) (t : Tbl Nat) (g : Fpx) (e n k : Nat) :
    Tbl.get 0 ((List.range n).foldl (fun (p : Tbl Nat × Fpx) c => (Tbl.set 0 p.1 (e + c) (f c (Tbl.get 0 p.1 (e + c))).1, p.2.or (f c (Tbl.get 0 p.1 (e + c))).2)) (t, g)).1 k =
      if e ≤ k ∧ k < e + n then (f (k - e) (Tbl.get 0 t k)).1 else Tbl.get 0 t k := by
  induction n with
  | zero => rw [if_neg (by omega)]; rfl
  | succ n ih =>
    rw [List.range_succ, List.foldl_append, List.foldl_cons, List.foldl_nil, Tbl.get_set]
    by_cases hlast : k = e + n
    · subst hlast
      rw [if_pos rfl, ih, if_neg (by omega), if_pos (by omega), Nat.add_sub_cancel_left]
    · rw [if_neg hlast, ih]
      by_cases hin : e ≤ k ∧ k < e + n
      · rw [if_pos hin, if_pos (by omega)]
      · rw [if_neg hin, if_neg (by omega)]

/-- The result of an array step at a column, on the weights of a plane (R230, R235). -/
def Scull.columnOf (x : Scull) (op : ArrayOp) (plane c acc : Nat) : Nat × Fpx :=
  columnStep op ((List.range 128).map fun row => Tbl.get 0 x.planes (plane * 65536 + row * 512 + c)) acc

/-- The accumulators and FP flags after an array step (R230). -/
def Scull.arrayAcc (x : Scull) (op : ArrayOp) (plane : Nat) : Tbl Nat × Fpx :=
  (List.range 512).foldl (fun (p : Tbl Nat × Fpx) c => (Tbl.set 0 p.1 (op.entry.val * 512 + c) (x.columnOf op plane c (Tbl.get 0 p.1 (op.entry.val * 512 + c))).1,
    p.2.or (x.columnOf op plane c (Tbl.get 0 p.1 (op.entry.val * 512 + c))).2)) (x.acc, {})

theorem Scull.get_arrayAcc (x : Scull) (op : ArrayOp) (plane : Nat) {c : Nat} (hc : c < 512) :
    Tbl.get 0 (x.arrayAcc op plane).1 (op.entry.val * 512 + c) = (x.columnOf op plane c (Tbl.get 0 x.acc (op.entry.val * 512 + c))).1 := by
  rw [Scull.arrayAcc, Tbl.get_columns (fun c acc => x.columnOf op plane c acc) x.acc {} (op.entry.val * 512) 512, if_pos (by omega), Nat.add_sub_cancel_left]

/-- The poison marks of the accumulators after an array step (R168). -/
def Scull.arrayMarks (x : Scull) (op : ArrayOp) (plane : Nat) : NatSet :=
  (List.range 256).foldl (fun m w => if op.poisoned || (List.range 128).any fun row =>
    NatSet.has x.planePoison (plane * 65536 + row * 512 + 2 * w) || NatSet.has x.planePoison (plane * 65536 + row * 512 + 2 * w + 1) then
      NatSet.add m (op.entry.val * 256 + w) else m) x.accPoison

/-- A confirmed array step changes the accumulators of its Scull with their marks, and the FP flags (R230). -/
theorem State.applyArray_eq (s : State) (n : Nat) (op : ArrayOp) (plane : Nat) : s.applyArray n op plane =
    (s.setScull n { s.scull n with acc := ((s.scull n).arrayAcc op plane).1, accPoison := (s.scull n).arrayMarks op plane }).raiseFpx n ((s.scull n).arrayAcc op plane).2 := by
  unfold State.applyArray Scull.arrayAcc Scull.arrayMarks Scull.columnOf
  dsimp only

/-- What a confirmed array step leaves (R230, R279). -/
theorem State.confirm_array {s : State} {n : Nat} {a : ArrayOp} {p : Nat} {later : List PendOp} (h : (s.scull n).open_ = .array a p :: later) :
    (s.confirm n).mem = s.mem ∧ ((s.confirm n).scull n).open_ = later ∧ ((s.confirm n).scull n).vreg = (s.scull n).vreg ∧
      ∀ c, c < 512 → Tbl.get 0 ((s.confirm n).scull n).acc (a.entry.val * 512 + c) = ((s.scull n).columnOf a p c (Tbl.get 0 (s.scull n).acc (a.entry.val * 512 + c))).1 := by
  have happly := (s.setScull n { s.scull n with open_ := later }).applyArray_eq n a p
  rw [State.scull_setScull] at happly
  have hacc : ∀ c, c < 512 → Tbl.get 0 (({ s.scull n with open_ := later } : Scull).arrayAcc a p).1 (a.entry.val * 512 + c) =
      ((s.scull n).columnOf a p c (Tbl.get 0 (s.scull n).acc (a.entry.val * 512 + c))).1 := fun c hc => Scull.get_arrayAcc _ a p hc
  generalize ({ s.scull n with open_ := later } : Scull).arrayAcc a p = r at happly hacc
  generalize ({ s.scull n with open_ := later } : Scull).arrayMarks a p = marks at happly
  obtain ⟨acc, f⟩ := r
  let x : Scull := { s.scull n with open_ := later, acc := acc, accPoison := marks }
  let v : State := (((s.setScull n { s.scull n with open_ := later }).setScull n x).raiseFpx n f)
  have hv : v = { (s.setScull n { s.scull n with open_ := later }).setScull n x with flds := v.flds } := State.raiseFpx_onlyFlds _ n f
  have hscull : v.scull n = x := by
    rw [hv]
    exact State.scull_setScull _ _ _
  have hdone : v.mem = s.mem ∧ (v.scull n).open_ = later ∧ (v.scull n).vreg = (s.scull n).vreg ∧
      ∀ c, c < 512 → Tbl.get 0 (v.scull n).acc (a.entry.val * 512 + c) = ((s.scull n).columnOf a p c (Tbl.get 0 (s.scull n).acc (a.entry.val * 512 + c))).1 := by
    refine ⟨?_, ?_, ?_, ?_⟩
    · rw [hv]; rfl
    · rw [hscull]
    · rw [hscull]
    · rw [hscull]; exact hacc
  unfold State.confirm
  rw [h]
  dsimp only
  rw [happly]
  split
  · exact hdone
  · exact hdone

theorem exec_catchCheckerClose_of_open {n : Fin 16} {late : Nat} {op : PendOp} {later : List PendOp} {s : State} (h : (s.scull n).open_ = op :: later) :
    exec (.catchCheckerClose n late) s = .next (if late = 0 then (s.start.confirm n).windowStep n 0
      else if late ≤ 3 then (((s.start.bump Fld.CATCH_ERR_CNT_CNT n 1).addTenths n (replayTenths (min late 3) (op.dependants later))).confirm n).windowStep n 1
      else (((s.start.bump Fld.CATCH_ERR_CNT_CNT n 1).addTenths n (replayTenths (min late 3) (op.dependants later))).windowStep n 1).escalate n) := by
  have h' : (s.start.scull n).open_ = op :: later := h
  simp only [exec_catchCheckerClose, execCatchCheckerClose, h']

/-- Settles O25: the close is timely, late or too late; a window's end counts it as quiet or not. -/
theorem checkersConfirmAndTheGovernorRaises : Obligations.CheckersConfirmAndTheGovernorRaises := by
  unfold Obligations.CheckersConfirmAndTheGovernorRaises
  refine ⟨fun n late op later s h => ?_, fun n s => ?_⟩
  · intro counted
    have hx := exec_catchCheckerClose_of_open (late := late) h
    refine ⟨fun hl => ?_, fun h1 h3 => ?_, fun h4 => ?_, Nat.min_le_left _ _, fun ar p hop hl => ?_⟩
    · rw [hx, if_pos hl]
    · rw [hx, if_neg (by omega), if_pos h3]
    · rw [hx, if_neg (by omega), if_neg (by omega)]
    · subst hop
      obtain ⟨hmem, hopen, hvreg, hacc⟩ := State.confirm_array (s := s.start) h
      have hscull := (s.start.confirm n).scull_windowStep n 0
      refine ⟨(s.start.confirm n).windowStep n 0, by rw [hx, if_pos hl], ?_, ?_, ?_, fun c hc => ?_⟩
      · rw [hscull]; exact hopen
      · rw [State.windowStep_frame]; exact hmem
      · rw [hscull]; exact hvreg
      · rw [hscull]; exact hacc c hc
  · intro x len q a mv hfull
    have hfull' : ¬ (s.start.scull n).windowSteps < 2 ^ s.start.get Fld.CATCH_GOV_CFG_WINDOW_LOG2 0 := Nat.not_lt.2 hfull
    have hx : exec (.catchWindowEnd n) s = .next (if 16 ≤ q ∧ a < s.get Fld.CATCH_CTRL_AGGR_MAX n ∧ (!s.flag Fld.CATCH_CTRL_ESC_LOCK n) = true ∧ x.monitorOk = true then
        s.start.setA n (a + 1) else s.start.setScull n { x with windowSteps := 0, windowErrs := 0, quiet := if 16 ≤ q then 0 else q }) := by
      rw [exec_catchWindowEnd, execCatchWindowEnd]
      exact congrArg _ (if_neg hfull')
    refine ⟨fun hq ha hlock hmon => ?_, fun hno => ?_⟩
    · rw [hx, if_pos ⟨hq, ha, by rw [hlock]; rfl, hmon⟩]
      rfl
    · rw [hx, if_neg]
      rintro ⟨hq, ha, hlock, hmon⟩
      rcases hno with h | h | h | h
      · omega
      · omega
      · simp [h] at hlock
      · simp [h] at hmon

end Sys2Proof.Machine
end

section
/-!
PROOFS. Chapter 6: a task's dispatch on a ready list that names another Scull's task, and the ends of a run: commit, watchdog, save area (R244 to R246, R249, R251).
-/
namespace Sys2Proof.Machine

/-! ### Dispatch -/

/-- A task without rings, values or a save area, that is ready. -/
def readyTask : Task :=
  { id := 0, lane := 0xFF, cls := 0, prio := 0, nIn := 0, nOut := 0, ctx := 0, deadlineNs := 0, envelope := 0, saveLen := 0, part := 0, model := 0, ins := [], outs := [], st := .ready }

/-- Scull 0 is on and its ready list names the numbers 65,536 and 0. The key of number 65,536 of Scull 0 is that of number 0 of Scull 1, and a ready task is there. -/
def overlongReady : State :=
  let s := State.reset.put Fld.PWR_STATE_ON 0 1
  { s with ready := [(0, [65536, 0])], tasks := [(65536, some readyTask)] }

/-- The dispatch takes the task's number, 0, off the list of Scull 1, and leaves the list of Scull 0. -/
theorem dispatch_leaves_overlong_ready :
    (match exec (.taskDispatch 0) overlongReady with
      | .next u => decide (Tbl.get [] u.ready 0 = [65536, 0])
      | _ => false) = true := by
  decide +kernel

/-- Refutes O26: the statement is of every state, also of one whose ready list names a task number of 65,536 or more. There the first of the list is a task of another
Scull, whose own list the dispatch shortens. On lists of 16-bit numbers this does not happen. -/
theorem not_tasksBecomeReadyAndRun : ¬ Obligations.TasksBecomeReadyAndRun := by
  unfold Obligations.TasksBecomeReadyAndRun
  rintro ⟨-, hdispatch⟩
  obtain ⟨-, -, hruns⟩ := hdispatch 0 65536 readyTask overlongReady (by decide +kernel) (by decide +kernel) (by decide +kernel) (by decide +kernel) (by decide +kernel)
  obtain ⟨u, hu, -, -, -, -, -, -, hlist⟩ := hruns rfl (by decide +kernel) (by decide +kernel) (by simp [readyTask])
  have hleft := dispatch_leaves_overlong_ready
  rw [hu] at hleft
  have hsame : Tbl.get [] u.ready (0 : Fin 16).val = [65536, 0] := of_decide_eq_true hleft
  rw [hsame] at hlist
  exact absurd hlist (by decide +kernel)

/-! ### A word that the unit writes for itself (R121, R245) -/

/-- A masked write keeps every byte of memory at another offset. -/
theorem State.rdByte_wrMasked_ne {s : State} {a mask c : Nat} {bs : List Byte} (h : ∀ j, j < bs.length → localOff c ≠ localOff (a + j)) :
    (s.wrMasked a mask bs).rdByte c = s.rdByte c := by
  induction bs generalizing s a mask with
  | nil => rfl
  | cons b bs ih =>
    have hrest : ∀ j, j < bs.length → localOff c ≠ localOff (a + 1 + j) := fun j hj => by
      rw [show a + 1 + j = a + (j + 1) by omega]
      exact h (j + 1) (by simpa using hj)
    rw [State.wrMasked, ih hrest]
    split
    · exact s.rdByte_wrByte_ne _ _ b (h 0 (by simp))
    · rfl

/-- The bytes of a masked write that does not wrap around the end of a package's memory: the masked ones are written, and no other. -/
theorem State.rdByte_wrMasked {s : State} {a mask i : Nat} {bs : List Byte} (hwrap : ∀ j, j < bs.length → localOff (a + j) = localOff a + j) (hi : i < bs.length) :
    (s.wrMasked a mask bs).rdByte (a + i) = if mask / 2 ^ i % 2 = 1 then bs.getD i 0 else s.rdByte (a + i) := by
  induction bs generalizing s a mask i with
  | nil => exact absurd hi (by simp)
  | cons b bs ih =>
    have hnext : ∀ j, j < bs.length → localOff (a + 1 + j) = localOff a + (j + 1) := fun j hj => by
      rw [show a + 1 + j = a + (j + 1) by omega]
      exact hwrap (j + 1) (by simpa using hj)
    rw [State.wrMasked]
    cases i with
    | zero =>
      rw [State.rdByte_wrMasked_ne fun j hj => by rw [hnext j hj]; simp]
      simp only [Nat.pow_zero, Nat.div_one, Nat.add_zero, List.getD_cons_zero]
      split
      · exact s.rdByte_wrByte_same a b
      · rfl
    | succ i =>
      have hi' : i < bs.length := by simpa using hi
      have hone : localOff (a + 1) = localOff a + 1 := hnext 0 (by omega)
      have hfirst : localOff (a + (i + 1)) ≠ localOff a := by
        rw [hwrap (i + 1) hi]
        omega
      rw [show a + (i + 1) = a + 1 + i by omega, ih (fun j hj => by rw [hnext j hj, hone]; omega) hi', List.getD_cons_succ,
        Nat.pow_succ, Nat.mul_comm, ← Nat.div_div_eq_div_mul]
      split
      · rfl
      · split
        · rw [show a + 1 + i = a + (i + 1) by omega]
          exact s.rdByte_wrByte_ne _ _ b hfirst
        · rfl

section
variable {s : State} {r v : Nat}

/-- A line that no cache holds is written where it stands. -/
theorem State.ownWrite_unheld {a : Nat} (hd : s.dirLine (lineOf a) = {}) (mask : Nat) (bytes : List Byte) (poison : Nat) :
    s.ownWrite a mask bytes poison = s.wrLine (a / 64 * 64) mask bytes poison := by
  have hnone : ({} : DirLine).holders = [] := by decide
  have hclaim : s.claim (lineOf a) mask = s := by
    rw [State.claim, hd, hnone]
    rfl
  have hd' : (s.wrLine (a / 64 * 64) mask bytes poison).dirLine (lineOf a) = {} := by
    rw [← hd, State.dirLine, State.wrLine_coh]
    rfl
  rw [State.ownWrite, hclaim]
  dsimp only
  rw [hd', hnone]
  rfl

/-- A count of a ring that no cache holds is written into the 8 bytes of its line (Table 6.4). -/
theorem State.ownNat_count (hr : r % 64 = 0) (hd : s.dirLine (lineOf (r + 0x20)) = {}) :
    s.ownNat (r + 0x20) 8 v = s.wrLine r (255 * 2 ^ 32) (List.replicate 32 0 ++ leBytes 8 v) 0 := by
  have hlen : (leBytes 8 v).length = 8 := leBytes_length 8 v
  have hne : leBytes 8 v ≠ [] := fun h => by simp [h] at hlen
  have hlines : rangeFrom ((r + 0x20) / 64) ((r + 0x20 + 8 - 1) / 64 + 1 - (r + 0x20) / 64) = [r / 64] := by
    rw [show (r + 0x20) / 64 = r / 64 by omega, show (r + 0x20 + 8 - 1) / 64 + 1 - r / 64 = 1 by omega]
    rfl
  have hline : r / 64 * 64 = r := by omega
  have hd' : s.dirLine (lineOf r) = {} := by
    rw [← hd, lineOf, lineOf]
    congr 1
    unfold localOff
    omega
  rw [State.ownNat, State.ownBytes, if_neg hne, hlen, hlines, List.foldl_cons, List.foldl_nil]
  simp only [hline]
  rw [show max (r + 0x20) r = r + 0x20 by omega, show min (r + 0x20 + 8) (r + 64) - (r + 0x20) = 8 by omega, show r + 0x20 - r = 32 by omega,
    Nat.sub_self, List.drop_zero, List.take_of_length_le (by rw [hlen]), State.ownWrite_unheld hd', hline,
    show (2 ^ 8 - 1) * 2 ^ 32 = 255 * 2 ^ 32 from rfl]

/-- The count reads as written. -/
theorem State.coherentNat_ownNat (hr : r % 64 = 0) (hd : s.dirLine (lineOf (r + 0x20)) = {}) :
    (s.ownNat (r + 0x20) 8 v).coherentNat (r + 0x20) 8 = v % 2 ^ 64 := by
  have hlen : (List.replicate 32 (0 : Byte) ++ leBytes 8 v).length = 40 := by simp [leBytes_length]
  have hwrap : ∀ j, j < 40 → localOff (r + j) = localOff r + j := fun j hj => by
    unfold localOff
    omega
  have hbyte : ∀ i, i < 8 → (s.ownNat (r + 0x20) 8 v).coherentByte (r + 0x20 + i) = (leBytes 8 v).getD i 0 := fun i hi => by
    have hsame : lineOf (r + 0x20 + i) = lineOf (r + 0x20) := by
      unfold lineOf localOff
      omega
    have hclean : (s.ownNat (r + 0x20) 8 v).dirty (lineOf (r + 0x20 + i)) = none := by
      have hdir : (s.ownNat (r + 0x20) 8 v).dirLine (lineOf (r + 0x20)) = {} := by
        rw [← hd, State.ownNat_count hr hd, State.dirLine, State.wrLine_coh]
        rfl
      rw [hsame, State.dirty, hdir]
      rfl
    have hmem : (s.ownNat (r + 0x20) 8 v).mem = (s.wrMasked r (255 * 2 ^ 32) (List.replicate 32 0 ++ leBytes 8 v)).mem := by
      rw [State.ownNat_count hr hd, State.wrLine_mem]
    have hmask : 255 * 2 ^ 32 / 2 ^ (32 + i) % 2 = 1 := by interval_cases i <;> rfl
    rw [State.coherentByte, hclean]
    dsimp only
    rw [State.rdByte, hmem, show r + 0x20 + i = r + (32 + i) by omega]
    refine (State.rdByte_wrMasked (by rw [hlen]; exact hwrap) (by rw [hlen]; omega)).trans ?_
    rw [if_pos hmask, List.getD_append_right _ _ _ _ (by simp)]
    simp
  have hbytes : (List.range 8).map (fun i => (s.ownNat (r + 0x20) 8 v).coherentByte (r + 0x20 + i)) = leBytes 8 v := by
    refine List.ext_getElem (by simp [leBytes_length]) fun i h1 h2 => ?_
    rw [leBytes_length] at h2
    simp [hbyte i h2, leBytes_length, h2]
  rw [State.coherentNat, hbytes, leNat_leBytes, show (256 : Nat) ^ 8 = 2 ^ 64 from rfl]

end

/-! ### Commits (R244) -/

/-- Whether two states have the same memory, coherence state and lanes. -/
structure State.SameMemory (s v : State) : Prop where
  mem : v.mem = s.mem
  coh : v.coh = s.coh
  lanes : v.lanes = s.lanes

namespace State.SameMemory
variable {s v w : State}

theorem trans (h : s.SameMemory v) (h' : v.SameMemory w) : s.SameMemory w :=
  ⟨h'.mem.trans h.mem, h'.coh.trans h.coh, h'.lanes.trans h.lanes⟩

theorem dirty_eq (h : s.SameMemory v) (l : Nat) : v.dirty l = s.dirty l := by
  unfold State.dirty State.dirLine State.copy State.flightOf
  rw [h.coh]

theorem coherentByte_eq (h : s.SameMemory v) (a : Nat) : v.coherentByte a = s.coherentByte a := by
  unfold State.coherentByte State.rdByte
  rw [h.dirty_eq, h.mem]

theorem coherentNat_eq (h : s.SameMemory v) (a n : Nat) : v.coherentNat a n = s.coherentNat a n := by
  unfold State.coherentNat
  simp only [h.coherentByte_eq]

end State.SameMemory

section
variable (s : State)

theorem State.bump_sameMemory (f : RegField) (i n : Nat) : s.SameMemory (s.bump f i n) := ⟨rfl, rfl, rfl⟩

theorem State.setTask_sameMemory (k : Nat) (t : Task) : s.SameMemory (s.setTask k t) := ⟨rfl, rfl, rfl⟩

theorem State.showScull_sameMemory (n : Nat) : s.SameMemory (s.showScull n) := ⟨rfl, rfl, rfl⟩

theorem State.issuedOp_sameMemory (n : Nat) : s.SameMemory (s.issuedOp n) := by
  rw [State.issuedOp_frame]
  exact ⟨rfl, rfl, rfl⟩

theorem State.dropValues_sameMemory (k : Nat) : s.SameMemory (s.dropValues k) := by
  unfold State.dropValues
  dsimp only
  split <;> exact ⟨rfl, rfl, rfl⟩

/-- The energy of a task that serves no lane reaches no lane (R306). -/
theorem State.addEnergy_sameMemory (n : Nat) {t : Task} (hl : 64 ≤ t.lane) : s.SameMemory (s.addEnergy n t) := by
  unfold State.addEnergy State.laneEnergy
  dsimp only
  rw [if_neg (Nat.not_lt.2 hl)]
  split <;> exact ⟨rfl, rfl, rfl⟩

/-- A commit of a task that serves no lane, all of whose writes were performed, leaves memory as they left it (R244). -/
theorem State.commit_sameMemory {s v : State} {k : Nat} {t : Task} {w : CommitW} (hperf : s.performCommit (k / 65536) w = (true, v)) (hl : 64 ≤ t.lane) :
    v.SameMemory (s.commit k t w) := by
  have hdone : v.SameMemory (((v.setTask k { t.next with st := .done }).dropValues k).addEnergy (k / 65536) t) :=
    ((v.setTask_sameMemory k _).trans (State.dropValues_sameMemory _ k)).trans (State.addEnergy_sameMemory _ _ hl)
  unfold State.commit
  dsimp only
  rw [hperf]
  dsimp only
  rw [if_neg (Nat.not_lt.2 hl)]
  refine State.SameMemory.trans ?_ (State.showScull_sameMemory _ _)
  split
  · exact hdone.trans (State.bump_sameMemory _ _ _ _)
  · exact hdone

/-- A lane that holds no entry has none to take in. -/
theorem State.flushHeld_of_none {l : Nat} (h : (s.lane l).held = none) : s.flushHeld l = s := by
  unfold State.flushHeld
  rw [h]

end

/-- A commit of a task with one one-sided output that the ring's unit takes raises PUB by the output's bytes (R244). -/
theorem State.ringPub_commit {s : State} {n k r b : Nat} {t : Task} {given : List Nat} (hout : t.outs = [(r, b, false)]) (hin : t.ins = []) (hl : t.lane = 0xFF)
    (hheld : (s.lane 0xFF).held = none) (hle : s.ringConsumer r ≠ 0x130) (hle' : s.ringConsumer r ≠ 0x131) (hr : r % 64 = 0) (hd : s.dirLine (lineOf (r + 0x20)) = {})
    (hans : s.answers n (r + 0x20) = true) (hk : k / 65536 = n) :
    (((s.issuedOp n).commit k t (s.commitWrites t given)).flushHeld t.lane).ringPub r = (s.ringPub r + b) % 2 ^ 64 := by
  have hw : s.commitWrites t given = ⟨[(r + 0x20, 8, (s.ringPub r + b) % 2 ^ 64)], []⟩ := by
    simp [State.commitWrites, hout, hin, State.givenBytes, hle, hle', List.range_succ]
  let v : State := (s.issuedOp n).ownNat (r + 0x20) 8 ((s.ringPub r + b) % 2 ^ 64)
  have hsame := s.issuedOp_sameMemory n
  have hans' : (s.issuedOp n).answers n (r + 0x20) = true := by
    rw [← hans, State.issuedOp_frame]
    rfl
  have hd' : (s.issuedOp n).dirLine (lineOf (r + 0x20)) = {} := by
    rw [State.dirLine, hsame.coh]
    exact hd
  have hperf : (s.issuedOp n).performCommit (k / 65536) (s.commitWrites t given) = (true, v) := by
    rw [hw, hk]
    simp [State.performCommit, hans', v]
  have hcommit := State.commit_sameMemory (t := t) hperf (by omega)
  have hlanes : ((s.issuedOp n).commit k t (s.commitWrites t given)).lane t.lane = s.lane 0xFF := by
    have hv : v.lanes = (s.issuedOp n).lanes := by
      dsimp only [v]
      rw [State.ownNat_count hr hd', State.wrLine_onlyMemory]
    rw [hl, State.lane, hcommit.lanes, hv, hsame.lanes]
    rfl
  rw [State.flushHeld_of_none _ (by rw [hlanes]; exact hheld), State.ringPub, hcommit.coherentNat_eq, State.coherentNat_ownNat hr hd', Nat.mod_mod]

section
variable {s : State} {n : Fin 16} {k : Nat} {t : Task}

/-- The running task's commit: its transfers, its outputs and its own accesses decide (R209, R244, R254). -/
theorem exec_taskCommit_of_issues (h : s.start.issues n = true) (hkt : s.running n = some (k, t)) (given : List Nat) :
    exec (.taskCommit n given) s = .next (
      if (s.start.transfers k).2 = true then s.start.switchOut k
      else if (s.start.transfers k).1 = true ∨ (!s.start.outRoom t given) = true then (s.start.setTask k { t with st := .blocked }).showScull n
      else if (s.start.scull n).open_ ≠ [] ∨ s.start.outstanding (s.start.taskTag n t) = true then s.start
      else if t.poisoned = true then (s.start.bump Fld.MEM_POISON_CNT_CNT 0 1).attemptEnd k stPOISONED
      else ((s.start.issuedOp n).commit k t (s.start.commitWrites t given)).flushHeld t.lane) := by
  obtain ⟨hgo, -, hbp⟩ := State.issues_iff.1 h
  have hkt' : s.start.running n = some (k, t) := hkt
  rw [exec_taskCommit, execTaskCommit]
  dsimp only
  rw [hgo, hkt']
  dsimp only
  rw [State.withBp_of_no_slot hbp]

/-- A commit cut short is repeated with the same values (R245). -/
theorem exec_taskCommit_committing (hgo : s.sclGo n = true) (hrun : s.running n = none) (hkt : s.taskIn n .committing = some (k, t)) (given : List Nat) :
    exec (.taskCommit n given) s = .next ((s.start.commit k t (t.commit.getD ⟨[], []⟩)).flushHeld t.lane) := by
  have hgo' : s.start.sclGo n = true := hgo
  have hrun' : s.start.running n = none := hrun
  have hkt' : s.start.taskIn n .committing = some (k, t) := hkt
  rw [exec_taskCommit, execTaskCommit]
  dsimp only
  rw [hgo', hrun', hkt']

end

/-- Settles O27: a commit takes the first of its branches that applies; a watchdog and a written save area find their task. -/
theorem tasksCommitOrEnd : Obligations.TasksCommitOrEnd := by
  unfold Obligations.TasksCommitOrEnd
  refine ⟨fun n given k t s h hkt => ?_, fun n given k t s hgo hrun hkt => exec_taskCommit_committing hgo hrun hkt given,
    fun n k t s hkt hover => ?_, fun n id st t s ht hst hsaving hfree => ?_⟩
  · intro clear
    have hx := exec_taskCommit_of_issues h hkt given
    refine ⟨fun hfault => ?_, fun hfault hwait => ?_, fun htr hroom => ?_⟩
    · have hfault' : (s.start.transfers k).2 = true := hfault
      rw [hx, if_pos hfault']
    · have hfault' : ¬ (s.start.transfers k).2 = true := fun h => absurd (hfault.symm.trans h) (by decide)
      have hwait' : (s.start.transfers k).1 = true ∨ (!s.start.outRoom t given) = true := by
        rw [Bool.not_eq_true']
        exact hwait
      rw [hx, if_neg hfault', if_pos hwait']
    · have htr' : s.start.transfers k = (false, false) := htr
      have hgo : ¬ ((s.start.transfers k).1 = true ∨ (!s.start.outRoom t given) = true) := by
        rw [htr', Bool.not_eq_true', not_or]
        exact ⟨Bool.false_ne_true, fun hfull => absurd (hroom.symm.trans hfull) (by decide)⟩
      rw [if_neg (by rw [htr']; exact Bool.false_ne_true), if_neg hgo] at hx
      have hclear : clear ↔ ¬ ((s.start.scull n).open_ ≠ [] ∨ s.start.outstanding (s.start.taskTag n t) = true) := by
        rw [not_or, not_not, Bool.not_eq_true]
        exact Iff.rfl
      refine ⟨fun hopen => ?_, fun hc hpoison => ?_, fun hc hsound => ⟨?_, ?_⟩⟩
      · rw [hx, if_pos (by rw [hclear, not_not] at hopen; exact hopen)]
      · rw [hx, if_neg (hclear.1 hc), if_pos hpoison]
      · rw [hx, if_neg (hclear.1 hc), if_neg (by rw [hsound]; exact Bool.false_ne_true)]
        rfl
      · intro r b hout hin hl hheld hle hle' hr hd hans hk
        rw [if_neg (hclear.1 hc), if_neg (by rw [hsound]; exact Bool.false_ne_true)] at hx
        exact ⟨_, hx, State.ringPub_commit (s := s.start) hout hin hl hheld hle hle' hr hd hans hk⟩
  · have hkt' : s.start.running n = some (k, t) := hkt
    rw [exec_taskWatchdogExpiry, execTaskWatchdogExpiry]
    rw [hkt']
    dsimp only
    rw [if_pos hover]
  · intro kept u
    have ht' : s.start.task (taskKey n id) = some t := ht
    have hgo : ¬ (t.st ≠ .switchedOut ∨ (!t.saving) = true ∨ ((s.start.scull n).owner = some (taskKey n id) ∧ (s.start.scull n).open_ ≠ [])) := by
      rintro (h | h | h)
      · exact h hst
      · simp [hsaving] at h
      · exact hfree h
    refine ⟨fun hbad => ?_, fun hok => ?_⟩
    · rw [exec_saveAreaWritten, execSaveAreaWritten]
      dsimp only
      rw [ht']
      dsimp only
      rw [if_neg hgo, if_neg hbad]
    · rw [exec_saveAreaWritten, execSaveAreaWritten]
      dsimp only
      rw [ht']
      dsimp only
      rw [if_neg hgo, if_pos hok]
      rfl

end Sys2Proof.Machine
end

section
/-!
PROOFS. Chapters 12 and 17: the host's link and its functions, and what the module reports (R30, R356, R479, R491, R492, R639, R645, R653 to R666).
-/
namespace Sys2Proof.Machine

/-! ### The reference accelerometer (R356) -/

/-- A lane whose rejection coefficients begin again now. -/
def State.restartCoef (s : State) (l : Nat) : State := s.setLane l { s.lane l with coefAt := s.dev }

theorem State.foldl_restartCoef_frame (ls : List Nat) (s : State) :
    ls.foldl State.restartCoef s = { s with lanes := (ls.foldl State.restartCoef s).lanes } := by
  induction ls generalizing s with
  | nil => rfl
  | cons l ls ih =>
    rw [List.foldl_cons, ih]
    rfl

theorem State.lane_setLane_ne (s : State) {l k : Nat} (x : LaneSt) (h : k ≠ l) : (s.setLane l x).lane k = s.lane k := Tbl.get_set_ne _ _ _ h

/-- Every lane of the list begins again, once or more often, and no other changes. -/
theorem State.foldl_restartCoef_lane (ls : List Nat) (s : State) (k : Nat) :
    (ls.foldl State.restartCoef s).lane k = if k ∈ ls then { s.lane k with coefAt := s.dev } else s.lane k := by
  induction ls generalizing s with
  | nil => rfl
  | cons l ls ih =>
    have hdev : (s.restartCoef l).dev = s.dev := rfl
    rw [List.foldl_cons, ih, hdev]
    by_cases hk : k = l
    · subst hk
      have hlane : (s.restartCoef k).lane k = { s.lane k with coefAt := s.dev } := s.lane_setLane k _
      rw [hlane, if_pos List.mem_cons_self, ite_self]
    · have hlane : (s.restartCoef l).lane k = s.lane k := s.lane_setLane_ne _ hk
      simp only [hlane, List.mem_cons, hk, false_or]

/-- Settles O53: each event comes down to one branch of its command. -/
theorem moduleEventsAreRecordedOnce : Obligations.ModuleEventsAreRecordedOnce := by
  unfold Obligations.ModuleEventsAreRecordedOnce
  refine ⟨fun d g s => ?_, fun s => ?_, fun n l s hn hl => ?_, fun s => ⟨fun h => ?_, fun h => ?_⟩, fun d p s => ⟨?_, ?_, ?_⟩,
    fun hot s => exec_thermalCap .., fun s => ?_⟩
  · intro k r
    refine ⟨fun hon hoff => ?_, fun hoff => ⟨?_, fun hon => ?_⟩⟩
    · have hgo : ¬ ((!s.start.fldOn d) = true ∨ NatSet.has s.start.mod.segOff (d.val * 4 + g.val) = true) := by
        rintro (h | h)
        · exact absurd ((Bool.not_eq_true' _).mp h) (by rw [show s.start.fldOn d = true from hon]; decide)
        · exact absurd (hoff.symm.trans h) (by decide)
      rw [exec_nodePowerOvercurrent, execNodePowerOvercurrent]
      rw [if_neg hgo]
      rfl
    · have hgo : ¬ (!NatSet.has s.start.mod.segOff (d.val * 4 + g.val)) = true := by
        rw [show NatSet.has s.start.mod.segOff (d.val * 4 + g.val) = true from hoff]
        decide
      rw [exec_nodePowerRetry, execNodePowerRetry]
      rw [if_neg hgo, if_pos rfl]
    · have hgo : ¬ (!NatSet.has s.start.mod.segOff (d.val * 4 + g.val)) = true := by
        rw [show NatSet.has s.start.mod.segOff (d.val * 4 + g.val) = true from hoff]
        decide
      have hon' : State.fldOn { s.start with mod := { s.start.mod with segOff := NatSet.del s.start.mod.segOff (d.val * 4 + g.val) } } d = true := hon
      rw [exec_nodePowerRetry, execNodePowerRetry]
      rw [if_neg hgo, if_neg Bool.false_ne_true]
      dsimp only
      rw [if_pos hon']
      rfl
  · rw [exec_supplyShort, execSupplyShort]
    rw [if_pos (show (0 : Fin 7).val = 0 from rfl)]
    rfl
  · have hn' : ¬ n.val = 0 := fun h => hn (Fin.ext h)
    have hl' : (s.start.emit (.pin 5 n.val)).tdmLane ((n.val - 1) / 2) ((n.val - 1) % 2) = some l := hl
    rw [exec_supplyShort, execSupplyShort]
    dsimp only
    rw [if_neg hn', hl']
  · rw [exec_referenceAccelFault, execReferenceAccelFault]
    rw [if_neg (by rw [show s.start.mod.refBypass = false from h]; decide)]
    rfl
  · have hgo : ¬ ((!s.start.mod.refBypass) = true ∨ (!true) = true) := by
      rw [show s.start.mod.refBypass = true from h]
      decide
    refine ⟨((List.range 64).filter s.start.laneAdmitted).foldl State.restartCoef { s.start with mod := { s.start.mod with refBypass := false } }, ?_, ?_, fun l => ?_⟩
    · rw [exec_referenceAccelRetry, execReferenceAccelRetry]
      rw [if_neg hgo]
      rfl
    · exact State.foldl_restartCoef_frame _ _
    · rw [State.foldl_restartCoef_lane]
      have hmem : l.val ∈ (List.range 64).filter s.start.laneAdmitted ↔ s.laneAdmitted l = true := by
        simp [l.isLt]
        rfl
      simp only [hmem]
      rfl
  · rw [exec_transceiverInsert, execTransceiverInsert]
    rw [if_pos rfl]
    rfl
  · rw [exec_transceiverInsert, execTransceiverInsert]
    rw [if_neg Bool.false_ne_true]
    rfl
  · exact exec_transceiverRemove ..
  · intro u
    rw [exec_thermalTrip, execThermalTrip]
    by_cases hphase : s.boot.phase = .powerFail
    · have hphase' : s.start.boot.phase = .powerFail := hphase
      rw [if_pos hphase, if_pos hphase']
      rfl
    · have hphase' : ¬ s.start.boot.phase = .powerFail := hphase
      rw [if_neg hphase, if_neg hphase']
      rfl

/-! ### The host's link and its functions (R30, R479, R491, R492, R645) -/

/-- What a function level reset sets to 0. -/
def flrFields : List RegField :=
  [Fld.RPT_RING_BASE_BASE, Fld.RPT_RING_PROD_PROD, Fld.RPT_RING_CONS_CONS, Fld.HOST_MB_BASE_BASE, Fld.HOST_MB_CQ_BASE_BASE,
   Fld.HOST_MB_CFG_ENABLE, Fld.HOST_MB_TAIL_TAIL, Fld.HOST_MB_HEAD_HEAD, Fld.HOST_MB_CQ_HEAD_CQ_HEAD]

theorem seq_apart_flrFields : ∀ f : Fin 8, ∀ r ∈ flrFields, Fld.HOST_MB_NEXT_SEQ_SEQ.key f ≠ r.key f := by decide

theorem dup_apart_flrFields : ∀ f : Fin 8, ∀ r ∈ flrFields, Fld.HOST_MB_DUP_CNT_CNT.key f ≠ r.key f := by decide

theorem State.foldl_put_zero_onlyFlds (fs : List RegField) (f : Nat) (s : State) : s.OnlyFlds (fs.foldl (fun s r => s.put r f 0) s) := by
  induction fs generalizing s with
  | nil => rfl
  | cons r fs ih => exact State.OnlyFlds.trans (v := s.put r f 0) rfl (ih _)

/-- A field that no field of the list shares its place with keeps its value. -/
theorem State.get_foldl_put_zero_ne {g : RegField} {f : Nat} {fs : List RegField} (h : ∀ r ∈ fs, g.key f ≠ r.key f) (s : State) :
    (fs.foldl (fun s r => s.put r f 0) s).get g f = s.get g f := by
  induction fs generalizing s with
  | nil => rfl
  | cons r fs ih =>
    rw [List.foldl_cons, ih (fun r' hr' => h r' (List.mem_cons_of_mem _ hr')), s.get_put_ne _ _ _ _ _ (h r List.mem_cons_self)]

/-- A field that reads 0 and is 0 at reset reads 0 after a write of 0, wherever that went. -/
theorem State.get_put_zero {g : RegField} (hg : g.reset = 0) {s : State} {j : Nat} (h : s.get g j = 0) (r : RegField) (i : Nat) : (s.put r i 0).get g j = 0 := by
  by_cases hk : g.key j = r.key i
  · rw [State.get, State.put, hk, Nat.zero_mod, Tbl.set]
    split
    · rw [Tbl.get_erase_same, hg]
    · exact Tbl.get_insert_same _ _ _ _
  · rw [State.get_put_ne _ _ _ _ _ _ hk, h]

/-- Every field of the list that is 0 at reset reads 0. -/
theorem State.get_foldl_put_zero {g : RegField} {fs : List RegField} (hg : g.reset = 0) {f : Nat} {s : State} (h : g ∈ fs ∨ s.get g f = 0) :
    (fs.foldl (fun s r => s.put r f 0) s).get g f = 0 := by
  induction fs generalizing s with
  | nil => exact h.resolve_left List.not_mem_nil
  | cons r fs ih =>
    rw [List.foldl_cons]
    rcases h with h | h
    · rcases List.mem_cons.mp h with rfl | h
      · exact ih (.inr (by simp))
      · exact ih (.inl h)
    · exact ih (.inr (State.get_put_zero hg h _ _))

theorem flrFields_reset : ∀ r ∈ flrFields, r.reset = 0 := by
  decide

theorem State.hostDown_get (s : State) :
    s.hostDown.get Fld.HOST_LINK_STATUS_UP 0 = 0 ∧ s.hostDown.get Fld.HOST_LINK_STATUS_SPEED 0 = 0 ∧ s.hostDown.get Fld.HOST_LINK_STATUS_WIDTH 0 = 0 := by
  refine ⟨?_, ?_, State.get_put_same _ _ _ _⟩
  · rw [State.hostDown, State.get_put_ne _ _ _ _ _ _ (by decide), State.get_put_ne _ _ _ _ _ _ (by decide), State.get_put_same]
    rfl
  · rw [State.hostDown, State.get_put_ne _ _ _ _ _ _ (by decide), State.get_put_same]
    rfl

/-- Settles O47: what each link event shows, and what a function's reset sets. -/
theorem hostLinksComeAndGo : Obligations.HostLinksComeAndGo := by
  unfold Obligations.HostLinksComeAndGo
  refine ⟨fun f s hf => ?_, fun s => ?_, fun k w s hon hperst hphase => ?_, fun f v s => exec_interruptIntervalExpiry ..⟩
  · have hgo : ¬ (f.val ≠ 0 ∧ (Tbl.get none s.start.boot.parts f).isNone = true) := by
      rintro ⟨hne, hnone⟩
      rcases hf with rfl | hp
      · exact hne rfl
      · rw [show Tbl.get none s.boot.parts f = none from Option.isNone_iff_eq_none.mp hnone] at hp
        exact Bool.false_ne_true hp
    refine ⟨{ s.start.flrRegs f with host := { s.host with cqCount := Tbl.set 0 s.host.cqCount f 0 } }, ?_, ?_, rfl, ?_, fun r hr => ?_, ?_, ?_⟩
    · rw [exec_functionLevelReset, execFunctionLevelReset]
      rw [if_neg hgo]
      rfl
    · have h : s.start.OnlyFlds (s.start.flrRegs f) := s.start.foldl_put_zero_onlyFlds flrFields f
      unfold State.OnlyFlds at h
      rw [h]
    · exact Tbl.get_set_same 0 s.host.cqCount f 0
    · exact State.get_foldl_put_zero (fs := flrFields) (s := s.start) (flrFields_reset r hr) (.inl hr)
    · exact State.get_foldl_put_zero_ne (fs := flrFields) (seq_apart_flrFields f) s.start
    · exact State.get_foldl_put_zero_ne (fs := flrFields) (dup_apart_flrFields f) s.start
  · exact ⟨_, exec_pcieLinkDown .., rfl, s.start.hostDown_get⟩
  · have hgo : ¬ ((!s.start.domOn 70) = true ∨ s.start.mod.perst = true ∨ s.start.boot.phase = .powerFail) := by
      rintro (h | h | h)
      · exact absurd ((Bool.not_eq_true' _).mp h) (by rw [show s.start.domOn 70 = true from hon]; decide)
      · exact absurd (hperst.symm.trans h) (by decide)
      · exact hphase h
    refine ⟨((s.start.put Fld.HOST_LINK_STATUS_UP 0 1).put Fld.HOST_LINK_STATUS_SPEED 0 k.val).put Fld.HOST_LINK_STATUS_WIDTH 0 w.toNat, ?_, rfl, ?_, ?_, ?_⟩
    · rw [exec_pcieLinkUp, execPcieLinkUp]
      rw [if_neg hgo]
    · rw [State.get_put_ne _ _ _ _ _ _ (by decide), State.get_put_ne _ _ _ _ _ _ (by decide), State.get_put_same]
      rfl
    · rw [State.get_put_ne _ _ _ _ _ _ (by decide), State.get_put_same]
      exact Nat.mod_eq_of_lt (by have := k.isLt; simp [Fld.HOST_LINK_STATUS_SPEED]; omega)
    · rw [State.get_put_same]
      exact Nat.mod_eq_of_lt (by have := w.isLt; simp [Fld.HOST_LINK_STATUS_WIDTH]; omega)

end Sys2Proof.Machine
end

section
/-!
PROOFS. Chapter 15: the monitor's commands that halt and resume a unit, retire the unit or lock it, and the halt that takes effect (R596, R597, R614, R617, R618, R623, R624).
-/
namespace Sys2Proof.Machine

/-! ### A command to the monitor -/

section
variable {s : State}

/-- A running monitor that holds no frame takes the next one. -/
theorem State.frame_of_free (hon : s.monitorOn = true) (hfree : s.dbg.waiting = none) (i : Instr) (f : State → State) : s.frame i f = f s := by
  simp [State.frame, hon, hfree]

/-- A well-formed command of a level that the monitor has answers what it does. -/
theorem State.command_of_level {level : Nat} (hlive : s.lifecycle ≠ 3) (hlevel : level ≤ s.dbgLevel) (op tag : Nat) (f : State → Nat × List Byte × State) :
    s.command op tag level true f = (f s).2.2.respond op (f s).1 tag (f s).2.1 := by
  rw [State.command, if_neg fun h => hlive h.1, if_neg (by simpa using hlevel)]

/-- The units that can be halted are the Cox and the fitted Sculls. -/
theorem State.haltable_scull {u : Nat} (hu : u < 16) (hfit : s.unitFitted u = true) : s.haltable u = true := by simp [State.haltable, hu, hfit]

theorem State.isHalted_scull {u : Nat} (hu : u < 16) : s.isHalted u = (s.scull u).halted := by
  rw [State.isHalted, if_neg (by omega)]

section
variable (hlive : s.lifecycle ≠ 3) (hlevel : 2 ≤ s.dbgLevel) (tag : Nat)
include hlive hlevel

theorem State.cmdHalt_unhaltable {u : Nat} (hu : s.haltable u = false) : s.cmdHalt tag u true = s.respond 0x20 stDENIED tag [] := by
  rw [State.cmdHalt, State.command_of_level hlive hlevel]
  simp [hu]

theorem State.cmdResume_unhaltable {u : Nat} (hu : s.haltable u = false) : s.cmdResume tag u true = s.respond 0x21 stDENIED tag [] := by
  rw [State.cmdResume, State.command_of_level hlive hlevel]
  simp [hu]

theorem State.cmdHalt_cox : s.cmdHalt tag 0x45 true = s.haltCox.respond 0x20 stOK tag [] := by
  rw [State.cmdHalt, State.command_of_level hlive hlevel]
  simp [State.haltable]

theorem State.cmdResume_cox (hhalt : s.err.coxHalted = true) : s.cmdResume tag 0x45 true = s.resumeCox.coxBack.respond 0x21 stOK tag [] := by
  rw [State.cmdResume, State.command_of_level hlive hlevel]
  simp [State.haltable, hhalt]

section
variable {u : Nat} (hu : u < 16) (hfit : s.unitFitted u = true)
include hu hfit

theorem State.cmdHalt_scull : s.cmdHalt tag u true = (s.askHalt u (1, 0, 0)).respond 0x20 stOK tag [] := by
  rw [State.cmdHalt, State.command_of_level hlive hlevel]
  simp [State.haltable_scull hu hfit, show ¬ u = 69 by omega]

theorem State.cmdResume_scull : s.cmdResume tag u true = (s.resumeScull u).respond 0x21 stOK tag [] := by
  rw [State.cmdResume, State.command_of_level hlive hlevel]
  simp [State.haltable_scull hu hfit, show ¬ u = 69 by omega]

theorem State.cmdStep_scull {n : Nat} (hhalt : (s.scull u).halted = true) (hn : n ≠ 0) :
    s.cmdStep tag u n true = ((s.resumeScull u).setScull u { (s.resumeScull u).scull u with stepLeft := some n }).respond 0x22 stOK tag [] := by
  rw [State.cmdStep, State.command_of_level hlive hlevel]
  simp [State.haltable_scull hu hfit, State.isHalted_scull hu, hhalt, hn, show ¬ u = 69 by omega]

theorem State.cmdStateRead_scull (page : Nat) (hhalt : (s.scull u).halted = true) :
    s.cmdStateRead tag u page true = ({ s with free := s.free + 1 }).respond 0x23 stOK tag
      ((List.range 6).flatMap fun w => leBytes 4 (Config.stateWord u page w s.free % 2 ^ 32)) := by
  rw [State.cmdStateRead, State.command_of_level hlive hlevel]
  simp [State.haltable_scull hu hfit, State.isHalted_scull hu, hhalt]

end

theorem State.cmdStep_running {u : Nat} (hu : u < 16) (n : Nat) (h : (s.scull u).halted = false ∨ n = 0) :
    s.cmdStep tag u n true = s.respond 0x22 stDENIED tag [] := by
  rw [State.cmdStep, State.command_of_level hlive hlevel]
  rcases h with h | h <;> simp [State.isHalted_scull hu, h]

theorem State.cmdStateRead_running {u : Nat} (hu : u < 16) (page : Nat) (h : (s.scull u).halted = false) :
    s.cmdStateRead tag u page true = s.respond 0x23 stDENIED tag [] := by
  rw [State.cmdStateRead, State.command_of_level hlive hlevel]
  simp [State.isHalted_scull hu, h]

end

/-- Six words of four bytes. -/
theorem stateWords_length (word : Nat → Nat) : ((List.range 6).flatMap fun w => leBytes 4 (word w)).length = 24 := rfl

/-! ### The Cox halts (R618) -/

theorem State.foldl_setA_err (ls : List Nat) (s : State) : (ls.foldl (fun s n => s.setA n 0) s).err = s.err := by
  induction ls generalizing s with
  | nil => rfl
  | cons n ls ih => exact ih (s.setA n 0)

theorem State.haltCox_halted (s : State) : s.haltCox.err.coxHalted = true := by
  by_cases h : s.err.coxHalted = true
  · rw [State.haltCox, if_pos h, h]
  · rw [State.haltCox, if_neg h]
    dsimp only
    rw [State.foldl_setA_err]
    rfl

/-! ### The halt of a Scull takes effect (R617) -/

theorem bit_putBitAt {s : State} {f : RegField} {i b : Nat} (hb : b < f.width) : bit ((s.putBitAt f i b true).get f i) b = true := by
  have hkept : ∀ w, bit w b = true → bit (w % 2 ^ f.width) b = true := fun w hw => by
    rw [bit_eq_testBit] at hw ⊢
    rw [Nat.testBit_mod_two_pow, hw, decide_eq_true hb]
    rfl
  rw [State.putBitAt, State.get_put_same]
  refine hkept _ ?_
  by_cases hbit : bit (s.get f i) b = true
  · simp [hbit]
  · have hclear : bit (s.get f i) b = false := Bool.eq_false_iff.mpr hbit
    simp only [hclear, Bool.not_false, and_self, if_true]
    rw [bit_eq_testBit] at hclear ⊢
    rw [Nat.add_comm, Nat.testBit_two_pow_add_eq, hclear]
    rfl

/-- A Scull that is halted from now on. -/
def State.haltedNow (s : State) (n : Nat) : State :=
  { s.setScull n { s.scull n with halted := true, haltPending := none, haltMarks := [], stepLeft := none } with
    mod := { s.mod with haltAt := Tbl.set none s.mod.haltAt n (some s.now) } }

theorem State.haltNow_eq {n why slot lane : Nat} (h : (s.scull n).haltPending = some (why, slot, lane)) :
    s.haltNow n = (((((s.haltedNow n).put Fld.DBG_REASON_REASON n why).put Fld.DBG_REASON_SLOT n slot).put Fld.DBG_REASON_LANE n lane).putBitAt
      Fld.DBG_HALTED_SCULLS 0 n true).showScull n := by
  rw [State.haltNow, h]
  rfl

theorem State.putBitAt_onlyFlds (s : State) (f : RegField) (i b : Nat) {on : Bool} : s.OnlyFlds (s.putBitAt f i b on) := rfl

theorem State.showScull_onlyFlds (s : State) (n : Nat) : s.OnlyFlds (s.showScull n) := rfl

/-- The registers that show the halt are all that changes with the Scull and its time. -/
theorem State.haltNow_onlyFlds {n why slot lane : Nat} (h : (s.scull n).haltPending = some (why, slot, lane)) : (s.haltedNow n).OnlyFlds (s.haltNow n) := by
  rw [State.haltNow_eq h]
  exact .trans (v := (((s.haltedNow n).put Fld.DBG_REASON_REASON n why).put Fld.DBG_REASON_SLOT n slot).put Fld.DBG_REASON_LANE n lane) rfl
    (.trans (State.putBitAt_onlyFlds _ _ _ _) (State.showScull_onlyFlds _ n))

/-- The status of a Scull is no field of another register. -/
theorem State.get_showScull_ne {g : RegField} {n j : Nat} (h : g.base + j * g.stride < 0x080000 ∨ 0x0A0000 ≤ g.base + j * g.stride) (hg : g.lo < 64) (hn : n < 16) :
    (s.showScull n).get g j = s.get g j := by
  rw [State.showScull]
  rw [State.get_put_ne _ _ _ _ _ _ (by simp only [RegField.key, Fld.SCL_STATUS_READY]; omega), State.get_put_ne _ _ _ _ _ _ (by simp only [RegField.key, Fld.SCL_STATUS_TASK_ID]; omega),
    State.get_put_ne _ _ _ _ _ _ (by simp only [RegField.key, Fld.SCL_STATUS_STATE]; omega)]

end

/-- Settles O56: the commands by the lemmas of their branches, the halt by the fields that it shows. -/
theorem haltedUnitsStandStill : Obligations.HaltedUnitsStandStill := by
  unfold Obligations.HaltedUnitsStandStill
  refine ⟨fun g s hon hfree hlive hlevel => ?_, fun g s hon hfree hlock => ?_, fun n why slot lane s hpend hready => ?_⟩
  · intro tag
    have hon' : s.start.monitorOn = true := hon
    have hfree' : s.start.dbg.waiting = none := hfree
    have hlive' : s.start.lifecycle ≠ 3 := hlive
    have hlevel' : 2 ≤ s.start.dbgLevel := hlevel
    refine ⟨fun u => ⟨fun hu => ⟨?_, ?_⟩, fun hu hfit => ⟨?_, ?_, fun c hhalt hc => ?_, fun c hc => ?_, fun p => ⟨fun hhalt => ?_, fun hhalt => ?_⟩⟩⟩, ?_,
      State.haltCox_halted _, fun hhalt => ?_, fun k hk => ?_, fun k hk hsession => ?_⟩
    · rw [exec_halt, execHalt, State.frame_of_free hon' hfree', State.cmdHalt_unhaltable hlive' hlevel' _ hu]
    · rw [exec_resume, execResume, State.frame_of_free hon' hfree', State.cmdResume_unhaltable hlive' hlevel' _ hu]
    · rw [exec_halt, execHalt, State.frame_of_free hon' hfree', State.cmdHalt_scull hlive' hlevel' _ hu hfit]
    · rw [exec_resume, execResume, State.frame_of_free hon' hfree', State.cmdResume_scull hlive' hlevel' _ hu hfit]
    · rw [exec_step, execStep, State.frame_of_free hon' hfree', State.cmdStep_scull hlive' hlevel' _ hu hfit hhalt hc]
    · rw [exec_step, execStep, State.frame_of_free hon' hfree', State.cmdStep_running hlive' hlevel' _ hu _ hc]
    · refine ⟨(List.range 6).flatMap fun w => leBytes 4 (Config.stateWord u.toNat p.toNat w s.free % 2 ^ 32), stateWords_length _, ?_⟩
      rw [exec_stateRead, execStateRead, State.frame_of_free hon' hfree', State.cmdStateRead_scull hlive' hlevel' _ hu hfit _ hhalt]
      rfl
    · rw [exec_stateRead, execStateRead, State.frame_of_free hon' hfree', State.cmdStateRead_running hlive' hlevel' _ hu _ hhalt]
    · rw [exec_halt, execHalt, State.frame_of_free hon' hfree']
      exact congrArg Host.Outcome.next (State.cmdHalt_cox hlive' hlevel' _)
    · rw [exec_resume, execResume, State.frame_of_free hon' hfree']
      exact congrArg Host.Outcome.next (State.cmdResume_cox hlive' hlevel' _ hhalt)
    · have hserial : ¬ k.toNat = s.start.serial := hk
      rw [exec_retire, execRetire, State.frame_of_free hon' hfree', State.cmdRetire, if_neg hlive', if_pos (.inr (.inr (.inr hserial)))]
    · have hgo : ¬ ((!true) = true ∨ s.start.dbgLevel < 2 ∨ s.start.lifecycle ≠ 2 ∨ k.toNat ≠ s.start.serial) := by
        rintro (h | h | h | h)
        · exact absurd h (by decide)
        · omega
        · exact h hsession
        · exact h hk
      refine ⟨?_, ?_⟩
      · rw [exec_retire, execRetire, State.frame_of_free hon' hfree', State.cmdRetire, if_neg hlive', if_neg hgo]
        dsimp only
        rw [if_neg Bool.false_ne_true]
      · rw [exec_retire, execRetire, State.frame_of_free hon' hfree', State.cmdRetire, if_neg hlive', if_neg hgo]
        dsimp only
        rw [if_pos rfl]
  · have hlive : s.lifecycle ≠ 3 := by
      intro h
      simp [State.lockable, h] at hlock
    have hgo : ¬ ((!true) = true ∨ (!s.start.takeFree.2.lockable) = true) := by
      rw [show s.start.takeFree.2.lockable = true from hlock]
      decide
    have hon' : s.start.monitorOn = true := hon
    have hfree' : s.start.dbg.waiting = none := hfree
    have hlive' : s.start.lifecycle ≠ 3 := hlive
    refine ⟨s.start.takeFree.1 % 256, ?_, ?_⟩
    · rw [exec_lock, execLock, State.frame_of_free hon' hfree', State.cmdLock, if_neg hlive']
      dsimp only
      rw [if_neg hgo, if_neg Bool.false_ne_true]
      rfl
    · rw [exec_lock, execLock, State.frame_of_free hon' hfree', State.cmdLock, if_neg hlive']
      dsimp only
      rw [if_neg hgo, if_pos rfl]
      rfl
  · have hready' : s.start.haltReady n = true := hready
    have hpend' : (s.start.scull n).haltPending = some (why, slot, lane) := hpend
    refine ⟨s.start.haltNow n, ?_, ?_, ?_, ?_, ?_, ?_⟩
    · rw [exec_haltTakesEffect, execHaltTakesEffect]
      rw [if_pos hready']
    · have honly := State.haltNow_onlyFlds hpend'
      unfold State.OnlyFlds at honly
      rw [honly]
      rfl
    · rw [State.haltNow_eq hpend']
      exact congrArg Scull.halted (State.scull_setScull s.start n _)
    · rw [State.haltNow_eq hpend']
      exact congrArg Scull.haltPending (State.scull_setScull s.start n _)
    · rw [State.haltNow_eq hpend', State.get_showScull_ne (by simp only [Fld.DBG_REASON_REASON]; omega) (by decide) n.isLt, State.putBitAt,
        State.get_put_ne _ _ _ _ _ _ (by simp only [RegField.key, Fld.DBG_REASON_REASON, Fld.DBG_HALTED_SCULLS]; omega),
        State.get_put_ne _ _ _ _ _ _ (by simp only [RegField.key, Fld.DBG_REASON_REASON, Fld.DBG_REASON_LANE]; omega),
        State.get_put_ne _ _ _ _ _ _ (by simp only [RegField.key, Fld.DBG_REASON_REASON, Fld.DBG_REASON_SLOT]; omega), State.get_put_same]
      rfl
    · rw [State.haltNow_eq hpend', State.get_showScull_ne (by simp only [Fld.DBG_HALTED_SCULLS]; omega) (by decide) n.isLt]
      exact bit_putBitAt n.isLt

end Sys2Proof.Machine
end

section
/-!
PROOFS. Chapters 14 and 17: what a device reset, a fatal error and the end of a power-fail commit keep (R573, R580, R581, R611, R618, R642 to R645).
-/
namespace Sys2Proof.Machine

/-! ### A reset of the device (R643) -/

/-- The fields that a reset of the device keeps (R643, R645). -/
def resetKept : List (RegField × Nat) :=
  [(Fld.ERR_FATAL_CAUSE_VALID, 0), (Fld.ERR_FATAL_CAUSE_RESTARTS, 0), (Fld.ERR_FATAL_CAUSE_CAUSE, 0), (Fld.SEC_DBG_STATUS_FAILS, 0),
    (Fld.SEC_DBG_FAIL_CNT_CNT, 0), (Fld.SEC_SESSION_CNT_CNT, 0)] ++ (List.range 16).map fun i => (Fld.BH_BAD_BAD, i)

/-- No two of them share their place. -/
theorem resetKept_apart : resetKept.Pairwise fun a b => a.1.key a.2 ≠ b.1.key b.2 := by decide

/-- A state whose listed fields are set to what another reads. -/
def State.restore (s : State) (ks : List (RegField × Nat)) (r : State) : State := ks.foldl (fun r fi => r.put fi.1 fi.2 (s.get fi.1 fi.2)) r

theorem State.restore_onlyFlds (s : State) (ks : List (RegField × Nat)) (r : State) : r.OnlyFlds (s.restore ks r) := by
  induction ks generalizing r with
  | nil => rfl
  | cons fi ks ih => exact State.OnlyFlds.trans (v := r.put fi.1 fi.2 (s.get fi.1 fi.2)) rfl (ih _)

theorem State.get_restore_ne {s : State} {ks : List (RegField × Nat)} {g : RegField} {j : Nat} (h : ∀ fi ∈ ks, g.key j ≠ fi.1.key fi.2) (r : State) :
    (s.restore ks r).get g j = r.get g j := by
  induction ks generalizing r with
  | nil => rfl
  | cons fi ks ih =>
    have hrest := ih (fun fi' h' => h fi' (List.mem_cons_of_mem _ h')) (r.put fi.1 fi.2 (s.get fi.1 fi.2))
    exact hrest.trans (r.get_put_ne _ _ _ _ _ (h fi List.mem_cons_self))

/-- A listed field reads what it read before, cut to its width. -/
theorem State.get_restore {s : State} {ks : List (RegField × Nat)} (hks : ks.Pairwise fun a b => a.1.key a.2 ≠ b.1.key b.2) {g : RegField} {j : Nat}
    (h : (g, j) ∈ ks) (r : State) : (s.restore ks r).get g j = s.get g j % 2 ^ g.width := by
  induction ks generalizing r with
  | nil => exact absurd h List.not_mem_nil
  | cons fi ks ih =>
    obtain ⟨hfi, hks'⟩ := List.pairwise_cons.mp hks
    rcases List.mem_cons.mp h with rfl | h
    · exact (State.get_restore_ne (fun fi' h' => hfi fi' h') (r.put g j (s.get g j))).trans (r.get_put_same _ _ _)
    · exact ih hks' h (r.put fi.1 fi.2 (s.get fi.1 fi.2))

/-- The node supplies go off by outputs alone. -/
theorem State.nodesOff_eq (s : State) : ∃ o, s.nodesOff = { s with out := o } := by
  have hfold : ∀ (ks : List Nat) (t : State), ∃ o, ks.foldl (fun s k => s.nodePower k false) t = { t with out := o } := by
    intro ks
    induction ks with
    | nil => exact fun t => ⟨t.out, rfl⟩
    | cons k ks ih =>
      intro t
      obtain ⟨o, ho⟩ := ih (t.nodePower k false)
      have hoff : t.nodePower k false = t.emit (.pin 4 (2 * k + b2n false)) := by rw [State.nodePower, if_neg fun h => Bool.false_ne_true h.1]
      exact ⟨o, by rw [List.foldl_cons, ho, hoff]; rfl⟩
  exact hfold _ s

/-- What a reset of the device leaves, but for the fields that it keeps. -/
def State.resetBase (s : State) : State :=
  { boot := { otp := s.boot.otp, lcFuses := s.boot.lcFuses, fieldRevoke := s.boot.fieldRevoke, flash := s.boot.flash, flashWritten := s.boot.flashWritten, onAt := s.boot.onAt }
    dbg := { lockoutUntil := s.dbg.lockoutUntil, lockoutLen := s.dbg.lockoutLen }
    err := { fatalTimes := s.err.fatalTimes, fatalReport := s.err.fatalReport, fatalRestarts := s.err.fatalRestarts }
    mod := { tripReport := s.mod.tripReport, sfpGone := s.mod.sfpGone, sfpLow := s.mod.sfpLow, perst := s.mod.perst }
    bh := s.bh
    bank := (s.bank.map fun kv => (kv.1, ({ writes := kv.2.writes } : BankSt))).filter fun kv => kv.2 ≠ {}
    now := s.now, free := s.free, pending := s.pending, out := s.out }

theorem State.deviceReset_eq (s : State) : s.deviceReset = (s.nodesOff.restore resetKept s.nodesOff.resetBase).emit (.pin 2 0) := rfl

theorem State.deviceReset_frame (s : State) : ∃ fl o, s.deviceReset = { s.resetBase with flds := fl, out := o } := by
  have h := s.nodesOff.restore_onlyFlds resetKept s.nodesOff.resetBase
  obtain ⟨o, ho⟩ := s.nodesOff_eq
  unfold State.OnlyFlds at h
  refine ⟨(s.nodesOff.restore resetKept s.nodesOff.resetBase).flds, o ++ [.pin 2 0], ?_⟩
  rw [State.deviceReset_eq, h, ho]
  rfl

theorem State.deviceReset_fields (s : State) :
    s.deviceReset.boot = s.resetBase.boot ∧ s.deviceReset.err = s.resetBase.err ∧ s.deviceReset.bh = s.bh ∧ s.deviceReset.mem = [] ∧ s.deviceReset.tasks = [] ∧
      s.deviceReset.now = s.now ∧ s.deviceReset.pending = s.pending := by
  obtain ⟨fl, o, h⟩ := s.deviceReset_frame
  rw [h]
  exact ⟨rfl, rfl, rfl, rfl, rfl, rfl, rfl⟩

theorem State.get_deviceReset (s : State) {g : RegField} {j : Nat} (h : (g, j) ∈ resetKept) : s.deviceReset.get g j = s.get g j % 2 ^ g.width := by
  obtain ⟨o, ho⟩ := s.nodesOff_eq
  rw [State.deviceReset_eq, State.get_emit, State.get_restore resetKept_apart h, ho]
  rfl

/-! ### The controllers stop (R434, R642) -/

/-- A bank whose writes and copies are given up. -/
def State.stopBank (s : State) (b : Nat) : State := s.setBank b { s.bnk b with writing := [], cur := none }

/-- Both banks' controllers stop. -/
def State.stopBanks (s : State) : State := [0, 1].foldl State.stopBank s

theorem State.stopBank_frame (s : State) (b : Nat) : s.stopBank b = { s with flds := (s.stopBank b).flds, bank := (s.stopBank b).bank } := rfl

theorem State.stopBanks_frame (s : State) : s.stopBanks = { s with flds := s.stopBanks.flds, bank := s.stopBanks.bank } := by
  have h : s.stopBanks = (s.stopBank 0).stopBank 1 := rfl
  rw [h, State.stopBank_frame (s.stopBank 0) 1, State.stopBank_frame s 0]

theorem State.bnk_stopBank (s : State) (b c : Nat) :
    (s.stopBank b).bnk c =
      if c = b then { s.bnk b with writing := [], cur := none, recent := (s.bnk b).recent.filter fun e => decide (s.now < e.1 + 86400000000000) } else s.bnk c := by
  rw [State.stopBank, State.setBank, State.bnk, State.put_bank, State.put_bank, Tbl.get_set]
  rfl

/-- A stopped bank writes nothing and keeps what is committed. -/
theorem State.bnk_stopBanks (s : State) (b : Fin 2) :
    (s.stopBanks.bnk b).writing = [] ∧ (s.stopBanks.bnk b).cur = none ∧ (s.stopBanks.bnk b).committed = (s.bnk b).committed := by
  have h : s.stopBanks = (s.stopBank 0).stopBank 1 := rfl
  have hb : b.val = 0 ∨ b.val = 1 := by omega
  rw [h, State.bnk_stopBank]
  rcases hb with hb | hb
  · rw [hb, if_neg (by decide), State.bnk_stopBank, if_pos rfl]
    exact ⟨rfl, rfl, rfl⟩
  · rw [hb, if_pos rfl, State.bnk_stopBank, if_neg (by decide)]
    exact ⟨rfl, rfl, rfl⟩

theorem State.get_stopBank (s : State) (b : Nat) {g : RegField} {j : Nat} (h : 0x150000 ≤ g.base + j * g.stride) (hb : b < 2) :
    (s.stopBank b).get g j = s.get g j := by
  rw [State.stopBank, State.setBank]
  rw [State.get_put_ne _ _ _ _ _ _ (by simp only [RegField.key, Fld.BH_WRITES_24H_CNT]; omega),
    State.get_put_ne _ _ _ _ _ _ (by simp only [RegField.key, Fld.BH_FREE_FREE]; omega)]
  rfl

theorem State.get_stopBanks (s : State) {g : RegField} {j : Nat} (h : 0x150000 ≤ g.base + j * g.stride) : s.stopBanks.get g j = s.get g j := by
  have he : s.stopBanks = (s.stopBank 0).stopBank 1 := rfl
  rw [he, State.get_stopBank _ _ h (by decide), State.get_stopBank _ _ h (by decide)]

/-- A device whose controllers have stopped. -/
def State.unitsHeld (s : State) : State := { s with mod := { s.mod with stopped := true } }

theorem State.get_unitsHeld (s : State) (g : RegField) (j : Nat) : s.unitsHeld.get g j = s.get g j := rfl

theorem State.bnk_unitsHeld (s : State) (b : Nat) : s.unitsHeld.bnk b = s.bnk b := rfl

/-! ### A fatal error of the device (R573, R580, R581) -/

theorem State.console_eq (s : State) (c v : Nat) : ∃ o, s.console c v = { s with out := o } := by
  rw [State.console]
  split
  · exact ⟨s.out, rfl⟩
  · exact ⟨_, rfl⟩

theorem FatalCause.code_lt (c : FatalCause) : FatalCause.code c < 16 := by cases c <;> decide

theorem State.get_fatalCause (s : State) (c : Nat) : (s.fatalCause c).get Fld.ERR_FATAL_CAUSE_CAUSE 0 = c % 16 ∧ (s.fatalCause c).get Fld.ERR_FATAL_CAUSE_VALID 0 = 1 := by
  refine ⟨State.get_put_same _ _ _ _, ?_⟩
  rw [State.fatalCause, State.get_put_ne _ _ _ _ _ _ (by decide), State.get_put_same]
  rfl

theorem State.fatalInPowerFail_eq (s : State) (c : Nat) : s.fatalInPowerFail c = ((s.fatalCause c).console 4 c).stopBanks.unitsHeld := rfl

/-- The cause is noted by registers and outputs alone. -/
theorem State.fatalCause_fields (s : State) (c : Nat) :
    ((s.fatalCause c).console 4 c).boot = s.boot ∧ ((s.fatalCause c).console 4 c).bh = s.bh ∧ ((s.fatalCause c).console 4 c).mem = s.mem ∧
      (∀ b, ((s.fatalCause c).console 4 c).bnk b = s.bnk b) ∧ ((s.fatalCause c).console 4 c).get Fld.ERR_FATAL_CAUSE_CAUSE 0 = c % 16 := by
  obtain ⟨o, ho⟩ := (s.fatalCause c).console_eq 4 c
  rw [ho]
  exact ⟨rfl, rfl, rfl, fun _ => rfl, (State.get_fatalCause _ _).1⟩

/-- The times of the fatal errors of the last 10 min, with this one. -/
def State.fatalNow (s : State) : List Nat := s.now :: s.err.fatalTimes.filter fun t => decide (s.now < t + 600000000000)

/-- The state that a fatal error resets: its cause and its time are noted. -/
def State.fatalNoted (s : State) (c : Nat) : State := (({ s with err := { s.err with fatalTimes := s.fatalNow } }).fatalCause c).console 4 c

/-- A device that is held, and that will restart or not. -/
def State.heldFatal (s : State) (go : Bool) : State := { s with boot := { s.boot with phase := .fatalHeld }, err := { s.err with fatalGo := go } }

section
variable (s : State) (go : Bool)

theorem State.heldFatal_boot : (s.heldFatal go).boot = { s.boot with phase := .fatalHeld } := rfl

theorem State.heldFatal_err : (s.heldFatal go).err = { s.err with fatalGo := go } := rfl

theorem State.heldFatal_bh : (s.heldFatal go).bh = s.bh := rfl

theorem State.heldFatal_mem : (s.heldFatal go).mem = s.mem := rfl

theorem State.get_heldFatal (g : RegField) (j : Nat) : (s.heldFatal go).get g j = s.get g j := rfl

end

theorem State.deviceFatal_eq {s : State} (hheld : s.boot.phase ≠ .fatalHeld) (hfail : s.boot.phase ≠ .powerFail) (c : Nat) :
    s.deviceFatal c = ((s.fatalNoted c).deviceReset.emit (.pin 1 0)).heldFatal (decide (s.get Fld.ERR_FATAL_HOLD_MS 0 ≠ 0) && decide (s.fatalNow.length < 3)) := by
  rw [State.deviceFatal, if_neg hheld, if_neg hfail]
  rfl

theorem State.fatalNoted_fields (s : State) (c : Nat) :
    (s.fatalNoted c).boot = s.boot ∧ (s.fatalNoted c).bh = s.bh ∧ (s.fatalNoted c).err.fatalReport = some c ∧
      (s.fatalNoted c).get Fld.ERR_FATAL_CAUSE_CAUSE 0 = c % 16 ∧ (s.fatalNoted c).get Fld.ERR_FATAL_CAUSE_VALID 0 = 1 := by
  obtain ⟨o, ho⟩ := (({ s with err := { s.err with fatalTimes := s.fatalNow } } : State).fatalCause c).console_eq 4 c
  rw [State.fatalNoted, ho]
  exact ⟨rfl, rfl, rfl, State.get_fatalCause _ _⟩

/-- A fatal error outside a hold and a power-fail commit holds the device, and keeps its cause, its fuses and the Boathouse. -/
theorem State.deviceFatal_held {s t : State} (hheld : s.boot.phase ≠ .fatalHeld) (hfail : s.boot.phase ≠ .powerFail) (c : FatalCause)
    (ht : t = s.deviceFatal (FatalCause.code c)) :
    t.boot.phase = .fatalHeld ∧ t.get Fld.ERR_FATAL_CAUSE_CAUSE 0 = FatalCause.code c ∧ t.get Fld.ERR_FATAL_CAUSE_VALID 0 = 1 ∧ t.err.fatalReport = some (FatalCause.code c) ∧
      t.err.fatalGo = (decide (s.get Fld.ERR_FATAL_HOLD_MS 0 ≠ 0) && decide (s.fatalNow.length < 3)) ∧ t.boot.lcFuses = s.boot.lcFuses ∧ t.bh = s.bh ∧ t.mem = [] := by
  obtain ⟨hboot, hbh, hreport, hcause, hvalid⟩ := s.fatalNoted_fields (FatalCause.code c)
  obtain ⟨hrboot, hrerr, hrbh, hrmem, -⟩ := (s.fatalNoted (FatalCause.code c)).deviceReset_fields
  rw [State.deviceFatal_eq hheld hfail] at ht
  subst ht
  rw [State.heldFatal_boot, State.heldFatal_err, State.heldFatal_bh, State.heldFatal_mem, State.get_heldFatal, State.get_heldFatal, State.get_emit, State.get_emit, State.emit_boot,
    State.emit_err, State.emit_bh, State.emit_mem, State.get_deviceReset _ (by decide), State.get_deviceReset _ (by decide), hcause, hvalid, hrboot, hrerr, hrbh, hrmem, hbh]
  refine ⟨rfl, ?_, rfl, hreport, rfl, show (s.fatalNoted (FatalCause.code c)).boot.lcFuses = _ from congrArg BootSt.lcFuses hboot, rfl, rfl⟩
  exact (Nat.mod_mod _ 16).trans (Nat.mod_eq_of_lt (FatalCause.code_lt c))

/-- A fatal error during a power-fail commit ends what the controllers write and notes its cause. -/
theorem State.deviceFatal_in_powerFail {s t : State} (hfail : s.boot.phase = .powerFail) (c : FatalCause) (ht : t = s.deviceFatal (FatalCause.code c)) :
    t.boot = s.boot ∧ t.bh = s.bh ∧ t.mem = s.mem ∧ t.mod.stopped = true ∧ t.get Fld.ERR_FATAL_CAUSE_CAUSE 0 = FatalCause.code c ∧
      ∀ b : Fin 2, (t.bnk b).writing = [] ∧ (t.bnk b).cur = none ∧ (t.bnk b).committed = (s.bnk b).committed := by
  obtain ⟨hboot, hbh, hmem, hbnk, hcause⟩ := s.fatalCause_fields (FatalCause.code c)
  rw [State.deviceFatal, if_neg (by rw [hfail]; decide), if_pos hfail, State.fatalInPowerFail_eq] at ht
  generalize (s.fatalCause (FatalCause.code c)).console 4 (FatalCause.code c) = x at *
  have hframe := x.stopBanks_frame
  subst ht
  refine ⟨?_, ?_, ?_, rfl, ?_, fun b => ?_⟩
  · rw [hframe]
    exact hboot
  · rw [hframe]
    exact hbh
  · rw [hframe]
    exact hmem
  · rw [State.get_unitsHeld, State.get_stopBanks _ (by decide), hcause]
    exact Nat.mod_eq_of_lt (FatalCause.code_lt c)
  · rw [State.bnk_unitsHeld, ← hbnk]
    exact x.bnk_stopBanks b

/-! ### The commands -/

section
variable {s : State}

theorem exec_resetN_taken {ns : Nat} {taken : Bool} (hfail : s.boot.phase ≠ .powerFail) (hlong : 10000 ≤ ns ∨ (1000 ≤ ns ∧ taken = true)) :
    exec (.resetN ns taken) s = .next ((s.start.deviceReset).emit (.pin 1 0)) := by
  have hgo : ¬ (s.start.boot.phase = .powerFail ∨ ns < 1000 ∨ (ns < 10000 ∧ (!taken) = true)) := by
    rintro (h | h | ⟨h, ht⟩)
    · exact hfail h
    · omega
    · rcases hlong with h' | ⟨-, h'⟩
      · omega
      · simp [h'] at ht
  rw [exec_resetN, execResetN]
  rw [if_neg hgo]

theorem exec_resetN_ignored {ns : Nat} {taken : Bool} (h : s.boot.phase = .powerFail ∨ ns < 1000 ∨ (ns < 10000 ∧ taken = false)) :
    exec (.resetN ns taken) s = .next s.start := by
  have hgo : s.start.boot.phase = .powerFail ∨ ns < 1000 ∨ (ns < 10000 ∧ (!taken) = true) := h.imp_right (.imp_right fun h => ⟨h.1, by rw [h.2]; rfl⟩)
  rw [exec_resetN, execResetN]
  rw [if_pos hgo]

theorem exec_fatalHoldExpiry_ignored (h : s.boot.phase ≠ .fatalHeld ∨ s.err.fatalGo = false) : exec .fatalHoldExpiry s = .next s.start := by
  have hgo : s.start.boot.phase ≠ .fatalHeld ∨ (!s.start.err.fatalGo) = true := h.imp_right fun h => by rw [show s.start.err.fatalGo = false from h]; rfl
  rw [exec_fatalHoldExpiry, execFatalHoldExpiry]
  rw [if_pos hgo]

theorem exec_fatalHoldExpiry_restarts (hheld : s.boot.phase = .fatalHeld) (hgo : s.err.fatalGo = true) : exec .fatalHoldExpiry s =
    .next (({ s.start with err := { s.err with fatalRestarts := s.now :: (s.err.fatalRestarts.filter (fun (t : Nat) => decide (s.now < t + 600000000000))) } }).deviceReset) := by
  have hgo' : ¬ (s.start.boot.phase ≠ .fatalHeld ∨ (!s.start.err.fatalGo) = true) := by
    rintro (h | h)
    · exact h hheld
    · rw [show s.start.err.fatalGo = true from hgo] at h
      exact absurd h (by decide)
  rw [exec_fatalHoldExpiry, execFatalHoldExpiry]
  rw [if_neg hgo']
  rfl

end

/-- Settles O52: what a reset of the device keeps (`State.deviceReset_frame`, `State.get_deviceReset`), and the commands that make one. -/
theorem resetsKeepWhatTheyMust : Obligations.ResetsKeepWhatTheyMust := by
  unfold Obligations.ResetsKeepWhatTheyMust
  refine ⟨fun ns taken s => ⟨fun hfail hlong => ?_, exec_resetN_ignored⟩, fun c s => ⟨fun hheld => ?_, fun hfail => ?_, fun hheld hfail => ?_⟩,
    fun s => ⟨fun hhalt => ?_, fun hhalt => ?_⟩, fun s => ⟨exec_fatalHoldExpiry_ignored, exec_fatalHoldExpiry_restarts⟩,
    fun s hfail => ⟨fun hhigh => ?_, fun hlow => ?_⟩⟩
  · obtain ⟨hboot, -, hbh, hmem, htasks, hnow, hpending⟩ := s.start.deviceReset_fields
    have hkept : ∀ f ∈ [Fld.ERR_FATAL_CAUSE_CAUSE, Fld.SEC_DBG_FAIL_CNT_CNT, Fld.SEC_SESSION_CNT_CNT], (f, 0) ∈ resetKept := by decide
    refine ⟨_, exec_resetN_taken hfail hlong, ?_⟩
    rw [State.emit_boot, State.emit_mem, State.emit_tasks, State.emit_bh, State.emit_now, State.emit_pending, hboot, hbh, hmem, htasks, hnow, hpending]
    refine ⟨rfl, rfl, rfl, rfl, rfl, rfl, rfl, rfl, rfl, rfl, fun f hf => ?_⟩
    rw [State.get_emit, State.get_deviceReset _ (hkept f hf)]
    rfl
  · have hheld' : s.start.boot.phase = .fatalHeld := hheld
    rw [exec_deviceFatal, execDeviceFatal, State.deviceFatal, if_pos hheld']
  · exact ⟨_, exec_deviceFatal .., State.deviceFatal_in_powerFail (s := s.start) hfail c rfl⟩
  · obtain ⟨h1, h2, h3, h4, h5, h6⟩ := State.deviceFatal_held (s := s.start) hheld hfail c rfl
    refine ⟨_, exec_deviceFatal .., h1, h2, h3, h4, ?_, h6⟩
    rw [h5, Bool.and_eq_true, decide_eq_true_iff, decide_eq_true_iff]
    exact and_congr_right fun _ => Nat.succ_lt_succ_iff
  · have hhalt' : s.start.err.coxHalted = true := hhalt
    rw [exec_coxWatchdogExpiry, execCoxWatchdogExpiry]
    rw [if_pos hhalt']
  · have hhalt' : ¬ s.start.err.coxHalted = true := fun h => absurd (hhalt.symm.trans h) (by decide)
    rw [exec_coxWatchdogExpiry, execCoxWatchdogExpiry, exec_deviceFatal, execDeviceFatal]
    rw [if_neg hhalt']
    rfl
  · have hgo : ¬ (s.start.boot.phase = .powerFail ∨ true = s.start.mod.perst) := by
      rintro (h | h)
      · exact hfail h
      · exact absurd (h.trans hhigh) (by decide)
    refine ⟨fun hq => ?_, fun hq => ?_⟩
    · have hq' : (!true) = true ∨ State.quiescing { s.start with mod := { s.start.mod with perst := true } } 0x43 = true := .inr hq
      rw [exec_perstN, execPerstN]
      rw [if_neg hgo, if_pos hq']
      rfl
    · have hq' : ¬ ((!true) = true ∨ State.quiescing { s.start with mod := { s.start.mod with perst := true } } 0x43 = true) := by
        rintro (h | h)
        · exact absurd h (by decide)
        · exact absurd (hq.symm.trans h) (by decide)
      rw [exec_perstN, execPerstN]
      rw [if_neg hgo, if_neg hq']
      rfl
  · have hgo : ¬ (s.start.boot.phase = .powerFail ∨ false = s.start.mod.perst) := by
      rintro (h | h)
      · exact hfail h
      · exact absurd (h.trans hlow) (by decide)
    rw [exec_perstN, execPerstN]
    rw [if_neg hgo, if_pos (.inl rfl)]
    rfl

end Sys2Proof.Machine
end

section
/-!
PROOFS. Chapters 2 and 17: start-up, training and the power-fail commit (R41 to R45, R68, R71, R82, R84, R85, R433, R434, R598, R641, R642, R663).
-/
namespace Sys2Proof.Machine

/-! ### What a record of the device's ring changes (R553, R555) -/

section
variable (s : State)

theorem State.msix_frame (f v : Nat) : s.msix f v = { s with host := (s.msix f v).host, out := (s.msix f v).out } := by
  unfold State.msix
  dsimp only
  split_ifs <;> rfl

theorem State.ringWrite_frame (r : Nat) (e : ErrRec) :
    s.ringWrite r e = { s with flds := (s.ringWrite r e).flds, err := (s.ringWrite r e).err, host := (s.ringWrite r e).host, out := (s.ringWrite r e).out } := by
  unfold State.ringWrite
  split
  · rfl
  split
  · rfl
  · dsimp only
    rw [State.msix_frame]
    rfl

/-- A record that names no partition goes to the device's ring alone. -/
theorem State.record_device {e : ErrRec} (h : ¬ e.part < 8) : s.record e = s.ringWrite devRing e := by rw [State.record, if_neg h]

theorem State.msix_flds (f v : Nat) : (s.msix f v).flds = s.flds := by rw [State.msix_frame]

/-- The rings' registers are those of the block ERR. -/
theorem State.get_ringWrite (r : Nat) (e : ErrRec) {g : RegField} {j : Nat} (h : g.base + j * g.stride < 0x1B0000) (hlo : g.lo < 64) : (s.ringWrite r e).get g j = s.get g j := by
  have hlose : (s.loseRec r).get g j = s.get g j := s.get_bump_ne _ _ _ _ _ (by simp only [RegField.key, Fld.ERR_OVF_CNT_CNT]; omega)
  unfold State.ringWrite
  split
  · exact hlose
  split
  · exact hlose
  · refine (congrArg (fun t => Tbl.get g.reset t (g.key j)) (State.msix_flds _ _ _)).trans ?_
    exact State.get_put_ne _ _ _ _ _ _ (by simp only [RegField.key, Fld.ERR_PROD_PROD]; omega)

end

/-! ### The steps of start-up (R41 to R45, R84, R598) -/

/-- A start-up step keeps the phase, and whether IO-A is lost. -/
def State.SameStart (s v : State) : Prop := v.boot.phase = s.boot.phase ∧ v.boot.ioaLost = s.boot.ioaLost

theorem State.SameStart.trans {s v w : State} (h : s.SameStart v) (h' : v.SameStart w) : s.SameStart w := ⟨h'.1.trans h.1, h'.2.trans h.2⟩

theorem State.SameStart.of_boot {s v : State} (h : v.boot = s.boot) : s.SameStart v := ⟨by rw [h], by rw [h]⟩

theorem State.SameStart.foldl {α : Type} {f : State → α → State} (hf : ∀ (s : State) (a : α), s.SameStart (f s a)) (l : List α) (s : State) : s.SameStart (l.foldl f s) := by
  induction l generalizing s with
  | nil => exact ⟨rfl, rfl⟩
  | cons a l ih => exact (hf s a).trans (ih (f s a))

theorem State.SameStart.foldl_fst {α β : Type} {f : State × β → α → State × β} (hf : ∀ (x : State × β) (a : α), x.1.SameStart (f x a).1) (l : List α) (x : State × β) :
    x.1.SameStart (l.foldl f x).1 := by
  induction l generalizing x with
  | nil => exact ⟨rfl, rfl⟩
  | cons a l ih => exact (hf x a).trans (ih (f x a))

section
variable (s : State)

theorem State.record_device_boot {e : ErrRec} (h : ¬ e.part < 8) : (s.record e).boot = s.boot := by
  rw [State.record_device _ h, State.ringWrite_frame]

theorem State.console_boot (c v : Nat) : (s.console c v).boot = s.boot := by
  obtain ⟨o, ho⟩ := s.console_eq c v
  rw [ho]

/-- A claim that cannot be served is counted and recorded. -/
theorem State.loseClaim_sameStart (o : Owner) (r : Nat) (lane : Option Nat) : s.SameStart (s.loseClaim o r lane) :=
  .of_boot (State.record_device_boot _ (show ¬ 255 < 8 by decide))

theorem State.makePart_sameStart (cs : List (List Byte)) (acc p n : Nat) (r : Option (List Byte)) : s.SameStart (s.makePart cs acc p n r).1 := by
  unfold State.makePart
  dsimp only
  split
  · exact State.loseClaim_sameStart _ _ _ _
  · refine .trans (.trans ?_ (.foldl ?_ _ _)) (.foldl ?_ _ _)
    · exact ⟨rfl, rfl⟩
    · exact fun s x => ⟨rfl, rfl⟩
    · exact fun s c => ⟨rfl, rfl⟩

theorem State.makeParts_sameStart (rs cs : List (List Byte)) : s.SameStart (s.makeParts rs cs) := by
  refine State.SameStart.foldl_fst (fun x p => ?_) _ (s, 0)
  split
  · exact State.makePart_sameStart _ _ _ _ _ _
  · split
    · exact State.makePart_sameStart _ _ _ _ _ _
    · exact ⟨rfl, rfl⟩

theorem State.select_boot (l : Nat) : (s.select l).boot = s.boot := by
  unfold State.select
  dsimp only
  split_ifs <;> rfl

theorem State.startRecords_boot : s.startRecords.boot = s.boot := by
  have htrip : ∀ u : State, (if u.mod.tripReport then ({ u with mod := { u.mod with tripReport := false } }).record (recX 0x00 stABORTED) else u).boot = u.boot := fun u => by
    split
    · exact State.record_device_boot _ (show ¬ 255 < 8 by decide)
    · rfl
  refine (htrip _).trans ?_
  split
  · exact State.record_device_boot _ (show ¬ 255 < 8 by decide)
  · rfl

theorem State.ioaLost_boot : s.ioaLost.boot = { s.boot with ioaLost := true } := State.console_boot _ _ _

theorem State.hostDomains_boot : s.hostDomains.boot = s.boot := rfl

theorem State.releaseFlash_boot : s.releaseFlash.boot = s.boot := by
  rw [State.releaseFlash, State.msix_frame]
  rfl

/-- The state in which bare mode waits for IO-A. -/
def State.bareWait (s : State) (code : Nat) : State :=
  (({ s with boot := { s.boot with phase := .bare } }).console 2 code).releaseFlash.put Fld.PNL_SEL_NONE 0 1

theorem State.bareWait_boot (code : Nat) : (s.bareWait code).boot = { s.boot with phase := .bare } := by
  rw [State.bareWait, State.put_boot, State.releaseFlash_boot, State.console_boot]

/-- What is shown when bare mode is entered. -/
def State.bareShown (s : State) (code : Nat) (env : StartEnv) : State :=
  let s := (((s.put Fld.BOOT_STATUS_STATE 0 2).put Fld.BOOT_STATUS_CODE 0 code).put Fld.BOOT_STATUS_SLOT 0 0).put Fld.BOOT_TIME_MS_VALUE 0 env.ms
  if code = 0x13 then s else s.showKeys 7

theorem State.bareShown_boot (code : Nat) (env : StartEnv) : (s.bareShown code env).boot = s.boot := by
  unfold State.bareShown
  dsimp only
  split <;> rfl

theorem State.enterBare_eq (code : Nat) (env : StartEnv) :
    s.enterBare code env =
      if env.ioaFails then (((s.bareShown code env).makeParts [] []).bareWait code).ioaLost else (((s.bareShown code env).makeParts [] []).bareWait code).hostDomains.emit (.pin 1 1) := by
  unfold State.enterBare State.bareShown State.bareWait
  rfl

/-- Bare mode notes whether IO-A is lost (R43). -/
theorem State.enterBare_start (code : Nat) (env : StartEnv) :
    (s.enterBare code env).boot.phase = .bare ∧ (s.enterBare code env).boot.ioaLost = (s.boot.ioaLost || env.ioaFails) := by
  obtain ⟨-, hlost⟩ := (s.bareShown code env).makeParts_sameStart [] []
  rw [State.bareShown_boot] at hlost
  rw [State.enterBare_eq]
  generalize (s.bareShown code env).makeParts [] [] = m at *
  by_cases hfails : env.ioaFails = true
  · rw [if_pos hfails, State.ioaLost_boot, State.bareWait_boot, hfails, Bool.or_true]
    exact ⟨rfl, rfl⟩
  · rw [if_neg hfails, State.emit_boot, State.hostDomains_boot, State.bareWait_boot, Bool.eq_false_iff.mpr hfails, Bool.or_false]
    exact ⟨rfl, hlost⟩

theorem State.emitIf_boot (b : Bool) (o : Out) : (if b then s.emit o else s).boot = s.boot := by split <;> rfl

/-- What start-up does last, after the lanes and the collectors (R45). -/
def State.startEnd (s : State) (dieUp ms : Nat) : State :=
  let s := { (s.put Fld.BOOT_STATUS_STATE 0 1).put Fld.BOOT_TIME_MS_VALUE 0 ms with boot := { s.boot with phase := .running } }
  let s := s.startRecords
  let s := match s.listed with
    | l :: _ => s.select l
    | [] => s.put Fld.PNL_SEL_NONE 0 1
  if bit dieUp 0 then s.emit (.pin 1 1) else s

theorem State.startEnd_phase (dieUp ms : Nat) : (s.startEnd dieUp ms).boot.phase = .running := by
  refine (congrArg BootSt.phase (State.emitIf_boot _ _ _)).trans ?_
  split
  · rw [State.select_boot, State.startRecords_boot]
  · rw [State.put_boot, State.startRecords_boot]

theorem State.startAll_eq (up die cables : Nat) (bch : List BchRead) (ms : Nat) : ∃ u : State, s.startAll up die cables bch ms = u.startEnd die ms := by
  unfold State.startAll
  extract_lets
  exact ⟨_, rfl⟩

end

/-! ### START_UP -/

/-- After power-on, the state that power-on leaves. -/
def State.powered (s : State) (e : StartEnv) : State := if e.powerOn = true then s.powerOnReset else s

/-- The state in which START_UP looks at the fuses. -/
def State.started (s : State) (e : StartEnv) : State :=
  (({ s.powered e with boot := { (s.powered e).boot with env := some e } }).showLifecycle).console 1 0

theorem State.powered_lcFuses (s : State) (e : StartEnv) : (s.powered e).boot.lcFuses = s.boot.lcFuses := by
  obtain ⟨hboot, -⟩ := s.deviceReset_fields
  unfold State.powered
  split
  · exact (show s.powerOnReset.boot.lcFuses = s.deviceReset.boot.lcFuses from rfl).trans
      ((congrArg BootSt.lcFuses hboot).trans rfl)
  · rfl

section
variable (s : State) (c v : Nat)

theorem State.console_flds : (s.console c v).flds = s.flds := by
  obtain ⟨o, ho⟩ := s.console_eq c v
  rw [ho]

theorem State.get_console (g : RegField) (j : Nat) : (s.console c v).get g j = s.get g j := by rw [State.get, State.get, State.console_flds]

theorem State.console_mem : (s.console c v).mem = s.mem := by
  obtain ⟨o, ho⟩ := s.console_eq c v
  rw [ho]

theorem State.console_bh : (s.console c v).bh = s.bh := by
  obtain ⟨o, ho⟩ := s.console_eq c v
  rw [ho]

end

theorem State.started_lcFuses (s : State) (e : StartEnv) : (s.started e).boot.lcFuses = s.boot.lcFuses := by
  rw [State.started, State.console_boot]
  exact s.powered_lcFuses e

theorem State.showLifecycle_retired {s : State} (h : bit s.boot.lcFuses 1 = true) : s.showLifecycle.get Fld.SEC_LIFECYCLE_STATE 0 = 3 := by
  simp only [State.showLifecycle, State.get_put_same, h, if_true]
  rfl

/-- The lifecycle shown is RETIRED where RETIRE_F is burned. -/
theorem State.started_retired {s : State} (h : s.burned 1 = true) (e : StartEnv) : (s.started e).get Fld.SEC_LIFECYCLE_STATE 0 = 3 := by
  have hfuse : bit (s.powered e).boot.lcFuses 1 = true := by rw [State.powered_lcFuses]; exact h
  rw [State.started, State.get_console]
  exact State.showLifecycle_retired hfuse

section
variable {s : State} (e : StartEnv) (hphase : s.boot.phase = .reset)
include hphase

theorem exec_startUp_retired (h : s.burned 1 = true) :
    exec (.startUp e) s = .next { ((s.start.started e).eraseBanks.console 3 0) with boot := { ((s.start.started e).eraseBanks.console 3 0).boot with phase := .stopped } } := by
  have hgo : ¬ s.start.boot.phase ≠ .reset := fun h => h hphase
  have hfuse : bit (s.start.started e).boot.lcFuses 1 = true := by rw [State.started_lcFuses]; exact h
  rw [exec_startUp, execStartUp]
  rw [if_neg hgo]
  exact congrArg Host.Outcome.next (if_pos hfuse)

theorem exec_startUp_live (h : s.burned 1 = false) :
    exec (.startUp e) s = .next (if !(s.start.started e).otpOk then (s.start.started e).enterBare 0x13 e
      else if e.forceFactory ∨ e.teachAck then (s.start.started e).facLayer.enterBare 0x12 e else ((s.start.started e).facLayer.put Fld.BOOT_STATUS_STATE 0 0).readSlots e) := by
  have hgo : ¬ s.start.boot.phase ≠ .reset := fun h => h hphase
  have hfuse : ¬ bit (s.start.started e).boot.lcFuses 1 = true := by
    rw [State.started_lcFuses]
    exact fun hb => absurd (h.symm.trans hb) (by decide)
  rw [exec_startUp, execStartUp]
  rw [if_neg hgo]
  exact congrArg Host.Outcome.next (if_neg hfuse)

end

/-! ### Training and the end of the power-fail commit -/

theorem State.foldl_record_get (f : Nat → ErrRec) (hf : ∀ n, ¬ (f n).part < 8) {g : RegField} {j : Nat} (h : g.base + j * g.stride < 0x1B0000) (hlo : g.lo < 64) (ns : List Nat) (s : State) :
    (ns.foldl (fun s n => s.record (f n)) s).get g j = s.get g j := by
  induction ns generalizing s with
  | nil => rfl
  | cons n ns ih => rw [List.foldl_cons, ih, State.record_device _ (hf n), State.get_ringWrite _ _ _ h hlo]

theorem State.get_showPresent (s : State) (up die : Nat) :
    (s.showPresent up die).get Fld.GLB_PRESENT_STACK_UP 0 = Nat.land up (s.get Fld.GLB_VARIANT_STACK_FIT 0) % 2 ^ 4 ∧
      (s.showPresent up die).get Fld.GLB_PRESENT_IOD_UP 0 = Nat.land die (s.get Fld.GLB_VARIANT_IOD_FIT 0) % 2 ^ 3 := by
  unfold State.showPresent
  dsimp only
  rw [State.foldl_record_get _ (fun n => show ¬ 255 < 8 by decide) (by decide) (by decide), State.foldl_record_get _ (fun n => show ¬ 255 < 8 by decide) (by decide) (by decide),
    State.get_put_same, State.get_put_ne _ _ _ _ _ _ (by decide), State.get_put_same]
  exact ⟨rfl, rfl⟩

section
variable {s : State}

theorem exec_trainingComplete_ignored (htrain : s.boot.phase ≠ .training) (hbare : s.boot.phase ≠ .bare) {up : BitVec 4} {die cables : BitVec 3} {bch : List BchRead} {ms : Nat} :
    exec (.trainingComplete up die cables bch ms) s = .next s.start := by
  have htrain' : s.start.boot.phase ≠ .training := htrain
  have hbare' : s.start.boot.phase ≠ .bare := hbare
  rw [exec_trainingComplete, execTrainingComplete]
  split
  · rename_i h
    exact absurd h htrain'
  · rename_i h
    exact absurd h hbare'
  · rfl

theorem exec_powerfailControllersStop_in (h : s.boot.phase = .powerFail) : exec .powerfailControllersStop s = .next s.start.stopBanks.unitsHeld := by
  have hgo : ¬ s.start.boot.phase ≠ .powerFail := fun hne => hne h
  rw [exec_powerfailControllersStop, execPowerfailControllersStop]
  rw [if_neg hgo]
  rfl

theorem exec_restartAfterPwrfail_go (h : s.boot.phase = .powerFail) {ms : Nat} {cool : Bool} (hms : 50 ≤ ms) (hcool : s.mod.tripped = false ∨ cool = true) :
    exec (.restartAfterPwrfail ms true true cool) s = .next s.start.powerOnReset := by
  have hgo : ¬ (s.start.boot.phase ≠ .powerFail ∨ ms < 50 ∨ (!true) = true ∨ (!true) = true ∨ (s.start.mod.tripped = true ∧ (!cool) = true)) := by
    rintro (hp | hm | hf | hf | ⟨ht, hc⟩)
    · exact hp h
    · omega
    · exact absurd hf (by decide)
    · exact absurd hf (by decide)
    · rcases hcool with hcool | hcool
      · exact absurd (hcool.symm.trans ht) (by decide)
      · rw [hcool] at hc
        exact absurd hc (by decide)
  rw [exec_restartAfterPwrfail, execRestartAfterPwrfail]
  rw [if_neg hgo]

theorem exec_restartAfterPwrfail_early {ms : Nat} {inRange high cool : Bool} (h : ms < 50 ∨ inRange = false ∨ high = false) :
    exec (.restartAfterPwrfail ms inRange high cool) s = .next s.start := by
  have hgo : s.start.boot.phase ≠ .powerFail ∨ ms < 50 ∨ (!inRange) = true ∨ (!high) = true ∨ (s.start.mod.tripped = true ∧ (!cool) = true) := by
    rcases h with h | rfl | rfl
    · exact .inr (.inl h)
    · exact .inr (.inr (.inl rfl))
    · exact .inr (.inr (.inr (.inl rfl)))
  rw [exec_restartAfterPwrfail, execRestartAfterPwrfail]
  rw [if_pos hgo]

end

/-- Settles O51: each step by the lemma of its branch; training ends in `State.startEnd`. -/
theorem startUpFollowsItsSteps : Obligations.StartUpFollowsItsSteps := by
  unfold Obligations.StartUpFollowsItsSteps
  refine ⟨fun e s hphase => ?_, fun e s hphase => ?_, fun k e s hphase henv => ?_, fun c e s => ⟨_, rfl, s.enterBare_start c e⟩,
    fun up die cables bch ms s => ⟨fun htrain hbare => ?_, fun hbare => ?_, fun htrain => ⟨?_, ?_⟩, s.get_showPresent _ _⟩, fun s hfail => ⟨?_, ?_⟩,
    fun s hfail => ⟨?_, ⟨_, exec_powerfailControllersStop_in hfail, ?_, fun b => s.start.bnk_stopBanks b⟩, fun ms cool => exec_restartAfterPwrfail_go hfail,
      fun ms r h c => exec_restartAfterPwrfail_early⟩⟩
  · intro v u
    have hu : u = s.start.started e := rfl
    clear_value u
    subst hu
    refine ⟨fun h => ⟨_, exec_startUp_retired e hphase h, ?_⟩, fun h hrec => ?_, fun h hrec => ⟨fun hstraps => ?_, fun hforce hteach => ?_⟩⟩
    · refine ⟨?_, ?_, ?_, ?_, ?_⟩
      · exact State.console_bh _ _ _
      · rw [State.console_boot]
        rfl
      · exact State.console_mem _ _ _
      · exact State.console_flds _ _ _
      · exact (State.get_console _ _ _ _ _).trans (State.started_retired (s := s.start) h e)
    · rw [exec_startUp_live e hphase h, if_pos (by rw [hrec]; rfl)]
    · rw [exec_startUp_live e hphase h, if_neg (by rw [hrec]; decide), if_pos hstraps]
    · rw [exec_startUp_live e hphase h, if_neg (by rw [hrec]; decide), if_neg (by rw [hforce, hteach]; decide)]
  · have hgo : s.start.boot.phase ≠ .reset := hphase
    rw [exec_startUp, execStartUp]
    rw [if_pos hgo]
  · have hphase' : s.start.boot.phase = .readingSlot k := hphase
    have henv' : s.start.boot.env = some e := henv
    rw [exec_flashReadTimeout, execFlashReadTimeout]
    rw [if_pos hphase', henv']
  · exact exec_trainingComplete_ignored htrain hbare
  · have hbare' : s.start.boot.phase = .bare := hbare
    rw [exec_trainingComplete, execTrainingComplete]
    rw [hbare']
  · have htrain' : s.start.boot.phase = .training := htrain
    rw [exec_trainingComplete, execTrainingComplete]
    rw [htrain']
  · obtain ⟨u, hu⟩ := s.start.startAll_eq up.toNat die.toNat cables.toNat bch ms
    rw [hu, State.startEnd_phase]
  · have hgo : ¬ s.start.boot.phase = .powerFail := hfail
    rw [exec_pwrfail, execPwrfail]
    rw [if_neg hgo]
  · have hgo : s.start.boot.phase ≠ .powerFail := hfail
    rw [exec_powerfailControllersStop, execPowerfailControllersStop]
    rw [if_pos hgo]
  · have hgo : s.start.boot.phase = .powerFail := hfail
    rw [exec_pwrfail, execPwrfail]
    rw [if_pos hgo]
  · rw [State.unitsHeld, State.stopBanks_frame]
    rfl

end Sys2Proof.Machine
end

section
/-!
PROOFS. Chapter 13: the keys, the slider and the pins of the operator panel (R526 to R529, R533, R534, R536 to R539, R542, R546 to R548).
-/
namespace Sys2Proof.Machine

/-! ### Keys (R526 to R529) -/

section
variable {s : State} {n : Fin 24}

/-- With a panel, a key's first edge is a press. -/
theorem exec_keyPress_first (hup : s.panelUp = true) (hkey : s.pinFunc n = 1) (hfree : s.key n = none) :
    ¬ ((!s.start.panelUp) = true ∨ s.start.pinFunc n ≠ 1 ∨ (s.start.key n).isSome = true) := by
  rintro (h | h | h)
  · rw [show s.start.panelUp = true from hup] at h
    exact absurd h (by decide)
  · exact h hkey
  · rw [show s.start.key n = none from hfree] at h
    exact absurd h (by decide)

/-- In a chord every key is spent (R529). -/
theorem State.chordKeys_spent (s : State) {j : Nat} {k : KeyHeld} (h : (j, some k) ∈ s.chordKeys.pnl.held) : k.spent = true := by
  obtain ⟨⟨i, o⟩, -, he⟩ := List.mem_map.mp h
  obtain ⟨-, ho⟩ := Prod.mk.inj he
  obtain ⟨k', -, rfl⟩ := Option.map_eq_some_iff.mp ho
  rfl

theorem exec_keyPress_chord (hup : s.panelUp = true) (hkey : s.pinFunc n = 1) (hfree : s.key n = none) (hheld : s.pnl.held ≠ []) :
    exec (.keyPress n) s =
      .next (s.start.setKey n (some { act := s.pinArg n, target := s.selected, at_ := s.now, spent := decide (s.pinArg n = 1) })).chordKeys := by
  have hheld' : s.start.pnl.held ≠ [] := hheld
  rw [exec_keyPress, execKeyPress]
  rw [if_neg (exec_keyPress_first hup hkey hfree)]
  dsimp only
  rw [if_pos hheld']
  rfl

theorem exec_keyPress_mark (hup : s.panelUp = true) (hkey : s.pinFunc n = 1) (hfree : s.key n = none) (hheld : s.pnl.held = []) {l : Nat} (hmark : s.pinArg n = 1)
    (hsel : s.selected = some l) :
    exec (.keyPress n) s =
      .next ((((s.start.setKey n (some { act := s.pinArg n, target := s.selected, at_ := s.now, spent := decide (s.pinArg n = 1) })).mark l 0).acted).tone) := by
  have hheld' : ¬ s.start.pnl.held ≠ [] := fun h => h hheld
  have hmark' : s.start.pinArg n = 1 := hmark
  have hsel' : ∀ k, (s.start.setKey n k).selected = some l := fun _ => hsel
  rw [exec_keyPress, execKeyPress]
  rw [if_neg (exec_keyPress_first hup hkey hfree)]
  dsimp only
  rw [if_neg hheld', hmark', hsel', hmark]
  rfl

theorem exec_keyPress_other (hup : s.panelUp = true) (hkey : s.pinFunc n = 1) (hfree : s.key n = none) (hheld : s.pnl.held = []) (hmark : s.pinArg n ≠ 1) :
    exec (.keyPress n) s =
      .next (s.start.setKey n (some { act := s.pinArg n, target := s.selected, at_ := s.now, spent := decide (s.pinArg n = 1) })) := by
  have hheld' : ¬ s.start.pnl.held ≠ [] := fun h => h hheld
  have hmark' : s.start.pinArg n ≠ 1 := hmark
  rw [exec_keyPress, execKeyPress]
  rw [if_neg (exec_keyPress_first hup hkey hfree)]
  dsimp only
  rw [if_neg hheld']
  split
  · rename_i hact _
    exact absurd hact hmark'
  · rfl

section
variable {k : KeyHeld} (hk : s.key n = some k)
include hk

theorem exec_keyRelease_held :
    exec (.keyRelease n) s = .next (
      let u := (s.start.setKey n none).setFault n false
      let v := if k.spent = true then u else u.shortAct k.act k.target
      if v.pnl.held = [] then { v with pnl := { v.pnl with chord := false } } else v) := by
  have hk' : s.start.key n = some k := hk
  rw [exec_keyRelease, execKeyRelease]
  dsimp only
  rw [hk']

theorem exec_keyLongPress_held :
    exec (.keyLongPress n) s = .next (if k.spent = true then s.start else (s.start.setKey n (some { k with spent := true })).longAct k.act k.target) := by
  have hk' : s.start.key n = some k := hk
  rw [exec_keyLongPress, execKeyLongPress]
  rw [hk']

theorem exec_keyStuck_held :
    exec (.keyStuck n) s = .next (if s.pinFault n = true then s.start
      else ((s.start.setKey n (some { k with spent := true })).setFault n true).record (recC 0x1A stBUSY)) := by
  have hk' : s.start.key n = some k := hk
  rw [exec_keyStuck, execKeyStuck]
  rw [hk']
  rfl

end
end

/-! ### The slider's sweeps (R533, R534) -/

/-- What a sweep does once its counts are gathered: the slider's electrodes and the plug-detects' pins. -/
def State.sweepEnds (s : State) (es ps : List (Nat × Nat × Nat)) : State :=
  let s := s.takeCounts (es ++ ps)
  let s := ps.foldl (fun s e => if s.plugReads e.1 e.2.2 then s else s.track e.1 e.2.2) s
  if es.any fun e => s.pinFault e.1 then s
  else
    let t := s.sweepTouch es
    if t.pnl.touching then t else es.foldl (fun s e => s.track e.1 e.2.2) t

section
variable {s : State}

theorem exec_sliderSweep_electrode {n c : Nat} {cs : List Nat} (hup : s.panelUp = true) (h0 : s.sliderPin 0 = some n) (h1 : s.sliderPin 1 = none)
    (h2 : s.sliderPin 2 = none) (h3 : s.sliderPin 3 = none) : exec (.sliderSweep (c :: cs) []) s = .next (s.start.sweepEnds [(n, 0, c)] []) := by
  have h0' : s.start.sliderPin 0 = some n := h0
  have h1' : s.start.sliderPin 1 = none := h1
  have h2' : s.start.sliderPin 2 = none := h2
  have h3' : s.start.sliderPin 3 = none := h3
  have hgo : ¬ (!s.start.panelUp) = true := by rw [show s.start.panelUp = true from hup]; decide
  rw [exec_sliderSweep, execSliderSweep]
  rw [if_neg hgo]
  simp only [show List.range 4 = [0, 1, 2, 3] from rfl, List.filterMap_cons, List.filterMap_nil, h0', h1', h2', h3', List.getElem?_cons_zero, List.filter_nil, List.map_nil]
  rfl

theorem exec_sliderSweep_plug {n : Fin 24} {c : Nat} {cs : List Nat} (hup : s.panelUp = true) (hcap : s.capPlug n = true) (hnone : ∀ k : Nat, s.sliderPin k = none) :
    exec (.sliderSweep cs [(n, c)]) s = .next (s.start.sweepEnds [] [(n.val, 4, c)]) := by
  have hnone' : ∀ k : Nat, s.start.sliderPin k = none := hnone
  have hcap' : s.start.capPlug n = true := hcap
  have hgo : ¬ (!s.start.panelUp) = true := by rw [show s.start.panelUp = true from hup]; decide
  rw [exec_sliderSweep, execSliderSweep]
  rw [if_neg hgo]
  simp only [show List.range 4 = [0, 1, 2, 3] from rfl, List.filterMap_cons, List.filterMap_nil, hnone', List.filter_cons, hcap', List.filter_nil, List.map_cons, List.map_nil, if_true]
  rfl

/-- A state that has taken a pin's count. -/
def State.counted (s : State) (n c : Nat) : State := { s with pnl := { s.pnl with count := Tbl.set 0 s.pnl.count n c } }

theorem State.takeCounts_one (s : State) (n k c : Nat) :
    s.takeCounts [(n, k, c)] = if s.pinFault n = true ∧ s.countOk n c = true then (s.counted n c).setFault n false else s.counted n c := rfl

/-- A sweep that a finger touches on fewer than four electrodes. -/
def State.touchedBy (s : State) (hit : List (Nat × Nat × Nat)) : State :=
  { s with pnl := { s.pnl with touchRun := s.pnl.touchRun + 1, freeRun := 0, touching := s.pnl.touching || decide (1 ≤ s.pnl.touchRun), finger := s.underFinger hit } }

theorem State.sweepTouch_one {n c : Nat} (h : s.touched n c = true) : s.sweepTouch [(n, 0, c)] = s.touchedBy [(n, 0, c)] := by
  rw [State.sweepTouch, List.filter_cons, List.filter_nil]
  dsimp only
  rw [if_pos h, if_pos ⟨List.cons_ne_nil _ _, show 1 < 4 by decide⟩]
  rfl

/-- A sweep without a touch. -/
def State.untouched (s : State) : State := { s with pnl := { s.pnl with touchRun := 0, freeRun := s.pnl.freeRun + 1 } }

theorem State.sweepTouch_none (h : s.pnl.touching = false) : s.sweepTouch [] = s.untouched := by
  rw [State.sweepTouch, List.filter_nil]
  dsimp only
  rw [if_neg fun h => h.1 rfl]
  simp only [State.untouched, h, Bool.false_and]

/-- One touched electrode (R534): the first sweep starts a touch, the second holds it. -/
theorem State.sweepEnds_touched {n c : Nat} (hfault : s.pinFault n = false) (htouched : s.touched n c = true) (htouch : s.pnl.touching = false) :
    s.sweepEnds [(n, 0, c)] [] =
      if s.pnl.touchRun = 0 then ((s.counted n c).touchedBy [(n, 0, c)]).track n c else (s.counted n c).touchedBy [(n, 0, c)] := by
  have hsweep : ∀ u : State, u = s.takeCounts [(n, 0, c)] → s.sweepEnds [(n, 0, c)] [] = if ([(n, 0, c)].any fun e => u.pinFault e.1) = true then u
      else if (u.sweepTouch [(n, 0, c)]).pnl.touching = true then u.sweepTouch [(n, 0, c)] else (u.sweepTouch [(n, 0, c)]).track n c := fun u hu => hu ▸ rfl
  have hcount : s.counted n c = s.takeCounts [(n, 0, c)] := by
    rw [State.takeCounts_one, if_neg fun h => absurd (hfault.symm.trans h.1) (by decide)]
  have hfault' : ¬ ([(n, 0, c)].any fun e => (s.counted n c).pinFault e.1) = true := by
    rw [List.any_cons, List.any_nil, Bool.or_false]
    exact fun h => absurd (hfault.symm.trans h) (by decide)
  have htouching : ((s.counted n c).touchedBy [(n, 0, c)]).pnl.touching = decide (1 ≤ s.pnl.touchRun) := by
    show (s.pnl.touching || _) = _
    rw [htouch]
    rfl
  rw [hsweep _ hcount, if_neg hfault', State.sweepTouch_one (show (s.counted n c).touched n c = true from htouched), htouching]
  by_cases hrun : s.pnl.touchRun = 0
  · rw [if_pos hrun, if_neg (by rw [hrun]; decide)]
  · rw [if_neg hrun, if_pos (decide_eq_true (by omega))]

/-- What a plug-detect's count does to its pin (R533): a good count ends its fault, and its baseline follows where it reads unplugged. -/
def State.plugCounted (s : State) (n c : Nat) : State :=
  let w := if s.pinFault n = true ∧ s.countOk n c = true then (s.counted n c).setFault n false else s.counted n c
  if w.plugReads n c = true then w else w.track n c

theorem State.plugCounted_touching (s : State) (n c : Nat) : (s.plugCounted n c).pnl.touching = s.pnl.touching := by
  unfold State.plugCounted
  dsimp only
  split <;> split <;> rfl

theorem State.sweepEnds_plug {n c : Nat} (htouch : s.pnl.touching = false) : s.sweepEnds [] [(n, 4, c)] = (s.plugCounted n c).untouched := by
  have hsweep : s.sweepEnds [] [(n, 4, c)] = if ((s.plugCounted n c).sweepTouch []).pnl.touching then (s.plugCounted n c).sweepTouch [] else (s.plugCounted n c).sweepTouch [] := rfl
  rw [hsweep, ite_self, State.sweepTouch_none ((s.plugCounted_touching n c).trans htouch)]

end

/-! ### Plugs and pins (R536 to R539, R546 to R548) -/

section
variable {s : State} {n : Fin 24}

/-- A plug event changes no lane's state. -/
theorem State.laneState_plugChange (s : State) (n : Nat) (plugged : Bool) {l : Nat} (hl : l < 64) : (s.plugChange n plugged).laneState l = s.laneState l := by
  rw [State.laneState, State.plugChange, State.get_bump_ne _ _ _ _ _ _ (by simp only [RegField.key, Fld.LANE_STATUS_STATE, Fld.PNL_PLUG_CNT_CNT]; omega), State.putBitAt,
    State.get_put_ne _ _ _ _ _ _ (by simp only [RegField.key, Fld.LANE_STATUS_STATE, Fld.PNL_PLUGGED_PLUGGED]; omega)]
  rfl

theorem State.plugPinOk_lane (h : s.plugPinOk n = true) : s.pinArg n < 64 := by
  simp only [State.plugPinOk, Bool.and_eq_true, decide_eq_true_eq] at h
  exact h.1.2

theorem exec_sensorUnplug_admitted (hok : s.plugPinOk n = true) (hplugged : bit (s.get Fld.PNL_PLUGGED_PLUGGED 0) n = true) (hadmitted : s.laneAdmitted (s.pinArg n) = true) :
    exec (.sensorUnplug n) s = .next (if s.laneState (s.pinArg n) = 5 then (s.start.plugChange n false).setLane (s.pinArg n) { s.lane (s.pinArg n) with waiting := false }
      else (s.start.plugChange n false).makeAbsent (s.pinArg n)) := by
  have hstate : (s.start.plugChange n false).laneState (s.start.pinArg n) = s.laneState (s.pinArg n) := State.laneState_plugChange s.start n false (State.plugPinOk_lane hok)
  have hgo : ¬ ((!s.start.plugPinOk n) = true ∨ (!bit (s.start.get Fld.PNL_PLUGGED_PLUGGED 0) n) = true) := by
    rw [show s.start.plugPinOk n = true from hok, State.get_start, hplugged]
    decide
  have hadm : ¬ (!(s.start.plugChange n false).laneAdmitted (s.start.pinArg n)) = true := by
    rw [State.laneAdmitted, hstate]
    rw [State.laneAdmitted] at hadmitted
    rw [hadmitted]
    decide
  rw [exec_sensorUnplug, execSensorUnplug]
  rw [if_neg hgo]
  dsimp only
  rw [if_neg hadm, hstate]
  rfl

theorem exec_sensorReplug_absent (hok : s.plugPinOk n = true) (hplugged : bit (s.get Fld.PNL_PLUGGED_PLUGGED 0) n = false) (habsent : s.laneState (s.pinArg n) = 5) :
    exec (.sensorReplug n) s = .next ((s.start.plugChange n true).setLane (s.pinArg n) { s.lane (s.pinArg n) with waiting := true, waitAt := s.dev }) := by
  have hstate : (s.start.plugChange n true).laneState (s.start.pinArg n) = 5 := (State.laneState_plugChange s.start n true (State.plugPinOk_lane hok)).trans habsent
  have hgo : ¬ ((!s.start.plugPinOk n) = true ∨ bit (s.start.get Fld.PNL_PLUGGED_PLUGGED 0) n = true) := by
    rw [show s.start.plugPinOk n = true from hok, State.get_start, hplugged]
    decide
  rw [exec_sensorReplug, execSensorReplug]
  rw [if_neg hgo]
  dsimp only
  rw [if_pos hstate]
  rfl

theorem exec_electrodeFault_first (hup : s.panelUp = true) (hfunc : s.pinFunc n = 2 ∨ (s.pinFunc n = 3 ∧ bit (s.pinArg2 n) 0 = true)) (hfault : s.pinFault n = false) :
    exec (.electrodeFault n) s = .next ((s.start.setFault n true).record (recC 0x1A stDOWN)) := by
  have hgo : ¬ ((!s.start.panelUp) = true ∨ (!(decide (s.start.pinFunc n = 2) || (decide (s.start.pinFunc n = 3) && bit (s.start.pinArg2 n) 0))) = true ∨ s.start.pinFault n = true) := by
    rw [show s.start.panelUp = true from hup, show s.start.pinFault n = false from hfault]
    rcases hfunc with h | ⟨h, hb⟩
    · simp [show s.start.pinFunc n = 2 from h]
    · simp [show s.start.pinFunc n = 3 from h, show bit (s.start.pinArg2 n) 0 = true from hb]
  rw [exec_electrodeFault, execElectrodeFault]
  rw [if_neg hgo]

theorem exec_sinkOvercurrent_first (hup : s.panelUp = true) (hfunc : s.pinFunc n = 4 ∨ s.pinFunc n = 5) (hfault : s.pinFault n = false) :
    exec (.sinkOvercurrent n) s = .next ((s.start.setFault n true).record (recC 0x1A stDOWN)) := by
  have hgo : ¬ ((!s.start.panelUp) = true ∨ (!(decide (s.start.pinFunc n = 4) || decide (s.start.pinFunc n = 5))) = true ∨ s.start.pinFault n = true) := by
    rw [show s.start.panelUp = true from hup, show s.start.pinFault n = false from hfault]
    rcases hfunc with h | h
    · simp [show s.start.pinFunc n = 4 from h]
    · simp [show s.start.pinFunc n = 5 from h]
  rw [exec_sinkOvercurrent, execSinkOvercurrent]
  rw [if_neg hgo]

theorem exec_sinkRetry_sink (hfunc : s.pinFunc n = 4 ∨ s.pinFunc n = 5) (still : Bool) :
    exec (.sinkRetry n still) s = .next (if still = true then s.start else s.start.setFault n false) := by
  have hfunc' : s.start.pinFunc n = 4 ∨ s.start.pinFunc n = 5 := hfunc
  rw [exec_sinkRetry, execSinkRetry]
  cases still
  · rw [if_pos ⟨hfunc', rfl⟩, if_neg Bool.false_ne_true]
  · rw [if_neg fun h => absurd h.2 (by decide), if_pos rfl]

/-- Without IO-A there is no panel. -/
theorem State.not_plugPinOk (hdown : s.panelUp = false) (n : Nat) : s.plugPinOk n = false := by simp [State.plugPinOk, hdown]

end

/-! ### Registers -/

section
variable {s : State} {src : RegSrc} {w : RegWho} {r : RegRow} {i v : Nat}

theorem State.commitReg_pnlSel (hb : r.base = 0x1A010C) : s.commitReg src w r i v = (stOK, s.panelSelect v) := by simp [State.commitReg, hb]

theorem State.commitReg_buzzCtrl (hb : r.base = 0x1A0114) : s.commitReg src w r i v = (stOK, s.buzzCtrl v) := by simp [State.commitReg, hb]

end

/-- Settles O50: each key, sweep, plug, pin and register by the lemma of its branch. -/
theorem panelKeysAct : Obligations.PanelKeysAct := by
  unfold Obligations.PanelKeysAct
  refine ⟨fun n s hup hkey hfree => ?_, fun n k s hk => ?_, fun n c cs s hup h0 h1 h2 h3 hfault htouched htouch => ?_, fun n c cs s hup hcap hnone htouch => ?_,
    fun n cs ps s hdown => ⟨?_, ?_, ?_, ?_⟩, fun s => exec_selectionDisplayEnd s, fun n s hok => ⟨fun hplugged hadmitted => ⟨fun hstate => ?_, fun hstate => ?_⟩,
      fun hplugged habsent => exec_sensorReplug_absent hok hplugged habsent⟩, fun l s habsent hwait => ?_,
    fun n s hup => ⟨exec_electrodeFault_first hup, exec_sinkOvercurrent_first hup, fun hfunc => ⟨?_, ?_⟩⟩, fun src v s h => ⟨fun hin => ?_, fun hin => ?_⟩, fun src s h => ⟨?_, ?_⟩⟩
  · refine ⟨fun hheld => ⟨_, exec_keyPress_chord hup hkey hfree hheld, rfl, fun j k hj => State.chordKeys_spent _ hj⟩, fun hheld => ⟨fun l hmark hsel => ?_, fun hmark => ?_⟩⟩
    · exact exec_keyPress_mark hup hkey hfree hheld hmark hsel
    · exact exec_keyPress_other hup hkey hfree hheld hmark
  · refine ⟨exec_keyRelease_held hk, fun hspent => ?_, fun hspent => ?_, fun hfault => ?_, fun hfault => ?_⟩
    · rw [exec_keyLongPress_held hk, if_neg (by rw [hspent]; decide)]
    · rw [exec_keyLongPress_held hk, if_pos hspent]
    · rw [exec_keyStuck_held hk, if_neg (by rw [hfault]; decide)]
    · rw [exec_keyStuck_held hk, if_pos hfault]
  · have htouching : (decide (1 ≤ s.pnl.touchRun)) = (s.pnl.touching || decide (1 ≤ s.pnl.touchRun)) := by rw [htouch]; rfl
    rw [exec_sliderSweep_electrode hup h0 h1 h2 h3, State.sweepEnds_touched (s := s.start) hfault htouched htouch, htouching]
    rfl
  · rw [exec_sliderSweep_plug hup hcap hnone, State.sweepEnds_plug (s := s.start) htouch]
    rfl
  · have hgo : (!s.start.panelUp) = true := by rw [show s.start.panelUp = false from hdown]; rfl
    rw [exec_keyPress, execKeyPress]
    rw [if_pos (.inl hgo)]
  · have hgo : (!s.start.panelUp) = true := by rw [show s.start.panelUp = false from hdown]; rfl
    rw [exec_sliderSweep, execSliderSweep]
    rw [if_pos hgo]
  · have hgo : (!s.start.plugPinOk n) = true := by rw [State.not_plugPinOk (s := s.start) hdown]; rfl
    rw [exec_sensorUnplug, execSensorUnplug]
    rw [if_pos (.inl hgo)]
  · have hgo : (!s.start.plugPinOk n) = true := by rw [State.not_plugPinOk (s := s.start) hdown]; rfl
    rw [exec_sensorReplug, execSensorReplug]
    rw [if_pos (.inl hgo)]
  · rw [exec_sensorUnplug_admitted hok hplugged hadmitted, if_neg hstate]
  · rw [exec_sensorUnplug_admitted hok hplugged hadmitted, if_pos hstate]
  · have hgo : s.start.laneState l = 5 ∧ (s.start.lane l).waiting = true := ⟨habsent, hwait⟩
    rw [exec_replugWaitTimeout, execReplugWaitTimeout]
    rw [if_pos hgo]
  · rw [exec_sinkRetry_sink hfunc, if_neg Bool.false_ne_true]
  · rw [exec_sinkRetry_sink hfunc, if_pos rfl]
  · rw [exec_pnlSelWrite, execPnlSelWrite, State.busWrite_reaches _ _ _ _ _ _ h find_PNL_SEL rfl rfl, State.commitReg_pnlSel rfl, BitVec.toNat_mod_cancel, State.panelSelect, if_pos hin]
  · rw [exec_pnlSelWrite, execPnlSelWrite, State.busWrite_reaches _ _ _ _ _ _ h find_PNL_SEL rfl rfl, State.commitReg_pnlSel rfl, BitVec.toNat_mod_cancel, State.panelSelect,
      if_neg fun h => absurd (hin.symm.trans h) (by decide)]
    rfl
  · rw [exec_buzzerSilence, execBuzzerSilence, State.busWrite_reaches _ _ _ _ _ _ h find_PNL_BUZZ_CTRL rfl rfl, State.commitReg_buzzCtrl rfl]
    rfl
  · rw [exec_buzzerTest, execBuzzerTest, State.busWrite_reaches _ _ _ _ _ _ h find_PNL_BUZZ_CTRL rfl rfl, State.commitReg_buzzCtrl rfl]
    rfl

end Sys2Proof.Machine
end

section
/-!
PROOFS. Chapters 12 and 14: the host's registers, and the commands of recovery (R15, R16, R477 to R479, R493, R494, R497, R519, R557, R561, R564, R566, R568, R570, R576, R579).
-/
namespace Sys2Proof.Machine

/-! ### The writes of the host's registers -/

section
variable {s : State} {src : RegSrc} {w : RegWho} {r : RegRow} {i v : Nat}

theorem State.commitReg_mbTail (hb : r.base = 0x170014) : s.commitReg src w r i v = (stOK, (s.put Fld.HOST_MB_TAIL_TAIL i v).mbAll) := by simp [State.commitReg, hb]

theorem State.commitReg_mbCqHead (hb : r.base = 0x17001C) : s.commitReg src w r i v = (stOK, (s.put Fld.HOST_MB_CQ_HEAD_CQ_HEAD i v).mbAll) := by simp [State.commitReg, hb]

theorem State.commitReg_mbCfg (hb : r.base = 0x170010) : s.commitReg src w r i v = (stOK, s.mbCfg r i v) := by simp [State.commitReg, hb]

theorem State.commitReg_rptCons (hb : r.base = 0x16000C) : s.commitReg src w r i v = (stOK, s.rptCons i v) := by simp [State.commitReg, hb]

theorem State.commitReg_rptBase (hb : r.base = 0x160000) : s.commitReg src w r i v = (stOK, s.rptBase i v) := by simp [State.commitReg, hb]

theorem State.commitReg_errCons (hb : r.base = 0x1B0004) : s.commitReg src w r i v = (stOK, s.errCons i v) := by simp [State.commitReg, hb]

end

/-- The register HOST_MB_CFG_f. -/
def mbCfgRow : RegRow := ⟨"HOST_MB_CFG", 0x170010, 0x40, 8, 1, false, [Fld.HOST_MB_CFG_FAULT, Fld.HOST_MB_CFG_ENABLE, Fld.HOST_MB_CFG_LOG2_CQ, Fld.HOST_MB_CFG_LOG2_CMD]⟩

theorem find_mbCfgRow (i : Fin 8) : findReg (0x170010 + i.val * 0x40) = some (mbCfgRow, i.val, 0) := find_HOST_MB_CFG i

theorem mbCfgRow_mem : mbCfgRow ∈ regTable := mem_regTable_of_findReg (find_HOST_MB_CFG 0)

/-- A HOST_MB_CFG after a write of its fields: a mailbox that the write enables has its FAULT cleared (R493). -/
def State.mbConfigured (s : State) (f v : Nat) : State :=
  if !s.flag Fld.HOST_MB_CFG_ENABLE f ∧ (s.plainWrite mbCfgRow f v).flag Fld.HOST_MB_CFG_ENABLE f then (s.plainWrite mbCfgRow f v).put Fld.HOST_MB_CFG_FAULT f 0
  else s.plainWrite mbCfgRow f v

section
variable (s : State) (f v : Nat)

theorem State.mbCfg_eq : s.mbCfg mbCfgRow f v = (s.mbConfigured f v).mbAll := rfl

theorem State.mbConfigured_frame : s.mbConfigured f v = { s with flds := (s.mbConfigured f v).flds } := by
  have h : s.plainWrite mbCfgRow f v = { s with flds := (s.plainWrite mbCfgRow f v).flds } := s.foldl_writeField_frame f v _
  unfold State.mbConfigured
  split
  · rw [h]
    rfl
  · exact h

theorem State.get_plainWrite_mbCfg {g : RegField} (h : g ∈ mbCfgRow.fields) : (s.plainWrite mbCfgRow f v).get g f = g.written v (s.get g f) :=
  s.get_foldl_writeField f v (RegRow.keys_apart mbCfgRow_mem f) h

theorem State.get_mbConfigured {g : RegField} (h : g ∈ mbCfgRow.fields) (hne : g.key f ≠ Fld.HOST_MB_CFG_FAULT.key f) :
    (s.mbConfigured f v).get g f = g.written v (s.get g f) := by
  unfold State.mbConfigured
  split
  · rw [State.get_put_ne _ _ _ _ _ _ hne, State.get_plainWrite_mbCfg _ _ _ h]
  · exact State.get_plainWrite_mbCfg _ _ _ h

end

section
variable (v old : Nat)

theorem written_enable : Fld.HOST_MB_CFG_ENABLE.written v old = bits v 8 8 := bits_mod_width v 8 (w := 1) (by decide)

/-- A ring's size is taken where it is 6 to 12. -/
theorem log2_inRange (x : Nat) :
    (Fld.HOST_MB_CFG_LOG2_CQ.inRange x = true ↔ 6 ≤ x ∧ x ≤ 12) ∧ (Fld.HOST_MB_CFG_LOG2_CMD.inRange x = true ↔ 6 ≤ x ∧ x ≤ 12) := by
  simp [RegField.inRange, Fld.HOST_MB_CFG_LOG2_CQ, Fld.HOST_MB_CFG_LOG2_CMD]

theorem written_log2Cq : Fld.HOST_MB_CFG_LOG2_CQ.written v old = if 6 ≤ bits v 7 4 ∧ bits v 7 4 ≤ 12 then bits v 7 4 else old := by
  have hmod : bits v 7 4 % 2 ^ 4 = bits v 7 4 := bits_mod_width v 4 (w := 4) (by decide)
  show (if Fld.HOST_MB_CFG_LOG2_CQ.inRange (bits v 7 4) = true then bits v 7 4 % 2 ^ 4 else old) = _
  simp only [(log2_inRange _).1, hmod]

theorem written_log2Cmd : Fld.HOST_MB_CFG_LOG2_CMD.written v old = if 6 ≤ bits v 3 0 ∧ bits v 3 0 ≤ 12 then bits v 3 0 else old := by
  have hmod : bits v 3 0 % 2 ^ 4 = bits v 3 0 := bits_mod_width v 0 (w := 4) (by decide)
  show (if Fld.HOST_MB_CFG_LOG2_CMD.inRange (bits v 3 0) = true then bits v 3 0 % 2 ^ 4 else old) = _
  simp only [(log2_inRange _).2, hmod]

end

theorem State.get_mbConfigured_fault (s : State) (f v : Nat) :
    (s.mbConfigured f v).get Fld.HOST_MB_CFG_FAULT f = if s.flag Fld.HOST_MB_CFG_ENABLE f = false ∧ bits v 8 8 = 1 then 0 else s.get Fld.HOST_MB_CFG_FAULT f := by
  have henable : (s.plainWrite mbCfgRow f v).flag Fld.HOST_MB_CFG_ENABLE f = true ↔ bits v 8 8 = 1 := by
    rw [State.flag, decide_eq_true_iff, State.get_plainWrite_mbCfg _ _ _ (by decide), written_enable]
  have hwas : (!s.flag Fld.HOST_MB_CFG_ENABLE f) = true ↔ s.flag Fld.HOST_MB_CFG_ENABLE f = false := by simp
  unfold State.mbConfigured
  simp only [henable, hwas]
  split
  · exact State.get_put_same _ _ _ _
  · exact State.get_plainWrite_mbCfg _ _ _ (by decide)

theorem find_RPT_RING_BASE_high (i : Fin 8) : findReg (0x160000 + i.val * 0x40 + 4) = some (⟨"RPT_RING_BASE", 0x160000, 0x40, 8, 2, false, [Fld.RPT_RING_BASE_BASE]⟩, i.val, 1) := by
  have hi := i.isLt
  rw [findReg_block ((0x160000, 0x170000), regsRPT) _ (by simp [blockList]) (by simp only; omega) (by simp only; omega)]
  revert i
  decide +kernel

theorem State.get_heal (s : State) (off : Nat) (g : RegField) (j : Nat) : (s.heal off).get g j = s.get g j := rfl

section
variable {s : State} {p r v : Nat}

/-- A consumer index inside the ring is taken (R477). -/
theorem State.rptCons_in (h : (v + 2 ^ 32 - s.get Fld.RPT_RING_CONS_CONS p) % 2 ^ 32 ≤ (s.get Fld.RPT_RING_PROD_PROD p + 2 ^ 32 - s.get Fld.RPT_RING_CONS_CONS p) % 2 ^ 32) :
    s.rptCons p v = (s.put Fld.RPT_RING_CONS_CONS p v).drainAll p := if_neg (Nat.not_lt.mpr h)

theorem State.rptCons_out (hp : p < 8)
    (h : (s.get Fld.RPT_RING_PROD_PROD p + 2 ^ 32 - s.get Fld.RPT_RING_CONS_CONS p) % 2 ^ 32 < (v + 2 ^ 32 - s.get Fld.RPT_RING_CONS_CONS p) % 2 ^ 32) :
    s.rptCons p v = s.record { cls := 0, status := stDENIED, part := p, block := 0x16, infoKind := 3, info := 0x16000C + p * 0x40 } := by
  have hdiv : (0x16000C + p * 0x40) / 0x10000 % 32 = 0x16 := by omega
  have hblock : blockOf (0x16000C + p * 0x40) = 0x16 := by
    simp only [blockOf, hdiv]
    rfl
  rw [State.rptCons]
  rw [if_pos h, State.refuseReg, hblock]

/-- A consumer index inside the error ring is taken (R557). -/
theorem State.errCons_in (h : (v % 65536 + 65536 - s.get Fld.ERR_CONS_CONS r) % 65536 ≤ (s.get Fld.ERR_PROD_PROD r + 65536 - s.get Fld.ERR_CONS_CONS r) % 65536) :
    s.errCons r v = s.put Fld.ERR_CONS_CONS r v := if_neg (Nat.not_lt.mpr h)

theorem State.errCons_out (h : (s.get Fld.ERR_PROD_PROD r + 65536 - s.get Fld.ERR_CONS_CONS r) % 65536 < (v % 65536 + 65536 - s.get Fld.ERR_CONS_CONS r) % 65536) :
    s.errCons r v = s := if_pos h

end

/-- Settles O44: each register's own effect on the healed state. -/
theorem hostRegistersDriveTheirRings : Obligations.HostRegistersDriveTheirRings := by
  unfold Obligations.HostRegistersDriveTheirRings
  refine ⟨fun src f v bs s => ?_, fun src f v s => ?_, fun src f v s => ?_, fun src p v s => ?_, fun src r v s => ?_, fun src p v s => ?_⟩
  · intro off u h
    rw [exec_hostMbTailWrite, execHostMbTailWrite, State.busWrite_reaches _ _ _ _ _ _ h (find_HOST_MB_TAIL f) rfl rfl, State.commitReg_mbTail rfl, BitVec.toNat_mod_cancel]
  · intro off h
    rw [exec_hostMbCqHeadWrite, execHostMbCqHeadWrite, State.busWrite_reaches _ _ _ _ _ _ h (find_HOST_MB_CQ_HEAD f) rfl rfl, State.commitReg_mbCqHead rfl, BitVec.toNat_mod_cancel]
  · intro off h
    refine ⟨(s.start.heal off).mbConfigured f v.toNat, ?_, State.mbConfigured_frame _ _ _, ?_, ?_, ?_, ?_⟩
    · rw [exec_hostMbCfgWrite, execHostMbCfgWrite, State.busWrite_reaches _ _ _ _ _ _ h (find_mbCfgRow f) rfl rfl, State.commitReg_mbCfg rfl, BitVec.toNat_mod_cancel,
        State.mbCfg_eq]
    · rw [State.get_mbConfigured _ _ _ (by decide) (by simp only [RegField.key, Fld.HOST_MB_CFG_ENABLE, Fld.HOST_MB_CFG_FAULT]; omega), written_enable]
    · rw [State.get_mbConfigured _ _ _ (by decide) (by simp only [RegField.key, Fld.HOST_MB_CFG_LOG2_CQ, Fld.HOST_MB_CFG_FAULT]; omega), written_log2Cq, State.get_heal, State.get_start]
    · rw [State.get_mbConfigured _ _ _ (by decide) (by simp only [RegField.key, Fld.HOST_MB_CFG_LOG2_CMD, Fld.HOST_MB_CFG_FAULT]; omega), written_log2Cmd, State.get_heal, State.get_start]
    · rw [State.get_mbConfigured_fault, State.flag, State.flag, State.get_heal, State.get_heal, State.get_start, State.get_start]
  · intro off cons room h
    have hwrite : exec (.rptRingConsWrite src p v) s = .next (((s.start.heal off).rptCons p v.toNat).regAnswer stOK 0) := by
      rw [exec_rptRingConsWrite, execRptRingConsWrite, State.busWrite_reaches _ _ _ _ _ _ h (find_RPT_RING_CONS p) rfl rfl, State.commitReg_rptCons rfl, BitVec.toNat_mod_cancel]
    exact ⟨fun hin => by rw [hwrite, State.rptCons_in (s := s.start.heal off) hin], fun hout => by rw [hwrite, State.rptCons_out (s := s.start.heal off) p.isLt hout]⟩
  · intro off cons room h
    have hwrite : exec (.errConsWrite src r v) s = .next (((s.start.heal off).errCons r v.toNat).regAnswer stOK 0) := by
      rw [exec_errConsWrite, execErrConsWrite, State.busWrite_reaches _ _ _ _ _ _ h (find_ERR_CONS r) rfl rfl, State.commitReg_errCons rfl, BitVec.toNat_mod_cancel]
    exact ⟨fun hin => by rw [hwrite, State.errCons_in (s := s.start.heal off) hin], fun hout => by rw [hwrite, State.errCons_out (s := s.start.heal off) hout]⟩
  · intro off low h hhigh hword
    have hhighWord : v.toNat / 2 ^ 32 % 2 ^ 32 = v.toNat / 2 ^ 32 := by
      have hv := v.isLt
      omega
    have hbus : low.busWrite src (off + 4) 4 (v.toNat / 2 ^ 32) = (((low.heal off).setHold (low.regWho src).key { low.hold (low.regWho src).key with word := none }).rptBase p
        v.toNat).regAnswer stOK 0 := by
      rw [State.busWrite_eq_regWrite _ _ _ _ hhigh (find_RPT_RING_BASE_high p), State.regWrite_high_held _ _ _ _ _ rfl hword, State.commitReg_rptBase rfl,
        hhighWord, Nat.div_add_mod']
      rfl
    exact (exec_rptRingBaseWrite ..).trans (congrArg Host.Outcome.next hbus)

end Sys2Proof.Machine
end

section
/-!
PROOFS. Chapter 14: resets of units, drains, partitions and heartbeats (R561, R564, R566, R568, R570, R576, R579).
-/
namespace Sys2Proof.Machine

/-! ### ERR_UNIT_CMD -/

section
variable {s : State} {src : RegSrc} {w : RegWho} {r : RegRow} {i v : Nat}

theorem State.commitReg_unitCmd (hb : r.base = 0x1B0240) : s.commitReg src w r i v = (stOK, s.unitCmd v) := by simp [State.commitReg, hb]

theorem State.commitReg_partCtrl (hb : r.base = 0x1B0014) : s.commitReg src w r i v = (stOK, if bit v 0 then (s.restartPart i).mbAll else s) := by
  simp [State.commitReg, hb]

end

theorem bits_unit_action (a : Nat) {n : Nat} (hn : n < 256) (ha : a < 8) : bits (a * 256 + n) 7 0 = n ∧ bits (a * 256 + n) 10 8 = a := by
  simp only [bits]
  omega

/-- The state that asks for a unit's quiesce, shown as taken (R564). -/
def State.unitAsked (s : State) (n : Nat) : State := (s.put Fld.ERR_UNIT_STATUS_PENDING 0 1).unitDone n stOK

section
variable {s : State} {n : Nat} {a : QAct}

/-- A unit that is queued, or a full queue, takes no other command (R566). -/
theorem State.askQuiesce_busy (h : s.quiescing n = true ∨ (s.err.cur.isSome = true ∧ 8 ≤ s.err.queue.length)) : (s.unitAsked n).askQuiesce n a = none := if_pos h

theorem State.askQuiesce_free (hq : s.quiescing n = false) (hroom : s.err.cur = none ∨ s.err.queue.length < 8) :
    (s.unitAsked n).askQuiesce n a =
      some (State.nextQuiesce 10 ({ s.unitAsked n with err := { (s.unitAsked n).err with queue := (s.unitAsked n).err.queue ++ [(n, a)] } }).showQuiesce) := by
  refine if_neg ?_
  rintro (h | ⟨hcur, hfull⟩)
  · exact absurd (hq.symm.trans h) (by decide)
  · have hcur' : s.err.cur.isSome = true := hcur
    have hfull' : 8 ≤ s.err.queue.length := hfull
    rcases hroom with hroom | hroom
    · rw [hroom] at hcur'
      exact absurd hcur' (by decide)
    · omega

/-- What a command that may be taken does. -/
def State.unitTake (s : State) (n : Nat) (a : QAct) : State := (((s.unitAsked n).askQuiesce n a).map State.mbAll).getD (s.unitDone n stBUSY)

theorem State.unitCmd_reset (hn : n < 256) :
    s.unitCmd (0x100 + n) = if n = 0x45 ∨ (!s.unitFitted n) = true ∨ s.isRetired n = true then s.unitDone n stDENIED else s.unitTake n .reset := by
  obtain ⟨hunit, haction⟩ : bits (0x100 + n) 7 0 = n ∧ bits (0x100 + n) 10 8 = 1 := bits_unit_action 1 hn (by decide)
  rw [State.unitTake, State.unitAsked]
  simp only [State.unitCmd, hunit, haction]
  split
  · rfl
  · cases ((s.put Fld.ERR_UNIT_STATUS_PENDING 0 1).unitDone n stOK).askQuiesce n .reset with
    | none => rw [Option.map_none, Option.getD_none]
    | some t => rw [Option.map_some, Option.getD_some]

theorem State.unitCmd_update (hn : n < 256) : s.unitCmd (0x200 + n) = if n = 0x45 then s.unitTake n .update else s.unitDone n stDENIED := by
  obtain ⟨hunit, haction⟩ : bits (0x200 + n) 7 0 = n ∧ bits (0x200 + n) 10 8 = 2 := bits_unit_action 2 hn (by decide)
  rw [State.unitTake, State.unitAsked]
  simp only [State.unitCmd, hunit, haction]
  split
  · cases ((s.put Fld.ERR_UNIT_STATUS_PENDING 0 1).unitDone n stOK).askQuiesce n .update with
    | none => rw [Option.map_none, Option.getD_none]
    | some t => rw [Option.map_some, Option.getD_some]
  · rfl

theorem State.unitTake_busy (h : s.quiescing n = true ∨ (s.err.cur.isSome = true ∧ 8 ≤ s.err.queue.length)) : s.unitTake n a = s.unitDone n stBUSY := by
  rw [State.unitTake, State.askQuiesce_busy h, Option.map_none, Option.getD_none]

theorem State.unitTake_free (hq : s.quiescing n = false) (hroom : s.err.cur = none ∨ s.err.queue.length < 8) :
    s.unitTake n a = (State.nextQuiesce 10 ({ s.unitAsked n with err := { (s.unitAsked n).err with queue := (s.unitAsked n).err.queue ++ [(n, a)] } }).showQuiesce).mbAll := by
  rw [State.unitTake, State.askQuiesce_free hq hroom, Option.map_some, Option.getD_some]

end

section
variable {s : State} {src : RegSrc}

theorem exec_errUnitReset_of_reaches (h : s.start.reaches src 0x1B0240 = true) (n : BitVec 8) :
    exec (.errUnitReset src n) s = .next (((s.start.heal 0x1B0240).unitCmd (0x100 + n.toNat)).regAnswer stOK 0) := by
  have hn : (0x100 + n.toNat) % 2 ^ 32 = 0x100 + n.toNat := by
    have hlt := n.isLt
    omega
  rw [exec_errUnitReset, execErrUnitReset, State.busWrite_reaches _ _ _ _ _ _ h find_ERR_UNIT_CMD rfl rfl, State.commitReg_unitCmd rfl, hn]

theorem exec_errUnitUpdate_of_reaches (h : s.start.reaches src 0x1B0240 = true) (n : BitVec 8) :
    exec (.errUnitUpdate src n) s = .next (((s.start.heal 0x1B0240).unitCmd (0x200 + n.toNat)).regAnswer stOK 0) := by
  have hn : (0x200 + n.toNat) % 2 ^ 32 = 0x200 + n.toNat := by
    have hlt := n.isLt
    omega
  rw [exec_errUnitUpdate, execErrUnitUpdate, State.busWrite_reaches _ _ _ _ _ _ h find_ERR_UNIT_CMD rfl rfl, State.commitReg_unitCmd rfl, hn]

theorem exec_partitionRestart_of_reaches {p : Fin 8} (h : s.start.reaches src (0x1B0014 + p.val * 0x40) = true) :
    exec (.partitionRestart src p) s = .next (((s.start.heal (0x1B0014 + p.val * 0x40)).restartPart p).mbAll.regAnswer stOK 0) := by
  rw [exec_partitionRestart, execPartitionRestart, State.busWrite_reaches _ _ _ _ _ _ h (find_ERR_PART_CTRL p) rfl rfl, State.commitReg_partCtrl rfl, if_pos (by decide)]

end

/-! ### Drains, heartbeats and restarts -/

section
variable {s : State}

theorem exec_partitionAutoRestart_due {p : Fin 8} (hauto : s.get Fld.ERR_PART_CFG_AUTO_S p ≠ 0) (hno : NatSet.has s.err.noAuto p = false) (hcox : s.err.coxHalted = false) :
    exec (.partitionAutoRestart p) s = .next (s.start.restartPart p).mbAll := by
  have hgo : ¬ (s.start.get Fld.ERR_PART_CFG_AUTO_S p = 0 ∨ NatSet.has s.start.err.noAuto p = true ∨ s.start.err.coxHalted = true) := by
    rintro (h | h | h)
    · exact hauto h
    · exact absurd (hno.symm.trans h) (by decide)
    · exact absurd (hcox.symm.trans h) (by decide)
  rw [exec_partitionAutoRestart, execPartitionAutoRestart]
  rw [if_neg hgo]

theorem exec_heartbeatExpiry_first {p : Fin 8} (hms : s.get Fld.ERR_PART_CFG_HB_MS p ≠ 0) (hlate : NatSet.has s.err.hbLate p = false) (hcox : s.err.coxHalted = false)
    (halive : s.alive = true) :
    exec (.heartbeatExpiry p) s = .next (
      let late := ({ s.start with err := { s.err with hbLate := NatSet.add s.err.hbLate p } }).record { cls := 1, status := stTIMEOUT, part := p, block := 0x1B }
      if late.get Fld.ERR_PART_CFG_HB_ACTION p = 2 ∧ late.partRunning p = true then late.partFatal p stTIMEOUT else late) := by
  have hgo : ¬ (s.start.get Fld.ERR_PART_CFG_HB_MS p = 0 ∨ NatSet.has s.start.err.hbLate p = true ∨ s.start.err.coxHalted = true ∨ (!s.start.alive) = true) := by
    rintro (h | h | h | h)
    · exact hms h
    · exact absurd (hlate.symm.trans h) (by decide)
    · exact absurd (hcox.symm.trans h) (by decide)
    · rw [show s.start.alive = true from halive] at h
      exact absurd h (by decide)
  rw [exec_heartbeatExpiry, execHeartbeatExpiry]
  rw [if_neg hgo]
  rfl

theorem State.drained_early {u : Nat} {a : QAct} (hcur : s.err.cur = some (u, a)) (h : s.hasDrained u a = false) : s.drained = s := by
  rw [State.drained, hcur]
  dsimp only
  rw [if_pos (.inr (.inr (by rw [h]; rfl)))]

/-- The quiesce of a unit that has drained goes on. -/
theorem State.drained_go {u : Nat} {a : QAct} (hcox : s.err.coxHalted = false) (hback : Tbl.get none s.pwr.returning (unitDomain u) = none) (h : s.hasDrained u a = true) :
    ¬ (s.err.coxHalted = true ∨ (Tbl.get none s.pwr.returning (unitDomain u)).isSome = true ∨ (!s.hasDrained u a) = true) := by
  rw [hcox, hback, h]
  decide

section
variable {u : Nat} {a : QAct} (hcur : s.err.cur = some (u, a)) (hcox : s.err.coxHalted = false) (hback : Tbl.get none s.pwr.returning (unitDomain u) = none)
include hcur hcox hback

theorem exec_drainTimeout_running : exec .drainTimeout s = .next ((s.start.silentUnit u).mbAll) := by
  have hcur' : s.start.err.cur = some (u, a) := hcur
  have hgo : ¬ (s.start.err.coxHalted = true ∨ (Tbl.get none s.start.pwr.returning (unitDomain u)).isSome = true) := by
    rintro (h | h)
    · exact absurd (hcox.symm.trans h) (by decide)
    · rw [show Tbl.get none s.start.pwr.returning (unitDomain u) = none from hback] at h
      exact absurd h (by decide)
  rw [exec_drainTimeout, execDrainTimeout]
  rw [hcur']
  dsimp only
  rw [if_neg hgo]

end

theorem State.drained_reset {u : Nat} (hcur : s.err.cur = some (u, .reset)) (hcox : s.err.coxHalted = false) (hback : Tbl.get none s.pwr.returning (unitDomain u) = none)
    (h : s.hasDrained u .reset = true) : s.drained = State.nextQuiesce 10 (((s.drainUnit u true).bumpEpoch u).cycle u (s.epoch u)) := by
  rw [State.drained, hcur]
  dsimp only
  rw [if_neg (State.drained_go hcox hback h)]

theorem State.drained_autoOff {u : Nat} (hcur : s.err.cur = some (u, .autoOff)) (hcox : s.err.coxHalted = false) (hback : Tbl.get none s.pwr.returning (unitDomain u) = none)
    (h : s.hasDrained u .autoOff = true) :
    s.drained = State.nextQuiesce 10 ((((s.drainUnit u true).bumpEpoch u).domainOff (unitDomain u)).endQuiesce stOK) := by
  rw [State.drained, hcur]
  dsimp only
  rw [if_neg (State.drained_go hcox hback h), if_pos rfl]
  rfl

end

/-- Settles O45: the unit's commands by `State.unitTake`, and each event by the lemma of its branch. -/
theorem recoveryCommandsActOnTheirUnit : Obligations.RecoveryCommandsActOnTheirUnit := by
  unfold Obligations.RecoveryCommandsActOnTheirUnit
  refine ⟨fun src n s h => ?_, fun src p s h => ?_, fun p s => ⟨exec_partitionAutoRestart_due, exec_heartbeatExpiry_first⟩, fun u a s hcur hcox hback => ?_⟩
  · intro u asked
    have hn : n.toNat < 256 := n.isLt
    have hasked : u.unitAsked n.toNat = asked := rfl
    have hfree : n.toNat ≠ 0x45 → s.unitFitted n.toNat = true → s.isRetired n.toNat = false →
        ¬ (n.toNat = 0x45 ∨ (!u.unitFitted n.toNat) = true ∨ u.isRetired n.toNat = true) := by
      intro hne hfit hlive
      rw [show u.unitFitted n.toNat = true from hfit, show u.isRetired n.toNat = false from hlive]
      simp [hne]
    refine ⟨fun hbar => ?_, fun hne hfit hlive => ⟨fun hbusy => ?_, fun hq hroom => ?_⟩, fun hne => ?_, fun he hq hcur => ?_⟩
    · have hbar' : n.toNat = 0x45 ∨ (!u.unitFitted n.toNat) = true ∨ u.isRetired n.toNat = true := by
        refine hbar.imp_right (.imp_left fun hfit => ?_)
        rw [show u.unitFitted n.toNat = false from hfit]
        rfl
      rw [exec_errUnitReset_of_reaches h, State.unitCmd_reset hn, if_pos hbar']
    · rw [exec_errUnitReset_of_reaches h, State.unitCmd_reset hn, if_neg (hfree hne hfit hlive), State.unitTake_busy (s := u) hbusy]
    · rw [exec_errUnitReset_of_reaches h, State.unitCmd_reset hn, if_neg (hfree hne hfit hlive), State.unitTake_free (s := u) hq hroom, hasked]
    · rw [exec_errUnitUpdate_of_reaches h, State.unitCmd_update hn, if_neg hne]
    · rw [exec_errUnitUpdate_of_reaches h, State.unitCmd_update hn, if_pos he, State.unitTake_free (s := u) (by rw [he]; exact hq) (.inl hcur), hasked, he]
  · intro u
    exact ⟨exec_partitionRestart_of_reaches h, fun hrun => if_pos hrun⟩
  · refine ⟨exec_drainTimeout_running hcur hcox hback, fun hd => ?_, fun hd ha => ?_, fun hd ha => ?_⟩
    · rw [exec_quiesceDrainDone, execQuiesceDrainDone, State.drained_early (s := s.start) hcur hd]
    · subst ha
      rw [exec_quiesceDrainDone, execQuiesceDrainDone, State.drained_reset (s := s.start) hcur hcox hback hd]
      rfl
    · subst ha
      rw [exec_quiesceDrainDone, execQuiesceDrainDone, State.drained_autoOff (s := s.start) hcur hcox hback hd]

end Sys2Proof.Machine
end

section
/-!
PROOFS. Chapter 12: the collectors (R481 to R485, R520) and the ports of the Jalvin Link (R503 to R508, R511, R517, R654).
-/
namespace Sys2Proof.Machine

/-! ### Collectors -/

/-- A collector that has sent its first 22 records, and keeps them where it awaits an acknowledgement. -/
def Collector.flushed (c : Collector) (now : Nat) (ack : Bool) : Collector :=
  let kept : Dgram := { dseq := c.dseq, recs := c.fill.take 22, sentAt := now, resends := 0 }
  { c with fill := c.fill.drop 22, firstAt := now, dseq := (c.dseq + 1) % 2 ^ 32, unacked := if ack = true then c.unacked ++ [kept] else c.unacked }

/-- A collector that sends a datagram again. -/
def Collector.resent (c : Collector) (now : Nat) (d : Dgram) : Collector :=
  let again : Dgram := { d with sentAt := now, resends := d.resends + 1 }
  { c with unacked := c.unacked.map fun (x : Dgram) => if x.dseq = d.dseq then again else x }

/-- A collector that gives a datagram up. -/
def Collector.gaveUp (c : Collector) (now : Nat) (d : Dgram) (fill : List Report) : Collector :=
  { c with unacked := c.unacked.filter (fun (x : Dgram) => x.dseq ≠ d.dseq), fill := fill, firstAt := if c.fill = [] then now else c.firstAt }

section
variable {s : State} {i : Fin 4} {c : Collector} (hc : s.start.col i = some c)
include hc

theorem exec_collectorFlush_sends (hfill : c.fill ≠ []) (hres : s.get Fld.RPT_COL_STATUS_RESOLVED i ≠ 0) (hfull : s.colFull i c = false) :
    exec (.collectorFlush i) s = .next (((s.start.setCol i (c.flushed s.now (s.flag Fld.RPT_COL_CFG_ACK_MODE i))).bump
        Fld.RPT_COL_DGRAM_CNT_CNT i 1).emit (.datagram i (s.colPort c) (s.dgramBytes i c.dseq 0 (c.fill.take 22)))) := by
  have hgo : ¬ (c.fill = [] ∨ s.start.get Fld.RPT_COL_STATUS_RESOLVED i = 0 ∨ s.start.colFull i c = true) := by
    rintro (h | h | h)
    · exact hfill h
    · exact hres h
    · exact absurd (hfull.symm.trans h) (by decide)
  rw [exec_collectorFlush, execCollectorFlush, State.sendDgram, hc]
  dsimp only
  rw [if_neg hgo]
  rfl

theorem exec_collectorFlush_full (hfull : s.colFull i c = true) : exec (.collectorFlush i) s = .next s.start := by
  have hgo : c.fill = [] ∨ s.start.get Fld.RPT_COL_STATUS_RESOLVED i = 0 ∨ s.start.colFull i c = true := .inr (.inr hfull)
  rw [exec_collectorFlush, execCollectorFlush, State.sendDgram, hc]
  dsimp only
  rw [if_pos hgo]

/-- An acknowledgement from the collector where it acknowledges (R482). -/
theorem exec_collectorAck_known {q : BitVec 32} (hmode : s.flag Fld.RPT_COL_CFG_ACK_MODE i = true) :
    exec (.collectorAck i q true) s = .next (
      if (c.unacked.any fun (x : Dgram) => x.dseq = q.toNat) = true then
        (s.start.setCol i { c with unacked := (c.unacked.filter (fun (x : Dgram) => x.dseq ≠ q.toNat)), acked := NatSet.add c.acked q.toNat }).colResume i
      else if NatSet.has c.acked q.toNat = true then s.start.bump Fld.RPT_COL_DUP_CNT_CNT i 1
      else s.start) := by
  have hgo : ¬ ((!true) = true ∨ (!s.start.flag Fld.RPT_COL_CFG_ACK_MODE i) = true) := by
    rw [show s.start.flag Fld.RPT_COL_CFG_ACK_MODE i = true from hmode]
    decide
  rw [exec_collectorAck, execCollectorAck]
  rw [hc]
  dsimp only
  rw [if_neg hgo]

theorem exec_datagramResend_kept {q : BitVec 32} {d : Dgram} (hd : (c.unacked.find? fun (x : Dgram) => x.dseq = q.toNat) = some d) :
    exec (.datagramResend i q) s = .next (
      if 5 ≤ d.resends then
        ((s.start.setCol i (c.gaveUp s.now d (s.withAbandoned c.fill d.recs))).bump Fld.RPT_COL_LOST_CNT_CNT i (d.recs.filter (fun (x : Report) => !x.isMarker)).length).colResume i
      else ((s.start.setCol i (c.resent s.now d)).bump
          Fld.RPT_COL_RETX_CNT_CNT i 1).emit (.datagram i (s.colPort c) (s.dgramBytes i d.dseq 1 d.recs))) := by
  rw [exec_datagramResend, execDatagramResend]
  dsimp only
  rw [hc]
  dsimp only
  rw [hd]
  rfl

theorem exec_nextHopResolve_found (hlink : (s.colPort c).any (fun (p : Nat × Nat) => s.portLink p.1 p.2) = true) :
    exec (.nextHopResolve i true) s = .next (((s.start.put Fld.RPT_COL_STATUS_RESOLVED i 1).put Fld.RPT_COL_STATUS_DOWN i 0).colResume i) := by
  have hgo : true = true ∧ (s.start.colPort c).any (fun (p : Nat × Nat) => s.start.portLink p.1 p.2) = true := ⟨rfl, hlink⟩
  rw [exec_nextHopResolve, execNextHopResolve]
  rw [hc]
  dsimp only
  rw [if_pos hgo]

theorem exec_nextHopResolve_lost {found : Bool} (hlost : found = false ∨ (s.colPort c).any (fun (p : Nat × Nat) => s.portLink p.1 p.2) = false)
    (hres : s.get Fld.RPT_COL_STATUS_RESOLVED i = 1) :
    exec (.nextHopResolve i found) s = .next ((s.start.put Fld.RPT_COL_STATUS_RESOLVED i 0).setCol i { c with unresolvedAt := s.now }) := by
  have hgo : ¬ (found = true ∧ (s.start.colPort c).any (fun (p : Nat × Nat) => s.start.portLink p.1 p.2) = true) := by
    rintro ⟨hf, hl⟩
    rcases hlost with h | h
    · exact absurd (h.symm.trans hf) (by decide)
    · exact absurd (h.symm.trans hl) (by decide)
  have hres' : s.start.get Fld.RPT_COL_STATUS_RESOLVED i = 1 := hres
  rw [exec_nextHopResolve, execNextHopResolve]
  rw [hc]
  dsimp only
  rw [if_neg hgo, if_pos hres']
  rfl

theorem exec_collectorDown_first (hres : s.get Fld.RPT_COL_STATUS_RESOLVED i ≠ 1) (hdown : s.flag Fld.RPT_COL_STATUS_DOWN i = false) :
    exec (.collectorDown i) s =
      .next ((c.fill.foldl (fun (s : State) r => s.colDrop i r) ((s.start.setCol i { c with fill := [] }).put Fld.RPT_COL_STATUS_DOWN i 1)).record (recX 0x16 stDOWN)) := by
  have hgo : ¬ (s.start.get Fld.RPT_COL_STATUS_RESOLVED i = 1 ∨ s.start.flag Fld.RPT_COL_STATUS_DOWN i = true) := by
    rintro (h | h)
    · exact hres h
    · exact absurd (hdown.symm.trans h) (by decide)
  rw [exec_collectorDown, execCollectorDown]
  rw [hc]
  dsimp only
  rw [if_neg hgo]

end

/-- Settles O46: each command by the lemma of its branch. -/
theorem collectorsSendAndResend : Obligations.CollectorsSendAndResend := by
  unfold Obligations.CollectorsSendAndResend
  intro i c s hc
  refine ⟨exec_collectorFlush_sends hc, exec_collectorFlush_full hc, fun q hmode => ⟨fun hin => ?_, fun hin hdup => ?_⟩, fun q d hd => ⟨fun hfew => ?_, fun hmany => ?_⟩,
    exec_nextHopResolve_found hc, fun found => exec_nextHopResolve_lost hc, exec_collectorDown_first hc⟩
  · rw [exec_collectorAck_known hc hmode, if_pos hin]
  · rw [exec_collectorAck_known hc hmode, if_neg (by rw [hin]; decide), if_pos hdup]
  · rw [exec_datagramResend_kept hc hd, if_neg (Nat.not_le.mpr hfew)]
    rfl
  · rw [exec_datagramResend_kept hc hd, if_pos hmany]
    rfl

/-! ### Link ports -/

section
variable {s : State} {d : Fin 3} (hon : s.linkOn d = true)

theorem State.sendFlit_idle (s : State) (d : Nat) :
    s.sendFlit d 0 2 [] = (s.setPort d { s.jlPort d with freedReq := 0, freedRsp := 0 }).emit
      (.flit d (flitBytes 0 (s.jlPort d).lastAccepted 2 (s.jlPort d).freedReq (s.jlPort d).freedRsp (s.get Fld.GLB_PKG_ID_PKG_ID 0) [])) := rfl

theorem State.jlPort_emit (s : State) (d : Nat) (o : Out) : (s.emit o).jlPort d = s.jlPort d := rfl

/-- A flit that fails its check (R506): it counts, and one that follows another such flit is not asked for again. -/
theorem State.flitIn_bad {s : State} {d : Nat} {bs : List Byte} (hlen : bs.length ≠ 128) (hrun : (s.jlPort d).badRun < 15) (hnak : (s.jlPort d).nakSent = true) :
    s.flitIn d bs = (s.bump Fld.JL_CRC_ERR_CNT_CNT d 1).setPort d { s.jlPort d with badRun := (s.jlPort d).badRun + 1 } := by
  have hport : (s.bump Fld.JL_CRC_ERR_CNT_CNT d 1).jlPort d = s.jlPort d := rfl
  have hquiet : ((s.bump Fld.JL_CRC_ERR_CNT_CNT d 1).setPort d { s.jlPort d with badRun := (s.jlPort d).badRun + 1 }).flitNak d =
      (s.bump Fld.JL_CRC_ERR_CNT_CNT d 1).setPort d { s.jlPort d with badRun := (s.jlPort d).badRun + 1 } := by
    rw [State.flitNak, State.jlPort_setPort]
    dsimp only
    rw [if_pos hnak]
  rw [State.flitIn]
  dsimp only
  rw [if_pos (.inl hlen), hport, hquiet, if_neg (by omega)]

include hon

theorem exec_idleFlitTimer_up (hup : s.portUp d = true) : exec (.idleFlitTimer d) s = .next (s.start.sendFlit d 0 2 []) := by
  have hgo : s.start.linkOn d = true ∧ s.start.portUp d = true := ⟨hon, hup⟩
  rw [exec_idleFlitTimer, execIdleFlitTimer]
  rw [if_pos hgo]

theorem exec_replayTimeout_up (hup : s.portUp d = true) : exec (.replayTimeout d) s = .next (s.start.resend d) := by
  have hgo : s.start.linkOn d = true ∧ s.start.portUp d = true := ⟨hon, hup⟩
  rw [exec_replayTimeout, execReplayTimeout]
  rw [if_pos hgo]

theorem exec_flitReceive_up (hup : s.portUp d = true) (bs : List Byte) : exec (.flitReceive d bs) s = .next ((((s.start.flitIn d bs).monitorGo).portGo d).settle) := by
  have hgo : s.start.linkOn d = true ∧ s.start.portUp d = true := ⟨hon, hup⟩
  rw [exec_flitReceive, execFlitReceive]
  rw [if_pos hgo]

theorem retrainDone_go (hstate : s.get Fld.JL_STATUS_STATE d = 1) (htry : (s.jlPort d).trying = true) :
    ¬ ((!s.start.linkOn d) = true ∨ (!(s.start.jlPort d).trying) = true ∨ s.start.get Fld.JL_STATUS_STATE d ≠ 1) := by
  rw [show s.start.linkOn d = true from hon, show (s.start.jlPort d).trying = true from htry]
  rintro (h | h | h)
  · exact absurd h (by decide)
  · exact absurd h (by decide)
  · exact h hstate

theorem exec_retrainDone_good (hstate : s.get Fld.JL_STATUS_STATE d = 1) (htry : (s.jlPort d).trying = true) :
    exec (.retrainDone d true) s = .next ((((s.start.setPort d { s.jlPort d with
      replay := ((List.range (s.jlPort d).replay.length).zip ((s.jlPort d).replay.map (·.2))), nextSeq := (s.jlPort d).replay.length, trying := false }).put
        Fld.JL_STATUS_STATE d 2).resend d).portGo d) := by
  have hlen : ((List.range (s.start.jlPort d).replay.length).zip ((s.start.jlPort d).replay.map (·.2))).length = (s.start.jlPort d).replay.length := by simp
  rw [exec_retrainDone, execRetrainDone]
  dsimp only
  rw [if_neg (retrainDone_go hon hstate htry), if_pos rfl, hlen]
  rfl

theorem exec_retrainDone_failed (hstate : s.get Fld.JL_STATUS_STATE d = 1) (htry : (s.jlPort d).trying = true) :
    exec (.retrainDone d false) s = .next (
      let fails := s.now :: ((s.jlPort d).retrains.filter (fun (t : Nat) => decide (s.now < t + 1000000000)))
      let u := s.start.setPort d { s.jlPort d with retrains := fails }
      if 3 ≤ fails.length then u.portDown d else u.bump Fld.JL_RETRAIN_CNT_CNT d 1) := by
  rw [exec_retrainDone, execRetrainDone]
  rw [if_neg (retrainDone_go hon hstate htry), if_neg Bool.false_ne_true]
  rfl

end

/-- A port's cable, as a training attempt finds it (R503). -/
def State.plugged (s : State) (d : Nat) (cable : Bool) : State := { s with mod := { s.mod with cables := (if cable then NatSet.add s.mod.cables d else NatSet.del s.mod.cables d) } }

section
variable {s : State} {d : Fin 3} (hon : s.linkOn d = true) (hdown : s.portUp d = false) (htry : (s.jlPort d).trying = false)
include hon hdown htry

theorem linkTrain_go : ¬ ((!s.start.linkOn d) = true ∨ s.start.portUp d = true ∨ (s.start.jlPort d).trying = true) := by
  rw [show s.start.linkOn d = true from hon, show s.start.portUp d = false from hdown, show (s.start.jlPort d).trying = false from htry]
  decide

theorem exec_linkTrainAttempt_failed {cable ok : Bool} (q : BitVec 4) (h : cable = false ∨ ok = false) :
    exec (.linkTrainAttempt d cable ok q) s = .next ((s.start.plugged d cable).portDown d) := by
  rw [exec_linkTrainAttempt, execLinkTrainAttempt]
  rw [if_neg (linkTrain_go hon hdown htry)]
  cases cable with
  | false =>
    dsimp only
    rw [if_pos (show (!false) = true from rfl)]
    rfl
  | true =>
    have hok : ok = false := h.resolve_left (by decide)
    subst hok
    dsimp only
    rw [if_neg (show ¬ (!true) = true by decide), if_pos (show (!false) = true from rfl)]
    rfl

/-- What a good attempt shows of its partner. -/
def State.partnerShown (s : State) (d : Nat) (q : Nat) : State := ((s.plugged d true).put Fld.JL_STATUS_PARTNER d q).put Fld.JL_STATUS_PARTNER_VALID d 1

theorem exec_linkTrainAttempt_good (q : BitVec 4) :
    exec (.linkTrainAttempt d true true q) s = .next (
      if q.toNat = s.get Fld.GLB_PKG_ID_PKG_ID 0 then
        if (s.flag Fld.JL_STATUS_PARTNER_VALID d && decide (s.get Fld.JL_STATUS_PARTNER d = s.get Fld.GLB_PKG_ID_PKG_ID 0)) = true then
          ((s.start.partnerShown d q.toNat).setPort d {}).put Fld.JL_STATUS_STATE d 0
        else (((s.start.partnerShown d q.toNat).setPort d {}).put Fld.JL_STATUS_STATE d 0).record { cls := 0, status := stCONFLICT, unit := 0x3A + 3 * d.val, block := 0x18 }
      else (((s.start.partnerShown d q.toNat).setPort d { waiting := (s.jlPort d).waiting }).put Fld.JL_STATUS_STATE d 2).portGo d) := by
  rw [exec_linkTrainAttempt, execLinkTrainAttempt]
  rw [if_neg (linkTrain_go hon hdown htry)]
  dsimp only
  rw [if_neg (show ¬ (!true) = true by decide), if_neg (show ¬ (!true) = true by decide)]
  rfl

end

/-- Settles O48: each event by the lemma of its branch. -/
theorem linkPortsKeepTheirFlits : Obligations.LinkPortsKeepTheirFlits := by
  unfold Obligations.LinkPortsKeepTheirFlits
  intro d s hon
  refine ⟨fun hup => ⟨⟨_, exec_idleFlitTimer_up hon hup, rfl, rfl, ?_, rfl⟩, exec_replayTimeout_up hon hup, fun bs => ⟨exec_flitReceive_up hon hup bs, fun hlen hrun hnak => ?_⟩⟩,
    fun hstate htry => ⟨exec_retrainDone_good hon hstate htry, exec_retrainDone_failed hon hstate htry⟩, fun hdown htry => ⟨fun cable ok q => exec_linkTrainAttempt_failed hon hdown htry q, fun q => ⟨fun hq => ?_, fun hq => ?_⟩⟩⟩
  · rw [State.sendFlit_idle, State.jlPort_emit, State.jlPort_setPort]
    rfl
  · refine ⟨_, State.flitIn_bad (s := s.start) hlen hrun hnak, rfl, ?_⟩
    rw [State.jlPort_setPort]
    rfl
  · rw [exec_linkTrainAttempt_good hon hdown htry, if_neg hq]
    rfl
  · rw [exec_linkTrainAttempt_good hon hdown htry, if_pos hq]
    have hknown : (s.flag Fld.JL_STATUS_PARTNER_VALID d && decide (s.get Fld.JL_STATUS_PARTNER d = s.get Fld.GLB_PKG_ID_PKG_ID 0)) = true ↔
        s.flag Fld.JL_STATUS_PARTNER_VALID d = true ∧ s.get Fld.JL_STATUS_PARTNER d = q.toNat := by
      rw [Bool.and_eq_true, decide_eq_true_iff, hq]
    simp only [hknown]
    rfl

end Sys2Proof.Machine
end

section
/-!
PROOFS. Chapters 8 and 9: the lanes' registers, and the modulators (R321, R322, R390, R391, R398, R427, R475).
-/
namespace Sys2Proof.Machine

/-! ### The lanes' registers -/

section
variable {s : State} {src : RegSrc} {w : RegWho} {r : RegRow} {i v : Nat}

theorem State.commitReg_laneMask (hb : r.base = 0x100008) : s.commitReg src w r i v = (stOK, s.laneMask i v) := by simp [State.commitReg, hb]

theorem State.commitReg_laneLevel {k : Nat} (hk : k < 3) (hb : r.base = 0x10000C + k * 4) : s.commitReg src w r i v = (stOK, s.laneLevel i k v) := by
  have hk' : k = 0 ∨ k = 1 ∨ k = 2 := by omega
  rcases hk' with rfl | rfl | rfl <;> simp [State.commitReg, hb]

theorem State.commitReg_laneTiming (hb : r.base = 0x100018) : s.commitReg src w r i v = (stOK, s.laneTiming i v) := by simp [State.commitReg, hb]

end

/-- A register of the lanes' block is one of block 0x10. -/
theorem State.refuseReg_lane (s : State) (part : Nat) {off : Nat} (hoff : off / 0x10000 % 32 = 0x10) (lane : Option Nat) :
    s.refuseReg part off lane = s.record { cls := 0, status := stDENIED, part := part, block := 0x10, infoKind := 3, info := off, lane := lane } := by
  have hblock : blockOf off = 0x10 := by
    simp only [blockOf, hoff]
    rfl
  rw [State.refuseReg, hblock]

/-- The level a write leaves at place `k` (R321). -/
def State.levelAfter (s : State) (l which v k : Nat) : Nat :=
  if k = which then v else [s.get Fld.LANE_LEVEL_NOV_LEVEL l, s.get Fld.LANE_LEVEL_ALM_LEVEL l, s.get Fld.LANE_LEVEL_CLR_LEVEL l].getD k 0

section
variable {s : State} {l w v : Nat}

theorem getD_set_three {a b c w v k : Nat} (hw : w < 3) : ([a, b, c].set w v).getD k 0 = if k = w then v else [a, b, c].getD k 0 := by
  simp only [List.getD_eq_getElem?_getD, List.getElem?_set, List.length_cons, List.length_nil, hw]
  by_cases hk : w = k
  · simp [hk]
  · simp [hk, Ne.symm hk]

theorem set_three_eq_self {a b c w v : Nat} (hw : w < 3) : [a, b, c].set w v = [a, b, c] ↔ v = [a, b, c].getD w 0 := by
  have hw' : w = 0 ∨ w = 1 ∨ w = 2 := by omega
  rcases hw' with rfl | rfl | rfl <;> simp

/-- A level write by its three ends (R321). -/
theorem State.laneLevel_eq (hw : w < 3) :
    s.laneLevel l w v =
      if (fp32Lt (s.levelAfter l w v 2) (s.levelAfter l w v 0) && fp32Le (s.levelAfter l w v 0) (s.levelAfter l w v 1)) = false then
        s.refuseReg (s.lanePart l) (0x10000C + w * 4 + l * 0x400) (some l)
      else if v = [s.get Fld.LANE_LEVEL_NOV_LEVEL l, s.get Fld.LANE_LEVEL_ALM_LEVEL l, s.get Fld.LANE_LEVEL_CLR_LEVEL l].getD w 0 then s
      else (((s.keepLevels l true).put Fld.LANE_LEVEL_NOV_LEVEL l (s.levelAfter l w v 0)).put Fld.LANE_LEVEL_ALM_LEVEL l (s.levelAfter l w v 1)).put
        Fld.LANE_LEVEL_CLR_LEVEL l (s.levelAfter l w v 2) := by
  rw [State.laneLevel]
  simp only [getD_set_three hw, set_three_eq_self hw, Bool.not_eq_true', State.levelAfter]
  rfl

/-- The state after a write that changes a level (R322). -/
def State.levelsSet (s : State) (l : Nat) (new : Nat → Nat) : State :=
  (((s.keepLevels l true).put Fld.LANE_LEVEL_NOV_LEVEL l (new 0)).put Fld.LANE_LEVEL_ALM_LEVEL l (new 1)).put Fld.LANE_LEVEL_CLR_LEVEL l (new 2)

section
variable (hw : w < 3)
include hw

theorem State.laneLevel_refused (hl : l < 64)
    (h : (fp32Lt (s.levelAfter l w v 2) (s.levelAfter l w v 0) && fp32Le (s.levelAfter l w v 0) (s.levelAfter l w v 1)) = false) :
    s.laneLevel l w v =
      s.record { cls := 0, status := stDENIED, part := s.lanePart l, block := 0x10, infoKind := 3, info := 0x10000C + w * 4 + l * 0x400, lane := some l } := by
  rw [State.laneLevel_eq hw, if_pos h, State.refuseReg_lane _ _ (by omega)]

section
variable (h : (fp32Lt (s.levelAfter l w v 2) (s.levelAfter l w v 0) && fp32Le (s.levelAfter l w v 0) (s.levelAfter l w v 1)) = true)
include h

theorem State.laneLevel_same (hsame : v = [s.get Fld.LANE_LEVEL_NOV_LEVEL l, s.get Fld.LANE_LEVEL_ALM_LEVEL l, s.get Fld.LANE_LEVEL_CLR_LEVEL l].getD w 0) :
    s.laneLevel l w v = s := by
  rw [State.laneLevel_eq hw, if_neg (by rw [h]; decide), if_pos hsame]

theorem State.laneLevel_set (hdiff : v ≠ [s.get Fld.LANE_LEVEL_NOV_LEVEL l, s.get Fld.LANE_LEVEL_ALM_LEVEL l, s.get Fld.LANE_LEVEL_CLR_LEVEL l].getD w 0) :
    s.laneLevel l w v = s.levelsSet l (s.levelAfter l w v) := by
  rw [State.laneLevel_eq hw, if_neg (by rw [h]; decide), if_neg hdiff, State.levelsSet]

end
end

/-- What an entry's levels are kept as (R322). -/
theorem State.keepLevels_frame (s : State) (l : Nat) (changed : Bool) : s.keepLevels l changed = { s with lrn := (s.keepLevels l changed).lrn } := by
  unfold State.keepLevels
  dsimp only
  split
  · split <;> rfl
  · rfl

theorem State.keepLevels_older (s : State) (l : Nat) :
    ∃ (o : OldLevels) (os : List OldLevels), ((s.keepLevels l true).lrnLane l).older = o :: os ∧ o.upTo = (s.lane l).lastDev ∧ o.reset = true := by
  unfold State.keepLevels
  dsimp only
  split
  · split
    · rename_i o os _ hup
      rw [State.lrnLane_setLrn]
      exact ⟨_, _, rfl, hup, Bool.or_true _⟩
    · rw [State.lrnLane_setLrn]
      exact ⟨_, _, rfl, rfl, rfl⟩
  · rw [State.lrnLane_setLrn]
    exact ⟨_, _, rfl, rfl, rfl⟩

end

section
variable {s : State} {src : RegSrc} (l : Fin 64)

theorem find_LANE_LEVEL (w : Fin 3) : ∃ r : RegRow, findReg (0x10000C + w.val * 4 + l.val * 0x400) = some (r, l.val, 0) ∧ r.words = 1 ∧
    r.offset l = 0x10000C + w.val * 4 + l.val * 0x400 ∧ r.base = 0x10000C + w.val * 4 := by
  have hw : w = 0 ∨ w = 1 ∨ w = 2 := by omega
  rcases hw with rfl | rfl | rfl
  · exact ⟨_, find_LANE_LEVEL_NOV l, rfl, rfl, rfl⟩
  · exact ⟨_, find_LANE_LEVEL_ALM l, rfl, rfl, rfl⟩
  · exact ⟨_, find_LANE_LEVEL_CLR l, rfl, rfl, rfl⟩

theorem exec_laneLevelWrite_of_reaches (w : Fin 3) (v : Word) (h : s.start.reaches src (0x10000C + w.val * 4 + l.val * 0x400) = true) :
    exec (.laneLevelWrite src l w v) s = .next (((s.start.heal (0x10000C + w.val * 4 + l.val * 0x400)).laneLevel l w v.toNat).regAnswer stOK 0) := by
  obtain ⟨r, hfind, hwords, hoff, hbase⟩ := find_LANE_LEVEL l w
  rw [exec_laneLevelWrite, execLaneLevelWrite, State.busWrite_reaches _ _ _ _ _ _ h hfind hwords hoff, State.commitReg_laneLevel w.isLt hbase, BitVec.toNat_mod_cancel]

end

theorem State.levelsSet_frame (s : State) (l : Nat) (new : Nat → Nat) : s.levelsSet l new = { s with flds := (s.levelsSet l new).flds, lrn := (s.levelsSet l new).lrn } := by
  unfold State.levelsSet
  rw [State.keepLevels_frame]
  rfl

theorem State.get_levelsSet (s : State) (l : Nat) (new : Nat → Nat) :
    (s.levelsSet l new).get Fld.LANE_LEVEL_NOV_LEVEL l = new 0 % 2 ^ 32 ∧ (s.levelsSet l new).get Fld.LANE_LEVEL_ALM_LEVEL l = new 1 % 2 ^ 32 ∧
      (s.levelsSet l new).get Fld.LANE_LEVEL_CLR_LEVEL l = new 2 % 2 ^ 32 := by
  refine ⟨?_, ?_, State.get_put_same _ _ _ _⟩
  · rw [State.levelsSet, State.get_put_ne _ _ _ _ _ _ (by simp only [RegField.key, Fld.LANE_LEVEL_NOV_LEVEL, Fld.LANE_LEVEL_CLR_LEVEL]; omega),
      State.get_put_ne _ _ _ _ _ _ (by simp only [RegField.key, Fld.LANE_LEVEL_NOV_LEVEL, Fld.LANE_LEVEL_ALM_LEVEL]; omega), State.get_put_same]
    rfl
  · rw [State.levelsSet, State.get_put_ne _ _ _ _ _ _ (by simp only [RegField.key, Fld.LANE_LEVEL_ALM_LEVEL, Fld.LANE_LEVEL_CLR_LEVEL]; omega), State.get_put_same]
    rfl

/-- Settles O34: a level write by `State.laneLevel_eq`; the mask's and the timing's writes by their two ends. -/
theorem laneLevelsMustBeOrdered : Obligations.LaneLevelsMustBeOrdered := by
  unfold Obligations.LaneLevelsMustBeOrdered
  refine ⟨fun src l w v s h => ?_, fun src l v s h => ?_, fun src l v s h => ?_⟩
  · intro u old new ordered
    have hw := exec_laneLevelWrite_of_reaches l w v h
    refine ⟨fun ho => ?_, fun ho hsame => ?_, fun ho hdiff => ⟨(u.levelsSet l new).regAnswer stOK 0, ?_, ?_, ?_, ?_⟩⟩
    · exact hw.trans (congrArg (fun t : State => Host.Outcome.next (t.regAnswer stOK 0)) (State.laneLevel_refused (s := u) w.isLt l.isLt ho))
    · exact hw.trans (congrArg (fun t : State => Host.Outcome.next (t.regAnswer stOK 0)) (State.laneLevel_same (s := u) w.isLt ho hsame))
    · exact hw.trans (congrArg (fun t : State => Host.Outcome.next (t.regAnswer stOK 0)) (State.laneLevel_set (s := u) w.isLt ho hdiff))
    · rw [State.levelsSet_frame]
      rfl
    · exact u.keepLevels_older l
    · exact u.get_levelsSet l new
  · intro u m
    have hwrite : exec (.laneReportMaskWrite src l v) s = .next ((u.laneMask l v.toNat).regAnswer stOK 0) := by
      rw [exec_laneReportMaskWrite, execLaneReportMaskWrite, State.busWrite_reaches _ _ _ _ _ _ h (find_LANE_REPORT_MASK l) rfl rfl, State.commitReg_laneMask rfl, BitVec.toNat_mod_cancel]
    refine ⟨fun hin => ?_, fun hout => ?_⟩
    · rw [hwrite, State.laneMask]
      rw [if_pos (show Nat.land (bits v.toNat 5 0) (u.laneField l 0x10 1) = bits v.toNat 5 0 from hin)]
    · rw [hwrite, State.laneMask]
      rw [if_neg (show ¬ Nat.land (bits v.toNat 5 0) (u.laneField l 0x10 1) = bits v.toNat 5 0 from hout), State.refuseReg_lane _ _ (by omega)]
      rfl
  · intro t hset
    have hwrite : exec (.laneTimingWrite src l v) s = .next (((s.start.heal (0x100018 + l.val * 0x400)).laneTiming l v.toNat).regAnswer stOK 0) := by
      rw [exec_laneTimingWrite, execLaneTimingWrite, State.busWrite_reaches _ _ _ _ _ _ h (find_LANE_TIMING l) rfl rfl, State.commitReg_laneTiming rfl, BitVec.toNat_mod_cancel]
    have hpart : hset.lanePart l = s.lanePart l := by
      show (((s.start.heal (0x100018 + l.val * 0x400)).keepLevels l false).put Fld.LANE_TIMING_HOLD_MS l (bits v.toNat 15 0)).lanePart l = _
      rw [State.keepLevels_frame]
      rfl
    refine ⟨fun hin => ?_, fun hlow hhigh => ?_⟩
    · rw [hwrite, State.laneTiming]
      rw [if_pos (show bits v.toNat 31 16 = 0 ∨ 60 ≤ bits v.toNat 31 16 from hin)]
    · rw [hwrite, State.laneTiming]
      rw [if_neg (show ¬ (bits v.toNat 31 16 = 0 ∨ 60 ≤ bits v.toNat 31 16) by omega), State.refuseReg_lane _ _ (by omega), hpart]

/-! ### The modulators (R390, R391) -/

section
variable {s : State} {src : RegSrc} {w : RegWho} {r : RegRow} {i v : Nat}

theorem State.commitReg_modCommand (hb : r.base = 0x12040C) : s.commitReg src w r i v = (stOK, s.modCommand i (bits v 1 0)) := by simp [State.commitReg, hb]

theorem State.commitReg_popFreeze (hb : r.base = 0x12010C) : s.commitReg src w r i v = (stOK, s.popFreeze v) := by simp [State.commitReg, hb]

theorem State.commitReg_bhCommand (hb : r.base = 0x140004) : s.commitReg src w r i v = (stOK, s.bhCommand v) := by simp [State.commitReg, hb]

end

/-- The modulator that a lane's windows give (R391): 2 in a Mark, 1 in a teach window. -/
def LrnLane.modOf (x : LrnLane) : Nat := if x.markEnd ≠ 0 then 2 else if x.teachEnd ≠ 0 then 1 else 0

section
variable (s : State) (l : Nat)

/-- The lane's modulator, noted with its start where it changes. -/
def State.modNoted (s : State) (l : Nat) : State :=
  if (s.lrnLane l).modOf = (s.lrnLane l).m then s else s.setLrn l { s.lrnLane l with m := (s.lrnLane l).modOf, mAt := s.dev, mPrev := (s.lrnLane l).m }

/-- What the lane's modulator register shows. -/
def State.modShown (s : State) (l m secs : Nat) : State :=
  (((s.put Fld.LRN_MOD_M l m).put Fld.LRN_MOD_TEACH l (b2n ((s.lrnLane l).teachEnd ≠ 0))).put Fld.LRN_MOD_MARK l (b2n ((s.lrnLane l).markEnd ≠ 0))).put Fld.LRN_MOD_SECS l secs

theorem State.setMod_eq : ∃ secs, s.setMod l = (s.modNoted l).modShown l (s.lrnLane l).modOf secs := ⟨_, rfl⟩

theorem State.modShown_frame (m secs : Nat) : s.modShown l m secs = { s with flds := (s.modShown l m secs).flds } := rfl

theorem State.get_modShown (m secs : Nat) : (s.modShown l m secs).get Fld.LRN_MOD_M l = m % 4 := by
  rw [State.modShown, State.get_put_ne _ _ _ _ _ _ (by simp only [RegField.key, Fld.LRN_MOD_M, Fld.LRN_MOD_SECS]; omega),
    State.get_put_ne _ _ _ _ _ _ (by simp only [RegField.key, Fld.LRN_MOD_M, Fld.LRN_MOD_MARK]; omega),
    State.get_put_ne _ _ _ _ _ _ (by simp only [RegField.key, Fld.LRN_MOD_M, Fld.LRN_MOD_TEACH]; omega), State.get_put_same]
  rfl

theorem State.modNoted_frame : s.modNoted l = { s with lrn := (s.modNoted l).lrn } := by
  unfold State.modNoted
  split <;> rfl

theorem State.modNoted_ends : ((s.modNoted l).lrnLane l).markEnd = (s.lrnLane l).markEnd ∧ ((s.modNoted l).lrnLane l).teachEnd = (s.lrnLane l).teachEnd := by
  unfold State.modNoted
  split
  · exact ⟨rfl, rfl⟩
  · rw [State.lrnLane_setLrn]
    exact ⟨rfl, rfl⟩

theorem State.setMod_frame : s.setMod l = { s with flds := (s.setMod l).flds, lrn := (s.setMod l).lrn } := by
  obtain ⟨secs, h⟩ := s.setMod_eq l
  rw [h, State.modShown_frame, State.modNoted_frame]

/-- The windows stay as they are. -/
theorem State.setMod_ends : ((s.setMod l).lrnLane l).markEnd = (s.lrnLane l).markEnd ∧ ((s.setMod l).lrnLane l).teachEnd = (s.lrnLane l).teachEnd := by
  obtain ⟨secs, h⟩ := s.setMod_eq l
  rw [h, State.modShown_frame]
  exact s.modNoted_ends l

theorem LrnLane.modOf_lt (x : LrnLane) : x.modOf < 4 := by
  unfold LrnLane.modOf
  split
  · decide
  · split <;> decide

theorem State.get_setMod : (s.setMod l).get Fld.LRN_MOD_M l = (s.lrnLane l).modOf := by
  obtain ⟨secs, h⟩ := s.setMod_eq l
  rw [h, State.get_modShown, Nat.mod_eq_of_lt (LrnLane.modOf_lt _)]

end

section
variable {s : State} {l : Nat} (hkind : s.laneKind l ≠ 0)
include hkind

/-- Each command by its number, with the number a variable: the kernel meets no literal of the effects. -/
theorem State.modCommand_of_code {c : Nat} :
    (c = 1 → s.modCommand l c = s.teach l 1) ∧ (c = 2 → s.modCommand l c = s.mark l 1) ∧ (c = 3 → s.modCommand l c = s.cancelMod l 1) := by
  unfold State.modCommand
  rw [if_neg hkind]
  split
  · exact ⟨fun _ => Eq.refl (s.teach l 1), fun hc => absurd hc (by decide), fun hc => absurd hc (by decide)⟩
  · exact ⟨fun hc => absurd hc (by decide), fun _ => Eq.refl (s.mark l 1), fun hc => absurd hc (by decide)⟩
  · exact ⟨fun hc => absurd hc (by decide), fun hc => absurd hc (by decide), fun _ => Eq.refl (s.cancelMod l 1)⟩
  · exact ⟨fun hc => by contradiction, fun hc => by contradiction, fun hc => by contradiction⟩

theorem State.modCommand_teach : s.modCommand l 1 = s.teach l 1 := (State.modCommand_of_code hkind).1 rfl

theorem State.modCommand_mark : s.modCommand l 2 = s.mark l 1 := (State.modCommand_of_code hkind).2.1 rfl

theorem State.modCommand_cancelMod : s.modCommand l 3 = s.cancelMod l 1 := (State.modCommand_of_code hkind).2.2 rfl

end

section
variable {s : State} {src : RegSrc} {l : Fin 64} (h : s.start.reaches src (0x12040C + l.val * 0x20) = true) (hkind : s.laneKind l ≠ 0)
include h

/-- The three commands come down to `State.modCommand`. -/
theorem busWrite_modCommand (c : Nat) (hc : c < 4) :
    s.start.busWrite src (0x12040C + l.val * 0x20) 4 c = ((s.start.heal (0x12040C + l.val * 0x20)).modCommand l c).regAnswer stOK 0 := by
  have hbits : bits (c % 2 ^ 32) 1 0 = c := by
    simp only [bits]
    omega
  rw [State.busWrite_reaches _ _ _ _ _ _ h (find_LRN_MOD_CMD l) rfl rfl, State.commitReg_modCommand rfl, hbits]

include hkind

theorem exec_lrnModTeach_of_reaches : exec (.lrnModTeach src l) s = .next (((s.start.heal (0x12040C + l.val * 0x20)).teach l 1).regAnswer stOK 0) := by
  rw [exec_lrnModTeach, execLrnModTeach, busWrite_modCommand h 1 (by decide), State.modCommand_teach (show (s.start.heal _).laneKind l.val ≠ 0 from hkind)]

theorem exec_lrnModMark_of_reaches : exec (.lrnModMark src l) s = .next (((s.start.heal (0x12040C + l.val * 0x20)).mark l 1).regAnswer stOK 0) := by
  rw [exec_lrnModMark, execLrnModMark, busWrite_modCommand h 2 (by decide), State.modCommand_mark (show (s.start.heal _).laneKind l.val ≠ 0 from hkind)]

theorem exec_lrnModCancel_of_reaches : exec (.lrnModCancel src l) s = .next (((s.start.heal (0x12040C + l.val * 0x20)).cancelMod l 1).regAnswer stOK 0) := by
  rw [exec_lrnModCancel, execLrnModCancel, busWrite_modCommand h 3 (by decide), State.modCommand_cancelMod (show (s.start.heal _).laneKind l.val ≠ 0 from hkind)]

end

/-! ### The checkpoint command (R427) -/

/-- A bank whose copies and writes forget the register that asked for them. -/
def BankSt.forgotten (x : BankSt) : BankSt :=
  let f := fun (r : SnapReq) => { r with byReg := false }
  { x with cur := x.cur.map f, queue := x.queue.map f, deferred := x.deferred.map f, writing := x.writing.map fun (w : SlotWrite) => { w with byReg := false } }

theorem State.forgetReg_eq (s : State) :
    s.forgetReg = (s.setBank 0 (s.bnk 0).forgotten).setBank 1 ((s.setBank 0 (s.bnk 0).forgotten).bnk 1).forgotten := rfl

theorem State.setBank_boot (s : State) (b : Nat) (x : BankSt) : (s.setBank b x).boot = s.boot := rfl

theorem State.learnOff_forgetReg (s : State) : s.forgetReg.learnOff = s.learnOff := by
  rw [State.learnOff, State.forgetReg_eq, State.setBank_boot, State.setBank_boot]
  rfl

theorem State.suspended_setBank (s : State) {b : Nat} (x : BankSt) {n : Nat} (_hb : b < 2) : (s.setBank b x).suspended n = s.suspended n := by
  have hget : (s.setBank b x).get Fld.BH_POP_STATUS_SUSPENDED n = s.get Fld.BH_POP_STATUS_SUSPENDED n := by
    unfold State.setBank
    dsimp only
    rw [State.get_put_ne _ _ _ _ _ _ (by simp only [RegField.key, Fld.BH_POP_STATUS_SUSPENDED, Fld.BH_WRITES_24H_CNT]; omega),
      State.get_put_ne _ _ _ _ _ _ (by simp only [RegField.key, Fld.BH_POP_STATUS_SUSPENDED, Fld.BH_FREE_FREE]; omega)]
    rfl
  rw [State.suspended, State.suspended, State.flag, State.flag, hget]

theorem State.suspended_forgetReg (s : State) (n : Nat) : s.forgetReg.suspended n = s.suspended n := by
  rw [State.forgetReg_eq, State.suspended_setBank _ _ (by decide), State.suspended_setBank _ _ (by decide)]

theorem bits_ckpt {n : Nat} (hn : n < 128) : (0x100 + n) % 128 = n ∧ bits (0x100 + n) 9 8 = 1 := by
  simp only [bits]
  omega

section
variable {s : State} {n : Nat} {p : Pop} (hp : s.keptPop n = some p) (hn : n < 128)
include hp hn

theorem State.bhCommand_clean (hclean : p.dirty = false) : s.bhCommand (0x100 + n) = s.forgetReg.bhAnswer n stOK 1 0 := by
  obtain ⟨hpop, haction⟩ := bits_ckpt hn
  simp only [State.bhCommand, hpop, haction, hp, hclean, decide_true, Bool.not_false, if_true]

theorem State.bhCommand_taken {q : State} (hdirty : p.dirty = true) (hsus : s.suspended n = false) (hlearn : s.learnOff = false) (hwear : s.forgetReg.wearOk (n / 64) p = true)
    (hq : (s.forgetReg.bhAnswer n stOK 0 1).askSnap (n / 64) { pop := n % 64, readout := false, byReg := true } = some q) : s.bhCommand (0x100 + n) = q.mbAll := by
  obtain ⟨hpop, haction⟩ := bits_ckpt hn
  have hlearn' : s.forgetReg.learnOff = false := s.learnOff_forgetReg.trans hlearn
  simp only [State.bhCommand, hpop, haction, hp, hdirty, decide_true, Bool.not_true, Bool.false_eq_true, if_false, State.suspended_forgetReg, hsus, hlearn', hwear, or_false, hq]

end


/-! ### The windows' ends (R390, R391) -/

section
variable (s : State) (l : Fin 64)

theorem exec_markExpiry_of_mark (hmark : (s.lrnLane l).markEnd ≠ 0) :
    exec (.markExpiry l) s = .next ((s.start.setLrn l { s.lrnLane l with markEnd := 0 }).setMod l) := by
  rw [exec_markExpiry, execMarkExpiry, if_neg (show ¬ (s.start.lrnLane l).markEnd = 0 from hmark)]
  rfl

theorem exec_teachWindowExpiry_of_teach (hteach : (s.lrnLane l).teachEnd ≠ 0) :
    exec (.teachWindowExpiry l) s = .next ((s.start.setLrn l { s.lrnLane l with teachEnd := 0 }).setMod l) := by
  rw [exec_teachWindowExpiry, execTeachWindowExpiry, if_neg (show ¬ (s.start.lrnLane l).teachEnd = 0 from hteach)]
  rfl

/-- What a lane's new windows make of its modulator. -/
theorem State.setMod_of_windows (l : Nat) (x : LrnLane) :
    (s.start.setLrn l x).setMod l = { s.start with flds := ((s.start.setLrn l x).setMod l).flds, lrn := ((s.start.setLrn l x).setMod l).lrn } ∧
    (((s.start.setLrn l x).setMod l).lrnLane l).markEnd = x.markEnd ∧ (((s.start.setLrn l x).setMod l).lrnLane l).teachEnd = x.teachEnd ∧
    ((s.start.setLrn l x).setMod l).get Fld.LRN_MOD_M l = x.modOf := by
  obtain ⟨hm, ht⟩ := State.setMod_ends (s.start.setLrn l x) l
  rw [State.lrnLane_setLrn] at hm ht
  refine ⟨(State.setMod_frame (s.start.setLrn l x) l).trans rfl, hm, ht, ?_⟩
  rw [State.get_setMod, State.lrnLane_setLrn]

end

theorem State.popFreeze_of_pop {s : State} {v : Nat} {p : Pop} (hp : s.pop (s.get Fld.LRN_POP_SEL_ENGINE 0) (s.get Fld.LRN_POP_SEL_POP 0) = some p) :
    s.popFreeze v = (s.put Fld.LRN_POP_CTRL_FREEZE 0 (bits v 0 0)).setPop (s.get Fld.LRN_POP_SEL_ENGINE 0) (s.get Fld.LRN_POP_SEL_POP 0) (some { p with freeze := bit v 0 }) := by
  have hengine : (s.put Fld.LRN_POP_CTRL_FREEZE 0 (bits v 0 0)).get Fld.LRN_POP_SEL_ENGINE 0 = s.get Fld.LRN_POP_SEL_ENGINE 0 :=
    State.get_put_ne _ _ _ _ _ _ (by simp only [RegField.key, Fld.LRN_POP_SEL_ENGINE, Fld.LRN_POP_CTRL_FREEZE]; omega)
  have hpop : (s.put Fld.LRN_POP_CTRL_FREEZE 0 (bits v 0 0)).get Fld.LRN_POP_SEL_POP 0 = s.get Fld.LRN_POP_SEL_POP 0 :=
    State.get_put_ne _ _ _ _ _ _ (by simp only [RegField.key, Fld.LRN_POP_SEL_POP, Fld.LRN_POP_CTRL_FREEZE]; omega)
  have hp' : (s.put Fld.LRN_POP_CTRL_FREEZE 0 (bits v 0 0)).pop (s.get Fld.LRN_POP_SEL_ENGINE 0) (s.get Fld.LRN_POP_SEL_POP 0) = some p := hp
  rw [State.popFreeze, hengine, hpop, hp']

/-- Settles O35: the commands by `State.modCommand`, the expiries by `State.setMod`. -/
theorem modulatorsFollowTeachMarkAndCancel : Obligations.ModulatorsFollowTeachMarkAndCancel := by
  unfold Obligations.ModulatorsFollowTeachMarkAndCancel
  refine ⟨fun src l s h hkind => ?_, fun l s hmark => ?_, fun l s hteach => ?_, fun src v p s h hp => ?_, fun src n p s h hp => ?_⟩
  · refine ⟨?_, ?_, ?_⟩
    · rw [exec_lrnModTeach_of_reaches h hkind]
      unfold State.teach
      rfl
    · rw [exec_lrnModMark_of_reaches h hkind]
      unfold State.mark
      rfl
    · rw [exec_lrnModCancel_of_reaches h hkind]
      unfold State.cancelMod
      rfl
  · obtain ⟨hframe, hm, ht, hmod⟩ := s.setMod_of_windows l { s.lrnLane l with markEnd := 0 }
    exact ⟨_, exec_markExpiry_of_mark s l hmark, hframe, hm, ht, hmod.trans (if_neg (not_not_intro rfl))⟩
  · obtain ⟨hframe, hm, ht, hmod⟩ := s.setMod_of_windows l { s.lrnLane l with teachEnd := 0 }
    exact ⟨_, exec_teachWindowExpiry_of_teach s l hteach, hframe, ht, hm, hmod.trans rfl⟩
  · rw [exec_popFreezeWrite, execPopFreezeWrite, State.busWrite_reaches _ _ _ _ _ _ h find_LRN_POP_CTRL rfl rfl, State.commitReg_popFreeze rfl,
      BitVec.toNat_mod_cancel, State.popFreeze_of_pop (show (s.start.heal 0x12010C).pop _ _ = some p from hp)]
    rfl
  · have hword : (0x100 + n.val) % 2 ^ 32 = 0x100 + n.val := by omega
    have hwrite : exec (.bhCkptCmd src n) s = .next (((s.start.heal 0x140004).bhCommand (0x100 + n.val)).regAnswer stOK 0) := by
      rw [exec_bhCkptCmd, execBhCkptCmd, State.busWrite_reaches _ _ _ _ _ _ h find_BH_CMD rfl rfl, State.commitReg_bhCommand rfl, hword]
    have hp' : (s.start.heal 0x140004).keptPop n = some p := hp
    refine ⟨fun hclean => ?_, fun q hdirty hsus hlearn hwear hq => ?_⟩
    · rw [hwrite, State.bhCommand_clean hp' n.isLt hclean]
    · rw [hwrite, State.bhCommand_taken hp' n.isLt hdirty hsus hlearn hwear hq]

end Sys2Proof.Machine
end

section
/-!
PROOFS. Chapter 8: device time (R327, R335, R338 to R341). What a record of a lane leaves of device time and of the PTP registers.
-/
namespace Sys2Proof.Machine

/-! ### The unit's own writes -/

/-- Whether `v` differs from `s` in memory, its poison marks and the coherence state alone. -/
def State.OnlyCoherent (s v : State) : Prop := v = { s with mem := v.mem, poison := v.poison, coh := v.coh }

theorem State.OnlyCoherent.trans {s v w : State} (h : s.OnlyCoherent v) (h' : v.OnlyCoherent w) : s.OnlyCoherent w := by
  unfold State.OnlyCoherent at *
  rw [h', h]

theorem State.OnlyMemory.onlyCoherent {s v : State} (h : s.OnlyMemory v) : s.OnlyCoherent v := by
  unfold State.OnlyMemory at h
  rw [h]
  exact rfl

theorem State.OnlyCoherent.foldl {α : Type} {f : State → α → State} (hf : ∀ (s : State) a, s.OnlyCoherent (f s a)) (xs : List α) (s : State) : s.OnlyCoherent (xs.foldl f s) := by
  induction xs generalizing s with
  | nil => exact rfl
  | cons x xs ih => exact (hf s x).trans (ih _)

section
variable (s : State)

theorem State.setOver_onlyCoherent (g l m : Nat) : s.OnlyCoherent (s.setOver g l m) := rfl

theorem State.setDir_onlyCoherent (l : Nat) (d : DirLine) : s.OnlyCoherent (s.setDir l d) := rfl

theorem State.setCopy_onlyCoherent (g l : Nat) (c : Option CacheLine) : s.OnlyCoherent (s.setCopy g l c) := rfl

theorem State.setFlight_onlyCoherent (g l : Nat) (c : Option CacheLine) : s.OnlyCoherent (s.setFlight g l c) := rfl

theorem State.wrLine_onlyCoherent (a mask : Nat) (bytes : List Byte) (poison : Nat) : s.OnlyCoherent (s.wrLine a mask bytes poison) :=
  (s.wrLine_onlyMemory a mask bytes poison).onlyCoherent

theorem State.claim_onlyCoherent (l mask : Nat) : s.OnlyCoherent (s.claim l mask) := by
  unfold State.claim
  refine State.OnlyCoherent.foldl (fun s g => ?_) _ _
  generalize hover : (if (s.copy g l).isNone || (s.flightOf g l).isSome then s.setOver g l (Nat.lor (s.overOf g l) mask) else s) = t
  have ht : s.OnlyCoherent t := by
    rw [← hover]
    split
    · exact s.setOver_onlyCoherent g l _
    · exact rfl
  dsimp only
  split
  · split_ifs
    · exact ht
    · exact ((ht.trans (t.wrLine_onlyCoherent _ _ _ _)).trans (State.setCopy_onlyCoherent _ _ _ _)).trans (State.setDir_onlyCoherent _ _ _)
    · exact (ht.trans (State.setCopy_onlyCoherent _ _ _ _)).trans (State.setDir_onlyCoherent _ _ _)
  · exact ht

theorem State.ownWrite_onlyCoherent (a mask : Nat) (bytes : List Byte) (poison : Nat) : s.OnlyCoherent (s.ownWrite a mask bytes poison) := by
  unfold State.ownWrite
  dsimp only
  refine ((s.claim_onlyCoherent _ _).trans (State.wrLine_onlyCoherent _ _ _ _ _)).trans (State.OnlyCoherent.foldl (fun s g => ?_) _ _)
  split
  · split
    · exact (s.setCopy_onlyCoherent _ _ _).trans (State.setFlight_onlyCoherent _ _ _ _)
    · exact s.setFlight_onlyCoherent _ _ _
  · split
    · exact s.setCopy_onlyCoherent _ _ _
    · exact rfl

theorem State.ownBytes_onlyCoherent (a : Nat) (bs : List Byte) : s.OnlyCoherent (s.ownBytes a bs) := by
  unfold State.ownBytes
  split
  · exact rfl
  · exact State.OnlyCoherent.foldl (fun s l => s.ownWrite_onlyCoherent _ _ _ _) _ _

end

/-! ### What a record leaves of device time -/

/-- Device time, the PTP slave's state, and what two of its registers show. -/
def State.clock (s : State) : Nat × PtpSt × Nat × Nat := (s.dev, s.ptp, s.get Fld.NET_PTP_OFFSET_NS 0, s.get Fld.NET_PTP_STATUS_SYNC 0)

/-- A fold of steps that leave the clock leaves it. -/
theorem State.clock_foldl {α : Type} {f : State → α → State} (hf : ∀ s a, (f s a).clock = s.clock) (xs : List α) (s : State) : (xs.foldl f s).clock = s.clock := by
  induction xs generalizing s with
  | nil => rfl
  | cons x xs ih => rw [List.foldl_cons, ih, hf]

/-- The same for steps that leave it for the list's elements only. -/
theorem State.clock_foldl_mem {α : Type} {f : State → α → State} (xs : List α) (s : State) (hf : ∀ a ∈ xs, ∀ s, (f s a).clock = s.clock) : (xs.foldl f s).clock = s.clock := by
  induction xs generalizing s with
  | nil => rfl
  | cons x xs ih => rw [List.foldl_cons, ih _ fun a ha => hf a (List.mem_cons_of_mem _ ha), hf x List.mem_cons_self]

section
variable (s : State)

/-- A field outside the PTP block, by its address. -/
theorem State.clock_put {f : RegField} {i : Nat} (hlo : f.lo < 64) (h : f.base + i * f.stride ≠ 0x190000) (h' : f.base + i * f.stride ≠ 0x190004) (v : Nat) :
    (s.put f i v).clock = s.clock := by
  have hoff : (s.put f i v).get Fld.NET_PTP_OFFSET_NS 0 = s.get Fld.NET_PTP_OFFSET_NS 0 :=
    State.get_put_ne _ _ _ _ _ _ (by simp only [RegField.key, Fld.NET_PTP_OFFSET_NS]; omega)
  have hsync : (s.put f i v).get Fld.NET_PTP_STATUS_SYNC 0 = s.get Fld.NET_PTP_STATUS_SYNC 0 :=
    State.get_put_ne _ _ _ _ _ _ (by simp only [RegField.key, Fld.NET_PTP_STATUS_SYNC]; omega)
  rw [State.clock, hoff, hsync]
  rfl

theorem State.clock_bump {f : RegField} {i : Nat} (hlo : f.lo < 64) (h : f.base + i * f.stride ≠ 0x190000) (h' : f.base + i * f.stride ≠ 0x190004) (n : Nat) :
    (s.bump f i n).clock = s.clock := s.clock_put hlo h h' _

theorem State.clock_msix (f v : Nat) : (s.msix f v).clock = s.clock := by
  rw [State.msix_frame]
  rfl

theorem State.clock_emit (o : Out) : (s.emit o).clock = s.clock := rfl

theorem State.clock_ownBytes (a : Nat) (bs : List Byte) : (s.ownBytes a bs).clock = s.clock := by
  rw [s.ownBytes_onlyCoherent a bs]
  rfl

theorem State.clock_ringWrite (r : Nat) (e : ErrRec) : (s.ringWrite r e).clock = s.clock := by
  rw [State.clock, State.get_ringWrite, State.get_ringWrite, State.ringWrite_frame]
  · rfl
  all_goals decide

/-- A record that is not of class 1 counts to no storm of its partition. -/
theorem State.clock_record {e : ErrRec} (hcls : e.cls ≠ 1 ∨ ¬ e.part < 8) : (s.record e).clock = s.clock := by
  unfold State.record
  dsimp only
  rcases hcls with hcls | hpart
  · rw [if_neg (show ¬ (e.cls = 1 ∧ _) from fun h => hcls h.1)]
    split <;> exact State.clock_ringWrite _ _ _
  · rw [if_neg hpart, State.clock_ringWrite]

/-! #### The report rings -/

theorem State.clock_rptWrite (p : Nat) (r : Report) : (s.rptWrite p r).clock = s.clock := by
  unfold State.rptWrite
  dsimp only
  rw [State.clock_msix]
  refine Eq.trans (b := State.clock ((s.ownBytes _ r.bytes).put Fld.RPT_RING_PROD_PROD p _)) (State.clock_ownBytes _ _ _) ?_
  rw [State.clock_put _ (by decide), State.clock_ownBytes]
  all_goals simp only [Fld.RPT_RING_PROD_PROD]; omega

theorem State.clock_setBacklog (p : Nat) (rs : List Report) : (s.setBacklog p rs).clock = s.clock := by
  rw [State.setBacklog, State.clock_put _ (by decide)]
  · rfl
  all_goals simp only [Fld.RPT_BACKLOG_N]; omega

theorem State.clock_rptFailing (p : Nat) : (s.rptFailing p).clock = s.clock := by
  unfold State.rptFailing
  split
  · rfl
  · exact State.clock_record _ (.inl Nat.zero_ne_one)

theorem State.clock_rptDrain (n p : Nat) : (State.rptDrain n p s).clock = s.clock := by
  induction n generalizing s with
  | zero => rfl
  | succ n ih =>
    unfold State.rptDrain
    split
    · rfl
    · dsimp only
      split_ifs
      · rw [ih, State.clock_setBacklog, State.clock_rptWrite]
      · exact s.clock_rptFailing p
      · rfl

theorem State.clock_toRing (p : Nat) (r : Report) : (s.toRing p r).clock = s.clock := by
  unfold State.toRing
  dsimp only
  split
  · rw [State.drainAll, State.clock_rptDrain, State.clock_setBacklog]
  · rw [State.clock_bump _ (by decide), State.clock_setBacklog]
    all_goals simp only [Fld.RPT_DROP_CNT_CNT]; omega

/-! #### The collectors -/

section
variable {i : Nat} (hi : i < 4)
include hi

theorem State.clock_setCol (c : Collector) : (s.setCol i c).clock = s.clock := by
  rw [State.setCol, State.clock_put _ (by decide)]
  · rfl
  all_goals simp only [Fld.RPT_COL_STATUS_UNACKED]; omega

theorem State.clock_sendDgram : (s.sendDgram i).clock = s.clock := by
  unfold State.sendDgram
  split
  · rfl
  · split
    · rfl
    · dsimp only
      rw [State.clock_emit, State.clock_bump _ (by decide), State.clock_setCol _ hi]
      all_goals simp only [Fld.RPT_COL_DGRAM_CNT_CNT]; omega

theorem State.clock_colDrop (r : Report) : (s.colDrop i r).clock = s.clock := by
  unfold State.colDrop
  dsimp only
  rw [State.clock_bump _ (by decide)]
  · rfl
  all_goals simp only [Fld.RPT_COL_LOST_CNT_CNT]; omega

theorem State.clock_toCol (r : Report) : (s.toCol i r).clock = s.clock := by
  unfold State.toCol
  split
  · rfl
  · split
    · exact s.clock_colDrop hi r
    · dsimp only
      split
      · rw [State.clock_sendDgram _ hi, State.clock_foldl (fun s _ => s.clock_sendDgram hi), State.clock_setCol _ hi]
        rfl
      · rw [State.clock_foldl (fun s _ => s.clock_sendDgram hi), State.clock_setCol _ hi]
        rfl

end

/-! #### The record -/

theorem State.clock_askHalt (n : Nat) (r : Nat × Nat × Nat) : (s.askHalt n r).clock = s.clock := by
  unfold State.askHalt
  dsimp only
  split <;> rfl

theorem State.clock_laneBpHit (l kind : Nat) : (s.laneBpHit l kind).clock = s.clock := by
  unfold State.laneBpHit
  dsimp only
  split
  · rw [State.clock_foldl fun s n => s.clock_askHalt n _, State.clock_bump _ (by decide)]
    all_goals decide
  · rfl

theorem State.clock_panelRecord (l kind : Nat) : (s.panelRecord l kind).clock = s.clock := by
  unfold State.panelRecord
  split <;> rfl

theorem State.clock_toCols (m : Nat) (r : Report) : ((List.range 4).foldl (fun s i => if bit m (1 + i) then s.toCol i r else s) s).clock = s.clock := by
  refine State.clock_foldl_mem _ _ fun i hi s => ?_
  split
  · exact s.clock_toCol (List.mem_range.mp hi) r
  · rfl

theorem State.clock_emitReport {l : Nat} (hl : l < 64) (a : RptArgs) : (s.emitReport l a).clock = s.clock := by
  have hseq : (s.put Fld.RPT_NEXT_SEQ_SEQ l (s.get Fld.RPT_NEXT_SEQ_SEQ l + 1)).clock = s.clock :=
    State.clock_put _ (by decide) (by simp only [Fld.RPT_NEXT_SEQ_SEQ]; omega) (by simp only [Fld.RPT_NEXT_SEQ_SEQ]; omega) _
  unfold State.emitReport
  dsimp only
  rw [State.clock_laneBpHit]
  split
  · rw [State.clock_panelRecord, State.clock_toCols]
    split
    · rw [State.clock_toRing, hseq]
    · exact hseq
  · rw [State.clock_toCols]
    split
    · rw [State.clock_toRing, hseq]
    · exact hseq

theorem State.clock_emitHealth {l : Nat} (hl : l < 64) (sub src count : Nat) : (s.emitHealth l sub src count).clock = s.clock := s.clock_emitReport hl _

/-- A change of the flags that HEALTH TIME reports notes them, and no more of the clock changes. -/
theorem State.clock_noteFlags : ∃ flags, s.noteFlags.clock = (s.dev, { s.ptp with flags := flags }, s.get Fld.NET_PTP_OFFSET_NS 0, s.get Fld.NET_PTP_STATUS_SYNC 0) := by
  unfold State.noteFlags
  dsimp only
  split
  · exact ⟨s.ptp.flags, rfl⟩
  · refine ⟨s.timeFlags, ?_⟩
    rw [State.clock_foldl_mem]
    · rfl
    · intro l hl s
      split
      · exact s.clock_emitHealth (List.mem_range.mp hl) _ _ _
      · rfl

end

/-! ### The PTP slave -/

/-- What a slave that locked before takes of a Sync, with the slew free (log entry 6). -/
def State.synced (s : State) (origin arrival : Nat) : State :=
  let off : Int := (origin : Int) + s.ptp.delay - arrival
  let near := decide (off.natAbs ≤ 1000)
  let st := if s.get Fld.NET_PTP_STATUS_STATE 0 = 2 ∧ !near then 2 else 1
  let s : State := { s with free := s.free + 1, ptp := { s.ptp with everLocked := true, lastSync := some s.now, slew := Config.freeNat s.free % 1000001, t21 := (s.ptp.delay : Int) - off } }
  ((s.put Fld.NET_PTP_STATUS_STATE 0 st).put Fld.NET_PTP_STATUS_SYNC 0 (b2n near)).put Fld.NET_PTP_OFFSET_NS 0 (satOffset off)

section
variable {s : State} (origin arrival : Nat)

theorem State.syncWith_of_locked (hlocked : s.ptp.everLocked = true) : s.syncWith origin arrival = (s.synced origin arrival).noteFlags := by
  simp only [State.syncWith, State.synced, hlocked, Bool.not_true, Bool.false_and, Bool.false_eq_true, if_false, State.takeFree]
  rfl

theorem satOffset_lt (x : Int) : satOffset x < 2 ^ 32 := by
  have h := Int.emod_nonneg (max (-(2 ^ 31)) (min (2 ^ 31 - 1) x)) (show ((2 : Int) ^ 32) ≠ 0 by decide)
  have h' := Int.emod_lt_of_pos (max (-(2 ^ 31)) (min (2 ^ 31 - 1) x)) (show (0 : Int) < 2 ^ 32 by decide)
  rw [satOffset, ofInt]
  omega

theorem b2n_lt (b : Bool) : b2n b < 2 := by cases b <;> decide

theorem State.get_synced (s : State) : (s.synced origin arrival).get Fld.NET_PTP_OFFSET_NS 0 = satOffset ((origin : Int) + s.ptp.delay - arrival) ∧
    (s.synced origin arrival).get Fld.NET_PTP_STATUS_SYNC 0 = b2n (decide (((origin : Int) + s.ptp.delay - arrival).natAbs ≤ 1000)) := by
  unfold State.synced
  dsimp only
  constructor
  · rw [State.get_put_same]
    exact Nat.mod_eq_of_lt (satOffset_lt _)
  · rw [State.get_put_ne _ _ _ _ _ _ (by decide), State.get_put_same]
    exact Nat.mod_eq_of_lt (b2n_lt _)

end

/-- Settles O37: the slave takes a Sync by `State.synced`, and what HEALTH TIME then reports leaves the clock. -/
theorem deviceTimeFollowsItsMaster : Obligations.DeviceTimeFollowsItsMaster := by
  unfold Obligations.DeviceTimeFollowsItsMaster
  refine ⟨fun dom origin seq s htakes => ⟨?_, fun hlocked => ?_⟩, fun seq origin at_ s htwo htakes => ?_, fun sent received s hlocked htakes => ?_,
    fun dom rank valid utc s htakes hmaster => ?_, fun s hstate halive => ?_, fun d g f s hruns hgm => ⟨?_, ?_⟩⟩
  · rw [exec_ptpSync, execPtpSync, if_neg (show ¬ (!s.start.ptpTakes dom) = true by rw [show s.start.ptpTakes dom = true from htakes]; decide), if_pos rfl]
    rfl
  · have hlocked' : s.start.ptp.everLocked = true := hlocked
    obtain ⟨flags, hclock⟩ := State.clock_noteFlags (s.start.synced origin s.dev)
    simp only [State.clock, Prod.mk.injEq] at hclock
    obtain ⟨hdev, hptp, hoff, hsync⟩ := hclock
    obtain ⟨hoff', hsync'⟩ := s.start.get_synced origin s.dev
    refine ⟨s.start.syncWith origin s.dev, ?_, ?_, ?_, ?_, ?_, ?_⟩
    · rw [exec_ptpSync, execPtpSync, if_neg (show ¬ (!s.start.ptpTakes dom) = true by rw [show s.start.ptpTakes dom = true from htakes]; decide), if_neg Bool.false_ne_true]
      rfl
    all_goals rw [State.syncWith_of_locked _ _ hlocked']
    · exact hdev
    · rw [hptp]
      rfl
    · rw [hptp]
      exact Nat.le_of_lt_succ (Nat.mod_lt _ (Nat.succ_pos _))
    · exact hoff.trans hoff'
    · exact hsync.trans hsync'
  · rw [exec_ptpFollowUp, execPtpFollowUp]
    have htwo' : s.start.ptp.twoStep = some (seq.toNat, at_) := htwo
    dsimp only
    rw [htwo']
    dsimp only
    rw [if_neg (show ¬ (seq.toNat ≠ seq.toNat ∨ (!s.start.ptpTakes (s.start.get Fld.NET_PTP_STATUS_DOMAIN 0)) = true) by
      rw [show s.start.ptpTakes (s.start.get Fld.NET_PTP_STATUS_DOMAIN 0) = true from htakes]; simp)]
    rfl
  · rw [exec_ptpDelayResp, execPtpDelayResp]
    rw [if_neg (show ¬ ((!s.start.ptp.everLocked) = true ∨ (!s.start.ptpTakes (s.start.get Fld.NET_PTP_STATUS_DOMAIN 0)) = true) by
      rw [show s.start.ptp.everLocked = true from hlocked, show s.start.ptpTakes (s.start.get Fld.NET_PTP_STATUS_DOMAIN 0) = true from htakes]; simp)]
    rfl
  · have hmaster' : s.start.ptp.master = none := hmaster
    rw [exec_ptpAnnounce, execPtpAnnounce, if_neg (show ¬ (!s.start.ptpTakes dom) = true by rw [show s.start.ptpTakes dom = true from htakes]; decide), hmaster']
    dsimp only
    rw [if_neg (show ¬ (!true) = true by decide)]
    rfl
  · rw [exec_ptpHoldoverEntry, execPtpHoldoverEntry]
    rw [if_neg (show ¬ (s.start.get Fld.NET_PTP_STATUS_STATE 0 ≠ 1 ∨ (!s.start.alive) = true) by
      rw [show s.start.get Fld.NET_PTP_STATUS_STATE 0 = 1 from hstate, show s.start.alive = true from halive]; decide)]
  · rw [exec_gptpSyncTimer, execGptpSyncTimer]
    rw [if_neg (show ¬ ((!s.start.segRuns d.val g.val) = true ∨ (!s.start.gmWorks d.val) = true) by
      rw [show s.start.segRuns d.val g.val = true from hruns, show s.start.gmWorks d.val = true from hgm]; decide)]
    rfl
  · rw [exec_gptpPdelayReq, execGptpPdelayReq]
    rw [if_neg (show ¬ ((!s.start.segRuns d.val g.val) = true ∨ (!s.start.gmWorks d.val) = true) by
      rw [show s.start.segRuns d.val g.val = true from hruns, show s.start.gmWorks d.val = true from hgm]; decide)]
    rfl

end Sys2Proof.Machine
end

section
/-!
PROOFS. Chapter 8: the cameras' packets, frames and maps (R296, R298, R304, R314, R326 to R330, R341, R501).
-/
namespace Sys2Proof.Machine

/-! ### Packets -/

section
variable {s : State} {d : Fin 3} {p : Fin 2} (hlink : s.portLink d p = true)
include hlink

theorem not_linkDown : ¬ (!s.start.portLink d.val p.val) = true := by
  rw [show s.start.portLink d.val p.val = true from hlink]
  decide

/-- A packet that follows on leaves no gap in its stream (R328). -/
theorem exec_rtpPacket_of_follows {k : RtpPacket} {l q : Nat} (hcam : s.cameraOf d p k false = some l) (hpt : k.payloadType = s.laneField l 0x62 1) (hsup : k.unsupported = false)
    (hssrc : (s.lane l).ssrc = k.ssrc.toNat) (hq : (s.lane l).rtpSeq = some q) (hseq : k.seq.toNat = (q + 1) % 65536) :
    exec (.rtpPacket d p k) s = .next ((s.start.setLane l { s.lane l with rtpSeq := some k.seq.toNat }).put Fld.LANE_SRC_INFO_INFO l k.ssrc.toNat) := by
  have hcam' : s.start.cameraOf d.val p.val k false = some l := hcam
  have hgap : (k.seq.toNat + 65536 - (q + 1) % 65536) % 65536 = 0 := by omega
  have hlane : s.start.lane l = s.lane l := rfl
  rw [exec_rtpPacket, execRtpPacket, if_neg (not_linkDown hlink), if_neg (show ¬ k.unsupported = true by rw [hsup]; decide), hcam']
  dsimp only
  rw [if_neg (show ¬ k.payloadType ≠ s.start.laneField l 0x62 1 from not_not_intro hpt),
    if_neg (show ¬ ((s.start.lane l).ssrc ≠ k.ssrc.toNat ∧ (s.start.lane l).rtpSeq.isSome = true) from fun h => h.1 hssrc), hlane, hq]
  dsimp only
  rw [if_pos hgap, ← hssrc]

theorem exec_rtcpSenderReport_of_camera {k : RtpPacket} {l sec : Nat} {frac : BitVec 32} (hcam : s.cameraOf d p k true = some l) (hsup : k.unsupported = false) :
    exec (.rtcpSenderReport d p k sec frac) s = .next (s.start.setLane l { s.lane l with srs := (⟨sec % 2 ^ 32, frac.toNat, k.rtpTs.toNat, s.dev⟩ : SrMap) :: ((s.lane l).srs.filter (fun (m : SrMap) => decide (s.dev ≤ m.at_ + 60000000000))) }) := by
  have hcam' : s.start.cameraOf d.val p.val k true = some l := hcam
  rw [exec_rtcpSenderReport, execRtcpSenderReport, if_neg (not_linkDown hlink), if_neg (show ¬ k.unsupported = true by rw [hsup]; decide), hcam']
  rfl

end

/-- A fold of emissions appends what each emits. -/
theorem State.foldl_emit {α : Type} (f : α → Out) (xs : List α) (s : State) : xs.foldl (fun s x => s.emit (f x)) s = { s with out := s.out ++ xs.map f } := by
  induction xs generalizing s with
  | nil => rw [List.foldl_nil, List.map_nil, List.append_nil]
  | cons x xs ih => rw [List.foldl_cons, ih, State.emit, List.map_cons, List.append_assoc, List.singleton_append]

/-! ### Frames -/

/-- A lane that captures nothing passes the frame by (R501). -/
theorem State.capture_none {s : State} {l : Nat} (h : (s.lane l).capture = none) (dev : Nat) (bytes : List Byte) : s.capture l dev bytes = s := by
  rw [State.capture, h]

section
variable {l : Fin 64} {ts : BitVec 32} {arr : Nat} {bs : List Byte} {fab : FabEv} {s : State}
  (hkind : (s.start.fabric fab).laneKind l = 1) (hdec : (s.start.fabric fab).decOn l = true) (hcap : ((s.start.fabric fab).lane l).capture = none)
  (hadm : (s.start.fabric fab).laneAdmitted l = true)

/-- What becomes of a decoded frame whose slot arrived, by its kind. -/
def State.frameServed (u : State) (l : Nat) (kind : FrameKind) (waits : Bool) (ts arr : Nat) (bs : List Byte) : State :=
  match kind with
  | .rejected => u.frameLost l true
  | .mismatch => u.frameMismatch l
  | .inter => if waits then u.frameLost l false else u.frameIn l ts arr bs
  | .entry => u.frameIn l ts arr bs

include hkind hdec hcap hadm in
/-- A frame that no capture takes is served by its kind. -/
theorem exec_frameDecoded_admitted (kind : FrameKind) : exec (.frameDecoded l kind ts arr bs fab) s =
    .next (if fab.header = 2 then ((s.start.fabric fab).laneArrival l).frameLost l false
      else ((s.start.fabric fab).laneArrival l).frameServed l kind ((s.start.fabric fab).lane l).waitIdr ts.toNat arr bs) := by
  rw [exec_frameDecoded, execFrameDecoded]
  generalize hu : s.start.fabric fab = u at hkind hdec hcap hadm ⊢
  have hpass : ∀ b : Bool, (if b = true then u.capture l (u.cameraTime l ts.toNat arr).1 bs else u) = u := fun b => by
    rw [State.capture_none hcap, ite_self]
  dsimp only
  rw [if_neg (show ¬ (u.laneKind l.val ≠ 1 ∨ (!u.decOn l.val) = true) by rw [hkind, hdec]; decide), hpass, if_neg (show ¬ (!u.laneAdmitted l.val) = true by rw [hadm]; decide)]
  cases kind with
  | entry => rfl
  | inter =>
    cases hwait : (u.lane l.val).waitIdr <;> rfl
  | rejected => rfl
  | mismatch => rfl

end

theorem State.oldestInDelta_start {s : State} {l : Nat} {e : Entry} (h : s.oldestInDelta l = some e) : s.start.oldestInDelta l = some e := h

/-- Settles O36: each event by its command, with a decoded frame served as `State.frameServed` says. -/
theorem camerasDeliverFrames : Obligations.CamerasDeliverFrames := by
  unfold Obligations.CamerasDeliverFrames
  refine ⟨fun d p k l q s hlink hcam hpt hsup hssrc hq hseq => exec_rtpPacket_of_follows hlink hcam hpt hsup hssrc hq hseq, fun d p k sec frac s hlink hsup => ⟨?_, ?_⟩,
    fun d p k sec l frac s hlink hcam hsup => exec_rtcpSenderReport_of_camera hlink hcam hsup, fun d p fam g s hlink => ?_, fun l ts arr bs fab s => ?_,
    fun l e s hold hon => ⟨fun e' hstage hold' => ?_, fun hstage hcox => ?_, ?_⟩, fun l c s hcap => ?_⟩
  · rw [exec_rtpPacket, execRtpPacket, if_neg (not_linkDown hlink), if_pos hsup]
  · rw [exec_rtcpSenderReport, execRtcpSenderReport, if_neg (not_linkDown hlink), if_pos hsup]
  · refine ⟨_, ?_, rfl⟩
    rw [exec_membershipQuery, execMembershipQuery, if_neg (not_linkDown hlink)]
    dsimp only
    rw [State.foldl_emit]
    rw [show s.start.out = [] from rfl, List.nil_append]
    rfl
  · dsimp only
    intro hkind hdec hcap hadm
    have hserved := fun kind => exec_frameDecoded_admitted (l := l) (ts := ts) (arr := arr) (bs := bs) hkind hdec hcap hadm kind
    refine ⟨fun hheader => ?_, fun hheader kind => ?_⟩
    · refine ⟨?_, ?_, ?_, ?_⟩
      all_goals rw [hserved, if_neg hheader, State.frameServed]
    · rw [hserved, if_pos hheader]
  · rw [exec_deltaCompareDone, execDeltaCompareDone, State.oldestInDelta_start hold]
    dsimp only
    rw [if_neg (show ¬ (e.stage ≠ 1 ∨ (!s.start.deOn l.val) = true) by rw [hstage, show s.start.deOn l.val = true from hon]; decide), hold']
  · rw [exec_energyGovernorChoose, execEnergyGovernorChoose, State.oldestInDelta_start hold]
    dsimp only
    rw [if_neg (show ¬ (e.stage ≠ 2 ∨ (!s.start.deOn l.val) = true ∨ s.start.err.coxHalted = true) by
      rw [hstage, show s.start.deOn l.val = true from hon, show s.start.err.coxHalted = false from hcox]; decide)]
  · rw [exec_deltaMapTimeout, execDeltaMapTimeout, State.oldestInDelta_start hold]
    rfl
  · have hcap' : (s.start.lane l.val).capture = some c := hcap
    rw [exec_captureTimeout, execCaptureTimeout, hcap']
    rfl

end Sys2Proof.Machine
end

section
/-!
PROOFS. Chapter 8: the sensors' frames (R332 to R336, R356, R357), and the lanes' guarantees (R324, R347 to R353, R574, R575).
-/
namespace Sys2Proof.Machine

/-! ### Sensor nodes -/

/-- A TDM block enters its lane with its index advanced by BLOCK (R336). -/
def State.tdmTaken (u : State) (l t0 : Nat) (xs : List Nat) : State :=
  let x := u.lane l
  let b := u.laneBlock l
  let axes := u.laneField l 0x111 1
  let v := u.setLane l { x with node := { x.node with next := some ((x.node.next.getD 0 + b) % 2 ^ 32) } }
  let ys := (List.range (b * axes)).map fun k => v.slotSample l (k % max 1 axes) (xs.getD k 0)
  ({ v with free := v.free + 1 }).laneIn l { dev := t0, tflags := v.timeFlags, srcFlags := 0, rtpTs := x.node.next.getD 0, arrival := v.dev, bytes := planar axes b ys }

section
variable {d : Fin 3} {p : Fin 2} {t0 l : Nat} {xs : List Nat} {s : State} (hon : s.fldOn d = true) (hlane : s.tdmLane d p = some l)
include hon hlane

/-- A block on an ABSENT lane that does not wait for its source and write is discarded. -/
theorem exec_tdmBlockComplete_of_lane : exec (.tdmBlockComplete d p t0 xs) s =
    .next (if s.laneState l = 5 ∧ (!((s.lane l).waiting && (s.lane l).writes)) = true then s.start
      else ((if s.laneState l = 5 then s.start.leaveAbsent l 3 else s.start).laneArrival l).tdmTaken l t0 xs) := by
  have hlane' : s.start.tdmLane d.val p.val = some l := hlane
  rw [exec_tdmBlockComplete, execTdmBlockComplete, if_neg (show ¬ (!s.start.fldOn d.val) = true by rw [show s.start.fldOn d.val = true from hon]; decide), hlane']
  dsimp only
  by_cases hidle : s.laneState l = 5 ∧ (!((s.lane l).waiting && (s.lane l).writes)) = true
  · rw [if_pos (show s.start.laneState l = 5 ∧ (!((s.start.lane l).waiting && (s.start.lane l).writes)) = true from hidle), if_pos hidle]
  · rw [if_neg (show ¬ (s.start.laneState l = 5 ∧ (!((s.start.lane l).waiting && (s.start.lane l).writes)) = true) from hidle), if_neg hidle]
    by_cases habsent : s.laneState l = 5
    · rw [if_pos (show s.start.laneState l = 5 from habsent), if_pos habsent]
      generalize (s.start.leaveAbsent l 3).laneArrival l = u
      rfl
    · rw [if_neg (show ¬ s.start.laneState l = 5 from habsent), if_neg habsent]
      generalize s.start.laneArrival l = u
      rfl

end

/-- Settles O38: each frame by its command, a TDM block by `State.tdmTaken`. -/
theorem sensorNodesAreServed : Obligations.SensorNodesAreServed := by
  unfold Obligations.SensorNodesAreServed
  refine ⟨fun d g mac f l u s => ⟨fun h => ?_, fun h => ?_, fun h => ?_⟩, fun s => ?_, fun d p t0 l xs s hon hlane => ⟨fun habsent hidle => ?_, fun habsent hwaits hwrites => ?_, fun hrun => ?_⟩,
    fun d p l s hlane hrun => ?_, fun d g s hruns hfault => ?_⟩
  · rw [exec_sensorAnnounce, execSensorAnnounce, h]
  · rw [exec_sensorSamples, execSensorSamples, h]
  · rw [exec_sensorStatus, execSensorStatus, h]
    rfl
  · rw [exec_configResend, execConfigResend]
  · rw [exec_tdmBlockComplete_of_lane hon hlane, if_pos ⟨habsent, by rcases hidle with h | h <;> simp [h]⟩]
  · rw [exec_tdmBlockComplete_of_lane hon hlane, if_neg (by simp [hwaits, hwrites]), if_pos habsent]
    rfl
  · rw [exec_tdmBlockComplete_of_lane hon hlane, if_neg (fun h => hrun h.1), if_neg hrun]
    rfl
  · have hlane' : s.start.tdmLane d.val p.val = some l := hlane
    rw [exec_tdmSdinSilent, execTdmSdinSilent, hlane']
    dsimp only
    rw [State.goSilent, if_pos (show s.start.laneState l = 3 from hrun)]
  · rw [exec_t1sSegmentFault, execT1sSegmentFault, if_neg (show ¬ ((!s.start.segRuns d.val g.val) = true ∨ NatSet.has s.start.ptp.segFault (d.val * 4 + g.val) = true) by
      rw [show s.start.segRuns d.val g.val = true from hruns, show NatSet.has s.start.ptp.segFault (d.val * 4 + g.val) = false from hfault]; decide)]
    rfl

/-! ### Guarantees -/

section
variable {l : Fin 64} {q : BitVec 32} {e : Entry} {s : State} (hcox : s.err.coxHalted = false) (hentry : s.entry l q.toNat = some e)
include hcox

theorem exec_frameDeadline_of_run (hused : s.seqUsed l q.toNat = true) (hentry : s.entry l q.toNat = none) :
    exec (.frameDeadline l q) s = .next { s.start with err := { s.err with lateRun := NatSet.del s.err.lateRun l } } := by
  have hentry' : s.start.entry l.val q.toNat = none := hentry
  rw [exec_frameDeadline, execFrameDeadline, if_neg (show ¬ (s.start.err.coxHalted = true ∨ (!s.start.seqUsed l.val q.toNat) = true) by
    rw [show s.start.err.coxHalted = false from hcox, show s.start.seqUsed l.val q.toNat = true from hused]; decide), hentry']
  rfl

include hentry

theorem exec_frameDeadline_of_late (hused : s.seqUsed l q.toNat = true) (hlate : e.late = false) (hended : e.ended = false) (hlimit : s.frameLimit l e 1 ≤ s.dev) :
    let marked := (s.start.onEntry l q.toNat fun e => { e with late := true }).bump Fld.ERR_LANE_LATE_CNT_CNT l 1
    exec (.frameDeadline l q) s = .next (if NatSet.has s.err.lateRun l then marked
      else ({ marked with err := { marked.err with lateRun := NatSet.add s.err.lateRun l } }).record { cls := 1, status := stTIMEOUT, part := s.lanePart l, block := 0x1B, lane := some l.val }) := by
  have hentry' : s.start.entry l.val q.toNat = some e := hentry
  rw [exec_frameDeadline, execFrameDeadline, if_neg (show ¬ (s.start.err.coxHalted = true ∨ (!s.start.seqUsed l.val q.toNat) = true) by
    rw [show s.start.err.coxHalted = false from hcox, show s.start.seqUsed l.val q.toNat = true from hused]; decide), hentry']
  dsimp only
  rw [if_neg (show ¬ (e.late = true ∨ e.ended = true ∨ s.start.dev < s.start.frameLimit l.val e 1) by
    rw [hlate, hended]
    exact fun h => by
      rcases h with h | h | h
      · exact Bool.false_ne_true h
      · exact Bool.false_ne_true h
      · exact Nat.not_lt.mpr hlimit h)]
  rfl

end

/-- A stack whose thermal halving follows its temperature (R575). -/
def State.halve (s : State) (n : Nat) (hot : Bool) : State :=
  ({ s with shed := Tbl.set {} s.shed n { s.shedSt n with halved := hot } }).put Fld.LANE_STACK_STEPS_HALVED n (b2n hot)

theorem State.shedSt_halve (s : State) (n : Nat) (hot : Bool) : (s.halve n hot).shedSt n = { s.shedSt n with halved := hot } := Tbl.get_set_same _ _ _ _

/-- Settles O39: each event by its command. -/
theorem guaranteesAreKeptAndCounted : Obligations.GuaranteesAreKeptAndCounted := by
  unfold Obligations.GuaranteesAreKeptAndCounted
  refine ⟨fun l s => ⟨fun hrun => ?_, fun hrun hheard => ?_, fun hadm => ?_⟩, fun n hot s => ?_, fun s halive hcox => ?_,
    fun l q e s hcox hentry => ⟨exec_frameDeadline_of_late hcox hentry, fun hended hkeep hlimit => ?_⟩, fun l q s hcox hused hentry => exec_frameDeadline_of_run hcox hused hentry⟩
  · rw [exec_laneSilentTimeout, execLaneSilentTimeout]
    rw [if_pos (show s.start.laneState l.val = 3 from hrun)]
  · rw [exec_frameIntervalLoss, execFrameIntervalLoss]
    rw [if_pos (show (s.start.laneState l.val = 3 ∨ s.start.laneState l.val = 4) ∧ ((s.start.lane l.val).heard = true ∨ s.start.laneKind l.val ≠ 1) from ⟨hrun, hheard⟩)]
    rfl
  · rw [exec_gapIntervalEnd, execGapIntervalEnd]
    rw [if_neg (show ¬ (!s.start.laneAdmitted l.val) = true by rw [show s.start.laneAdmitted l.val = true from hadm]; decide)]
    rfl
  · refine ⟨s.start.halve n hot, exec_stackThermalHalving s n hot, rfl, ?_, ?_, ?_⟩
    · rw [State.shedSt_halve]
    · rw [State.shedSt_halve]
      rfl
    · rw [State.halve, State.get_put_same]
      cases hot <;> rfl
  · rw [exec_shedEvaluate, execShedEvaluate]
    rw [if_neg (show ¬ ((!s.start.alive) = true ∨ s.start.err.coxHalted = true) by rw [show s.start.alive = true from halive, show s.start.err.coxHalted = false from hcox]; decide)]
  · have hentry' : s.start.entry l.val q.toNat = some e := hentry
    rw [exec_frameLateLimit, execFrameLateLimit]
    rw [if_neg (show ¬ s.start.err.coxHalted = true by rw [show s.start.err.coxHalted = false from hcox]; decide), hentry']
    dsimp only
    rw [if_neg (show ¬ (e.ended = true ∨ _ ∨ s.start.dev < s.start.frameLimit l.val e (s.start.get Fld.ERR_WD_CFG_LATE_MULT 0)) by
      rw [hended]
      exact fun h => h.elim Bool.false_ne_true fun h => h.elim hkeep (Nat.not_lt.mpr hlimit))]
    rfl

end Sys2Proof.Machine
end

section
/-!
PROOFS. Chapter 9: the Learning Engines' work (R169, R364, R372, R374, R388, R406, R414, R570).
-/
namespace Sys2Proof.Machine

/-! ### Events -/

/-- Where a lane's next event stands. -/
def State.eventAt (u : State) (l : Nat) : Nat :=
  u.ringBaseOf (u.lrnLane l).ring + u.ringCon (u.lrnLane l).ring % max 1 (u.ringSizeOf (u.lrnLane l).ring)

/-- The engine's read of the lane's next event. -/
def State.eventRead (u : State) (l : Nat) : Bool × State := u.service (0x30 + (u.lrnLane l).engine) (u.lanePart l) false (u.eventAt l) 16

/-- The event consumed and counted. -/
def State.eventTaken (u : State) (l : Nat) : State :=
  ((u.eventRead l).2.putCon (u.lrnLane l).ring (u.ringCon (u.lrnLane l).ring + 16)).bump Fld.LRN_EV_CNT_CNT l 1

section
variable {u : State} {l : Nat} {sp : Option Nat} (hring : (u.lrnLane l).ring ≠ 0) (hcon : u.ringCon (u.lrnLane l).ring < u.ringPub (u.lrnLane l).ring)
include hring hcon

theorem State.ring_waits : ¬ ((u.lrnLane l).ring = 0 ∨ u.ringPub (u.lrnLane l).ring ≤ u.ringCon (u.lrnLane l).ring) :=
  not_or.mpr ⟨hring, Nat.not_le.mpr hcon⟩

theorem State.leEvent_denied (hread : (u.eventRead l).1 = false) : u.leEvent l sp = u.eventTaken l := by
  rw [State.leEvent]
  dsimp only
  rw [if_neg (State.ring_waits hring hcon)]
  unfold State.eventRead State.eventAt at hread
  rw [hread, if_pos (show (!false) = true from rfl)]
  rfl

variable (hread : (u.eventRead l).1 = true)
include hread

theorem State.leEvent_poisoned (hpoison : (u.poisoned (u.eventAt l) || u.poisoned (u.eventAt l + 8)) = true) :
    u.leEvent l sp = ((u.eventTaken l).setLane l { (u.eventTaken l).lane l with gapCause := addCause ((u.eventTaken l).lane l).gapCause 6 }).bump Fld.MEM_POISON_CNT_CNT 0 1 := by
  rw [State.leEvent]
  dsimp only
  rw [if_neg (State.ring_waits hring hcon)]
  unfold State.eventRead State.eventAt at hread
  unfold State.eventAt at hpoison
  rw [hread, if_neg (show ¬ (!true) = true from Bool.false_ne_true), hpoison, if_pos rfl]
  rfl

theorem State.leEvent_empty (hclean : (u.poisoned (u.eventAt l) || u.poisoned (u.eventAt l + 8)) = false)
    (hempty : bit (u.coherentNat (u.eventAt l + 15) 1) 1 = true) (hscore : bit (u.coherentNat (u.eventAt l + 15) 1) 0 = false) :
    u.leEvent l sp = (u.eventTaken l).moveTime (u.lrnLane l).engine ((u.eventTaken l).laneModel l) (u.coherentNat (u.eventAt l) 8) := by
  rw [State.leEvent]
  dsimp only
  rw [if_neg (State.ring_waits hring hcon)]
  unfold State.eventRead State.eventAt at hread
  unfold State.eventAt at hclean hempty hscore
  rw [hread, if_neg (show ¬ (!true) = true from Bool.false_ne_true), hclean, if_neg Bool.false_ne_true, hempty, if_pos rfl, hscore,
    if_neg (show ¬ (false = true ∧ _) from fun h => Bool.false_ne_true h.1)]
  rfl

end

/-! ### Check codes -/

theorem State.meetSram_neuron {s : State} {h j : Nat} {n : Neuron} (hn : s.neuron h j = some n) (hclean : n.poisoned = false) :
    s.meetSram h (.neuron j) = (s.setNeuron h j { n with poisoned := true }).ueFree (0x30 + h) 4 := by
  rw [State.meetSram, hn]
  dsimp only
  rw [if_neg (show ¬ n.poisoned = true by rw [hclean]; decide)]

/-! ### Sweeps -/

/-- When a population's evaluation is due (R406). -/
def Pop.due (p : Pop) : Nat := p.evalAt + p.f 0x3E 2 * p.tick

/-- A population whose next evaluation is noted. -/
def State.sweepNoted (s : State) (h n : Nat) (p : Pop) : State := s.start.setPop h n (some { p with evalAt := p.due })

section
variable {h : Fin 2} {n : Fin 64} {sp : Option Nat} {sram : SramErr} {p : Pop} {s : State} (hon : s.domOn (50 + h.val) = true) (hp : s.pop h n = some p)
include hp

theorem exec_evaluationSweep_early (hearly : s.popTime h p < p.due) : exec (.evaluationSweep h n sp sram) s = .next s.start := by
  have hp' : s.start.pop h.val n.val = some p := hp
  rw [exec_evaluationSweep, execEvaluationSweep, hp']
  dsimp only
  rw [if_pos (show (!s.start.domOn (50 + h.val)) = true ∨ s.start.popTime h.val p < p.evalAt + p.f 0x3E 2 * p.tick from .inr hearly)]

include hon in
theorem exec_evaluationSweep_due (hdue : p.due ≤ s.popTime h p) : exec (.evaluationSweep h n sp sram) s =
    .next (if (s.sweepNoted h n p).learnOff then s.sweepNoted h n p
      else if (s.sweepNoted h n p).sweepDeferred h n then (s.sweepNoted h n p).defer h 64 (.sweep n) else ((s.sweepNoted h n p).meetSram h sram).sweep h n sp) := by
  have hp' : s.start.pop h.val n.val = some p := hp
  rw [exec_evaluationSweep, execEvaluationSweep, hp']
  dsimp only
  rw [if_neg (show ¬ ((!s.start.domOn (50 + h.val)) = true ∨ s.start.popTime h.val p < p.evalAt + p.f 0x3E 2 * p.tick) by
    rw [show s.start.domOn (50 + h.val) = true from hon]
    exact fun hor => hor.elim (by decide) (Nat.not_lt.mpr hdue))]
  rfl

end

/-- Settles O40: an event by `State.leEvent`, an evaluation by the population's due time. -/
theorem learningEnginesTakeTheirWork : Obligations.LearningEnginesTakeTheirWork := by
  unfold Obligations.LearningEnginesTakeTheirWork
  refine ⟨fun l sp sram s hon => ?_, fun h sp sram s hon => ⟨fun d hdue => ?_, fun hnone => ?_⟩, fun h n sp sram p s hon hp => ?_,
    fun h s => ⟨rfl, rfl, fun j n hn hclean => State.meetSram_neuron hn hclean⟩, fun l s hring hcon hcox hon => ?_⟩
  · have hev : exec (.leEvent l sp sram) s = .next ((s.start.meetSram (s.lrnLane l).engine sram).leEvent l sp) := by
      rw [exec_leEvent, execLeEvent]
      rw [if_pos (show s.start.domOn (50 + (s.start.lrnLane l.val).engine) = true from hon)]
      rfl
    refine ⟨hev, fun hring hcon => ⟨fun hread => ?_, fun hread hpoison => ?_, fun hread hclean hempty hscore => ?_⟩⟩
    · exact hev.trans (congrArg Host.Outcome.next (State.leEvent_denied hring hcon hread))
    · exact hev.trans (congrArg Host.Outcome.next (State.leEvent_poisoned hring hcon hread hpoison))
    · exact hev.trans (congrArg Host.Outcome.next (State.leEvent_empty hring hcon hread hclean hempty hscore))
  · have hdue' : s.start.nextDue h.val = some d := hdue
    rw [exec_delayWheelRelease, execDelayWheelRelease, if_neg (show ¬ (!s.start.domOn (50 + h.val)) = true by rw [show s.start.domOn (50 + h.val) = true from hon]; decide), hdue']
  · have hnone' : s.start.nextDue h.val = none := hnone
    rw [exec_delayWheelRelease, execDelayWheelRelease, if_neg (show ¬ (!s.start.domOn (50 + h.val)) = true by rw [show s.start.domOn (50 + h.val) = true from hon]; decide), hnone']
  · refine ⟨fun hearly => exec_evaluationSweep_early hp hearly, fun hdue hoff => ?_, fun hdue hlearn hdefer => ?_, fun hdue hlearn hfree => ?_⟩
    · exact (exec_evaluationSweep_due hon hp hdue).trans (congrArg Host.Outcome.next (if_pos hoff))
    · exact (exec_evaluationSweep_due hon hp hdue).trans (congrArg Host.Outcome.next ((if_neg (ne_true_of_eq_false hlearn)).trans (if_pos hdefer)))
    · exact (exec_evaluationSweep_due hon hp hdue).trans (congrArg Host.Outcome.next ((if_neg (ne_true_of_eq_false hlearn)).trans (if_neg (ne_true_of_eq_false hfree))))
  · rw [exec_eventRingTimeout, execEventRingTimeout]
    rw [if_neg (show ¬ ((s.start.lrnLane l.val).ring = 0 ∨ s.start.ringPub (s.start.lrnLane l.val).ring ≤ s.start.ringCon (s.start.lrnLane l.val).ring ∨
      s.start.err.coxHalted = true ∨ (!s.start.domOn (50 + (s.start.lrnLane l.val).engine)) = true) by
      rw [show s.start.err.coxHalted = false from hcox, show s.start.domOn (50 + (s.start.lrnLane l.val).engine) = true from hon]
      exact fun hor => hor.elim hring fun hor => hor.elim (Nat.not_le.mpr hcon) (by decide))]
    rfl

end Sys2Proof.Machine
end

section
/-!
PROOFS. Chapter 10: checkpoints (R416, R424, R426 to R428, R433, R436 to R438).
-/
namespace Sys2Proof.Machine

/-! ### The start -/

section
variable {n : Fin 128} {p : Pop} {s : State} (hp : s.keptPop n = some p)
include hp

theorem exec_checkpointDue_of_kept : exec (.checkpointDue n) s = .next (if (!p.dirty) = true ∨ s.suspended n = true ∨ s.learnOff = true then s.start
    else if s.err.coxHalted then s.start.putOff n false false else if !s.wearOk (n.val / 64) p then s.start.putOff n false true else (s.start.startCheckpoint n false).mbAll) := by
  have hp' : s.start.keptPop n.val = some p := hp
  rw [exec_checkpointDue, execCheckpointDue, hp']
  rfl

/-- One put off starts once the budget allows it, or ends where it is no longer due (R428). -/
theorem exec_deferredCheckpointStart_of_kept {r : SnapReq} (hr : ((s.bnk (n.val / 64)).deferred.find? fun (r : SnapReq) => r.pop = n.val % 64) = some r)
    (hcox : s.err.coxHalted = false) (hlearn : s.learnOff = false) (hwear : s.wearOk (n.val / 64) p = true) :
    let u := s.start.setBank (n.val / 64) { s.bnk (n.val / 64) with deferred := ((s.bnk (n.val / 64)).deferred.filter (fun (r : SnapReq) => r.pop ≠ n.val % 64)) }
    exec (.deferredCheckpointStart n) s = .next (if p.dirty = true ∧ (!u.suspended n) = true then (u.startCheckpoint n r.byReg).mbAll else u.regDone r.byReg) := by
  have hp' : s.start.keptPop n.val = some p := hp
  have hr' : ((s.start.bnk (n.val / 64)).deferred.find? fun (r : SnapReq) => r.pop = n.val % 64) = some r := hr
  rw [exec_deferredCheckpointStart, execDeferredCheckpointStart, hp']
  dsimp only
  rw [hr']
  dsimp only
  rw [if_neg (show ¬ (s.start.err.coxHalted = true ∨ s.start.learnOff = true ∨ (!s.start.wearOk (n.val / 64) p) = true) by
    rw [show s.start.err.coxHalted = false from hcox, show s.start.learnOff = false from hlearn, show s.start.wearOk (n.val / 64) p = true from hwear]; decide)]
  rfl

end

/-! ### The copy's end -/

/-- What the end of a copy does before the next copy starts (R424 to R428). -/
def State.copySettled (u : State) (h : Nat) (r : SnapReq) (ecc : Bool) (img : List Byte) (part : Nat) : State :=
  let st := if ecc then stECC else if r.readout then u.memCheck (r.fn.getD part) true r.dest img.length else stOK
  let v := if r.readout ∧ st = stOK then u.writeBytes r.dest img else u
  let v := (v.endPause h).bhState h r.pop (if r.readout ∨ ecc then 0 else 2)
  if ecc then (((v.freeBlocks h r.blocks).setDirty h r.pop).record { cls := 1, status := stECC, unit := 0x34 + h, part := part, block := 0x14 }).endReq r stECC []
  else if r.readout then v.endReq r st (if st = stOK then leBytes 8 img.length ++ leBytes 8 r.t else [])
  else v.setBank h { v.bnk h with writing := (v.bnk h).writing ++
    [({ pop := r.pop, blocks := r.blocks, image := img, t := r.t, attempt := 0, verifying := false, fn := r.fn, byReg := r.byReg } : SlotWrite)] }

section
variable {h : Nat} {r : SnapReq} {s : State} (hcur : (s.bnk h).cur = some r)

/-- The copy's image, with the deliveries that its pause skipped. -/
def State.copiedImage (s : State) (h : Nat) (r : SnapReq) : List Byte :=
  finishImage r.image (match (s.leng h).pause with
    | some q => sumN (q.skipped.map (·.2))
    | none => 0)

/-- The bank once its copy has ended. -/
def State.copyEnded (s : State) (h : Nat) : State := s.setBank h { s.bnk h with cur := none }

/-- The partition of a population, 0 where there is none. -/
def State.popPart (s : State) (h n : Nat) : Nat :=
  match s.pop h n with
  | some p => p.part
  | none => 0

include hcur in
theorem State.copyDone_of_cur (ecc : Bool) :
    s.copyDone h ecc = State.nextSnap 9 h ((s.copyEnded h).copySettled h r ecc (s.copiedImage h r) ((s.copyEnded h).popPart h r.pop)) := by
  rw [State.copyDone, hcur]
  rfl

end

section
variable (u : State) (h : Nat) (r : SnapReq) (img : List Byte) (part : Nat)

/-- A copy that met an uncorrectable error. -/
theorem State.copySettled_ecc : u.copySettled h r true img part = (((((u.endPause h).bhState h r.pop 0).freeBlocks h r.blocks).setDirty h r.pop).record
    { cls := 1, status := stECC, unit := 0x34 + h, part := part, block := 0x14 }).endReq r stECC [] := by
  have hst : ¬ stECC = stOK := by decide
  unfold State.copySettled
  simp only [if_true, hst, and_false, if_false, or_true]

theorem State.copySettled_readout (hreadout : r.readout = true) :
    (u.memCheck (r.fn.getD part) true r.dest img.length = stOK →
      u.copySettled h r false img part = (((u.writeBytes r.dest img).endPause h).bhState h r.pop 0).endReq r stOK (leBytes 8 img.length ++ leBytes 8 r.t)) ∧
    (u.memCheck (r.fn.getD part) true r.dest img.length ≠ stOK →
      u.copySettled h r false img part = ((u.endPause h).bhState h r.pop 0).endReq r (u.memCheck (r.fn.getD part) true r.dest img.length) []) := by
  unfold State.copySettled
  dsimp only
  generalize u.memCheck (r.fn.getD part) true r.dest img.length = st
  simp only [hreadout, Bool.false_eq_true, if_false, if_true, true_and, true_or]
  constructor
  · intro hok
    rw [if_pos hok, if_pos hok, hok]
  · intro hbad
    rw [if_neg hbad, if_neg hbad]

theorem State.copySettled_kept (hreadout : r.readout = false) :
    let v := (u.endPause h).bhState h r.pop 2
    u.copySettled h r false img part = v.setBank h { v.bnk h with writing := (v.bnk h).writing ++
      [({ pop := r.pop, blocks := r.blocks, image := img, t := r.t, attempt := 0, verifying := false, fn := r.fn, byReg := r.byReg } : SlotWrite)] } := by
  unfold State.copySettled
  simp only [hreadout, Bool.false_eq_true, if_false, false_and, or_false]

end

/-! ### The slot's writes and its read-back -/

theorem State.bhWrite_now (s : State) (off : Nat) (bs : List Byte) : (s.bhWrite off bs).now = s.now := rfl

theorem State.foldl_bhWrite_now {α : Type} (f : α → Nat) (g : α → List Byte) (xs : List α) (s : State) : (xs.foldl (fun s x => s.bhWrite (f x) (g x)) s).now = s.now := by
  induction xs generalizing s with
  | nil => rfl
  | cons x xs ih => rw [List.foldl_cons, ih, State.bhWrite_now]

section
variable {b : Nat} {w : SlotWrite} {ws : List SlotWrite} {s : State} (hw : (s.bnk b).writing = w :: ws) (hruns : (s.bnk b).stopped = false)
include hw hruns

theorem State.slotWritten_good (hwrite : w.verifying = false) :
    let u := (w.blocks.zip (List.range w.blocks.length)).foldl (fun (s : State) ki => s.bhWrite (blockOff b ki.1) (((slotBytes w).drop (ki.2 * 65536)).take 65536)) s
    s.slotWritten b [] = u.setBank b { u.bnk b with writing := ({ w with verifying := true } : SlotWrite) :: ws, writes := (w.blocks.foldl (fun t k => Tbl.set 0 t k (Tbl.get 0 t k + 1)) (u.bnk b).writes), recent := (u.bnk b).recent ++ [(s.now, w.blocks.length)] } := by
  intro u
  have hnow : u.now = s.now := State.foldl_bhWrite_now _ _ _ _
  rw [State.slotWritten, hw]
  dsimp only
  rw [if_neg (show ¬ (w.verifying = true ∨ (s.bnk b).stopped = true) by rw [hwrite, hruns]; decide), List.filter_nil, if_pos rfl]
  change u.setBank b { u.bnk b with writing := ({ w with verifying := true } : SlotWrite) :: ws, writes := _, recent := (u.bnk b).recent ++ [(u.now, w.blocks.length)] } = _
  rw [hnow]

/-- A slot whose read-back was counted, with its write taken from the bank. -/
def State.readCounted (s : State) (b : Nat) (ws : List SlotWrite) (c e : Nat) : State :=
  let u := (s.bump Fld.BH_CE_CNT_CNT b c).bump Fld.BH_UE_CNT_CNT b e
  u.setBank b { u.bnk b with writing := ws }

/-- The commit of a slot that reads back well (R433, R436). -/
def State.slotCommitted (v : State) (b : Nat) (w : SlotWrite) (p : Pop) : State :=
  let n := 64 * b + w.pop
  let seq := (v.bnk b).seq
  let logged := v.logRecord b 1 w.pop p.part (w.blocks.headD 0) p.sig w.t w.image.length
  let old := match Tbl.get none (logged.bnk b).committed n with
    | some o => o.1
    | none => []
  let done := logged.setBank b { logged.bnk b with committed := Tbl.set none (logged.bnk b).committed n (some (w.blocks, seq)) }
  let shown := ((done.freeBlocks b old).put Fld.BH_POP_LAST_T_PAUSE n w.t).bhState b w.pop 0
  let counted := if w.powerFail = true then shown.bump Fld.BH_PF_CNT_CNT b 1 else shown
  (counted.mbEndFor w.fn stOK (leBytes 8 w.t)).regDone w.byReg

variable (hverify : w.verifying = true)
include hverify

theorem State.slotRead_failed (c k : Nat) (ks : List Nat) : s.slotRead b c (k :: ks) = (s.readCounted b ws c (ks.length + 1)).slotFailed b w (k :: ks) := by
  rw [State.slotRead, hw]
  dsimp only
  rw [if_neg (show ¬ ((!w.verifying) = true ∨ (s.bnk b).stopped = true) by rw [hverify, hruns]; decide), if_pos (List.cons_ne_nil k ks)]
  rfl

theorem State.slotRead_good (c : Nat) {p : Pop} (hp : (s.readCounted b ws c 0).pop b w.pop = some p) :
    s.slotRead b c [] = (s.readCounted b ws c 0).slotCommitted b w p := by
  rw [State.slotRead, hw]
  dsimp only
  rw [if_neg (show ¬ ((!w.verifying) = true ∨ (s.bnk b).stopped = true) by rw [hverify, hruns]; decide), if_neg (not_not_intro rfl)]
  unfold State.readCounted at hp
  dsimp only at hp
  rw [List.length_nil, hp]
  rfl

end

/-- Settles O41: the start by its guards, the copy's end by `State.copySettled`, the commit by `State.slotCommitted`. -/
theorem checkpointsCommitStepByStep : Obligations.CheckpointsCommitStepByStep := by
  unfold Obligations.CheckpointsCommitStepByStep
  refine ⟨fun n p s hp => ⟨fun hclean => ?_, fun hdirty hsus hlearn => ⟨fun hcox => ?_, fun hcox hwear => ?_, fun hcox hwear => ?_⟩, fun r hr hcox hlearn hwear => ?_⟩,
    fun h r s hcur => ?_, fun b w ws s hw hruns => ⟨fun hwrite => ?_, fun hverify => ⟨fun c k ks => ?_, fun c p hp => ?_⟩⟩⟩
  · rw [exec_checkpointDue_of_kept hp, if_pos (.inl (by rw [hclean]; decide))]
  · rw [exec_checkpointDue_of_kept hp, if_neg (by rw [hdirty, hsus, hlearn]; decide), if_pos hcox]
  · rw [exec_checkpointDue_of_kept hp, if_neg (by rw [hdirty, hsus, hlearn]; decide), if_neg (ne_true_of_eq_false hcox), if_pos (by rw [hwear]; decide)]
  · rw [exec_checkpointDue_of_kept hp, if_neg (by rw [hdirty, hsus, hlearn]; decide), if_neg (ne_true_of_eq_false hcox), if_neg (by rw [hwear]; decide)]
  · simp only [exec_deferredCheckpointStart_of_kept hp hr hcox hlearn hwear, Bool.not_eq_true']
  · have hdone : ∀ ecc, exec (.snapshotCopyDone h ecc) s =
        .next (State.nextSnap 9 h ((s.start.copyEnded h).copySettled h r ecc (s.start.copiedImage h r) ((s.start.copyEnded h).popPart h r.pop))).mbAll := fun ecc => by
      rw [exec_snapshotCopyDone, execSnapshotCopyDone, State.copyDone_of_cur (show (s.start.bnk h.val).cur = some r from hcur)]
    refine ⟨?_, fun hreadout => ?_, fun hkept => ?_⟩
    · rw [hdone, State.copySettled_ecc]
      rfl
    · obtain ⟨hgood, hbad⟩ := State.copySettled_readout (s.start.copyEnded h) h r (s.start.copiedImage h r) ((s.start.copyEnded h).popPart h r.pop) hreadout
      refine ⟨fun hok => ?_, fun hfault => ?_⟩
      · rw [hdone, hgood hok]
        rfl
      · rw [hdone, hbad hfault]
        rfl
    · rw [hdone, State.copySettled_kept _ _ _ _ _ hkept]
      rfl
  · rw [exec_slotWriteDone, execSlotWriteDone, State.slotWritten_good (show (s.start.bnk b.val).writing = w :: ws from hw) hruns hwrite]
    rfl
  · rw [exec_readbackDone, execReadbackDone, State.slotRead_failed (show (s.start.bnk b.val).writing = w :: ws from hw) hruns hverify]
    rfl
  · rw [exec_readbackDone, execReadbackDone, State.slotRead_good (show (s.start.bnk b.val).writing = w :: ws from hw) hruns hverify c hp]
    rfl

end Sys2Proof.Machine
end

section
/-!
PROOFS. Chapter 7: the governors' voltages (R95, R287 to R290, R313, R618).
-/
namespace Sys2Proof.Machine

/-! ### Rails -/

/-- A rail moves by at most 10 mV per microsecond, rounded up. -/
theorem Rail.now_add (r : Rail) (t d : Nat) (h : r.since ≤ t) : r.now (t + d) ≤ r.now t + d * 10 / 1000 + 1 ∧ r.now t ≤ r.now (t + d) + d * 10 / 1000 + 1 := by
  have hmoved : (t + d - r.since) * 10 / 1000 ≤ (t - r.since) * 10 / 1000 + d * 10 / 1000 + 1 := by omega
  have hmono : (t - r.since) * 10 / 1000 ≤ (t + d - r.since) * 10 / 1000 := by omega
  unfold Rail.now
  dsimp only
  split <;> omega

/-! ### What the governors may change -/

/-- A state that differs by register fields, Sculls, lanes and rails alone. -/
def State.Governed (s t : State) : Prop := t = { s with flds := t.flds, scl := t.scl, lanes := t.lanes, pwr := { s.pwr with rails := t.pwr.rails } }

theorem State.Governed.trans {s t u : State} (h : s.Governed t) (h' : t.Governed u) : s.Governed u := by
  unfold State.Governed at *
  rw [h', h]

theorem State.Governed.foldl {α : Type} {f : State → α → State} (hf : ∀ (s : State) a, s.Governed (f s a)) (xs : List α) (s : State) : s.Governed (xs.foldl f s) := by
  induction xs generalizing s with
  | nil => exact rfl
  | cons x xs ih => exact (hf s x).trans (ih _)

section
variable (s : State)

theorem State.setA_governed (n a : Nat) : s.Governed (s.setA n a) := rfl

theorem State.setVso_governed (n v : Nat) : s.Governed (s.setVso n v) := rfl

theorem State.setScull_governed (n : Nat) (x : Scull) : s.Governed (s.setScull n x) := rfl

theorem State.laneEnergy_governed (l : Nat) (seq : Option Nat) (e : Nat) : s.Governed (s.laneEnergy l seq e) := by
  unfold State.laneEnergy
  dsimp only
  split
  · cases seq <;> rfl
  · rfl

theorem State.tickEnergy_governed (moment : Nat) : s.Governed (s.tickEnergy moment) := by
  unfold State.tickEnergy
  dsimp only
  exact (State.Governed.foldl (fun s l => s.laneEnergy_governed _ _ _) _ s).trans rfl

/-- A Scull at the tick with its demand and its new supply (R288). -/
def State.governMoved (s : State) (moment n : Nat) : State :=
  (s.setScull n { s.scull n with demand := s.sclDemand n }).setVso n
    (if s.mod.capped then min (s.wantedVso n moment) (s.get Fld.CATCH_STATE_VSO_MV n) else s.wantedVso n moment)

/-- The highest A that the governor leaves a Scull (R289, R312, R313). -/
def State.highestA (s : State) (n : Nat) : Nat := if s.flag Fld.CATCH_CTRL_ESC_LOCK n ∨ !(s.scull n).monitorOk then 0 else s.get Fld.CATCH_CTRL_AGGR_MAX n

/-- A Scull whose domain is on gets its supply, and an A above the highest is lowered. -/
theorem State.governScull_of_on {moment n : Nat} (hon : s.domOn n = true) :
    s.governScull moment n = if (s.governMoved moment n).highestA n < (s.governMoved moment n).get Fld.CATCH_STATE_A n then
      (s.governMoved moment n).setA n ((s.governMoved moment n).highestA n) else s.governMoved moment n := by
  unfold State.governScull
  rw [if_neg (show ¬ (!s.domOn n) = true by rw [hon]; decide)]
  rfl

theorem State.governScull_off {moment n : Nat} (hoff : ¬ s.domOn n = true) : s.governScull moment n = s := by
  unfold State.governScull
  rw [if_pos (by simpa using hoff)]

theorem State.governMoved_governed (moment n : Nat) : s.Governed (s.governMoved moment n) :=
  (s.setScull_governed n _).trans (State.setVso_governed _ n _)

theorem State.governScull_governed (moment n : Nat) : s.Governed (s.governScull moment n) := by
  by_cases hon : s.domOn n = true
  · rw [s.governScull_of_on hon]
    split
    · exact (s.governMoved_governed moment n).trans (State.setA_governed _ n _)
    · exact s.governMoved_governed moment n
  · rw [s.governScull_off hon]
    exact rfl

end

/-! ### The fields of a Scull's Catch registers -/

section
variable (s : State) {g : RegField} {j : Nat}

theorem State.get_setA_ne {n : Nat} (ha : g.key j ≠ Fld.CATCH_STATE_A.key n) (hd : g.key j ≠ Fld.CATCH_STATE_DATA_MV.key n) (a : Nat) : (s.setA n a).get g j = s.get g j :=
  (State.get_put_ne _ _ _ _ _ _ hd).trans (State.get_put_ne _ _ _ _ _ _ ha)

theorem State.get_setVso_ne {n : Nat} (hv : g.key j ≠ Fld.CATCH_STATE_VSO_MV.key n) (hd : g.key j ≠ Fld.CATCH_STATE_DATA_MV.key n) (v : Nat) : (s.setVso n v).get g j = s.get g j :=
  (State.get_put_ne _ _ _ _ _ _ hd).trans (State.get_put_ne _ _ _ _ _ _ hv)

theorem State.get_governMoved_ne {n : Nat} (hv : g.key j ≠ Fld.CATCH_STATE_VSO_MV.key n) (hd : g.key j ≠ Fld.CATCH_STATE_DATA_MV.key n) (moment : Nat) :
    (s.governMoved moment n).get g j = s.get g j := State.get_setVso_ne _ hv hd _

/-- A Scull's turn at the tick changes no field but the three of its CATCH_STATE. -/
theorem State.get_governScull_ne {n : Nat} (hv : g.key j ≠ Fld.CATCH_STATE_VSO_MV.key n) (hd : g.key j ≠ Fld.CATCH_STATE_DATA_MV.key n) (ha : g.key j ≠ Fld.CATCH_STATE_A.key n) (moment : Nat) :
    (s.governScull moment n).get g j = s.get g j := by
  by_cases hon : s.domOn n = true
  · rw [s.governScull_of_on hon]
    split
    · rw [State.get_setA_ne _ ha hd, s.get_governMoved_ne hv hd]
    · exact s.get_governMoved_ne hv hd moment
  · rw [s.governScull_off hon]

theorem State.get_laneEnergy {l : Nat} (seq : Option Nat) (e : Nat) (hg : 0xC0100 ≤ g.base + j * g.stride) (hg' : g.base + j * g.stride < 0xC1000) (hlo : g.lo < 64) :
    (s.laneEnergy l seq e).get g j = s.get g j := by
  have hdev : (s.bump Fld.CATCH_DEV_ENERGY_NJ 0 e).get g j = s.get g j := s.get_bump_ne _ _ _ _ _ (by simp only [RegField.key, Fld.CATCH_DEV_ENERGY_NJ]; omega)
  unfold State.laneEnergy
  dsimp only
  split
  · have hlane : ((s.bump Fld.CATCH_DEV_ENERGY_NJ 0 e).bump Fld.CATCH_LANE_ENERGY_NJ l e).get g j = s.get g j :=
      (State.get_bump_ne _ _ _ _ _ _ (by simp only [RegField.key, Fld.CATCH_LANE_ENERGY_NJ]; omega)).trans hdev
    cases seq with
    | none => exact hlane
    | some q => exact hlane
  · exact hdev

theorem State.get_foldl {α : Type} {f : State → α → State} (hf : ∀ (s : State) a, (f s a).get g j = s.get g j) (xs : List α) : (xs.foldl f s).get g j = s.get g j := by
  induction xs generalizing s with
  | nil => rfl
  | cons x xs ih => rw [List.foldl_cons, ih, hf]

theorem State.get_tickEnergy (moment : Nat) (hg : 0xC0100 ≤ g.base + j * g.stride) (hg' : g.base + j * g.stride < 0xC1000) (hlo : g.lo < 64) : (s.tickEnergy moment).get g j = s.get g j := by
  unfold State.tickEnergy
  dsimp only
  rw [State.get_bump_ne _ _ _ _ _ _ (by simp only [RegField.key, Fld.CATCH_DEV_ENERGY_NJ]; omega), State.get_foldl]
  exact fun s l => s.get_laneEnergy _ _ hg hg' hlo

end

/-! ### The supply the governor wants -/

/-- A supply in 5 mV steps, from 450 mV to 850 mV. -/
def InSteps (v : Nat) : Prop := 450 ≤ v ∧ v ≤ 850 ∧ v % 5 = 0

theorem lowestMv_inSteps (p : Nat → Bool) : InSteps (lowestMv p) := by
  unfold lowestMv
  cases hfind : ((List.range 81).map fun i => 450 + 5 * i).find? p with
  | none => exact ⟨by decide, by decide, by decide⟩
  | some v =>
    obtain ⟨i, hi, rfl⟩ := List.mem_map.mp (List.mem_of_find?_eq_some hfind)
    have hi := List.mem_range.mp hi
    refine ⟨?_, ?_, ?_⟩ <;> simp only [Option.getD_some] <;> omega

/-- The wanted supply is at least V_me, rounded up to a step. -/
theorem State.wantedVso_bounds (s : State) (n moment : Nat) (hvme : s.get Fld.CATCH_VME_VME_MV n ≤ 600) :
    s.get Fld.CATCH_VME_VME_MV n ≤ s.wantedVso n moment ∧ s.wantedVso n moment ≤ 850 ∧ s.wantedVso n moment % 5 = 0 := by
  unfold State.wantedVso
  dsimp only
  split
  · obtain ⟨hlow, hhigh, hstep⟩ := lowestMv_inSteps fun mv => s.rateMeets n (stepRate n mv (junctionAt n moment))
    omega
  · obtain ⟨hlow, hhigh, hstep⟩ := lowestMv_inSteps fun mv => s.rateMeets n (stepRate n mv s.coldLimit)
    obtain ⟨hlow', hhigh', hstep'⟩ := lowestMv_inSteps fun mv => s.rateMeets n (stepRate n mv 1050)
    omega

/-! ### The tick -/

/-- A powered Scull, in a unit that is not capped, with V_me in its range. -/
def State.Governable (s : State) (n : Nat) : Prop := s.domOn n = true ∧ s.mod.capped = false ∧ s.get Fld.CATCH_VME_VME_MV n ≤ 600

/-- A Scull's supply and A as the governor leaves them. -/
def State.WellGoverned (s : State) (n : Nat) : Prop :=
  s.get Fld.CATCH_VME_VME_MV n ≤ s.get Fld.CATCH_STATE_VSO_MV n ∧ s.get Fld.CATCH_STATE_VSO_MV n ≤ 850 ∧ s.get Fld.CATCH_STATE_VSO_MV n % 5 = 0 ∧
  s.get Fld.CATCH_STATE_A n ≤ s.get Fld.CATCH_CTRL_AGGR_MAX n ∧ (s.flag Fld.CATCH_CTRL_ESC_LOCK n = true → s.get Fld.CATCH_STATE_A n = 0)

section
variable {s t : State} {n : Nat}

/-- Both are read off the same fields. -/
theorem State.WellGoverned.of_get (h : s.WellGoverned n)
    (hget : ∀ g ∈ [Fld.CATCH_VME_VME_MV, Fld.CATCH_STATE_VSO_MV, Fld.CATCH_STATE_A, Fld.CATCH_CTRL_AGGR_MAX, Fld.CATCH_CTRL_ESC_LOCK], t.get g n = s.get g n) : t.WellGoverned n := by
  simp only [List.mem_cons, List.not_mem_nil, or_false, forall_eq_or_imp, forall_eq] at hget
  obtain ⟨hvme, hvso, ha, haggr, hesc⟩ := hget
  unfold State.WellGoverned State.flag at *
  rw [hvme, hvso, ha, haggr, hesc]
  exact h

/-- Another Scull's turn leaves a Scull's registers. -/
theorem State.WellGoverned.governScull_ne (h : s.WellGoverned n) {m : Nat} (hne : m ≠ n) (moment : Nat) : (s.governScull moment m).WellGoverned n := by
  refine h.of_get fun g hg => ?_
  simp only [List.mem_cons, List.not_mem_nil, or_false] at hg
  rcases hg with rfl | rfl | rfl | rfl | rfl <;> refine s.get_governScull_ne ?_ ?_ ?_ _ <;>
    simp only [RegField.key, Fld.CATCH_VME_VME_MV, Fld.CATCH_STATE_VSO_MV, Fld.CATCH_STATE_DATA_MV, Fld.CATCH_STATE_A, Fld.CATCH_CTRL_AGGR_MAX, Fld.CATCH_CTRL_ESC_LOCK] <;> omega

theorem State.Governable.governScull (h : s.Governable n) (hn : n < 16) (m moment : Nat) : (s.governScull moment m).Governable n := by
  obtain ⟨hon, hcap, hvme⟩ := h
  have hpower : (s.governScull moment m).get Fld.PWR_STATE_ON (n / 32) = s.get Fld.PWR_STATE_ON (n / 32) := by
    refine s.get_governScull_ne ?_ ?_ ?_ _ <;> simp only [RegField.key, Fld.PWR_STATE_ON, Fld.CATCH_STATE_VSO_MV, Fld.CATCH_STATE_DATA_MV, Fld.CATCH_STATE_A] <;> omega
  have hsupply : (s.governScull moment m).get Fld.CATCH_VME_VME_MV n = s.get Fld.CATCH_VME_VME_MV n := by
    refine s.get_governScull_ne ?_ ?_ ?_ _ <;> simp only [RegField.key, Fld.CATCH_VME_VME_MV, Fld.CATCH_STATE_VSO_MV, Fld.CATCH_STATE_DATA_MV, Fld.CATCH_STATE_A] <;> omega
  refine ⟨?_, ?_, hsupply ▸ hvme⟩
  · rw [State.domOn, hpower]
    exact hon
  · rw [s.governScull_governed moment m]
    exact hcap

theorem State.highestA_bounds (s : State) (n : Nat) : s.highestA n ≤ s.get Fld.CATCH_CTRL_AGGR_MAX n ∧ (s.flag Fld.CATCH_CTRL_ESC_LOCK n = true → s.highestA n = 0) := by
  unfold State.highestA
  constructor
  · split
    · exact Nat.zero_le _
    · exact le_refl _
  · intro hesc
    rw [if_pos (.inl hesc)]

/-- The supply that a Scull gets in its turn, and its other fields. -/
theorem State.Governable.get_governMoved (h : s.Governable n) (moment : Nat) : (s.governMoved moment n).get Fld.CATCH_STATE_VSO_MV n = s.wantedVso n moment ∧
    (s.governMoved moment n).get Fld.CATCH_VME_VME_MV n = s.get Fld.CATCH_VME_VME_MV n := by
  obtain ⟨hon, hcap, hvme⟩ := h
  obtain ⟨hlow, hhigh, hstep⟩ := s.wantedVso_bounds n moment hvme
  constructor
  · refine (State.get_put_ne _ _ _ _ _ _ (by simp only [RegField.key, Fld.CATCH_STATE_VSO_MV, Fld.CATCH_STATE_DATA_MV]; omega)).trans ?_
    rw [State.get_put_same, if_neg (ne_true_of_eq_false hcap)]
    exact Nat.mod_eq_of_lt (show s.wantedVso n moment < 4096 by omega)
  · exact s.get_governMoved_ne (by simp only [RegField.key, Fld.CATCH_VME_VME_MV, Fld.CATCH_STATE_VSO_MV]; omega)
      (by simp only [RegField.key, Fld.CATCH_VME_VME_MV, Fld.CATCH_STATE_DATA_MV]; omega) moment

/-- A lowered A, with all else as it was. -/
theorem State.WellGoverned.setA {a : Nat} (hvso : s.get Fld.CATCH_VME_VME_MV n ≤ s.get Fld.CATCH_STATE_VSO_MV n ∧ s.get Fld.CATCH_STATE_VSO_MV n ≤ 850 ∧ s.get Fld.CATCH_STATE_VSO_MV n % 5 = 0)
    (hmax : a ≤ s.get Fld.CATCH_CTRL_AGGR_MAX n) (hesc : s.flag Fld.CATCH_CTRL_ESC_LOCK n = true → a = 0) : (s.setA n a).WellGoverned n := by
  have hkeep : ∀ g ∈ [Fld.CATCH_VME_VME_MV, Fld.CATCH_STATE_VSO_MV, Fld.CATCH_CTRL_AGGR_MAX, Fld.CATCH_CTRL_ESC_LOCK], (s.setA n a).get g n = s.get g n := by
    intro g hg
    simp only [List.mem_cons, List.not_mem_nil, or_false] at hg
    rcases hg with rfl | rfl | rfl | rfl <;> refine s.get_setA_ne ?_ ?_ _ <;>
      simp only [RegField.key, Fld.CATCH_VME_VME_MV, Fld.CATCH_STATE_VSO_MV, Fld.CATCH_STATE_DATA_MV, Fld.CATCH_STATE_A, Fld.CATCH_CTRL_AGGR_MAX, Fld.CATCH_CTRL_ESC_LOCK] <;> omega
  simp only [List.mem_cons, List.not_mem_nil, or_false, forall_eq_or_imp, forall_eq] at hkeep
  obtain ⟨hvme', hvso', haggr', hesc'⟩ := hkeep
  have ha : (s.setA n a).get Fld.CATCH_STATE_A n = a % 8 :=
    (State.get_put_ne _ _ _ _ _ _ (by simp only [RegField.key, Fld.CATCH_STATE_A, Fld.CATCH_STATE_DATA_MV]; omega)).trans (State.get_put_same _ _ _ _)
  obtain ⟨hlow, hhigh, hstep⟩ := hvso
  unfold State.WellGoverned
  rw [State.flag, hvme', hvso', haggr', hesc', ha]
  exact ⟨hlow, hhigh, hstep, (Nat.mod_le _ _).trans hmax, fun hlock => by rw [hesc hlock]⟩

theorem State.Governable.wellGoverned (h : s.Governable n) (moment : Nat) : (s.governScull moment n).WellGoverned n := by
  obtain ⟨hvso, hvme⟩ := h.get_governMoved moment
  obtain ⟨hlow, hhigh, hstep⟩ := s.wantedVso_bounds n moment h.2.2
  obtain ⟨hmax, hesc⟩ := (s.governMoved moment n).highestA_bounds n
  rw [s.governScull_of_on h.1]
  generalize s.governMoved moment n = u at hvso hvme hmax hesc ⊢
  have hu : u.get Fld.CATCH_STATE_A n ≤ u.highestA n → u.WellGoverned n := fun hle =>
    ⟨by omega, by omega, by omega, hle.trans hmax, fun hlock => Nat.le_zero.mp (hesc hlock ▸ hle)⟩
  split
  next => exact State.WellGoverned.setA ⟨by omega, by omega, by omega⟩ hmax hesc
  next hge => exact hu (Nat.not_lt.mp hge)

/-- After all turns every such Scull is well governed. -/
theorem State.Governable.foldl_wellGoverned (h : s.Governable n) (hn : n < 16) (moment : Nat) (ms : List Nat) (hms : n ∈ ms ∨ s.WellGoverned n) :
    (ms.foldl (State.governScull · moment) s).WellGoverned n := by
  induction ms generalizing s with
  | nil => exact hms.resolve_left List.not_mem_nil
  | cons m ms ih =>
    refine ih (h.governScull hn m moment) ?_
    by_cases hm : m = n
    · exact .inr (hm ▸ h.wellGoverned moment)
    · exact hms.imp (fun hmem => (List.mem_cons.mp hmem).resolve_left (Ne.symm hm)) fun hwell => hwell.governScull_ne hm moment

theorem State.WellGoverned.tickEnergy (h : s.WellGoverned n) (hn : n < 16) (moment : Nat) : (s.tickEnergy moment).WellGoverned n := by
  refine h.of_get fun g hg => ?_
  simp only [List.mem_cons, List.not_mem_nil, or_false] at hg
  rcases hg with rfl | rfl | rfl | rfl | rfl <;> refine s.get_tickEnergy moment ?_ ?_ (by decide) <;>
    simp only [Fld.CATCH_VME_VME_MV, Fld.CATCH_STATE_VSO_MV, Fld.CATCH_STATE_A, Fld.CATCH_CTRL_AGGR_MAX, Fld.CATCH_CTRL_ESC_LOCK] <;> omega

/-- The halves' rails move, and no field does. -/
theorem State.WellGoverned.governHalf (h : s.WellGoverned n) (moment k : Nat) : (s.governHalf moment k).WellGoverned n := h.of_get fun _ _ => rfl

end

/-- The governor's tick of a running Cox. -/
def State.governed (s : State) : State :=
  ([0, 1].foldl (State.governHalf · s.free) ((List.range 16).foldl (State.governScull · s.free) { s with free := s.free + 1 })).tickEnergy s.free

theorem State.governHalf_governed (s : State) (moment k : Nat) : s.Governed (s.governHalf moment k) := rfl

theorem State.governed_governed (s : State) : ({ s with free := s.free + 1 } : State).Governed s.governed :=
  ((State.Governed.foldl (fun s n => s.governScull_governed _ n) _ _).trans (State.Governed.foldl (fun s k => s.governHalf_governed _ k) _ _)).trans (State.tickEnergy_governed _ _)

theorem State.Governable.governed {s : State} {n : Nat} (h : s.Governable n) (hn : n < 16) : s.governed.WellGoverned n :=
  State.WellGoverned.tickEnergy (((State.Governable.foldl_wellGoverned (s := { s with free := s.free + 1 }) h hn _ _
    (.inl (List.mem_range.mpr hn))).governHalf _ 0).governHalf _ 1) hn _

theorem State.get_governHalf (s : State) {g : RegField} {j : Nat} (moment k : Nat) : (s.governHalf moment k).get g j = s.get g j := rfl

/-- The tick leaves V_me, AGGR_MAX and the escalation lock. -/
theorem State.get_governed (s : State) {g : RegField} {n : Nat} (hn : n < 16) (hg : g ∈ [Fld.CATCH_VME_VME_MV, Fld.CATCH_CTRL_AGGR_MAX, Fld.CATCH_CTRL_ESC_LOCK]) :
    s.governed.get g n = s.get g n := by
  have hturn : ∀ (t : State) m, (t.governScull s.free m).get g n = t.get g n := by
    intro t m
    simp only [List.mem_cons, List.not_mem_nil, or_false] at hg
    rcases hg with rfl | rfl | rfl <;> refine t.get_governScull_ne ?_ ?_ ?_ _ <;>
      simp only [RegField.key, Fld.CATCH_VME_VME_MV, Fld.CATCH_STATE_VSO_MV, Fld.CATCH_STATE_DATA_MV, Fld.CATCH_STATE_A, Fld.CATCH_CTRL_AGGR_MAX, Fld.CATCH_CTRL_ESC_LOCK] <;> omega
  have hat : 0xC0100 ≤ g.base + n * g.stride ∧ g.base + n * g.stride < 0xC1000 ∧ g.lo < 64 := by
    simp only [List.mem_cons, List.not_mem_nil, or_false] at hg
    rcases hg with rfl | rfl | rfl <;> simp only [Fld.CATCH_VME_VME_MV, Fld.CATCH_CTRL_AGGR_MAX, Fld.CATCH_CTRL_ESC_LOCK] <;> omega
  obtain ⟨hlow, hhigh, hlo⟩ := hat
  rw [State.governed, State.get_tickEnergy _ _ hlow hhigh hlo, State.get_foldl _ (fun t k => t.get_governHalf s.free k), State.get_foldl _ hturn]
  rfl

/-! ### The monitor -/

section
variable (s : State) (n : Nat)

/-- What a monitor that fails to answer leaves of its Scull (R313). -/
def State.monitorFailed : State :=
  ((s.setA n 0).put Fld.CATCH_VME_VME_MV n 600).setScull n { ((s.setA n 0).put Fld.CATCH_VME_VME_MV n 600).scull n with monitorOk := false }

theorem State.monitorFailed_governed : s.Governed (s.monitorFailed n) := rfl

theorem State.monitorFailed_scull : ((s.monitorFailed n).scull n).monitorOk = false := by
  rw [State.monitorFailed, State.scull_setScull]

theorem State.get_setA_zero : (s.setA n 0).get Fld.CATCH_STATE_A n = 0 :=
  (State.get_put_ne _ _ _ _ _ _ (show Fld.CATCH_STATE_A.key n ≠ Fld.CATCH_STATE_DATA_MV.key n by simp only [RegField.key, Fld.CATCH_STATE_A, Fld.CATCH_STATE_DATA_MV]; omega)).trans
    (State.get_put_same _ _ _ _)

theorem State.get_monitorFailed : (s.monitorFailed n).get Fld.CATCH_STATE_A n = 0 ∧ (s.monitorFailed n).get Fld.CATCH_VME_VME_MV n = 600 := by
  unfold State.monitorFailed
  rw [State.get_setScull, State.get_setScull]
  constructor
  · rw [State.get_put_ne _ _ _ _ _ _ (by simp only [RegField.key, Fld.CATCH_STATE_A, Fld.CATCH_VME_VME_MV]; omega), State.get_setA_zero]
  · rw [State.get_put_same]
    rfl

theorem State.monitorLost_eq : s.monitorLost n = if (s.scull n).monitorOk then (s.monitorFailed n).record { cls := 0, status := stTIMEOUT, unit := n, block := 0x0C } else s.monitorFailed n := rfl

end

/-- Settles O33: a Scull whose turn came is well governed, and no other turn and no count changes its registers. -/
theorem governorsSetTheirVoltages : Obligations.GovernorsSetTheirVoltages := by
  unfold Obligations.GovernorsSetTheirVoltages
  refine ⟨fun n leak temp s hcox => ⟨?_, ?_⟩, fun n leak temp ok s hcox => ⟨?_, ?_⟩, fun s hcox => ?_, fun r t d h => r.now_add t d h⟩
  · have hshown : ((s.start.setScull n { s.scull n with monitorOk := true }).put Fld.CATCH_VME_VME_MV n (min 600 (max 450 (Config.vme n leak temp)))).get Fld.CATCH_VME_VME_MV n =
        min 600 (max 450 (Config.vme n leak temp)) := by
      rw [State.get_put_same]
      exact Nat.mod_eq_of_lt (show min 600 (max 450 (Config.vme n leak temp)) < 4096 by omega)
    refine ⟨(s.start.setScull n { s.scull n with monitorOk := true }).put Fld.CATCH_VME_VME_MV n (min 600 (max 450 (Config.vme n leak temp))), ?_, rfl, ?_, ?_, ?_⟩
    · rw [exec_vmeUpdate, execVmeUpdate]
      rw [if_neg (show ¬ s.start.err.coxHalted = true from ne_true_of_eq_false hcox), if_pos rfl]
      rfl
    · rw [hshown]
      omega
    · rw [hshown]
      omega
    · exact State.scull_setScull s.start n _
  · have hlost : exec (.vmeUpdate n leak temp false) s = .next (s.start.monitorLost n) := by
      rw [exec_vmeUpdate, execVmeUpdate]
      rw [if_neg (show ¬ s.start.err.coxHalted = true from ne_true_of_eq_false hcox), if_neg Bool.false_ne_true]
    obtain ⟨ha, hvme⟩ := s.start.get_monitorFailed n
    have hok := s.start.monitorFailed_scull n
    have hquiet : (s.scull n).monitorOk = false → s.start.monitorLost n = s.start.monitorFailed n := fun h => by
      rw [State.monitorLost_eq, if_neg (show ¬ (s.start.scull n.val).monitorOk = true from ne_true_of_eq_false h)]
    cases hwas : (s.scull n).monitorOk with
    | false =>
      rw [hquiet hwas] at hlost
      exact ⟨_, hlost, ha, hok, hvme, fun _ => s.start.monitorFailed_governed n⟩
    | true =>
      rw [State.monitorLost_eq, if_pos (show (s.start.scull n.val).monitorOk = true from hwas), State.record_device _ (show ¬ 255 < 8 by decide)] at hlost
      refine ⟨_, hlost, ?_, ?_, ?_, fun h => absurd h (by decide)⟩
      · rw [State.get_ringWrite _ _ _ (by simp only [Fld.CATCH_STATE_A]; omega) (by decide), ha]
      · rw [State.ringWrite_frame]
        exact hok
      · rw [State.get_ringWrite _ _ _ (by simp only [Fld.CATCH_VME_VME_MV]; omega) (by decide), hvme]
  · rw [exec_vsoGovernorTick, execVsoGovernorTick]
    rw [if_pos (show s.start.err.coxHalted = true from hcox)]
  · rw [exec_vmeUpdate, execVmeUpdate]
    rw [if_pos (show s.start.err.coxHalted = true from hcox)]
  · refine ⟨s.start.governed, ?_, s.start.governed_governed, fun n hon hcap hvme => ?_⟩
    · rw [exec_vsoGovernorTick, execVsoGovernorTick]
      rw [if_neg (show ¬ s.start.err.coxHalted = true from ne_true_of_eq_false hcox)]
      rfl
    · have hwell := State.Governable.governed (s := s.start) ⟨hon, hcap, hvme⟩ n.isLt
      have hinput := fun g hg => State.get_governed s.start (g := g) n.isLt hg
      simp only [List.mem_cons, List.not_mem_nil, or_false, forall_eq_or_imp, forall_eq] at hinput
      obtain ⟨hvme', haggr', hesc'⟩ := hinput
      unfold State.WellGoverned State.flag at hwell
      rw [hvme', haggr', hesc'] at hwell
      exact hwell

end Sys2Proof.Machine
end

section
/-!
PROOFS. Chapter 7: the power domains (R308 to R311, R315, R570).
-/
namespace Sys2Proof.Machine

/-! ### Requests (R310, R311) -/

/-- The domains of Pockets have a unit. -/
theorem plainDomain_pocket {n : Nat} (hhigh : n < 48) : plainDomain n = false := by
  have hunit : domainUnit n = n := if_pos (show n ≤ 47 by omega)
  rw [plainDomain, hunit]
  exact decide_eq_false (by omega)

section
variable {s : State} {src : RegSrc} {d : BitVec 8} (h : s.start.reaches src 0x020010 = true) (hpend : s.get Fld.PWR_REQ_STATUS_PENDING 0 ≠ 1)
include h hpend

/-- A write of PWR_REQ with no request pending, by its action. -/
theorem busWrite_pwrReq (a : Fin 4) :
    s.start.busWrite src 0x020010 4 (pwrReqWord a d) = ((s.start.heal 0x020010).pwrReq (pwrReqWord a d)).mbAll.regAnswer stOK 0 ∧
    (s.start.heal 0x020010).flag Fld.PWR_REQ_STATUS_PENDING 0 = false := by
  refine ⟨?_, decide_eq_false hpend⟩
  rw [State.busWrite_reaches _ _ _ _ _ _ h find_PWR_REQ rfl rfl, State.commitReg_pwrReq _ _ _ _ _ _ rfl, Nat.mod_eq_of_lt (pwrReqWord_lt a d)]

theorem exec_pwrReqAuto_free : exec (.pwrReqAuto src d) s = .next (((s.start.heal 0x020010).reqAuto d.toNat).mbAll.regAnswer stOK 0) := by
  obtain ⟨hwrite, hflag⟩ := busWrite_pwrReq (d := d) h hpend 0
  rw [exec_pwrReqAuto, execPwrReqAuto, show d.toNat = pwrReqWord 0 d by simp [pwrReqWord], hwrite, State.pwrReq, if_neg (ne_true_of_eq_false hflag),
    bits_action_pwrReqWord, bits_domain_pwrReqWord]
  simp [pwrReqWord]

theorem exec_pwrReqOn_free : exec (.pwrReqOn src d) s = .next (((s.start.heal 0x020010).reqOn d.toNat).mbAll.regAnswer stOK 0) := by
  obtain ⟨hwrite, hflag⟩ := busWrite_pwrReq (d := d) h hpend 1
  rw [exec_pwrReqOn, execPwrReqOn, show 0x100 + d.toNat = pwrReqWord 1 d from rfl, hwrite, State.pwrReq, if_neg (ne_true_of_eq_false hflag),
    bits_action_pwrReqWord, bits_domain_pwrReqWord]
  rfl

theorem exec_pwrReqOff_free : exec (.pwrReqOff src d) s = .next (((s.start.heal 0x020010).reqOff d.toNat false).mbAll.regAnswer stOK 0) := by
  obtain ⟨hwrite, hflag⟩ := busWrite_pwrReq (d := d) h hpend 2
  rw [exec_pwrReqOff, execPwrReqOff, show 0x200 + d.toNat = pwrReqWord 2 d from rfl, hwrite, State.pwrReq, if_neg (ne_true_of_eq_false hflag),
    bits_action_pwrReqWord, bits_domain_pwrReqWord]
  rfl

theorem exec_pwrReqForceOff_free : exec (.pwrReqForceOff src d) s = .next (((s.start.heal 0x020010).reqOff d.toNat true).mbAll.regAnswer stOK 0) := by
  obtain ⟨hwrite, hflag⟩ := busWrite_pwrReq (d := d) h hpend 3
  rw [exec_pwrReqForceOff, execPwrReqForceOff, show 0x300 + d.toNat = pwrReqWord 3 d from rfl, hwrite, State.pwrReq, if_neg (ne_true_of_eq_false hflag),
    bits_action_pwrReqWord, bits_domain_pwrReqWord]
  rfl

end

section
variable {u : State} {n : Nat}

theorem State.reqAuto_barred (hbar : u.domBarred n = true) : u.reqAuto n = u.reqDone n stDENIED := by
  rw [State.reqAuto, if_pos hbar]

theorem State.reqAuto_free (hbar : u.domBarred n = false) :
    u.reqAuto n = (if (u.pin n false).domOn n ∨ (u.pin n false).waking n ∨ (u.pin n false).domIdle n then u.pin n false else (u.pin n false).wake n).reqDone n stOK := by
  rw [State.reqAuto, if_neg (ne_true_of_eq_false hbar)]

theorem State.reqOn_denied (h : u.domBarred n = true ∨ u.domForeign n = true) : u.reqOn n = u.reqDone n stDENIED := by
  rw [State.reqOn, if_pos h]

theorem State.reqOff_denied (h : u.domBarred n = true ∨ u.domForeign n = true) : u.reqOff n false = u.reqDone n stDENIED := by
  rw [State.reqOff]
  rw [if_pos (h.imp id fun hforeign => ⟨rfl, hforeign⟩)]

theorem State.reqOff_barred (hbar : u.domBarred n = true) (force : Bool) : u.reqOff n force = u.reqDone n stDENIED := by
  rw [State.reqOff]
  rw [if_pos (.inl hbar)]

variable (hbar : u.domBarred n = false)
include hbar

theorem State.reqOn_free (hforeign : u.domForeign n = false) : u.reqOn n = if u.quiescing (domainUnit n) then u.reqDone n stBUSY else if (u.pin n true).domOn n then (u.pin n true).reqDone n stOK
    else (({ (u.pin n true) with pwr := { (u.pin n true).pwr with explicit := some n } }).reqPending n).wake n := by
  rw [State.reqOn, if_neg (show ¬ (u.domBarred n = true ∨ u.domForeign n = true) by rw [hbar, hforeign]; decide)]

theorem State.reqOff_busy (hforeign : u.domForeign n = false) (hbusy : u.domBusy n = true) : u.reqOff n false = u.reqDone n stBUSY := by
  simp only [State.reqOff, hbar, hforeign, hbusy, Bool.false_and, Bool.not_false, Bool.false_eq_true, and_false, or_false, if_false, and_true, if_true]

section
variable (hforeign : u.domForeign n = false) (hbusy : u.domBusy n = false)
include hforeign hbusy

theorem State.reqOff_off (hoff : u.domOn n = false) (hwake : u.waking n = false) : u.reqOff n false = (u.pin n true).reqDone n stOK := by
  simp only [State.reqOff, hbar, hforeign, hbusy, hoff, hwake, Bool.false_eq_true, and_false, or_false, if_false, Bool.not_false, and_true, if_true]

theorem State.reqOff_plain (hon : u.domOn n = true) (hplain : plainDomain n = true) (force : Bool) : u.reqOff n force = ((u.domainOff n).pin n true).reqDone n stOK := by
  simp only [State.reqOff, hbar, hforeign, hbusy, hon, hplain, Bool.false_eq_true, and_false, or_false, if_false, Bool.not_true, false_and, if_true]

theorem State.reqOff_asked (hon : u.domOn n = true) (hplain : plainDomain n = false) {q : State} (hq : (u.reqPending n).askQuiesce (domainUnit n) .off = some q) : u.reqOff n false = q := by
  simp only [State.reqOff, hbar, hforeign, hbusy, hon, hplain, Bool.false_and, Bool.false_eq_true, and_false, or_false, if_false, Bool.not_true, false_and, hq]

end

theorem State.reqOff_forced (hon : u.domOn n = true) (hlow : 16 ≤ n) (hhigh : n < 48) {q : State} (hq : (u.reqPending n).askQuiesce (domainUnit n) .forceOff = some q) : u.reqOff n true = q := by
  simp only [State.reqOff, hbar, hon, hlow, hhigh, plainDomain_pocket hhigh, decide_true, Bool.and_self, Bool.false_eq_true, false_and, or_false, if_false, Bool.not_true, if_true, hq]

end

/-! ### The automatic policy (R308, R309) -/

theorem powerPolicy_free {s : State} {d : Fin 72} (hon : s.domOn d = true) (hpin : s.pinned d = false) (hidle : s.domIdle d = true) (hfit : s.domFitted d = true)
    (hcox : s.err.coxHalted = false) :
    ¬ ((!s.start.domOn d.val) = true ∨ s.start.pinned d.val = true ∨ (!s.start.domIdle d.val) = true ∨ (!s.start.domFitted d.val) = true ∨ s.start.err.coxHalted = true) := by
  rw [show s.start.domOn d.val = true from hon, show s.start.pinned d.val = false from hpin, show s.start.domIdle d.val = true from hidle,
    show s.start.domFitted d.val = true from hfit, show s.start.err.coxHalted = false from hcox]
  decide

/-- Settles O32: a request by `State.reqOn`, `reqOff` and `reqAuto`, the policy and the wakes by their commands. -/
theorem domainsSwitchByRequestAndByPolicy : Obligations.DomainsSwitchByRequestAndByPolicy := by
  unfold Obligations.DomainsSwitchByRequestAndByPolicy
  refine ⟨fun src d s h hpend => ⟨fun hbar => ?_, fun hbar hforeign => ?_, fun hbar => ?_⟩, fun d s hcox => ⟨fun hon hpin hidle hfit => ⟨fun hplain => ?_, fun q hplain hq => ?_⟩, fun hpin => ?_⟩,
    fun d s hwake => ?_, fun d s hwake hcox => ?_⟩
  · rw [exec_pwrReqOn_free h hpend, exec_pwrReqAuto_free h hpend, exec_pwrReqOff_free h hpend, exec_pwrReqForceOff_free h hpend,
      State.reqOn_denied (.inl hbar), State.reqAuto_barred hbar, State.reqOff_barred hbar, State.reqOff_barred hbar]
    exact ⟨rfl, rfl, rfl, rfl⟩
  · rw [exec_pwrReqOn_free h hpend, exec_pwrReqOff_free h hpend, State.reqOn_denied (.inr hforeign), State.reqOff_denied (.inr hforeign)]
    exact ⟨rfl, rfl⟩
  · rw [exec_pwrReqOn_free h hpend, exec_pwrReqAuto_free h hpend, exec_pwrReqOff_free h hpend, exec_pwrReqForceOff_free h hpend, State.reqAuto_free hbar]
    refine ⟨fun hforeign hq => ?_, fun hforeign hq hon => ?_, fun hforeign hq hoff => ?_, rfl, fun hforeign hbusy => ?_, fun hforeign hbusy hoff hwake => ?_,
      fun hforeign hbusy hon hplain => ?_, fun q hforeign hbusy hon hplain hq => ?_, fun q hon hq hlow hhigh => ?_⟩
    · rw [State.reqOn_free hbar hforeign, if_pos hq]
    · rw [State.reqOn_free hbar hforeign, if_neg (ne_true_of_eq_false hq), if_pos hon]
    · rw [State.reqOn_free hbar hforeign, if_neg (ne_true_of_eq_false hq), if_neg (ne_true_of_eq_false hoff)]
    · rw [State.reqOff_busy hbar hforeign hbusy]
    · rw [State.reqOff_off hbar hforeign hbusy hoff hwake]
    · rw [State.reqOff_plain hbar hforeign hbusy hon hplain, State.reqOff_plain hbar hforeign hbusy hon hplain]
      exact ⟨rfl, rfl⟩
    · rw [State.reqOff_asked hbar hforeign hbusy hon hplain hq]
    · rw [State.reqOff_forced hbar hon hlow hhigh hq]
  · rw [exec_powerPolicyOff, execPowerPolicyOff]
    rw [if_neg (powerPolicy_free hon hpin hidle hfit hcox), if_pos hplain]
  · rw [exec_powerPolicyOff, execPowerPolicyOff]
    rw [if_neg (powerPolicy_free hon hpin hidle hfit hcox), if_neg (ne_true_of_eq_false hplain)]
    rw [hq]
  · rw [exec_powerPolicyOff, execPowerPolicyOff]
    rw [if_pos (show (!s.start.domOn d.val) = true ∨ s.start.pinned d.val = true ∨ _ from .inr (.inl hpin))]
  · rw [exec_domainWakeDone, execDomainWakeDone]
    rw [if_pos (show s.start.waking d.val = true from hwake)]
  · rw [exec_wakeTimeout, execWakeTimeout]
    rw [if_neg (show ¬ ((!s.start.waking d.val) = true ∨ s.start.err.coxHalted = true) by
      rw [show s.start.waking d.val = true from hwake, show s.start.err.coxHalted = false from hcox]; decide)]
    rfl

end Sys2Proof.Machine
end

section
/-!
PROOFS. Chapter 6: the slide engines' starts, aborts and bursts (R179, R202, R254, R257 to R263, R273, R274).
-/
namespace Sys2Proof.Machine

/-! ### START and ABORT -/

/-- SLD_CTRL of a START names its context in bits 15 to 8. -/
theorem bits_context_start_word (c : Nat) : bits (c % 256 * 256 + 1) 15 8 = c % 256 := by
  simp only [bits]
  omega

/-- A partition may use only contexts of its own. -/
theorem State.ctxsOf_of_ctxUsable {s : State} {p c : Nat} (h : s.ctxUsable p c = true) : (s.ctxsOf p).contains c = true := by
  rw [State.ctxUsable, Bool.and_eq_true] at h
  exact h.1

/-- An engine with no transfer of its own to end: idle, done or failed. -/
def Slide.ready (x : Slide) : Prop := x.st = 0 ∨ x.st = 4 ∨ x.st = 5

theorem Slide.ready.inactive {x : Slide} (h : x.ready) : ¬ (x.st = 1 || x.st = 2 || x.st = 3 : Bool) = true := by
  rcases h with h | h | h <;> rw [h] <;> decide

section
variable {s : State} {e p : Nat}

/-- A START of an idle engine of the writing partition, in a usable context of it. -/
theorem State.sldCtrl_start {c : Nat} (hc : c < 256) (hown : s.slideAllowed e p = true) (huse : s.ctxUsable p c = true) (hready : (s.slide e).ready) :
    s.sldCtrl e p (c % 256 * 256 + 1) none = (stOK, (s.put Fld.SLD_CTRL_CTX e c).slideStart e c p none) := by
  have hctx : bits (c % 256 * 256 + 1) 15 8 = c := (bits_context_start_word c).trans (Nat.mod_eq_of_lt hc)
  unfold State.sldCtrl
  dsimp only
  rw [hctx, if_neg (bits_start_word c), if_neg (show ¬ (_ ∧ (!s.slideAllowed e p) = true) by rw [hown]; exact fun h => Bool.false_ne_true h.2),
    if_neg (ne_true_of_eq_false (bit_abort_start_word c)), if_neg hready.inactive, if_neg (show ¬ (!s.ctxUsable p c) = true by rw [huse]; decide),
    if_pos (State.ctxsOf_of_ctxUsable huse)]
  rfl

/-- A START by a running task, in the task's context. -/
theorem State.sldCtrl_start_task {k : Nat} {t : Task} (c : Nat) (huse : s.ctxUsable p t.ctx = true) (hready : (s.slide e).ready) :
    s.sldCtrl e p (c % 256 * 256 + 1) (some (k, t)) = (stOK, (s.put Fld.SLD_CTRL_CTX e t.ctx).slideStart e t.ctx p (some k)) := by
  unfold State.sldCtrl
  dsimp only
  rw [if_neg (bits_start_word c), if_neg (show ¬ ((some (k, t)).isNone = true ∧ _) from fun h => Bool.false_ne_true h.1),
    if_neg (ne_true_of_eq_false (bit_abort_start_word c)), if_neg hready.inactive, if_neg (show ¬ (!s.ctxUsable p t.ctx) = true by rw [huse]; decide),
    if_pos (State.ctxsOf_of_ctxUsable huse)]
  rfl

/-- An ABORT of an active engine of the writing partition. -/
theorem State.sldCtrl_abort (hown : s.slideAllowed e p = true) (hactive : (s.slide e).st = 1 ∨ (s.slide e).st = 2 ∨ (s.slide e).st = 3) :
    s.sldCtrl e p 2 none = (stOK, (if (s.ctxsOf p).contains 0 then s.put Fld.SLD_CTRL_CTX e 0 else s).slideError e stABORTED) := by
  have hact : (decide ((s.slide e).st = 1) || decide ((s.slide e).st = 2) || decide ((s.slide e).st = 3)) = true := by
    rcases hactive with h | h | h <;> rw [h] <;> decide
  unfold State.sldCtrl
  dsimp only
  rw [if_neg (show ¬ bits 2 1 0 = 0 by decide), if_neg (show ¬ (_ ∧ (!s.slideAllowed e p) = true) by rw [hown]; exact fun h => Bool.false_ne_true h.2),
    if_pos (show bit 2 1 = true by decide), if_pos hact, show bits 2 15 8 = 0 by decide]

end

/-- A write that SLD_CTRL takes, from a register view or from a running task. -/
theorem State.busWrite_sldCtrl {s u : State} {src : RegSrc} {e : Fin 72} {v : Nat} (hv : v < 2 ^ 32) (h : s.reaches src (0x0A0008 + e.val * 0x80) = true)
    {by_ : Option (Nat × Task)} (hby : (s.heal (0x0A0008 + e.val * 0x80)).writerTask src = by_)
    (hctrl : (s.heal (0x0A0008 + e.val * 0x80)).sldCtrl e (s.regWho src).part v by_ = (stOK, u)) :
    s.busWrite src (0x0A0008 + e.val * 0x80) 4 v = u.regAnswer stOK 0 := by
  rw [State.busWrite_reaches _ _ _ _ _ _ h (find_SLD_CTRL e) rfl rfl, State.commitReg_sldCtrl _ _ _ _ _ _ rfl, hby, Nat.mod_eq_of_lt hv, hctrl]

/-! ### Watchpoints -/

section
variable {s : State} {n : Nat} (h : s.unwatched n = true)
include h

/-- A Scull without watchpoints has none hit. -/
theorem State.watch_of_unwatched (ctx a len : Nat) (write : Bool) : s.watch n ctx a len write = s := by
  unfold State.unwatched at h
  rw [List.all_eq_true] at h
  unfold State.watch
  rw [List.find?_eq_none.mpr fun k hk => ?_]
  have hnone := Option.isNone_iff_eq_none.mp (h k hk)
  rw [hnone]
  exact Bool.false_ne_true

end

theorem State.watchBurst_of_unwatched {s old : State} {e : Nat} (h : 64 ≤ e ∨ s.unwatched (e / 4) = true) : s.watchBurst old e = s := by
  unfold State.watchBurst
  dsimp only
  split
  · rfl
  next hwatch =>
    have hun : s.unwatched (e / 4) = true := h.resolve_left fun hle => hwatch (.inl hle)
    rw [List.foldl_fixed' fun j => ?_]
    · split
      · exact State.watch_of_unwatched hun _ _ _ _
      · rfl
    · split
      · exact State.watch_of_unwatched hun _ _ _ _
      · rfl

theorem State.unwatched_of_dbg {s t : State} {n : Nat} (h : t.dbg = s.dbg) (hun : s.unwatched n = true) : t.unwatched n = true := by
  unfold State.unwatched
  rw [h]
  exact hun

theorem State.ownBytes_dbg (s : State) (a : Nat) (bs : List Byte) : (s.ownBytes a bs).dbg = s.dbg := by
  rw [s.ownBytes_onlyCoherent a bs]

theorem State.showSlide_dbg (s : State) (e : Nat) : (s.showSlide e).dbg = s.dbg := by
  unfold State.showSlide State.showCtx
  dsimp only
  split <;> rfl

theorem State.putSlide_dbg (s : State) (e : Nat) (x : Slide) : (s.putSlide e x).dbg = s.dbg := by
  unfold State.putSlide State.writeStatus
  dsimp only
  split
  · exact State.showSlide_dbg _ e
  · rw [State.ownBytes_dbg, State.ownBytes_dbg, State.ownBytes_dbg, State.showSlide_dbg]

theorem State.noteMiss_dbg (s : State) (xlu ctx va : Nat) (k : Access) (w : Work) (tid : Nat) : (s.noteMiss xlu ctx va k w tid).dbg = s.dbg := by
  unfold State.noteMiss
  dsimp only
  split <;> rfl

/-! ### Bursts -/

/-- The next burst of an engine: its length, and its source addresses as the engine's context has them. -/
def Slide.nextLen (x : Slide) : Nat := x.burstLen 64 x.issued 0

def Slide.nextSrcs (x : Slide) : List (Option Nat) := (List.range x.nextLen).map fun j => x.addr false (x.issued + j)

def Slide.nextVas (x : Slide) : List Nat := x.nextSrcs.map fun o => o.getD 0

/-- The physical source addresses of the next burst. -/
def State.nextPas (s : State) (e : Nat) (x : Slide) : List Nat := x.nextVas.map fun a => (s.engineHit e x.ctx a .read).getD 0

section
variable {s : State} {e : Nat} (hrun : (s.slide e).st = 1) (hleft : (s.slide e).issued < (s.slide e).total) (hroom : (s.slide e).bursts.length < 8)

theorem Slide.burst_open {x : Slide} (hrun : x.st = 1) (hleft : x.issued < x.total) (hroom : x.bursts.length < 8) : ¬ (x.st ≠ 1 ∨ x.total ≤ x.issued ∨ 8 ≤ x.bursts.length) := by
  omega

include hrun hleft hroom

/-- Without credit the engine waits (R263). -/
theorem State.issueBurst_no_credit (hcredit : s.credit (s.slide e) (s.slide e).nextLen = false) : s.issueBurst e = s.putSlide e { s.slide e with st := 2 } := by
  unfold Slide.nextLen at hcredit
  unfold State.issueBurst
  dsimp only
  rw [if_neg (Slide.burst_open hrun hleft hroom), hcredit, if_pos (show (!false) = true from rfl)]

variable (hcredit : s.credit (s.slide e) (s.slide e).nextLen = true) {d : Nat} (hd : (s.slide e).addr true (s.slide e).issued = some d)
  (hsrcs : (s.slide e).nextSrcs.all Option.isSome = true)
include hcredit hd hsrcs

/-- An address that misses is noted (R202). -/
theorem State.issueBurst_miss {m : Nat} (hmiss : s.firstMiss e (s.slide e).ctx .read (s.slide e).nextVas = some m) :
    s.issueBurst e = s.noteMiss (engineXlu e) (s.slide e).ctx m .read (.slide (Fin.ofNat 72 e)) 0 := by
  unfold Slide.nextVas Slide.nextSrcs Slide.nextLen at *
  unfold State.issueBurst
  dsimp only
  rw [if_neg (Slide.burst_open hrun hleft hroom), hcredit, if_neg (show ¬ (!true) = true from Bool.false_ne_true), hd, hsrcs]
  dsimp only
  rw [hmiss]

/-- With every address translated the burst is read, line by line (R259, R261). -/
theorem State.issueBurst_sent (hhit : s.firstMiss e (s.slide e).ctx .read (s.slide e).nextVas = none) {dp : Nat} (hdp : s.engineHit e (s.slide e).ctx d .write = some dp) :
    s.issueBurst e = ((s.nextPas e (s.slide e)).map fun a => a / 64 * 64).dedup.foldl (fun s l => s.emit (.readOnce (.slide (Fin.ofNat 72 e)) (s.engineTag e) l))
      (s.putSlide e { s.slide e with bursts := (s.slide e).bursts ++ [{ off := (s.slide e).issued, len := (s.slide e).nextLen, dst := dp, srcs := s.nextPas e (s.slide e), got := [], sent := true, done := false }],
                                     issued := (s.slide e).issued + (s.slide e).nextLen }) := by
  unfold State.nextPas
  unfold Slide.nextVas Slide.nextSrcs Slide.nextLen at *
  unfold State.issueBurst
  dsimp only
  rw [if_neg (Slide.burst_open hrun hleft hroom), hcredit, if_neg (show ¬ (!true) = true from Bool.false_ne_true), hd, hsrcs]
  dsimp only
  rw [hhit, hdp]

end

theorem State.firstMiss_start (s : State) (e ctx : Nat) (k : Access) (vas : List Nat) : s.start.firstMiss e ctx k vas = s.firstMiss e ctx k vas := by
  induction vas with
  | nil => rfl
  | cons a vas ih =>
    rw [State.firstMiss, State.firstMiss, ih]
    rfl

/-- Emissions leave the watchpoints. -/
theorem State.foldl_emit_dbg (f : State → Nat → Out) (ls : List Nat) (s : State) : (ls.foldl (fun s l => s.emit (f s l)) s).dbg = s.dbg := by
  induction ls generalizing s with
  | nil => rfl
  | cons l ls ih => rw [List.foldl_cons, ih, State.emit_dbg]

/-- The issue of a burst by an engine without watchpoints. -/
theorem exec_slideBurstIssue_of_up {e : Fin 72} {s t : State} (hup : s.unitDown (engineUnit e) = false) (hwatch : 64 ≤ e.val ∨ s.unwatched (e.val / 4) = true)
    (hissue : s.start.issueBurst e = t) (hdbg : t.dbg = s.start.dbg) : exec (.slideBurstIssue e) s = .next t := by
  rw [exec_slideBurstIssue, execSlideBurstIssue, if_neg (show ¬ s.start.unitDown (engineUnit e.val) = true from ne_true_of_eq_false hup), hissue,
    State.watchBurst_of_unwatched (hwatch.imp id fun hun => State.unwatched_of_dbg (s := s) hdbg hun)]

/-- Settles O29: START and ABORT by `State.sldCtrl`, a burst by `State.issueBurst`. -/
theorem slideEnginesStartAbortAndIssue : Obligations.SlideEnginesStartAbortAndIssue := by
  unfold Obligations.SlideEnginesStartAbortAndIssue
  refine ⟨fun src e c s h => ⟨fun hview hown hc huse hready => ?_, fun n k t hsrc hrun huse hready => ?_, fun hview hown hactive => ?_⟩,
    fun e s hup hwatch => ?_, fun e s hst hcredit hup => ?_⟩
  · rw [exec_sldStart, execSldStart, State.busWrite_sldCtrl (start_word_lt c) h (State.writerTask_of_view _ hview) (State.sldCtrl_start hc hown huse hready)]
  · have hby : (s.start.heal (0x0A0008 + e.val * 0x80)).writerTask src = some (k, t) := by
      rw [hsrc]
      exact hrun
    rw [exec_sldStart, execSldStart, State.busWrite_sldCtrl (start_word_lt c) h hby (State.sldCtrl_start_task c huse hready)]
  · rw [exec_sldAbort, execSldAbort, State.busWrite_sldCtrl (by decide) h (State.writerTask_of_view _ hview) (State.sldCtrl_abort hown hactive)]
    rfl
  · have he : Fin.ofNat 72 e.val = e := Fin.ext (Nat.mod_eq_of_lt e.isLt)
    intro x n srcs va pa hrun hleft hroom
    refine ⟨fun hcredit => ?_, fun d m hcredit hd hsrcs hmiss => ?_, fun d dp hcredit hd hsrcs hhit hdp => ?_⟩
    · exact exec_slideBurstIssue_of_up hup hwatch (State.issueBurst_no_credit (s := s.start) hrun hleft hroom hcredit) (State.putSlide_dbg _ _ _)
    · refine exec_slideBurstIssue_of_up hup hwatch ((State.issueBurst_miss (s := s.start) hrun hleft hroom hcredit hd hsrcs ((State.firstMiss_start _ _ _ _ _).trans hmiss)).trans ?_) (State.noteMiss_dbg _ _ _ _ _ _ _)
      rw [he]
      rfl
    · refine exec_slideBurstIssue_of_up hup hwatch ((State.issueBurst_sent (s := s.start) hrun hleft hroom hcredit hd hsrcs ((State.firstMiss_start _ _ _ _ _).trans hhit) hdp).trans ?_)
        ((State.foldl_emit_dbg _ _ _).trans (State.putSlide_dbg _ _ _))
      rw [he]
      rfl
  · rw [exec_slideCreditArrives, execSlideCreditArrives]
    rw [if_pos (show (s.start.slide e.val).st = 2 ∧ s.start.credit (s.start.slide e.val) ((s.start.slide e.val).burstLen 64 (s.start.slide e.val).issued 0) = true ∧ (!s.start.unitDown (engineUnit e.val)) = true from
      ⟨hst, hcredit, by rw [show s.start.unitDown (engineUnit e.val) = false from hup]; decide⟩)]
    rfl

end Sys2Proof.Machine
end
